-- ==== Sys2Proof/Word.lean ====
section
/-! DEFINITION. The word types of the SV-16 block. Bit 0 is the least significant bit of every field, register and
structure (R15); multi-byte values are little-endian (R16). -/

namespace Sys2Proof

abbrev Byte := BitVec 8
abbrev W16 := BitVec 16
abbrev W32 := BitVec 32
abbrev W64 := BitVec 64

/-- A finite table keyed by an index, in rising order of key. A key that is not listed holds the table's default. -/
abbrev Table (α : Type) := List (Nat × α)

end Sys2Proof
end

