-- ==== Sys2Proof/Syntax.lean ====
section
/-! DEFINITION. The commands of the block: one constructor of `Instr` for each row of the opcode table, with the
operands the specification gives that command. A command names the unit it happens at (an engine slot, a queue, a
port, a partition) and carries only what comes from outside the block: a value written, a message received, the
outcome of a check. Words that the block itself holds (an instruction in a slot's fetched code line, a packet in a
ring, a word of a partition program, the arguments of a request) are read from the state. -/

namespace Sys2Proof

/-- A launch slot of an engine (R104). -/
structure SlotId where
  engine : Nat
  slot : Nat
deriving DecidableEq, Repr

/-- A PCIe function: the physical function or a virtual function (chapter 14). -/
inductive Fn where
  | pf
  | vf (v : Nat)
deriving DecidableEq, Repr

/-- The outcome of the checks of one vector instruction (R103, R247): they agree, they disagree once and the reissued
instruction agrees, or the reissue disagrees too. (DESIGN CHOICE: log 97) -/
inductive Check where
  | agree
  | retried
  | failed
deriving DecidableEq, Repr

/-- An island other than the spine (Table 1-1). -/
inductive Island where
  | engine (e : Nat)
  | memory (i : Nat)
  | fabric (i : Nat)
  | chiplet (i : Nat)
  | host
  | warden
deriving DecidableEq, Repr

/-- Who asked for a transfer that failed (Table 15-2). -/
inductive Requester where
  | launch (a : SlotId)
  | frontEnd (q : Nat)
  | unit
  | schedule (p : Nat)
deriving DecidableEq, Repr

/-- The holders of a segment cache (R443). -/
inductive CacheId where
  | engine (e : Nat)
  | proxy (port : Nat)
  | frontEnd
  | host
deriving DecidableEq, Repr

/-- A unit of the Floor Plan Table (Table 19-3, TYPE and INDEX). -/
inductive UnitId where
  | engine (i : Nat)
  | foreign (i : Nat)
  | channel (i : Nat)
  | way (i : Nat)
  | fabricPort (i : Nat)
  | array (i : Nat)
  | collective (i : Nat)
  | chipletPort (i : Nat)
deriving DecidableEq, Repr

/-- A reference clock source (R802, R803). -/
inductive ClockSource where
  | ref
  | fab (port : Nat)
deriving DecidableEq, Repr

/-- The header slot of a CPP message without its OP, and its data lines (Table 11-3). -/
structure CppMsg where
  flags : BitVec 8
  fe : BitVec 8
  lines : BitVec 8
  tag : BitVec 16
  status : BitVec 16
  addr : BitVec 64
  arg0 : BitVec 64
  arg1 : BitVec 64
  data : List Byte
deriving DecidableEq, Repr

/-- A fabric message: the header line of Table 12-6 and its data lines. -/
structure OfpMsg where
  type : BitVec 8
  lines : BitVec 8
  phase : BitVec 3
  order : Bool
  copy : Bool
  sourceRouted : Bool
  hop : BitVec 8
  srcHub : BitVec 16
  dstHub : BitVec 16
  ownerTag : BitVec 16
  e2eSeq : BitVec 16
  routeLen : BitVec 3
  route : BitVec 25
  f10 : BitVec 64
  f18 : BitVec 64
  f20 : BitVec 64
  f28 : BitVec 64
  f30 : BitVec 64
  f38 : BitVec 64
  data : List Byte
deriving DecidableEq, Repr

/-- A received flit (Table 12-4): its header fields, whether its CRC is good, what the FEC corrected, and the messages it
completes. -/
structure Flit where
  seq : BitVec 12
  ackSeq : BitVec 12
  ackValid : Bool
  nak : Bool
  vc : BitVec 2
  lines : BitVec 5
  credVc : BitVec 2
  credPhase : BitVec 3
  credLines : BitVec 10
  cred2Vc : BitVec 2
  cred2Phase : BitVec 3
  cred2Lines : BitVec 10
  turnNs : BitVec 17
  crcGood : Bool
  /-- Symbols that the FEC corrected in its codewords. -/
  corrected : Nat
  msgs : List OfpMsg
deriving DecidableEq, Repr

/-- What the peer sends in IDENT (R569); `hub` is none while the peer has no hub ID. -/
structure PeerIdent where
  hub : Option (BitVec 16)
  port : Nat
  major : Nat
  minor : Nat
  sizeClass : Nat
deriving DecidableEq, Repr

/-- A message to Sage (Table 15-6). -/
structure SageMsg where
  source : BitVec 12
  kind : BitVec 8
  initiator : BitVec 16
  access : BitVec 4
  address : BitVec 52
  thyme : BitVec 36
deriving DecidableEq, Repr

/-- A line that patrol scrub visits (R707). -/
inductive Place where
  | engineStore (e addr : Nat)
  | way (w : Nat) (addr : Nat) (dirty : Bool)
  | collective (u line : Nat)
  | channel (m addr : Nat)
deriving DecidableEq, Repr

/-- What patrol scrub finds at a line (R705, R707, R708). -/
inductive ScrubFinding where
  | clean
  | corrected
  | recovered
  | lost
deriving DecidableEq, Repr

/-- A grant of debug authorisation (Table 17-8). -/
inductive Grant where
  | test
  | hub
  | rma
  | recorder
  | partition (p : Nat)
deriving DecidableEq, Repr

/-- A received request that no region covers (R665). -/
inductive PcieReq where
  | memRead
  | memWrite
  | atomicOp
  | io
deriving DecidableEq, Repr

/-- The commands of the block, one for each row of the opcode table. -/
inductive Instr where
  /-- POR_N_ASSERT (R41). Assertion of por_n resets the whole hub and counts as a power cycle. -/
  | porNAssert
  /-- SYS_RST_N_ASSERT (R41). Assertion of sys_rst_n resets the whole hub. -/
  | sysRstNAssert
  /-- HUB_RESET_RELEASE (R837). Release of por_n or sys_rst_n starts the bring-up sequence from Warden ROM. -/
  | hubResetRelease
  /-- PERST_N_ASSERT (R42). PCIe fundamental reset resets only the host island; its in-flight host transfers fail and are replayed. -/
  | perstNAssert
  /-- IVR_PG_LOSS (R43). Loss of power good retires an engine and replays its work, or resets the hub for other domains. -/
  | ivrPgLoss (d : Nat)
  /-- IVR_ACK (R810). A regulator reports it has settled at the requested code, letting the operating-point change proceed. -/
  | ivrAck (d : Nat)
  /-- IVR_ACK_TIMEOUT (R44). No ivr_ack within 100 us withdraws the change and reports the regulator to Sage. -/
  | ivrAckTimeout (d : Nat)
  /-- IVR_OC_ASSERT (R830). An over-current warning lowers an unpinned engine's operating point by 100 MHz, or is only reported. -/
  | ivrOcAssert (d : Nat)
  /-- DROOP (R827). A droop detector trips and an engine island halves its clock until the voltage recovers. -/
  | droop (d : Nat)
  /-- TS_VALID_TIMEOUT (R45). A sensor with ts_valid low for 10 ms is treated as reading its maximum code. -/
  | tsValidTimeout (sensor : Nat)
  /-- THERMAL_EMERGENCY (R832). The hottest sensor reaches EMERG; engines drop to 400 MHz, static reservations are released and schedules roll back. -/
  | thermalEmergency (sensor : Nat) (code : BitVec 11)
  /-- THERMAL_EMERGENCY_END (R833). After 100 ms of every sensor below WARN minus 5 C, reservations and pins are restored. -/
  | thermalEmergencyEnd
  /-- THERMAL_TRIP (R831). The hottest sensor reaches TRIP and the hub enters the safe state. -/
  | thermalTrip (sensor : Nat) (code : BitVec 11)
  /-- REC_ACCESS_FAIL (R746). A record-store access times out, returns rec_err or mismatches on read-back; it is repeated once, then the port fails. -/
  | recAccessFail
  /-- CROSSING_TIMEOUT (R33). A crossing handshake not completed within 64 ns reports a crossing failure to Sage. -/
  | crossingTimeout (island : Island)
  /-- SPINE_CRC_MISMATCH (R38). A spine-link CRC-32C mismatch retries the transfer once, then fails it for replay. -/
  | spineCrcMismatch (link : Nat) (transfer : Nat) (who : Requester)
  /-- REF_CLOCK_SELECT (R802). ref_clk_100 toggling for 100 us after por_n release is selected as the reference. -/
  | refClockSelect
  /-- FAB_REC_CLOCK_SELECT (R803). Without ref_clk_100, fab_rec_clk of the lowest locked fabric port is selected. -/
  | fabRecClockSelect (port : Nat)
  /-- NO_REFERENCE_TIMEOUT (R804). No reference 10 s after por_n release: stay on the oscillator and report CLOCK to Sage. -/
  | noReferenceTimeout
  /-- REF_CLOCK_LOSS (R806). Loss of the active reference moves PLLs to the other locked source or into holdover. -/
  | refClockLoss
  /-- HOLDOVER_TIMEOUT (R807). Holdover lasting 10 ms drives the hub to the safe state. -/
  | holdoverTimeout
  /-- CLK_CTRL_WRITE (R805). Firmware changes the reference source glitch-free if the named source is locked. -/
  | clkCtrlWrite (v : BitVec 64)
  /-- REGISTER_WRITE (R17). A write to a register field that has no behaviour of its own follows its access type. -/
  | registerWrite (fn : Fn) (bar off width : Nat) (v hwSet : BitVec 64)
  /-- DISPATCH_ROUND (R483). The scheduler places startable workgroups or resumable launches on engines in VTIME order. -/
  | dispatchRound (p : Nat)
  /-- FOLD_SWAP (R111). A tensor instruction naming a non-resident logical array swaps array state with the fold region once the array is quiet. -/
  | foldSwap (a : SlotId) (arr : Nat)
  /-- PASS_COMMIT (R117). An array pass commits its last result to the bank after its checks agree. -/
  | passCommit (a : SlotId) (arr : Nat) (agree : Bool)
  /-- CHECK_POINT (R125). A slot reaches a check point at least every 10 us, where pre-emption or abort takes effect. -/
  | checkPoint (a : SlotId)
  /-- ARRAY_IMAGE_WRITTEN (R866). The last line of a pre-empted launch's array images is accepted and its arrays and slot are released. -/
  | arrayImageWritten (a : SlotId)
  /-- SCRUB_COMPLETE (R137). A scrub of engine-store units finishes, letting waiting launches start. -/
  | scrubComplete (e n : Nat)
  /-- STORE_SECDED_ERROR (R129). An engine-store read finds a SECDED error: corrected and counted, or a store failure if double. -/
  | storeSecdedError (e addr : Nat) (double : Bool)
  /-- PARK (R144). A launch that has waited 10 us on its queue is parked into a free park-store place. -/
  | park (a : SlotId)
  /-- WAKE (R148). A parked launch is woken into a slot when its packet becomes visible. -/
  | wake (e place : Nat)
  /-- TDLD (R170). Loads a tensor descriptor register from the allotment. -/
  | tdld (a : SlotId)
  /-- TDSET (R171). Writes one field of a tensor descriptor register from a scalar register. -/
  | tdset (a : SlotId)
  /-- WLD (R173). Loads a weight buffer with a chunk of stationary columns and scales. -/
  | wld (a : SlotId)
  /-- TMUL (R177). Runs one array pass of a chunk into bank rows under the bank-state rules. -/
  | tmul (a : SlotId)
  /-- TWIN (R182). Sets the wide-exact window of an EMPTY bank from the operand scales. -/
  | twin (a : SlotId)
  /-- TCMB (R185). Combines a left and right bank through the engine combiner along the span tree. -/
  | tcmb (a : SlotId)
  /-- TDRN (R187). Converts and writes a bank's rows to an output descriptor, optionally accumulating. -/
  | tdrn (a : SlotId)
  /-- TCLR (R191). Makes a bank EMPTY without writing. -/
  | tclr (a : SlotId)
  /-- CRED (R192). Sends a bank's partial to an engine combiner or fabric collective unit. -/
  | cred (a : SlotId)
  /-- MCOPY (R199). A data mover copies rows between engine store and memory or within the store. -/
  | mcopy (a : SlotId)
  /-- MFILL (R201). A data mover fills every row of a descriptor with an 8-byte pattern. -/
  | mfill (a : SlotId)
  /-- MGATH (R202). A data mover gathers source rows selected by an INT32 index row. -/
  | mgath (a : SlotId)
  /-- E_UNDEFINED_OPCODE (R156). An E-profile word with an undefined opcode faults when it leaves its queue and performs its signal. -/
  | eUndefinedOpcode (a : SlotId)
  /-- COMBINER_PARTIAL (R195). An engine combiner receives a partial, groups it by owner tag and key, and combines or writes the result. -/
  | combinerPartial (e : Nat)
  /-- CODE_FETCH (R218). The sequencer fetches a 64-byte code line through the segment cache. -/
  | codeFetch (a : SlotId)
  /-- NOP (R226). Scalar NOP that only carries a wait or signal. -/
  | nop (a : SlotId)
  /-- SLI (R228). Writes a sign-extended 32-bit immediate to a scalar register. -/
  | sli (a : SlotId)
  /-- SLUI (R228). Writes a 32-bit immediate to the upper half of a scalar register. -/
  | slui (a : SlotId)
  /-- SALU (R227). Scalar ALU operation on two registers. -/
  | salu (a : SlotId)
  /-- SALUI (R227). Scalar ALU operation with a sign-extended immediate. -/
  | salui (a : SlotId)
  /-- SLD (R229). Loads 8 bytes from the allotment into a scalar register. -/
  | sld (a : SlotId)
  /-- SST (R229). Stores 8 bytes of a scalar register to the allotment. -/
  | sst (a : SlotId)
  /-- SPARAM (R231). Reads 8 bytes of the launch's constant buffer. -/
  | sparam (a : SlotId)
  /-- SSTAT (R232). Reads a slot count or launch property selected by SEL. -/
  | sstat (a : SlotId)
  /-- BR (R234). Conditional relative branch. -/
  | br (a : SlotId)
  /-- JAL (R235). Jump and link. -/
  | jal (a : SlotId)
  /-- JR (R235). Jump to a register address. -/
  | jr (a : SlotId)
  /-- KSET (R224). Writes an immediate to a token counter. -/
  | kset (a : SlotId)
  /-- TOKEN_DEADLOCK (R225). After 1,024 cycles of every queue head waiting on zero counters, the launch faults and aborts. -/
  | tokenDeadlock (a : SlotId)
  /-- QWAIT (R267). A resident launch waits on its queue for the next work packet, releasing its arrays. -/
  | qwait (a : SlotId)
  /-- WORK_PACKET_DELIVER (R268). A visible work packet is delivered to a waiting QWAIT with its argument and constant buffer. -/
  | workPacketDeliver (q : Nat)
  /-- ENQ (R259). Appends a 16-byte packet to a device-written ring of the own context and rings its doorbell. -/
  | enq (a : SlotId)
  /-- END (R236). Ends the launch once every earlier instruction has completed, releasing slot and arrays. -/
  | endLaunch (a : SlotId)
  /-- SACQ (R271). Starts acquiring a partition semaphore, holding the scalar queue. -/
  | sacq (a : SlotId)
  /-- SEMAPHORE_GRANT (R503). A waiting SACQ acquires its semaphore in order of waiting. -/
  | semaphoreGrant (p sem : Nat)
  /-- SREL (R271). Releases a held semaphore. -/
  | srel (a : SlotId)
  /-- HOLD_LIMIT_EXPIRE (R505). A semaphore held for HOLD_LIMIT_MS faults its holder and passes to the first waiter. -/
  | holdLimitExpire (p sem : Nat)
  /-- VADD (R238). Vector float add. -/
  | vadd (a : SlotId) (chk : Check)
  /-- VSUB (R238). Vector float subtract. -/
  | vsub (a : SlotId) (chk : Check)
  /-- VMUL (R238). Vector float multiply. -/
  | vmul (a : SlotId) (chk : Check)
  /-- VFMA (R238). Vector fused multiply-add rounded once. -/
  | vfma (a : SlotId) (chk : Check)
  /-- VMAX (R239). Vector float maximum. -/
  | vmax (a : SlotId)
  /-- VMIN (R239). Vector float minimum. -/
  | vmin (a : SlotId)
  /-- VSEL (R241). Selects lanes of two vectors by predicate. -/
  | vsel (a : SlotId)
  /-- VIADD (R242). Vector integer add. -/
  | viadd (a : SlotId)
  /-- VISUB (R242). Vector integer subtract. -/
  | visub (a : SlotId)
  /-- VIMUL (R242). Vector integer multiply, low 32 bits. -/
  | vimul (a : SlotId)
  /-- VIMAX (R242). Vector integer maximum. -/
  | vimax (a : SlotId)
  /-- VIMIN (R242). Vector integer minimum. -/
  | vimin (a : SlotId)
  /-- VAND (R242). Vector bitwise AND. -/
  | vand (a : SlotId)
  /-- VOR (R242). Vector bitwise OR. -/
  | vor (a : SlotId)
  /-- VXOR (R242). Vector bitwise XOR. -/
  | vxor (a : SlotId)
  /-- VSHL (R242). Vector shift left. -/
  | vshl (a : SlotId)
  /-- VSHR (R242). Vector logical shift right. -/
  | vshr (a : SlotId)
  /-- VSRA (R242). Vector arithmetic shift right. -/
  | vsra (a : SlotId)
  /-- VCMP (R243). Float lane comparison into a predicate. -/
  | vcmp (a : SlotId)
  /-- VICMP (R243). Signed integer lane comparison into a predicate. -/
  | vicmp (a : SlotId)
  /-- VCVT_TO_INT32 (R244). VCVT mode 0 converts FP32 lanes to INT32 with saturation. -/
  | vcvtToInt32 (a : SlotId)
  /-- VCVT_TO_FP32 (R244). VCVT mode 1 converts INT32 lanes to FP32. -/
  | vcvtToFp32 (a : SlotId)
  /-- VEXP2 (R246). Special function 2 to the power x. -/
  | vexp2 (a : SlotId) (chk : Check)
  /-- VLOG2 (R246). Special function base-2 logarithm. -/
  | vlog2 (a : SlotId) (chk : Check)
  /-- VRCP (R246). Special function reciprocal. -/
  | vrcp (a : SlotId) (chk : Check)
  /-- VRSQRT (R246). Special function reciprocal square root. -/
  | vrsqrt (a : SlotId) (chk : Check)
  /-- VSQRT (R246). Special function square root. -/
  | vsqrt (a : SlotId) (chk : Check)
  /-- VTANH (R246). Special function hyperbolic tangent. -/
  | vtanh (a : SlotId) (chk : Check)
  /-- VIOTA (R245). Writes each lane's index. -/
  | viota (a : SlotId)
  /-- VRSUM (R248). Pairwise-tree float sum of active lanes into a scalar. -/
  | vrsum (a : SlotId)
  /-- VRMAX (R248). Float maximum of active lanes into a scalar. -/
  | vrmax (a : SlotId)
  /-- VRMIN (R248). Float minimum of active lanes into a scalar. -/
  | vrmin (a : SlotId)
  /-- VIRSUM (R249). Exact 64-bit sum of active INT32 lanes. -/
  | virsum (a : SlotId)
  /-- VBCST (R245). Broadcasts a scalar to every lane. -/
  | vbcst (a : SlotId)
  /-- VMOVS (R245). Moves one lane to a scalar register. -/
  | vmovs (a : SlotId)
  /-- VLD (R250). Loads lines of the allotment into a vector register. -/
  | vld (a : SlotId)
  /-- VST (R250). Stores active lanes of a vector register to the allotment. -/
  | vst (a : SlotId)
  /-- VLDT (R251). Loads a descriptor row into lanes, widening, and sets a predicate. -/
  | vldt (a : SlotId)
  /-- VSTT (R252). Converts and stores active lanes into a descriptor row. -/
  | vstt (a : SlotId)
  /-- VMXQ (R254). Quantises 256 lanes into 8 MX blocks with scales. -/
  | vmxq (a : SlotId)
  /-- PLOGIC (R257). Predicate logic operation. -/
  | plogic (a : SlotId)
  /-- PCNT (R257). Counts set predicate bits. -/
  | pcnt (a : SlotId)
  /-- PFIRST (R257). Sets the first n predicate bits. -/
  | pfirst (a : SlotId)
  /-- WMB_SUBMIT (R293). Starts a partition program of the given length, beginning with its pre-scan. -/
  | wmbSubmit (v : BitVec 64)
  /-- PART_OPEN (R286). Stages opening a closed partition, with a new key at commit. -/
  | partOpen
  /-- PART_CLOSE (R288). Stages closing a partition, returning its units and zeroing its key at commit. -/
  | partClose
  /-- ASSIGN_ENGINE (R274). Stages moving native engines between the free pool and a partition. -/
  | assignEngine
  /-- ASSIGN_FOREIGN (R274). Stages moving foreign engines of a port between the free pool and a partition. -/
  | assignForeign
  /-- ASSIGN_CHANNEL (R276). Stages moving memory channels, refused while live objects exist. -/
  | assignChannel
  /-- ASSIGN_WAYS (R291). Stages moving hub-store ways between the free pool and a partition. -/
  | assignWays
  /-- ASSIGN_VF (R305). Stages binding or unbinding a virtual function. -/
  | assignVf
  /-- SET_SHARE (R277). Stages a partition's share of a fabric port or PCIe. -/
  | setShare
  /-- SET_POWER (R278). Stages a partition's power share. -/
  | setPower
  /-- SET_MODE (R285). Stages the partition kind and time slice. -/
  | setMode
  /-- SET_ISOLATION (R285). Stages the isolation level. -/
  | setIsolation
  /-- SET_CONTEXTS (R302). Stages the context quota and resident slots. -/
  | setContexts
  /-- SET_RESERVE (R274). Stages moving free units into or out of the operator reserve. -/
  | setReserve
  /-- SEAL (R305). Stages sealing an open partition. -/
  | sealPartition
  /-- COMMIT (R303). Validates the whole shadow and, at the point of no return, begins hand-over. -/
  | commitProgram
  /-- ABORT (R302). Discards every staged change and ends the program with ABORTED. -/
  | abortProgram
  /-- HANDOVER_PREEMPT_TIMEOUT (R309). A leaving launch still running 1.5 ms after COMMIT began is pre-empted. -/
  | handoverPreemptTimeout
  /-- HANDOVER_SWITCH (R310). Once leaving engines are quiet, the shadow tables become live at a beat boundary. -/
  | handoverSwitch
  /-- HANDOVER_SAVE_COMPLETE (R314). Save and scrub of a leaving unit complete and the gaining partition may dispatch to it; the program completes after the last. -/
  | handoverSaveComplete (u : UnitId)
  /-- STMT_REQUEST (R319). A VF requests a slice statement bound to its nonce. -/
  | stmtRequest (vf : Nat) (v : BitVec 64)
  /-- STMT_ISSUE (R320). The Warden signs the statement and places it in STMT_BUFFER. -/
  | stmtIssue
  /-- CTX_CREATE (R343). Creates a context in the VF's sealed partition. -/
  | ctxCreate (fn : Fn) (tag : BitVec 16)
  /-- CTX_DESTROY (R374). Forces a context into ABORTING and starts the forced abort. -/
  | ctxDestroy (fn : Fn) (tag : BitVec 16)
  /-- ABORT_COMPLETE (R374). The forced abort finishes and the context enters FREE or HELD. -/
  | abortComplete (c : Nat)
  /-- CTX_QUERY (R342). Returns a context's status and first-fault address. -/
  | ctxQuery (fn : Fn) (tag : BitVec 16)
  /-- OBJ_CREATE (R349). Allocates a device memory object and starts zeroing it. -/
  | objCreate (fn : Fn) (tag : BitVec 16)
  /-- OBJ_ZEROING_COMPLETE (R349). Zeroing of a new object completes and the request returns its handle. -/
  | objZeroingComplete (fn : Fn)
  /-- OBJ_CREATE_HOST (R350). Records a range of host memory as an object. -/
  | objCreateHost (fn : Fn) (tag : BitVec 16)
  /-- FENCE_CREATE (R353). Creates a fence entry. -/
  | fenceCreate (fn : Fn) (tag : BitVec 16)
  /-- FENCE_QUERY (R353). Returns a fence's entry and signal time. -/
  | fenceQuery (fn : Fn) (tag : BitVec 16)
  /-- IMPORT (R345). Imports an exported entry into another context of the partition. -/
  | importEntry (fn : Fn) (tag : BitVec 16)
  /-- OBJ_UNKNOWN_OP (R341). An object request with an unknown OP completes with BAD_ARG. -/
  | objUnknownOp (fn : Fn) (tag : BitVec 16) (op : BitVec 8)
  /-- FENCE_SIGNAL_APPLY (R355). The fence unit applies one signal or error signal to a fence. -/
  | fenceSignalApply
  /-- WAIT_GRAPH_WALK (R372). A queue blocked on WAIT for 1 ms triggers a walk of the wait graph, signalling CYCLE if found. -/
  | waitGraphWalk (q : Nat)
  /-- ENTRY_FREE (R365). A released entry is freed once preceding commands retire and IMPORTS is 0. -/
  | entryFree (h : BitVec 32)
  /-- IMPORT_END (R366). A released import ends once the importer's preceding commands retire. -/
  | importEnd (c : Nat) (h : BitVec 32)
  /-- QUEUE_CREATE (R384). Creates a queue with its ring. -/
  | queueCreate (fn : Fn) (tag : BitVec 16)
  /-- QUEUE_DESTROY (R385). Stops fetching a queue, to be freed after its started commands retire. -/
  | queueDestroy (fn : Fn) (tag : BitVec 16)
  /-- QUEUE_DESTROY_COMPLETE (R385). After started commands retire, unstarted packets are discarded and the entry freed. -/
  | queueDestroyComplete (fn : Fn)
  /-- QUEUE_RESUME (R386). Resumes a halted queue after the halting WAIT. -/
  | queueResume (fn : Fn) (tag : BitVec 16)
  /-- DOORBELL (R390). A 64-bit doorbell write updates TAIL per Table 8-3 and wakes the fetch sequencer. -/
  | doorbell (fn : Fn) (q width : Nat) (v : BitVec 64)
  /-- RING_LINE_RETURN (R393). A fetched ring line returns and its packets are decoded up to the TAIL read. -/
  | ringLineReturn (q : Nat)
  /-- TAIL_REREAD (R393). The second read of TAIL returns and the sequencer sleeps or continues. -/
  | tailReread (q : Nat)
  /-- Q_NOP (R397). Q-profile NOP that signals its fence. -/
  | qNop (q : Nat)
  /-- LAUNCH (R412). Starts a launch of WORKGROUPS workgroups, or delivers a work packet to a bound launch. -/
  | launch (q : Nat)
  /-- LAUNCH_RESIDENT (R415). Starts a one-workgroup launch bound to its queue. -/
  | launchResident (q : Nat)
  /-- LAUNCH_RESIDENT_STOP (R418). Ends the bound launch's wait after earlier work packets are delivered. -/
  | launchResidentStop (q : Nat)
  /-- WAIT (R399). Blocks later commands of the queue until a fence is signalled. -/
  | waitFence (q : Nat)
  /-- WAIT_COMPLETE (R403). The waited fence is signalled; an error halts the queue. -/
  | waitComplete (q : Nat)
  /-- SIGNAL (R404). Signals a fence normally once earlier commands complete. -/
  | signal (q : Nat)
  /-- SIGNAL_REMOTE_FABRIC (R420). PATH 0 sends a remote fence reference over the fabric. -/
  | signalRemoteFabric (q : Nat)
  /-- SIGNAL_REMOTE_PEER (R425). PATH 1 posts a signal record to a peer hub over PCIe and reads its result. -/
  | signalRemotePeer (q : Nat) (result : BitVec 64)
  /-- SIGNAL_REMOTE_WRITE (R420). PATH 2 posts a 4-byte write through the context's segments. -/
  | signalRemoteWrite (q : Nat)
  /-- COPY (R406). Copies a range in 64 KiB blocks through segments. -/
  | copy (q : Nat)
  /-- FILL (R405). Fills a range with a pattern through segments. -/
  | fill (q : Nat)
  /-- BARRIER (R399). Acts when every earlier command of the queue has completed. -/
  | barrier (q : Nat)
  /-- JUMP (R407). Skips bytes of the ring or called buffer. -/
  | jump (q : Nat)
  /-- CALL_RING (R408). Executes the packets of a buffer in place. -/
  | callRing (q : Nat)
  /-- RELEASE (R364). Marks an object or fence RELEASING, or ends an import. -/
  | release (q : Nat)
  /-- TIMESTAMP (R409). Writes Thyme to an address once earlier commands complete. -/
  | timestamp (q : Nat)
  /-- Q_UNDEFINED_OPCODE (R397). A packet with an undefined opcode faults BAD_COMMAND. -/
  | qUndefinedOpcode (q : Nat)
  /-- PEER_SIGNAL_RECORD (R426). A peer's signal record written to the signal page is checked, applied and answered. -/
  | peerSignalRecord (reference record : BitVec 64)
  /-- SEG_MAP (R435). Writes a segment descriptor, withdrawing any changed translation. -/
  | segMap (fn : Fn) (tag : BitVec 16)
  /-- SEG_UNMAP (R436). Clears a segment and withdraws its translation. -/
  | segUnmap (fn : Fn) (tag : BitVec 16)
  /-- SEG_REFUSE (R455). Refuses a pending segment fault, faulting the context SEGMENT_REFUSED. -/
  | segRefuse (fn : Fn) (tag : BitVec 16)
  /-- UNDO_SET (R458). Names or removes a context's undo area. -/
  | undoSet (fn : Fn) (tag : BitVec 16)
  /-- SEG_SHARE (R438). Makes a context share another context's segment table. -/
  | segShare (fn : Fn) (tag : BitVec 16)
  /-- SEG_MISS_FILL (R445). A segment-cache miss is served from the context table. -/
  | segMissFill (cache : CacheId) (c seg : Nat)
  /-- WITHDRAWAL_ACK (R448). A cache acknowledges an invalidation once lines using dropped entries complete. -/
  | withdrawalAck (w : Nat) (cache : CacheId)
  /-- WITHDRAWAL_COMPLETE (R447). Every cache has acknowledged, completing the withdrawal. -/
  | withdrawalComplete (w : Nat)
  /-- INVAL_ACK_TIMEOUT (R450). A missing invalidation acknowledgement quarantines a chiplet port or resets a native unit. -/
  | invalAckTimeout (w : Nat) (cache : CacheId)
  /-- SEG_FAULT_RECORD_POST (R454). A segment fault's miss record is posted to the function's miss queue when there is room. -/
  | segFaultRecordPost (fn : Fn)
  /-- SEG_FAULT_TIMEOUT (R455). A pending segment fault unanswered for TIMEOUT_MS resolves as a refusal. -/
  | segFaultTimeout (c seg : Nat)
  /-- UNDO_CAPTURE_COMPLETE (R460). A 64 KiB block has been copied to the undo area and the waiting write proceeds. -/
  | undoCaptureComplete (a : SlotId) (block : Nat)
  /-- RECOVERY_POINT (R462). A capture with no free slot pre-empts and saves the launch, beginning a new replay unit. -/
  | recoveryPoint (a : SlotId)
  /-- MISSQ_HEAD_WRITE (R468). Advances the miss-queue head only within HEAD to TAIL. -/
  | missqHeadWrite (fn : Fn) (v : BitVec 64)
  /-- MISSQ_CTRL_WRITE (R468). Enables or configures the miss queue, refusing illegal sizes. -/
  | missqCtrlWrite (fn : Fn) (v : BitVec 64)
  /-- BAR4_READ (R676). A VF aperture read is translated and checked through the context's segments. -/
  | bar4Read (fn : Fn) (off len : Nat)
  /-- BAR4_WRITE (R676). A VF aperture write is translated and checked through the context's segments. -/
  | bar4Write (fn : Fn) (off : Nat) (bytes : List (BitVec 8))
  /-- SLICE_BOUNDARY (R488). At each time-slice boundary the scheduler rebalances slots and then residency. -/
  | sliceBoundary (p : Nat)
  /-- ALLOT_WAIT_TIMEOUT (R486). A launch finding no engine for its allotment for 1 ms causes a switch-out. -/
  | allotWaitTimeout (p : Nat)
  /-- EVICT (R499). A runnable non-resident context with no free slot causes the eviction of an idle or blocked context. -/
  | evict (p : Nat)
  /-- SWITCH_OUT (R495). A context is switched out: commands stop, launches pre-empt, slots release and saves begin. -/
  | switchOut (c : Nat)
  /-- SWITCH_OUT_COMPLETE (R495). Saves and scrubs of a switched-out context finish. -/
  | switchOutComplete (c : Nat)
  /-- SWITCH_IN (R497). A context receives a resident slot and its queue slots. -/
  | switchIn (c : Nat)
  /-- RECORD_RESTORE_COMPLETE (R497). A save record is restored onto an engine and its launches may resume. -/
  | recordRestoreComplete (c e : Nat)
  /-- SAVE_SET (R480). Names or removes a context's save area. -/
  | saveSet (fn : Fn) (tag : BitVec 16)
  /-- CTX_SHARE (R515). Sets a context's SHARE. -/
  | ctxShare (fn : Fn) (tag : BitVec 16)
  /-- CTX_ACCOUNT (R515). Returns one accounting field of a context. -/
  | ctxAccount (fn : Fn) (tag : BitVec 16)
  /-- SCHED_CTRL_WRITE (R517). Sets the semaphore hold limit for later acquisitions. -/
  | schedCtrlWrite (p : Nat) (v : BitVec 64)
  /-- QUEUE_TARGET (R525). Targets a queue at a foreign-engine FUNCTION or back to native engines. -/
  | queueTarget (fn : Fn) (tag : BitVec 16)
  /-- CHIPLET_LINK_UP (R541). A chiplet link comes up and the hub sends HELLO. -/
  | chipletLinkUp (port rate lanes : Nat)
  /-- CPP_CAPS (R542). A CAPS message brings the port up or leaves it down with a cause. -/
  | cppCaps (port : Nat) (m : CppMsg)
  /-- CAPS_TIMEOUT (R542). No CAPS within 10 ms leaves the port down. -/
  | capsTimeout (port : Nat)
  /-- CPP_CREDIT (R537). A CREDIT message returns credits of each class. -/
  | cppCredit (port : Nat) (m : CppMsg)
  /-- CPP_READ (R543). A chiplet READ is checked line by line and answered with READ_DATA or held. -/
  | cppRead (port : Nat) (m : CppMsg)
  /-- CPP_WRITE (R546). A chiplet WRITE is checked line by line and acknowledged. -/
  | cppWrite (port : Nat) (m : CppMsg)
  /-- CPP_SIGNAL (R547). A chiplet SIGNAL signals a fence of the dispatched context. -/
  | cppSignal (port : Nat) (m : CppMsg)
  /-- CPP_COMPLETE (R548). A COMPLETE ends a foreign launch, faults it, or re-executes it and retires the engine. -/
  | cppComplete (port : Nat) (m : CppMsg)
  /-- CPP_INVAL_ACK (R549). An INVAL_ACK lets the proxy acknowledge the withdrawal. -/
  | cppInvalAck (port : Nat) (m : CppMsg)
  /-- CPP_QUIESCE_ACK (R550). A QUIESCE with ACK confirms a foreign engine has stopped. -/
  | cppQuiesceAck (port : Nat) (m : CppMsg)
  /-- CPP_RESET_ACK (R551). A RESET with ACK confirms the chiplet's engines are idle. -/
  | cppResetAck (port : Nat) (m : CppMsg)
  /-- QUIESCE_TIMEOUT (R550). No QUIESCE acknowledgement within 100 us quarantines the port. -/
  | quiesceTimeout (port fe : Nat)
  /-- RESET_TIMEOUT (R551). No RESET acknowledgement within 1 ms quarantines the port. -/
  | resetTimeout (port : Nat)
  /-- CREDIT_STALL_TIMEOUT (R557). Hub messages pending 100 us with no credit returned quarantine the port. -/
  | creditStallTimeout (port : Nat)
  /-- CHIPLET_LINK_DOWN (R521). A flit undeliverable after adapter retry takes the link down and quarantines the port. -/
  | chipletLinkDown (port : Nat)
  /-- READ_DATA_SEND (R539). A held READ_DATA is sent once credits for the whole message are available. -/
  | readDataSend (port : Nat) (tag : BitVec 16)
  /-- CP_RECOVER (R560). Retrains a quarantined port and sends RESET then HELLO. -/
  | cpRecover (port : Nat)
  /-- FP_TRAIN (R565). Starts training a fabric port from DOWN. -/
  | fpTrain (port : Nat)
  /-- FP_DISABLE (R565). Takes a fabric port to DOWN and holds it there. -/
  | fpDisable (port : Nat) (v : BitVec 64)
  /-- LANE_DETECT (R565). At least 4 lanes detect signal and the port enters EQUALISE. -/
  | laneDetect (port : Nat) (lanes : BitVec 8)
  /-- DETECT_TIMEOUT (R565). 10 ms in DETECT without 4 lanes takes the port DOWN with NO_SIGNAL. -/
  | detectTimeout (port : Nat)
  /-- EQUALISE_STABLE (R565). Locked lanes stable for 1 ms move the port to ALIGN. -/
  | equaliseStable (port : Nat) (lanes : BitVec 8)
  /-- EQUALISE_TIMEOUT (R565). 150 ms in EQUALISE with fewer than 4 locked takes the port DOWN with LOCK. -/
  | equaliseTimeout (port : Nat)
  /-- ALIGN_COMPLETE (R567). Lane masks are exchanged, the width chosen and the port aligned. -/
  | alignComplete (port : Nat) (lanes : BitVec 8)
  /-- ALIGN_FAIL (R565). Too few common lanes or no FEC lock in 10 ms takes the port DOWN with ALIGN. -/
  | alignFail (port : Nat)
  /-- IDENT_EXCHANGE (R569). The peer's identity arrives and is checked against the wiring rule. -/
  | identExchange (port : Nat) (peer : PeerIdent)
  /-- IDENT_TIMEOUT (R571). IDENT not passed within 5 ms takes the port DOWN with its cause. -/
  | identTimeout (port : Nat)
  /-- CALIBRATE_COMPLETE (R600). The 64 calibration round trips end and HOP_NS is set. -/
  | calibrateComplete (port : Nat) (trips : List (Nat × Nat))
  /-- TRAIN_TIMEOUT (R566). A port not ACTIVE within 200 ms of DETECT or RETRAIN goes DOWN with TIMEOUT. -/
  | trainTimeout (port : Nat)
  /-- LANE_LOCK_LOSS (R568). A lane in use loses lock and the port enters RETRAIN. -/
  | laneLockLoss (port lane : Nat)
  /-- FEC_ERROR_RATE (R568). More than 16 uncorrectable codewords in 1 ms sends the port to RETRAIN. -/
  | fecErrorRate (port : Nat)
  /-- FLIT_RECEIVE (R575). A flit is accepted or discarded on CRC and sequence, with ACK, NAK and credit processing. -/
  | flitReceive (port : Nat) (f : Flit)
  /-- REPLAY_TIMEOUT (R578). No acknowledgement for 2 us resends buffered flits; the eighth send triggers RETRAIN. -/
  | replayTimeout (port : Nat)
  /-- FABRIC_SIGNAL (R335). A SIGNAL message is checked and applied to a local fence and answered. -/
  | fabricSignal (port : Nat) (m : OfpMsg)
  /-- FABRIC_SIGNAL_ACK (R423). A SIGNAL_ACK completes the SIGNAL_REMOTE with acceptance or refusal. -/
  | fabricSignalAck (port : Nat) (m : OfpMsg)
  /-- PARTIAL (R608). A collective unit receives a PARTIAL, accepts, refuses or retries it, and combines siblings. -/
  | partialMsg (port : Nat) (m : OfpMsg)
  /-- PARTIAL_ACK (R608). A PARTIAL_ACK reports acceptance, refusal or retry to the sender. -/
  | partialAck (port : Nat) (m : OfpMsg)
  /-- PARTIAL_RETRY_RESEND (R608). A retried partial is sent again after 20 us. -/
  | partialRetryResend (dst : Nat) (seq : BitVec 16)
  /-- PARTIAL_ABANDON (R609). A partial retried for 10 ms is abandoned and its context faults. -/
  | partialAbandon (dst : Nat) (seq : BitVec 16)
  /-- SCHED_XFER_DATA (R634). A scheduled data transfer message is written at the destination. -/
  | schedXferData (port : Nat) (m : OfpMsg)
  /-- SCHED_VOTE (R645). The leader receives a VOTE for a start or boundary. -/
  | schedVote (port : Nat) (m : OfpMsg)
  /-- SCHED_COMMIT (R645). A hub receives COMMIT, committing a boundary or starting the schedule. -/
  | schedCommit (port : Nat) (m : OfpMsg)
  /-- FW_CHUNK (R860). A firmware chunk is forwarded once, stored or refused, and acknowledged. -/
  | fwChunk (port : Nat) (m : OfpMsg)
  /-- FW_ACK (R861). A firmware chunk acknowledgement, stopping sending on refusal. -/
  | fwAck (port : Nat) (m : OfpMsg)
  /-- MANIFEST (R654). A peer's manifest record is compared and the peer admitted or not. -/
  | manifest (port : Nat) (m : OfpMsg)
  /-- THYME (R619). A THYME message from the parent corrects the local Thyme. -/
  | thymeMsg (port : Nat) (m : OfpMsg) (t4 : BitVec 64)
  /-- WMSG (R590). A Warden-to-Warden message, such as rollback notices or link state, is delivered. -/
  | wmsg (port : Nat) (m : OfpMsg)
  /-- LINK_NOTE (R568). The peer announces RETRAIN or DOWN. -/
  | linkNote (port : Nat) (m : OfpMsg)
  /-- E2E_RESEND_TIMEOUT (R590). A message without response for 100 us is resent with the same E2E_SEQ. -/
  | e2eResendTimeout (dst : Nat) (seq : BitVec 16)
  /-- FAB_ID_WRITE (R571). Sets the hub ID only while every port is DOWN. -/
  | fabIdWrite (v : BitVec 64)
  /-- THYME_SEND_TICK (R618). Every 10 us each ACTIVE port sends a THYME message. -/
  | thymeSendTick
  /-- THYME_ROOT_TIMEOUT (R616). No THYME from the current root for 10 ms selects a new root. -/
  | thymeRootTimeout (roots : List (BitVec 16))
  /-- THYME_PARENT_TIMEOUT (R617). A parent port silent for 100 us or not ACTIVE leads to choosing a new parent. -/
  | thymeParentTimeout (parent depth : Nat)
  /-- THYME_HOLDOVER_TICK (R620). Without a parent, ERROR_NS grows by 1 every 100 us. -/
  | thymeHoldoverTick
  /-- THYME_STATE_TIMER (R622). ERROR_NS holding across 40 ns for 1 ms changes the Thyme state. -/
  | thymeStateTimer
  /-- SX_ADMIT (R636). Admits a schedule image after the admission checks. -/
  | sxAdmit (p : Nat) (tag : BitVec 16)
  /-- SX_START (R638). Arms a schedule, pins clocks and votes for the start beat. -/
  | sxStart (p : Nat) (tag : BitVec 16)
  /-- SX_SUSPEND (R636). Suspends the schedule at the next committed boundary. -/
  | sxSuspend (p : Nat) (tag : BitVec 16)
  /-- SX_RESUME (R638). Rechecks and re-arms a suspended schedule for a new start beat. -/
  | sxResume (p : Nat) (tag : BitVec 16)
  /-- SX_UNLOAD (R636). Unloads a schedule and releases its reservations. -/
  | sxUnload (p : Nat) (tag : BitVec 16)
  /-- SX_UNKNOWN_OP (R636). An undefined SX_CMD OP completes with STATE. -/
  | sxUnknownOp (p : Nat) (tag : BitVec 16) (op : BitVec 8)
  /-- START_DECISION (R638). By beat b minus 1,000 the leader commits an alternative or refuses the start. -/
  | startDecision (p : Nat)
  /-- START_BEAT_TIMEOUT (R638). No COMMIT by the start beat completes the command with DISAGREE. -/
  | startBeatTimeout (p : Nat)
  /-- BEAT_STEP_DISPATCH (R633). At its beat a launch, foreign launch or COPY step is dispatched. -/
  | beatStepDispatch (p step : Nat)
  /-- BEAT_XFER_START (R634). At its beat a scheduled transfer starts on its compiled route. -/
  | beatXferStart (p xfer : Nat)
  /-- OVERRUN (R627). A step or transfer incomplete at its deadline beat triggers a rollback. -/
  | overrun (p : Nat)
  /-- EPOCH_BOUNDARY (R644). At each epoch boundary the save of live allotments into the checkpoint begins. -/
  | epochBoundary (p : Nat)
  /-- SAVE_WINDOW_END (R645). At the end of the save window each hub sends its VOTE. -/
  | saveWindowEnd (p : Nat)
  /-- VOTE_WINDOW_TIMEOUT (R655). A hub with no VOTE by the end of the vote window is expelled. -/
  | voteWindowTimeout (p : Nat)
  /-- ROLLBACK_TRIGGER (R649). A trigger stops the part and notifies the leader, starting a rollback. -/
  | rollbackTrigger (p : Nat)
  /-- ROLLBACK_REPORT (R650). With every report held, the leader chooses the alternative and restart beat. -/
  | rollbackReport (p hub logBytes : Nat)
  /-- RESTART_BEAT (R649). At the restart beat each part resumes with ORIGIN shifted. -/
  | restartBeat (p : Nat)
  /-- SCHEDULE_END (R640). At the end of a schedule END_FENCEs are signalled and clocks unpinned. -/
  | scheduleEnd (p : Nat)
  /-- PCIE_UNMAPPED_REQUEST (R665). A memory request to no region reads zero or is dropped; AtomicOp or I/O gets UR. -/
  | pcieUnmappedRequest (kind : PcieReq)
  /-- POISONED_WRITE (R667). A received poisoned write is dropped and reported. -/
  | poisonedWrite
  /-- CPL_FAILURE (R668). A poisoned or timed-out completion to a hub read reissues the read. -/
  | cplFailure (c : Nat) (addr : BitVec 64)
  /-- CPL_ERROR_STATUS (R669). A UR or CA completion to a host access makes the line a violation. -/
  | cplErrorStatus (c : Nat) (addr : BitVec 64) (write : Bool)
  /-- VF_FLR (R687). A Function Level Reset of a VF aborts its contexts and resets its registers. -/
  | vfFlr (vf : Nat)
  /-- PF_FLR (R691). An FLR of the PF resets its registers and every enabled VF. -/
  | pfFlr
  /-- VF_ENABLE_CLEAR (R691). Clearing VF Enable performs an FLR of every enabled VF. -/
  | vfEnableClear
  /-- NUMVFS_WRITE (R693). A NumVFs write above 64 keeps the previous value. -/
  | numvfsWrite (n : Nat) (enable : Bool)
  /-- D3HOT_ENTRY (R664). A function in D3hot stops decoding its BARs. -/
  | d3hotEntry (fn : Fn)
  /-- MSIX_UNMASK (R680). Unmasking or enabling sends a pending vector. -/
  | msixUnmask (fn : Fn) (vector : Nat)
  /-- INT_STATUS_CLEAR (R679). Clearing an interrupt cause bit, with a simultaneous set re-sending the vector. -/
  | intStatusClear (fn : Fn) (v hwSet : BitVec 64)
  /-- NOTIFY_HEAD_WRITE (R682). Advances the notification ring head without passing TAIL. -/
  | notifyHeadWrite (vf : Nat) (v : BitVec 64)
  /-- NOTIFY_CTRL_WRITE (R682). Enables or sizes the notification ring. -/
  | notifyCtrlWrite (vf : Nat) (v : BitVec 64)
  /-- MSG_SEND (R686). Copies a 32-byte outbox to the receiver's inbox. -/
  | msgSend (sideVf : Bool) (vf : Nat)
  /-- MSG_PENDING_CLEAR (R686). The receiver clears its pending indication, freeing the sender. -/
  | msgPendingClear (sideVf : Bool) (vf : Nat)
  /-- SAGE_MESSAGE (R739). A message reaches Sage and is queued, classified and reacted to. -/
  | sageMessage (m : SageMsg)
  /-- SG_POP (R734). Removes the oldest Sage message. -/
  | sgPop (v : BitVec 64)
  /-- SG_PIN_RESUME (R742). Resumes fault_beat toggling when its conditions hold. -/
  | sgPinResume (v : BitVec 64)
  /-- PIN_HOLD_EXPIRE (R742). The 20 ms low hold of fault_beat expires. -/
  | pinHoldExpire
  /-- SAGE_WINDOW_CLOSE (R738). A source's classification window closes after WINDOW_MS. -/
  | sageWindowClose (src : BitVec 12)
  /-- SG_SRC_CFG_WRITE (R740). Sets a source's window, threshold and reactions. -/
  | sgSrcCfgWrite (src : BitVec 12) (v : BitVec 64)
  /-- PATROL_SCRUB (R707). Patrol scrub visits a line and corrects single-bit errors. -/
  | patrolScrub (place : Place) (found : ScrubFinding)
  /-- PARITY_ERROR (R703). A control-state parity error is reported as a failure of its unit. -/
  | parityError (src : BitVec 12)
  /-- REPLAY (R714). A failed pooled launch is stopped and its undo and allotment restores begin. -/
  | replay (a : SlotId)
  /-- REPLAY_RESTORE_COMPLETE (R714). Restores finish, semaphores are released and the unit is placed first in the next round. -/
  | replayRestoreComplete (id : Nat)
  /-- SELFTEST_DUE (R725). A unit falls due for background self-test and dispatch to it stops. -/
  | selftestDue (e : Nat)
  /-- SELFTEST_PREEMPT_TIMEOUT (R726). A launch still running 1 ms after an engine falls due is pre-empted. -/
  | selftestPreemptTimeout (e : Nat)
  /-- SELFTEST_COMPLETE (R728). A self-test ends; a failing unit is retired. -/
  | selftestComplete (u : UnitId) (pass : Bool)
  /-- WARDEN_MISMATCH (R720). A Warden lockstep mismatch resets both cores to restart from ROM. -/
  | wardenMismatch
  /-- WARDEN_RESTART_COMPLETE (R721). The restarted Warden resumes and settles its journalled operations. -/
  | wardenRestartComplete
  /-- SAGE_PARITY_ERROR (R723). A Sage register mismatch drives the hub to the safe state at once. -/
  | sageParityError
  /-- RM_STORE_WRITE_COMPLETE (R746). A record-store write completes and is read back. -/
  | rmStoreWriteComplete (readBack : BitVec 256)
  /-- RM_SELECT (R761). Selects a record to read into RM_REC0-3. -/
  | rmSelect (v : BitVec 64)
  /-- RM_SHUTDOWN (R760). Writes SHUTDOWN, flushes the queue and commits with CLEAN. -/
  | rmShutdown
  /-- RM_CLEAR (R763). Clears the circulating area under a recorder-clear grant. -/
  | rmClear
  /-- TIME_COMMIT (R758). Every 360 s power cycles and hours are committed to a time slot. -/
  | timeCommit
  /-- HOURS_TICK (R758). HOURS advances by one unit every 3.6 s. -/
  | hoursTick
  /-- BUCKET_REFILL (R755). The circulating-write bucket refills at 2 writes per second. -/
  | bucketRefill
  /-- LC_CHALLENGE (R785). Issues a challenge block after incrementing COUNTER. -/
  | lcChallenge (tag : BitVec 16) (purpose partition : BitVec 4)
  /-- LC_TRANSITION (R788). A TRANSITION token programs the life-cycle bits toward TARGET. -/
  | lcTransition (tag : BitVec 16)
  /-- LC_FINISH (R769). A FINISH token completes a finishable LOCKED pattern. -/
  | lcFinish (tag : BitVec 16)
  /-- LC_TEST (R48). A TEST token grants a test authorisation. -/
  | lcTest (tag : BitVec 16)
  /-- LC_HUB_DEBUG (R791). A HUB_DEBUG token grants hub-scope debug access. -/
  | lcHubDebug (tag : BitVec 16)
  /-- LC_PARTITION_DEBUG (R787). A PARTITION_DEBUG token grants partition-scope debug access. -/
  | lcPartitionDebug (tag : BitVec 16)
  /-- LC_RMA (R787). An RMA token grants hub-scope access in RETURN. -/
  | lcRma (tag : BitVec 16)
  /-- LC_RECORDER_CLEAR (R763). A RECORDER_CLEAR token grants a recorder-clear. -/
  | lcRecorderClear (tag : BitVec 16)
  /-- LC_CERT_WRITE (R789). A CERT_WRITE token programs the device certificate. -/
  | lcCertWrite (tag : BitVec 16)
  /-- LC_ATTEST (R796). Produces a signed attestation report in LC_DATA. -/
  | lcAttest (tag : BitVec 16)
  /-- LC_END_GRANTS (R790). Ends every grant held. -/
  | lcEndGrants (tag : BitVec 16)
  /-- LC_UNKNOWN_OP (R800). An undefined LC_CMD OP ends with BAD_TOKEN. -/
  | lcUnknownOp (tag : BitVec 16) (op : BitVec 8)
  /-- CHALLENGE_EXPIRE (R785). A challenge becomes void 60 s after issue. -/
  | challengeExpire
  /-- GRANT_EXPIRE (R790). A grant ends when its duration passes. -/
  | grantExpire (g : Grant)
  /-- DEBUG_WINDOW_READ (R797). A read through the debug window, limited by the grant's scope. -/
  | debugWindowRead (off : Nat)
  /-- DEBUG_WINDOW_WRITE (R798). A write through the debug window, limited by scope and never captured. -/
  | debugWindowWrite (off : Nat) (v : BitVec 64)
  /-- ENTROPY_HEALTH_FAIL (R781). A failed entropy health test reports source 0x014 and stalls draws. -/
  | entropyHealthFail
  /-- CERT_READ (R794). Writes the device certificate through the context's segments. -/
  | certRead (fn : Fn) (tag : BitVec 16)
  /-- DBG_KEY_SET (R793). Registers a tenant debug key for the VF's partition. -/
  | dbgKeySet (fn : Fn) (tag : BitVec 16)
  /-- POWER_INTERVAL (R819). Every 100 us the power manager divides the budget and sets operating points. -/
  | powerInterval (sensors : List (Nat × BitVec 11)) (energy : List (Nat × Nat))
  /-- PLL_RELOCK_COMPLETE (R810). An engine island's PLL relocks at a new frequency. -/
  | pllRelockComplete (e : Nat)
  /-- ENGINE_IDLE_TIMEOUT (R813). An engine with no slot held for 1 ms drops to 400 MHz. -/
  | engineIdleTimeout (e : Nat)
  /-- PWR_LIMIT_WRITE (R818). Sets the package limit, refusing out-of-range or R279 values. -/
  | pwrLimitWrite (v : BitVec 64)
  /-- PWR_FMAX_WRITE (R836). Sets the highest pooled frequency. -/
  | pwrFmaxWrite (v : BitVec 64)
  /-- THERM_LIMITS_WRITE (R836). Sets WARN and EMERG, refusing illegal orderings. -/
  | thermLimitsWrite (v : BitVec 64)
  /-- FPT_COMPOSE (R843). After start-up self-test the Floor Plan Table is composed and the defect rule applied. `core` is
  the source (Table 15-7) of a part of the spine, Warden, Sage or host island that self-test has failed (R840). -/
  | fptCompose (failed : List UnitId) (core : Option (BitVec 12))
  /-- BOOT_REQ_SAMPLE (R855). Every 10 us the Warden samples BOOT_REQ for a new request. -/
  | bootReqSample
  /-- BOOT_LOAD (R856). Loads a firmware image from the staging buffer. -/
  | bootLoad
  /-- BOOT_BROADCAST (R858). Sends the running image as FW_CHUNK on every ACTIVE port. -/
  | bootBroadcast
  /-- BOOT_UNKNOWN_OP (R855). An undefined BOOT_REQ OP ends with FORMAT. -/
  | bootUnknownOp
  /-- FW_VERIFY_COMPLETE (R850). Firmware verification passes or rejects the image. -/
  | fwVerifyComplete
  /-- FW_RUNNING (R850). Firmware reports its tables built and FW_STATE becomes RUNNING. -/
  | fwRunning
  /-- FW_LOAD_STALL (R863). A fabric load with no new chunk for 100 ms is abandoned. -/
  | fwLoadStall
  /-- PCIE_LINK_UP (R839). After perst_n deasserts the host island trains the PCIe link, answers configuration within 20 ms, and failed host transfers are replayed once the endpoint is up. -/
  | pcieLinkUp (speed width : Nat) (flit : Bool)
  /-- PCIE_LINK_DOWN (R668). The PCIe link goes down, ending reissue of host reads and failing host transfers under R42. -/
  | pcieLinkDown
  /-- CLOCK_SOURCE_LOCK (R807). A reference source gains lock, ending a holdover and making the source selectable. -/
  | clockSourceLock (src : ClockSource)
  /-- DROOP_RECOVERY (R827). The droop voltage recovers after at least 1 us and the engine island returns to its full clock. -/
  | droopRecovery (d : Nat)
  /-- D3HOT_EXIT (R664). A function returns from D3hot to D0 and decodes its BARs again. -/
  | d3hotExit (fn : Fn)
  /-- VF_FLR_COMPLETE (R687). At 10 ms outstanding reads of the VF are squashed, and at step 4 its registers reset and VF_RESET_DONE is set. -/
  | vfFlrComplete (vf : Nat)
  /-- INSTRUCTION_COMPLETION_POINT (R159). An E-profile instruction whose completion comes after issue, such as a WLD load, TDRN drain, CRED send or mover copy, reaches its completion point and signals its token counter. -/
  | instructionCompletionPoint (a : SlotId) (n : Nat)
  /-- COPY_COMPLETE (R406). A COPY or FILL writes its last byte, completes and signals its fence. -/
  | copyComplete (cmd : Nat)
  /-- NO_ROUTE_TIMEOUT (R656). A hub of a job that has had no route from the leader for 10 ms is expelled. -/
  | noRouteTimeout (hub : BitVec 16)
  /-- ENTROPY_HEALTH_PASS (R781). A later entropy health test passes and waiting seed draws proceed. -/
  | entropyHealthPass
  /-- NO_ENTROPY_TIMEOUT (R781). A draw still waiting on a failed entropy source after 100 ms ends its command with NO_ENTROPY. -/
  | noEntropyTimeout
  /-- RM_STORE_READ_COMPLETE (R761). A record-store read completes, clearing RM_READ.BUSY with the record or ERROR, or feeding bring-up's reading of the store. -/
  | rmStoreReadComplete (data : BitVec 256)
  /-- CPP_UNDEFINED_MESSAGE (R557). A chiplet message with an undefined OP, bad framing, nonzero RSVD bits or bad LINES quarantines the port with cause FORMAT. -/
  | cppUndefinedMessage (port : Nat)
  /-- OFP_UNDEFINED_MESSAGE (R588). A fabric message with an undefined TYPE, nonzero RSVD bit or bad LINES is discarded, counted in FP_DISCARDED and reported. -/
  | ofpUndefinedMessage (port : Nat)
deriving DecidableEq, Repr

end Sys2Proof
end

