-- ==== Sys2Proof/Decode.lean ====
section
/-! DEFINITION. Commands as words. The opcode table of this block gives its rows no bits: a command is an event or a
register access and not a word, so no word spells one. -/

namespace Sys2Proof

/-- The command a word of `nbits` bits spells: none, for the table gives no row any bits. (DESIGN CHOICE: log 5) -/
def decodeTableWord (_nbits _w : Nat) : Option Instr := none

end Sys2Proof
end

