-- ==== Sys2Proof/Machine/Bits.lean ====
section
/-! DEFINITION. Bit fields, bytes and little-endian values (R15, R16). -/

namespace Sys2Proof.Machine

/-- Bits [hi:lo] of a number (R15). -/
def fld (x hi lo : Nat) : Nat := (x >>> lo) % 2 ^ (hi + 1 - lo)

/-- One bit of a number. -/
def bit (x i : Nat) : Bool := Nat.testBit x i

/-- A flag as a number, in bit `i`. -/
def flag (b : Bool) (i : Nat) : Nat := if b then 2 ^ i else 0

/-- The low `n` bytes of a number, least significant first (R16). -/
def bytesLE : Nat → Nat → List Byte
  | 0, _ => []
  | n + 1, x => BitVec.ofNat 8 x :: bytesLE n (x / 256)

/-- The number that bytes spell, least significant first (R16). -/
def natLE : List Byte → Nat
  | [] => 0
  | b :: bs => b.toNat + 256 * natLE bs

/-- The low `n` bytes of a number, most significant first. -/
def bytesBE (n x : Nat) : List Byte := (bytesLE n x).reverse

/-- Bytes `off` to `off + n - 1` of a byte string as a little-endian number; a missing byte counts as zero. -/
def leAt (bs : List Byte) (off n : Nat) : Nat := natLE ((bs.drop off).take n)

/-- `n` bytes of a list, zeros beyond its end. -/
def takePad (n : Nat) (bs : List Byte) : List Byte := bs.take n ++ List.replicate (n - bs.length) 0

/-- Sign extension of the low `w` bits of a number, as an integer. -/
def sext (w x : Nat) : Int :=
  let y := x % 2 ^ w
  if y < 2 ^ (w - 1) then (y : Int) else (y : Int) - (2 ^ w : Nat)

/-- An integer as `w` bits of two's complement. -/
def wrap (w : Nat) (x : Int) : Nat := (x % ((2 ^ w : Nat) : Int)).toNat

/-- The largest value of a 64-bit counter; a counter that reaches it stays there (Tables 3-10, 8-10, 9-10, 10-2). -/
def ctrMax : Nat := 2 ^ 64 - 1

/-- A 64-bit counter that holds at its maximum. -/
def bump (c n : Nat) : Nat := min (c + n) ctrMax

/-- A 32-bit counter that holds at its maximum. -/
def bump32 (c n : Nat) : Nat := min (c + n) (2 ^ 32 - 1)

/-- The bits set in a mask of `n` bits, in rising order. -/
def maskBits (n mask : Nat) : List Nat := (List.range n).filter (Nat.testBit mask)

/-- The mask with exactly the given bits set. -/
def bitsMask : List Nat → Nat
  | [] => 0
  | i :: is => 2 ^ i ||| bitsMask is

/-- The first element of a list that meets a test, with its index. -/
def findIdxVal {α : Type} (p : α → Bool) : List α → Nat → Option (Nat × α)
  | [], _ => none
  | x :: xs, i => if p x then some (i, x) else findIdxVal p xs (i + 1)

/-- The element of a list whose key is least; the earlier one of two equal keys. -/
def minBy {α : Type} (key : α → Nat) : List α → Option α
  | [] => none
  | x :: xs =>
    match minBy key xs with
    | none => some x
    | some y => if key y < key x then some y else some x

/-- A division that rounds up. -/
def ceilDiv (a b : Nat) : Nat := a / b + if a % b = 0 then 0 else 1

/-- Serial number arithmetic modulo 2^32: how far `b` lies ahead of `a` (R381). -/
def ahead32 (a b : Nat) : Nat := (b + 2 ^ 32 - a % 2 ^ 32) % 2 ^ 32

end Sys2Proof.Machine
end

