-- ==== Sys2Proof/Config.lean ====
section
/-! DEFINITION. What an integrator fixes when it builds the block (the size table of Table 1-6 and the build values of
Table 14-4), and the free values: the results the specification does not state. A free value has no body, so nothing
proved of this model depends on what it is. -/

namespace Sys2Proof

/-- The size table (R49, Table 1-6) and the other values the integrator builds in. No command changes it. -/
structure Build where
  engines : Nat
  arrays : Nat
  storeMiB : Nat
  hubStoreMiB : Nat
  channels : Nat
  fabricPorts : Nat
  chipletPorts : Nat
  foreign : Nat
  partitions : Nat
  ctxSlots : Nat
  /-- Capacity of one channel in MiB, before the hub-private share (R337). -/
  channelMiB : Nat
  /-- LPDDR5X data rate in MT/s (6,400, 7,500 or 8,533). -/
  dataRate : Nat
  /-- The validated-sharing option of the HDT (R285). -/
  validatedSharing : Bool
deriving DecidableEq, Repr

/-- Reference configuration A (Table 0-3). (DESIGN CHOICE: log 9) -/
def Build.configA : Build where
  engines := 16
  arrays := 4
  storeMiB := 24
  hubStoreMiB := 128
  channels := 32
  fabricPorts := 20
  chipletPorts := 8
  foreign := 64
  partitions := 16
  ctxSlots := 48
  channelMiB := 2048
  dataRate := 8533
  validatedSharing := true

/-- Reference configuration B (Table 0-3). (DESIGN CHOICE: log 9) -/
def Build.configB : Build :=
  { Build.configA with engines := 8, hubStoreMiB := 64, channels := 16, fabricPorts := 8, chipletPorts := 4, partitions := 8, ctxSlots := 32 }

/-- Reference configuration C (Table 0-3). (DESIGN CHOICE: log 9) -/
def Build.configC : Build where
  engines := 2
  arrays := 2
  storeMiB := 16
  hubStoreMiB := 16
  channels := 4
  fabricPorts := 0
  chipletPorts := 1
  foreign := 16
  partitions := 2
  ctxSlots := 8
  channelMiB := 2048
  dataRate := 8533
  validatedSharing := true

/-- The ranges, steps and constraints of Table 1-6 (R49). (DESIGN CHOICE: log 9) -/
def Build.legal (b : Build) : Bool :=
  (1 ≤ b.engines && b.engines ≤ 16) && (b.arrays == 2 || b.arrays == 4)
  && (b.storeMiB == 8 || b.storeMiB == 16 || b.storeMiB == 24)
  && (16 ≤ b.hubStoreMiB && b.hubStoreMiB ≤ 128 && b.hubStoreMiB % 16 == 0)
  && (4 ≤ b.channels && b.channels ≤ 32 && b.channels % 4 == 0)
  && (b.fabricPorts == 0 || b.fabricPorts == 8 || b.fabricPorts == 20)
  && (b.chipletPorts ≤ 8) && (1 ≤ b.engines + b.chipletPorts)
  && (b.foreign ≤ 64 && b.foreign ≤ 16 * b.chipletPorts)
  && (2 ≤ b.partitions && b.partitions ≤ 16 && b.partitions ≤ b.channels)
  && (8 ≤ b.ctxSlots && b.ctxSlots ≤ 48 && b.ctxSlots % 8 == 0)

/-- Hub-store ways: the hub store in 4 MiB units (Table 1-6). -/
def Build.ways (b : Build) : Nat := b.hubStoreMiB / 4

/-- Allottable 256 KiB units of an engine store: all but the 1 MiB engine reserve (R130). -/
def Build.allotUnits (b : Build) : Nat := (b.storeMiB - 1) * 4

/-- Size class of Table 6-16: 1, 2, 3 for the reference configurations, 0 for any other size table. -/
def Build.sizeClass (b : Build) : Nat :=
  let key : List Nat :=
    [b.engines, b.arrays, b.storeMiB, b.hubStoreMiB, b.channels, b.fabricPorts, b.chipletPorts, b.partitions, b.ctxSlots]
  if key = [16, 4, 24, 128, 32, 20, 8, 16, 48] then 1
  else if key = [8, 4, 24, 64, 16, 8, 4, 8, 32] then 2
  else if key = [2, 2, 16, 16, 4, 0, 1, 2, 8] then 3
  else 0

/-- Hub-private share of one channel in MiB, with `c` working channels: ⌈128 ÷ c⌉ (R337). -/
def Build.privateShare (c : Nat) : Nat := (128 + c - 1) / c

namespace Config

/-- A value the specification leaves open, numbered by the counter `State.freeCtr` at the moment it arises.
(DESIGN CHOICE: log 12) -/
opaque freeValue : Nat → BitVec 64

/-- The bits of a BF16-or-FP32 vector transcendental that Table 5-5 bounds and does not fix. (UNVERIFIED: log 13) -/
opaque exp2Bits : BitVec 32 → BitVec 32
/-- As `exp2Bits`, for VLOG2. (UNVERIFIED: log 13) -/
opaque log2Bits : BitVec 32 → BitVec 32
/-- As `exp2Bits`, for VTANH. (UNVERIFIED: log 13) -/
opaque tanhBits : BitVec 32 → BitVec 32

/-- SHA-384 (named and not defined by the specification), most significant byte first. (UNVERIFIED: log 13) -/
opaque sha384 : List Byte → List Byte
/-- ECDSA P-384 verification of a digest: public key, digest, signature (r then s). (UNVERIFIED: log 13) -/
opaque ecdsaVerify : List Byte → List Byte → List Byte → Bool
/-- ECDSA P-384 signature (r then s) of a digest with a private scalar; with 0, by the manufacturing identity key.
(UNVERIFIED: log 13) -/
opaque ecdsaSign : Nat → List Byte → List Byte
/-- The key derivation of R783 (NIST SP 800-108 in counter mode with HMAC-SHA-384): key input, label and context; 64 bytes.
(UNVERIFIED: log 13) -/
opaque kdf : List Byte → List Byte → List Byte → List Byte
/-- The public key, X then Y, of a private scalar; of 0, that of the manufacturing identity key (R773).
(UNVERIFIED: log 13) -/
opaque publicKey : Nat → List Byte
/-- CRC-32C (named and not defined by the specification). (UNVERIFIED: log 13) -/
opaque crc32c : List Byte → BitVec 32
/-- BUILD_ID of the HDT generator's run (Table 14-13). (UNVERIFIED: log 13) -/
opaque buildId : BitVec 64
/-- Vendor, Device, Subsystem Vendor, Subsystem and VF Device ID, which the integrator chooses (R663).
(UNVERIFIED: log 13) -/
opaque pcieId : Nat → W16
/-- Are these bytes a DER-encoded X.509 v3 certificate with this SubjectPublicKeyInfo key (R789)? (UNVERIFIED: log 13) -/
opaque certOk : List Byte → List Byte → Bool
/-- The estimated draw of the hub store and the spine above their first-column figures (R817) in the control interval that
ends at a Thyme, in picojoules. (DESIGN CHOICE: log 27) -/
opaque excess : Nat → Nat
/-- The n-th draw of 32 bytes from the entropy source. (DESIGN CHOICE: log 14) -/
opaque entropy : Nat → List Byte

end Config

end Sys2Proof
end

