-- ==== Sys2Proof/Machine/Float.lean ====
section
/-! DEFINITION. Binary floating point of chapter 2: exact values, and one rounding to nearest even (R61 to R63, R74 to
R76, R89 to R92, R96, R97). -/

namespace Sys2Proof.Machine

/-- How a format spends its top exponent (Table 2-4): IEEE infinities and NaNs, E4M3's single NaN and no infinity, or
neither (the FP6 and FP4 element types). -/
inductive TopCode where
  | ieee | e4m3 | none
deriving DecidableEq, Repr

/-- A binary floating-point format (Table 2-4). -/
structure FloatFmt where
  eb : Nat
  mb : Nat
  bias : Nat
  top : TopCode
  /-- The canonical NaN (R76, R92). -/
  qnan : Nat
deriving DecidableEq, Repr

def fE4M3 : FloatFmt := ⟨4, 3, 7, .e4m3, 0x7F⟩
def fE5M2 : FloatFmt := ⟨5, 2, 15, .ieee, 0x7E⟩
def fFP16 : FloatFmt := ⟨5, 10, 15, .ieee, 0x7E00⟩
def fBF16 : FloatFmt := ⟨8, 7, 127, .ieee, 0x7FC0⟩
def fFP32 : FloatFmt := ⟨8, 23, 127, .ieee, 0x7FC00000⟩
def fE2M3 : FloatFmt := ⟨2, 3, 1, .none, 0⟩
def fE3M2 : FloatFmt := ⟨3, 2, 3, .none, 0⟩
def fE2M1 : FloatFmt := ⟨2, 1, 1, .none, 0⟩

/-- An exact value: NaN, an infinity, or (−1)^neg × m × 2^e. -/
inductive FVal where
  | nan
  | inf (neg : Bool)
  | fin (neg : Bool) (m : Nat) (e : Int)
deriving DecidableEq, Repr

/-- The code of the largest finite magnitude of a format. -/
def FloatFmt.maxCode (f : FloatFmt) : Nat :=
  match f.top with
  | .ieee => (2 ^ f.eb - 1) * 2 ^ f.mb - 1
  | .e4m3 => 2 ^ (f.eb + f.mb) - 2
  | .none => 2 ^ (f.eb + f.mb) - 1

/-- The exponent of the last place of the smallest numbers of a format. -/
def FloatFmt.qmin (f : FloatFmt) : Int := 1 - (f.bias : Int) - (f.mb : Int)

/-- The value that a code of a format has (R61, R62). -/
def FloatFmt.decode (f : FloatFmt) (x : Nat) : FVal :=
  let mag := x % 2 ^ (f.eb + f.mb)
  let neg := Nat.testBit x (f.eb + f.mb)
  let ex := mag / 2 ^ f.mb
  let ma := mag % 2 ^ f.mb
  if mag ≤ f.maxCode then
    if ex = 0 then .fin neg ma f.qmin
    else .fin neg (2 ^ f.mb + ma) (f.qmin + (ex : Int) - 1)
  else if f.top = .ieee ∧ ma = 0 then .inf neg
  else .nan

/-- The sign bit of a format, set or clear. -/
def FloatFmt.sign (f : FloatFmt) (neg : Bool) : Nat := if neg then 2 ^ (f.eb + f.mb) else 0

/-- An infinity of a format, or its NaN where it has none (R91). -/
def FloatFmt.infCode (f : FloatFmt) (neg : Bool) : Nat :=
  if f.top = .ieee then f.sign neg + (f.maxCode + 1) else f.qnan

/-- m × 2^(−d) rounded to nearest even, where `sticky` stands for a nonzero part below the last bit of m (R82). -/
def rne (m : Nat) (d : Nat) (sticky : Bool) : Nat :=
  let k := m >>> d
  if d = 0 then k else
  let rem := m % 2 ^ d
  let half := 2 ^ (d - 1)
  if half < rem || (rem == half && (sticky || k % 2 == 1)) then k + 1 else k

/-- The magnitude code of m × 2^e, m > 0, rounded to nearest even as though the exponent range had no top. -/
def FloatFmt.roundMag (f : FloatFmt) (m : Nat) (e : Int) (sticky : Bool) : Nat :=
  let top : Int := (Nat.log2 m : Int) + e
  let q : Int := max (top - (f.mb : Int)) f.qmin
  let k := if e ≤ q then rne m (q - e).toNat sticky else m <<< (e - q).toNat
  (q - f.qmin).toNat * 2 ^ f.mb + k

/-- A value rounded to a format. An overflow gives the infinity (or NaN) of the format, or, with `sat`, its largest
finite value (R89, R90, R91). -/
def FloatFmt.encode (f : FloatFmt) (sat : Bool) (sticky : Bool) : FVal → Nat
  | .nan => f.qnan
  | .inf neg => f.infCode neg
  | .fin neg m e =>
    if m = 0 then f.sign neg
    else
      let c := f.roundMag m e sticky
      if c ≤ f.maxCode then f.sign neg + c
      else if sat then f.sign neg + f.maxCode
      else f.infCode neg

/-- Rounding without saturation of an exactly known value. -/
def FloatFmt.round (f : FloatFmt) (v : FVal) : Nat := f.encode false false v

/-- The exact product of two values (R63). -/
def FVal.mul : FVal → FVal → FVal
  | .nan, _ => .nan
  | _, .nan => .nan
  | .inf s, .inf t => .inf (s != t)
  | .inf s, .fin t m _ => if m = 0 then .nan else .inf (s != t)
  | .fin s m _, .inf t => if m = 0 then .nan else .inf (s != t)
  | .fin s m e, .fin t n f => .fin (s != t) (m * n) (e + f)

/-- A finite value as an integer multiple of 2^g, for g at most its exponent. -/
def finInt (neg : Bool) (m : Nat) (e g : Int) : Int :=
  let x : Int := ((m <<< (e - g).toNat : Nat) : Int)
  if neg then -x else x

/-- The exact sum of two values. An exact zero sum is +0 unless both addends are −0 (R75). -/
def FVal.add : FVal → FVal → FVal
  | .nan, _ => .nan
  | _, .nan => .nan
  | .inf s, .inf t => if s = t then .inf s else .nan
  | .inf s, .fin .. => .inf s
  | .fin .., .inf t => .inf t
  | .fin s m e, .fin t n f =>
    let g := min e f
    let x := finInt s m e g + finInt t n f g
    if x = 0 then .fin (s && t && m == 0 && n == 0) 0 g
    else .fin (decide (x < 0)) x.natAbs g

/-- The value with its sign changed. -/
def FVal.neg : FVal → FVal
  | .nan => .nan
  | .inf s => .inf (!s)
  | .fin s m e => .fin (!s) m e

/-- Numbers compared: is `a` less than `b`, with −0 below +0 when `zeros` holds (R239, R243). A NaN compares false. -/
def FVal.lt (zeros : Bool) : FVal → FVal → Bool
  | .nan, _ => false
  | _, .nan => false
  | .inf s, .inf t => s && !t
  | .inf s, .fin .. => s
  | .fin .., .inf t => !t
  | .fin s m e, .fin t n f =>
    let g := min e f
    let x := finInt s m e g
    let y := finInt t n f g
    if x = 0 ∧ y = 0 then zeros && s && !t else decide (x < y)

/-- Is the value a NaN? -/
def FVal.isNan : FVal → Bool
  | .nan => true
  | _ => false

/-- Is the value a zero? -/
def FVal.isZero : FVal → Bool
  | .fin _ 0 _ => true
  | _ => false

/-- Equality of numbers, +0 and −0 being equal; a NaN equals nothing. -/
def FVal.eqv (a b : FVal) : Bool := !a.isNan && !b.isNan && !a.lt false b && !b.lt false a

/-- The integer square root, bit by bit from bit `i − 1` down. -/
def isqrtAux (n : Nat) : Nat → Nat → Nat
  | 0, r => r
  | i + 1, r => let r' := r + 2 ^ i; if r' * r' ≤ n then isqrtAux n i r' else isqrtAux n i r

/-- ⌊√n⌋. -/
def isqrt (n : Nat) : Nat := isqrtAux n (Nat.log2 n / 2 + 1) 0

/-- m × 2^e with an even exponent. -/
def evenExp (m : Nat) (e : Int) : Nat × Int := if e % 2 = 0 then (m, e) else (2 * m, e - 1)

def f32 (x : BitVec 32) : FVal := fFP32.decode x.toNat
def toF32 (v : FVal) : BitVec 32 := BitVec.ofNat 32 (fFP32.round v)

/-- FP32 addition (R75, R76). -/
def fadd32 (a b : BitVec 32) : BitVec 32 := toF32 ((f32 a).add (f32 b))

/-- 1 ÷ x rounded to nearest even (Table 5-5). -/
def frcp32 (a : BitVec 32) : BitVec 32 :=
  match f32 a with
  | .nan => toF32 .nan
  | .inf s => toF32 (.fin s 0 0)
  | .fin s m e =>
    if m = 0 then toF32 (.inf s)
    else
      let q := 2 ^ 80 / m
      BitVec.ofNat 32 (fFP32.encode false (q * m != 2 ^ 80) (.fin s q (-80 - e)))

/-- √x rounded to nearest even (Table 5-5). -/
def fsqrt32 (a : BitVec 32) : BitVec 32 :=
  match f32 a with
  | .nan => toF32 .nan
  | .inf s => if s then toF32 .nan else toF32 (.inf false)
  | .fin s m e =>
    if m = 0 then toF32 (.fin s 0 0)
    else if s then toF32 .nan
    else
      let (m', e') := evenExp m e
      let n := m' <<< 80
      let r := isqrt n
      BitVec.ofNat 32 (fFP32.encode false (r * r != n) (.fin false r (e' / 2 - 40)))

/-- 1 ÷ √x rounded to nearest even (Table 5-5). -/
def frsqrt32 (a : BitVec 32) : BitVec 32 :=
  match f32 a with
  | .nan => toF32 .nan
  | .inf s => if s then toF32 .nan else toF32 (.fin false 0 0)
  | .fin s m e =>
    if m = 0 then toF32 (.inf s)
    else if s then toF32 .nan
    else
      let (m', e') := evenExp m e
      let r := isqrt (2 ^ 160 / m')
      BitVec.ofNat 32 (fFP32.encode false (r * r * m' != 2 ^ 160) (.fin false r (-80 - e' / 2)))

/-- VEXP2: the special values of Table 5-5, with +∞ from 128 up (overflow) and +0 below −150 (the nearest value of an
underflow); for every other input the table bounds the result and does not give its bits, which are free.
(DESIGN CHOICE: log 75) -/
def fexp2 (a : BitVec 32) : BitVec 32 :=
  match f32 a with
  | .nan => toF32 .nan
  | .inf s => if s then 0 else toF32 (.inf false)
  | .fin s m e =>
    if (FVal.fin s m e).lt false (.fin false 128 0) then
      if (FVal.fin s m e).lt false (.fin true 150 0) then 0 else Config.exp2Bits a
    else toF32 (.inf false)

/-- VLOG2: as `fexp2`. -/
def flog2 (a : BitVec 32) : BitVec 32 :=
  match f32 a with
  | .nan => toF32 .nan
  | .inf s => if s then toF32 .nan else toF32 (.inf false)
  | .fin s m _ => if m = 0 then toF32 (.inf true) else if s then toF32 .nan else Config.log2Bits a

/-- VTANH: as `fexp2`. -/
def ftanh (a : BitVec 32) : BitVec 32 :=
  match f32 a with
  | .nan => toF32 .nan
  | .inf s => if s then BitVec.ofNat 32 0xBF800000 else BitVec.ofNat 32 0x3F800000
  | .fin .. => Config.tanhBits a

/-- A finite value rounded to the nearest integer, ties to even. -/
def roundInt (neg : Bool) (m : Nat) (e : Int) : Int :=
  let k := if e < 0 then rne m (-e).toNat false else m <<< e.toNat
  if neg then -(k : Int) else (k : Int)

end Sys2Proof.Machine
end

