-- ==== Sys2Proof/Machine/Formats.lean ====
section
/-! DEFINITION. Format codes, element values, format pairs and the accumulators of chapter 2 (R56 to R95). -/

namespace Sys2Proof.Machine

/-- Is the code defined in Table 2-1? -/
def fmtDefined (c : Nat) : Bool := 1 ≤ c && c ≤ 0x12

/-- Bits of one element, without its scale (Table 2-1). -/
def fmtBits (c : Nat) : Nat :=
  if c = 1 ∨ c = 2 then 2
  else if c = 3 ∨ c = 0x0E then 4
  else if c = 0x0C ∨ c = 0x0D then 6
  else if c = 7 ∨ c = 8 then 16
  else if c = 9 ∨ c = 0x10 then 32
  else if c = 0x11 then 64
  else if c = 0x12 then 256
  else 8

/-- MX formats carry a shared scale (Table 2-1). -/
def fmtMX (c : Nat) : Bool := 0x0A ≤ c && c ≤ 0x0F

/-- Legal as a stationary operand (Table 2-1). -/
def fmtStationary (c : Nat) : Bool := 1 ≤ c && c ≤ 0x0F

/-- Legal as a streamed operand (Table 2-1). -/
def fmtStreamed (c : Nat) : Bool := 1 ≤ c && c ≤ 0x0F && c != 2

/-- Legal as an output (Table 2-1). -/
def fmtOutput (c : Nat) : Bool := (5 ≤ c && c ≤ 9) || (0x10 ≤ c && c ≤ 0x12)

/-- The binary format of the elements of a float or MX float code. -/
def fmtFloat (c : Nat) : FloatFmt :=
  if c = 5 ∨ c = 0x0A then fE4M3
  else if c = 6 ∨ c = 0x0B then fE5M2
  else if c = 7 then fBF16
  else if c = 8 then fFP16
  else if c = 0x0C then fE2M3
  else if c = 0x0D then fE3M2
  else if c = 0x0E then fE2M1
  else fFP32

/-- The largest element exponent of Table 2-6. -/
def fmtMf (c : Nat) : Int :=
  if c = 5 ∨ c = 0x0A then 9
  else if c = 6 ∨ c = 0x0B then 16
  else if c = 0x0C then 3
  else if c = 0x0D then 5
  else if c = 0x0E then 3
  else 1

/-- The value of an integer element; a T2 element 0b10 reads as zero (R60, Table 2-3). -/
def intElem (c x : Nat) : Int :=
  if c = 2 then (if x % 4 = 1 then 1 else if x % 4 = 3 then -1 else 0) else sext (fmtBits c) x

/-- The value of a float, MX float or MXINT8 element before its scale (R61, R66). -/
def floatElem (c x : Nat) : FVal :=
  if c = 0x0F then
    let v := sext 8 x
    .fin (decide (v < 0)) v.natAbs (-6)
  else (fmtFloat c).decode x

/-- An element with its block's E8M0 scale (R64, R65). -/
def scaled (v : FVal) (x : Nat) : FVal :=
  if x = 0xFF then .nan
  else
    match v with
    | .fin s m e => .fin s m (e + (x : Int) - 127)
    | w => w

/-- The accumulator families (Table 2-5). -/
inductive Family where
  | int | f32 | wx
deriving DecidableEq, Repr

/-- A format pair as a pass uses it: the columns and rows of Table 3-2, the family, and whether it is the FP32
three-pass emulation. -/
structure PairInfo where
  npair : Nat
  rows : Nat
  fam : Family
  three : Bool
deriving DecidableEq, Repr

/-- An element type of MXFP8 or MXFP6. -/
def fmtMX86 (c : Nat) : Bool := 0x0A ≤ c && c ≤ 0x0D

/-- The pairs of Table 2-5 that wide-exact mode allows. -/
def pairWide (st x : Nat) : Bool :=
  ((st = 5 || st = 6) && (x = 5 || x = 6)) || (fmtMX86 st && fmtMX86 x) || (st = 0x0E && (x = 0x0E || fmtMX86 x))
    || (st = 0x0F && x = 0x0F)

/-- Tables 2-5 and 3-2: what a pass of a stationary and a streamed format is, or none for a pair that is not accepted
(R71). -/
def pairInfo (st x : Nat) (wx : Bool) : Option PairInfo :=
  if wx then (if pairWide st x then some ⟨128, 512, .wx, false⟩ else none)
  else if (st = 1 ∧ x = 1) ∨ (st = 2 ∧ x = 4) ∨ (st = 1 ∧ x = 4) then some ⟨1024, 256, .int, false⟩
  else if st = 3 ∧ (x = 3 ∨ x = 4) then some ⟨512, 512, .int, false⟩
  else if st = 4 ∧ x = 4 then some ⟨256, 1024, .int, false⟩
  else if st = 0x0E ∧ x = 0x0E then some ⟨512, 1024, .f32, false⟩
  else if pairWide st x then some ⟨256, 2048, .f32, false⟩
  else if (st = 7 ∧ x = 7) ∨ (st = 8 ∧ x = 8) then some ⟨128, 4096, .f32, false⟩
  else if st = 9 ∧ x = 9 then some ⟨128, 4096, .f32, true⟩
  else none

/-- Columns a WLD loads for a stationary format (Table 4-9). -/
def nstat (c : Nat) : Nat :=
  if c = 1 ∨ c = 2 then 1024
  else if c = 3 ∨ c = 0x0E then 512
  else if c = 7 ∨ c = 8 ∨ c = 9 then 128
  else 256

/-- An accumulator entry. A wide-exact entry is its 128-bit window as an integer and its flags word (Table 2-2). -/
inductive AccVal where
  | int (v : Int)
  | f32 (b : BitVec 32)
  | wx (win : Int) (flags : Nat)
deriving DecidableEq, Repr

/-- ZERO of R84 for a family. -/
def accZero : Family → AccVal
  | .int => .int 0
  | .f32 => .f32 0
  | .wx => .wx 0 0

/-- An accumulator entry with the counts its computation raised: integer saturations and flushed products. -/
structure AccSt where
  v : AccVal
  sat : Nat
  flush : Nat
deriving DecidableEq, Repr

/-- 48-bit addition that holds at its bounds (R73), with whether it did. -/
def addSat48 (a b : Int) : Int × Nat :=
  let x := a + b
  if x < -(2 ^ 47) then (-(2 ^ 47), 1) else if 2 ^ 47 - 1 < x then (2 ^ 47 - 1, 1) else (x, 0)

/-- R80: both infinities together set NAN. -/
def wxFlags (f : Nat) : Nat := if bit f 1 && bit f 2 then f ||| 8 else f

/-- The addition of the accumulator family (R72, R73, R75, R80). -/
def accAdd (a b : AccVal) : AccVal × Nat :=
  match a, b with
  | .int x, .int y => let r := addSat48 x y; (.int r.1, r.2)
  | .f32 x, .f32 y => (.f32 (fadd32 x y), 0)
  | .wx x f, .wx y g => (.wx (x + y) (wxFlags (f ||| g)), 0)
  | x, _ => (x, 0)

/-- `accAdd` carrying the counts. -/
def AccSt.add (a b : AccSt) : AccSt :=
  let r := accAdd a.v b.v
  ⟨r.1, a.sat + b.sat + r.2, a.flush + b.flush⟩

/-- A product aligned to the window of weight 2^L (R79, R80). -/
def wxProduct (p : FVal) (L : Int) : AccSt :=
  match p with
  | .nan => ⟨.wx 0 8, 0, 0⟩
  | .inf s => ⟨.wx 0 (if s then 4 else 2), 0, 0⟩
  | .fin s m e =>
    let d := (L - e).toNat
    let k := if e < L then m >>> d else m <<< (e - L).toNat
    let lost := decide (e < L) && m % 2 ^ d != 0
    ⟨.wx (if s then -(k : Int) else (k : Int)) (if lost then 1 else 0), 0, if lost then 1 else 0⟩

/-- The product of R69, R74 or R79 of a stationary element `a` and a streamed element `b`, each with its scale. -/
def product (fam : Family) (L : Int) (fa a xa fb b xb : Nat) : AccSt :=
  match fam with
  | .int => ⟨.int (intElem fa a * intElem fb b), 0, 0⟩
  | .f32 => ⟨.f32 (toF32 ((scaled (floatElem fa a) xa).mul (scaled (floatElem fb b) xb))), 0, 0⟩
  | .wx => wxProduct ((scaled (floatElem fa a) xa).mul (scaled (floatElem fb b) xb)) L

/-- The high BF16 part of an FP32 operand (R94). -/
def bf16Hi (x : Nat) : Nat :=
  match fFP32.decode x with
  | .nan => 0x7FC0
  | v => fBF16.encode (match v with | .fin .. => true | _ => false) false v

/-- The low BF16 part of an FP32 operand (R94). -/
def bf16Lo (x : Nat) : Nat :=
  match fFP32.decode x with
  | .fin s m e => fBF16.round ((FVal.fin s m e).add (fBF16.decode (bf16Hi x)).neg)
  | _ => 0

/-- One row pair of operands of a chunk: element and scale on each side. For the FP32 emulation `a` and `xa` are the
high and low BF16 parts of the stationary element, as the two weight buffers hold them (R175). -/
structure OpPair where
  a : Nat
  xa : Nat
  b : Nat
  xb : Nat
deriving DecidableEq, Repr

/-- The products of one pass added in row order onto a chunk sum (R84). -/
def chunkFold (fam : Family) (L : Int) (fa fb : Nat) (init : AccSt) (ps : List OpPair) : AccSt :=
  ps.foldl (fun s p => s.add (product fam L fa p.a p.xa fb p.b p.xb)) init

/-- The sum of one chunk for one output element (R84), the three passes of R95 for FP32. -/
def chunkSum (pi : PairInfo) (L : Int) (fa fb : Nat) (ps : List OpPair) : AccSt :=
  let z : AccSt := ⟨accZero pi.fam, 0, 0⟩
  if pi.three then
    let hh := ps.map fun p => OpPair.mk p.a 127 (bf16Hi p.b) 127
    let lh := ps.map fun p => OpPair.mk p.xa 127 (bf16Hi p.b) 127
    let hl := ps.map fun p => OpPair.mk p.a 127 (bf16Lo p.b) 127
    chunkFold .f32 0 7 7 (chunkFold .f32 0 7 7 (chunkFold .f32 0 7 7 z lh) hl) hh
  else chunkFold pi.fam L fa fb z ps

/-- The window exponent of R77 from the scales of the block pairs of a tile. -/
def windowL (fa fb : Nat) (pairs : List (Nat × Nat)) : Int :=
  let base := fmtMf fa + fmtMf fb
  let ts := (pairs.filter fun p => p.1 != 0xFF && p.2 != 0xFF).map fun p => ((p.1 : Int) - 127) + ((p.2 : Int) - 127) + base
  let top := match ts with
    | [] => base
    | t :: rest => rest.foldl max t
  top - 95

/-- A wide-exact entry as a value (R82), with its STICKY bit. -/
def wxValue (win : Int) (flags : Nat) (L : Int) : FVal :=
  if bit flags 3 then .nan
  else if bit flags 1 then .inf false
  else if bit flags 2 then .inf true
  else .fin (decide (win < 0)) win.natAbs L

/-- A value clamped to a range, with whether it was (R93, R252). -/
def clampInt (lo hi v : Int) : Int × Nat := if v < lo then (lo, 1) else if hi < v then (hi, 1) else (v, 0)

/-- Output conversion (R82, R89 to R93, Table 4-11): an entry as an element of an output format, with the saturations
it counts. -/
def accOut (fmt : Nat) (sat : Bool) (L : Int) (v : AccVal) : Nat × Nat :=
  match v with
  | .int x =>
    if fmt = 0x11 then (wrap 64 x, 0)
    else let r := clampInt (-(2 ^ 31)) (2 ^ 31 - 1) x; (wrap 32 r.1, r.2)
  | .f32 b => if fmt = 9 then (b.toNat, 0) else ((fmtFloat fmt).encode sat false (f32 b), 0)
  | .wx w f =>
    if fmt = 0x12 then (wrap 128 w + wrap 32 L * 2 ^ 128 + f * 2 ^ 160, 0)
    else ((fmtFloat fmt).encode sat (bit f 0 && w != 0) (wxValue w f L), 0)

/-- An existing output element converted exactly to the bank's family (R189). -/
def accIn (fam : Family) (fmt x : Nat) : AccVal :=
  match fam with
  | .int => .int (if fmt = 0x11 then sext 48 x else sext 32 x)
  | .f32 => .f32 (if fmt = 9 then BitVec.ofNat 32 x else toF32 ((fmtFloat fmt).decode x))
  | .wx => .wx (sext 128 x) ((x >>> 160) % 16)

/-- May a family be written in this output format (Table 4-11)? -/
def outAllowed (fam : Family) (fmt : Nat) : Bool :=
  match fam with
  | .int => fmt = 0x10 || fmt = 0x11
  | .f32 => 5 ≤ fmt && fmt ≤ 9
  | .wx => (5 ≤ fmt && fmt ≤ 9) || fmt = 0x12

/-- Does an output of this format convert, so that it needs the whole range complete (Table 4-11)? -/
def outConverts (fam : Family) (fmt : Nat) : Bool :=
  match fam with
  | .int => fmt != 0x11
  | .f32 => fmt != 9
  | .wx => fmt != 0x12

end Sys2Proof.Machine
end

