-- ==== Sys2Proof/Machine/Table.lean ====
section
/-! DEFINITION. Finite tables keyed by a number, and byte memories in canonical form. -/

namespace Sys2Proof.Machine

/-- The entry of a table at key `k`, or the table's default when no entry is listed. -/
def tget {α : Type} (d : α) (t : Table α) (k : Nat) : α :=
  match t with
  | [] => d
  | (k', v) :: rest => if k = k' then v else tget d rest k

/-- The table with `v` at key `k`. -/
def tput {α : Type} (t : Table α) (k : Nat) (v : α) : Table α :=
  match t with
  | [] => [(k, v)]
  | (k', v') :: rest =>
    if k = k' then (k, v) :: rest
    else if k < k' then (k, v) :: (k', v') :: rest
    else (k', v') :: tput rest k v

/-- The table with the entry at key `k` changed by a function. -/
def tmod {α : Type} (d : α) (t : Table α) (k : Nat) (f : α → α) : Table α := tput t k (f (tget d t k))

/-- The table without its entry at key `k`. -/
def tdel {α : Type} (t : Table α) (k : Nat) : Table α := t.filter fun e => e.1 ≠ k

/-- The entry of a table at key `k`, if one is listed. -/
def tfind {α : Type} (t : Table α) (k : Nat) : Option α :=
  match t with
  | [] => none
  | (k', v) :: rest => if k = k' then some v else tfind rest k

/-- Change every listed entry. -/
def tmap {α : Type} (t : Table α) (f : Nat → α → α) : Table α := t.map fun e => (e.1, f e.1 e.2)

/-- Change the element at a position of a list; a position beyond the list changes nothing. -/
def lmod {α : Type} (l : List α) (i : Nat) (f : α → α) : List α :=
  match l, i with
  | [], _ => []
  | x :: xs, 0 => f x :: xs
  | x :: xs, n + 1 => x :: lmod xs n f

/-- A byte memory: pairs of an address and a byte, addresses strictly rising, none listed with the value zero that an
unlisted address reads as. -/
abbrev Mem := List Host.Cell

/-- The byte at an address; an address that is not listed reads as zero. (DESIGN CHOICE: log 11) -/
def mread (m : Mem) (a : Nat) : Byte := tget 0 m a

/-- Memory with one byte written, in canonical form. -/
def mwrite (m : Mem) (a : Nat) (b : Byte) : Mem := if b = 0 then tdel m a else tput m a b

/-- `n` bytes from address `a`. -/
def mreadN (m : Mem) (a n : Nat) : List Byte := (List.range n).map fun i => mread m (a + i)

/-- Bytes written from address `a` on. -/
def mwriteN (m : Mem) (a : Nat) : List Byte → Mem
  | [] => m
  | b :: bs => mwriteN (mwrite m a b) (a + 1) bs

/-- Memory with addresses `a` to `a + n - 1` all zero. -/
def mzero (m : Mem) (a n : Nat) : Mem := m.filter fun c => c.1 < a || a + n ≤ c.1

/-- Addresses strictly rising from `lo`, and no zero listed. -/
def memSorted (lo : Nat) : Mem → Bool
  | [] => true
  | (a, b) :: rest => lo ≤ a && b != 0 && memSorted (a + 1) rest

/-- The canonical form of a memory. -/
def Memory.wf (m : Mem) : Bool := memSorted 0 m

end Sys2Proof.Machine
end

