-- ==== Sys2Proof/Machine/StateFront.lean ====
section
/-! DEFINITION. The state of the front end: contexts, memory objects, fences, queues, commands, segments, withdrawals,
segment faults, semaphores (chapters 7 to 10). -/

namespace Sys2Proof.Machine

/-- States of a context (Table 7-10). -/
inductive CtxState where
  | free | live | lost | aborting | held
deriving DecidableEq, Repr

/-- The fault record of a context (Table 7-9, offsets 0x0C0 to 0x0D8). -/
structure FaultRec where
  code : Nat := 0
  access : Nat := 0
  queue : Nat := 0
  count : Nat := 0
  address : Nat := 0
  thyme : Nat := 0
  ringOffset : Nat := 0
deriving DecidableEq, Repr

/-- A segment descriptor (Table 9-1); `vpage` is VBASE in 64 KiB units. -/
structure Seg where
  vpage : Nat := 0
  pages : Nat := 0
  pbase : Nat := 0
  object : BitVec 32 := 0
  keyIdx : Nat := 0
  sourceFn : Nat := 0
  stale : Bool := false
  host : Bool := false
  present : Bool := false
  lro : Bool := false
  w : Bool := false
  rd : Bool := false
deriving DecidableEq, Repr

/-- The undo area of a context (Table 9-7). -/
structure UndoArea where
  object : BitVec 32 := 0
  base : Nat := 0
  slots : Nat := 0
  captures : Nat := 0
deriving DecidableEq, Repr

/-- A packet as the fetch sequencer decoded it: its two words, the ring counter value it is recorded at, and its byte
offset in a called buffer when it stands in one (R865). -/
structure Packet where
  w0 : Nat
  w1 : Nat
  pos : Nat
  off : Option Nat
deriving DecidableEq, Repr

/-- Where the fetch sequencer of a queue stands (R393, R396). -/
inductive FetchState where
  | asleep | fetching | reread
deriving DecidableEq, Repr

/-- A queue: its table entry (Table 8-1), its target (Table 11-9 request QUEUE_TARGET), and, while it holds a queue
slot, its fetch sequencer. -/
structure Queue where
  gen : Nat := 1
  state : Nat := 0
  deviceWritten : Bool := false
  sizeLog2 : Nat := 0
  ringVa : Nat := 0
  haltCode : Nat := 0
  tail : Nat := 0
  head : Nat := 0
  /-- FUNCTION of QUEUE_TARGET: 0 when the queue feeds native engines (R525). -/
  targetFn : Nat := 0
  nativeVa : Nat := 0
  /-- The queue's bit in the front end's pending map (R391). -/
  pendingBit : Bool := false
  dbPending : Bool := false
  fetch : FetchState := .asleep
  seenTail : Nat := 0
  decoded : List Packet := []
  /-- A fence the queue is blocked on, with the Thyme at which the wait began (R372). -/
  blocked : Option (BitVec 32 × Nat) := none
  /-- The launch bound by LAUNCH_RESIDENT (R415). -/
  bound : Option Nat := none
  /-- The segment on which a ring fetch has stopped (Table 9-5). -/
  stalled : Option Nat := none
  /-- A QUEUE_DESTROY waits on this queue (R385). -/
  destroying : Bool := false
deriving DecidableEq, Repr

/-- What the hub saves of a context for one engine (R479): the allotment, and the launches whose images go with it. -/
structure SaveRec where
  engine : Nat
  units : Nat
  cells : Mem
  launches : List Nat
  /-- The engine a restore of the record is in progress to (R497). -/
  into : Option Nat := none
deriving DecidableEq, Repr

/-- The accounting counters of a context (Table 10-2). -/
structure Account where
  /-- Engine time by engine, in twelfths of a nanosecond, which makes every rate w of R471 a whole number. -/
  engineTime : Table Nat := []
  energyMj : Nat := 0
  /-- Energy below one millijoule, in picojoules, as a fraction (R826). -/
  energyNum : Nat := 0
  energyDen : Nat := 1
  memBytes : Nat := 0
  fabricBytes : Nat := 0
  hostBytes : Nat := 0
  switchBytes : Nat := 0
  switchCount : Nat := 0
  preemptCount : Nat := 0
  vtime : Nat := 0
  /-- The remainder of the last charge, below one unit of VTIME, as a fraction (R473). -/
  remNum : Nat := 0
  remDen : Nat := 1
  lastProgress : Nat := 0
deriving DecidableEq, Repr

/-- The scheduling fields of a context (Tables 10-1, 10-2). -/
structure CtxSched where
  share : Nat := 100
  rslot : Option Nat := none
  /-- Steps 1 to 7 of R495 are under way. -/
  switchingOut : Bool := false
  /-- Thyme of the last switch-in (R491). -/
  switchedInAt : Nat := 0
  /-- Thyme since when a startable launch has had no slot (R489). -/
  waitingSince : Option Nat := none
  saveObject : BitVec 32 := 0
  saveRecords : Nat := 0
  saved : List SaveRec := []
  /-- The context was idle when the scheduler last looked at it (R474). -/
  wasIdle : Bool := true
deriving DecidableEq, Repr

/-- A RELEASE that has executed and whose entry is not yet freed: the handle, whether it ended an import, and the TAIL
of each queue at that moment, below which a command precedes it (R363 to R366). -/
structure Released where
  handle : BitVec 32
  isImport : Bool
  marks : List (Nat × Nat)
  earlier : List Nat
deriving DecidableEq, Repr

/-- A context record (Table 7-9). -/
structure Context where
  state : CtxState := .free
  fabric : Bool := false
  gen : Nat := 1
  allotUnits : Nat := 0
  vf : Nat := 0
  part : Nat := 0
  semHeld : BitVec 64 := 0
  fencesOwned : Nat := 0
  objectsOwned : Nat := 0
  heldByImports : Nat := 0
  undo : UndoArea := {}
  queues : Table Queue := []
  fault : FaultRec := {}
  acct : Account := {}
  sched : CtxSched := {}
  segs : Table Seg := []
  /-- The segment owner whose table this context uses (R438). -/
  shareOf : Option Nat := none
  /-- Handles of the entries of other contexts this context imports. -/
  imports : List (BitVec 32) := []
  released : List Released := []
  /-- The tenant debug key registered for the context's partition is state of the partition. `lostHold` is set while a
  line of the context is lost at rest (R709). -/
  lostHold : Bool := false
  /-- Who asked for the destruction: the function whose block is BUSY with it, or none for an FLR. -/
  destroyBy : Option Fn := none
deriving DecidableEq, Repr

/-- A memory-object entry (Table 7-12). `state`: 0 free, 1 zeroing, 2 live, 3 orphaned. The first generation of this and
of every other entry is 1. (DESIGN CHOICE: log 96) -/
structure Obj where
  gen : Nat := 1
  imports : Nat := 0
  exported : Bool := false
  host : Bool := false
  releasing : Bool := false
  state : Nat := 0
  owner : BitVec 16 := 0
  base : Nat := 0
  size : Nat := 0
deriving DecidableEq, Repr

/-- A fence entry (Table 7-13). `state`: 0 free, 1 unsignalled, 2 signalled, 3 signalled with error. -/
structure Fence where
  gen : Nat := 1
  error : Nat := 0
  imports : Nat := 0
  exportScope : Nat := 0
  notify : Bool := false
  releasing : Bool := false
  orphaned : Bool := false
  state : Nat := 0
  owner : BitVec 16 := 0
  key : BitVec 16 := 0
  signalThyme : Nat := 0
deriving DecidableEq, Repr

/-- A launch descriptor as read when its command started (Table 8-8), with its constant buffer. -/
structure Desc where
  codeVa : Nat := 0
  workgroups : Nat := 0
  spanLog2 : Nat := 0
  arrays : Nat := 0
  k : Nat := 0
  readSegs : Nat := 0
  writeSegs : Nat := 0
  arg : Nat := 0
  consts : List Byte := []
deriving DecidableEq, Repr

/-- A COPY or FILL in progress (R405, R406). `done` counts bytes already written; `buf` holds the bytes of the present
64 KiB block that have been read and not yet written, and `reading` says that the block is still being read. -/
structure CopyJob where
  isFill : Bool
  src : Nat
  dst : Nat
  len : Nat
  pattern : Nat
  done : Nat := 0
  buf : List Byte := []
  reading : Bool := true
  /-- A line of this command has already been reported to Sage (R405, R208). -/
  reported : Bool := false
deriving DecidableEq, Repr

/-- A command started and not completed (R396, R400). -/
structure Cmd where
  ctx : Nat
  queue : Nat
  op : Nat
  flags : Nat
  handle : BitVec 32
  arg : Nat
  /-- FAULT_RING_OFFSET of a fault that arises in this command (R865). -/
  origin : Nat
  /-- The ring counter of its packet, for R363. -/
  pos : Nat
  /-- It has acted (R399); a command that starts at once has acted when it starts. -/
  acted : Bool := true
  /-- Code of the first fault in this command; 0 when there is none. -/
  code : Nat := 0
  desc : Option Desc := none
  /-- Workgroups already dispatched, and workgroups ended. -/
  wgStarted : Nat := 0
  wgEnded : Nat := 0
  /-- A work packet for the launch bound to its queue (R416). -/
  isPacket : Bool := false
  delivered : Bool := false
  /-- LAUNCH_RESIDENT: the launch of this command is bound to its queue. -/
  resident : Bool := false
  copy : Option CopyJob := none
  /-- The segment on which an access of this command has stopped (Table 9-5). -/
  stalled : Option Nat := none
  /-- Foreign engines that run workgroups of this command, as 16 × port + engine, with the workgroup. -/
  foreign : List (Nat × Nat) := []
  /-- Workgroups to be executed again: a foreign launch that was stopped or has failed (R530, R548). -/
  redo : List Nat := []
  /-- SEGMENT_REFUSED has been given for these segments: later lines there are violations (R455). -/
  refusedSegs : List Nat := []
deriving DecidableEq, Repr

/-- A signal on its way to the fence unit (R355): the fence, the error code or 0, and whether it comes from the hub. -/
structure FenceSig where
  fence : BitVec 32
  code : Nat
deriving DecidableEq, Repr

/-- What a completed withdrawal lets go on. -/
inductive WdFor where
  | request (fn : Fn)
  | abort (c : Nat)
  | freed (part base size : Nat)
deriving DecidableEq, Repr

/-- A withdrawal (R447): the owner of the table, the virtual pages withdrawn, the caches still to acknowledge, and
whether it has been broadcast (R451). -/
structure Withdrawal where
  owner : Nat
  seg : Nat
  lo : Nat
  hi : Nat
  waiting : List CacheId
  broadcast : Bool
  why : List WdFor
deriving DecidableEq, Repr

/-- A pending segment fault (R453): one context and one segment. -/
structure SegFault where
  ctx : Nat
  seg : Nat
  fn : Fn
  va : Nat
  access : Nat
  thyme : Nat
  posted : Bool := false
  /-- Place of the access for the fault record (R865). -/
  queue : Nat := 0xFFFF
  origin : Nat := 0
deriving DecidableEq, Repr

/-- A miss-queue block (Table 9-9). -/
structure MissQ where
  base : Nat := 0
  timeoutMs : Nat := 0x64
  enable : Bool := false
  sizeLog2 : Nat := 0
  head : Nat := 0
  tail : Nat := 0
  seq : Nat := 0
deriving DecidableEq, Repr

/-- A segment cache: tags of (table owner, segment), most recently used first (R443). -/
structure SegCache where
  who : CacheId
  tags : List (Nat × Nat)
deriving DecidableEq, Repr

/-- A semaphore of a partition (R271, R502 to R507). -/
structure Sem where
  holder : Option Nat := none
  holderCtx : Nat := 0
  waiters : List Nat := []
  since : Nat := 0
  limitMs : Nat := 0
deriving DecidableEq, Repr

/-- An object request block (Tables 7-4 to 7-6). -/
structure ObjBlock where
  arg0 : BitVec 64 := 0
  arg1 : BitVec 64 := 0
  arg2 : BitVec 64 := 0
  tag : BitVec 16 := 0
  code : Nat := 0
  lost : Bool := false
  done : Bool := false
  busy : Bool := false
  result0 : BitVec 64 := 0
  result1 : BitVec 64 := 0
  /-- The request in progress: its OP and tag. -/
  op : Nat := 0
  curTag : BitVec 16 := 0
  /-- The request has been taken and not yet begun: the Warden is down (R721), or a partition program holds it
  (R318). -/
  queued : Bool := false
  /-- The object being zeroed (R349), the queue being destroyed (R385). -/
  subject : BitVec 32 := 0
  /-- Withdrawals the request waits for (R435, R436). -/
  waits : List Nat := []
  /-- The segment on which an access of the request has stopped, and segments refused to it (R452, R455). -/
  stalled : Option Nat := none
  refusedSegs : List Nat := []
deriving DecidableEq, Repr

/-- One entry of the peer table (Table 8-10), and the records exchanged with that peer (Table 8-9). -/
structure Peer where
  hubId : BitVec 16 := 0
  slot : Nat := 0
  valid : Bool := false
  addr : Nat := 0
  sentSeq : Nat := 0
  resultSeq : Nat := 0
  result : Nat := 0
deriving DecidableEq, Repr

/-- Front-end counters (Table 8-10) and segment counters (Table 9-10). -/
structure FeCounters where
  dbAccepted : Nat := 0
  dbIgnored : Nat := 0
  walks : Nat := 0
  cycles : Nat := 0
  remoteRefused : Nat := 0
  segMiss : Nat := 0
  segFault : Nat := 0
  inval : Nat := 0
  invalLate : Nat := 0
  bar4Absent : Nat := 0
  undoRecovery : Nat := 0
deriving DecidableEq, Repr

end Sys2Proof.Machine
end

