-- ==== Sys2Proof/Machine/StateEngine.lean ====
section
/-! DEFINITION. The state of the tensor engines (chapters 3 to 5): launch slots and their registers, arrays, weight
buffers and banks, issue queues, instructions in flight, allotments, the park store, the engine store, combiners. -/

namespace Sys2Proof.Machine

/-- The register files and counts of a launch slot (R105, Table 4-3). A register that is not listed is zero (R106). -/
structure Regs where
  s : Table W64 := []
  v : Table (List W32) := []
  p : Table (BitVec 256) := []
  t : Table (BitVec 256) := []
  k : Table Nat := []
  t2Invalid : Nat := 0
  intSat : Nat := 0
  flush : Nat := 0
  violation : Nat := 0
deriving DecidableEq, Repr

/-- An issued instruction waiting in its queue, with the s and t operands it was issued with (R163). -/
structure QEntry where
  word : Nat
  addr : Nat
  s : Table W64
  t : Table (BitVec 256)
deriving DecidableEq, Repr

/-- One stationary column of a weight buffer: element codes and MX scales. -/
structure Column where
  elems : List Nat
  scales : List Nat
deriving DecidableEq, Repr

/-- A weight buffer (R114, R116, R173). -/
structure Weight where
  loaded : Bool := false
  loading : Bool := false
  fmt : Nat := 0
  cols : List Column := []
deriving DecidableEq, Repr

/-- The states of an accumulator bank (Table 4-8); BUSY is the flag `Bank.busy`. -/
inductive BankState where
  | empty | windowed | opened | combined
deriving DecidableEq, Repr

/-- An accumulator bank with what Table 4-8 records with its state: the spans `a` to `e` it holds (both the span s
while OPEN), the current chunk, the format pair, N, ROWS and, for wide-exact, L. A row not listed reads ZERO. -/
structure Bank where
  state : BankState := .empty
  busy : Bool := false
  L : Int := 0
  a : Nat := 0
  e : Nat := 0
  cur : Nat := 0
  fs : Nat := 0
  fx : Nat := 0
  wx : Bool := false
  n : Nat := 0
  rows : Nat := 0
  data : Table (List AccVal) := []
deriving DecidableEq, Repr

/-- A logical array of a launch: two weight buffers and two banks, and whether it is resident in its physical array
(R111). -/
structure LArray where
  w0 : Weight := {}
  w1 : Weight := {}
  b0 : Bank := {}
  b1 : Bank := {}
  resident : Bool := true
deriving DecidableEq, Repr

/-- A partial on its way to, or held by, a collective unit (R192). -/
structure Partial where
  owner : BitVec 16
  key : W64
  a : Nat
  e : Nat
  k : Nat
  spanLog2 : Nat
  fs : Nat
  fx : Nat
  wx : Bool
  n : Nat
  rows : Nat
  L : Int
  data : List (List AccVal)
  ty : BitVec 256
  so : W64
  sf : BitVec 32
deriving DecidableEq, Repr

/-- A move instruction on a mover (R197 to R205): its opcode, its descriptors, the byte offsets added to the source and
destination, its fill pattern, and how far it has come: the row, and the bytes of that row already written. -/
structure MoveJob where
  kind : Nat
  dm : Nat
  src : BitVec 256
  dst : BitVec 256
  idx : BitVec 256 := 0
  sos : Nat := 0
  sod : Nat := 0
  pattern : Nat := 0
  rows : Nat
  row : Nat := 0
  done : Nat := 0
  /-- The violations of reading the present row have been counted. -/
  counted : Bool := false
  reported : Bool := false
  /-- The segment it has stopped on, and the segments refused to it, whose later lines violate (R455). -/
  stopped : Option Nat := none
  refused : List Nat := []
deriving DecidableEq, Repr

/-- What an instruction in flight will do at its completion point (R159, Table 4-12). -/
inductive Effect where
  /-- A pass: its array, bank, buffer, first row, whether it starts its span, its chunk sums, and whether it is the
  reissue of R100. -/
  | pass (arr bank buf r0 : Nat) (starts : Bool) (sums : List (List AccSt)) (reissued : Bool)
  | load (arr buf : Nat) (both : Bool)
  | window (arr bank : Nat) (L : Int)
  | combine (al bl ar br : Nat)
  | drain (arr bank : Nat)
  | send (arr bank : Nat) (dest : W64) (p : Partial)
  | move (m : MoveJob)
  | enqueue (off q ss : Nat)
deriving DecidableEq, Repr

/-- An instruction in flight: its effect and the token counter it signals. -/
structure InFlight where
  eff : Effect
  signal : Option Nat
deriving DecidableEq, Repr

/-- What a launch executes with: registers, program counter, the fetched code line, issue queues, instructions in
flight, arrays, and the constant buffer. It is what a slot image and the array images hold together (R105, R866). -/
structure Exec where
  regs : Regs := {}
  pc : Nat := 0
  line : Option (Nat × List Byte) := none
  tq : List QEntry := []
  vq : List QEntry := []
  mq : List QEntry := []
  sq : List QEntry := []
  inflight : List InFlight := []
  arrs : List LArray := []
  consts : List Byte := []
deriving DecidableEq, Repr

/-- Where a launch is. -/
inductive Place where
  /-- Waiting for a dispatch round; a replayed launch waits here too. -/
  | waiting
  /-- In a launch slot. -/
  | slot (e n : Nat)
  /-- Parked while waiting on its queue, in a place of the park store (R144). -/
  | parked (e n : Nat)
  /-- Pre-empted while its context stays resident: its slot image in a place of the park store, or in the save record
  of that engine (R493). -/
  | preempted (e : Nat) (park : Option Nat)
  /-- In a save record of its context (R495), parked or pre-empted before. -/
  | saved (parked : Bool)
deriving DecidableEq, Repr

/-- The status of a launch slot's launch (Table 3-11). -/
inductive SlotState where
  | starting | running | waiting | stopping | parking
deriving DecidableEq, Repr

/-- Why a launch is to stop at its next check point (R125). -/
inductive StopWhy where
  | preempt | abort | lost | failed
deriving DecidableEq, Repr

/-- A block captured for replay: the virtual block and the undo slot that holds it (R460); no slot for a block whose
first write followed a recovery point and found no slot even then (R462). -/
structure Capture where
  block : Nat
  slot : Option Nat
deriving DecidableEq, Repr

/-- A block of an allotment captured for replay, with its bytes (R712). -/
structure AllotCap where
  block : Nat
  cells : Mem
deriving DecidableEq, Repr

/-- What the engine records of a replay unit's side effects (R715): an ENQ that reached its completion point, with the
value it wrote to s[SS], or a CRED whose last byte the spine accepted. -/
inductive DoneOnce where
  | enq (value : Nat)
  | cred
deriving DecidableEq, Repr

/-- A launch: one workgroup of a LAUNCH, a resident launch, or a step of a static schedule. -/
structure Launch where
  ctx : Nat
  /-- The command it belongs to; none for a step of a static schedule. -/
  cmd : Option Nat
  /-- The static schedule step it runs, as partition and step. -/
  step : Option (Nat × Nat) := none
  wg : Nat
  wgs : Nat
  desc : Desc
  origin : Nat
  queue : Nat
  resident : Bool := false
  place : Place := .waiting
  status : SlotState := .starting
  stop : Option StopWhy := none
  x : Exec := {}
  /-- The start of its replay unit: the launch start or the last recovery point (R710). -/
  unit : Exec := {}
  bound : List Nat := []
  /-- Fold region: base and size in units (R112). -/
  fold : Option (Nat × Nat) := none
  /-- Code of the first fault in it. -/
  code : Nat := 0
  sems : List Nat := []
  /-- Semaphores held when its replay unit began. -/
  unitSems : List Nat := []
  /-- Semaphore it waits for in SACQ, and that instruction's word (R271). -/
  semWait : Option (Nat × Nat) := none
  /-- Semaphore numbers taken from it by the hold limit, whose SREL does nothing (R505). -/
  semLost : List Nat := []
  /-- Segment on which it has stopped (Table 9-5), and segments refused to its code fetch or ENQ (R455). -/
  segStop : Option Nat := none
  segRefused : List Nat := []
  /-- A 64 KiB block whose capture the launch waits for (R460). -/
  capWait : Option Nat := none
  /-- It needs a recovery point before it goes on (R462). -/
  recovery : Bool := false
  captures : List Capture := []
  /-- The capture set: the segments, as a mask (R459). -/
  capSet : Nat := 0
  allotCaps : List AllotCap := []
  /-- The record of R715 for the present unit, oldest first, and the part of it that a replay has still to pass. -/
  done : List DoneOnce := []
  redo : List DoneOnce := []
  /-- Bytes of device and host memory charged to the context since the unit began, and those that a replay will move
  again without charge (R513). -/
  chMem : Nat := 0
  chHost : Nat := 0
  owedMem : Nat := 0
  owedHost : Nat := 0
  /-- Thyme up to which engine time has been charged (R471). -/
  chargedAt : Nat := 0
  /-- Engine time charged since the unit began, and engine time of a failed attempt still to run again without charge,
  in twelfths of a nanosecond (R513). -/
  chTime : Nat := 0
  owedTime : Nat := 0
  /-- The launch waits to be placed ahead of every other launch of its partition after a replay (Table 15-3). -/
  replayed : Bool := false
  /-- The steps of a replay before its restores are complete (Table 15-3 step 2). -/
  restoring : Bool := false
  /-- An engine the unit must not run on next (R718). -/
  avoid : Option Nat := none
  /-- Order in which launches started or resumed (R489). -/
  startSeq : Nat := 0
  /-- Thyme at which its present wait on the queue began (R144). -/
  waitSince : Nat := 0
  issued : Bool := false
  /-- s register numbers QWAIT will write (R268). -/
  qwait : Option (Nat × Nat × Option Nat) := none
  /-- The front end has ended its wait (R269). -/
  stopWait : Bool := false
  /-- The work packet delivered to it and not yet complete (R417). -/
  packet : Option Nat := none
deriving DecidableEq, Repr

/-- States of an allotment entry (Table 3-12). -/
inductive AllotState where
  | live | saving | restoring | scrubbing
deriving DecidableEq, Repr

/-- An allotment (R130, R131, Table 3-12). -/
structure Allot where
  owner : BitVec 16
  base : Nat
  size : Nat
  state : AllotState
deriving DecidableEq, Repr

/-- A place of the park store that is not free (Table 3-13): 1 holding, 2 being written, 3 being read. -/
structure Park where
  owner : BitVec 16
  queueSlot : Nat
  state : Nat
  launch : Nat
deriving DecidableEq, Repr

/-- A scrub in progress: base and size in 256 KiB units, or a park place (R136 to R139). -/
structure Scrub where
  base : Nat
  units : Nat
deriving DecidableEq, Repr

/-- The engine-wide counters (Table 3-6). -/
structure EngCounters where
  t2Invalid : Nat := 0
  intSat : Nat := 0
  flush : Nat := 0
  checkRetry : Nat := 0
  storeCe : Nat := 0
  scrubBytes : Nat := 0
  park : Nat := 0
  wake : Nat := 0
  arrayBusy : Table Nat := []
  vectorBusy : Nat := 0
  moverRead : Nat := 0
  moverWrite : Nat := 0
  energyUj : Nat := 0
  /-- Energy below one microjoule, in picojoules (R826). -/
  energyRem : Nat := 0
deriving DecidableEq, Repr

/-- An engine (Table 3-1). `state` is ENG_STATE.STATE: 0 absent, 1 idle, 2 active (shown from the slots), 3 out for
self-test, 4 retired. -/
structure Engine where
  state : Nat := 0
  arrayRetired : List Nat := []
  freq : Nat := 1000
  vid : Nat := 0x46
  pinned : Bool := false
  ctr : EngCounters := {}
  slots : Table Nat := []
  allots : Table Allot := []
  parks : Table Park := []
  scrubs : List Scrub := []
  store : Mem := []
  /-- Partials held by the engine combiner, and partials that have reached its input (R195). -/
  held : List Partial := []
  inbox : List Partial := []
  /-- Clock halved by droop (R827). -/
  halved : Bool := false
  /-- Throttle step k of 8 (R823). -/
  throttle : Nat := 0
  /-- Units 0 to the free-list are scrubbed; a save and scrub for a hand-over is in progress (R314). -/
  handover : Bool := false
deriving DecidableEq, Repr

end Sys2Proof.Machine
end

