-- ==== Sys2Proof/Machine/StatePart.lean ====
section
/-! DEFINITION. The state of partitions, the Warden mailbox and slice statements (chapter 6), of the host endpoint
(chapter 14), and of Sage (chapter 15). -/

namespace Sys2Proof.Machine

/-- A partition (Tables 6-1, 6-7). Unit sets are lists of indices in rising order; a foreign engine has the index
16 × port + engine. `state`: 0 closed, 1 open, 2 sealed. -/
structure Part where
  state : Nat := 0
  static : Bool := false
  validated : Bool := false
  timesliceMs : Nat := 0
  quota : Nat := 0
  rslots : Nat := 0
  engines : List Nat := []
  foreign : List Nat := []
  channels : List Nat := []
  ways : List Nat := []
  /-- Shares in 1/256, by fabric port; 0x20 is the PCIe endpoint (Table 6-10). -/
  shares : Table Nat := []
  /-- Power share in 0.25 W. -/
  power : Nat := 0
  vfs : List Nat := []
  keygen : Nat := 0
  changes : Nat := 0
  label : Nat := 0
  /-- Cause of the last sequence change (Table 6-16): 0 program, 1 refill, 2 reduction. -/
  reason : Nat := 0
  /-- Units that joined by refill (Table 6-17, STATUS 3), as type and index. -/
  refilled : List (Nat × Nat) := []
  /-- The key index of the partition holds its key (R287, R288). -/
  keyed : Bool := false
  /-- Thyme of the switch that committed TIMESLICE_MS (R487). -/
  sliceFrom : Nat := 0
  /-- A tenant debug key registered by DBG_KEY_SET (R793). -/
  dbgKey : List Byte := []
deriving DecidableEq, Repr

/-- The unit places outside partitions, and the partitions: what a partition program stages (R274, R302). -/
structure Units where
  freeEngines : List Nat := []
  reserveEngines : List Nat := []
  freeForeign : List Nat := []
  reserveForeign : List Nat := []
  freeChannels : List Nat := []
  freeWays : List Nat := []
  reserveWays : List Nat := []
  parts : Table Part := []
deriving DecidableEq, Repr

/-- Transaction states (Table 6-9). -/
inductive WmbPhase where
  | idle | prescan | staging | validating | handover
deriving DecidableEq, Repr

/-- The Warden mailbox (Tables 6-3 to 6-6) and the program in progress. -/
structure Wmb where
  program : Table Nat := []
  phase : WmbPhase := .idle
  lost : Bool := false
  done : Bool := false
  busy : Bool := false
  resTag : Nat := 0
  resCode : Nat := 0
  resIndex : Nat := 0
  resDuration : Nat := 0
  /-- The running program: its tag and length, the next word, the shadow tables, the partitions it names, whether the
  switch has been made, the Thyme at which COMMIT began, and the engines and ways still being handed over. -/
  tag : Nat := 0
  len : Nat := 0
  idx : Nat := 0
  shadow : Units := {}
  named : List Nat := []
  switched : Bool := false
  began : Nat := 0
  handing : List UnitId := []
  /-- VFs whose statement requests wait, oldest first (R320). -/
  stmtQueue : List Nat := []
deriving DecidableEq, Repr

/-- The slice-statement registers of a VF (Tables 6-14, 6-15). -/
structure Stmt where
  nonce : Table Nat := []
  length : Nat := 0
  busy : Bool := false
  changed : Bool := false
  refused : Bool := false
  lost : Bool := false
  done : Bool := false
  buffer : List Byte := []
deriving DecidableEq, Repr

/-- A message block side (Table 14-10). -/
structure MsgSide where
  out : Table Nat := []
  inbox : Table Nat := []
  fromValid : Bool := false
  lost : Bool := false
  toBusy : Bool := false
deriving DecidableEq, Repr

/-- The interrupt side of a function: INT_STATUS, MSI-X enable, the vectors masked and pending (Table 14-7, R678 to
R680). MSI-X state is PCIe's own: disabled and unmasked entries after reset are masked by PCIe. -/
structure IntBlock where
  status : Nat := 0
  msixEnable : Bool := false
  /-- Vectors that have been unmasked. -/
  unmasked : List Nat := []
  pending : List Nat := []
  /-- MSI-X table entries as written: address and data by vector. -/
  table : Table (Nat × Nat) := []
deriving DecidableEq, Repr

/-- An aperture of VF BAR4 (Table 14-5). -/
structure Aperture where
  ctx : BitVec 32 := 0
  vbase : Nat := 0
deriving DecidableEq, Repr

/-- A virtual function (Tables 14-5, 14-6, 14-9, 14-10). -/
structure Vf where
  int : IntBlock := {}
  aps : Table Aperture := []
  notifyBase : Nat := 0
  notifyOverflow : Bool := false
  notifyEnable : Bool := false
  notifySize : Nat := 0
  notifyHead : Nat := 0
  notifyTail : Nat := 0
  msg : MsgSide := {}
  stmt : Stmt := {}
  d3hot : Bool := false
  /-- BAR4 size in MiB; 4 GiB at reset (Table 14-2). -/
  bar4MiB : Nat := 4096
  /-- An FLR is in progress (R687). -/
  resetting : Bool := false
deriving DecidableEq, Repr

/-- The endpoint and the physical function (Table 14-4). -/
structure Endpoint where
  perstCount : Nat := 0
  /-- The endpoint is down: perst_n is asserted, or the link has not come up since. -/
  down : Bool := true
  flit : Bool := false
  width : Nat := 0
  speed : Nat := 0
  cplFailed : Nat := 0
  poisoned : Nat := 0
  int : IntBlock := {}
  msgPending : Nat := 0
  resetDone : Nat := 0
  numVfs : Nat := 0
  vfEnable : Bool := false
  d3hot : Bool := false
  /-- PF BAR4 size in MiB; 32 MiB at reset (Table 14-2). -/
  bar4MiB : Nat := 32
  /-- PF side of the message block of each VF. -/
  msgs : Table MsgSide := []
  vfs : Table Vf := []
deriving DecidableEq, Repr

/-- SG_SRC_CFG of one source, and its open window (Table 15-11). -/
structure SrcCfg where
  count : Nat := 0
  severe : Bool := false
  /-- A window is open (R738). -/
  window : Bool := false
  severeReact : Nat
  minorReact : Nat
  threshold : Nat
  windowMs : Nat
  /-- A block reset of the unit has been made within the open window (R729). -/
  blockReset : Bool := false
deriving DecidableEq, Repr

/-- Sage (Table 15-10). -/
structure Sage where
  queue : List SageMsg := []
  ring : List SageMsg := []
  ringReady : Bool := false
  safe : Bool := false
  dropped : Nat := 0
  faultsDropped : Nat := 0
  faults : Nat := 0
  first : Option SageMsg := none
  firstValid : Bool := false
  firstMore : Bool := false
  /-- SG_PIN.STATE. -/
  pin : Nat := 0
  rounds : Nat := 0
  out : Bool := false
  engine : Nat := 0
  retired : Nat := 0
  replays : Nat := 0
  cfg : Table SrcCfg := []
  /-- Messages on their way to Sage. -/
  wire : List SageMsg := []
  /-- Thyme of the last Warden mismatch (R722), and whether the Warden is down for its restart. -/
  mismatchAt : Option Nat := none
  wardenDown : Bool := false
  /-- Restarts of the Warden since reset (Table 16-4), and whether a partition program and an LC command that the Warden
  had begun were cut by the present one (R721). -/
  restarts : Nat := 0
  cutProgram : Bool := false
  cutLc : Bool := false
  /-- Non-maskable traps delivered to the Warden (R739). (DEDUCED: log 98) -/
  nmi : Nat := 0
deriving DecidableEq, Repr

/-- A failure of a replay unit by a source (R718). -/
structure UnitFailure where
  launch : Nat
  source : Nat
  thyme : Nat
deriving DecidableEq, Repr

end Sys2Proof.Machine
end

