-- ==== Sys2Proof/Machine/StateHub.lean ====
section
/-! DEFINITION. The state of Rosemary (chapter 16), the life cycle and debug authorisation (chapter 17), power, clocks
and thermal control (chapter 18), bring-up, the Floor Plan Table and firmware (chapter 19). -/

namespace Sys2Proof.Machine

/-- A record of Rosemary (Table 16-2). -/
structure Rec where
  powerCycles : Nat := 0
  repeats : Nat := 1
  diverted : Bool := false
  forever : Bool := false
  code : Nat := 0
  seq : Nat := 0
  hours : Nat := 0
  p0 : Nat := 0
  p1 : Nat := 0
  p2 : Nat := 0
  p3 : Nat := 0
deriving DecidableEq, Repr

/-- What a record-store access is for (R746, R761). -/
inductive RecUse where
  | bringUp | format | record | repeatRec | slot (clean : Bool) | clear | select
deriving DecidableEq, Repr

/-- The record-store access in progress: read or write, its unit, the data written, and whether it is the repeat. -/
structure RecAccess where
  write : Bool
  unit : Nat
  data : Nat
  again : Bool := false
  use : RecUse
deriving DecidableEq, Repr

/-- Rosemary (Table 16-5). `forever` is oldest first; `circ` is newest first. -/
structure Rosemary where
  forever : List Rec := []
  circ : List Rec := []
  /-- Records still waiting for the store, oldest first (R756). -/
  queue : List Rec := []
  seq : Nat := 0
  changes : Nat := 0
  powerCycles : Nat := 0
  hours : Nat := 0
  commits : Nat := 0
  /-- Remaining writes of the bucket (R755). -/
  bucket : Nat := 64
  dropped : Nat := 0
  clearRefused : Bool := false
  shut : Bool := false
  lastClean : Bool := false
  formatted : Bool := false
  failed : Bool := false
  ready : Bool := false
  readBusy : Bool := false
  readError : Bool := false
  recWords : List Nat := [0, 0, 0, 0]
  /-- The newest circulating record differs from its copy in the store (R754). -/
  dirtyRepeat : Bool := false
  /-- Units read at bring-up that hold time slots: commits, power cycles, clean, hours of the current slot (R757). -/
  slot : Nat × Nat × Bool × Nat := (0, 0, false, 0)
  access : Option RecAccess := none
  /-- Accesses that wait for the port. -/
  waiting : List RecAccess := []
  /-- A clear is in progress: the newest SEQ and the records removed (R763, R764). -/
  clearing : Bool := false
  /-- A SHUTDOWN is in progress (R760). -/
  shutting : Bool := false
  /-- The reset was caused by por_n (R757). -/
  porCaused : Bool := true
  /-- Next circulating unit to write. -/
  circPos : Nat := 0
deriving DecidableEq, Repr

/-- A live challenge (R785). -/
structure Challenge where
  purpose : Nat
  part : Nat
  issued : Nat
deriving DecidableEq, Repr

/-- The life cycle, keys and debug authorisation (Table 17-11). -/
structure LifeCycle where
  /-- OTP words that are not zero (Table 17-4). -/
  otp : Table Nat := []
  /-- LC word and identity as read at the last reset (R766, R779). -/
  raw : Nat := 0
  pending : Nat := 0
  tag : Nat := 0
  code : Nat := 0
  lost : Bool := false
  done : Bool := false
  busy : Bool := false
  counter : Nat := 0
  challenge : Option Challenge := none
  block : List Byte := []
  token : Table Nat := []
  data : Table Nat := []
  /-- The command in progress: its OP, its tag, and PARTITION and PURPOSE as written. -/
  op : Nat := 0
  curTag : Nat := 0
  arg : Nat := 0
  /-- The state that an accepted TRANSITION or FINISH is programming, and whether it is a FINISH. -/
  target : Nat := 0
  finish : Bool := false
  /-- Grants held: end times in Thyme, none when not held; a partition-scope grant by partition. -/
  test : Option Nat := none
  hubDebug : Option Nat := none
  rma : Option Nat := none
  recClear : Option Nat := none
  partDebug : Table Nat := []
  dbgSpace : Nat := 0
  dbgEngine : Nat := 0
  dbgBase : Nat := 0
  dbgDenied : Nat := 0
  bootNonce : List Byte := []
  /-- The entropy source meets its health tests (R781), and the command whose seed draw waits: the OP and tag. -/
  entropyOk : Bool := true
  draws : Nat := 0
  drawWaits : Bool := false
deriving DecidableEq, Repr

/-- A supply domain (R810 to R812, Table 18-4). The operating point of an engine domain is that of its engine. -/
structure Domain where
  vid : Nat := 0
  reqVid : Nat := 0
  oc : Bool := false
  pg : Bool := false
  pending : Bool := false
  /-- Frequency the change in progress leads to, and the most recent waiting request (R811). -/
  toFreq : Nat := 0
  relocking : Bool := false
  waiting : Option Nat := none
  /-- No change before this Thyme (R812). -/
  holdOff : Nat := 0
deriving DecidableEq, Repr

/-- The power block (Table 18-4). -/
structure Power where
  limit : Nat := 0x820
  limitRefused : Bool := false
  emergency : Bool := false
  throttling : Bool := false
  estimate : Nat := 0
  fmax : Nat := 0x3E8
  /-- PWR_FMAX in effect, lowered above WARN (R831). -/
  fmaxEff : Nat := 0x3E8
  clkPort : Nat := 0
  clkFallback : Bool := true
  clkSource : Nat := 0
  clkActive : Nat := 2
  recLocked : Bool := false
  recPort : Nat := 0
  refPresent : Bool := false
  emerg : Nat := 0x548
  warn : Nat := 0x4F8
  trip : Nat := 0x5C0
  codes : Table Nat := []
  valid : Nat := 0
  throttleUs : Nat := 0
  emergencies : Nat := 0
  droops : Nat := 0
  staticExcessUs : Nat := 0
  domains : Table Domain := []
  allotted : Table Nat := []
  partEstimate : Table Nat := []
deriving DecidableEq, Repr

/-- Status of an FPT entry (Table 19-3). -/
structure FptEntry where
  type : Nat
  status : Nat
  index : Nat
  detail : Nat
deriving DecidableEq, Repr

/-- Bring-up, the Floor Plan Table and firmware (Tables 19-1, 19-3, 19-6, 19-8). -/
structure Boot where
  /-- The step of Table 19-1 that has completed; 0 while in reset. -/
  step : Nat := 0
  fpt : List FptEntry := []
  generation : Nat := 0
  composed : Nat := 0
  /-- The image buffer and the boot page's writable words. -/
  image : Mem := []
  reqSeq : Nat := 0
  reqOp : Nat := 0
  len : Nat := 0
  statSeq : Nat := 0
  code : Nat := 0
  fwState : Nat := 0
  source : Nat := 0
  total : Nat := 0
  held : List Nat := []
  digest : List Byte := []
  /-- The running image, and the load in progress over the fabric: LOAD_ID, length, chunk bytes. -/
  running : List Byte := []
  loadId : Nat := 0
  /-- Hub that sent the first chunk of the load, for Rosemary. -/
  srcHub : Nat := 0
  loadLen : Nat := 0
  chunks : Table (List Byte) := []
  prevState : Nat := 0
  /-- The four most recent LOAD_IDs with the chunks seen of each (R860). -/
  seen : List (Nat × List Nat) := []
  /-- Loads that a port's peer has refused: LOAD_ID and port (R861). -/
  refusedBy : List (Nat × Nat) := []
  /-- The request sampled and not yet acted on: SEQ and OP (R855). -/
  taken : Option (Nat × Nat) := none
  /-- Blocks of 64 KiB marked lost (R709), by physical block number. -/
  lost : List Nat := []
deriving DecidableEq, Repr

end Sys2Proof.Machine
end

