-- ==== Sys2Proof/Machine/StateLinks.lean ====
section
/-! DEFINITION. The state of the chiplet ports (chapter 11), of the fabric ports and collective units (chapter 12), and
of Thyme and static schedules (chapter 13). -/

namespace Sys2Proof.Machine

/-- States of a chiplet port (CP_STATE.STATE). -/
inductive CpState where
  | down | training | handshake | up | quarantined
deriving DecidableEq, Repr

/-- A READ or WRITE of a chiplet that has not been answered: to be performed after the earlier ones of its engine (R552),
held for a segment fault (R545), or performed and waiting for credits (R539). -/
structure CpHeld where
  fe : Nat
  tag : BitVec 16
  isWrite : Bool
  va : Nat
  lines : Nat
  data : List Byte
  /-- The segment it waits on. -/
  seg : Option Nat := none
  /-- A READ_DATA that waits only for credits, with its data. -/
  ready : Bool := false
  /-- Its REQ credits have been withheld, 64 requests being held (R545). -/
  owes : Bool := false
deriving DecidableEq, Repr

/-- A foreign engine of a port (R522, CP_FE_STATE). `state`: 0 absent, 1 idle, 3 running, 4 quiescing, 5 retired; that an
idle engine is in a partition (state 2 of the register) follows from the partitions. -/
structure Fe where
  state : Nat := 0
  function : Nat := 0
  /-- The launch dispatched to it: its command or its step of a static schedule (partition and step), the workgroup,
  the hub's launch tag, and the descriptor that gives its footprint. -/
  cmd : Option Nat := none
  step : Option (Nat × Nat) := none
  wg : Nat := 0
  tag : BitVec 16 := 0
  desc : Desc := {}
  /-- Context whose owner tag its requests carry. -/
  ctx : Nat := 0
  /-- Tag of an outstanding QUIESCE. -/
  quiesceTag : Option (BitVec 16) := none
  /-- Code of the first fault in its launch. -/
  code : Nat := 0
  /-- Fences that a SIGNAL waits to signal until earlier WRITEs are acknowledged (R547). -/
  signals : List (BitVec 32) := []
  /-- Thyme of the dispatch, and the time with a launch dispatched, in nanoseconds. -/
  since : Nat := 0
  busyNs : Nat := 0
deriving DecidableEq, Repr

/-- Credits toward a side: REQ_HDR, REQ_DATA, RSP_HDR, RSP_DATA (R537, R538). -/
structure CpCredits where
  reqHdr : Nat := 0
  reqData : Nat := 0
  rspHdr : Nat := 0
  rspData : Nat := 0
deriving DecidableEq, Repr

/-- A chiplet port (Table 11-7). -/
structure CpPort where
  state : CpState := .down
  rate : Nat := 0
  lanes : Nat := 0
  feCount : Nat := 0
  quarCount : Nat := 0
  cause : Nat := 0
  exclusive : Bool := true
  vendor : Nat := 0
  device : Nat := 0
  revision : Nat := 0
  version : Nat := 0
  serial : Nat := 0
  fes : Table Fe := []
  readLines : Nat := 0
  writeLines : Nat := 0
  violations : Nat := 0
  heldCount : Nat := 0
  quiesces : Nat := 0
  /-- Credits the chiplet has given the hub, and credits the hub has given the chiplet and not yet used up. -/
  toChip : CpCredits := {}
  fromChip : CpCredits := {}
  /-- Requests held for a segment fault or for credits, oldest first. -/
  held : List CpHeld := []
  /-- Outstanding INVALIDATEs: tag and withdrawal. -/
  invals : List (BitVec 16 × Nat) := []
  /-- Tag of an outstanding RESET; RECOVER is in progress. -/
  resetTag : Option (BitVec 16) := none
  recovering : Bool := false
  /-- Messages of the hub that wait for credits, as OP and message, oldest first. -/
  txq : List (Nat × CppMsg) := []
  /-- Next tag of the hub's own. -/
  nextTag : Nat := 0
deriving DecidableEq, Repr

/-- States of a fabric port (Table 12-2). -/
inductive FpState where
  | down | detect | equalise | align | ident | calibrate | active
deriving DecidableEq, Repr

/-- A flit sent and not acknowledged (R577): its SEQ, VC, the messages on it, and how often it has been sent. -/
structure TxFlit where
  seq : Nat
  vc : Nat
  msgs : List OfpMsg
  sent : Nat
deriving DecidableEq, Repr

/-- Credits of one virtual channel of a port (R583): shared lines, and reserved lines by phase. -/
structure VcCredit where
  shared : Nat
  phase : Table Nat
deriving DecidableEq, Repr

/-- A fabric port (Table 12-11), its link layer (R572 to R584) and its Thyme exchange (R618, R619). -/
structure FpPort where
  state : FpState := .down
  cause : Nat := 0
  retrains : Nat := 0
  laneMask : Nat := 0
  /-- Lanes the receiver has locked, while training. -/
  locked : Nat := 0
  width : Nat := 0
  peerHub : Nat := 0
  peerPort : Nat := 0
  peerRelease : Nat := 0
  hopNs : Nat := 0
  disable : Bool := false
  reserved : Nat := 0
  txFlits : Nat := 0
  rxFlits : Nat := 0
  crcErrors : Nat := 0
  replays : Nat := 0
  fecCorrected : Nat := 0
  fecUncorrectable : Nat := 0
  discarded : Nat := 0
  /-- The RETRAIN substate (Table 12-2 row 7): true while states 2 to 5 run again with the same peer. -/
  retraining : Bool := false
  /-- Link layer: next SEQ to send, next SEQ expected, NAK already sent. -/
  txSeq : Nat := 0
  rxSeq : Nat := 0
  nakSent : Bool := false
  buffer : List TxFlit := []
  /-- Messages waiting for the port, oldest first. -/
  txQueue : List OfpMsg := []
  credits : Table VcCredit := []
  /-- The peer has passed the MANIFEST comparison, or has failed it (R654). -/
  admitted : Bool := false
  refused : Bool := false
  /-- t1 and t2 of the last THYME received here (Table 13-1). -/
  lastSend : Nat := 0
  lastRecv : Nat := 0
deriving DecidableEq, Repr

/-- A partial being received in several messages (R605). -/
structure CuRx where
  part : Partial
  srcHub : Nat
  total : Nat
  got : List Byte
deriving DecidableEq, Repr

/-- A collective unit (Table 12-12). `state`: 0 absent, 1 working, 2 retired. -/
structure Cu where
  state : Nat := 0
  pagesReserved : Nat := 0
  combines : Nat := 0
  retries : Nat := 0
  held : List Partial := []
  rx : List CuRx := []
deriving DecidableEq, Repr

/-- An end-to-end message not yet answered (R590): the message, and what it serves. `cmd` is the SIGNAL_REMOTE
command; `launch` the CRED's launch. -/
structure E2eOut where
  dst : Nat
  seq : Nat
  msg : OfpMsg
  cmd : Option Nat := none
  launch : Option Nat := none
  /-- Thyme of the first "retry" answer since the last acceptance (R609). -/
  retrySince : Option Nat := none
  /-- Not sent yet: 256 messages to the destination are unanswered (R590), or it has no route (R598). -/
  held : Bool := false
  /-- Answered "retry": it waits to be sent again with a new E2E_SEQ (R608). -/
  answered : Bool := false
  /-- A firmware message goes to the peer of this port, whatever the routes (R859). -/
  port : Option Nat := none
  /-- Messages of the same partial that follow once this one is accepted (R605). -/
  rest : List OfpMsg := []
deriving DecidableEq, Repr

/-- The record of one sender's E2E_SEQs with their answers, newest first, at most 512 (R591). -/
structure E2eIn where
  src : Nat
  seen : List (Nat × OfpMsg)
deriving DecidableEq, Repr

/-- The fabric as a whole (Table 12-12, R590, R591). -/
structure Fabric where
  idValid : Bool := false
  hubId : Nat := 0
  cus : Table Cu := []
  /-- FAB_ROUTE entries of 4 bits by hub ID. -/
  route : Table Nat := []
  nextSeq : Table Nat := []
  out : List E2eOut := []
  recv : List E2eIn := []
  /-- Messages for this hub that have arrived and not yet been handled, by port. -/
  inbox : List (Nat × OfpMsg) := []
  /-- Messages to members without a route, which wait at this hub (R598). -/
  parked : List OfpMsg := []
deriving DecidableEq, Repr

/-- Thyme (Tables 13-2, 13-17). `state`: 0 LOCAL, 1 LOCKED, 2 ACQUIRING, 3 OVER_BOUND. `parent` is 31 where a hub has
lost its parent; the reset value is the table's 0. -/
structure Thyme where
  now : Nat := 0
  root : Nat := 0
  generation : Nat := 0
  depth : Nat := 0
  parent : Nat := 0
  errorNs : Nat := 0
  state : Nat := 0
  rootEn : Bool := false
  theta : BitVec 32 := 0
  parentLosses : Nat := 0
  /-- Lead of the parent still to remove (R619), in ns. -/
  slew : Int := 0
  /-- The hub has stepped its Thyme in this ACQUIRING (R623). -/
  stepped : Bool := false
  /-- The root has changed, and no correction of at most 1,000 ns has been made since (R622). -/
  rootChanged : Bool := false
  /-- Nanoseconds of the spine clock, modulo 10,000, which spread a correction at 100 parts per million (R619). -/
  phase : Nat := 0
deriving DecidableEq, Repr

/-- A step of a schedule that has been dispatched and not completed. -/
structure StepRun where
  step : Nat
  deadline : Nat
  fence : BitVec 32
  /-- COPY steps move through this job. -/
  copy : Option CopyJob := none
  code : Nat := 0
  isXfer : Bool := false
deriving DecidableEq, Repr

/-- A VOTE received by the leader (R645, R655). -/
structure Vote where
  hub : Nat
  epoch : Nat
  digest : List Byte
  healthy : Bool
deriving DecidableEq, Repr

/-- A captured block of an epoch (R646): the virtual block and its bytes. -/
structure LogBlock where
  epoch : Nat
  va : Nat
  host : Bool
  cells : Mem
  base : Nat
deriving DecidableEq, Repr

/-- A checkpoint slot (R644): the boundary it holds, and the allotments of the bound engines. -/
structure Ckpt where
  epoch : Nat
  allots : Table Mem
deriving DecidableEq, Repr

/-- The schedule block of a partition (Table 13-17) and the job in it. `state` is SX_STATUS.STATE. -/
structure Sched where
  imageObj : BitVec 32 := 0
  imageCtx : BitVec 32 := 0
  startBeat : Nat := 0
  tag : Nat := 0
  code : Nat := 0
  alt : Nat := 0
  busy : Bool := false
  lost : Bool := false
  done : Bool := false
  state : Nat := 0
  origin : Nat := 0
  epoch : Nat := 0
  passes : Nat := 0
  rollbacks : Nat := 0
  replayBeats : Nat := 0
  substitutions : Nat := 0
  /-- Fields of the admitted image that the running schedule uses (Tables 13-3, 13-6). -/
  epochBeats : Nat := 1
  saveBeats : Nat := 0
  period : Nat := 1
  iterations : Nat := 0
  logBytes : Nat := 0
  /-- The job context, and the image's bytes as admitted. -/
  ctx : Nat := 0
  image : List Byte := []
  digest : List Byte := []
  /-- OP and tag of the command in progress. -/
  op : Nat := 0
  curTag : Nat := 0
  /-- The command came while the Warden was down, and has not been begun (R721). -/
  queued : Bool := false
  /-- Engines bound, by logical engine; foreign engines bound; ways bound. -/
  engines : List Nat := []
  foreign : List Nat := []
  ways : List Nat := []
  running : List StepRun := []
  votes : List Vote := []
  /-- Hubs expelled from the job. -/
  expelled : List Nat := []
  leader : Nat := 0
  logs : List LogBlock := []
  ckpts : List Ckpt := []
  /-- Boundary being saved, waiting to be voted on and committed. -/
  saving : Option Nat := none
  voting : Option Nat := none
  suspendAsked : Bool := false
  /-- Rollback: the beat at which this hub stopped, the restart beat once known, reports held by the leader. -/
  stoppedAt : Nat := 0
  restart : Option Nat := none
  reports : List (Nat × Nat) := []
  /-- What follows the rollback: nothing, a suspension (R658, R709), or an end as EXPELLED (R660). -/
  afterSuspend : Bool := false
  afterExpel : Bool := false
  healthy : Bool := true
  /-- The job is to end with BAD_COMMAND at the next beat boundary (R647). -/
  ending : Bool := false
  /-- The alternative that follows the rollback in progress (R650). -/
  nextAlt : Nat := 0
  /-- Beats from ORIGIN up to which work is executed again (R652). -/
  replayTo : Nat := 0
  /-- A trigger of R648 has arisen and waits for ROLLBACK_TRIGGER; a unit lost that no reserve unit replaces (R658). -/
  trigger : Bool := false
  noRemedy : Bool := false
  /-- A refill (1) or reduction (2) whose statement waits until the schedule ends or suspends (R328, R658). -/
  owesStmt : Nat := 0
  /-- The start VOTE waits for the pinned point (R815). -/
  voteDue : Bool := false
  /-- Power reserved out of the partition's share while pinned, in 0.25 W (R643). -/
  powerHeld : Nat := 0
  /-- Pages reserved on each collective unit and slots on each port, held until UNLOAD (R596, R607). -/
  pages : Table Nat := []
  slots : Table Nat := []
deriving DecidableEq, Repr

end Sys2Proof.Machine
end

