-- ==== Sys2Proof/Machine/State.lean ====
section
/-! DEFINITION. The state of the hub: everything the specification gives it, and the queue of waiting commands. -/

namespace Sys2Proof.Machine

/-- What the hub has sent to its surroundings, oldest first: MSI-X messages, messages to chiplets, peer writes over
PCIe, regulator requests, the data of completed reads, completions with Unsupported Request, and LINK_NOTE
messages of fabric ports. -/
inductive Out where
  | msix (fn : Fn) (vector : Nat)
  | cpp (port : Nat) (op : Nat) (m : CppMsg)
  | peerWrite (addr : Nat) (bytes : List Byte)
  | ivrReq (domain vid : Nat)
  | completion (fn : Fn) (bytes : List Byte)
  | attentionUr
  | linkNote (port code : Nat)
deriving DecidableEq, Repr

/-- Why a step stops with a fault. No command of this block stops the machine: every error the specification names is
an effect on the state. Raised by: no meaning. Safe. -/
inductive Fault where
  /-- Never raised; it keeps the type closed and inhabited. Safe. -/
  | none
deriving DecidableEq, Repr

/-- Why a step is refused. -/
inductive Refusal where
  /-- The command has no meaning in this model. Raised by arms of `exec` without a meaning. Safe. -/
  | notModelled (mnemonic : String)
deriving DecidableEq, Repr

/-- The pins and clocks that an event names (Table 1-5). -/
structure Pins where
  por : Bool := true
  sysRst : Bool := true
  /-- Whether the reset in force counts as a power cycle (R41). -/
  powerCycle : Bool := true
deriving DecidableEq, Repr

structure State where
  build : Build
  pins : Pins
  /-- Device memory by device physical address; bit 44 set names hub-private memory (R276, R337). -/
  mem : Mem
  /-- Host memory reached by DMA. -/
  hostMem : Mem
  units : Units
  wmb : Wmb
  ctxs : Table Context
  objs : Table Obj
  fences : Table Fence
  fenceWire : List FenceSig
  cmds : Table Cmd
  launches : Table Launch
  engines : Table Engine
  blocks : Table ObjBlock
  missqs : Table MissQ
  withdrawals : Table Withdrawal
  segFaults : List SegFault
  caches : List SegCache
  sems : Table Sem
  /-- SCHED_CTRL.HOLD_LIMIT_MS and the counters of each partition's scheduler block (Table 10-4). -/
  holdLimit : Table Nat
  schedCtr : Table (List Nat)
  fe : FeCounters
  peers : Table Peer
  /-- Commands and launches freed ranges wait for (R442): ranges not yet free again. -/
  freeing : List (Nat × Nat × Nat)
  ep : Endpoint
  sage : Sage
  failures : List UnitFailure
  /-- Transfers of spine links, as link and transfer, that have been retried once (R38). -/
  spineRetries : List (Nat × Nat)
  rm : Rosemary
  lc : LifeCycle
  pw : Power
  boot : Boot
  cps : Table CpPort
  fps : Table FpPort
  fab : Fabric
  thyme : Thyme
  sx : Table Sched
  out : List Out
  /-- Counter of identities given to commands, launches and withdrawals. -/
  nextId : Nat
  /-- The model's own: the number of free values used so far (`Config.freeValue`). -/
  freeCtr : Nat
  pending : List Instr
deriving DecidableEq, Repr

/-- The hub right after reset is asserted (R41): every register at its reset value, no command waiting.
(DESIGN CHOICE: log 5, 9, 10) -/
def State.reset : State where
  build := Build.configA
  pins := {}
  mem := []
  hostMem := []
  units := {}
  wmb := {}
  ctxs := []
  objs := []
  fences := []
  fenceWire := []
  cmds := []
  launches := []
  engines := []
  blocks := []
  missqs := []
  withdrawals := []
  segFaults := []
  caches := []
  sems := []
  holdLimit := []
  schedCtr := []
  fe := {}
  peers := []
  freeing := []
  ep := {}
  sage := {}
  failures := []
  spineRetries := []
  rm := {}
  lc := {}
  pw := {}
  boot := {}
  cps := []
  fps := []
  fab := {}
  thyme := {}
  sx := []
  out := []
  nextId := 1
  freeCtr := 0
  pending := []

end Sys2Proof.Machine
end

