-- ==== Sys2Proof/Machine/Ops.lean ====
section
/-! DEFINITION. The named operations that the meanings share: reading and writing the tables of the state, handles,
messages to Sage, interrupt causes, fences, semaphores, and the end of commands and launches. -/

namespace Sys2Proof.Machine

/-! ### Tables -/

def fnKey : Fn → Nat
  | .pf => 0
  | .vf v => v + 1

/-- The function that a SOURCE_FN value names (Table 9-1). -/
def keyFn (k : Nat) : Fn := if k = 0 then .pf else .vf (k - 1)

def State.ctx (s : State) (c : Nat) : Context := tget {} s.ctxs c
def State.setCtx (s : State) (c : Nat) (x : Context) : State := { s with ctxs := tput s.ctxs c x }
def State.modCtx (s : State) (c : Nat) (f : Context → Context) : State := s.setCtx c (f (s.ctx c))
def State.obj (s : State) (i : Nat) : Obj := tget {} s.objs i
def State.setObj (s : State) (i : Nat) (x : Obj) : State := { s with objs := tput s.objs i x }
def State.fence (s : State) (i : Nat) : Fence := tget {} s.fences i
def State.setFence (s : State) (i : Nat) (x : Fence) : State := { s with fences := tput s.fences i x }
def State.part (s : State) (p : Nat) : Part := tget {} s.units.parts p
def State.setPart (s : State) (p : Nat) (x : Part) : State :=
  { s with units := { s.units with parts := tput s.units.parts p x } }
def State.engine (s : State) (e : Nat) : Engine := tget {} s.engines e
def State.setEngine (s : State) (e : Nat) (x : Engine) : State := { s with engines := tput s.engines e x }
def State.modEngine (s : State) (e : Nat) (f : Engine → Engine) : State := s.setEngine e (f (s.engine e))
def State.setLaunch (s : State) (i : Nat) (x : Launch) : State := { s with launches := tput s.launches i x }
def State.setCmd (s : State) (i : Nat) (x : Cmd) : State := { s with cmds := tput s.cmds i x }
def State.block (s : State) (f : Fn) : ObjBlock := tget {} s.blocks (fnKey f)
def State.setBlock (s : State) (f : Fn) (x : ObjBlock) : State := { s with blocks := tput s.blocks (fnKey f) x }
def State.missq (s : State) (f : Fn) : MissQ := tget {} s.missqs (fnKey f)
def State.setMissq (s : State) (f : Fn) (x : MissQ) : State := { s with missqs := tput s.missqs (fnKey f) x }
def State.vf (s : State) (v : Nat) : Vf := tget {} s.ep.vfs v
def State.setVf (s : State) (v : Nat) (x : Vf) : State := { s with ep := { s.ep with vfs := tput s.ep.vfs v x } }
def State.cp (s : State) (c : Nat) : CpPort := tget {} s.cps c
def State.setCp (s : State) (c : Nat) (x : CpPort) : State := { s with cps := tput s.cps c x }
def State.fp (s : State) (p : Nat) : FpPort := tget {} s.fps p
def State.setFp (s : State) (p : Nat) (x : FpPort) : State := { s with fps := tput s.fps p x }
def State.cu (s : State) (u : Nat) : Cu := tget {} s.fab.cus u
def State.setCu (s : State) (u : Nat) (x : Cu) : State := { s with fab := { s.fab with cus := tput s.fab.cus u x } }
def State.sched (s : State) (p : Nat) : Sched := tget {} s.sx p
def State.setSched (s : State) (p : Nat) (x : Sched) : State := { s with sx := tput s.sx p x }
def State.domain (s : State) (d : Nat) : Domain := tget {} s.pw.domains d
def State.setDomain (s : State) (d : Nat) (x : Domain) : State :=
  { s with pw := { s.pw with domains := tput s.pw.domains d x } }
def State.sem (s : State) (k : Nat) : Sem := tget {} s.sems k
def State.setSem (s : State) (k : Nat) (x : Sem) : State := { s with sems := tput s.sems k x }

def Context.queue (x : Context) (q : Nat) : Queue := tget {} x.queues q
def Context.setQueue (x : Context) (q : Nat) (y : Queue) : Context := { x with queues := tput x.queues q y }
def Context.seg (x : Context) (i : Nat) : Seg := tget {} x.segs i

/-- The queue of a queue index, 8 × context + number (R379). -/
def State.queue (s : State) (qi : Nat) : Queue := (s.ctx (qi / 8)).queue (qi % 8)
def State.setQueue (s : State) (qi : Nat) (y : Queue) : State := s.modCtx (qi / 8) fun x => x.setQueue (qi % 8) y

/-- The launch in a slot. -/
def State.inSlot (s : State) (a : SlotId) : Option (Nat × Launch) :=
  match tfind (s.engine a.engine).slots a.slot with
  | none => none
  | some i => (tfind s.launches i).map fun l => (i, l)

/-- A fresh identity. (DESIGN CHOICE: log 3) -/
def State.fresh (s : State) : Nat × State := (s.nextId, { s with nextId := s.nextId + 1 })

/-- A free value, and the state in which the next one is a different one. (DESIGN CHOICE: log 3, 12) -/
def State.free (s : State) : BitVec 64 × State := (Config.freeValue s.freeCtr, { s with freeCtr := s.freeCtr + 1 })

/-- The Thyme of the hub (R614). -/
def State.now (s : State) : Nat := s.thyme.now

/-- Millisecond and microsecond in Thyme's nanoseconds. -/
def nsPerMs : Nat := 1000000
def nsPerUs : Nat := 1000

/-! ### Handles (Tables 7-1, 7-2) -/

def hType (h : BitVec 32) : Nat := fld h.toNat 31 28
def hGen (h : BitVec 32) : Nat := fld h.toNat 27 20
def hIndex (h : BitVec 32) : Nat := fld h.toNat 19 0
def mkHandle (type gen index : Nat) : BitVec 32 := BitVec.ofNat 32 (type * 2 ^ 28 + gen % 256 * 2 ^ 20 + index % 2 ^ 20)

/-- The next generation (R332). -/
def nextGen (g : Nat) : Nat := if g ≥ 255 then 1 else g + 1

/-- Owner tag of a context (R329). -/
def Context.tag (x : Context) (c : Nat) : BitVec 16 := BitVec.ofNat 16 (x.part * 4096 + c)
def State.tag (s : State) (c : Nat) : BitVec 16 := (s.ctx c).tag c
/-- Context index of an owner tag. -/
def tagCtx (t : BitVec 16) : Nat := fld t.toNat 11 0
/-- Partition index of an owner tag. -/
def tagPart (t : BitVec 16) : Nat := fld t.toNat 15 12
/-- The handle of a context. -/
def State.ctxHandle (s : State) (c : Nat) : BitVec 32 := mkHandle 1 (s.ctx c).gen c

/-- Does a packet at ring counter `pos` of queue `q` precede a RELEASE with these marks (R363)? -/
def precedes (marks : List (Nat × Nat)) (q pos : Nat) : Bool :=
  marks.any fun m => m.1 = q && 0 < ahead32 pos m.2 && ahead32 pos m.2 < 2 ^ 31

/-- A place in a queue, for the rules on what precedes a RELEASE: the queue index, the ring counter and the command;
none for a request. -/
abbrev QPos := Option (Nat × Nat × Nat)

/-- Does a command at a place precede this RELEASE (R363)? -/
def Released.after (r : Released) (at_ : QPos) : Bool :=
  match at_ with
  | none => false
  | some (q, pos, id) => r.earlier.contains id || precedes r.marks q pos

/-- Has the context released the handle, so that a use at this place is stale (R333, R364, R366)? -/
def Context.hasReleased (x : Context) (h : BitVec 32) (at_ : QPos) : Bool :=
  x.released.any fun r => r.handle = h && !r.after at_

/-- A memory-object handle is valid for context `c` (R333). -/
def State.objValid (s : State) (c : Nat) (h : BitVec 32) (at_ : QPos) : Bool :=
  let o := s.obj (hIndex h)
  let x := s.ctx c
  hType h = 3 && hIndex h < 262144 && hGen h = o.gen && (o.state = 1 || o.state = 2 || o.state = 3)
    && !x.hasReleased h at_ && ((o.owner = x.tag c && o.state != 3) || x.imports.contains h)

/-- A fence handle is valid for context `c` (R333). -/
def State.fenceValid (s : State) (c : Nat) (h : BitVec 32) (at_ : QPos) : Bool :=
  let f := s.fence (hIndex h)
  let x := s.ctx c
  hType h = 4 && hGen h = f.gen && f.state != 0
    && !x.hasReleased h at_ && ((f.owner = x.tag c && !f.orphaned) || x.imports.contains h)

/-- A context handle names a context that is not free (R333). -/
def State.ctxValid (s : State) (h : BitVec 32) : Bool :=
  hType h = 1 && hIndex h < 4096 && hGen h = (s.ctx (hIndex h)).gen && (s.ctx (hIndex h)).state != .free

/-! ### Sage, interrupts, notifications -/

/-- A message sent to Sage (Table 15-6); it arrives with SAGE_MESSAGE. (DESIGN CHOICE: log 8) -/
def State.sageSend (s : State) (source kind : Nat) (initiator : BitVec 16) (access address : Nat) : State :=
  let m : SageMsg :=
    { source := BitVec.ofNat 12 source, kind := BitVec.ofNat 8 kind, initiator := initiator,
      access := BitVec.ofNat 4 access, address := BitVec.ofNat 52 address, thyme := BitVec.ofNat 36 s.now }
  { s with sage := { s.sage with wire := s.sage.wire ++ [m] } }

/-- A failure reported without an access. -/
def State.sageFail (s : State) (source kind : Nat) : State := s.sageSend source kind 0 15 0

/-- Set an interrupt cause; when the bit rises the vector is sent, or becomes pending while it is masked (R678, R680). -/
def IntBlock.raise (b : IntBlock) (cause : Nat) : IntBlock × Bool :=
  if bit b.status cause then (b, false)
  else
    let b := { b with status := b.status ||| 2 ^ cause }
    if b.msixEnable && b.unmasked.contains cause then (b, true)
    else ({ b with pending := if b.pending.contains cause then b.pending else b.pending ++ [cause] }, false)

/-- Raise a cause of a function (Table 14-7). A VF in Function Level Reset sends nothing (R687). -/
def State.raise (s : State) (fn : Fn) (cause : Nat) : State :=
  match fn with
  | .pf =>
    let r := s.ep.int.raise cause
    let s := { s with ep := { s.ep with int := r.1 } }
    if r.2 then { s with out := s.out ++ [.msix .pf cause] } else s
  | .vf v =>
    if (s.vf v).resetting then s
    else
      let r := (s.vf v).int.raise cause
      let s := s.setVf v { s.vf v with int := r.1 }
      if r.2 then { s with out := s.out ++ [.msix (.vf v) cause] } else s

/-- Write bytes to host memory by DMA. -/
def State.hostWrite (s : State) (addr : Nat) (bs : List Byte) : State := { s with hostMem := mwriteN s.hostMem addr bs }

/-- A notification record of a VF (R681, Table 14-8). -/
def State.notify (s : State) (v kind : Nat) (handle : BitVec 32) (code : Nat) : State :=
  let x := s.vf v
  if !x.notifyEnable || x.resetting then s
  else if ahead32 x.notifyHead x.notifyTail = 2 ^ x.notifySize then s.setVf v { x with notifyOverflow := true }
  else
    let w := handle.toNat * 2 ^ 32 + code % 256 * 2 ^ 24 + kind % 16 * 2 ^ 20
    let at_ := x.notifyBase + 8 * (x.notifyTail % 2 ^ x.notifySize)
    (s.hostWrite at_ (bytesLE 8 w)).setVf v { x with notifyTail := (x.notifyTail + 1) % 2 ^ 32 }

/-! ### Fences -/

/-- A signal leaves for the fence unit (R355). (DESIGN CHOICE: log 8) -/
def State.sendSignal (s : State) (h : BitVec 32) (code : Nat) : State :=
  if h = 0 then s else { s with fenceWire := s.fenceWire ++ [⟨h, code⟩] }

/-- The fence unit applies a signal (Table 7-14): an unsignalled fence of that generation becomes signalled, with the
error code if there is one; any other fence is unchanged (R354). NOTIFY raises the owner's fence cause (R361). -/
def State.applySignal (s : State) (sig : FenceSig) : State :=
  let i := hIndex sig.fence
  let f := s.fence i
  if hType sig.fence = 4 ∧ hGen sig.fence = f.gen ∧ f.state = 1 then
    let s := s.setFence i { f with state := if sig.code = 0 then 2 else 3, error := sig.code, signalThyme := s.now }
    if f.notify then
      let v := (s.ctx (tagCtx f.owner)).vf
      (s.notify v 1 sig.fence sig.code).raise (.vf v) 3
    else s
  else s

/-- Every signal on its way is applied, in order. (DESIGN CHOICE: log 8) -/
def State.drainSignals (s : State) : State :=
  { (s.fenceWire.foldl State.applySignal s) with fenceWire := [] }

/-! ### Semaphores, undo captures, slots -/

/-- Key of semaphore `i` of partition `p`. -/
def semKey (p i : Nat) : Nat := 64 * p + i

/-- A semaphore is released; its first waiter acquires it with SEMAPHORE_GRANT (R503). (DEDUCED: log 69) -/
def State.semRelease (s : State) (key : Nat) : State :=
  let m := s.sem key
  match m.holder with
  | none => s
  | some _ =>
    let s := s.modCtx m.holderCtx fun x => { x with semHeld := x.semHeld &&& ~~~(1#64 <<< (key % 64)) }
    s.setSem key { m with holder := none }

/-- The launch waits for no semaphore any more. -/
def State.semLeave (s : State) (id : Nat) : State :=
  { s with sems := tmap s.sems fun _ m => { m with waiters := m.waiters.filter (· ≠ id) } }

/-- Default HOLD_LIMIT_MS (Table 10-4). -/
def State.holdLimitOf (s : State) (p : Nat) : Nat := tget 10 s.holdLimit p

/-- A launch acquires a semaphore (R503); the hold limit in force now applies to this holding (R517). (DEDUCED: log 69) -/
def State.semTake (s : State) (key id c : Nat) : State :=
  let m := s.sem key
  let s := s.setSem key { m with holder := some id, holderCtx := c, since := s.now, limitMs := s.holdLimitOf (key / 64),
                                 waiters := m.waiters.filter (· ≠ id) }
  s.modCtx c fun x => { x with semHeld := x.semHeld ||| (1#64 <<< (key % 64)) }

/-- The undo directory entries of a launch are cleared and their slots become free (R461). -/
def State.clearCaptures (s : State) (l : Launch) : State :=
  let base := (s.ctx l.ctx).undo.base
  { s with mem := (l.captures.filterMap (·.slot)).foldl (fun m c => mzero m (base + 8 * c) 8) s.mem }

/-- The launch gives up its slot; its arrays become free with it. -/
def State.freeSlot (s : State) (l : Launch) : State :=
  match l.place with
  | .slot e n => s.modEngine e fun x => { x with slots := tdel x.slots n }
  | .parked e n => s.modEngine e fun x => { x with parks := tdel x.parks n }
  | .preempted e (some n) => s.modEngine e fun x => { x with parks := tdel x.parks n }
  | _ => s

/-- The engine on which a launch has a fold region gives its units to a scrub (R112). -/
def State.freeFold (s : State) (l : Launch) : State :=
  match l.fold, l.place with
  | some (b, n), .slot e _ => s.modEngine e fun x => { x with scrubs := x.scrubs ++ [⟨b, n⟩] }
  | _, _ => s

/-! ### Engine time (R471 to R473, R502) -/

/-- The effective share of a context: the largest SHARE among itself and the contexts of launches that wait in SACQ on
a semaphore it holds (R502). -/
def State.effShare (s : State) (c : Nat) : Nat :=
  (s.sems.filter fun e => e.2.holder.isSome && e.2.holderCtx = c).foldl (fun m e =>
    e.2.waiters.foldl (fun m id =>
      match tfind s.launches id with
      | none => m
      | some l => max m (s.ctx l.ctx).sched.share) m) (s.ctx c).sched.share

/-- Engine time charged to a context on an engine, in twelfths of a nanosecond; VTIME rises with it and the remainder
is carried (R473). (DEDUCED: log 67) -/
def State.chargeTime (s : State) (c e n : Nat) : State :=
  let share := 12 * max (s.effShare c) 1
  s.modCtx c fun x =>
    let a := x.acct
    let num := a.remNum * share + n * a.remDen
    let den := a.remDen * share
    let g := Nat.gcd (num % den) den
    { x with acct := { a with engineTime := tmod 0 a.engineTime e (· + n), vtime := bump a.vtime (num / den),
                              remNum := num % den / g, remDen := den / g } }

/-- A launch in a slot is charged up to now at w = max(a, 1) ÷ A (R471); what a failed attempt was charged for is not
charged again (R513). (DEDUCED: log 67) -/
def State.chargeLaunch (s : State) (id : Nat) : State :=
  match tfind s.launches id with
  | none => s
  | some l =>
    match l.place with
    | .slot e _ =>
      let working := s.build.arrays - (s.engine e).arrayRetired.length
      let n := (s.now - l.chargedAt) * (max l.bound.length 1 * (12 / max working 1))
      let charged := n - l.owedTime
      (s.setLaunch id { l with chargedAt := s.now, owedTime := l.owedTime - n, chTime := l.chTime + charged }).chargeTime
        l.ctx e charged
    | _ => s

/-- Every launch in a slot is charged up to now. (DEDUCED: log 67) -/
def State.chargeAll (s : State) : State := (s.launches.map (·.1)).foldl State.chargeLaunch s

/-! ### The end of commands and launches -/

/-- Progress of a context (R500). -/
def State.progress (s : State) (c : Nat) : State :=
  s.modCtx c fun x => { x with acct := { x.acct with lastProgress := s.now } }

/-- A command completes: it signals its HANDLE fence, with its fault code if it has one (R402, R356), and retires. WAIT,
JUMP, CALL_RING, a SIGNAL_REMOTE of PATH 2 and an undefined opcode have no fence to signal there (Table 8-6).
(DEDUCED: log 61) -/
def State.completeCmd (s : State) (id : Nat) (code : Nat) : State :=
  match tfind s.cmds id with
  | none => s
  | some m =>
    let sig := if m.op = 0 ∨ m.op = 4 ∨ m.op = 0x0A ∨ m.op = 0x0B ∨ 0x0D < m.op ∨ (m.op = 6 ∧ m.flags % 4 = 2) then 0
      else m.handle
    let s := { s with cmds := tdel s.cmds id }
    (s.sendSignal sig code).progress m.ctx

/-- Launches of a command that have not ended. -/
def State.cmdLaunches (s : State) (id : Nat) : List Nat :=
  (s.launches.filter fun e => e.2.cmd = some id).map (·.1)

/-- A LAUNCH completes when every workgroup has ended, or, in a context that is not LIVE, when none is left
(R368, R370, R412). A work packet completes under R417 instead. -/
def State.checkCmdDone (s : State) (id : Nat) : State :=
  match tfind s.cmds id with
  | none => s
  | some m =>
    match m.desc with
    | none => s
    | some d =>
      if m.isPacket then s
      else if s.cmdLaunches id = [] ∧ m.foreign = [] ∧ (m.wgEnded ≥ d.workgroups ∨ (s.ctx m.ctx).state ≠ .live) then
        let lost := (s.ctx m.ctx).state ≠ .live
        s.completeCmd id (if m.code = 0 ∧ lost then 0x0A else m.code)
      else s

/-- A step of a static schedule has completed: it signals its FENCE (R633, R356). A step that a rollback has discarded
is no longer listed and signals nothing. -/
def State.stepEnds (s : State) (p k code : Nat) : State :=
  let x := s.sched p
  match x.running.find? fun r => r.step = k && !r.isXfer with
  | none => s
  | some r =>
    (s.setSched p { x with running := x.running.filter fun q => q.step != k || q.isXfer }).sendSignal r.fence
      (if r.code = 0 then code else r.code)

/-- A launch leaves the machine: its semaphores, undo entries, slot and arrays are released; its command counts the
workgroup ended; a packet delivered to it completes; a queue bound to it is free again (R113, R236, R417, R419, R461).
(DEDUCED: log 63) -/
def State.endLaunch (s : State) (id : Nat) : State :=
  match tfind s.launches id with
  | none => s
  | some l =>
    let s := s.chargeLaunch id
    let s := l.sems.foldl (fun s i => s.semRelease (semKey (s.ctx l.ctx).part i)) (s.semLeave id)
    let s := ((s.clearCaptures l).freeFold l).freeSlot l
    let s := { s with launches := tdel s.launches id }
    let s := if l.resident then
        let q := s.queue l.queue
        if q.bound = some id then s.setQueue l.queue { q with bound := none } else s
      else s
    let s := match l.packet with
      | some k => s.completeCmd k (if l.code = 0 ∧ (s.ctx l.ctx).state ≠ .live then 0x0A else l.code)
      | none => s
    let s := if l.resident then
        (s.cmds.filter fun e => e.2.queue = l.queue && e.2.isPacket).foldl (fun s e => s.completeCmd e.1 e.2.code) s
      else s
    let s := match l.step with
      | some (p, k) => s.stepEnds p k (if l.code = 0 ∧ (s.ctx l.ctx).state ≠ .live then 0x0A else l.code)
      | none => s
    match l.cmd with
    | none => s
    | some k =>
      match tfind s.cmds k with
      | none => s
      | some m => (s.setCmd k { m with wgEnded := m.wgEnded + 1 }).checkCmdDone k

/-- The first fault in a command stands (R370). -/
def State.noteCmdFault (s : State) (id : Option Nat) (code : Nat) : State :=
  match id with
  | none => s
  | some k =>
    match tfind s.cmds k with
    | none => s
    | some m => if m.code = 0 then s.setCmd k { m with code := code } else s

/-- The first fault in a launch stands, and is its command's too. -/
def State.noteLaunchFault (s : State) (id : Option Nat) (code : Nat) : State :=
  match id with
  | none => s
  | some k =>
    match tfind s.launches k with
    | none => s
    | some l =>
      let s := if l.code = 0 then s.setLaunch k { l with code := code } else s
      s.noteCmdFault (match l.packet with | some p => some p | none => l.cmd) code

/-! ### Faults and their binding (R365 to R370) -/

/-- Where a fault arises: the Sage source, the access, the address, the command, the launch, and the place R865
records. -/
structure Origin where
  source : Nat
  access : Nat := 15
  address : Nat := 0
  cmd : Option Nat := none
  launch : Option Nat := none
  queue : Nat := 0xFFFF
  off : Nat := 3 * 2 ^ 56
deriving DecidableEq, Repr

/-- The kind of a fault message (Table 15-8). -/
def faultKind (code : Nat) : Nat := if code = 1 then 0x80 else if code = 2 then 0x81 else 0x82

/-- The fault record of a context (Table 7-9): the first fault is captured, every fault counted. -/
def FaultRec.note (f : FaultRec) (code : Nat) (o : Origin) (thyme : Nat) : FaultRec :=
  let f := { f with count := bump32 f.count 1 }
  if f.code = 0 then
    { f with code := code, access := o.access, queue := o.queue, address := o.address % 2 ^ 52, thyme := thyme, ringOffset := o.off }
  else f

/-- One command of a context that has become LOST: a launch command whose launches run waits for them, every other
command completes with LOST, or with its own fault's code (R368). -/
def State.loseCmd (s : State) (id : Nat) : State :=
  match tfind s.cmds id with
  | none => s
  | some m =>
    let s := match m.desc with
      | some _ => s
      | none => s.completeCmd id (if m.code = 0 then 0x0A else m.code)
    if m.isPacket && !m.delivered then s.completeCmd id 0x0A else s.checkCmdDone id

/-- One launch of a context that has become LOST: a launch in a slot stops at its next check point, any other is
discarded (R368). -/
def State.loseLaunch (s : State) (id : Nat) : State :=
  match tfind s.launches id with
  | none => s
  | some l =>
    match l.place with
    | .slot .. => s.setLaunch id { l with stop := some .lost }
    | _ => s.endLaunch id

/-- A context becomes LOST (R368). (DEDUCED: log 89) -/
def State.loseCtx (s : State) (c : Nat) : State :=
  let s := s.modCtx c fun x =>
    { x with state := .lost, queues := tmap x.queues fun _ q => { q with blocked := none } }
  let s := ((s.launches.filter fun e => e.2.ctx = c).map (·.1)).foldl State.loseLaunch s
  let s := ((s.cmds.filter fun e => e.2.ctx = c).map (·.1)).foldl State.loseCmd s
  let v := (s.ctx c).vf
  (s.notify v 2 (s.ctxHandle c) (s.ctx c).fault.code).raise (.vf v) 4

/-- A context takes a fault (R368 to R370). It is reported to Sage, recorded, and bound: a context without FABRIC
becomes LOST, a context with FABRIC keeps its state and the fault marks the command it arose in. -/
def State.fault (s : State) (c code : Nat) (o : Origin) : State :=
  let x := s.ctx c
  let s := s.sageSend o.source (faultKind code) (x.tag c) o.access o.address
  match x.state with
  | .live =>
    let s := s.setCtx c { x with fault := x.fault.note code o s.now }
    let s := (s.noteCmdFault o.cmd code).noteLaunchFault o.launch code
    if x.fabric then s else s.loseCtx c
  | .lost => s.setCtx c { x with fault := { x.fault with count := bump32 x.fault.count 1 } }
  | _ => s

end Sys2Proof.Machine
end

