-- ==== Sys2Proof/Machine/Access.lean ====
section
/-! DEFINITION. Access through segments (R430 to R445): translation, the checks of R440, reads and writes of physical
memory, and the raising of segment faults. -/

namespace Sys2Proof.Machine

/-- What the checks of R440 make of one line. A line of host memory waits while the endpoint is down (R42). -/
inductive Acc where
  | ok (host : Bool) (addr : Nat)
  | viol (code : Nat)
  | absent (seg : Nat)
  | waits (seg : Nat)
deriving DecidableEq, Repr

/-- The declared footprint of a launch (R413); the front end and the host have none. -/
structure Foot where
  reads : Nat
  writes : Nat
deriving DecidableEq, Repr

/-- Who makes an access: the context, the access code of Table 9-3, the launch's footprint, and the objects whose
segments count as STALE for its command (R441). -/
structure Who where
  ctx : Nat
  acc : Nat
  foot : Foot := ⟨0, 0⟩
  gone : List (BitVec 32) := []
deriving DecidableEq, Repr

/-- The context whose segment table a context uses (R438). -/
def State.tableOwner (s : State) (c : Nat) : Nat := ((s.ctx c).shareOf).getD c

/-- Does a valid descriptor cover the address (R431)? -/
def Seg.covers (g : Seg) (va : Nat) : Bool :=
  g.pages != 0 && g.vpage * 65536 ≤ va && va < (g.vpage + g.pages) * 65536

/-- The valid segment that covers an address, with its number. -/
def Context.findSeg (x : Context) (va : Nat) : Option (Nat × Seg) :=
  ((List.range 16).find? fun i => (x.seg i).covers va).map fun i => (i, x.seg i)

/-- The rights of Table 9-3. -/
def Who.granted (w : Who) (i : Nat) (g : Seg) : Bool :=
  if w.acc = 0 ∨ w.acc = 2 ∨ w.acc = 8 then (g.rd || g.lro) && bit w.foot.reads i
  else if w.acc = 1 ∨ w.acc = 9 then g.w && !g.lro && bit w.foot.writes i
  else if w.acc = 3 ∨ w.acc = 4 ∨ w.acc = 6 then g.rd
  else if w.acc = 5 ∨ w.acc = 7 then g.w
  else true

/-- The checks of R440, in order, for the line that holds an address. (DEDUCED: log 56) -/
def State.access (s : State) (w : Who) (va : Nat) : Acc :=
  match (s.ctx (s.tableOwner w.ctx)).findSeg va with
  | none => .viol 1
  | some (i, g) =>
    if !w.granted i g then .viol 1
    else if g.stale || w.gone.contains g.object then .viol 2
    else if !g.present then .absent i
    else if g.host && s.ep.down then .waits i
    else .ok g.host (g.pbase + (va - g.vpage * 65536))

/-- The objects a command at a place in a queue must treat as gone: the context released them and the command does not
precede the release (R363, R441). -/
def State.goneFor (s : State) (c : Nat) (at_ : QPos) : List (BitVec 32) :=
  ((s.ctx c).released.filter fun r => !r.after at_).map (·.handle)

def State.physRead (s : State) (host : Bool) (a n : Nat) : List Byte :=
  if host then mreadN s.hostMem a n else mreadN s.mem a n

def State.physWrite (s : State) (host : Bool) (a : Nat) (bs : List Byte) : State :=
  if host then { s with hostMem := mwriteN s.hostMem a bs } else { s with mem := mwriteN s.mem a bs }

/-- The pieces of a byte range that lie each in one 64-byte line, as address and length. `fuel` bounds the number. -/
def linesOf : Nat → Nat → Nat → List (Nat × Nat)
  | 0, _, _ => []
  | fuel + 1, va, n =>
    if n = 0 then []
    else
      let k := min n (64 - va % 64)
      (va, k) :: linesOf fuel (va + k) (n - k)

def lineList (va n : Nat) : List (Nat × Nat) := linesOf (n / 64 + 2) va n

/-- The violating lines of an instruction or command: how many, and the first one's address, access and fault code. -/
structure Viol where
  lines : Nat := 0
  addr : Nat := 0
  acc : Nat := 15
  code : Nat := 1
deriving DecidableEq, Repr

def Viol.add (v : Viol) (n addr acc code : Nat) : Viol :=
  if n = 0 then v else if v.lines = 0 then ⟨n, addr, acc, code⟩ else { v with lines := v.lines + n }

/-- A read through segments as far as it comes: the bytes of the lines before a line that is not present, the
violations, the bytes moved from device and host memory, and the segment on which it stopped. A segment whose refusal
stands for this instruction violates (R455). -/
structure ReadRes where
  bytes : List Byte := []
  viol : Viol := {}
  dev : Nat := 0
  host : Nat := 0
  stop : Option (Nat × Nat) := none
deriving DecidableEq, Repr

/-- One line of a read. -/
def State.readLine (s : State) (w : Who) (refused : List Nat) (r : ReadRes) (va n : Nat) : ReadRes :=
  match r.stop with
  | some _ => r
  | none =>
    match s.access w va with
    | .ok host a =>
      { r with bytes := r.bytes ++ s.physRead host a n, dev := if host then r.dev else r.dev + n,
               host := if host then r.host + n else r.host }
    | .viol code => { r with bytes := r.bytes ++ List.replicate n 0, viol := r.viol.add 1 va w.acc code }
    | .absent i =>
      if refused.contains i then { r with bytes := r.bytes ++ List.replicate n 0, viol := r.viol.add 1 va w.acc 1 }
      else { r with stop := some (i, va) }
    | .waits i => { r with stop := some (i, va) }

/-- A read of `n` bytes through segments. -/
def State.readVa (s : State) (w : Who) (refused : List Nat) (va n : Nat) : ReadRes :=
  (lineList va n).foldl (fun r p => s.readLine w refused r p.1 p.2) {}

/-- Does the partition of a context run a static schedule (SCHED_RUNNING, R636)? -/
def State.scheduleRuns (s : State) (p : Nat) : Bool :=
  (s.part p).static && (let st := (s.sched p).state; decide (2 ≤ st) && decide (st ≤ 5))

/-- What a line write does: written, dropped, or stopped. -/
inductive WriteRes where
  | done (s : State) (host : Bool)
  | dropped (code : Nat)
  | stopped (seg : Nat)
deriving DecidableEq, Repr

/-! ### The capture log of a static schedule (R646, R647) -/

/-- The epoch a write of now belongs to. -/
def Sched.epochAt (x : Sched) (now : Nat) : Nat := (now / 256 - x.origin) / max x.epochBeats 1

/-- Bytes of an epoch's capture log. -/
def Sched.logUsed (x : Sched) (e : Nat) : Nat := 65536 * (x.logs.filter fun b => b.epoch = e).length

/-- The job context of a partition whose schedule is running. -/
def State.isJob (s : State) (c : Nat) : Bool :=
  let p := (s.ctx c).part
  s.scheduleRuns p && (s.sched p).ctx == c

/-- Before the schedule first writes to a 64 KiB block in an epoch, the block is copied into the epoch's capture log. A
full log is a fault BAD_COMMAND of the job context; the write it stood before is not made, and the job ends.
(DEDUCED: log 92) -/
def State.logBlock (s : State) (c va : Nat) : State × Bool :=
  let p := (s.ctx c).part
  let x := s.sched p
  let e := x.epochAt s.now
  let block := va / 65536
  if x.logs.any fun b => b.epoch = e && b.va = block then (s, true)
  else
    match (s.ctx (s.tableOwner c)).findSeg va with
    | none => (s, true)
    | some (_, g) =>
      if x.logBytes < x.logUsed e + 65536 then
        if x.ending then (s, false)
        else ((s.setSched p { x with ending := true }).fault c 3 { source := 0x282, access := 5, address := va }, false)
      else
        let base := g.pbase + (block - g.vpage) * 65536
        let cells := (if g.host then s.hostMem else s.mem).filter fun b => base ≤ b.1 && b.1 < base + 65536
        (s.setSched p { x with logs := x.logs ++ [⟨e, block, g.host, cells, base⟩] }, true)

/-- One line of a write through segments. -/
def State.writeLine (s : State) (w : Who) (refused : List Nat) (va : Nat) (bs : List Byte) : WriteRes :=
  match s.access w va with
  | .ok host a =>
    if (w.acc = 1 ∨ w.acc = 9) ∧ s.isJob w.ctx then
      let (t, go) := s.logBlock w.ctx va
      .done (if go then t.physWrite host a bs else t) host
    else .done (s.physWrite host a bs) host
  | .viol code => .dropped code
  | .absent i => if refused.contains i then .dropped 1 else .stopped i
  | .waits i => .stopped i

/-- A write that the schedule makes as access type 5: a COPY step, a received transfer, the result of a collective
unit (R646). -/
def State.writeJob (s : State) (w : Who) (refused : List Nat) (va : Nat) (bs : List Byte) : WriteRes :=
  match s.access w va with
  | .ok host a =>
    if s.isJob w.ctx then
      let (t, go) := s.logBlock w.ctx va
      .done (if go then t.physWrite host a bs else t) host
    else .done (s.physWrite host a bs) host
  | .viol code => .dropped code
  | .absent i => if refused.contains i then .dropped 1 else .stopped i
  | .waits i => .stopped i

/-- Charge bytes moved to a context (R510, R511). -/
def State.chargeBytes (s : State) (c dev host : Nat) : State :=
  if dev = 0 ∧ host = 0 then s
  else s.modCtx c fun x =>
    { x with acct := { x.acct with memBytes := bump x.acct.memBytes dev, hostBytes := bump x.acct.hostBytes host } }

/-- What becomes of an access to a segment that is not present: a fault is pending and the requester waits, or it is
refused at once (Table 9-5, R456). -/
inductive Raised where
  | waits (s : State)
  | refused (s : State)
deriving DecidableEq, Repr

/-- An access through this segment waits for the endpoint and not for a fill: the segment is present, in host memory
that cannot be reached. (DEDUCED: log 21) -/
def State.linkWaits (s : State) (c seg : Nat) : Bool :=
  let g := (s.ctx (s.tableOwner c)).seg seg
  g.present && g.host && s.ep.down

/-- A failed transfer of a running static schedule is a rollback trigger (Table 15-2, R648). -/
def State.jobWaits (s : State) (c : Nat) : State :=
  let p := (s.ctx c).part
  if s.isJob c then s.setSched p { s.sched p with trigger := true } else s

/-- Raise a segment fault (R452, R453, R456): refused at once for a static partition with a running schedule or a
disabled miss queue; merged with a pending fault of the same context and segment. An access that waits for the endpoint
raises none. (DEDUCED: log 58) -/
def State.raiseSegFault (s : State) (c seg va acc queue off : Nat) : Raised :=
  if s.linkWaits c seg then .waits (s.jobWaits c)
  else if s.scheduleRuns (s.ctx c).part then .refused s
  else
    let fn := keyFn ((s.ctx (s.tableOwner c)).seg seg).sourceFn
    let s := { s with fe := { s.fe with segFault := bump s.fe.segFault 1 } }
    if !(s.missq fn).enable then .refused s
    else if s.segFaults.any fun f => f.ctx = c && f.seg = seg then .waits s
    else
      .waits { s with segFaults := s.segFaults ++
        [{ ctx := c, seg := seg, fn := fn, va := va, access := acc, thyme := s.now, queue := queue, origin := off }] }

end Sys2Proof.Machine
end

