-- ==== Sys2Proof/Machine/Operands.lean ====
section
/-! DEFINITION. Operand forms of the E profile (chapters 4 and 5): instruction fields, register operands, tensor
descriptors, packed elements, and access to the allotment. -/

namespace Sys2Proof.Machine

/-! ### Instruction words (Tables 4-1, 4-2, 4-7, 5-1, 5-4) -/

def opOf (w : Nat) : Nat := fld w 63 56

/-- The queue that an opcode selects (Table 4-2): 0 tensor, 1 vector, 2 move, 3 scalar. -/
def queueOf (op : Nat) : Nat :=
  if 0x20 ≤ op ∧ op ≤ 0x3F then 0
  else if 0x60 ≤ op ∧ op ≤ 0x9F then 1
  else if 0x40 ≤ op ∧ op ≤ 0x5F then 2
  else 3

/-- The operation fields that an opcode names, as high and low bit; none for an opcode that release 4.1 does not
define. -/
def opFields (op : Nat) : Option (List (Nat × Nat)) :=
  if op = 0x01 ∨ op = 0x10 then some []
  else if op = 0x02 ∨ op = 0x03 then some [(45, 40), (39, 8)]
  else if op = 0x04 then some [(45, 40), (39, 34), (33, 28), (27, 24)]
  else if op = 0x05 then some [(45, 40), (39, 34), (27, 24), (23, 0)]
  else if op = 0x06 ∨ op = 0x07 then some [(45, 40), (39, 34), (33, 14)]
  else if op = 0x08 then some [(45, 40), (39, 34)]
  else if op = 0x09 then some [(45, 40), (39, 35)]
  else if op = 0x0A then some [(45, 43), (42, 37), (36, 31), (30, 7)]
  else if op = 0x0B then some [(45, 40), (30, 7)]
  else if op = 0x0C ∨ op = 0x11 ∨ op = 0x12 then some [(39, 34)]
  else if op = 0x0D then some [(45, 42), (41, 34)]
  else if op = 0x0E then some [(45, 40), (39, 34)]
  else if op = 0x0F then some [(45, 40), (39, 34), (33, 31)]
  else if op = 0x18 then some [(45, 16)]
  else if op = 0x19 then some [(45, 33)]
  else if op = 0x20 then some [(45, 33)]
  else if op = 0x21 then some [(45, 25)]
  else if op = 0x22 then some [(45, 23)]
  else if op = 0x23 then some [(45, 40)]
  else if op = 0x24 then some [(45, 32)]
  else if op = 0x25 then some [(45, 43)]
  else if op = 0x26 then some [(45, 15)]
  else if op = 0x40 then some [(45, 25)]
  else if op = 0x41 then some [(45, 29)]
  else if op = 0x42 then some [(45, 33)]
  else if op = 0x63 then some [(45, 22)]
  else if 0x60 ≤ op ∧ op ≤ 0x65 then some [(45, 31), (25, 22)]
  else if op = 0x66 ∨ (0x68 ≤ op ∧ op ≤ 0x72) then some [(45, 31), (25, 23)]
  else if op = 0x74 ∨ op = 0x75 then some [(45, 27)]
  else if op = 0x78 then some [(45, 30)]
  else if 0x79 ≤ op ∧ op ≤ 0x7E then some [(45, 33)]
  else if op = 0x7F then some [(45, 41)]
  else if 0x80 ≤ op ∧ op ≤ 0x83 then some [(45, 32)]
  else if op = 0x84 then some [(45, 35)]
  else if op = 0x85 then some [(45, 27)]
  else if op = 0x88 then some [(45, 10)]
  else if op = 0x89 then some [(45, 7)]
  else if op = 0x8A ∨ op = 0x8B then some [(45, 28)]
  else if op = 0x8C then some [(45, 25)]
  else if op = 0x90 then some [(45, 35)]
  else if op = 0x91 then some [(45, 37)]
  else if op = 0x92 then some [(45, 37)]
  else none

/-- Is every operation bit that the opcode does not name zero (R157)? -/
def rsvdClear (w : Nat) (fields : List (Nat × Nat)) : Bool :=
  (List.range 46).all fun i => !bit w i || fields.any fun f => f.2 ≤ i && i ≤ f.1

/-- A word that the hub executes: a defined opcode and no RSVD bit set (R156, R157). -/
def wordOk (w : Nat) : Bool :=
  match opFields (opOf w) with
  | none => false
  | some fs => rsvdClear w fs

/-- The s registers an instruction reads (R163). -/
def sSources (w : Nat) : List Nat :=
  let op := opOf w
  if op = 0x03 then [fld w 45 40]
  else if op = 0x04 then [fld w 39 34, fld w 33 28]
  else if op = 0x05 ∨ op = 0x06 ∨ op = 0x0C ∨ op = 0x0F ∨ op = 0x11 ∨ op = 0x12 then [fld w 39 34]
  else if op = 0x07 then [fld w 45 40, fld w 39 34]
  else if op = 0x0A then [fld w 42 37, fld w 36 31]
  else if op = 0x18 then [fld w 41 36]
  else if op = 0x19 then [fld w 38 33]
  else if op = 0x20 then [fld w 38 33]
  else if op = 0x21 then [fld w 36 31, fld w 30 25]
  else if op = 0x22 then [fld w 34 29, fld w 28 23]
  else if op = 0x24 then [fld w 37 32]
  else if op = 0x26 then [fld w 38 33, fld w 32 27, fld w 26 21, fld w 20 15]
  else if op = 0x40 then [fld w 36 31, fld w 30 25]
  else if op = 0x41 then [fld w 40 35, fld w 34 29]
  else if op = 0x84 ∨ op = 0x88 ∨ op = 0x89 then [fld w 40 35]
  else if op = 0x8A ∨ op = 0x8B then [fld w 36 31]
  else if op = 0x92 then [fld w 42 37]
  else []

/-- The s registers an instruction writes. -/
def sDests (w : Nat) : List Nat :=
  let op := opOf w
  if (0x02 ≤ op ∧ op ≤ 0x06) ∨ op = 0x08 ∨ op = 0x09 ∨ op = 0x0B ∨ op = 0x0F then [fld w 45 40]
  else if op = 0x0E then [fld w 45 40, fld w 39 34]
  else if (0x80 ≤ op ∧ op ≤ 0x83) ∨ op = 0x85 ∨ op = 0x91 then [fld w 45 40]
  else if op = 0x8C then [fld w 35 30]
  else []

/-- The t registers an instruction names as operands, before those that a descriptor names through SCALE_T. -/
def tSources (w : Nat) : List Nat :=
  let op := opOf w
  if op = 0x19 then [fld w 45 42]
  else if op = 0x20 then [fld w 42 39]
  else if op = 0x21 then [fld w 40 37]
  else if op = 0x22 then [fld w 42 39, fld w 38 35]
  else if op = 0x24 then [fld w 41 38]
  else if op = 0x26 then [fld w 42 39]
  else if op = 0x40 then [fld w 44 41, fld w 40 37]
  else if op = 0x41 then [fld w 44 41]
  else if op = 0x42 then [fld w 44 41, fld w 40 37, fld w 36 33]
  else if op = 0x8A ∨ op = 0x8B then [fld w 40 37]
  else []

/-- The t register an instruction writes. -/
def tDests (w : Nat) : List Nat :=
  let op := opOf w
  if op = 0x18 ∨ op = 0x19 then [fld w 45 42] else []

/-! ### Tensor descriptors (Tables 4-4, 4-5) -/

structure TDesc where
  space : Bool
  addr : Nat
  dim0 : Nat
  dim1 : Nat
  stride : Nat
  kbase : Nat
  spanLog2 : Nat
  scaleT : Nat
  scaleEn : Bool
  sat : Bool
  fmt : Nat
deriving DecidableEq, Repr

def TDesc.ofBits (x : BitVec 256) : TDesc :=
  let n := x.toNat
  let c := fld n 255 192
  { space := bit n 63, addr := fld n 47 0, dim0 := fld n 95 64, dim1 := fld n 127 96, stride := fld n 175 128,
    kbase := fld c 63 39, spanLog2 := fld c 28 24, scaleT := fld c 23 20, scaleEn := bit c 19, sat := bit c 18,
    fmt := fld c 4 0 }

/-- First byte of row `r` (R166). -/
def TDesc.row (d : TDesc) (r : Nat) : Nat := d.addr + r * d.stride

/-- R167 for the format of the descriptor. -/
def TDesc.aligned (d : TDesc) : Bool :=
  let b := fmtBits d.fmt
  b < 8 || (d.addr % (b / 8) == 0 && d.stride % (b / 8) == 0)

/-- Bytes of one row of a move (R198). -/
def TDesc.rowBytes (d : TDesc) : Nat := (d.dim0 * fmtBits d.fmt + 7) / 8

/-- Elements `0` to `n − 1`, of `b` bits each, packed in bytes from bit 0 (R58). -/
def elemsOf (b n : Nat) (bs : List Byte) : List Nat :=
  (List.range n).map fun i => (leAt bs (i * b / 8) ((b + 7) / 8 + 1) >>> (i * b % 8)) % 2 ^ b

/-! ### Operands of an issued instruction -/

/-- The value of an s operand as it was issued; s0 reads zero (R162). -/
def QEntry.sv (h : QEntry) (n : Nat) : Nat := if n = 0 then 0 else (tget 0 h.s n).toNat

/-- A t operand as it was issued. -/
def QEntry.tv (h : QEntry) (n : Nat) : TDesc := TDesc.ofBits (tget 0 h.t n)

/-- Write an s register; a write of s0 is discarded (R162). -/
def Regs.setS (r : Regs) (n v : Nat) : Regs := if n = 0 then r else { r with s := tput r.s n (BitVec.ofNat 64 v) }

/-- Read an s register. -/
def Regs.getS (r : Regs) (n : Nat) : Nat := if n = 0 then 0 else (tget 0 r.s n).toNat

def zeroLanes : List W32 := List.replicate 256 0

/-- Read a v register: 256 lanes. -/
def Regs.getV (r : Regs) (n : Nat) : List W32 := tget zeroLanes r.v n
def Regs.setV (r : Regs) (n : Nat) (x : List W32) : Regs := { r with v := tput r.v n x }

/-- Read a p register; p0 reads as all ones (R216). -/
def Regs.getP (r : Regs) (n : Nat) : BitVec 256 := if n = 0 then BitVec.allOnes 256 else tget 0 r.p n

/-- Write a p register; a write of p0 is discarded (R216). -/
def Regs.setP (r : Regs) (n : Nat) (x : BitVec 256) : Regs := if n = 0 then r else { r with p := tput r.p n x }

/-! ### Launches -/

def State.modLaunch (s : State) (id : Nat) (f : Launch → Launch) : State :=
  match tfind s.launches id with
  | none => s
  | some l => s.setLaunch id (f l)

def State.modExec (s : State) (id : Nat) (f : Exec → Exec) : State := s.modLaunch id fun l => { l with x := f l.x }
def State.modRegs (s : State) (id : Nat) (f : Regs → Regs) : State := s.modExec id fun x => { x with regs := f x.regs }

def Exec.queue (x : Exec) (q : Nat) : List QEntry :=
  if q = 0 then x.tq else if q = 1 then x.vq else if q = 2 then x.mq else x.sq

def Exec.setQueue (x : Exec) (q : Nat) (l : List QEntry) : Exec :=
  if q = 0 then { x with tq := l } else if q = 1 then { x with vq := l } else if q = 2 then { x with mq := l }
  else { x with sq := l }

/-- A logical array of a launch. -/
def Exec.arr (x : Exec) (j : Nat) : LArray := x.arrs.getD j {}
def Exec.modArr (x : Exec) (j : Nat) (f : LArray → LArray) : Exec := { x with arrs := lmod x.arrs j f }

def LArray.buf (a : LArray) (b : Nat) : Weight := if b = 0 then a.w0 else a.w1
def LArray.setBuf (a : LArray) (b : Nat) (w : Weight) : LArray := if b = 0 then { a with w0 := w } else { a with w1 := w }
def LArray.bank (a : LArray) (b : Nat) : Bank := if b = 0 then a.b0 else a.b1
def LArray.setBank (a : LArray) (b : Nat) (w : Bank) : LArray := if b = 0 then { a with b0 := w } else { a with b1 := w }

/-- Chunks and spans of a launch (chapter 4, "Weight loads and passes"). -/
def Desc.chunks (d : Desc) : Nat := (d.k + 127) / 128
def Desc.span (d : Desc) : Nat := 2 ^ d.spanLog2
def Desc.spans (d : Desc) : Nat := (d.chunks + d.span - 1) / d.span

/-- The queue place of the command a launch belongs to. -/
def State.launchPos (s : State) (l : Launch) : QPos :=
  match l.cmd with
  | none => none
  | some k => (tfind s.cmds k).map fun m => (m.queue, m.pos, k)

/-- A launch as the maker of accesses through segments. -/
def State.whoLaunch (s : State) (l : Launch) (acc : Nat) : Who :=
  { ctx := l.ctx, acc := acc, foot := ⟨l.desc.readSegs, l.desc.writeSegs⟩,
    gone := match l.cmd with
      | none => []
      | some _ => s.goneFor l.ctx (s.launchPos l) }

/-! ### Engine store (R126 to R134) -/

/-- Bytes of one 256 KiB unit. -/
def unitBytes : Nat := 262144

/-- The allotment of a context on an engine (R131). -/
def State.allotOf (s : State) (e c : Nat) : Option (Nat × Allot) :=
  (s.engine e).allots.find? fun p => p.2.owner = s.tag c && p.2.state != .scrubbing

/-- Byte base and size of a context's allotment on an engine; size 0 when it has none (R134). -/
def State.allotSpan (s : State) (e c : Nat) : Nat × Nat :=
  match s.allotOf e c with
  | none => (0, 0)
  | some (_, a) => (a.base * unitBytes, a.size * unitBytes)

/-- The lines of `n` bytes at an offset that lie at or beyond the allotment's size (R133, R206). -/
def violStore (size off n acc : Nat) : Viol :=
  if n = 0 ∨ off + n ≤ size then {}
  else
    let first := max off size
    { lines := (off + n - 1) / 64 - first / 64 + 1, addr := first, acc := acc, code := 1 }

/-- Two counts of violating lines of one instruction. -/
def Viol.join (a b : Viol) : Viol :=
  if a.lines = 0 then b else { a with lines := a.lines + b.lines }

/-- A read of the allotment: bytes at or beyond its size read zero (R133). -/
def State.storeRead (s : State) (e c off n : Nat) : List Byte × Viol :=
  let (base, size) := s.allotSpan e c
  let inside := min n (size - off)
  ((mreadN (s.engine e).store (base + off) inside) ++ List.replicate (n - inside) 0, violStore size off n 0)

/-- The bytes of one 64 KiB block of an allotment. -/
def State.storeBlock (s : State) (e base block : Nat) : Mem :=
  (s.engine e).store.filter fun p => base + 65536 * block ≤ p.1 && p.1 < base + 65536 * (block + 1)

/-- The blocks of the allotment that a write touches are captured before the first write of the replay unit (R712).
(DEDUCED: log 76) -/
def State.captureStore (s : State) (id e base off n : Nat) : State :=
  if n = 0 then s
  else
    let blocks := (List.range ((off + n - 1) / 65536 - off / 65536 + 1)).map (· + off / 65536)
    s.modLaunch id fun l =>
      { l with allotCaps := blocks.foldl (fun caps b =>
          if caps.any (fun (k : AllotCap) => k.block = b) then caps
          else caps ++ [⟨b, (s.storeBlock e base b).map fun p => (p.1 - base, p.2)⟩]) l.allotCaps }

/-- A write of the allotment by a launch: bytes at or beyond its size are dropped (R133). -/
def State.storeWrite (s : State) (id e c off : Nat) (bs : List Byte) : State × Viol :=
  let (base, size) := s.allotSpan e c
  let inside := min bs.length (size - off)
  let s := s.captureStore id e base off inside
  (s.modEngine e fun x => { x with store := mwriteN x.store (base + off) (bs.take inside) },
   violStore size off bs.length 1)

end Sys2Proof.Machine
end

