-- ==== Sys2Proof/Machine/Flags.lean ====
section
/-! DEFINITION. Counts and conditions of a launch slot: token counters, the slot's arithmetic and violation counts, the
conditions of branches and comparisons, and how an instruction's violations and faults are reported. -/

namespace Sys2Proof.Machine

/-- Source of a part of an engine (Table 15-7). (DESIGN CHOICE: log 22) -/
def engSrc (e k : Nat) : Nat := 0x100 + 16 * e + k

/-- The part of an engine that reports for a queue: the vector unit, or the sequencer, movers and segment cache. -/
def queueSrc (e q : Nat) : Nat := engSrc e (if q = 1 then 4 else 6)

/-- Where a fault of a launch arises (R865). -/
def launchOrigin (id : Nat) (l : Launch) (src acc addr : Nat) : Origin :=
  { source := src, access := acc, address := addr, cmd := l.cmd, launch := some id, queue := l.queue, off := l.origin }

/-- A fault of a launch against its context. -/
def State.launchFault (s : State) (id code src acc addr : Nat) : State :=
  match tfind s.launches id with
  | none => s
  | some l => s.fault l.ctx code (launchOrigin id l src acc addr)

/-- A token counter is incremented; at 255 this is a fault and the counter stays (R220, R221). -/
def State.tokenUp (s : State) (id k src : Nat) : State :=
  match tfind s.launches id with
  | none => s
  | some l =>
    let n := tget 0 l.x.regs.k k
    if n ≥ 255 then s.launchFault id 3 src 15 0
    else s.modRegs id fun r => { r with k := tput r.k k (n + 1) }

/-- The signal of an instruction at its completion point (R159). -/
def State.signalWord (s : State) (id w src : Nat) : State :=
  if bit w 50 then s.tokenUp id (fld w 49 46) src else s

/-- The violations of an instruction: one message to Sage, the slot's VIOLATION count, and the context's fault (R208,
R133). -/
def State.settle (s : State) (id src : Nat) (v : Viol) : State :=
  if v.lines = 0 then s
  else (s.modRegs id fun r => { r with violation := bump r.violation v.lines }).launchFault id v.code src v.acc v.addr

/-- An instruction that faults BAD_COMMAND does nothing and performs its signal (R157, R160). -/
def State.badInstr (s : State) (id w src : Nat) : State := (s.launchFault id 3 src 15 0).signalWord id w src

/-- Integer saturations of a slot and its engine (R73, R93). -/
def State.addSat (s : State) (id e n : Nat) : State :=
  if n = 0 then s
  else (s.modRegs id fun r => { r with intSat := bump r.intSat n }).modEngine e fun x =>
    { x with ctr := { x.ctr with intSat := bump x.ctr.intSat n } }

/-- T2 elements read as zero (R60). -/
def State.addT2 (s : State) (id e n : Nat) : State :=
  if n = 0 then s
  else (s.modRegs id fun r => { r with t2Invalid := bump r.t2Invalid n }).modEngine e fun x =>
    { x with ctr := { x.ctr with t2Invalid := bump x.ctr.t2Invalid n } }

/-- Flushed products (R79). -/
def State.addFlush (s : State) (id e n : Nat) : State :=
  if n = 0 then s
  else (s.modRegs id fun r => { r with flush := bump r.flush n }).modEngine e fun x =>
    { x with ctr := { x.ctr with flush := bump x.ctr.flush n } }

/-- The comparison of BR (R234); none for CND 7. -/
def brHolds (cnd a b : Nat) : Option Bool :=
  if cnd = 0 then some (a = b)
  else if cnd = 1 then some (a ≠ b)
  else if cnd = 2 then some (sext 64 a < sext 64 b)
  else if cnd = 3 then some (sext 64 b ≤ sext 64 a)
  else if cnd = 4 then some (a < b)
  else if cnd = 5 then some (b ≤ a)
  else if cnd = 6 then some true
  else none

/-- The comparison of VCMP (R243): NE is true and every other comparison false with a NaN. -/
def vcmpHolds (cnd : Nat) (a b : FVal) : Bool :=
  if cnd = 0 then a.eqv b
  else if cnd = 1 then !a.eqv b
  else if cnd = 2 then a.lt false b
  else a.lt false b || a.eqv b

/-- The comparison of VICMP (R243). -/
def vicmpHolds (cnd : Nat) (a b : Int) : Bool :=
  if cnd = 0 then a = b else if cnd = 1 then a ≠ b else if cnd = 2 then decide (a < b) else decide (a ≤ b)

/-! ### Issue and leaving a queue (R107, R158 to R163, R219) -/

/-- An instruction as it leaves its queue: its engine, slot, launch and queue entry. -/
structure Leaving where
  e : Nat
  slot : Nat
  id : Nat
  l : Launch
  h : QEntry
deriving DecidableEq, Repr

/-- The word at the program counter, when its line has been fetched (R218). -/
def Exec.wordAt (x : Exec) : Option Nat :=
  match x.line with
  | none => none
  | some (a, bs) => if a ≤ x.pc ∧ x.pc + 8 ≤ a + 64 then some (leAt bs (x.pc - a) 8) else none

/-- Queued instructions whose register writes are still to come, and the register of an ENQ in flight. -/
def Exec.pendingS (x : Exec) : List Nat :=
  (x.sq ++ x.vq).flatMap (fun h => sDests h.word) ++
    x.inflight.filterMap fun f => match f.eff with | .enqueue _ _ ss => some ss | _ => none

def Exec.pendingT (x : Exec) : List Nat := x.sq.flatMap fun h => tDests h.word

/-- Registers that an issue must wait for: sources, and destinations, so that writes stay in program order (R163).
(DEDUCED: log 68) -/
def Exec.operandsReady (x : Exec) (w : Nat) : Bool :=
  let ts := tSources w
  let scaleTs := ts.filterMap fun t =>
    let d := TDesc.ofBits (tget 0 x.regs.t t)
    if d.scaleEn then some d.scaleT else none
  (sSources w ++ sDests w).all (fun r => r = 0 || !x.pendingS.contains r)
    && (ts ++ scaleTs ++ tDests w).all fun r => !x.pendingT.contains r

/-- A branch, END or QWAIT in the scalar queue holds the sequencer (R219, R236, R267). -/
def Exec.held (x : Exec) : Bool :=
  x.sq.any fun h => let op := opOf h.word; op = 0x0A || op = 0x0B || op = 0x0C || op = 0x0E || op = 0x10

/-- Issue the word at the program counter into its queue with its operands as they stand (R163). (DEDUCED: log 68) -/
def Exec.issue (x : Exec) (w : Nat) : Exec :=
  let q := queueOf (opOf w)
  { x.setQueue q (x.queue q ++ [⟨w, x.pc, x.regs.s, x.regs.t⟩]) with pc := (x.pc + 8) % 2 ^ 64 }

/-- The word that can be issued now, if there is one. (DEDUCED: log 68) -/
def Exec.issuable (x : Exec) : Option Nat :=
  match x.wordAt with
  | none => none
  | some w =>
    if x.pc % 8 = 0 ∧ !x.held ∧ (x.queue (queueOf (opOf w))).length < 16 ∧ x.operandsReady w then some w else none

/-- Is the wait of a word satisfied (R158)? -/
def Exec.waitOk (x : Exec) (w : Nat) : Bool := !bit w 55 || 1 ≤ tget 0 x.regs.k (fld w 54 51)

/-- The scalar unit of the slot is held by an ENQ in flight (R258). -/
def Exec.scalarBusy (x : Exec) : Bool := x.inflight.any fun f => match f.eff with | .enqueue .. => true | _ => false

/-- The head of a queue leaves it, decrementing the counter it waited on (R158). -/
def Exec.dropHead (x : Exec) (q w : Nat) : Exec :=
  let x := x.setQueue q ((x.queue q).drop 1)
  if bit w 55 then
    let k := fld w 54 51
    { x with regs := { x.regs with k := tput x.regs.k k (tget 0 x.regs.k k - 1) } }
  else x

/-- One instruction of a slot goes as far as it can: the head of the row's queue leaves when it is an instruction of the
row, its wait is satisfied and its resources are ready; otherwise the word at the program counter, if it is one of the
row, is issued, and leaves at once when its queue was empty and it can. A word that is not legal faults when it leaves.
(DEDUCED: log 68) -/
def State.runRow (s : State) (a : SlotId) (q : Nat) (row : Nat → Bool) (ready : State → Leaving → Bool)
    (act : State → Leaving → State) : State :=
  match s.inSlot a with
  | none => s
  | some (id, l) =>
    if l.status ≠ .running then s
    else
      let leave (s : State) (l : Launch) (h : QEntry) : State :=
        let s := s.modExec id fun x => x.dropHead q h.word
        if wordOk h.word then act s ⟨a.engine, a.slot, id, l, h⟩ else s.badInstr id h.word (queueSrc a.engine q)
      let can (l : Launch) (h : QEntry) : Bool :=
        l.x.waitOk h.word && !(q = 3 && (l.x.scalarBusy || l.semWait.isSome)) && (!wordOk h.word || ready s ⟨a.engine, a.slot, id, l, h⟩)
      let tryIssue : State :=
        match l.x.issuable with
        | none => s
        | some w =>
          if !row w then s
          else
            let l := { l with x := l.x.issue w, issued := true }
            let s := s.setLaunch id l
            match l.x.queue q with
            | [h] => if can l h then leave s l h else s
            | _ => s
      match l.x.queue q with
      | h :: _ => if row h.word && can l h then leave s l h else tryIssue
      | [] => tryIssue

/-- An instruction that needs no resource and completes as it leaves. -/
def State.runNow (s : State) (a : SlotId) (q : Nat) (row : Nat → Bool) (act : State → Leaving → State) : State :=
  s.runRow a q row (fun _ _ => true) act

/-- The source that reports for a leaving instruction. -/
def Leaving.src (x : Leaving) : Nat := queueSrc x.e (queueOf (opOf x.h.word))

/-- The instruction completes as it leaves: registers change, and it signals. -/
def State.doneRegs (s : State) (x : Leaving) (f : Regs → Regs) : State :=
  (s.modRegs x.id f).signalWord x.id x.h.word x.src

/-- The instruction faults BAD_COMMAND. -/
def State.bad (s : State) (x : Leaving) : State := s.badInstr x.id x.h.word x.src

end Sys2Proof.Machine
end

