-- ==== Sys2Proof/Machine/Rosemary.lean ====
section
/-! DEFINITION. Rosemary, the event recorder (chapter 16): making a record, the record-store port, and the commands of
the recorder. The store itself lies outside the block: an access to it ends with the data that the port returned. -/

namespace Sys2Proof.Machine

/-- No reset is asserted and the hub is not in the safe state (R41, R724). (DEDUCED: log 16) -/
def State.up (s : State) : Bool := !s.pins.por && !s.pins.sysRst && !s.sage.safe

/-- What a command does while the hub is up; in reset and in the safe state nothing completes. (DEDUCED: log 6) -/
def State.work (s t : State) : State := if s.up then t else s

/-- What a command of the record-store port does: the port still serves the record of the safe state (R724).
(DEDUCED: log 6, 16) -/
def State.portWork (s t : State) : State := if s.pins.por || s.pins.sysRst then s else t

/-- The life-cycle code of an LC word (Table 17-1). -/
def lcCode (w : Nat) : Nat :=
  let w := w % 2 ^ 32
  if w = 0 then 1
  else if w = 0xF then 2
  else if w = 0xFF then 3
  else if w = 0xFFF then 4
  else if w = 0xFFFF then 5
  else if w / 65536 = 0xFFFF then 6
  else 15

/-- The life-cycle state in force: the one decoded at the last reset (R766, R770). -/
def State.lcState (s : State) : Nat := lcCode s.lc.raw

/-! ### Records (Tables 16-2 to 16-4) -/

/-- Does a code belong to the forever area (Table 16-4)? -/
def rmForever (code : Nat) : Bool := code == 4 || code == 0x10 || (0x20 ≤ code && code ≤ 0x23)

/-- A record as 256 bits. -/
def Rec.bits (r : Rec) : Nat :=
  let w0 := r.powerCycles % 2 ^ 24 * 2 ^ 40 + r.repeats % 65536 * 2 ^ 24 + flag (r.repeats = 65535) 18 + flag r.diverted 17
    + flag r.forever 16 + r.code % 65536
  let w1 := r.seq % 2 ^ 32 * 2 ^ 32 + r.hours % 2 ^ 32
  w0 + w1 * 2 ^ 64 + (r.p0 % 2 ^ 32 + r.p1 % 2 ^ 32 * 2 ^ 32) * 2 ^ 128 + (r.p2 % 2 ^ 32 + r.p3 % 2 ^ 32 * 2 ^ 32) * 2 ^ 192

def Rec.ofBits (x : Nat) : Rec :=
  { powerCycles := fld x 63 40, repeats := fld x 39 24, diverted := bit x 17, forever := bit x 16, code := fld x 15 0,
    seq := fld x 127 96, hours := fld x 95 64, p0 := fld x 159 128, p1 := fld x 191 160, p2 := fld x 223 192,
    p3 := fld x 255 224 }

/-- The four words of 64 bits. -/
def wordsOf (x : Nat) : List Nat := [fld x 63 0, fld x 127 64, fld x 191 128, fld x 255 192]

/-- Records waiting for the store of one class (R756). -/
def Rosemary.queued (r : Rosemary) (forever : Bool) : Nat := (r.queue.filter fun x => x.forever = forever).length

/-- Circulating records already in the store: those that do not wait. -/
def Rosemary.circStored (r : Rosemary) : Nat := r.circ.length - r.queued false
def Rosemary.foreverStored (r : Rosemary) : Nat := r.forever.length - r.queued true

/-- Start the next access of the record-store port when it is free: a waiting one; a rewrite of a repeat that must
precede (R754); the oldest record that may be written, a circulating one through the bucket (R755); and, at the end of
an orderly shutdown, the rewrite of a repeat and the commit with CLEAN (R760). -/
def Rosemary.pump (r : Rosemary) : Rosemary :=
  if r.failed || r.access.isSome then r
  else
    match r.waiting with
    | a :: rest => { r with access := some a, waiting := rest }
    | [] =>
      if !r.ready then r
      else
        match r.queue.find? fun x => x.forever || 0 < r.bucket with
        | some x =>
          if x.forever then
            { r with access := some { write := true, unit := 16 + r.foreverStored, data := x.bits, use := .record } }
          else if r.dirtyRepeat then
            { r with dirtyRepeat := false,
                     access := some { write := true, unit := 528 + (r.circPos + 4095) % 4096, use := .repeatRec,
                                      data := ((r.circ.drop (r.queued false)).head?.map Rec.bits).getD 0 } }
          else
            { r with bucket := r.bucket - 1,
                     access := some { write := true, unit := 528 + r.circPos, data := x.bits, use := .record } }
        | none =>
          if r.shutting && r.queue.isEmpty then
            if r.dirtyRepeat then
              { r with dirtyRepeat := false,
                       access := some { write := true, unit := 528 + (r.circPos + 4095) % 4096, use := .repeatRec,
                                        data := (r.circ.head?.map Rec.bits).getD 0 } }
            else
              { r with access := some { write := true, unit := 8 + (r.commits + 1) % 8, use := .slot true,
                                        data := (r.commits + 1) % 2 ^ 64 + (r.powerCycles % 2 ^ 24 * 2 ^ 40 + 2 ^ 32
                                          + r.hours % 2 ^ 32) * 2 ^ 64 } }
          else r

/-- Rosemary makes a record, or repeats the newest one (R749 to R756). (PRESUMED: log 35) -/
def Rosemary.record (r : Rosemary) (code p0 p1 p2 p3 : Nat) : Rosemary :=
  let same : Bool := match r.circ with
    | x :: _ => x.code = code && x.p0 = p0 && x.p1 = p1 && x.p2 = p2 && x.p3 = p3
    | [] => false
  if !rmForever code && same then
    let again (x : Rec) : Rec := { x with repeats := min (x.repeats + 1) 65535 }
    let inQueue := match r.circ with
      | x :: _ => r.queue.any fun y => y.seq = x.seq
      | [] => false
    { r with circ := lmod r.circ 0 again, changes := (r.changes + 1) % 2 ^ 32,
             queue := r.queue.map fun y => if r.circ.head?.map (·.seq) = some y.seq then again y else y,
             dirtyRepeat := r.dirtyRepeat || !inQueue }
  else
    let fits := if rmForever code then r.queue.length < 64 else r.queued false < 48 && r.queue.length < 64
    if r.seq = 2 ^ 32 - 1 || !fits then { r with dropped := bump r.dropped 1 }
    else
      let toForever := rmForever code && r.forever.length < 512
      let x : Rec :=
        { powerCycles := r.powerCycles, diverted := rmForever code && !toForever, forever := toForever, code := code,
          seq := r.seq + 1, hours := r.hours, p0 := p0, p1 := p1, p2 := p2, p3 := p3 }
      { r with seq := r.seq + 1, changes := (r.changes + 1) % 2 ^ 32, shut := false, queue := r.queue ++ [x],
               forever := if toForever then r.forever ++ [x] else r.forever,
               circ := if toForever then r.circ else (x :: r.circ).take 4096 }

/-- An event is recorded. -/
def State.rmRecord (s : State) (code p0 p1 p2 p3 : Nat) : State :=
  { s with rm := (s.rm.record code (p0 % 2 ^ 32) (p1 % 2 ^ 32) (p2 % 2 ^ 32) (p3 % 2 ^ 32)).pump }

/-- A commit of the time to its slot (R758), after the rewrite of a repeat (R754). -/
def Rosemary.commit (r : Rosemary) : Rosemary :=
  let rep : List RecAccess :=
    if r.dirtyRepeat then
      [{ write := true, unit := 528 + (r.circPos + 4095) % 4096, use := .repeatRec,
         data := ((r.circ.drop (r.queued false)).head?.map Rec.bits).getD 0 }]
    else []
  { r with dirtyRepeat := false,
           waiting := r.waiting ++ rep ++
             [{ write := true, unit := 8 + (r.commits + 1) % 8, use := .slot false,
                data := (r.commits + 1) % 2 ^ 64 + (r.powerCycles % 2 ^ 24 * 2 ^ 40 + r.hours % 2 ^ 32) * 2 ^ 64 }] }

/-! ### The record-store port -/

/-- A read that bring-up, or a selection, makes of a unit. -/
def readUnit (u : Nat) (use : RecUse) : RecAccess := { write := false, unit := u, data := 0, use := use }

/-- The port has failed for good (R746). A selection that waits ends with ERROR (R761). -/
def Rosemary.fail (r : Rosemary) : Rosemary :=
  { r with failed := true, access := none, waiting := [], shutting := false, clearing := false,
           readError := r.readError || r.readBusy, readBusy := false,
           recWords := if r.readBusy then [0, 0, 0, 0] else r.recWords }

/-- One access has failed: it is repeated once, and a second failure fails the port (R746). -/
def State.rmAccessFail (s : State) (kind : Nat) : State :=
  match s.rm.access with
  | none => s
  | some a =>
    let s := s.sageFail 0x012 kind
    if a.again then { s with rm := s.rm.fail } else { s with rm := { s.rm with access := some { a with again := true } } }

/-- The control header of this hub (Table 16-1). -/
def State.rmHeader (s : State) : Nat :=
  0x4D525653 + 2 ^ 32 + tget 0 s.lc.otp 1 % 2 ^ 32 * 2 ^ 64 + tget 0 s.lc.otp 2 % 2 ^ 24 * 2 ^ 96
    + tget 0 s.lc.otp 3 % 2 ^ 32 * 2 ^ 128

/-- The store has been read: time continues from the current slot, records made meanwhile follow those of the store,
the time is committed at once and POWER_ON written (R757). (PRESUMED: log 35) -/
def State.rmReady (s : State) : State :=
  let r := s.rm
  let stored := r.circ.filter fun x => !(r.queue.contains x)
  let newest := ((r.forever ++ stored).filter fun x => !(r.queue.contains x)).foldl (fun m x => max m x.seq) 0
  let shift (x : Rec) : Rec := if r.queue.contains x then { x with seq := x.seq + newest } else x
  let pc := min (r.slot.2.1 + (if r.porCaused then 1 else 0)) 0xFFFFFF
  let r :=
    { r with ready := true, seq := r.seq + newest, queue := r.queue.map shift, forever := r.forever.map shift,
             circ := r.circ.map shift, powerCycles := pc, hours := min (r.slot.2.2.2 + r.hours) (2 ^ 32 - 1),
             commits := r.slot.1, lastClean := r.slot.2.2.1 }
  { s with rm := ((r.commit).record 1 (flag r.porCaused 0 + flag r.lastClean 1) s.lcState 0 0).pump }

/-- A unit read at bring-up (R747, R757). -/
def State.rmBringUp (s : State) (u x : Nat) : State :=
  let next (s : State) : State :=
    if u = 4623 then s.rmReady
    else { s with rm := ({ s.rm with waiting := readUnit (if u = 0 then 8 else u + 1) .bringUp :: s.rm.waiting }).pump }
  if u = 0 then
    if x = s.rmHeader then next s
    else if fld x 31 0 ≠ 0x4D525653 ∧ (s.lcState = 1 ∨ s.lcState = 2) then
      { s with rm := ({ s.rm with waiting := ⟨true, 1, 0, false, .format⟩ :: s.rm.waiting }).pump }
    else { s.sageFail 0x012 2 with rm := s.rm.fail }
  else if u < 16 then
    let n := fld x 63 0
    next (if n > s.rm.slot.1 then
      { s with rm := { s.rm with slot := (n, fld x 127 104, bit x 96, fld x 95 64) } } else s)
  else
    let r := Rec.ofBits x
    if r.seq = 0 then next s
    else if u < 528 then next { s with rm := { s.rm with forever := s.rm.forever ++ [r] } }
    else
      -- the newest record first, and the place after it is the next to write
      let waiting := s.rm.circ.filter s.rm.queue.contains
      let stored := s.rm.circ.filter fun y => !s.rm.queue.contains y
      let newer := stored.filter fun y => y.seq > r.seq
      next { s with rm := { s.rm with circ := waiting ++ newer ++ r :: stored.filter (fun y => !(y.seq > r.seq)),
                                       circPos := if newer.isEmpty then (u - 527) % 4096 else s.rm.circPos } }

/-- A read of the port has returned data. -/
def State.rmReadDone (s : State) (x : Nat) : State :=
  match s.rm.access with
  | none => s
  | some a =>
    if a.write then s
    else
      let s := { s with rm := { s.rm with access := none } }
      match a.use with
      | .bringUp => s.rmBringUp a.unit x
      | .select => { s with rm := ({ s.rm with readBusy := false, recWords := wordsOf x }).pump }
      | _ => { s with rm := s.rm.pump }

/-- A write of the port has been read back and agrees. -/
def State.rmWriteDone (s : State) (a : RecAccess) : State :=
  let r := { s.rm with access := none }
  match a.use with
  | .format =>
    if a.unit = 0 then
      let s := { s with rm := { r with formatted := true } }
      ({ s with rm := s.rm.record 4 s.lcState 0 0 0 }).rmReady
    else
      let u := if a.unit = 4623 then 0 else a.unit + 1
      { s with rm := ({ r with waiting := ⟨true, u, if u = 0 then s.rmHeader else 0, false, .format⟩ :: r.waiting }).pump }
  | .record =>
    let done := r.queue.find? fun x => x.forever = decide (a.unit < 528)
    let queue := match done with
      | none => r.queue
      | some x => r.queue.erase x
    { s with rm := ({ r with queue := queue, circPos := if a.unit < 528 then r.circPos else (r.circPos + 1) % 4096 }).pump }
  | .slot clean =>
    let r := { r with commits := r.commits + 1 }
    { s with rm := (if clean ∧ r.shutting then { r with shut := true, shutting := false } else r).pump }
  | .clear =>
    if a.unit = 4623 then { s with rm := ({ r with clearing := false, changes := (r.changes + 1) % 2 ^ 32 }).pump }
    else { s with rm := ({ r with waiting := ⟨true, a.unit + 1, 0, false, .clear⟩ :: r.waiting }).pump }
  | _ => { s with rm := r.pump }

/-! ### Commands -/

/-- RM_STORE_READ_COMPLETE (R761, R747). -/
def execRmStoreReadComplete (data : BitVec 256) (s : State) : Host.Outcome State Fault Refusal :=
  .next (s.portWork (s.rmReadDone data.toNat))

/-- RM_STORE_WRITE_COMPLETE: the unit written is read back and compared (R746). -/
def execRmStoreWriteComplete (readBack : BitVec 256) (s : State) : Host.Outcome State Fault Refusal :=
  .next (s.portWork <|
    match s.rm.access with
    | none => s
    | some a =>
      if !a.write then s
      else if readBack.toNat = a.data % 2 ^ 256 then s.rmWriteDone a
      else s.rmAccessFail 3)

/-- REC_ACCESS_FAIL: a timeout, rec_err or mismatch (R746). -/
def execRecAccessFail (s : State) : Host.Outcome State Fault Refusal := .next (s.portWork (s.rmAccessFail 5))

/-- RM_SELECT (R761): a record in the queue is served from it, an index with no record reads zeros, any other is read
from the store. -/
def execRmSelect (v : BitVec 64) (s : State) : Host.Outcome State Fault Refusal :=
  .next (s.work <|
    let r := s.rm
    let i := fld v.toNat 11 0
    let circ := bit v.toNat 15
    let served (x : Nat) : State := { s with rm := { r with readBusy := false, readError := false, recWords := wordsOf x } }
    if r.readBusy then s
    else
      match (if circ then r.circ else r.forever)[i]? with
      | none => served 0
      | some x =>
        if r.queue.contains x || (circ && i == r.queued false && r.dirtyRepeat) then served x.bits
        else if r.failed then
          { s with rm := { r with readError := true, recWords := [0, 0, 0, 0] } }
        else
          let u := if circ then 528 + (r.circPos + 4095 - (i - r.queued false)) % 4096 else 16 + i
          { s with rm := ({ r with readBusy := true, readError := false, waiting := r.waiting ++ [readUnit u .select] }).pump })

/-- RM_SHUTDOWN (R760). -/
def execRmShutdown (s : State) : Host.Outcome State Fault Refusal :=
  .next (s.work { s with rm := ({ s.rm.record 2 0 0 0 0 with shutting := !s.rm.failed }).pump })

/-- RM_CLEAR (R763, R764): only under a recorder-clear grant and with the store working. -/
def execRmClear (s : State) : Host.Outcome State Fault Refusal :=
  .next (s.work <|
    if s.lc.recClear.isNone || s.rm.failed || s.rm.clearing then { s with rm := { s.rm with clearRefused := true } }
    else
      let r := s.rm
      let kept := r.queue.filter (·.forever)
      let r1 : Rosemary :=
        { r with circ := [], queue := kept, dirtyRepeat := false, circPos := 0, clearing := true,
                 waiting := r.waiting ++ [⟨true, 528, 0, false, .clear⟩] }
      let r2 := r1.record 3 r.seq r.circ.length (s.lc.counter % 2 ^ 32) 0
      { s with rm := r2.pump, lc := { s.lc with recClear := none } })

/-- TIME_COMMIT: every 360 s (R758). -/
def execTimeCommit (s : State) : Host.Outcome State Fault Refusal :=
  .next (s.work (if s.rm.ready && !s.rm.failed then { s with rm := s.rm.commit.pump } else s))

/-- HOURS_TICK: 3.6 s of Warden time (R758, R759). -/
def execHoursTick (s : State) : Host.Outcome State Fault Refusal :=
  .next (s.work { s with rm := { s.rm with hours := min (s.rm.hours + 1) (2 ^ 32 - 1) } })

/-- BUCKET_REFILL: one write more, up to 64 (R755). -/
def execBucketRefill (s : State) : Host.Outcome State Fault Refusal :=
  .next (s.portWork { s with rm := ({ s.rm with bucket := min (s.rm.bucket + 1) 64 }).pump })

end Sys2Proof.Machine
end

