-- ==== Sys2Proof/Machine/Image.lean ====
section
/-! DEFINITION. Schedule images (R629, Tables 13-3 to 13-9) as read from their bytes. -/

namespace Sys2Proof.Machine

/-- A little-endian field of an image. -/
def imgAt (img : List Byte) (off n : Nat) : Nat := leAt img off n

structure ImgHeader where
  magic : Nat
  format : Nat
  hubCount : Nat
  length : Nat
  epochBeats : Nat
  saveBeats : Nat
  commitBeats : Nat
  clockMhz : Nat
  altCount : Nat
  iterations : Nat
  periodBeats : Nat
  release : Nat
  arithRev : Nat
  sizeClass : Nat
  altTable : Nat
deriving DecidableEq, Repr

/-- Table 13-3. -/
def imgHeader (b : List Byte) : ImgHeader :=
  { magic := imgAt b 0 4, format := imgAt b 4 2, hubCount := imgAt b 6 2, length := imgAt b 8 8, epochBeats := imgAt b 0x10 4,
    saveBeats := imgAt b 0x14 4, commitBeats := imgAt b 0x18 4, clockMhz := imgAt b 0x1C 2, altCount := imgAt b 0x1E 2,
    iterations := imgAt b 0x20 8, periodBeats := imgAt b 0x28 8, release := imgAt b 0x30 2, arithRev := imgAt b 0x32 1,
    sizeClass := imgAt b 0x33 1, altTable := imgAt b 0x34 4 }

/-- An alternative (Table 13-4). -/
structure ImgAlt where
  hubs : Nat
  hubN : Nat
  leader : Nat
deriving DecidableEq, Repr

def imgAlt (b : List Byte) (i : Nat) : ImgAlt :=
  let o := imgAt b 0x34 4 + 16 * i
  { hubs := imgAt b o 4, hubN := imgAt b (o + 4) 2, leader := imgAt b (o + 6) 2 }

/-- A hub entry (Table 13-5). -/
structure ImgHub where
  hubId : Nat
  endKey : Nat
  endFence : BitVec 32
  part : Nat
  partLen : Nat
deriving DecidableEq, Repr

def imgHub (b : List Byte) (alt i : Nat) : ImgHub :=
  let o := (imgAlt b alt).hubs + 16 * i
  { hubId := imgAt b o 2, endKey := imgAt b (o + 2) 2, endFence := BitVec.ofNat 32 (imgAt b (o + 4) 4),
    part := imgAt b (o + 8) 4, partLen := imgAt b (o + 12) 4 }

def imgHubs (b : List Byte) (alt : Nat) : List ImgHub := (List.range (imgAlt b alt).hubN).map (imgHub b alt)

/-- The hub ID of the leader of an alternative. -/
def imgLeader (b : List Byte) (alt : Nat) : Nat := (imgHub b alt (imgAlt b alt).leader).hubId

/-- A unit entry (Table 13-7). -/
structure ImgUnit where
  type : Nat
  index : Nat
  amount : Nat
deriving DecidableEq, Repr

/-- A step entry (Table 13-8). -/
structure ImgStep where
  beat : Nat
  deadline : Nat
  kind : Nat
  unit : Nat
  va : Nat
  fence : BitVec 32
deriving DecidableEq, Repr

/-- A transfer entry (Table 13-9). -/
structure ImgXfer where
  beat : Nat
  lines : Nat
  deadline : Nat
  dstHub : Nat
  srcVa : Nat
  kind : Nat
  dstVa : Nat
  routeLen : Nat
  route : Nat
deriving DecidableEq, Repr

/-- A part (Table 13-6). -/
structure ImgPart where
  units : List ImgUnit
  steps : List ImgStep
  xfers : List ImgXfer
  liveBytes : Nat
  logBytes : Nat
  ckpt : BitVec 32
  power : Nat
  spinePct : Nat
deriving DecidableEq, Repr

def imgPart (b : List Byte) (o : Nat) : ImgPart :=
  { units := (List.range (imgAt b (o + 4) 4)).map fun i =>
      let u := o + imgAt b o 4 + 8 * i
      { type := imgAt b u 1, index := imgAt b (u + 1) 1, amount := imgAt b (u + 2) 2 }
    steps := (List.range (imgAt b (o + 12) 4)).map fun i =>
      let u := o + imgAt b (o + 8) 4 + 32 * i
      { beat := imgAt b u 8, deadline := imgAt b (u + 8) 4, kind := imgAt b (u + 12) 1, unit := imgAt b (u + 13) 1,
        va := imgAt b (u + 16) 6, fence := BitVec.ofNat 32 (imgAt b (u + 24) 4) }
    xfers := (List.range (imgAt b (o + 0x14) 4)).map fun i =>
      let u := o + imgAt b (o + 0x10) 4 + 40 * i
      { beat := imgAt b u 8, deadline := imgAt b (u + 8) 4, lines := imgAt b (u + 12) 4, srcVa := imgAt b (u + 16) 6,
        dstHub := imgAt b (u + 22) 2, dstVa := imgAt b (u + 24) 6, kind := imgAt b (u + 31) 1,
        route := imgAt b (u + 32) 4 % 2 ^ 25, routeLen := imgAt b (u + 32) 4 / 2 ^ 29 % 8 }
    liveBytes := imgAt b (o + 0x18) 8, logBytes := imgAt b (o + 0x20) 8, ckpt := BitVec.ofNat 32 (imgAt b (o + 0x28) 4),
    power := imgAt b (o + 0x2C) 2, spinePct := imgAt b (o + 0x2E) 1 }

/-- The hub ID by which images and messages name this hub (R587). -/
def State.myHub (s : State) : Nat := if s.fab.idValid then s.fab.hubId else 0xFFFF

/-- This hub's entry of an alternative. -/
def State.myHubEntry (s : State) (img : List Byte) (alt : Nat) : Option ImgHub :=
  (imgHubs img alt).find? fun h => h.hubId = s.myHub

/-- This hub's part of the alternative in force of a partition's schedule. -/
def State.myPart (s : State) (p : Nat) : ImgPart :=
  let x := s.sched p
  match s.myHubEntry x.image x.alt with
  | some h => imgPart x.image h.part
  | none => imgPart [] 0

/-! ### The manifest (R653, Table 13-15) -/

/-- RELEASE of this block: major release 4, minor release 1 (R1). -/
def blockRelease : Nat := 4 * 256 + 1

/-- ARITH_REV of this block (R55). -/
def arithRev : Nat := 2

/-- The manifest record of this hub, for a schedule identity, a boundary and an alternative. -/
def State.manifest (s : State) (sched : List Byte) (epoch alt : Nat) : List Byte :=
  takePad 48 s.boot.digest ++ bytesLE 2 blockRelease ++ bytesLE 1 arithRev ++ bytesLE 1 s.build.sizeClass
    ++ bytesLE 2 s.thyme.root ++ bytesLE 1 s.thyme.generation ++ bytesLE 1 0 ++ takePad 48 sched ++ bytesLE 8 epoch ++ bytesLE 1 alt
    ++ List.replicate 15 0

/-- The digest of a record (R653). -/
def manifestDigest (b : List Byte) : List Byte := takePad 48 (Config.sha384 b)

/-- Working arrays of an engine. -/
def State.workingArrays (s : State) (e : Nat) : List Nat :=
  (List.range s.build.arrays).filter fun a => !(s.engine e).arrayRetired.contains a

/-- An engine that can take work: present, and not retired. -/
def State.engineWorks (s : State) (e : Nat) : Bool := 1 ≤ (s.engine e).state && (s.engine e).state ≤ 3

end Sys2Proof.Machine
end

