-- ==== Sys2Proof/Machine/Retire.lean ====
section
/-! DEFINITION. What a failure does to a unit and to the work on it: retirement (R729 to R731), the refill or reduction
of a partition (R326 to R328), the failing of launches (R714, R718), and the remedies of a static schedule (R658). -/

namespace Sys2Proof.Machine

/-- TYPE and INDEX of a unit (Table 19-3). -/
def unitType : UnitId → Nat
  | .engine _ => 1 | .foreign _ => 2 | .channel _ => 3 | .way _ => 4 | .fabricPort _ => 5 | .array _ => 6
  | .collective _ => 7 | .chipletPort _ => 8

def unitIdx : UnitId → Nat
  | .engine i => i | .foreign i => i | .channel i => i | .way i => i | .fabricPort i => i | .array i => i
  | .collective i => i | .chipletPort i => i

/-- STATUS of an entry of the Floor Plan Table; 0 when it is not listed. -/
def State.fptStatus (s : State) (u : UnitId) : Nat :=
  ((s.boot.fpt.find? fun f => f.type = unitType u && f.index = unitIdx u).map (·.status)).getD 0

/-- Change an entry and GENERATION in one update (R844). -/
def State.fptChange (s : State) (u : UnitId) (f : FptEntry → FptEntry) : State :=
  let new := s.boot.fpt.map fun x => if x.type = unitType u && x.index = unitIdx u then f x else x
  if new = s.boot.fpt then s
  else { s with boot := { s.boot with fpt := new, generation := (s.boot.generation + 1) % 2 ^ 32 } }

/-- The content of a partition's statement has changed (R316, R322, R325). -/
def State.partChanged (s : State) (p reason : Nat) : State :=
  let x := s.part p
  let s := s.setPart p { x with changes := x.changes + 1, reason := reason }
  x.vfs.foldl (fun s v => (s.setVf v { s.vf v with stmt := { (s.vf v).stmt with changed := true } }).raise (.vf v) 1) s

/-- The unit a source of Table 15-7 belongs to. (DESIGN CHOICE: log 22) -/
def srcUnit (src : Nat) : Option UnitId :=
  if 0x100 ≤ src ∧ src < 0x200 then
    let e := (src - 0x100) / 16
    let k := (src - 0x100) % 16
    if k < 4 then some (.array (4 * e + k)) else some (.engine e)
  else if 0x200 ≤ src ∧ src < 0x220 then some (.way (src - 0x200))
  else if 0x300 ≤ src ∧ src < 0x320 then some (.channel (src - 0x300))
  else if 0x400 ≤ src ∧ src < 0x540 then some (.fabricPort ((src - 0x400) / 16))
  else if 0x580 ≤ src ∧ src < 0x585 then some (.collective (src - 0x580))
  else if 0x600 ≤ src ∧ src < 0x680 then some (.chipletPort ((src - 0x600) / 16))
  else none

/-- The partition that holds a unit. -/
def State.holderOf (s : State) (u : UnitId) : Option Nat :=
  (s.units.parts.find? fun e =>
    match u with
    | .engine i => e.2.engines.contains i
    | .foreign i => e.2.foreign.contains i
    | .channel i => e.2.channels.contains i
    | .way i => e.2.ways.contains i
    | .array i => e.2.engines.contains (i / 4)
    | _ => false).map (·.1)

/-- A unit joins a list kept in rising order. -/
def insertIdx (l : List Nat) (i : Nat) : List Nat :=
  if l.contains i then l else l.filter (· < i) ++ i :: l.filter (· > i)

/-- The partials of a combiner that has been retired pass to the lowest-indexed working engine of the partition their
owner belongs to, where there is one (R717). -/
def State.movePartials (s : State) : State :=
  s.engines.foldl (fun s ent =>
    let e := ent.1
    if (s.engine e).state ≠ 4 then s
    else
      ((s.engine e).held ++ (s.engine e).inbox).foldl (fun s q =>
        match (s.part (tagPart q.owner)).engines.find? s.engineWorks with
        | none => s
        | some d =>
          let s := s.modEngine e fun x => { x with held := x.held.erase q, inbox := if x.held.contains q then x.inbox else x.inbox.erase q }
          s.modEngine d fun x => { x with inbox := x.inbox ++ [q] }) s) s

/-- A unit of a pooled partition is replaced by the lowest-indexed one of its type in the operator reserve, or the
partition keeps the rest (R326 to R328). -/
def State.refill (s : State) (p : Nat) (u : UnitId) : State :=
  let x := s.part p
  match u with
  | .engine i =>
    match s.units.reserveEngines with
    | r :: rest =>
      let s := { s with units := { s.units with reserveEngines := rest } }
      ((s.setPart p { x with engines := insertIdx (x.engines.filter (· ≠ i)) r, refilled := x.refilled ++ [(1, r)] }).partChanged p 1).movePartials
    | [] => ((s.setPart p { x with engines := x.engines.filter (· ≠ i) }).partChanged p 2).movePartials
  | .foreign i =>
    match s.units.reserveForeign with
    | r :: rest =>
      let s := { s with units := { s.units with reserveForeign := rest } }
      (s.setPart p { x with foreign := insertIdx (x.foreign.filter (· ≠ i)) r, refilled := x.refilled ++ [(2, r)] }).partChanged p 1
    | [] => (s.setPart p { x with foreign := x.foreign.filter (· ≠ i) }).partChanged p 2
  | .way i =>
    match s.units.reserveWays with
    | r :: rest =>
      let s := { s with units := { s.units with reserveWays := rest } }
      (s.setPart p { x with ways := insertIdx (x.ways.filter (· ≠ i)) r, refilled := x.refilled ++ [(4, r)] }).partChanged p 1
    | [] => (s.setPart p { x with ways := x.ways.filter (· ≠ i) }).partChanged p 2
  | .channel i => (s.setPart p { x with channels := x.channels.filter (· ≠ i) }).partChanged p 2
  | .array _ => s.partChanged p 2
  | _ => s

/-- The remedies of R658 for a unit that a running schedule has bound: a reserve unit of the same type that meets the
unit entry takes over the binding; otherwise ROLLBACK_REPORT looks for another alternative. Rosemary records the
remedy. The loss is a rollback trigger (R648). -/
def State.schedLoses (s : State) (p : Nat) (u : UnitId) : State :=
  let x := s.part p
  let c := s.sched p
  let logical (l : List Nat) (i : Nat) : Nat := (findIdxVal (fun j => j == i) l 0).elim 0 (·.1)
  let trig (s : State) : State := s.setSched p { s.sched p with trigger := true }
  let none_ (s : State) : State := trig (s.setSched p { s.sched p with noRemedy := true })
  match u with
  | .engine i | .array i =>
    let e := match u with | .array _ => i / 4 | _ => i
    let need := (((s.myPart p).units.find? fun n => n.type = 1 && n.index = logical c.engines e).map (·.amount)).getD 0
    let isArray : Bool := match u with | .array _ => true | _ => false
    if !c.engines.contains e then (if isArray then s else s.setPart p { x with engines := x.engines.filter (· ≠ e) })
    else if isArray ∧ need ≤ (s.workingArrays e).length then trig s
    else
      match s.units.reserveEngines.find? fun r => decide (need ≤ (s.workingArrays r).length) with
      | some r =>
        let s := { s with units := { s.units with reserveEngines := s.units.reserveEngines.filter (· ≠ r) } }
        let s := s.setPart p { x with engines := insertIdx (if isArray then x.engines else x.engines.filter (· ≠ e)) r,
                                       refilled := x.refilled ++ [(1, r)] }
        trig ((s.setSched p { c with engines := c.engines.map fun j => if j = e then r else j,
                                     substitutions := bump c.substitutions 1 }).rmRecord 0x51 p 1 0 0)
      | none => none_ (s.setPart p { x with engines := if isArray then x.engines else x.engines.filter (· ≠ e) })
  | .foreign i =>
    let fn (j : Nat) : Nat := (tget {} (s.cp (j / 16)).fes (j % 16)).function
    if !c.foreign.contains i then s.setPart p { x with foreign := x.foreign.filter (· ≠ i) }
    else
      match s.units.reserveForeign.find? fun r => fn r = fn i with
      | some r =>
        let s := { s with units := { s.units with reserveForeign := s.units.reserveForeign.filter (· ≠ r) } }
        let s := s.setPart p { x with foreign := insertIdx (x.foreign.filter (· ≠ i)) r, refilled := x.refilled ++ [(2, r)] }
        trig ((s.setSched p { c with foreign := c.foreign.map fun j => if j = i then r else j,
                                     substitutions := bump c.substitutions 1 }).rmRecord 0x51 p 1 0 0)
      | none => none_ (s.setPart p { x with foreign := x.foreign.filter (· ≠ i) })
  | .way i =>
    let s := s.setPart p { x with ways := x.ways.filter (· ≠ i) }
    if !c.ways.contains i then s
    else
      match s.units.reserveWays with
      | r :: rest =>
        let s := { s with units := { s.units with reserveWays := rest } }
        let s := s.setPart p { s.part p with ways := insertIdx (s.part p).ways r, refilled := x.refilled ++ [(4, r)] }
        trig ((s.setSched p { c with ways := insertIdx (c.ways.filter (· ≠ i)) r,
                                     substitutions := bump c.substitutions 1 }).rmRecord 0x51 p 1 0 0)
      | [] => none_ s
  | .channel i => none_ (s.setPart p { x with channels := x.channels.filter (· ≠ i) })
  | _ => s

/-! ### A schedule leaves its states (R636, R640, R643) -/

/-- A schedule leaves states 2 to 5: clocks are unpinned, the power reservation is released, and the statement that
waited is reissued (R328, R640, R643). -/
def State.schedStop (s : State) (p : Nat) : State :=
  let x := s.sched p
  let s := { s with engines := tmap s.engines fun e y => if x.engines.contains e then { y with pinned := false } else y }
  let s := s.setSched p { x with powerHeld := 0, owesStmt := 0, voteDue := false, saving := none, voting := none, trigger := false,
                                  running := [], suspendAsked := false }
  if x.owesStmt = 0 then s else s.partChanged p x.owesStmt

/-- The reservations of an admission are released (Table 13-12). -/
def State.schedRelease (s : State) (p : Nat) : State :=
  let x := s.sched p
  let s := x.slots.foldl (fun s r => s.setFp r.1 { s.fp r.1 with reserved := (s.fp r.1).reserved - r.2 }) s
  let s := x.pages.foldl (fun s r => s.setCu r.1 { s.cu r.1 with pagesReserved := (s.cu r.1).pagesReserved - r.2 }) s
  s.setSched p { x with slots := [], pages := [] }

/-- A command of the schedule block completes (R635). -/
def State.sxDone (s : State) (p code : Nat) : State :=
  let x := s.sched p
  (s.setSched p { x with tag := x.curTag, code := code, busy := false, done := true, op := 0 }).raise .pf 0

/-- The job context enters ABORTING on this hub: the schedule is gone (Table 13-11, R642). A command in progress ends
with STATE. -/
def State.schedAbort (s : State) (p : Nat) : State :=
  let s := (s.schedStop p).schedRelease p
  let x := s.sched p
  let s := s.setSched p { x with state := 0, image := [], logs := [], ckpts := [], engines := [], foreign := [], ways := [], votes := [] }
  if x.busy && x.op != 1 then s.sxDone p 2 else s

/-- A unit leaves the partition that holds it: refilled or reduced, or, under a running schedule, handled by the
remedies (R731). A unit of the free pool or the reserve leaves it. -/
def State.leavePart (s : State) (u : UnitId) : State :=
  match s.holderOf u with
  | some p =>
    if s.scheduleRuns p then
      let t := s.schedLoses p u
      -- the reissue of the statement waits until the schedule ends or suspends (R328, R658)
      t.setSched p { t.sched p with owesStmt := if (t.part p).refilled = (s.part p).refilled then 2 else 1 }
    else s.refill p u
  | none =>
    let x := s.units
    match u with
    | .engine i => { s with units := { x with freeEngines := x.freeEngines.filter (· ≠ i), reserveEngines := x.reserveEngines.filter (· ≠ i) } }
    | .foreign i => { s with units := { x with freeForeign := x.freeForeign.filter (· ≠ i), reserveForeign := x.reserveForeign.filter (· ≠ i) } }
    | .channel i => { s with units := { x with freeChannels := x.freeChannels.filter (· ≠ i) } }
    | .way i => { s with units := { x with freeWays := x.freeWays.filter (· ≠ i), reserveWays := x.reserveWays.filter (· ≠ i) } }
    | _ => s

/-- Every launch in a slot of an engine that meets a test has failed. A launch of a static schedule triggers a
rollback instead (Table 15-2). (DEDUCED: log 38) -/
def State.failOn (s : State) (e : Nat) (test : Launch → Bool) : State :=
  ((s.engine e).slots.map (·.2)).foldl (fun s id =>
    match tfind s.launches id with
    | none => s
    | some l =>
      if !test l then s
      else
        match l.step with
        | some (p, _) => s.setSched p { s.sched p with trigger := true }
        | none => s.setLaunch id { l with stop := some .failed }) s

/-- The allotments of an engine that has been retired are read through its service port into their contexts' save
records, with the launches whose images it held (R713). (DEDUCED: log 38) -/
def State.recordAllots (s : State) (e : Nat) : State :=
  let x := s.engine e
  x.allots.foldl (fun s a =>
    let c := tagCtx a.2.owner
    let base := a.2.base * unitBytes
    let cells := (x.store.filter fun b => base ≤ b.1 && b.1 < base + a.2.size * unitBytes).map fun b => (b.1 - base, b.2)
    let here := (s.launches.filter fun l => l.2.ctx = c &&
      match l.2.place with
      | .parked f _ => f == e
      | .preempted f _ => f == e
      | .slot f _ => f == e
      | _ => false).map (·.1)
    let s := here.foldl (fun s id => s.modLaunch id fun l =>
      match l.place with
      | .parked .. => { l with place := .saved true }
      | .preempted .. => { l with place := .saved false }
      | _ => l) s
    s.modCtx c fun y => { y with sched := { y.sched with saved := y.sched.saved ++ [⟨e, a.2.size, cells, here, none⟩] } })
    (s.setEngine e { x with allots := [], parks := [], scrubs := [] })

/-- Does a partition hold a live memory object (R276, R730)? -/
def State.hasObjects (s : State) (p : Nat) : Bool :=
  s.objs.any fun e => e.2.state != 0 && !e.2.host && tagPart e.2.owner = p

/-- The change of state of the unit itself at retirement. (DEDUCED: log 38) -/
def State.unitOut (s : State) (u : UnitId) : State :=
  match u with
  | .engine e =>
    ((s.failOn e fun _ => true).modEngine e fun x => { x with state := 4 }).recordAllots e
  | .array i =>
    let e := i / 4
    (s.failOn e fun l => l.bound.contains (i % 4)).modEngine e fun x =>
      { x with arrayRetired := insertIdx x.arrayRetired (i % 4) }
  | .foreign i =>
    let c := s.cp (i / 16)
    s.setCp (i / 16) { c with fes := tmod {} c.fes (i % 16) fun f => { f with state := 5 } }
  | .collective u =>
    let old := s.cu u
    let s := s.setCu u { old with state := 2, held := [], rx := [] }
    match (List.range 5).find? fun v => (s.cu v).state = 1 with
    | none => s.setCu u { old with state := 2 }
    | some v => s.setCu v { s.cu v with held := (s.cu v).held ++ old.held, rx := (s.cu v).rx ++ old.rx }
  | .fabricPort p => s.setFp p { s.fp p with state := .down, disable := true }
  | _ => s

/-- A unit is retired (R729 to R731). A channel whose partition holds a live memory object is only degraded until none
remains (R730). (DEDUCED: log 38; DESIGN CHOICE: log 95) -/
def State.retireUnit (s : State) (u : UnitId) (src kind : Nat) : State :=
  let st := s.fptStatus u
  if st = 7 ∨ st = 8 then s
  else
    let busyChannel := match u with
      | .channel _ => ((s.holderOf u).map s.hasObjects).getD false
      | _ => false
    if busyChannel then s.fptChange u fun f => { f with status := 2 }
    else
      let s := (s.unitOut u).fptChange u fun f => { f with status := 7 }
      let s := match u with
        | .array i => s.fptChange (.engine (i / 4)) fun f =>
            { f with status := if f.status = 1 then 2 else f.status,
                     detail := (s.workingArrays (i / 4)).length * 256 + f.detail % 256 }
        | _ => s
      let s := s.sageFail src 0x0D
      let s := { s with sage := { s.sage with retired := bump s.sage.retired 1 } }
      (s.rmRecord 0x20 (unitType u * 2 ^ 24 + unitIdx u) src kind 0).leavePart u

/-- Channels that were only waiting for the last memory object of their partition are retired (R730). -/
def State.settleChannels (s : State) : State :=
  (s.boot.fpt.filter fun f => f.type = 3 && f.status = 2).foldl (fun s f =>
    match s.holderOf (.channel f.index) with
    | some p => if s.hasObjects p then s else s.retireUnit (.channel f.index) (0x300 + f.index) 2
    | none => s.retireUnit (.channel f.index) (0x300 + f.index) 2) s

/-- A launch fails through a source. A third failure of one unit through one source within 1 s places it elsewhere and
retires the source (R718). (DEDUCED: log 67, 71) -/
def State.failLaunch (s : State) (id src kind : Nat) : State :=
  match tfind s.launches id with
  | none => s
  | some l =>
    match l.step with
    | some (p, _) => s.setSched p { s.sched p with trigger := true }
    | none =>
      let recent := s.failures.filter fun f => s.now < f.thyme + 1000000000
      let s := { s.setLaunch id { l with stop := some .failed } with failures := recent ++ [⟨id, src, s.now⟩] }
      if (recent.filter fun f => f.launch = id && f.source = src).length ≥ 2 then
        let s := s.modLaunch id fun l => { l with avoid := match l.place with | .slot e _ => some e | _ => l.avoid }
        match srcUnit src with
        | none => s
        | some u => s.retireUnit u src kind
      else s

/-- A check of a slot's vector unit or array has disagreed once: counted and reported (R102). (DEDUCED: log 71) -/
def State.checkRetry (s : State) (e src : Nat) (tag : BitVec 16) : State :=
  (s.modEngine e fun x => { x with ctr := { x.ctr with checkRetry := bump x.ctr.checkRetry 1 } }).sageSend src 3 tag 15 0

end Sys2Proof.Machine
end

