-- ==== Sys2Proof/Machine/FabricCore.lean ====
section
/-! DEFINITION. Sending on the Osash fabric (chapter 12): routes and phases, credits, flits, and end-to-end delivery. -/

namespace Sys2Proof.Machine

/-! ### Hub IDs and the wiring rule (R587, R592, R593) -/

def hubX (h : Nat) : Nat := fld h 12 8
def hubY (h : Nat) : Nat := fld h 7 3
def hubH (h : Nat) : Nat := fld h 2 0
def mkHub (x y h : Nat) : Nat := x % 32 * 256 + y % 32 * 8 + h % 8

/-- The peer that the wiring rule gives for a port of a hub: hub ID and port (Table 12-7, R593). -/
def wiredPeer (ports hub p : Nat) : Option (Nat × Nat) :=
  let x := hubX hub
  let y := hubY hub
  let h := hubH hub
  if p < 7 then some (mkHub x y (h + p + 1), 6 - p)
  else if ports = 8 then (if p = 7 then some (mkHub x y (h ^^^ 4), 7) else none)
  else if p < 15 then
    let q := 8 * (p - 7) + h
    if 62 ≤ q then none
    else
      let d := q / 2 + 1
      let far := 2 * (31 - d) + q % 2
      some (mkHub (x + d) y (far % 8), 7 + far / 8)
  else if p < 19 then
    let q := 8 * (p - 15) + h
    if 31 ≤ q then none
    else
      let e := q + 1
      let far := 31 - e
      some (mkHub x (y + e) (far % 8), 15 + far / 8)
  else none

/-- The hub ID a hub takes when its peer on port `p` is port `q` of hub `peer` (R571): the peer of that peer's port. -/
def wiredSelf (ports peer q p : Nat) : Option Nat :=
  match wiredPeer ports peer q with
  | some (hub, port) => if port = p then some hub else none
  | none => none

/-- Phases that a port can carry (Table 12-8). -/
def portPhases (ports p : Nat) : List Nat :=
  if ports = 8 then [0, 2, 6] else if p < 7 then [0, 2, 4, 6] else if p < 15 then [1, 5] else [3]

/-- The credits a sender has for a port that has just become ACTIVE (Table 12-5, R583), by VC. -/
def freshCredits (ports p : Nat) : Table VcCredit :=
  let ph := portPhases ports p
  let be : VcCredit := ⟨4096 - 256 * ph.length, ph.map fun i => (i, 256)⟩
  [(0, ⟨4096, []⟩), (1, be), (2, be), (3, ⟨64, []⟩)]

/-! ### Messages -/

/-- VC of a message (Tables 12-5, 12-9). -/
def msgVc (m : OfpMsg) : Nat :=
  let t := m.type.toNat
  if t = 5 ∨ (t = 3 ∧ m.sourceRouted) then 0
  else if t = 1 ∨ t = 3 ∨ t = 6 ∨ t = 0x0A then 1
  else if t = 2 ∨ t = 4 ∨ t = 7 then 2
  else 3

/-- Lines a message occupies: the header and its data lines (R573). (DEDUCED: log 81) -/
def msgSize (m : OfpMsg) : Nat := 1 + m.lines.toNat

/-- A message of this hub, with its type fields zero. -/
def State.ofp (s : State) (type dst : Nat) (owner : BitVec 16) : OfpMsg :=
  { type := BitVec.ofNat 8 type, lines := 0, phase := 0, order := false, copy := false, sourceRouted := false, hop := 0,
    srcHub := BitVec.ofNat 16 s.myHub, dstHub := BitVec.ofNat 16 dst, ownerTag := owner, e2eSeq := 0, routeLen := 0,
    route := 0, f10 := 0, f18 := 0, f20 := 0, f28 := 0, f30 := 0, f38 := 0, data := [] }

/-- A message with its data lines. -/
def msgData (m : OfpMsg) (bs : List Byte) : OfpMsg :=
  let n := (bs.length + 63) / 64
  { m with lines := BitVec.ofNat 8 n, data := takePad (64 * n) bs }

/-! ### Routes (R594 to R598) -/

/-- FAB_ROUTE's entry for a hub: state, ORDER, COPY (Table 12-12). -/
def State.routeState (s : State) (hub : Nat) : Nat := fld (tget 0 s.fab.route hub) 3 2

/-- Is a destination a member of the fabric (R422, R598)? This hub always is reachable. -/
def State.reachable (s : State) (hub : Nat) : Bool :=
  hub == 0xFFFF || (s.fab.idValid && hub == s.fab.hubId)
    || (s.build.fabricPorts != 0 && s.fab.idValid && (s.routeState hub == 1 || s.routeState hub == 2))

def State.islands (s : State) : Nat := s.build.fabricPorts / 4

/-- The intra-group port toward hub `h` of the group (Table 12-7). -/
def intraPort (self h : Nat) : Nat := (h + 15 - self) % 8

/-- Output port and phase of a best-effort message at this hub (R597); none when it has arrived. -/
def State.nextHop (s : State) (m : OfpMsg) : Option (Nat × Nat) :=
  let me := s.myHub
  let dst := m.dstHub.toNat
  let x := hubX me
  let y := hubY me
  let h := hubH me
  let home := hubX m.srcHub.toNat = x ∧ hubY m.srcHub.toNat = y
  let row (ph0 ph1 : Nat) : Nat × Nat :=
    let q := 2 * ((hubX dst + 31 - x) % 32) + (if m.copy then 1 else 0)
    if h = q % 8 then (7 + q / 8, ph1) else (intraPort h (q % 8), ph0)
  if dst = me then none
  else if s.build.fabricPorts = 8 then
    let d := hubH dst
    if m.srcHub.toNat ≠ me then some (intraPort h d, 2)
    else if d = h ^^^ 4 then some (if m.copy then 7 else intraPort h d, 6)
    else if m.order then some (intraPort h (h ^^^ 4), 0)
    else some (intraPort h d, 6)
  else if hubX dst = x ∧ hubY dst = y then some (intraPort h (hubH dst), 6)
  else if !m.order ∧ x ≠ hubX dst then some (row 0 1)
  else if y ≠ hubY dst then
    let q := (hubY dst + 31 - y) % 32
    some (if h = q % 8 then (15 + q / 8, 3) else (intraPort h (q % 8), if home then 0 else 2))
  else some (row 4 5)

/-! ### Link layer (R575 to R584) -/

/-- Can a message be sent on these credits? Shared credit is spent first (R583). -/
def VcCredit.spend (c : VcCredit) (phase n : Nat) : Option VcCredit :=
  if n ≤ c.shared then some { c with shared := c.shared - n }
  else
    let rest := n - c.shared
    let r := tget 0 c.phase phase
    if rest ≤ r then some { shared := 0, phase := tput c.phase phase (r - rest) } else none

/-- A credit return: the phase's reserve up to 256 first, then the shared credit (R583). -/
def VcCredit.back (c : VcCredit) (phase n : Nat) : VcCredit :=
  match tfind c.phase phase with
  | none => { c with shared := c.shared + n }
  | some r =>
    let k := min n (256 - r)
    { shared := c.shared + (n - k), phase := tput c.phase phase (r + k) }

/-- Flits of a message: 16 lines each; the last one completes it (R572, R573). (DEDUCED: log 81) -/
def flitsOf (m : OfpMsg) (seq : Nat) : List TxFlit :=
  let n := ((msgSize m) + 15) / 16
  (List.range n).map fun i => ⟨(seq + i) % 4096, (msgVc m), if i + 1 = n then [m] else [], 1⟩

/-- One message leaves the queue of a port when credits and the replay buffer allow; a message that cannot leave holds
those of its VC and phase behind it. (DESIGN CHOICE: log 80) -/
def FpPort.sendOne (acc : FpPort × List (Nat × Nat)) (m : OfpMsg) : FpPort × List (Nat × Nat) :=
  let p := acc.1
  let k := ((msgVc m), m.phase.toNat)
  let stay := ({ p with txQueue := p.txQueue ++ [m] }, acc.2 ++ [k])
  if acc.2.contains k then stay
  else
    let fl := flitsOf m p.txSeq
    match (tget ⟨0, []⟩ p.credits (msgVc m)).spend m.phase.toNat (msgSize m) with
    | none => stay
    | some c =>
      if 256 < p.buffer.length + fl.length then stay
      else
        ({ p with credits := tput p.credits (msgVc m) c, buffer := p.buffer ++ fl, txSeq := (p.txSeq + fl.length) % 4096,
                  txFlits := bump p.txFlits fl.length }, acc.2)

/-- A port in ACTIVE sends what it can, CTRL first, then SCHED, BE_RSP and BE_REQ (Table 12-5). A port whose peer
is not admitted carries CTRL only (R654). (DESIGN CHOICE: log 80) -/
def FpPort.pump (p : FpPort) : FpPort :=
  if p.state ≠ .active then p
  else
    let q := p.txQueue.filter fun m => !p.refused || msgVc m == 3
    let kept := p.txQueue.filter fun m => p.refused && msgVc m != 3
    let order := [3, 0, 2, 1].flatMap fun v => q.filter fun m => (msgVc m) = v
    (order.foldl FpPort.sendOne ({ p with txQueue := kept }, [])).1

/-- A message is handed to a port. -/
def State.portSend (s : State) (p : Nat) (m : OfpMsg) : State :=
  let x := s.fp p
  s.setFp p ({ x with txQueue := x.txQueue ++ [m] }).pump

/-- Bytes sent or received over the fabric are charged to the context of the owner tag (Table 10-2). -/
def State.chargeFabric (s : State) (m : OfpMsg) : State :=
  if m.ownerTag = 0 then s
  else s.modCtx (tagCtx m.ownerTag) fun x =>
    { x with acct := { x.acct with fabricBytes := bump x.acct.fabricBytes (64 * (msgSize m)) } }

/-- A best-effort message goes on its way: it is delivered here, sent on the next port, or waits for a route (R597,
R598). -/
def State.inject (s : State) (m : OfpMsg) : State :=
  let dst := m.dstHub.toNat
  if dst = s.myHub ∨ dst = 0xFFFF then { s with fab := { s.fab with inbox := s.fab.inbox ++ [(31, m)] } }
  else if s.routeState dst ≠ 1 then { s with fab := { s.fab with parked := s.fab.parked ++ [m] } }
  else
    let e := tget 0 s.fab.route dst
    let m := { m with order := bit e 1, copy := bit e 0 }
    match s.nextHop m with
    | none => s
    | some (p, ph) => (s.chargeFabric m).portSend p { m with phase := BitVec.ofNat 3 ph }

/-- A scheduled message has been lost: a rollback trigger of the schedule whose message it is (R580, R595, R648). -/
def State.schedLost (s : State) (m : OfpMsg) : State :=
  let p := tagPart m.ownerTag
  if m.sourceRouted && m.ownerTag != 0 && s.isJob (tagCtx m.ownerTag) && s.tag (tagCtx m.ownerTag) == m.ownerTag then
    s.setSched p { s.sched p with trigger := true }
  else s

/-- A source-routed message takes its next hop; a hop whose port is not ACTIVE discards it (R595). -/
def State.sourceRoute (s : State) (m : OfpMsg) : State :=
  let p := fld m.route.toNat (5 * m.hop.toNat + 4) (5 * m.hop.toNat)
  let x := s.fp p
  if x.state ≠ .active then (s.setFp p { x with discarded := bump x.discarded 1 }).schedLost m
  else s.portSend p { m with hop := m.hop + 1 }

/-- Messages to a destination that have been sent and not answered (R590). -/
def Fabric.unanswered (f : Fabric) (dst : Nat) : Nat := (f.out.filter fun o => o.dst = dst && !o.held && !o.answered).length

/-- A message goes on its way by its route, or straight to the peer of a port. -/
def State.launchOut (s : State) (port : Option Nat) (m : OfpMsg) : State :=
  match port with
  | none => s.inject m
  | some p => s.portSend p { m with phase := BitVec.ofNat 3 (((s.nextHop m).map (·.2)).getD 0) }

/-- An end-to-end message: it takes the next E2E_SEQ of its destination, and goes out at once or waits (R590, R598). -/
def State.e2eSend (s : State) (o : E2eOut) : State :=
  let last := tget 0 s.fab.nextSeq o.dst
  let seq := if last ≥ 65535 then 1 else last + 1
  let m := { o.msg with e2eSeq := BitVec.ofNat 16 seq }
  let held := decide (256 ≤ s.fab.unanswered o.dst) || (o.port.isNone && o.dst != s.myHub && s.routeState o.dst != 1)
  let s := { s with fab := { s.fab with nextSeq := tput s.fab.nextSeq o.dst seq,
                                         out := s.fab.out ++ [{ o with seq := seq, msg := m, held := held }] } }
  if held then s else s.launchOut o.port m

/-- Messages held for a destination go out as far as R590 and its route allow. -/
def State.e2eRelease (s : State) (dst : Nat) : State :=
  (s.fab.out.filter fun o => o.dst = dst && o.held).foldl (fun s o =>
    if 256 ≤ s.fab.unanswered dst ∨ (o.port = none ∧ dst ≠ s.myHub ∧ s.routeState dst ≠ 1) then s
    else
      ({ s with fab := { s.fab with out := s.fab.out.map fun (u : E2eOut) =>
          if u.dst = dst ∧ u.seq = o.seq then { u with held := false } else u } }).launchOut o.port o.msg) s

/-- The entry of an end-to-end message that a response answers. -/
def Fabric.find (f : Fabric) (dst seq : Nat) : Option E2eOut := f.out.find? fun o => o.dst = dst && o.seq = seq

/-- A message has been answered. -/
def State.e2eDone (s : State) (dst seq : Nat) : State :=
  ({ s with fab := { s.fab with out := s.fab.out.filter fun o => !(o.dst = dst && o.seq = seq) } }).e2eRelease dst

/-- A response to a received message is recorded (R591). -/
def State.e2eNote (s : State) (m r : OfpMsg) : State :=
  let src := m.srcHub.toNat
  let old := ((s.fab.recv.find? fun e => e.src = src).map (·.seen)).getD []
  let new : E2eIn := ⟨src, (((m.e2eSeq.toNat, r) :: old).take 512)⟩
  { s with fab := { s.fab with recv := new :: s.fab.recv.filter fun e => e.src ≠ src } }

/-- A response to a received message: it is recorded and sent (R590, R591). -/
def State.e2eAnswer (s : State) (m : OfpMsg) (type code : Nat) : State :=
  let r : OfpMsg := { s.ofp type m.srcHub.toNat m.ownerTag with e2eSeq := m.e2eSeq, f10 := BitVec.ofNat 64 code }
  (s.e2eNote m r).inject r

/-- The response recorded for a duplicate (R591). -/
def State.e2eSeen (s : State) (m : OfpMsg) : Option OfpMsg :=
  match s.fab.recv.find? fun e => e.src = m.srcHub.toNat with
  | none => none
  | some e => (e.seen.find? fun p => p.1 = m.e2eSeq.toNat).map (·.2)

/-- A message that was delivered here leaves the list of those to be handled. -/
def State.takeInbox (s : State) (port : Nat) (m : OfpMsg) : State :=
  { s with fab := { s.fab with inbox := s.fab.inbox.erase (port, m) } }

/-- A message of a type is handled at its destination. One whose owner tag names no open partition is discarded and
counted (R589). Port 31 names this hub itself. -/
def State.receive (s : State) (port : Nat) (m : OfpMsg) (type : Nat) (act : State → State) : State :=
  let s := s.takeInbox port m
  if s.build.fabricPorts = 0 ∧ port ≠ 31 ∨ m.type.toNat ≠ type ∨ m.dstHub.toNat ≠ s.myHub then s
  else if m.ownerTag ≠ 0 ∧ (s.part (tagPart m.ownerTag)).state = 0 then
    s.setFp port { s.fp port with discarded := bump (s.fp port).discarded 1 }
  else act s

end Sys2Proof.Machine
end

