-- ==== Sys2Proof/Machine/Scalar.lean ====
section
/-! DEFINITION. The scalar instructions of the E profile (chapter 5), TDLD and TDSET (chapter 4), and the words with an
undefined opcode (R156). -/

namespace Sys2Proof.Machine

/-- Is the opcode of the word this one? -/
def isOp (op : Nat) (w : Nat) : Bool := opOf w = op

/-- Table 5-2; none for a code that is not defined. -/
def scalarFn (fn a b : Nat) : Option Nat :=
  let m := 2 ^ 64
  let sh := b % 64
  if fn = 0 then some ((a + b) % m)
  else if fn = 1 then some ((a + (m - b % m)) % m)
  else if fn = 2 then some (a * b % m)
  else if fn = 3 then some (a &&& b)
  else if fn = 4 then some (a ||| b)
  else if fn = 5 then some (a ^^^ b)
  else if fn = 6 then some ((a <<< sh) % m)
  else if fn = 7 then some (a >>> sh)
  else if fn = 8 then some (wrap 64 (sext 64 a >>> sh))
  else if fn = 9 then some (if sext 64 a ≤ sext 64 b then a else b)
  else if fn = 10 then some (if sext 64 a ≤ sext 64 b then b else a)
  else if fn = 11 then some (if sext 64 a < sext 64 b then 1 else 0)
  else if fn = 12 then some (if a < b then 1 else 0)
  else if fn = 13 then some (if a = b then 1 else 0)
  else none

/-- The instruction completes by writing one s register. -/
def State.doneS (s : State) (x : Leaving) (n v : Nat) : State := s.doneRegs x fun r => r.setS n v

/-- The token counter a word signals (R159). -/
def signalOf (w : Nat) : Option Nat := if bit w 50 then some (fld w 49 46) else none

/-- The instruction goes on after it has left its queue; it signals at its completion point. -/
def State.fly (s : State) (x : Leaving) (eff : Effect) : State :=
  s.modExec x.id fun y => { y with inflight := y.inflight ++ [⟨eff, signalOf x.h.word⟩] }

/-- Execution of the slot continues at an address. -/
def State.jumpTo (s : State) (x : Leaving) (pc : Nat) : State :=
  (s.modExec x.id fun y => { y with pc := pc % 2 ^ 64 }).signalWord x.id x.h.word x.src

/-- NOP carries a wait or a signal (R226). -/
def execNop (a : SlotId) (s : State) : Host.Outcome State Fault Refusal :=
  .next (s.work (s.runNow a 3 (isOp 0x01) fun s x => s.doneRegs x id))

/-- SLI (R228). -/
def execSli (a : SlotId) (s : State) : Host.Outcome State Fault Refusal :=
  .next (s.work (s.runNow a 3 (isOp 0x02) fun s x =>
    s.doneS x (fld x.h.word 45 40) (wrap 64 (sext 32 (fld x.h.word 39 8)))))

/-- SLUI (R228). -/
def execSlui (a : SlotId) (s : State) : Host.Outcome State Fault Refusal :=
  .next (s.work (s.runNow a 3 (isOp 0x03) fun s x =>
    let d := fld x.h.word 45 40
    s.doneRegs x fun r => r.setS d (r.getS d % 2 ^ 32 + fld x.h.word 39 8 * 2 ^ 32)))

/-- SALU (R227). -/
def execSalu (a : SlotId) (s : State) : Host.Outcome State Fault Refusal :=
  .next (s.work (s.runNow a 3 (isOp 0x04) fun s x =>
    let w := x.h.word
    match scalarFn (fld w 27 24) (x.h.sv (fld w 39 34)) (x.h.sv (fld w 33 28)) with
    | none => s.bad x
    | some v => s.doneS x (fld w 45 40) v))

/-- SALUI (R227). -/
def execSalui (a : SlotId) (s : State) : Host.Outcome State Fault Refusal :=
  .next (s.work (s.runNow a 3 (isOp 0x05) fun s x =>
    let w := x.h.word
    match scalarFn (fld w 27 24) (x.h.sv (fld w 39 34)) (wrap 64 (sext 24 (fld w 23 0))) with
    | none => s.bad x
    | some v => s.doneS x (fld w 45 40) v))

/-- The allotment offset of SLD and SST (R229). -/
def scalarOffset (x : Leaving) : Nat := x.h.sv (fld x.h.word 39 34) + 8 * fld x.h.word 33 14

/-- SLD (R229, R133). -/
def execSld (a : SlotId) (s : State) : Host.Outcome State Fault Refusal :=
  .next (s.work (s.runNow a 3 (isOp 0x06) fun s x =>
    let off := scalarOffset x
    if off % 8 ≠ 0 then s.bad x
    else
      let r := s.storeRead x.e x.l.ctx off 8
      (s.doneS x (fld x.h.word 45 40) (natLE r.1)).settle x.id x.src r.2))

/-- SST (R229, R133). -/
def execSst (a : SlotId) (s : State) : Host.Outcome State Fault Refusal :=
  .next (s.work (s.runNow a 3 (isOp 0x07) fun s x =>
    let off := scalarOffset x
    if off % 8 ≠ 0 then s.bad x
    else
      let r := s.storeWrite x.id x.e x.l.ctx off (bytesLE 8 (x.h.sv (fld x.h.word 45 40)))
      (r.1.doneRegs x id).settle x.id x.src r.2))

/-- SPARAM (R231). -/
def execSparam (a : SlotId) (s : State) : Host.Outcome State Fault Refusal :=
  .next (s.work (s.runNow a 3 (isOp 0x08) fun s x =>
    s.doneS x (fld x.h.word 45 40) (leAt x.l.x.consts (8 * fld x.h.word 39 34) 8)))

/-- Table 5-3, but for the cycle count; none for a selector that is not defined. (DESIGN CHOICE: log 12) -/
def State.statusValue (s : State) (l : Launch) (sel : Nat) : Option Nat :=
  if sel = 0 then some l.x.regs.t2Invalid
  else if sel = 1 then some l.x.regs.intSat
  else if sel = 2 then some l.x.regs.flush
  else if sel = 3 then some l.x.regs.violation
  else if sel = 5 then some s.now
  else if sel = 6 then some l.wg
  else if sel = 7 then some l.wgs
  else if sel = 8 then some l.desc.k
  else if sel = 9 then some l.desc.spanLog2
  else if sel = 10 then some l.desc.arrays
  else if sel = 11 then some l.x.consts.length
  else none

/-- SSTAT (R232). The engine cycles a launch has run are not state of the block: they are a free value. -/
def execSstat (a : SlotId) (s : State) : Host.Outcome State Fault Refusal :=
  .next (s.work (s.runNow a 3 (isOp 0x09) fun s x =>
    let d := fld x.h.word 45 40
    let sel := fld x.h.word 39 35
    if sel = 4 then let f := s.free; f.2.doneS x d f.1.toNat
    else
      match s.statusValue x.l sel with
      | none => s.bad x
      | some v => s.doneS x d v))

/-- The target of a relative branch (R234, R235). -/
def branchTarget (h : QEntry) : Nat := wrap 64 ((h.addr : Int) + 8 * sext 24 (fld h.word 30 7))

/-- BR (R234). After a fault execution continues with the next instruction. -/
def execBr (a : SlotId) (s : State) : Host.Outcome State Fault Refusal :=
  .next (s.work (s.runNow a 3 (isOp 0x0A) fun s x =>
    let w := x.h.word
    match brHolds (fld w 45 43) (x.h.sv (fld w 42 37)) (x.h.sv (fld w 36 31)) with
    | none => s.bad x
    | some true => s.jumpTo x (branchTarget x.h)
    | some false => s.doneRegs x id))

/-- JAL (R235). -/
def execJal (a : SlotId) (s : State) : Host.Outcome State Fault Refusal :=
  .next (s.work (s.runNow a 3 (isOp 0x0B) fun s x =>
    (s.modRegs x.id fun r => r.setS (fld x.h.word 45 40) (x.h.addr + 8)).jumpTo x (branchTarget x.h)))

/-- JR (R235). -/
def execJr (a : SlotId) (s : State) : Host.Outcome State Fault Refusal :=
  .next (s.work (s.runNow a 3 (isOp 0x0C) fun s x =>
    let v := x.h.sv (fld x.h.word 39 34)
    if v % 8 ≠ 0 then s.bad x else s.jumpTo x v))

/-- KSET (R224); its own signal is added after the value (R222). -/
def execKset (a : SlotId) (s : State) : Host.Outcome State Fault Refusal :=
  .next (s.work (s.runNow a 3 (isOp 0x0D) fun s x =>
    s.doneRegs x fun r => { r with k := tput r.k (fld x.h.word 45 42) (fld x.h.word 41 34) }))

/-- Has every earlier instruction of the slot, in every queue, completed (R236, R267)? (DEDUCED: log 63) -/
def Leaving.alone (x : Leaving) : Bool :=
  x.l.x.tq.isEmpty && x.l.x.vq.isEmpty && x.l.x.mq.isEmpty && x.l.x.sq.length = 1 && x.l.x.inflight.isEmpty

/-- A launch begins a queue wait: the packet it has worked on completes, its arrays, undo entries and captures are
released, and its image is what a replay starts from (R143, R417, R711). (DEDUCED: log 63) -/
def State.beginWait (s : State) (x : Leaving) : State :=
  let s := s.chargeLaunch x.id
  let s := match x.l.packet with
    | some k => s.completeCmd k x.l.code
    | none => s
  let s := (s.clearCaptures x.l).freeFold x.l
  s.modLaunch x.id fun l =>
    let y := { l.x with arrs := [] }
    { l with status := .waiting, qwait := some (fld x.h.word 45 40, fld x.h.word 39 34, signalOf x.h.word),
             waitSince := s.now, packet := none, code := 0, bound := [], fold := none, captures := [], allotCaps := [],
             done := [], redo := [], x := y, unit := y, unitSems := l.sems, chMem := 0, chHost := 0, chTime := 0 }

/-- QWAIT (R266, R267). (DEDUCED: log 63) -/
def execQwait (a : SlotId) (s : State) : Host.Outcome State Fault Refusal :=
  .next (s.work (s.runRow a 3 (isOp 0x0E) (fun _ x => x.alone) fun s x =>
    if x.l.resident then s.beginWait x else s.bad x))

/-- ENQ leaves its queue (R259, R261); the packet is written at its completion point (R262). -/
def execEnq (a : SlotId) (s : State) : Host.Outcome State Fault Refusal :=
  .next (s.work (s.runNow a 3 (isOp 0x0F) fun s x =>
    let off := x.h.sv (fld x.h.word 39 34)
    let qi := fld x.h.word 33 31
    let q := (s.ctx x.l.ctx).queue qi
    if off % 16 ≠ 0 ∨ q.state = 0 ∨ q.deviceWritten = false then s.bad x
    else s.fly x (.enqueue off qi (fld x.h.word 45 40))))

/-- END (R236, R272). -/
def execEndLaunch (a : SlotId) (s : State) : Host.Outcome State Fault Refusal :=
  .next (s.work (s.runRow a 3 (isOp 0x10) (fun _ x => x.alone) fun s x =>
    let s := if x.l.sems.isEmpty then s else s.launchFault x.id 3 x.src 15 0
    s.endLaunch x.id))

/-- The key of semaphore `i` for a launch (R271: semaphores belong to the partition). -/
def State.launchSem (s : State) (l : Launch) (i : Nat) : Nat := semKey (s.ctx l.ctx).part i

/-- A launch that waits in SACQ acquires the semaphore, and its SACQ completes (R271, R503). -/
def State.semGrantTo (s : State) (id key : Nat) : State :=
  match tfind s.launches id with
  | none => s
  | some l =>
    let i := key % 64
    let s := (s.semTake key id l.ctx).modLaunch id fun l =>
      { l with semWait := none, sems := l.sems ++ [i], semLost := l.semLost.filter (· ≠ i) }
    match l.semWait with
    | some (_, w) => s.signalWord id w (match l.place with | .slot e _ => queueSrc e 3 | _ => 0)
    | none => s

/-- A free semaphore goes to its first waiter (R503). -/
def State.semPass (s : State) (key : Nat) : State :=
  let m := s.sem key
  match m.holder, m.waiters with
  | none, id :: _ => s.semGrantTo id key
  | _, _ => s

/-- SACQ: the launch waits, or acquires at once when the semaphore is free and nobody waits (R271, R503).
(DEDUCED: log 69) -/
def execSacq (a : SlotId) (s : State) : Host.Outcome State Fault Refusal :=
  .next (s.work (s.runNow a 3 (isOp 0x11) fun s x =>
    let i := x.h.sv (fld x.h.word 39 34)
    let key := s.launchSem x.l i
    let m := s.sem key
    if 63 < i ∨ x.l.sems.contains i then s.bad x
    else
      let s := s.modLaunch x.id fun l => { l with semWait := some (i, x.h.word) }
      let s := s.setSem key { m with waiters := m.waiters ++ [x.id] }
      if m.holder.isNone && m.waiters.isEmpty then s.semGrantTo x.id key else s))

/-- SREL (R271, R505). (DEDUCED: log 69) -/
def execSrel (a : SlotId) (s : State) : Host.Outcome State Fault Refusal :=
  .next (s.work (s.runNow a 3 (isOp 0x12) fun s x =>
    let i := x.h.sv (fld x.h.word 39 34)
    if x.l.sems.contains i then
      ((s.semRelease (s.launchSem x.l i)).modLaunch x.id fun l => { l with sems := l.sems.filter (· ≠ i) }).doneRegs x id
    else if x.l.semLost.contains i then
      (s.modLaunch x.id fun l => { l with semLost := l.semLost.filter (· ≠ i) }).doneRegs x id
    else s.bad x))

/-- SEMAPHORE_GRANT (R503). -/
def execSemaphoreGrant (p sem : Nat) (s : State) : Host.Outcome State Fault Refusal :=
  .next (s.work (s.semPass (semKey p sem)))

/-- HOLD_LIMIT_EXPIRE: the holder's context faults HOLD_LIMIT, and the semaphore goes to the first waiter (R505).
(DESIGN CHOICE: log 7; DEDUCED: log 69) -/
def execHoldLimitExpire (p sem : Nat) (s : State) : Host.Outcome State Fault Refusal :=
  .next (s.work <|
    let key := semKey p sem
    match (s.sem key).holder with
    | none => s
    | some id =>
      match tfind s.launches id with
      | none => (s.semRelease key).semPass key
      | some _ =>
        let s := (s.semRelease key).modLaunch id fun l =>
          { l with sems := l.sems.filter (· ≠ sem), semLost := l.semLost ++ [sem] }
        let ctr := tget [0, 0, 0, 0, 0] s.schedCtr p
        let s := { s with schedCtr := tput s.schedCtr p (lmod ctr 3 (bump · 1)) }
        (s.launchFault id 5 0x282 15 0).semPass key)

/-- Bits [hi:lo] of a 256-bit register replaced. -/
def putBits (x : BitVec 256) (hi lo v : Nat) : BitVec 256 :=
  let m := (2 ^ (hi + 1 - lo) - 1) * 2 ^ lo
  BitVec.ofNat 256 ((x.toNat &&& (2 ^ 256 - 1 - m)) ||| (v % 2 ^ (hi + 1 - lo)) * 2 ^ lo)

/-- A tensor descriptor with one field written; none for a FIELD that is not defined (R171, Tables 4-4, 4-5). -/
def tdField (x : BitVec 256) (field v : Nat) : Option (BitVec 256) :=
  if field = 0 then some (putBits (putBits x 47 0 v) 63 63 (v / 2 ^ 63))
  else if field = 1 then some (putBits x 95 64 v)
  else if field = 2 then some (putBits x 127 96 v)
  else if field = 3 then some (putBits x 175 128 v)
  else if field = 4 then some (putBits x 255 192 v)
  else none

/-- TDLD (R170): 32 bytes of the allotment become a tensor descriptor register. -/
def execTdld (a : SlotId) (s : State) : Host.Outcome State Fault Refusal :=
  .next (s.work (s.runNow a 3 (isOp 0x18) fun s x =>
    let off := x.h.sv (fld x.h.word 41 36) + 32 * fld x.h.word 35 16
    if off % 32 ≠ 0 then s.bad x
    else
      let r := s.storeRead x.e x.l.ctx off 32
      (s.doneRegs x fun g => { g with t := tput g.t (fld x.h.word 45 42) (BitVec.ofNat 256 (natLE r.1)) }).settle
        x.id x.src r.2))

/-- TDSET (R171). -/
def execTdset (a : SlotId) (s : State) : Host.Outcome State Fault Refusal :=
  .next (s.work (s.runNow a 3 (isOp 0x19) fun s x =>
    let d := fld x.h.word 45 42
    match tdField (tget 0 x.l.x.regs.t d) (fld x.h.word 41 39) (x.h.sv (fld x.h.word 38 33)) with
    | none => s.bad x
    | some v => s.doneRegs x fun g => { g with t := tput g.t d v }))

/-- Is the opcode of the word one that release 4.1 does not define? -/
def undefinedOp (w : Nat) : Bool := (opFields (opOf w)).isNone

/-- The queue whose head, or else whose next word, has an undefined opcode (R155). (DEDUCED: log 68) -/
def undefinedQueue (x : Exec) : Nat :=
  match [0, 2, 1, 3].find? fun q =>
      match x.queue q with
      | h :: _ => undefinedOp h.word && x.waitOk h.word
      | [] => false with
  | some q => q
  | none =>
    match x.issuable with
    | some w => queueOf (opOf w)
    | none => 3

/-- E_UNDEFINED_OPCODE (R156): the word faults when it leaves its queue, and signals (R160). (DEDUCED: log 68) -/
def execEUndefinedOpcode (a : SlotId) (s : State) : Host.Outcome State Fault Refusal :=
  .next (s.work <|
    match s.inSlot a with
    | none => s
    | some (_, l) => s.runNow a (undefinedQueue l.x) undefinedOp fun s x => s.bad x)

end Sys2Proof.Machine
end

