-- ==== Sys2Proof/Machine/Tensor.lean ====
section
/-! DEFINITION. The tensor and move instructions of the E profile as they leave their queues (chapter 4), and the
commit of a pass (chapter 2, "Checking"). -/

namespace Sys2Proof.Machine

/-! ### Checks of operands (Table 4-6) -/

/-- A stationary or streamed operand, with its scale descriptor: format, span, SCALE_EN, R167 and SPACE. -/
def operandOk (l : Launch) (d sd : TDesc) (legal : Nat → Bool) : Bool :=
  legal d.fmt && decide (d.spanLog2 ≤ 24) && d.spanLog2 == l.desc.spanLog2 && d.scaleEn == fmtMX d.fmt && d.aligned
    && !d.space && (!d.scaleEn || !sd.space)

/-- The descriptor that an operand names through SCALE_T, as it was issued (R163). -/
def QEntry.scaleOf (h : QEntry) (d : TDesc) : TDesc := h.tv d.scaleT

/-- Scale blocks of chunk `c` (Table 4-6). -/
def blocksOf (k c : Nat) : Nat := min 4 ((k - 128 * c + 31) / 32)

/-- The chunk, and every scale block of it, lie in the held range (Table 4-6). -/
def chunkHeld (l : Launch) (d sd : TDesc) (c : Nat) : Bool :=
  decide (d.kbase ≤ c) && decide (128 * (c - d.kbase) < d.dim0)
    && (!d.scaleEn || (decide (sd.kbase ≤ c) && decide (4 * (c - sd.kbase) + blocksOf l.desc.k c ≤ sd.dim0)))

/-- Elements of row `r` in chunk `c`, up to the reduction length (R67, R173), with the block scales, 127 for an operand
without them. (DESIGN CHOICE: log 72) -/
def State.readChunk (s : State) (e ctx k : Nat) (d sd : TDesc) (r c : Nat) : List Nat × List Nat × Viol :=
  let b := fmtBits d.fmt
  let n := min 128 (k - 128 * c)
  let x := s.storeRead e ctx (d.row r + 16 * b * (c - d.kbase)) ((n * b + 7) / 8)
  let blocks := blocksOf k c
  if d.scaleEn then
    let y := s.storeRead e ctx (sd.row r + 4 * (c - sd.kbase)) blocks
    (elemsOf b n x.1, y.1.map (·.toNat), y.2.join x.2)
  else (elemsOf b n x.1, List.replicate blocks 127, x.2)

/-! ### Arrays, banks and their waits -/

/-- The physical array behind a logical one (R110, R111). -/
def Launch.phys (l : Launch) (j : Nat) : Nat := l.bound.getD (j % max l.bound.length 1) 0

/-- Is the logical array in its physical array, or not one of the launch's (a fault then, not a wait)? -/
def Launch.here (l : Launch) (j : Nat) : Bool := decide (l.desc.arrays ≤ j) || (l.x.arr j).resident

/-- A pass in flight on an array meets a test of its bank and buffer. (DEDUCED: log 70) -/
def Exec.passAny (x : Exec) (j : Nat) (test : Nat → Nat → Bool) : Bool :=
  x.inflight.any fun f => match f.eff with | .pass a bank buf .. => a == j && test bank buf | _ => false

/-- A WLD into an array is in flight. -/
def Exec.loadAny (x : Exec) (j : Nat) : Bool :=
  x.inflight.any fun f => match f.eff with | .load a .. => a == j | _ => false

/-- Every earlier pass into the bank is committed and the bank is not BUSY (Table 4-12). -/
def Exec.bankQuiet (x : Exec) (j bank : Nat) : Bool :=
  !x.passAny j (fun b _ => b == bank) && !((x.arr j).bank bank).busy

def State.modArr (s : State) (id j : Nat) (f : LArray → LArray) : State := s.modExec id fun x => x.modArr j f
def State.modBank (s : State) (id j b : Nat) (f : Bank → Bank) : State :=
  s.modArr id j fun a => a.setBank b (f (a.bank b))
def State.modBuf (s : State) (id j b : Nat) (f : Weight → Weight) : State :=
  s.modArr id j fun a => a.setBuf b (f (a.buf b))

/-- An EMPTY bank (R172). -/
def emptyBank : Bank := {}

/-- The span range a bank holds, when it is complete: OPEN with its span complete, or COMBINED (Table 4-8). -/
def Bank.whole (b : Bank) (d : Desc) : Option (Nat × Nat) :=
  match b.state with
  | .opened => if b.cur + 1 = min ((b.a + 1) * d.span) d.chunks then some (b.a, b.a) else none
  | .combined => some (b.a, b.e)
  | _ => none

/-- The accumulator family of a bank. -/
def Bank.fam (b : Bank) : Family := ((pairInfo b.fs b.fx b.wx).map (·.fam)).getD .int

/-- Row `r` of a bank, `n` entries; a row not written reads ZERO. -/
def Bank.row (b : Bank) (r : Nat) : List AccVal := tget (List.replicate b.n (accZero b.fam)) b.data r

/-! ### WLD (R173 to R176) -/

/-- A column of a weight buffer from the elements and scales of one row. -/
def hiColumn (es : List Nat) (sc : List Nat) : Column := ⟨es.map bf16Hi, sc⟩
def loColumn (es : List Nat) (sc : List Nat) : Column := ⟨es.map bf16Lo, sc⟩

/-- WLD leaves its queue: the buffer's content is fixed now, and it can feed a pass from its completion point on.
(DESIGN CHOICE: log 72) -/
def execWld (a : SlotId) (s : State) : Host.Outcome State Fault Refusal :=
  .next (s.work (s.runRow a 0 (isOp 0x20)
    (fun _ x =>
      let w := x.h.word
      let j := fld w 45 44
      let fp32 := (x.h.tv (fld w 42 39)).fmt == 9
      x.l.here j && !x.l.x.loadAny j && !x.l.x.passAny j fun _ buf => fp32 || buf == fld w 43 43)
    fun s x =>
      let w := x.h.word
      let j := fld w 45 44
      let d := x.h.tv (fld w 42 39)
      let sd := x.h.scaleOf d
      let so := x.h.sv (fld w 38 33)
      let n0 := fld so 63 32
      let c := fld so 31 0
      if x.l.desc.arrays ≤ j || !operandOk x.l d sd fmtStationary || !chunkHeld x.l d sd c || d.dim1 ≤ n0 then s.bad x
      else
        let cols := (List.range (min (nstat d.fmt) (d.dim1 - n0))).map fun i =>
          s.readChunk x.e x.l.ctx x.l.desc.k d sd (n0 + i) c
        let v := cols.foldl (fun v r => v.join r.2.2) {}
        let bad := if d.fmt = 2 then (cols.map fun r => (r.1.filter (· % 4 == 2)).length).foldl (· + ·) 0 else 0
        let fill (s : State) (b : Nat) (f : List Nat → List Nat → Column) : State :=
          s.modBuf x.id j b fun _ => { loading := true, fmt := d.fmt, cols := cols.map fun r => f r.1 r.2.1 }
        let fp32 := d.fmt == 9
        let s := if fp32 then fill (fill s 0 hiColumn) 1 loColumn else fill s (fld w 43 43) Column.mk
        ((s.addT2 x.id x.e bad).fly x (.load j (fld w 43 43) fp32)).settle x.id x.src v))

/-! ### TMUL (R177 to R181) and the commit of its pass (R99 to R101, R119) -/

/-- A TMUL as decoded. -/
structure Pass where
  j : Nat
  buf : Nat
  bank : Nat
  wx : Bool
  d : TDesc
  sd : TDesc
  m : Nat
  m0 : Nat
  r0 : Nat
  c : Nat
deriving DecidableEq, Repr

/-- (DEDUCED: log 70) -/
def passOf (x : Leaving) : Pass :=
  let w := x.h.word
  let d := x.h.tv (fld w 40 37)
  let sa := x.h.sv (fld w 36 31)
  let sb := x.h.sv (fld w 30 25)
  { j := fld w 45 44, buf := fld w 43 43, bank := fld w 42 42, wx := bit w 41, d := d, sd := x.h.scaleOf d,
    m := fld sa 47 32, m0 := fld sa 31 0, r0 := fld sb 47 32, c := fld sb 31 0 }

/-- The columns of the pass, N (R177). -/
def Pass.cols (p : Pass) (a : LArray) (pi : PairInfo) : Nat := min (a.buf p.buf).cols.length pi.npair

/-- Table 4-10: is the bank in a state that accepts the pass? (DEDUCED: log 70) -/
def Pass.accepted (p : Pass) (d : Desc) (b : Bank) (fs n : Nat) : Bool :=
  match b.state with
  | .empty => !p.wx && p.c % d.span == 0
  | .windowed => p.wx && p.c % d.span == 0
  | .opened => p.wx == b.wx && (p.c == b.cur || (p.c == b.cur + 1 && p.c / d.span == b.a))
      && b.fs == fs && b.fx == p.d.fmt && b.n == n
  | .combined => false

/-- The loaded halves of an FP32 stationary operand are both there. (DEDUCED: log 70) -/
def Pass.halves (p : Pass) (a : LArray) : Bool :=
  (a.buf p.buf).fmt != 9 || (a.w0.fmt == 9 && a.w1.fmt == 9 && a.w0.loaded && a.w1.loaded)

/-- The chunk sums of a pass, row by row (R84, R177). -/
def State.passSums (s : State) (x : Leaving) (p : Pass) (pi : PairInfo) (a : LArray) : List (List AccSt) × Viol :=
  let fs := (a.buf p.buf).fmt
  let L := (a.bank p.bank).L
  let n := p.cols a pi
  let rows := (List.range p.m).map fun i => s.readChunk x.e x.l.ctx x.l.desc.k p.d p.sd (p.m0 + i) p.c
  let cols := if pi.three then (a.w0.cols.zip a.w1.cols).map fun q => (q.1.elems, q.2.elems)
    else (a.buf p.buf).cols.map fun q => (q.elems, (List.range q.elems.length).map fun k => q.scales.getD (k / 32) 127)
  let sums := rows.map fun r =>
    (cols.take n).map fun q =>
      let ks := r.1.zipIdx.map fun v => OpPair.mk (q.1.getD v.2 0) (q.2.getD v.2 127) v.1 (r.2.1.getD (v.2 / 32) 127)
      chunkSum pi L fs p.d.fmt ks
  (sums, rows.foldl (fun v r => v.join r.2.2) {})

/-- TMUL leaves its queue: the bank's record changes now, and the sums enter it when the pass commits. (DEDUCED: log 70) -/
def execTmul (a : SlotId) (s : State) : Host.Outcome State Fault Refusal :=
  .next (s.work (s.runRow a 0 (isOp 0x21)
    (fun _ x =>
      let p := passOf x
      let r := x.l.x.arr p.j
      x.l.here p.j && !(r.buf p.buf).loading && !(r.bank p.bank).busy)
    fun s x =>
      let p := passOf x
      let d := x.l.desc
      let r := x.l.x.arr p.j
      let f := r.buf p.buf
      let b := r.bank p.bank
      match pairInfo f.fmt p.d.fmt p.wx with
      | none => s.bad x
      | some pi =>
        let n := p.cols r pi
        if d.arrays ≤ p.j || !operandOk x.l p.d p.sd fmtStreamed || !chunkHeld x.l p.d p.sd p.c
            || (d.k != 0 && d.chunks ≤ p.c) || p.d.dim1 < p.m0 + p.m || pi.rows < p.r0 + p.m || !f.loaded
            || !p.halves r || !p.accepted d b f.fmt n then s.bad x
        else if p.m = 0 ∨ d.k = 0 then s.doneRegs x id
        else
          let (sums, v) := s.passSums x p pi r
          let span := p.c / d.span
          let s := s.modBank x.id p.j p.bank fun b =>
            { b with state := .opened, a := span, e := span, cur := p.c, fs := f.fmt, fx := p.d.fmt, wx := p.wx, n := n,
                     rows := max b.rows (p.r0 + p.m) }
          (s.fly x (.pass p.j p.bank p.buf p.r0 (p.c % d.span == 0) sums false)).settle x.id x.src v))

/-- The oldest pass in flight on an array: its place in the list. -/
def Exec.oldestPass (x : Exec) (j : Nat) : Option (Nat × InFlight) :=
  findIdxVal (fun f => match f.eff with | .pass a .. => a == j | _ => false) x.inflight 0

/-- An instruction in flight has reached its completion point: it leaves the list and signals (R159). -/
def State.landed (s : State) (id n src : Nat) (f : InFlight) : State :=
  let s := s.modExec id fun x => { x with inflight := x.inflight.eraseIdx n }
  match f.signal with
  | some k => s.tokenUp id k src
  | none => s

/-- The rows of a pass enter the bank (R119, R178). -/
def Bank.commit (b : Bank) (r0 : Nat) (starts : Bool) (sums : List (List AccSt)) : Bank × Nat × Nat :=
  sums.zipIdx.foldl (fun acc row =>
    let b := acc.1
    let old := b.row (r0 + row.2)
    let new := if starts then row.1 else
      List.zipWith (fun o (v : AccSt) => AccSt.add ⟨o, 0, 0⟩ v) old row.1
    ({ b with data := tput b.data (r0 + row.2) (new.map (·.v)) },
     acc.2.1 + (new.map (·.sat)).foldl (· + ·) 0, acc.2.2 + (new.map (·.flush)).foldl (· + ·) 0)) (b, 0, 0)

/-- A pass has left an array: ARRAY_BUSY_CYCLES has counted the cycles it was in flight, whose number the specification
does not fix (Table 3-6). (DESIGN CHOICE: log 12) -/
def State.arrayWorked (s : State) (e p : Nat) : State :=
  let r := s.free
  r.2.modEngine e fun x => { x with ctr := { x.ctr with arrayBusy := tmod 0 x.ctr.arrayBusy p (bump · r.1.toNat) } }

/-- PASS_COMMIT: the oldest pass of the array commits when its checks agree; a disagreement discards and reissues it
once, and a second one retires the array and fails the launch (R99 to R102). (DEDUCED: log 71) -/
def execPassCommit (a : SlotId) (arr : Nat) (agree : Bool) (s : State) : Host.Outcome State Fault Refusal :=
  .next (s.work <|
    match s.inSlot a with
    | none => s
    | some (id, l) =>
      match l.x.oldestPass arr with
      | none => s
      | some (n, f) =>
        match f.eff with
        | .pass j bank buf r0 starts sums reissued =>
          let src := engSrc a.engine (l.phys j)
          let s := s.arrayWorked a.engine (l.phys j)
          if agree then
            let r := (((l.x.arr j).bank bank).commit r0 starts sums)
            (((s.modBank id j bank fun _ => r.1).addSat id a.engine r.2.1).addFlush id a.engine r.2.2).landed
              id n (queueSrc a.engine 0) f
          else
            let s := s.checkRetry a.engine src (s.tag l.ctx)
            if reissued then (s.retireUnit (.array (4 * a.engine + l.phys j)) src 3).failLaunch id src 3
            else s.modExec id fun x =>
              { x with inflight := lmod x.inflight n fun f => { f with eff := .pass j bank buf r0 starts sums true } }
        | _ => s)

/-! ### TWIN (R182 to R184) -/

/-- The largest block scale that is a number, over the rows of an operand, for one block of the reduction (R77). -/
def State.topScale (s : State) (e ctx : Nat) (sd : TDesc) (r0 n b : Nat) : Option Nat × Viol :=
  (List.range n).foldl (fun acc i =>
    let y := s.storeRead e ctx (sd.row (r0 + i) + b) 1
    let x := natLE y.1
    (if x = 0xFF then acc.1 else some (max x (acc.1.getD 0)), acc.2.join y.2)) (none, {})

/-- R184: the scale descriptor holds every block of the launch's reduction. -/
def allScales (l : Launch) (d sd : TDesc) : Bool :=
  !d.scaleEn || (sd.kbase == 0 && decide ((l.desc.k + 31) / 32 ≤ sd.dim0))

/-- TWIN leaves its queue; the bank is WINDOWED at its completion point. (DEDUCED: log 70) -/
def execTwin (a : SlotId) (s : State) : Host.Outcome State Fault Refusal :=
  .next (s.work (s.runRow a 0 (isOp 0x22)
    (fun _ x => x.l.here (fld x.h.word 45 44) && x.l.x.bankQuiet (fld x.h.word 45 44) (fld x.h.word 43 43))
    fun s x =>
      let w := x.h.word
      let j := fld w 45 44
      let bank := fld w 43 43
      let ds := x.h.tv (fld w 42 39)
      let dx := x.h.tv (fld w 38 35)
      let ss := x.h.scaleOf ds
      let sx := x.h.scaleOf dx
      let sa := x.h.sv (fld w 34 29)
      let sb := x.h.sv (fld w 28 23)
      if x.l.desc.arrays ≤ j || !operandOk x.l ds ss fmtStationary || !operandOk x.l dx sx fmtStreamed
          || !pairWide ds.fmt dx.fmt || ((x.l.x.arr j).bank bank).state != .empty || !allScales x.l ds ss
          || !allScales x.l dx sx then s.bad x
      else if fld sa 47 32 = 0 ∨ fld sb 47 32 = 0 then s.doneRegs x id
      else
        let blocks := if ds.scaleEn then List.range ((x.l.desc.k + 31) / 32) else []
        let tops := blocks.map fun b =>
          (s.topScale x.e x.l.ctx ss (fld sb 31 0) (fld sb 47 32) b, s.topScale x.e x.l.ctx sx (fld sa 31 0) (fld sa 47 32) b)
        let pairs := tops.filterMap fun t =>
          match t.1.1, t.2.1 with
          | some u, some v => some (u, v)
          | _, _ => none
        let v := tops.foldl (fun v t => (v.join t.1.2).join t.2.2) {}
        let s := s.modBank x.id j bank fun b => { b with busy := true }
        (s.fly x (.window j bank (windowL ds.fmt dx.fmt pairs))).settle x.id x.src v))

/-! ### TCMB (R185, R186) -/

/-- R186's tree rule for a left range [a, b] and a right range [b + 1, e]. -/
def siblings (spans a b a' e : Nat) : Bool :=
  a' == b + 1 && (List.range 40).any fun i =>
    a % 2 ^ (i + 1) == 0 && a' == a + 2 ^ i && e + 1 == min (a + 2 ^ (i + 1)) spans

/-- Both banks record the same reduction (R186). -/
def Bank.sameAs (b c : Bank) : Bool :=
  b.fs == c.fs && b.fx == c.fx && b.wx == c.wx && b.n == c.n && b.rows == c.rows && (!b.wx || b.L == c.L)

/-- TCMB leaves its queue. (DEDUCED: log 78) -/
def execTcmb (a : SlotId) (s : State) : Host.Outcome State Fault Refusal :=
  .next (s.work (s.runRow a 0 (isOp 0x23)
    (fun _ x =>
      let w := x.h.word
      let l := fld w 45 44
      let r := fld w 42 41
      let shared := x.l.phys l == x.l.phys r && l != r
      (if shared then x.l.here l || x.l.here r else x.l.here l && x.l.here r)
        && x.l.x.bankQuiet l (fld w 43 43) && x.l.x.bankQuiet r (fld w 40 40))
    fun s x =>
      let w := x.h.word
      let l := fld w 45 44
      let r := fld w 42 41
      let bl := (x.l.x.arr l).bank (fld w 43 43)
      let br := (x.l.x.arr r).bank (fld w 40 40)
      let ok := match bl.whole x.l.desc, br.whole x.l.desc with
        | some u, some v => bl.sameAs br && siblings x.l.desc.spans u.1 u.2 v.1 v.2
        | _, _ => false
      if x.l.desc.arrays ≤ l || x.l.desc.arrays ≤ r || !ok then s.bad x
      else
        let s := (s.modBank x.id l (fld w 43 43) fun b => { b with busy := true }).modBank x.id r (fld w 40 40) fun b =>
          { b with busy := true }
        s.fly x (.combine l (fld w 43 43) r (fld w 40 40))))

/-- The sum of two banks along the tree, the left bank as the left operand, with its saturations (R88, R185). -/
def Bank.combine (l r : Bank) (e : Nat) : Bank × Nat :=
  let rows := (List.range l.rows).map fun i => List.zipWith accAdd (l.row i) (r.row i)
  ({ l with state := .combined, busy := false, e := e, data := rows.zipIdx.map fun p => (p.2, p.1.map (·.1)) },
   (rows.map fun p => (p.map (·.2)).foldl (· + ·) 0).foldl (· + ·) 0)

/-! ### TDRN and TCLR (R187 to R191) -/

/-- An output descriptor's own checks (Table 4-6). -/
def outputOk (d : TDesc) : Bool := fmtOutput d.fmt && d.aligned

/-- The rows and columns of an output that its descriptor holds, written row by row (R187): each row's byte offset and
its elements. -/
def outRows (d : TDesc) (so rows : Nat) (row : Nat → List AccVal) : List (Nat × List AccVal) :=
  let n0 := fld so 63 32
  let m0 := fld so 31 0
  ((List.range rows).filter fun r => m0 + r < d.dim1).map fun r =>
    (d.row (m0 + r) + n0 * (fmtBits d.fmt / 8), (row r).take (d.dim0 - n0))

/-- One output row in the allotment: with `acc` the existing elements are added first (R189). (DESIGN CHOICE: log 72) -/
def State.drainRow (s : State) (x : Leaving) (d : TDesc) (acc : Bool) (b : Bank) (q : Nat × Viol) (off : Nat)
    (es : List AccVal) : State × Nat × Viol :=
  let n := fmtBits d.fmt / 8
  let old := if acc then s.storeRead x.e x.l.ctx off (es.length * n) else ([], {})
  let sums := es.zipIdx.map fun v =>
    if acc then accAdd (accIn b.fam d.fmt (leAt old.1 (v.2 * n) n)) v.1 else (v.1, 0)
  let out := sums.map fun v => let o := accOut d.fmt d.sat b.L v.1; (o.1, o.2 + v.2)
  let r := s.storeWrite x.id x.e x.l.ctx off (out.flatMap fun o => bytesLE n o.1)
  (r.1, q.1 + (out.map (·.2)).foldl (· + ·) 0, (q.2.join old.2).join r.2)

/-- TDRN leaves its queue: the output is written, and the bank is BUSY until its completion point.
(DESIGN CHOICE: log 72) -/
def execTdrn (a : SlotId) (s : State) : Host.Outcome State Fault Refusal :=
  .next (s.work (s.runRow a 0 (isOp 0x24)
    (fun _ x => x.l.here (fld x.h.word 45 44) && x.l.x.bankQuiet (fld x.h.word 45 44) (fld x.h.word 43 43))
    fun s x =>
      let w := x.h.word
      let j := fld w 45 44
      let bank := fld w 43 43
      let d := x.h.tv (fld w 41 38)
      let b := (x.l.x.arr j).bank bank
      let acc := bit w 42
      let done := b.whole x.l.desc == some (0, x.l.desc.spans - 1)
      if x.l.desc.arrays ≤ j || !outputOk d || d.space then s.bad x
      else if b.state = .empty ∨ b.state = .windowed then s.doneRegs x id
      else if !outAllowed b.fam d.fmt || (outConverts b.fam d.fmt && !done) || (acc && (!done || b.wx)) then s.bad x
      else
        let r := (outRows d (x.h.sv (fld w 37 32)) b.rows b.row).foldl
          (fun (q : State × Nat × Viol) p => q.1.drainRow x d acc b q.2 p.1 p.2) (s, 0, {})
        let s := (r.1.addSat x.id x.e r.2.1).modBank x.id j bank fun b => { b with busy := true }
        (s.fly x (.drain j bank)).settle x.id x.src r.2.2))

/-- TCLR (R191). -/
def execTclr (a : SlotId) (s : State) : Host.Outcome State Fault Refusal :=
  .next (s.work (s.runRow a 0 (isOp 0x25)
    (fun _ x => x.l.here (fld x.h.word 45 44) && x.l.x.bankQuiet (fld x.h.word 45 44) (fld x.h.word 43 43))
    fun s x =>
      let j := fld x.h.word 45 44
      if x.l.desc.arrays ≤ j then s.bad x
      else (s.modBank x.id j (fld x.h.word 43 43) fun _ => emptyBank).doneRegs x id))

/-! ### CRED (R192 to R194) -/

/-- The partial of a bank, with the operands of its CRED (R192). -/
def State.partialOf (s : State) (x : Leaving) (b : Bank) (a e : Nat) : Partial :=
  let w := x.h.word
  { owner := s.tag x.l.ctx, key := BitVec.ofNat 64 (x.h.sv (fld w 26 21)), a := a, e := e, k := x.l.desc.k,
    spanLog2 := x.l.desc.spanLog2, fs := b.fs, fx := b.fx, wx := b.wx, n := b.n, rows := b.rows, L := b.L,
    data := (List.range b.rows).map b.row, ty := tget 0 x.h.t (fld w 42 39),
    so := BitVec.ofNat 64 (x.h.sv (fld w 38 33)), sf := BitVec.ofNat 32 (x.h.sv (fld w 20 15)) }

/-- CRED leaves its queue; the partial goes out at its completion point. -/
def execCred (a : SlotId) (s : State) : Host.Outcome State Fault Refusal :=
  .next (s.work (s.runRow a 0 (isOp 0x26)
    (fun _ x => x.l.here (fld x.h.word 45 44) && x.l.x.bankQuiet (fld x.h.word 45 44) (fld x.h.word 43 43))
    fun s x =>
      let w := x.h.word
      let j := fld w 45 44
      let bank := fld w 43 43
      let d := x.h.tv (fld w 42 39)
      let b := (x.l.x.arr j).bank bank
      let dst := x.h.sv (fld w 32 27)
      let unit := fld dst 7 0
      let combiner := decide (unit < 16)
      let known := if combiner then decide (unit < s.build.engines) else decide (0x10 ≤ unit) && decide (unit < 0x10 + s.islands)
      if x.l.desc.arrays ≤ j || !outputOk d || d.space == combiner || fld dst 63 32 != 0 || fld dst 15 8 != 0 || !known then
        s.bad x
      else if b.state = .empty ∨ b.state = .windowed then s.doneRegs x id
      else
        match b.whole x.l.desc with
        | none => s.bad x
        | some (u, v) =>
          if !s.reachable (fld dst 31 16) then (s.launchFault x.id 7 x.src 15 0).signalWord x.id w x.src
          else
            let p := s.partialOf x b u v
            let s := s.modBank x.id j bank fun b => { b with busy := true }
            s.fly x (.send j bank (BitVec.ofNat 64 dst) p)))

/-! ### Moves (R197 to R204) -/

/-- A move goes to its mover; with nothing to move it is a no-op (R24). -/
def State.startMove (s : State) (x : Leaving) (m : MoveJob) (rowBytes : Nat) : State :=
  if m.rows = 0 ∨ rowBytes = 0 then s.doneRegs x id else s.fly x (.move m)

/-- MCOPY (R197 to R200). -/
def execMcopy (a : SlotId) (s : State) : Host.Outcome State Fault Refusal :=
  .next (s.work (s.runNow a 2 (isOp 0x40) fun s x =>
    let w := x.h.word
    let d := x.h.tv (fld w 44 41)
    let t := x.h.tv (fld w 40 37)
    if !fmtDefined d.fmt || !fmtDefined t.fmt || !d.aligned || !t.aligned || (d.space && t.space) || d.dim1 != t.dim1
        || d.rowBytes != t.rowBytes then s.bad x
    else
      s.startMove x { kind := 0x40, dm := fld w 45 45, src := tget 0 x.h.t (fld w 40 37), dst := tget 0 x.h.t (fld w 44 41),
                      sod := x.h.sv (fld w 36 31), sos := x.h.sv (fld w 30 25), rows := d.dim1 } t.rowBytes))

/-- MFILL (R201). -/
def execMfill (a : SlotId) (s : State) : Host.Outcome State Fault Refusal :=
  .next (s.work (s.runNow a 2 (isOp 0x41) fun s x =>
    let w := x.h.word
    let d := x.h.tv (fld w 44 41)
    if !fmtDefined d.fmt || !d.aligned then s.bad x
    else
      s.startMove x { kind := 0x41, dm := fld w 45 45, src := 0, dst := tget 0 x.h.t (fld w 44 41),
                      sod := x.h.sv (fld w 40 35), pattern := x.h.sv (fld w 34 29), rows := d.dim1 } d.rowBytes))

/-- MGATH (R202). -/
def execMgath (a : SlotId) (s : State) : Host.Outcome State Fault Refusal :=
  .next (s.work (s.runNow a 2 (isOp 0x42) fun s x =>
    let w := x.h.word
    let d := x.h.tv (fld w 44 41)
    let t := x.h.tv (fld w 40 37)
    let i := x.h.tv (fld w 36 33)
    if !fmtDefined d.fmt || !fmtDefined t.fmt || !d.aligned || !t.aligned || (d.space && t.space) || i.fmt != 0x10
        || i.dim1 != 1 || i.space || !i.aligned || d.dim1 != i.dim0 || d.rowBytes != t.rowBytes then s.bad x
    else
      s.startMove x { kind := 0x42, dm := fld w 45 45, src := tget 0 x.h.t (fld w 40 37), dst := tget 0 x.h.t (fld w 44 41),
                      idx := tget 0 x.h.t (fld w 36 33), rows := d.dim1 } t.rowBytes))

end Sys2Proof.Machine
end

