-- ==== Sys2Proof/Machine/Collective.lean ====
section
/-! DEFINITION. Collective units and engine combiners (R87, R88, R123, R195, R196, R605 to R612): grouping partials,
combining siblings, writing the result, and the messages that carry partials. -/

namespace Sys2Proof.Machine

/-! ### Partials as banks -/

/-- Family of a partial. -/
def Partial.fam (p : Partial) : Family := ((pairInfo p.fs p.fx p.wx).map (·.fam)).getD .int

/-- Spans of the reduction of a partial. -/
def Partial.spans (p : Partial) : Nat :=
  let chunks := (p.k + 127) / 128
  (chunks + 2 ^ p.spanLog2 - 1) / 2 ^ p.spanLog2

/-- Accumulator format of a family (Table 2-1): how a partial is carried. -/
def accFormat : Family → Nat
  | .int => 0x11
  | .f32 => 9
  | .wx => 0x12

/-- Bytes of one accumulator element. -/
def accBytes (f : Family) : Nat := fmtBits (accFormat f) / 8

/-- Lines of a partial (R605). -/
def Partial.lines (p : Partial) : Nat := (p.rows * p.n * accBytes p.fam + 63) / 64

/-- The same owner and reduction key. -/
def Partial.mates (p q : Partial) : Bool := p.owner == q.owner && p.key == q.key

/-- Agreement of two partials of one reduction (R195). -/
def Partial.agrees (p q : Partial) : Bool :=
  p.k == q.k && p.spanLog2 == q.spanLog2 && p.fs == q.fs && p.fx == q.fx && p.wx == q.wx && p.n == q.n && p.rows == q.rows
    && (!p.wx || p.L == q.L) && (decide (p.e < q.a) || decide (q.e < p.a))

/-- The tree sibling on the right (R88, R186). -/
def Partial.leftOf (p q : Partial) : Bool := siblings p.spans p.a p.e q.a q.e

/-- Two siblings added, the lower one as the left operand, with the saturations counted. -/
def Partial.add (p q : Partial) : Partial × Nat :=
  let rows := List.zipWith (List.zipWith accAdd) p.data q.data
  ({ p with e := q.e, data := rows.map fun r => r.map (·.1) },
   (rows.map fun r => (r.map (·.2)).foldl (· + ·) 0).foldl (· + ·) 0)

/-- The partials of one reduction with every pair of siblings combined: the list, the pairs combined, the saturations.
The first argument bounds the number of combinations. -/
def combineAll : Nat → List Partial → List Partial × Nat × Nat
  | 0, ps => (ps, 0, 0)
  | n + 1, ps =>
    match ps.find? fun p => ps.any fun q => p.leftOf q with
    | none => (ps, 0, 0)
    | some p =>
      match ps.find? fun q => p.leftOf q with
      | none => (ps, 0, 0)
      | some q =>
        let r := p.add q
        let t := combineAll n (r.1 :: ps.filter fun x => x.a ≠ p.a && x.a ≠ q.a)
        (t.1, t.2.1 + 1, t.2.2 + r.2)

/-- What a unit holds after a partial arrives (R195): a conflict discards the partial and its mates; otherwise siblings
combine. -/
def joinPartial (held : List Partial) (p : Partial) : Option (List Partial × Nat × Nat) :=
  let mates := held.filter p.mates
  if mates.all p.agrees then
    let r := combineAll 64 (p :: mates)
    some (held.filter (fun q => !p.mates q) ++ r.1, r.2)
  else none

/-- A reduction whose whole range is held (R196). -/
def Partial.whole (p : Partial) : Bool := p.a == 0 && p.e + 1 == p.spans

/-- The context an owner tag names, when it has that tag and is LIVE. -/
def State.tagLive (s : State) (t : BitVec 16) : Bool := (s.ctx (tagCtx t)).state == .live && s.tag (tagCtx t) == t

/-- A result's output rows as byte ranges, with the saturations of their conversion (R187, R196). -/
def Partial.output (p : Partial) : List (Nat × List Byte) × Nat :=
  let d := TDesc.ofBits p.ty
  let rows := (outRows d p.so.toNat p.rows fun r => p.data.getD r []).map fun v =>
    (v.1, v.2.map fun x => accOut d.fmt d.sat p.L x)
  (rows.map fun v => (v.1, v.2.flatMap fun x => bytesLE (fmtBits d.fmt / 8) x.1),
   (rows.map fun v => (v.2.map (·.2)).foldl (· + ·) 0).foldl (· + ·) 0)

/-- The fence of a reduction is signalled when its context may name it. (DEDUCED: log 79) -/
def State.signalPartial (s : State) (p : Partial) (src : Nat) : State :=
  let c := tagCtx p.owner
  if p.sf = 0 then s
  else if s.fenceValid c p.sf none then s.sendSignal p.sf 0
  else s.fault c 2 { source := src }

/-! ### Engine combiners (R123, R195, R196) -/

/-- Bytes written into a context's allotment by the combiner. -/
def State.combinerWrite (s : State) (e c off : Nat) (bs : List Byte) : State × Viol :=
  let (base, size) := s.allotSpan e c
  (s.modEngine e fun x => { x with store := mwriteN x.store (base + off) (bs.take (size - off)) },
   violStore size off bs.length 1)

/-- A finished reduction of an engine combiner is written to the context's allotment there, and its fence signalled.
(DEDUCED: log 79) -/
def State.combinerFinish (s : State) (e : Nat) (p : Partial) : State :=
  let c := tagCtx p.owner
  let src := engSrc e 8
  let s := s.modEngine e fun x => { x with held := x.held.filter fun q => !(p.mates q) }
  if !outAllowed p.fam (TDesc.ofBits p.ty).fmt then s.fault c 3 { source := src }
  else
    let out := p.output
    let r := out.1.foldl (fun (q : State × Viol) w =>
      let t := q.1.combinerWrite e c w.1 w.2
      (t.1, q.2.join t.2)) (s, {})
    let s := r.1.modEngine e fun x => { x with ctr := { x.ctr with intSat := bump x.ctr.intSat out.2 } }
    let s := if r.2.lines = 0 then s else s.fault c r.2.code { source := src, access := 1, address := r.2.addr }
    s.signalPartial p src

/-- An engine combiner takes one partial (R195). A partial of a context that is no longer LIVE is dropped.
(DEDUCED: log 79) -/
def State.combinerTake (s : State) (e : Nat) (p : Partial) : State :=
  if !s.tagLive p.owner then s
  else
    match joinPartial (s.engine e).held p with
    | none =>
      (s.modEngine e fun x => { x with held := x.held.filter fun q => !(p.mates q) }).fault (tagCtx p.owner) 3
        { source := engSrc e 8 }
    | some (held, _, sat) =>
      let s := s.modEngine e fun x => { x with held := held, ctr := { x.ctr with intSat := bump x.ctr.intSat sat } }
      match held.find? fun q => p.mates q && q.whole with
      | some q => s.combinerFinish e q
      | none => s

/-- COMBINER_PARTIAL: the oldest partial at the input of an engine combiner. A retired engine's combiner passes what it
holds on (R717). -/
def execCombinerPartial (e : Nat) (s : State) : Host.Outcome State Fault Refusal :=
  .next (s.work <|
    let x := s.engine e
    if x.state = 4 then s.movePartials
    else
      match x.inbox with
      | [] => s
      | p :: rest => (s.setEngine e { x with inbox := rest }).combinerTake e p)

/-! ### Collective units (R605 to R612) -/

/-- The unit that takes a partial for unit `u`: a retired unit's are taken by the lowest-indexed working one (R612). -/
def State.cuFor (s : State) (u : Nat) : Option Nat :=
  if (s.cu u).state = 1 then some u
  else if (s.cu u).state = 2 then (List.range 5).find? fun v => (s.cu v).state = 1
  else none

/-- 64 KiB pages of a number of lines. -/
def pagesOf (lines : Nat) : Nat := ceilDiv lines 1024

/-- Pages that a partition's partials take on a unit. -/
def Cu.pagesUsed (x : Cu) (p : Nat) : Nat :=
  ((x.held.filter fun q => tagPart q.owner = p).map fun q => pagesOf q.lines).foldl (· + ·) 0
    + ((x.rx.filter fun q => tagPart q.part.owner = p).map fun q => pagesOf q.total).foldl (· + ·) 0

/-- The sum of a partition's fabric shares on a unit's four ports (R607). -/
def Part.unitShare (x : Part) (u : Nat) : Nat :=
  ((List.range 4).map fun i => tget 0 x.shares (4 * u + i)).foldl (· + ·) 0

/-- The pages of a unit that a pooled partition may use (R607). -/
def State.cuQuota (s : State) (u p : Nat) : Nat :=
  let open_ (x : Part) : Bool := x.state != 0 && !x.static
  let total := ((s.units.parts.filter fun e => open_ e.2).map fun e => e.2.unitShare u).foldl (· + ·) 0
  if total = 0 || !open_ (s.part p) then 0
  else (128 - (s.cu u).pagesReserved) * (s.part p).unitShare u / total

/-- Is there room for a partial of so many lines (R608)? A tree sibling is always accepted. -/
def State.cuRoom (s : State) (u : Nat) (p : Partial) (lines : Nat) : Bool :=
  let x := s.cu u
  let here := (x.held ++ x.rx.map (·.part)).filter p.mates
  here.any (fun q => p.leftOf q || q.leftOf p)
    || decide (x.pagesUsed (tagPart p.owner) + pagesOf lines ≤ s.cuQuota u (tagPart p.owner))

/-- The 64-byte lines of a result. -/
def resultLines (rows : List (Nat × List Byte)) : List (Nat × List Byte) :=
  rows.flatMap fun w => (lineList w.1 w.2.length).map fun l => (l.1, (w.2.drop (l.1 - w.1)).take l.2)

/-- A finished reduction of a collective unit is written through the context's segments (R611); a line of a segment
that is not present is dropped here. -/
def State.cuWrite (s : State) (u : Nat) (p : Partial) (code : Nat) : State :=
  let c := tagCtx p.owner
  let src := 0x580 + u
  let s := s.setCu u { s.cu u with held := (s.cu u).held.filter fun q => !(p.mates q) }
  let r := (resultLines p.output.1).foldl (fun (q : State × Viol × Nat × Nat) l =>
    match q.1.writeJob ⟨c, 5, ⟨0, 0⟩, []⟩ [] l.1 l.2 with
    | .done t host => (t, q.2.1, if host then q.2.2.1 else q.2.2.1 + l.2.length, if host then q.2.2.2 + l.2.length else q.2.2.2)
    | .dropped k => (q.1, q.2.1.add 1 l.1 5 k, q.2.2)
    | .stopped _ => (q.1, q.2.1.add 1 l.1 5 1, q.2.2)) (s, {}, 0, 0)
  let s := r.1.chargeBytes c r.2.2.1 r.2.2.2
  let v := r.2.1
  let s := if code ≠ 0 then s.fault c code { source := src, access := 5, address := v.addr }
    else if v.lines = 0 then s else s.fault c v.code { source := src, access := 5, address := v.addr }
  s.signalPartial p src

/-- A finished reduction: written at once, or held while a segment it needs is not present (Table 9-5, R452).
(DEDUCED: log 79) -/
def State.cuFinish (s : State) (u : Nat) (p : Partial) : State :=
  let c := tagCtx p.owner
  if !outAllowed p.fam (TDesc.ofBits p.ty).fmt then
    (s.setCu u { s.cu u with held := (s.cu u).held.filter fun q => !(p.mates q) }).fault c 3 { source := 0x580 + u }
  else
    let stop := (resultLines p.output.1).findSome? fun l =>
      match s.access ⟨c, 5, ⟨0, 0⟩, []⟩ l.1 with
      | .absent i => some (i, l.1)
      | .waits i => some (i, l.1)
      | _ => none
    match stop with
    | none => s.cuWrite u p 0
    | some (i, va) =>
      match s.raiseSegFault c i va 5 0xFFFF (3 * 2 ^ 56) with
      | .waits s => s
      | .refused s => s.cuWrite u p 6

/-- A collective unit takes one whole partial (R195, R611). (DEDUCED: log 79) -/
def State.cuTake (s : State) (u : Nat) (p : Partial) : State :=
  let x := s.cu u
  match joinPartial x.held p with
  | none => (s.setCu u { x with held := x.held.filter fun q => !(p.mates q) }).fault (tagCtx p.owner) 3 { source := 0x580 + u }
  | some (held, n, _) =>
    let s := s.setCu u { x with held := held, combines := bump x.combines n }
    match held.find? fun q => p.mates q && q.whole with
    | some q => s.cuFinish u q
    | none => s

/-- The finished reductions of a context that wait for a segment go on, or end as refused. (DEDUCED: log 79) -/
def State.cuRetry (s : State) (c : Nat) (refused : Bool) : State :=
  (s.fab.cus.map (·.1)).foldl (fun s u =>
    ((s.cu u).held.filter fun p => tagCtx p.owner = c && p.whole).foldl (fun s p =>
      if refused then s.cuWrite u p 6 else s.cuFinish u p) s) s

/-! ### PARTIAL messages (R605) -/

/-- The bytes of a partial, row after row, in the accumulator format. -/
def Partial.bytes (p : Partial) : List Byte :=
  p.data.flatten.flatMap fun v => bytesLE (accBytes p.fam) (accOut (accFormat p.fam) false p.L v).1

/-- Bytes as the rows of a partial. -/
def Partial.ofBytes (p : Partial) (bs : List Byte) : Partial :=
  let w := accBytes p.fam
  { p with data := (List.range p.rows).map fun r => (List.range p.n).map fun j =>
      accIn p.fam (accFormat p.fam) (leAt bs ((r * p.n + j) * w) w) }

/-- The line that precedes a partial's lines (R605). -/
def Partial.header (p : Partial) : List Byte :=
  bytesLE 32 p.ty.toNat ++ bytesLE 8 p.so.toNat ++ bytesLE 4 p.sf.toNat ++ List.replicate 20 0

/-- One PARTIAL message (Table 12-10). -/
def State.partialMessage (s : State) (dst unit : Nat) (p : Partial) (off : Nat) (bs : List Byte) : OfpMsg :=
  msgData { s.ofp 3 dst p.owner with
    f10 := p.key
    f18 := BitVec.ofNat 64 (p.a % 2 ^ 25 * 2 ^ 39 + p.e % 2 ^ 25 * 2 ^ 14 + unit % 256 * 32 + p.spanLog2 % 32)
    f20 := BitVec.ofNat 64 (p.k % 2 ^ 32 * 2 ^ 32 + (if p.wx then wrap 32 p.L else 0))
    f28 := BitVec.ofNat 64 (p.fs % 32 * 2 ^ 59 + p.fx % 32 * 2 ^ 54 + flag p.wx 53 + p.n % 2048 * 2 ^ 42
      + p.rows % 8192 * 2 ^ 29 + off % 65536)
    f30 := BitVec.ofNat 64 (p.lines % 65536 * 2 ^ 48) } bs

/-- The messages of a partial, in ascending LINE_OFFSET: the first with its extra line and up to 63 lines. -/
def State.partialMessages (s : State) (dst unit : Nat) (p : Partial) : List OfpMsg :=
  let bs := takePad (64 * p.lines) p.bytes
  let first := s.partialMessage dst unit p 0 (p.header ++ bs.take (64 * 63))
  let more := (p.lines - 63 + 63) / 64
  first :: (List.range more).map fun i =>
    let off := 63 + 64 * i
    s.partialMessage dst unit p off ((bs.drop (64 * off)).take 4096)

/-- A partial as the fields of its messages describe it, without its data. -/
def partialFields (m : OfpMsg) : Partial :=
  let x := m.f18.toNat
  let y := m.f28.toNat
  { owner := m.ownerTag, key := m.f10, a := fld x 63 39, e := fld x 38 14, k := fld m.f20.toNat 63 32, spanLog2 := fld x 4 0,
    fs := fld y 63 59, fx := fld y 58 54, wx := bit y 53, n := fld y 52 42, rows := fld y 41 29,
    L := if bit y 53 then sext 32 m.f20.toNat else 0, data := [], ty := 0, so := 0, sf := 0 }

/-- Where the messages of a partial for unit code `u` are put together: at the collective unit that takes it, or, for
the combiner of engine `u`, in a table entry of its own. (DEDUCED: log 79) -/
def State.partialAt (s : State) (u : Nat) : Option Nat :=
  if u < 16 then (if u < s.build.engines then some (32 + u) else none) else s.cuFor (u - 16)

/-- A whole partial reaches its unit. -/
def State.partialDeliver (s : State) (k : Nat) (p : Partial) : State :=
  if 32 ≤ k then s.modEngine (k - 32) fun x => { x with inbox := x.inbox ++ [p] } else s.cuTake k p

/-- A received PARTIAL message at its unit, and the answer of Table 12-9: 1 accepted, 2 refused, 3 retry; a scheduled
one is never refused (R606, R608, R610). -/
def State.partialArrive (s : State) (m : OfpMsg) : State × Nat :=
  let f := partialFields m
  let off := fld m.f28.toNat 15 0
  let total := fld m.f30.toNat 63 48
  let src := m.srcHub.toNat
  match s.partialAt (fld m.f18.toNat 12 5) with
  | none => (s, 2)
  | some u =>
    if !(s.tagLive m.ownerTag && (s.ctx (tagCtx m.ownerTag)).fabric) then (s, 2)
    else
      let x := s.cu u
      let finish (s : State) (rx : CuRx) : State × Nat :=
        if 64 * rx.total ≤ rx.got.length then (s.partialDeliver u (rx.part.ofBytes rx.got), 1)
        else (s.setCu u { s.cu u with rx := (s.cu u).rx ++ [rx] }, 1)
      if off = 0 then
        let p := { f with ty := BitVec.ofNat 256 (leAt m.data 0 32), so := BitVec.ofNat 64 (leAt m.data 32 8),
                          sf := BitVec.ofNat 32 (leAt m.data 40 4) }
        if !m.sourceRouted && u < 32 && !s.cuRoom u p total then (s.setCu u { x with retries := bump x.retries 1 }, 3)
        else finish s ⟨p, src, total, m.data.drop 64⟩
      else
        let mine (r : CuRx) : Bool := r.srcHub == src && r.part.mates f && r.part.a == f.a && r.part.e == f.e
        match x.rx.find? fun r => mine r && r.got.length == 64 * off with
        | none => (s, 1)
        | some r =>
          finish (s.setCu u { x with rx := x.rx.filter fun q => !(mine q) }) { r with got := r.got ++ m.data }

/-! ### Sending a partial (R192, R194) -/

/-- The route on which a step of a static schedule sends a partial to a hub: that of the first transfer of its part to
the hub. -/
def State.stepRoute (s : State) (launch hub : Nat) : Option (Nat × Nat) :=
  match ((tfind s.launches launch).bind (·.step)) with
  | none => none
  | some (p, _) => ((s.myPart p).xfers.find? fun x => x.dstHub = hub).map fun x => (x.routeLen, x.route)

/-- Is a launch a step of a static schedule? -/
def State.isStep (s : State) (launch : Nat) : Bool := ((tfind s.launches launch).bind (·.step)).isSome

/-- The partial of a CRED leaves for the unit that s[SD] names. A step of a static schedule sends it as a scheduled
PARTIAL, which has no answer (R610, R633). (DEDUCED: log 79) -/
def State.sendPartial (s : State) (launch : Nat) (dest : W64) (p : Partial) : State :=
  let unit := fld dest.toNat 7 0
  let hub := fld dest.toNat 31 16
  let here := hub = 0xFFFF ∨ (s.fab.idValid ∧ hub = s.fab.hubId)
  let asSched (m : OfpMsg) (route : Nat × Nat) : OfpMsg :=
    { m with sourceRouted := true, routeLen := BitVec.ofNat 3 route.1, route := BitVec.ofNat 25 route.2 }
  if 16 ≤ unit ∧ here ∧ s.isStep launch then
    (s.partialMessages s.myHub unit p).foldl (fun s m => (s.partialArrive (asSched m (0, 0))).1) s
  else if 16 ≤ unit ∧ (s.stepRoute launch hub).isSome then
    let r := (s.stepRoute launch hub).getD (0, 0)
    (s.partialMessages hub unit p).foldl (fun s m => (s.chargeFabric m).sourceRoute (asSched m r)) s
  else
  if unit < 16 then
    if here then s.modEngine unit fun x => { x with inbox := x.inbox ++ [p] }
    else
      match s.partialMessages hub unit p with
      | [] => s
      | m :: rest => s.e2eSend { dst := hub, seq := 0, msg := m, launch := some launch, rest := rest }
  else
    let hub := if here then s.myHub else hub
    match s.partialMessages hub unit p with
    | [] => s
    | m :: rest => s.e2eSend { dst := hub, seq := 0, msg := m, launch := some launch, rest := rest }

end Sys2Proof.Machine
end

