-- ==== Sys2Proof/Machine/FrontCore.lean ====
section
/-! DEFINITION. The front end's shared operations (chapter 8): doorbells, the fetch sequencer, the start of packets, and
the delivery of work packets to a resident launch. -/

namespace Sys2Proof.Machine

/-! ### Doorbells (R387 to R392) -/

/-- A doorbell wakes a sleeping sequencer, which then reads TAIL (R394). `seenTail = head` while it has not read it. -/
def Queue.wake (q : Queue) : Queue :=
  if q.fetch = .asleep then { q with fetch := if q.tail = q.head then .reread else .fetching, seenTail := q.head } else q

/-- A doorbell has been accepted: TAIL is written, DB_PENDING set; a queue with a queue slot wakes, another has its
pending-map bit set (R390, R391, R394). -/
def State.ring (s : State) (qi tail : Nat) : State :=
  let x := s.ctx (qi / 8)
  let q := { s.queue qi with tail := tail, dbPending := true }
  let s := { s with fe := { s.fe with dbAccepted := bump s.fe.dbAccepted 1 } }
  s.setQueue qi (if x.sched.rslot.isSome || x.state = .lost then q.wake else { q with pendingBit := true })

/-- A doorbell that is ignored and counted. -/
def State.ringIgnored (s : State) : State := { s with fe := { s.fe with dbIgnored := bump s.fe.dbIgnored 1 } }

/-- A doorbell that faults BAD_COMMAND against the context, recorded under ORIGIN 2 (Table 8-3, R865). -/
def State.ringFault (s : State) (qi v : Nat) : State :=
  s.fault (qi / 8) 3 { source := 0x280, queue := qi, off := 2 * 2 ^ 56 + v % 2 ^ 32 }

/-- Table 8-3 for a doorbell value of 32 bits on a queue that exists. -/
def State.doorbellValue (s : State) (qi v : Nat) : State :=
  let x := s.ctx (qi / 8)
  let q := s.queue qi
  if q.deviceWritten then s.ringIgnored
  else if x.state = .aborting ∨ x.state = .held then s
  else if v % 16 ≠ 0 then s.ringFault qi v
  else if v = q.tail then s.ring qi v
  else if 2 ^ 31 ≤ ahead32 q.tail v then s.ringIgnored
  else if 2 ^ q.sizeLog2 < ahead32 q.head v then s.ringFault qi v
  else s.ring qi v

/-! ### Fetch (R393 to R396) -/

/-- Is the partition between the point of no return of a program that names it and its switch (R308)? -/
def State.paused (s : State) (p : Nat) : Bool :=
  s.wmb.phase = .handover && !s.wmb.switched && s.wmb.named.contains p && !(s.part p).static

/-- The queue's sequencer may fetch, and its packets may start: the queue is ready and its context holds its queue
slots and is not being switched out; a LOST context's packets complete without acting, resident or not (R392). -/
def State.fetchOn (s : State) (qi : Nat) : Bool :=
  let x := s.ctx (qi / 8)
  let q := s.queue qi
  q.state = 1 && !q.destroying && !s.paused x.part && !x.lostHold
    && (x.state = .lost || (x.state = .live && x.sched.rslot.isSome && !x.sched.switchingOut))

/-- Commands of a queue that have started and not completed, oldest first. (DEDUCED: log 61) -/
def State.startedCmds (s : State) (qi : Nat) : List (Nat × Cmd) := s.cmds.filter fun e => e.2.queue = qi

/-- The packets in the bytes of a fetched line, the first at ring counter `pos`. -/
def packetsOf (pos : Nat) (bs : List Byte) : List Packet :=
  (List.range (bs.length / 16)).map fun i => ⟨leAt bs (16 * i) 8, leAt bs (16 * i + 8) 8, (pos + 16 * i) % 2 ^ 32, none⟩

/-- Bytes a ring or a called buffer reads as: zeros outside the context's rights and in host memory (R382); none where
the segment is not present. (DEDUCED: log 60) -/
def State.ringBytes (s : State) (c va n : Nat) : List Byte × Option Nat :=
  match s.access ⟨c, 3, ⟨0, 0⟩, []⟩ va with
  | .ok false a => (s.physRead false a n, none)
  | .absent i => ([], some i)
  | _ => (List.replicate n 0, none)

/-- The next line of a ring that is asked for: its counter, virtual address and length (R393, R395). -/
def Queue.nextLine (q : Queue) : Nat × Nat :=
  (q.ringVa + q.head % 2 ^ q.sizeLog2, min (64 - q.head % 64) (ahead32 q.head q.seenTail))

/-- The bytes of the asked line have come; a line whose access was refused reads zero (R455). -/
def Queue.gotLine (q : Queue) (bs : List Byte) : Queue := { q with decoded := packetsOf q.head bs, stalled := none }

/-- A ring line returns (R393, R395): the sequencer has read TAIL when it resumed fetching. (DEDUCED: log 60) -/
def State.ringLine (s : State) (qi : Nat) : State :=
  let q := s.queue qi
  if !s.fetchOn qi || q.fetch != .fetching || !q.decoded.isEmpty || q.stalled.isSome then s
  else
    let q := if q.seenTail = q.head then { q with seenTail := q.tail, dbPending := false } else q
    if q.seenTail = q.head then s.setQueue qi { q with fetch := .reread }
    else
      let (va, n) := q.nextLine
      let c := qi / 8
      match s.ringBytes c va n with
      | (bs, none) => s.setQueue qi (q.gotLine bs)
      | (_, some i) =>
        let s := s.setQueue qi { q with stalled := some i }
        match s.raiseSegFault c i va 3 qi q.head with
        | .waits s => s
        | .refused s =>
          (s.setQueue qi (q.gotLine (List.replicate n 0))).fault c 6
            { source := 0x280, access := 3, address := va, queue := qi, off := q.head }

/-- The second read of TAIL returns (R393). -/
def State.tailReread (s : State) (qi : Nat) : State :=
  let q := s.queue qi
  if q.fetch != .reread || !s.fetchOn qi then s
  else if q.tail ≠ q.head then s.setQueue qi { q with fetch := .fetching, seenTail := q.tail, dbPending := false }
  else if q.dbPending then s.setQueue qi { q with dbPending := false }
  else s.setQueue qi { q with fetch := .asleep }

/-! ### The start of a packet (R396 to R401) -/

/-- FAULT_RING_OFFSET of a packet (R865). -/
def Packet.origin (p : Packet) : Nat :=
  match p.off with
  | none => p.pos
  | some o => 2 ^ 56 + o % 2 ^ 24 * 2 ^ 32 + p.pos

/-- The command of a queue that has started and not acted. -/
def State.openCmd (s : State) (qi : Nat) : Option (Nat × Cmd) := (s.startedCmds qi).find? fun e => !e.2.acted

/-- May the queue's next packet start (R396)? (DEDUCED: log 61) -/
def State.canStart (s : State) (qi : Nat) : Bool :=
  s.fetchOn qi && (s.queue qi).blocked.isNone && (s.openCmd qi).isNone && decide ((s.startedCmds qi).length < 64)

/-- The queue after its next packet has been read: HEAD passes a packet of the ring, and at the TAIL last read the
sequencer turns idle and reads TAIL again. -/
def Queue.take (q : Queue) (p : Packet) (rest : List Packet) : Queue :=
  let q := { q with decoded := rest, head := match p.off with | none => (p.pos + 16) % 2 ^ 32 | some _ => q.head }
  if rest.isEmpty && q.head = q.seenTail then { q with fetch := .reread } else q

/-- A CALL_RING completes when the last packet of its buffer has been read (Table 8-6). -/
def State.closeCall (s : State) (qi : Nat) : State :=
  if (s.queue qi).decoded.any fun p => p.off.isSome then s
  else
    match (s.startedCmds qi).find? fun e => e.2.op = 0x0B && e.2.acted with
    | none => s
    | some (id, m) => s.completeCmd id m.code

/-- A fault that arises in a command of the front end. -/
def State.cmdFault (s : State) (id code acc addr : Nat) : State :=
  match tfind s.cmds id with
  | none => s
  | some m =>
    s.fault m.ctx code { source := 0x280, access := acc, address := addr, cmd := some id, queue := m.queue, off := m.origin }

/-- A command, if it has not completed yet, completes with the code of its first fault. -/
def State.finishCmd (s : State) (id : Nat) : State :=
  match tfind s.cmds id with
  | none => s
  | some m => s.completeCmd id m.code

/-- A command that faults BAD_COMMAND does nothing and completes. -/
def State.badCmd (s : State) (id : Nat) : State := (s.cmdFault id 3 15 0).finishCmd id

/-- The place of a command in its queue. -/
def Cmd.at_ (m : Cmd) (id : Nat) : QPos := some (m.queue, m.pos, id)

/-- FLAGS bits that an opcode names (Table 8-6). -/
def opFlags (op : Nat) : Nat := if op = 3 then 1 else if op = 6 then 3 else 0

/-- Does HANDLE name a fence that the command signals (Table 8-6)? -/
def signalsHandle (op flags : Nat) : Bool :=
  1 ≤ op && op ≤ 0x0D && op != 4 && op != 0x0A && op != 0x0B && !(op = 6 && flags % 4 = 2)

/-- The checks of R397, R398 and Table 8-6 on a packet: is it BAD_COMMAND? -/
def Packet.malformed (p : Packet) : Bool :=
  let op := p.w0 % 256
  let flags := fld p.w0 15 8
  let h := fld p.w0 63 32
  let a := p.w1
  let stop := op = 3 && flags % 2 = 1
  !(1 ≤ op && op ≤ 0x0D) || fld p.w0 31 16 != 0 || flags / (opFlags op + 1) != 0
    || ((op = 1 || op = 4 || op = 5 || op = 9 || stop) && a != 0)
    || ((op = 4 || op = 5) && h / 2 ^ 28 = 0)
    || ((op = 2 || (op = 3 && !stop)) && a % 64 != 0)
    || ((op = 7 || op = 8) && a % 32 != 0)
    || (op = 6 && (flags % 4 = 3 || (flags % 4 = 2 && a % 4 != 0)))
    || (op = 0x0A && (h != 0 || 2 ^ 32 ≤ a || a % 16 != 0))
    || (op = 0x0B && (p.off.isSome || h % 16 != 0 || 2 ^ 24 < h || a % 16 != 0))
    || (op = 0x0C && 2 ^ 32 ≤ a)
    || (op = 0x0D && a % 8 != 0)

/-- The next packet of a queue starts, when it is one of the row: HEAD advances, its fence and fields are checked; in a
LOST context it completes without acting (R368). What is left to do is the row's. -/
def State.startHead (s : State) (qi : Nat) (row : Nat → Bool) : State :=
  match (s.queue qi).decoded with
  | [] => s
  | p :: rest =>
    if !row p.w0 || !s.canStart qi then s
    else
      let c := qi / 8
      let op := p.w0 % 256
      let flags := fld p.w0 15 8
      let h := BitVec.ofNat 32 (fld p.w0 63 32)
      let (id, s) := s.fresh
      let s := s.setQueue qi ((s.queue qi).take p rest)
      let fenced := signalsHandle op flags && !(h.toNat / 2 ^ 28 = 0 && op != 5)
      let ok := s.fenceValid c h (some (qi, p.pos, id))
      let m : Cmd :=
        { ctx := c, queue := qi, op := op, flags := flags, handle := if fenced && !ok || (signalsHandle op flags && !fenced) then 0 else h,
          arg := p.w1, origin := p.origin, pos := p.pos, acted := false }
      let s := (s.setCmd id m).closeCall qi
      if (s.ctx c).state ≠ .live then s.completeCmd id (if op < 1 ∨ 0x0D < op then 3 else 0x0A)
      else
        let s := if fenced && !ok && !(op = 5 && h.toNat / 2 ^ 28 = 0) then s.cmdFault id 2 15 h.toNat else s
        if p.malformed then s.badCmd id else s

/-- A row of the Q profile: the queue's command that has started and not acted goes on, or else its next packet starts.
With `alone` it acts only when every earlier command of the queue, but for an enclosing CALL_RING, has completed
(R399); while it is stopped on a segment it waits (Table 9-5). -/
def State.qRow (s : State) (qi : Nat) (row : Nat → Bool) (alone : Bool) (act : State → Nat → Cmd → State) : State :=
  let s := if (s.openCmd qi).isSome then s else s.startHead qi row
  match s.openCmd qi with
  | none => s
  | some (id, m) =>
    if row (m.op + 256 * m.flags) && m.stalled.isNone && !(s.ctx m.ctx).lostHold
        && (!alone || (s.startedCmds qi).all fun e => e.1 = id || e.2.op = 0x0B) then act s id m
    else s

/-- The command has acted. -/
def State.acted (s : State) (id : Nat) : State :=
  match tfind s.cmds id with
  | none => s
  | some m => s.setCmd id { m with acted := true }

/-- A command has met a segment that is not present: it waits for the fault, or is refused at once; then `again` goes on
(Table 9-5, R455, R456). -/
def State.cmdStall (s : State) (id seg va acc : Nat) (again : State → State) : State :=
  match tfind s.cmds id with
  | none => s
  | some m =>
    match s.raiseSegFault m.ctx seg va acc m.queue m.origin with
    | .waits s => s.setCmd id { m with stalled := some seg }
    | .refused s => again ((s.setCmd id { m with refusedSegs := seg :: m.refusedSegs }).cmdFault id 6 acc va)

/-- The front end as the maker of a command's accesses: a launch, COPY or FILL treats released objects as gone
(R441). -/
def State.whoCmd (s : State) (m : Cmd) (id acc : Nat) : Who :=
  ⟨m.ctx, acc, ⟨0, 0⟩, if m.op = 2 ∨ m.op = 3 ∨ m.op = 7 ∨ m.op = 8 then s.goneFor m.ctx (m.at_ id) else []⟩

/-- The violations of a command, as one message and one fault (R405, R208). -/
def State.cmdViol (s : State) (id : Nat) (v : Viol) : State := if v.lines = 0 then s else s.cmdFault id v.code v.acc v.addr

/-- A command reads bytes through segments before it acts, and goes on with them while it has not completed; on a
segment that is not present it stops, and reads them again when it goes on. `fuel` bounds the segments refused at
once. -/
def State.cmdReadN : Nat → State → Nat → Nat → Nat → (State → List Byte → State) → State
  | 0, s, _, _, _, _ => s
  | fuel + 1, s, id, va, n, cont =>
    match tfind s.cmds id with
    | none => s
    | some m =>
      let r := s.readVa (s.whoCmd m id 4) m.refusedSegs va n
      match r.stop with
      | none =>
        let s := (s.chargeBytes m.ctx r.dev r.host).cmdViol id r.viol
        if (tfind s.cmds id).isSome then cont s r.bytes else s
      | some (seg, at_) => s.cmdStall id seg at_ 4 fun s => State.cmdReadN fuel s id va n cont

def State.cmdRead (s : State) (id va n : Nat) (cont : State → List Byte → State) : State := s.cmdReadN 17 id va n cont

/-- A command writes a few bytes of one line through segments and goes on. -/
def State.cmdWrite (s : State) (id : Nat) (m : Cmd) (va : Nat) (bs : List Byte) (cont : State → State) : State :=
  match s.writeLine (s.whoCmd m id 5) m.refusedSegs va bs with
  | .done t host => cont (t.chargeBytes m.ctx (if host then 0 else bs.length) (if host then bs.length else 0))
  | .dropped code => cont (s.cmdViol id ⟨1, va, 5, code⟩)
  | .stopped seg => s.cmdStall id seg va 5 fun s => cont (s.cmdViol id ⟨1, va, 5, 1⟩)

/-! ### Arrays of a launch (R109 to R114) -/

/-- Physical arrays of an engine that no launch in a slot has bound. -/
def State.freeArrays (s : State) (e : Nat) : List Nat :=
  let held := (s.engine e).slots.flatMap fun p => ((tfind s.launches p.2).map (·.bound)).getD []
  (s.workingArrays e).filter fun a => !held.contains a

/-- Units of an engine store in no allotment and no fold region. -/
def State.freeUnits (s : State) (e : Nat) : List Nat :=
  let x := s.engine e
  let folds := x.slots.filterMap fun p => (tfind s.launches p.2).bind (·.fold)
  (List.range s.build.allotUnits).filter fun u =>
    (x.allots.all fun a => u < a.2.base || a.2.base + a.2.size ≤ u) && folds.all fun f => u < f.1 || f.1 + f.2 ≤ u

/-- First fit: the lowest base at which `n` units are free (R484). -/
def State.firstFit (s : State) (e n : Nat) : Option Nat :=
  let free := s.freeUnits e
  (List.range s.build.allotUnits).find? fun b => (List.range n).all fun i => free.contains (b + i)

/-- Is a scrub of an engine still in progress on one of these units? (DEDUCED: log 78) -/
def Engine.scrubbing (x : Engine) (b n : Nat) : Bool := x.scrubs.any fun r => r.base < b + n && b < r.base + r.units

/-- The physical arrays and the fold region that a launch of `n` logical arrays gets on an engine, when its whole
binding can be made (R110 to R112): the arrays bound, the fold region. -/
def State.bindFor (s : State) (e n : Nat) : Option (List Nat × Option (Nat × Nat)) :=
  let working := s.workingArrays e
  let free := s.freeArrays e
  if n = 0 then some ([], none)
  else if n ≤ working.length then if n ≤ free.length then some (free.take n, none) else none
  else if working.isEmpty ∨ free ≠ working then none
  else
    let size := (n - working.length) * 17
    match s.firstFit e size with
    | none => none
    | some b => if (s.engine e).scrubbing b size then none else some (working, some (b, size))

/-- Cleared logical arrays: of those that share a physical array the lowest-indexed is resident (R111, R114). -/
def clearedArrays (n w : Nat) : List LArray := (List.range n).map fun j => { resident := decide (j < max w 1) }

/-- Arrays read back from their images, resident as in a binding of `w` physical arrays (R866). -/
def residentArrays (arrs : List LArray) (w : Nat) : List LArray :=
  arrs.zipIdx.map fun p => { p.1 with resident := decide (p.2 < max w 1) }

/-! ### Work packets (R268 to R270, R417, R418) -/

/-- The oldest work packet of a queue that has not been delivered. -/
def State.nextPacket (s : State) (qi : Nat) : Option (Nat × Cmd) :=
  (s.startedCmds qi).find? fun e => e.2.isPacket && !e.2.delivered && e.2.acted

/-- A launch that waits on its queue in a slot goes on: its wait was ended, or a packet is there, and its arrays can be
bound. QWAIT writes its registers and signals, and a new replay unit begins (R268, R269, R710). -/
def State.deliver (s : State) (id : Nat) : State :=
  match tfind s.launches id with
  | none => s
  | some l =>
    match l.place, l.qwait with
    | .slot e _, some (sd, sp, sig) =>
      if l.status ≠ .waiting then s
      else
        match s.bindFor e l.desc.arrays with
        | none => s
        | some (bound, fold) =>
          let go (s : State) (d p : Nat) (consts : List Byte) (packet : Option Nat) : State :=
            let s := s.modLaunch id fun l =>
              let r := (l.x.regs.setS sd d).setS sp p
              { l with x := { l.x with regs := r, consts := consts, arrs := clearedArrays l.desc.arrays bound.length },
                       status := .running, qwait := none, stopWait := false, bound := bound, fold := fold, packet := packet,
                       chargedAt := s.now }
            let s := match sig with
              | some k => s.tokenUp id k (queueSrc e 3)
              | none => s
            s.modLaunch id fun l => { l with unit := l.x, unitSems := l.sems }
          if l.stopWait then go (s.chargeLaunch id) 1 0 l.x.consts none
          else
            match s.nextPacket l.queue with
            | none => s
            | some (k, m) =>
              let d := m.desc.getD {}
              go ((s.chargeLaunch id).setCmd k { m with delivered := true }) 0 d.arg d.consts (some k)
    | _, _ => s

end Sys2Proof.Machine
end

