-- ==== Sys2Proof/Machine/Moves.lean ====
section
/-! DEFINITION. The data movers (R197 to R212) and undo capture (R459 to R462), and the completion points of the
instructions that go on after they have left their queue (R159, Table 4-12). -/

namespace Sys2Proof.Machine

/-! ### Undo capture (R459, R460) -/

/-- Undo slots of a context in use by its launches. -/
def State.undoUsed (s : State) (c : Nat) : List Nat :=
  (s.launches.filter fun e => e.2.ctx = c).flatMap fun e => e.2.captures.filterMap (·.slot)

/-- The lowest free undo slot of a context. -/
def State.undoFree (s : State) (c : Nat) : Option Nat :=
  let used := s.undoUsed c
  (List.range (s.ctx c).undo.slots).find? fun i => !used.contains i

/-- The 64 KiB block that must be captured before a launch writes at this address (R460). -/
def State.needsCapture (s : State) (l : Launch) (va : Nat) : Option Nat :=
  match (s.ctx (s.tableOwner l.ctx)).findSeg va with
  | none => none
  | some (i, _) => if bit l.capSet i && !l.captures.any (fun c => c.block = va / 65536) then some (va / 65536) else none

/-- A line that a launch is about to write must first be captured: the launch waits for the copy, or, when no slot is
free, for a recovery point (R460, R462). (DEDUCED: log 76) -/
def State.askCapture (s : State) (id : Nat) (l : Launch) (block : Nat) : State :=
  s.setLaunch id { l with capWait := some block, recovery := l.recovery || (s.undoFree l.ctx).isNone }

/-! ### Rows of a move -/

/-- Bytes of device and host memory that a launch has moved are charged to its context, but for what a failed attempt
of its unit has already been charged (R510, R511, R513). -/
def State.chargeMoved (s : State) (id dev host : Nat) : State :=
  match tfind s.launches id with
  | none => s
  | some l =>
    let d := dev - l.owedMem
    let h := host - l.owedHost
    (s.setLaunch id { l with owedMem := l.owedMem - dev, owedHost := l.owedHost - host, chMem := l.chMem + d,
                             chHost := l.chHost + h }).chargeBytes l.ctx d h

/-- Add to an engine's counters of mover traffic (Table 3-6). -/
def State.countMove (s : State) (e r w : Nat) : State :=
  s.modEngine e fun x => { x with ctr := { x.ctr with moverRead := bump x.ctr.moverRead r, moverWrite := bump x.ctr.moverWrite w } }

/-- Where a move has stopped: on a segment at an address, or on a block that must be captured. -/
inductive MoveStop where
  | seg (i va acc : Nat)
  | capture (block : Nat)
deriving DecidableEq, Repr

/-- A move as it runs: its progress, its violations, and where it has stopped. -/
structure MoveRun where
  s : State
  m : MoveJob
  v : Viol := {}
  stop : Option MoveStop := none

/-- Row length of a move (R198). -/
def MoveJob.rowBytes (m : MoveJob) : Nat := (TDesc.ofBits (if m.kind = 0x41 then m.dst else m.src)).rowBytes

/-- First byte of a row of a descriptor with a byte offset added to ADDR. (DEDUCED: log 76) -/
def TDesc.rowFrom (d : TDesc) (off r : Nat) : Nat := (d.addr + off) % 2 ^ 64 + r * d.stride

/-- The source row of row `r` of a move: its index, or none for an MGATH index out of range (R203). (DEDUCED: log 76) -/
def State.moveIndex (s : State) (e c : Nat) (m : MoveJob) (r : Nat) : Option Nat :=
  if m.kind = 0x42 then
    let i := sext 32 (natLE (s.storeRead e c ((TDesc.ofBits m.idx).addr + 4 * r) 4).1)
    if i < 0 ∨ ((TDesc.ofBits m.src).dim1 : Int) ≤ i then none else some i.toNat
  else some r

/-- The bytes of a source row: those read, the violations, bytes from device and host memory, and a stop.
(DEDUCED: log 76) -/
def State.moveRead (s : State) (e : Nat) (l : Launch) (m : MoveJob) : ReadRes :=
  let n := m.rowBytes
  if m.kind = 0x41 then { bytes := (List.range n).map fun i => BitVec.ofNat 8 (m.pattern >>> (8 * (i % 8))) }
  else
    match s.moveIndex e l.ctx m m.row with
    | none => { bytes := List.replicate n 0, viol := ⟨1, (TDesc.ofBits m.idx).addr + 4 * m.row, 0, 1⟩ }
    | some i =>
      let d := TDesc.ofBits m.src
      let a := d.rowFrom m.sos i
      if d.space then s.readVa (s.whoLaunch l 0) m.refused a n
      else let r := s.storeRead e l.ctx a n; { bytes := r.1, viol := r.2 }

/-- One line of a destination row in memory. -/
def MoveRun.line (q : MoveRun) (e id : Nat) (l : Launch) (va : Nat) (bs : List Byte) : MoveRun :=
  match q.stop with
  | some _ => q
  | none =>
    let done (s : State) (v : Viol) : MoveRun := { q with s := s, v := v, m := { q.m with done := q.m.done + bs.length } }
    match q.s.access (q.s.whoLaunch l 1) va with
    | .viol code => done q.s (q.v.add 1 va 1 code)
    | .absent i => if q.m.refused.contains i then done q.s (q.v.add 1 va 1 1) else { q with stop := some (.seg i va 1) }
    | .waits i => { q with stop := some (.seg i va 1) }
    | .ok host a =>
      match q.s.needsCapture l va with
      | some b => { q with stop := some (.capture b) }
      | none =>
        let s := (q.s.physWrite host a bs).countMove e 0 bs.length
        done (s.chargeMoved id (if host then 0 else bs.length) (if host then bs.length else 0)) q.v

/-- One row of a move, from where it stands (R200, R205, R207, R210). (DEDUCED: log 76) -/
def MoveRun.row (q : MoveRun) (e id : Nat) : MoveRun :=
  match q.stop, tfind q.s.launches id with
  | some _, _ => q
  | none, none => q
  | none, some l =>
    let d := TDesc.ofBits q.m.dst
    let a := d.rowFrom q.m.sod q.m.row
    let r := q.s.moveRead e l q.m
    match r.stop with
    | some (i, va) => { q with stop := some (.seg i va 0) }
    | none =>
      let q := if q.m.counted then q else { q with v := q.v.join r.viol, m := { q.m with counted := true } }
      let q := { q with s := (q.s.chargeMoved id r.dev r.host).countMove e (r.dev + r.host) 0 }
      let next (q : MoveRun) : MoveRun := { q with m := { q.m with row := q.m.row + 1, done := 0, counted := false } }
      if d.space then
        let start := q.m.done
        let t := (lineList (a + start) (r.bytes.length - start)).foldl
          (fun (q : MoveRun) p => q.line e id l p.1 ((r.bytes.drop (p.1 - a)).take p.2)) q
        if t.stop.isSome then t else next t
      else
        let w := q.s.storeWrite id e l.ctx a r.bytes
        next { q with s := w.1, v := q.v.join w.2 }

/-- The violations of a move: one message and one fault for the instruction, every line counted (R208). -/
def State.settleMove (s : State) (id src : Nat) (m : MoveJob) (v : Viol) : State × MoveJob :=
  if v.lines = 0 then (s, m)
  else if m.reported then (s.modRegs id fun r => { r with violation := bump r.violation v.lines }, m)
  else (s.settle id src v, { m with reported := true })

/-- A segment has been refused to a launch: to the move that has stopped on it, or else to its code fetch or ENQ
(R455). -/
def Launch.refuse (l : Launch) (seg : Nat) : Launch :=
  let hit (f : InFlight) : Bool := match f.eff with | .move m => m.stopped == some seg | _ => false
  if l.x.inflight.any hit then
    { l with x := { l.x with inflight := l.x.inflight.map fun f =>
        match f.eff with
        | .move m => if m.stopped = some seg then { f with eff := .move { m with stopped := none, refused := seg :: m.refused } } else f
        | _ => f } }
  else { l with segRefused := seg :: l.segRefused }

/-- The launch has met a segment that is not present: it is to be pre-empted as at a check point, and a segment fault
is raised, or refused at once (Table 9-5, R456). -/
def State.launchSegStop (s : State) (id seg va acc : Nat) (src : Nat) : State :=
  match tfind s.launches id with
  | none => s
  | some l =>
    match s.raiseSegFault l.ctx seg va acc l.queue l.origin with
    | .waits s => s.setLaunch id { l with segStop := some seg, stop := if l.stop.isNone then some .preempt else l.stop }
    | .refused s => (s.setLaunch id (l.refuse seg)).launchFault id 6 src acc va

/-- A move in flight runs as far as it can; it lands when its last row is done. -/
def State.runMove (s : State) (id n e : Nat) (f : InFlight) (m : MoveJob) : State :=
  let src := engSrc e 6
  let first : Viol :=
    match tfind s.launches id with
    | none => {}
    | some l =>
      if m.kind = 0x42 && m.row = 0 && m.done = 0 && !m.counted then
        (s.storeRead e l.ctx (TDesc.ofBits m.idx).addr (4 * m.rows)).2
      else {}
  let q := (List.range (m.rows - m.row)).foldl (fun (q : MoveRun) _ => q.row e id) { s := s, m := m, v := first }
  let (s, m) := q.s.settleMove id src q.m q.v
  let keep (s : State) : State := s.modExec id fun x =>
    { x with inflight := lmod x.inflight n fun g =>
        { g with eff := .move { m with stopped := match q.stop with | some (.seg i _ _) => some i | _ => none } } }
  match q.stop with
  | none => s.landed id n src f
  | some (.seg i va acc) => (keep s).launchSegStop id i va acc src
  | some (.capture b) =>
    match tfind (keep s).launches id with
    | none => keep s
    | some l => (keep s).askCapture id l b

/-! ### ENQ and CRED at their completion points (R259 to R263, R715) -/

/-- ENQs, or CREDs, that the present unit has done. (DEDUCED: log 77) -/
def Launch.doneCount (l : Launch) (enq : Bool) : Nat :=
  (l.done.filter fun d => match d with | .enq _ => enq | .cred => !enq).length

/-- A recorded ENQ, or CRED, that a replay has still to pass: its place and the value it wrote. (DEDUCED: log 77) -/
def Launch.redoOf (l : Launch) (enq : Bool) : Option (Nat × DoneOnce) :=
  findIdxVal (fun d => match d with | .enq _ => enq | .cred => !enq) l.redo 0

/-- An ENQ has done what it does once: it is recorded, s[SS] is written, and it lands. -/
def State.enqDone (s : State) (id n e ss : Nat) (f : InFlight) (v : Nat) : State :=
  ((s.modLaunch id fun l => { l with done := l.done ++ [.enq v] }).modRegs id fun r => r.setS ss v).landed id n (queueSrc e 3) f

/-- ENQ at its completion point. -/
def State.runEnq (s : State) (id n e : Nat) (l : Launch) (f : InFlight) (off qi ss : Nat) : State :=
  let src := queueSrc e 3
  match l.redoOf true with
  | some (i, .enq v) => (s.modLaunch id fun l => { l with redo := l.redo.eraseIdx i }).enqDone id n e ss f v
  | _ =>
    if 4096 ≤ l.doneCount true then s.setLaunch id { l with recovery := true }
    else
      let r := s.storeRead e l.ctx off 16
      let qx := 8 * l.ctx + qi
      let q := s.queue qx
      let s := s.settle id src r.2
      if 2 ^ q.sizeLog2 < ahead32 q.head q.tail + 16 then s.enqDone id n e ss f 1
      else
        match s.writeLine ⟨l.ctx, 5, ⟨0, 0⟩, []⟩ l.segRefused (q.ringVa + q.tail % 2 ^ q.sizeLog2) r.1 with
        | .done t host =>
          ((t.chargeMoved id (if host then 0 else 16) (if host then 16 else 0)).ring qx ((q.tail + 16) % 2 ^ 32)).enqDone id n e ss f 0
        | .dropped code =>
          (s.settle id src ⟨1, q.ringVa + q.tail % 2 ^ q.sizeLog2, 5, code⟩).landed id n src f |>.modLaunch id fun l => { l with segRefused := [] }
        | .stopped seg => s.launchSegStop id seg (q.ringVa + q.tail % 2 ^ q.sizeLog2) 5 src

/-- CRED at its completion point: the spine has accepted the last byte of the partial, and the bank is EMPTY. -/
def State.runCred (s : State) (id n e : Nat) (l : Launch) (f : InFlight) (j bank : Nat) (dest : W64) (p : Partial) : State :=
  let land (s : State) : State :=
    ((s.modLaunch id fun l => { l with done := l.done ++ [.cred] }).modBank id j bank fun _ => emptyBank).landed id n
      (queueSrc e 0) f
  match l.redoOf false with
  | some (i, _) => land (s.modLaunch id fun l => { l with redo := l.redo.eraseIdx i })
  | none =>
    if 4096 ≤ l.doneCount false then s.setLaunch id { l with recovery := true }
    else (land s).sendPartial id dest p

/-! ### INSTRUCTION_COMPLETION_POINT -/

/-- Is another move in flight before this one on the same mover (R204)? -/
def Exec.moverBusy (x : Exec) (n dm : Nat) : Bool :=
  (x.inflight.take n).any fun f => match f.eff with | .move m => m.dm == dm | _ => false

/-- The n-th instruction in flight of a launch reaches its completion point, or goes as far as it can. A pass reaches
it when it commits (PASS_COMMIT). -/
def State.complete (s : State) (id n e : Nat) (l : Launch) (f : InFlight) : State :=
  let land (s : State) : State := s.landed id n (queueSrc e 0) f
  match f.eff with
  | .pass .. => s
  | .load j b both =>
    let up (w : Weight) : Weight := { w with loaded := true, loading := false }
    land (if both then (s.modBuf id j 0 up).modBuf id j 1 up else s.modBuf id j b up)
  | .window j b L => land (s.modBank id j b fun _ => { state := .windowed, L := L, wx := true })
  | .combine al bl ar br =>
    let left := (l.x.arr al).bank bl
    let right := (l.x.arr ar).bank br
    let r := left.combine right right.e
    land (((s.modBank id al bl fun _ => r.1).modBank id ar br fun _ => emptyBank).addSat id e r.2)
  | .drain j b => land (s.modBank id j b fun _ => emptyBank)
  | .send j b dest p => s.runCred id n e l f j b dest p
  | .enqueue off qi ss => s.runEnq id n e l f off qi ss
  | .move m => if l.x.moverBusy n m.dm then s else s.runMove id n e f m

/-- INSTRUCTION_COMPLETION_POINT (R159). -/
def execInstructionCompletionPoint (a : SlotId) (n : Nat) (s : State) : Host.Outcome State Fault Refusal :=
  .next (s.work <|
    match s.inSlot a with
    | none => s
    | some (id, l) =>
      if l.segStop.isSome || l.capWait.isSome || l.recovery || l.status == .starting then s
      else
        match l.x.inflight[n]? with
        | none => s
        | some f => s.complete id n a.engine l f)

end Sys2Proof.Machine
end

