-- ==== Sys2Proof/Machine/EngineLife.lean ====
section
/-! DEFINITION. The life of a launch in its slot (chapters 3, 5, 9, 15): code fetch, fold swaps, check points,
pre-emption, parking and waking, work packets, undo capture, recovery points, token deadlock, and replay. -/

namespace Sys2Proof.Machine

/-! ### Code fetch (R218) -/

/-- CODE_FETCH: the line that holds the program counter, when the sequencer needs it. (DESIGN CHOICE: log 5) -/
def execCodeFetch (a : SlotId) (s : State) : Host.Outcome State Fault Refusal :=
  .next (s.work <|
    match s.inSlot a with
    | none => s
    | some (id, l) =>
      let va := l.x.pc - l.x.pc % 64
      let src := queueSrc a.engine 3
      let put (s : State) (bs : List Byte) : State :=
        s.modLaunch id fun l => { l with x := { l.x with line := some (va, bs) }, segRefused := [] }
      if l.status ≠ .running || l.x.wordAt.isSome || l.x.held || l.qwait.isSome || l.segStop.isSome then s
      else
        let r := s.readVa (s.whoLaunch l 2) l.segRefused va 64
        match r.stop with
        | none => (put (s.chargeMoved id r.dev r.host) r.bytes).settle id src r.viol
        | some (seg, at_) => s.launchSegStop id seg at_ 2 src)

/-! ### Folding (R111) -/

/-- No pass, load or drain is in flight on a logical array. -/
def Exec.arrayQuiet (x : Exec) (j : Nat) : Bool :=
  x.inflight.all fun f =>
    match f.eff with
    | .pass a .. | .load a .. | .window a .. | .drain a _ | .send a .. => a != j
    | .combine al _ ar _ => al != j && ar != j
    | _ => true

/-- FOLD_SWAP: a logical array becomes resident in its physical array, in place of the one that is. (DEDUCED: log 78) -/
def execFoldSwap (a : SlotId) (arr : Nat) (s : State) : Host.Outcome State Fault Refusal :=
  .next (s.work <|
    match s.inSlot a with
    | none => s
    | some (id, l) =>
      let mate (j : Nat) : Bool := l.phys j == l.phys arr
      let mates := (List.range l.x.arrs.length).filter mate
      if l.x.arrs.length ≤ arr || (l.x.arr arr).resident || !mates.all l.x.arrayQuiet then s
      else s.modExec id fun x =>
        { x with arrs := x.arrs.zipIdx.map fun p => if mate p.2 then { p.1 with resident := p.2 == arr } else p.1 })

/-! ### Check points and pre-emption (R125, R492, R493, R866) -/

/-- Scheduler counter `i` of a partition (Table 10-4): 0 switches, 1 evictions, 2 pre-emptions, 3 hold faults, 4
inherits. -/
def State.schedCount (s : State) (p i : Nat) : State :=
  { s with schedCtr := tput s.schedCtr p (lmod (tget [0, 0, 0, 0, 0] s.schedCtr p) i (bump · 1)) }

/-- The lowest free place of an engine's park store, which holds 21 images (R144). -/
def State.freePark (s : State) (e : Nat) : Option Nat :=
  (List.range 21).find? fun n => (tfind (s.engine e).parks n).isNone

/-- Queue slot of a queue whose context is resident (R476). -/
def State.queueSlot (s : State) (qi : Nat) : Nat := 8 * ((s.ctx (qi / 8)).sched.rslot.getD 0) + qi % 8

/-- A launch leaves its slot with its image in a place of the park store, where there is one. -/
def State.storeImage (s : State) (id : Nat) (l : Launch) (place : Nat → Option Nat → Place) : State :=
  match l.place with
  | .slot e _ =>
    let park := s.freePark e
    let s := (s.freeFold l).freeSlot l
    let s := match park with
      | none => s
      | some n => s.modEngine e fun x => { x with parks := tput x.parks n ⟨s.tag l.ctx, s.queueSlot l.queue, 1, id⟩ }
    s.modLaunch id fun l =>
      { l with place := place e park, stop := none, bound := [], fold := none, x := { l.x with line := none } }
  | _ => s

/-- A launch has been pre-empted: its arrays and slot are released (R113, R493). -/
def State.preempted (s : State) (id : Nat) : State :=
  let s := s.chargeLaunch id
  match tfind s.launches id with
  | none => s
  | some l =>
    let s := s.modCtx l.ctx fun x => { x with acct := { x.acct with preemptCount := bump x.acct.preemptCount 1 } }
    let s := s.schedCount (s.ctx l.ctx).part 2
    s.storeImage id l fun e park =>
      match park with
      | some n => if l.qwait.isSome then .parked e n else .preempted e park
      | none => .preempted e none

/-- Only moves and ENQs are in flight: everything else has reached its completion point (R214, R205). -/
def Exec.settled (x : Exec) : Bool :=
  x.inflight.all fun f => match f.eff with | .move _ => true | .enqueue .. => true | _ => false

/-- CHECK_POINT (R125, R368, R500). -/
def execCheckPoint (a : SlotId) (s : State) : Host.Outcome State Fault Refusal :=
  .next (s.work <|
    match s.inSlot a with
    | none => s
    | some (id, l) =>
      let s := if l.issued then s.progress l.ctx else s
      let s := s.modLaunch id fun l => { l with issued := false }
      match l.stop with
      | none => s
      | some .failed => s
      | some .preempt =>
        if l.x.arrs.isEmpty && l.x.settled then s.preempted id
        else s.modLaunch id fun l => { l with status := .stopping }
      | some _ => s.endLaunch id)

/-- ARRAY_IMAGE_WRITTEN: a stopping launch whose passes have committed releases its arrays and its slot (R866). -/
def execArrayImageWritten (a : SlotId) (s : State) : Host.Outcome State Fault Refusal :=
  .next (s.work <|
    match s.inSlot a with
    | none => s
    | some (id, l) => if l.status = .stopping ∧ l.x.settled then s.preempted id else s)

/-! ### Parking, waking, work packets (R143 to R149, R268 to R270) -/

/-- A packet, or the end of its wait, is there for a launch that waits on its queue. -/
def State.canWake (s : State) (l : Launch) : Bool := l.stopWait || (s.nextPacket l.queue).isSome

/-- PARK: a launch that has waited 10 µs on its queue gives up its slot, when a place is free (R144, R147). -/
def execPark (a : SlotId) (s : State) : Host.Outcome State Fault Refusal :=
  .next (s.work <|
    match s.inSlot a with
    | none => s
    | some (id, l) =>
      match s.freePark a.engine with
      | none => s
      | some n =>
        if l.status ≠ .waiting || s.canWake l then s
        else
          let s := (s.chargeLaunch id).modEngine a.engine fun x => { x with ctr := { x.ctr with park := bump x.ctr.park 1 } }
          match tfind s.launches id with
          | none => s
          | some l => s.storeImage id l fun e _ => .parked e n)

/-- The lowest free launch slot of an engine (R104). -/
def State.freeSlotOf (s : State) (e : Nat) : Option Nat :=
  (List.range 4).find? fun n => (tfind (s.engine e).slots n).isNone

/-- WAKE: a parked launch goes to a slot when its packet is visible, a slot is free and its arrays can be bound, and
its QWAIT returns (R148). -/
def execWake (e place : Nat) (s : State) : Host.Outcome State Fault Refusal :=
  .next (s.work <|
    match tfind (s.engine e).parks place, s.freeSlotOf e with
    | some p, some n =>
      match tfind s.launches p.launch with
      | none => s
      | some l =>
        let x := s.ctx l.ctx
        if l.place ≠ .parked e place || !s.canWake l || (s.bindFor e l.desc.arrays).isNone || x.state ≠ .live
            || x.sched.rslot.isNone || x.sched.switchingOut || x.lostHold || !s.engineWorks e then s
        else
          let s := s.modEngine e fun y =>
            { y with parks := tdel y.parks place, slots := tput y.slots n p.launch, ctr := { y.ctr with wake := bump y.ctr.wake 1 } }
          (s.setLaunch p.launch { l with place := .slot e n, status := .waiting, chargedAt := s.now, startSeq := s.nextId }).deliver
            p.launch
    | _, _ => s)

/-- WORK_PACKET_DELIVER (R268, R270): the oldest work packet of a queue goes to its bound launch, which waits in its
slot. (DEDUCED: log 63) -/
def execWorkPacketDeliver (q : Nat) (s : State) : Host.Outcome State Fault Refusal :=
  .next (s.work <|
    match (s.queue q).bound with
    | none => s
    | some id => s.deliver id)

/-! ### Scrubs (R136 to R139) -/

/-- A launch in a slot that waited for a scrub or a restore of its allotment may issue when none is left (R137). -/
def State.startReady (s : State) (id : Nat) : State :=
  match tfind s.launches id with
  | none => s
  | some l =>
    match l.place with
    | .slot e _ =>
      let restoring := (s.ctx l.ctx).sched.saved.any fun r => r.into == some e
      let busy := restoring || match s.allotOf e l.ctx with
        | none => false
        | some (_, a) => a.state != .live || (s.engine e).scrubbing a.base a.size
      if l.status = .starting ∧ !busy then s.setLaunch id { l with status := if l.qwait.isSome then .waiting else .running } else s
    | _ => s

/-- SCRUB_COMPLETE: the n-th scrub of an engine finishes, and launches that waited for it start. (DEDUCED: log 78) -/
def execScrubComplete (e n : Nat) (s : State) : Host.Outcome State Fault Refusal :=
  .next (s.work <|
    let x := s.engine e
    match x.scrubs[n]? with
    | none => s
    | some r =>
      let s := s.setEngine e { x with scrubs := x.scrubs.eraseIdx n, store := mzero x.store (r.base * unitBytes) (r.units * unitBytes),
                                       ctr := { x.ctr with scrubBytes := bump x.ctr.scrubBytes (r.units * unitBytes) } }
      ((s.engine e).slots.map (·.2)).foldl State.startReady s)

/-! ### Token deadlock (R225, R370) -/

/-- A slot is in token deadlock: nothing is in flight, the head of every non-empty queue waits on a counter that holds
zero, and the sequencer can issue nothing. -/
def Launch.deadlocked (l : Launch) : Bool :=
  let heads := [l.x.tq, l.x.vq, l.x.mq, l.x.sq].filterMap (·.head?)
  l.status == .running && l.semWait.isNone && l.qwait.isNone && l.x.inflight.isEmpty && !heads.isEmpty
    && heads.all (fun h => !l.x.waitOk h.word) && l.x.issuable.isNone && (l.x.held || l.x.wordAt.isSome)

/-- TOKEN_DEADLOCK: the launch faults, and is stopped at once as an abort stops it.
(DESIGN CHOICE: log 7; DEDUCED: log 69) -/
def execTokenDeadlock (a : SlotId) (s : State) : Host.Outcome State Fault Refusal :=
  .next (s.work <|
    match s.inSlot a with
    | none => s
    | some (id, l) => if l.deadlocked then (s.launchFault id 4 (engSrc a.engine 6) 15 0).endLaunch id else s)

/-! ### Undo capture and recovery points (R460 to R462) -/

/-- Where a 64 KiB virtual block of a context lies now; the hub's own accesses to it are not checked (Table 9-3). -/
def State.blockPhys (s : State) (c block : Nat) : Option (Bool × Nat) :=
  ((s.ctx (s.tableOwner c)).findSeg (block * 65536)).map fun g => (g.2.host, g.2.pbase + (block - g.2.vpage) * 65536)

/-- An undo directory entry (Table 9-8). -/
def State.undoEntry (s : State) (l : Launch) (block : Nat) : Nat :=
  let tag := match l.cmd with
    | none => 0
    | some k => ((findIdxVal (fun e : Nat × Cmd => e.1 == k) (s.startedCmds l.queue) 0).map (·.1)).getD 0
  2 ^ 63 + l.queue % 8 * 2 ^ 60 + tag % 64 * 2 ^ 54 + block % 2 ^ 32 * 65536

/-- UNDO_CAPTURE_COMPLETE: the block has been copied to a free slot, and the write goes on. -/
def execUndoCaptureComplete (a : SlotId) (block : Nat) (s : State) : Host.Outcome State Fault Refusal :=
  .next (s.work <|
    match s.inSlot a with
    | none => s
    | some (id, l) =>
      if l.capWait ≠ some block ∨ l.recovery then s
      else
        match s.undoFree l.ctx, s.blockPhys l.ctx block with
        | some slot, some (host, at_) =>
          let u := (s.ctx l.ctx).undo
          let bytes := s.physRead host at_ 65536
          let mem := mwriteN (mwriteN s.mem (u.base + 65536 * (slot + 1)) bytes) (u.base + 8 * slot) (bytesLE 8 (s.undoEntry l block))
          let s := { s with mem := mem }
          let s := s.modCtx l.ctx fun x => { x with undo := { x.undo with captures := bump x.undo.captures 1 } }
          s.setLaunch id { l with capWait := none, captures := l.captures ++ [⟨block, some slot⟩] }
        | none, some _ => s.setLaunch id { l with recovery := true }
        | _, none => s.setLaunch id { l with capWait := none })

/-- RECOVERY_POINT: the launch's state becomes the start of a new replay unit, and its captures are released. A block
that no slot can hold even then is written without capture. (DEDUCED: log 77) -/
def execRecoveryPoint (a : SlotId) (s : State) : Host.Outcome State Fault Refusal :=
  .next (s.work <|
    match s.inSlot a with
    | none => s
    | some (id, l) =>
      let settled := l.x.inflight.all fun f => match f.eff with | .move _ => true | .enqueue .. => true | .send .. => true | _ => false
      if !l.recovery || !settled then s
      else
        let s := s.chargeLaunch id
        let s := { s.clearCaptures l with fe := { s.fe with undoRecovery := bump s.fe.undoRecovery 1 } }
        let s := s.modLaunch id fun l =>
          { l with recovery := false, captures := [], allotCaps := [], done := [], unit := l.x, unitSems := l.sems, chMem := 0,
                   chHost := 0, chTime := 0 }
        match l.capWait, s.undoFree l.ctx with
        | some b, none => s.modLaunch id fun l => { l with capWait := none, captures := [⟨b, none⟩] }
        | _, _ => s)

/-! ### Replay (R710 to R718) -/

/-- A failed unit of a launch has been stopped: it leaves its slot, its effects in flight are discarded, and its
restores begin (Table 15-3 step 1). Work of a context that is not LIVE is never replayed (R378). (DEDUCED: log 77) -/
def State.startReplay (s : State) (id : Nat) : State :=
  let s := s.chargeLaunch id
  match tfind s.launches id with
  | none => s
  | some l =>
    match l.place with
    | .slot e _ =>
      if (s.ctx l.ctx).state ≠ .live then s.endLaunch id
      else
        let s := ((s.semLeave id).freeFold l).freeSlot l
        let stay := s.engineWorks e && l.avoid != some e
        let s := { s with sage := { s.sage with replays := bump s.sage.replays 1 } }
        s.modLaunch id fun l =>
          { l with place := if stay then .preempted e none else .waiting, stop := none, bound := [], fold := none, restoring := true,
                   segStop := none, segRefused := [], capWait := none, recovery := false, semWait := none, qwait := none,
                   owedMem := l.owedMem + l.chMem, owedHost := l.owedHost + l.chHost, owedTime := l.owedTime + l.chTime,
                   chMem := 0, chHost := 0, chTime := 0, x := { l.x with inflight := [] } }
    | _ => s

/-- REPLAY (Table 15-3 step 1). (DEDUCED: log 77) -/
def execReplay (a : SlotId) (s : State) : Host.Outcome State Fault Refusal :=
  .next (s.work <|
    match s.inSlot a with
    | none => s
    | some (id, l) => if l.stop = some .failed then s.startReplay id else s)

/-- A captured block of memory is copied back from its undo slot (Table 15-3 step 2). -/
def State.restoreBlock (s : State) (c : Nat) (k : Capture) : State :=
  match k.slot, s.blockPhys c k.block with
  | some slot, some (host, at_) => s.physWrite host at_ (mreadN s.mem ((s.ctx c).undo.base + 65536 * (slot + 1)) 65536)
  | _, _ => s

/-- Bytes of a block put back, at a base. -/
def putBlock (m : Mem) (base : Nat) (k : AllotCap) : Mem :=
  k.cells.foldl (fun m p => mwrite m (base + p.1) p.2) (mzero m (base + 65536 * k.block) 65536)

/-- The captured blocks of the allotment are put back, in the store of a working engine or in the save record that
holds the allotment of a retired one (R712, R713). -/
def State.restoreAllot (s : State) (id : Nat) (l : Launch) : State :=
  match l.place with
  | .preempted e _ =>
    let base := (s.allotSpan e l.ctx).1
    s.modEngine e fun x => { x with store := l.allotCaps.foldl (fun m k => putBlock m base k) x.store }
  | _ =>
    let put (r : SaveRec) : SaveRec :=
      if r.launches.contains id then { r with cells := l.allotCaps.foldl (fun m k => putBlock m 0 k) r.cells } else r
    s.modCtx l.ctx fun y => { y with sched := { y.sched with saved := y.sched.saved.map put } }

/-- REPLAY_RESTORE_COMPLETE (Table 15-3 steps 2 and 3): memory and allotment are what they were at the start of the
unit, the semaphores the launch held are released, and the unit waits to be placed first. (DEDUCED: log 77) -/
def execReplayRestoreComplete (id : Nat) (s : State) : Host.Outcome State Fault Refusal :=
  .next (s.work <|
    match tfind s.launches id with
    | none => s
    | some l =>
      if !l.restoring then s
      else
        let s := l.captures.foldl (fun s k => s.restoreBlock l.ctx k) s
        let s := s.restoreAllot id l
        let s := l.sems.foldl (fun s i => (s.semRelease (s.launchSem l i)).semPass (s.launchSem l i)) s
        s.modLaunch id fun l =>
          { l with restoring := false, replayed := true, x := l.unit, sems := [], semLost := l.unitSems, redo := l.done,
                   done := [], status := .running, issued := false })

end Sys2Proof.Machine
end

