-- ==== Sys2Proof/Machine/Queues.lean ====
section
/-! DEFINITION. The Q profile (chapter 8): doorbells, fetch, every command of Table 8-6, and the peer signal page. -/

namespace Sys2Proof.Machine

/-! ### Doorbells and fetch -/

/-- Firmware runs (Table 19-6); until then the regions of R852 read zero and ignore writes. (DEDUCED: log 16) -/
def State.fwRuns (s : State) : Bool := s.boot.fwState == 3

/-- Does a function decode its BARs (R664, R687, R691, R852)? (DEDUCED: log 16) -/
def State.decodes (s : State) (fn : Fn) : Bool :=
  s.up && !s.ep.down &&
    match fn with
    | .pf => !s.ep.d3hot
    | .vf v => s.fwRuns && s.ep.vfEnable && decide (v < s.ep.numVfs) && !(s.vf v).d3hot && !(s.vf v).resetting

/-- Does the doorbell page of a function act for a queue (R387)? -/
def State.pageActs (s : State) (fn : Fn) (qi : Nat) : Bool :=
  let x := s.ctx (qi / 8)
  decide (qi < 32768) && x.state != .free && (s.queue qi).state != 0 &&
    match fn with
    | .pf => true
    | .vf v => x.vf == v

/-- DOORBELL (R387 to R390). -/
def execDoorbell (fn : Fn) (q width : Nat) (v : BitVec 64) (s : State) : Host.Outcome State Fault Refusal :=
  .next (if !s.decodes fn then s
    else if width ≠ 8 ∨ !s.pageActs fn q then s.ringIgnored
    else s.doorbellValue q (v.toNat % 2 ^ 32))

/-- RING_LINE_RETURN (R393, R395). (DEDUCED: log 60) -/
def execRingLineReturn (q : Nat) (s : State) : Host.Outcome State Fault Refusal := .next (s.work (s.ringLine q))

/-- TAIL_REREAD (R393). -/
def execTailReread (q : Nat) (s : State) : Host.Outcome State Fault Refusal := .next (s.work (s.tailReread q))

/-! ### Commands that act at once -/

/-- The row of one opcode. -/
def isQ (op w : Nat) : Bool := w % 256 == op

/-- NOP (Table 8-6). -/
def execQNop (q : Nat) (s : State) : Host.Outcome State Fault Refusal :=
  .next (s.work (s.qRow q (isQ 1) false fun s id _ => s.finishCmd id))

/-- SIGNAL (R399, R404): its fence is its HANDLE, signalled when it completes. -/
def execSignal (q : Nat) (s : State) : Host.Outcome State Fault Refusal :=
  .next (s.work (s.qRow q (isQ 5) true fun s id _ => s.finishCmd id))

/-- BARRIER (R399). -/
def execBarrier (q : Nat) (s : State) : Host.Outcome State Fault Refusal :=
  .next (s.work (s.qRow q (isQ 9) true fun s id _ => s.finishCmd id))

/-- TIMESTAMP (R399, R409). -/
def execTimestamp (q : Nat) (s : State) : Host.Outcome State Fault Refusal :=
  .next (s.work (s.qRow q (isQ 0x0D) true fun s id m => s.cmdWrite id m m.arg (bytesLE 8 s.now) fun s => s.finishCmd id))

/-- Q_UNDEFINED_OPCODE (R397). (DEDUCED: log 61) -/
def execQUndefinedOpcode (q : Nat) (s : State) : Host.Outcome State Fault Refusal :=
  .next (s.work (s.qRow q (fun w => w % 256 == 0 || decide (0x0D < w % 256)) false fun s id _ => s.badCmd id))

/-! ### WAIT (R357, R358, R399, R403) -/

/-- A WAIT has ended with a code: its command retires, and an error halts the queue (R403). -/
def State.waitEnds (s : State) (qi id code : Nat) : State :=
  let s := s.finishCmd id
  let q := { s.queue qi with blocked := none }
  if code = 0 then s.setQueue qi q
  else
    let s := s.setQueue qi { q with state := 2, haltCode := code }
    let x := s.ctx (qi / 8)
    (s.notify x.vf 3 (mkHandle 2 q.gen qi) code).raise (.vf x.vf) 4

/-- WAIT: on an unsignalled fence it blocks the queue; a wait on a handle that is not valid completes at once (R334). -/
def State.actWait (s : State) (id : Nat) (m : Cmd) : State :=
  let f := s.fence (hIndex m.handle)
  if !s.fenceValid m.ctx m.handle (m.at_ id) then (s.cmdFault id 2 15 m.handle.toNat).finishCmd id
  else if f.state = 1 then (s.setQueue m.queue { s.queue m.queue with blocked := some (m.handle, s.now) }).acted id
  else s.waitEnds m.queue id (if f.state = 3 then f.error else 0)

def execWaitFence (q : Nat) (s : State) : Host.Outcome State Fault Refusal :=
  .next (s.work (s.qRow q (isQ 4) false fun s id m => s.actWait id m))

/-- The fence a queue waits on has been signalled, or is gone: the WAIT completes. A queue of a context without queue
slots then has work that can start, and its bit of the pending map is set (R867). -/
def State.waitDone (s : State) (qi : Nat) : State :=
  match (s.queue qi).blocked, (s.startedCmds qi).find? fun e => e.2.op = 4 with
  | some (h, _), some (id, _) =>
    let f := s.fence (hIndex h)
    if hGen h = f.gen ∧ f.state = 1 then s
    else
      let s := s.waitEnds qi id (if hGen h = f.gen ∧ f.state = 3 then f.error else 0)
      let q := s.queue qi
      if (s.ctx (qi / 8)).sched.rslot.isNone ∧ q.state = 1 ∧ q.tail ≠ q.head then s.setQueue qi { q with pendingBit := true }
      else s
  | _, _ => s

/-- WAIT_COMPLETE (R403). -/
def execWaitComplete (q : Nat) (s : State) : Host.Outcome State Fault Refusal := .next (s.work (s.waitDone q))

/-! ### SIGNAL_REMOTE (R420 to R425) -/

/-- Hub ID of a remote fence reference (R335). -/
def refHub (r : Nat) : Nat := fld r 63 48

/-- Does a reference name this hub (R421)? -/
def State.refHere (s : State) (r : Nat) : Bool := refHub r == 0xFFFF || (s.fab.idValid && refHub r == s.fab.hubId)

/-- A reference to this hub is signalled under R333, for the signalling context. -/
def State.signalHere (s : State) (id : Nat) (m : Cmd) (r : Nat) : State :=
  let h := BitVec.ofNat 32 r
  (if s.fenceValid m.ctx h (m.at_ id) then s.sendSignal h 0 else s.cmdFault id 2 15 (r % 2 ^ 32)).finishCmd id

/-- The check of a reference that another hub sends (R335). -/
def State.refAccepted (s : State) (r : Nat) : Bool :=
  let h := BitVec.ofNat 32 r
  let f := s.fence (hIndex h)
  hType h == 4 && f.state != 0 && f.exportScope == 2 && f.key.toNat == fld r 47 32 && hGen h == f.gen

/-- A remote signal that this hub refuses (R336). -/
def State.refuseRemote (s : State) (tag : BitVec 16) (r : Nat) : State :=
  ({ s with fe := { s.fe with remoteRefused := bump s.fe.remoteRefused 1 } }).sageSend 0x281 0x81 tag 15 (r % 2 ^ 32)

/-- PATH 0: the reference goes to its hub, and the command waits for the answer (R422, R423). -/
def State.actRemoteFabric (s : State) (id : Nat) (m : Cmd) : State :=
  let hub := refHub m.arg
  if s.refHere m.arg then s.signalHere id m m.arg
  else if !s.reachable hub then (s.cmdFault id 7 15 m.arg).finishCmd id
  else
    let msg := { s.ofp 1 hub (s.tag m.ctx) with f10 := BitVec.ofNat 64 m.arg }
    (s.setCmd id { m with acted := true }).e2eSend { dst := hub, seq := 0, msg := msg, cmd := some id }

def execSignalRemoteFabric (q : Nat) (s : State) : Host.Outcome State Fault Refusal :=
  .next (s.work (s.qRow q (fun w => isQ 6 w && (fld w 9 8 == 0 || fld w 9 8 == 3)) true fun s id m => s.actRemoteFabric id m))

/-- PATH 1: a record is posted to the peer's signal page, and its result word, read back, decides (R425). -/
def State.actRemotePeer (s : State) (id : Nat) (m : Cmd) (result : Nat) : State :=
  let hub := refHub m.arg
  if s.refHere m.arg then s.signalHere id m m.arg
  else
    match (List.range 16).find? fun i => (tget {} s.peers i).valid && (tget {} s.peers i).hubId.toNat == hub with
    | none => (s.cmdFault id 7 15 m.arg).finishCmd id
    | some i =>
      let p := tget {} s.peers i
      let seq := (p.sentSeq + 1) % 2 ^ 32
      let s := { s with peers := tput s.peers i { p with sentSeq := seq },
                        out := s.out ++ [Out.peerWrite p.addr (bytesLE 8 m.arg ++ bytesLE 8 (s.myHub * 2 ^ 48 + seq))] }
      (if fld result 63 32 = seq ∧ fld result 1 0 = 1 then s else s.cmdFault id 2 15 (m.arg % 2 ^ 32)).finishCmd id

def execSignalRemotePeer (q : Nat) (result : BitVec 64) (s : State) : Host.Outcome State Fault Refusal :=
  .next (s.work (s.qRow q (fun w => isQ 6 w && fld w 9 8 == 1) true fun s id m => s.actRemotePeer id m result.toNat))

/-- PATH 2: a 4-byte write of HANDLE (R420). -/
def execSignalRemoteWrite (q : Nat) (s : State) : Host.Outcome State Fault Refusal :=
  .next (s.work (s.qRow q (fun w => isQ 6 w && fld w 9 8 == 2) true fun s id m =>
    s.cmdWrite id m m.arg (bytesLE 4 m.handle.toNat) fun s => s.finishCmd id))

/-- PEER_SIGNAL_RECORD (R426): a record on the signal page of this hub. -/
def State.peerRecord (s : State) (reference record : Nat) : State :=
  match (List.range 16).find? fun i => (tget {} s.peers i).valid && (tget {} s.peers i).hubId.toNat == fld record 63 48 with
  | none => { s with fe := { s.fe with remoteRefused := bump s.fe.remoteRefused 1 } }
  | some i =>
    let ok := s.refAccepted reference
    let s := if ok then s.sendSignal (BitVec.ofNat 32 reference) 0 else s.refuseRemote 0 reference
    { s with peers := tput s.peers i { tget {} s.peers i with resultSeq := record % 2 ^ 32, result := if ok then 1 else 2 } }

def execPeerSignalRecord (reference record : BitVec 64) (s : State) : Host.Outcome State Fault Refusal :=
  .next (if s.decodes .pf && s.fwRuns then s.peerRecord reference.toNat record.toNat else s)

/-! ### COPY and FILL (R405, R406) -/

/-- Is an object being zeroed (R352)? (DEDUCED: log 55) -/
def State.zeroing (s : State) (h : BitVec 32) : Bool :=
  let o := s.obj (hIndex h)
  hType h == 3 && hGen h == o.gen && o.state == 1

/-- Does a valid segment of a context that meets a test name an object that is being zeroed? (DEDUCED: log 55) -/
def State.namesZeroing (s : State) (c : Nat) (test : Nat → Seg → Bool) : Bool :=
  let x := s.ctx (s.tableOwner c)
  (List.range 16).any fun i => let g := x.seg i; g.pages != 0 && test i g && s.zeroing g.object

/-- Does a segment overlap a byte range? -/
def Seg.overlaps (g : Seg) (va n : Nat) : Bool := g.vpage * 65536 < va + n && va < (g.vpage + g.pages) * 65536

/-- The block of a COPY or FILL (Table 8-7); none when a reserved bit is set. -/
def copyBlock (isFill : Bool) (b : List Byte) : Option CopyJob :=
  let w0 := leAt b 0 8
  let w1 := leAt b 8 8
  let w3 := leAt b 24 8
  if isFill then
    if 2 ^ 48 ≤ w0 ∨ w1 ≠ 0 then none
    else some { isFill := true, src := 0, dst := w0, len := leAt b 16 8, pattern := w3 }
  else if 2 ^ 48 ≤ w0 ∨ 2 ^ 48 ≤ w1 ∨ w3 ≠ 0 then none
  else some { isFill := false, src := w0, dst := w1, len := leAt b 16 8, pattern := 0 }

/-- COPY or FILL starts: its block is read and checked; a length of zero completes at once (R24). -/
def State.actCopy (s : State) (id : Nat) (m : Cmd) : State :=
  s.cmdRead id m.arg 32 fun s b =>
    match copyBlock (m.op = 8) b, tfind s.cmds id with
    | some j, some m =>
      if s.namesZeroing m.ctx fun _ g => g.overlaps j.dst j.len || (!j.isFill && g.overlaps j.src j.len) then s
      else if j.len = 0 then s.finishCmd id
      else s.setCmd id { m with copy := some j, acted := true }
    | _, _ => s.badCmd id

/-- COPY (R406). -/
def execCopy (q : Nat) (s : State) : Host.Outcome State Fault Refusal :=
  .next (s.work (s.qRow q (isQ 7) false fun s id m => s.actCopy id m))

/-- FILL (R405). -/
def execFill (q : Nat) (s : State) : Host.Outcome State Fault Refusal :=
  .next (s.work (s.qRow q (isQ 8) false fun s id m => s.actCopy id m))

/-- A COPY or FILL as it runs: its violations, and the segment it has stopped on with the address and access. -/
structure CopyRun where
  s : State
  j : CopyJob
  v : Viol := {}
  stop : Option (Nat × Nat × Nat) := none

/-- Bytes of the present block, and bytes of it already written. -/
def CopyJob.blockLen (j : CopyJob) : Nat := min 65536 (j.len - j.done / 65536 * 65536)

/-- The rest of the present block is read, line by line. -/
def CopyRun.readBlock (r : CopyRun) (w : Who) (refused : List Nat) : CopyRun :=
  let j := r.j
  let at_ := j.done / 65536 * 65536
  if j.isFill then
    let bs := (List.range j.blockLen).map fun i => BitVec.ofNat 8 (j.pattern >>> (8 * ((at_ + i) % 8)))
    { r with j := { j with buf := bs, reading := false } }
  else
    let q := r.s.readVa w refused (j.src + at_ + j.buf.length) (j.blockLen - j.buf.length)
    let v := r.v.join q.viol
    let j := { j with buf := j.buf ++ q.bytes, reading := q.stop.isSome }
    { r with s := r.s.chargeBytes w.ctx q.dev q.host, j := j, v := v, stop := q.stop.map fun p => (p.1, p.2, 4) }

/-- One line of the block is written; `job` for a COPY step of a static schedule. -/
def CopyRun.writeOne (r : CopyRun) (w : Who) (refused : List Nat) (job : Bool) (va : Nat) (bs : List Byte) : CopyRun :=
  match r.stop with
  | some _ => r
  | none =>
    let on (s : State) (v : Viol) : CopyRun := { r with s := s, v := v, j := { r.j with done := r.j.done + bs.length } }
    match (if job then r.s.writeJob w refused va bs else r.s.writeLine w refused va bs) with
    | .done t host => on (t.chargeBytes w.ctx (if host then 0 else bs.length) (if host then bs.length else 0)) r.v
    | .dropped code => on r.s (r.v.add 1 va 5 code)
    | .stopped seg => { r with stop := some (seg, va, 5) }

/-- The rest of the present block is written, and the next block comes. -/
def CopyRun.writeBlock (r : CopyRun) (w : Who) (refused : List Nat) (job : Bool) : CopyRun :=
  let start := r.j.done % 65536
  let rest := r.j.buf.drop start
  let base := r.j.dst + r.j.done
  let r := (lineList base rest.length).foldl (fun r p => r.writeOne w refused job p.1 ((rest.drop (p.1 - base)).take p.2)) r
  if r.stop.isSome then r else { r with j := { r.j with buf := [], reading := true } }

/-- One block, from where it stands. -/
def CopyRun.block (r : CopyRun) (rd wr : Who) (refused : List Nat) (job : Bool) : CopyRun :=
  if r.stop.isSome ∨ r.j.len ≤ r.j.done then r
  else
    let r := if r.j.reading then r.readBlock rd refused else r
    if r.stop.isSome then r else r.writeBlock wr refused job

/-- A COPY or FILL runs to its end, or to a segment that is not present. Its violations make one message and one fault
(R208). `fuel` bounds the segments refused at once. -/
def State.runCopy : Nat → State → Nat → State
  | 0, s, _ => s
  | fuel + 1, s, id =>
    match tfind s.cmds id with
    | none => s
    | some m =>
      match m.copy with
      | none => s
      | some j =>
        let blocks := ceilDiv j.len 65536 - j.done / 65536
        let r := (List.range blocks).foldl (fun (r : CopyRun) _ => r.block (s.whoCmd m id 4) (s.whoCmd m id 5) m.refusedSegs false)
          { s := s, j := j }
        let tell := r.v.lines ≠ 0 ∧ !r.j.reported
        let j := { r.j with reported := r.j.reported || r.v.lines ≠ 0 }
        let s := r.s.setCmd id { m with copy := some j }
        let s := if tell then s.cmdViol id r.v else s
        match r.stop with
        | none => s.finishCmd id
        | some (seg, va, acc) => s.cmdStall id seg va acc fun s => State.runCopy fuel s id

/-- COPY_COMPLETE (R406). A COPY in a partition between a point of no return and its switch waits (R308). -/
def execCopyComplete (cmd : Nat) (s : State) : Host.Outcome State Fault Refusal :=
  .next (s.work <|
    match tfind s.cmds cmd with
    | none => s
    | some m =>
      let x := s.ctx m.ctx
      if m.stalled.isSome || x.lostHold || s.paused x.part then s else s.runCopy 33 cmd)

/-! ### JUMP and CALL_RING (R407, R408) -/

/-- The queue after packets at its front have been skipped or none are left. -/
def Queue.settleFetch (q : Queue) : Queue :=
  if !q.decoded.isEmpty then { q with fetch := .fetching }
  else if q.head = q.seenTail then { q with fetch := .reread }
  else { q with fetch := .fetching }

/-- JUMP: inside a called buffer it skips packets of the buffer; in the ring it moves HEAD on. -/
def State.actJump (s : State) (id : Nat) (m : Cmd) : State :=
  let q := s.queue m.queue
  let n := m.arg
  if fld m.origin 57 56 = 1 then
    let left := (q.decoded.filter fun p => p.off.isSome).length * 16
    if left < n then s.badCmd id
    else
      ((s.setQueue m.queue ({ q with decoded := q.decoded.drop (n / 16) }).settleFetch).finishCmd id).closeCall m.queue
  else if ahead32 q.head q.tail < n then s.badCmd id
  else
    let past := decide (ahead32 q.head q.seenTail < n)
    let q := { q with head := (q.head + n) % 2 ^ 32, decoded := q.decoded.drop (n / 16),
                      seenTail := if past then q.tail else q.seenTail, dbPending := q.dbPending && !past }
    (s.setQueue m.queue q.settleFetch).finishCmd id

def execJump (q : Nat) (s : State) : Host.Outcome State Fault Refusal :=
  .next (s.work (s.qRow q (isQ 0x0A) false fun s id m => s.actJump id m))

/-- The bytes of a called buffer, read as ring bytes are (R382, R408): the buffer, or the first segment and address
that is not present and not refused. (DEDUCED: log 60) -/
def State.callBytes (s : State) (c va n : Nat) (refused : List Nat) : List Byte × Option (Nat × Nat) :=
  (lineList va n).foldl (fun r p =>
    match r.2 with
    | some _ => r
    | none =>
      match s.ringBytes c p.1 p.2 with
      | (bs, none) => (r.1 ++ bs, none)
      | (_, some i) => if refused.contains i then (r.1 ++ List.replicate p.2 0, none) else (r.1, some (i, p.1))) ([], none)

/-- CALL_RING: the packets of the buffer come before those of the ring. -/
def State.actCall : Nat → State → Nat → State
  | 0, s, _ => s
  | fuel + 1, s, id =>
    match tfind s.cmds id with
    | none => s
    | some m =>
      let n := m.handle.toNat
      match s.callBytes m.ctx m.arg n m.refusedSegs with
      | (_, some (seg, va)) => s.cmdStall id seg va 3 fun s => State.actCall fuel s id
      | (bs, none) =>
        if n = 0 then s.finishCmd id
        else
          let q := s.queue m.queue
          let ps := (packetsOf 0 bs).zipIdx.map fun p => { p.1 with pos := m.pos, off := some (16 * p.2) }
          (s.setQueue m.queue { q with decoded := ps ++ q.decoded, fetch := .fetching }).acted id

def execCallRing (q : Nat) (s : State) : Host.Outcome State Fault Refusal :=
  .next (s.work (s.qRow q (isQ 0x0B) false fun s id _ => State.actCall 17 s id))

/-! ### RELEASE (R362 to R366) -/

/-- The place up to which each other queue of a context has been made visible: the TAILs (R363). -/
def State.tails (s : State) (c own : Nat) : List (Nat × Nat) :=
  ((s.ctx c).queues.filter fun e => e.2.state != 0 && 8 * c + e.1 != own).map fun e => (8 * c + e.1, e.2.tail)

/-- RELEASE by the owner sets RELEASING; by a context that holds an import it begins the import's end. -/
def State.actRelease (s : State) (id : Nat) (m : Cmd) : State :=
  let h := BitVec.ofNat 32 m.arg
  let c := m.ctx
  let put (s : State) (isImport : Bool) : State :=
    let r : Released := ⟨h, isImport, s.tails c m.queue, (s.cmds.filter fun e => e.2.ctx = c && e.1 != id).map (·.1)⟩
    (s.modCtx c fun x => { x with released := x.released ++ [r] }).finishCmd id
  if hType h = 3 then
    let o := s.obj (hIndex h)
    if !s.objValid c h (m.at_ id) then (s.cmdFault id 2 15 h.toNat).finishCmd id
    else if s.zeroing h then s
    else if o.owner = s.tag c ∧ o.state ≠ 3 then put (s.setObj (hIndex h) { o with releasing := true }) false
    else put s true
  else if hType h = 4 then
    let f := s.fence (hIndex h)
    if !s.fenceValid c h (m.at_ id) then (s.cmdFault id 2 15 h.toNat).finishCmd id
    else if f.owner = s.tag c ∧ !f.orphaned then put (s.setFence (hIndex h) { f with releasing := true }) false
    else put s true
  else s.badCmd id

def execRelease (q : Nat) (s : State) : Host.Outcome State Fault Refusal :=
  .next (s.work (s.qRow q (isQ 0x0C) false fun s id m => s.actRelease id m))

/-! ### Launches (R410 to R419) -/

/-- A launch descriptor header as fetched (Table 8-8). -/
structure LaunchHeader where
  w0 : Nat
  w1 : Nat
  w2 : Nat
  w3 : Nat
  w4 : Nat
  arg : Nat
  rest : Nat

def LaunchHeader.ofBytes (b : List Byte) : LaunchHeader :=
  ⟨leAt b 0 8, leAt b 8 8, leAt b 16 8, leAt b 24 8, leAt b 32 8, leAt b 40 8, leAt b 48 16⟩

def LaunchHeader.constLen (h : LaunchHeader) : Nat := fld h.w2 9 0
def LaunchHeader.isInline (h : LaunchHeader) : Bool := bit h.w2 29
def LaunchHeader.constVa (h : LaunchHeader) (at_ : Nat) : Nat := if h.isInline then at_ + 64 else fld h.w1 47 0

/-- The checks on the constant buffer, which a work packet has too (R411, R416). -/
def LaunchHeader.constOk (h : LaunchHeader) : Bool :=
  h.constLen ≤ 512 && h.constLen % 8 == 0 && (h.isInline || fld h.w1 47 0 % 8 == 0)

/-- The checks of R411 and R109 and of the reserved bits (R26). -/
def LaunchHeader.ok (h : LaunchHeader) (arrays : Nat) : Bool :=
  let a := fld h.w2 18 16
  h.constOk && (a == 0 || a == 1 || a == 2 || a == 4) && a ≤ arrays && fld h.w2 28 24 ≤ 24 && h.w0 % 8 == 0
    && h.w0 < 2 ^ 48 && h.w1 < 2 ^ 48 && fld h.w2 31 30 == 0 && fld h.w2 23 19 == 0 && fld h.w2 15 10 == 0
    && h.w3 < 2 ^ 32 && h.w4 < 2 ^ 32 && h.rest == 0

def LaunchHeader.desc (h : LaunchHeader) (consts : List Byte) : Desc :=
  { codeVa := fld h.w0 47 0, workgroups := fld h.w2 63 32, spanLog2 := fld h.w2 28 24, arrays := fld h.w2 18 16,
    k := fld h.w3 31 0, readSegs := fld h.w4 15 0, writeSegs := fld h.w4 31 16, arg := h.arg, consts := consts }

/-- A launch command reads its header, checks it, and reads the constant buffer (R396, R411). -/
def State.withDesc (s : State) (id : Nat) (m : Cmd) (ok : LaunchHeader → Bool) (cont : State → Cmd → Desc → State) : State :=
  s.cmdRead id m.arg 64 fun s b =>
    let h := LaunchHeader.ofBytes b
    if !ok h then s.badCmd id
    else
      let go (s : State) (bs : List Byte) : State :=
        match tfind s.cmds id with
        | none => s
        | some m => cont s m (h.desc bs)
      if h.constLen = 0 then go s [] else s.cmdRead id (h.constVa m.arg) h.constLen go

/-- The segments of a launch's masks that name an object the command must treat as gone (R441). -/
def State.goneSegs (s : State) (id : Nat) (m : Cmd) (d : Desc) : List (BitVec 32) :=
  let gone := s.goneFor m.ctx (m.at_ id)
  let x := s.ctx (s.tableOwner m.ctx)
  (List.range 16).filterMap fun i =>
    let g := x.seg i
    if (bit d.readSegs i || bit d.writeSegs i) && g.pages != 0 && gone.contains g.object then some g.object else none

/-- What an ordinary launch checks beyond its header: no schedule runs (R641), there are save records (R482), and the
limits of a queue with a target (R526). -/
def State.launchAllowed (s : State) (m : Cmd) (d : Desc) (resident : Bool) : Bool :=
  let x := s.ctx m.ctx
  let q := s.queue m.queue
  !s.scheduleRuns x.part && x.sched.saveRecords != 0
    && (q.targetFn == 0 || (!resident && d.arrays == 0 && d.readSegs &&& d.writeSegs == 0))

/-- A launch whose descriptor is good starts: it waits for an object being zeroed, notes a segment whose object is
gone, and then goes on (R352, R441). -/
def State.startLaunch (s : State) (id : Nat) (m : Cmd) (d : Desc) (cont : State → Cmd → State) : State :=
  if s.namesZeroing m.ctx fun i _ => bit d.readSegs i || bit d.writeSegs i then s
  else
    let s := match s.goneSegs id m d with
      | [] => s
      | h :: _ => s.cmdFault id 2 15 h.toNat
    match tfind s.cmds id with
    | none => s
    | some m => cont s m

/-- LAUNCH: a work packet while a launch is bound to its queue, else WORKGROUPS launches (R412, R416). -/
def State.actLaunch (s : State) (id : Nat) (m : Cmd) : State :=
  match (s.queue m.queue).bound with
  | some _ =>
    if s.scheduleRuns (s.ctx m.ctx).part then s.badCmd id
    else
      s.withDesc id m LaunchHeader.constOk fun s m d =>
        s.setCmd id { m with desc := some d, isPacket := true, acted := true }
  | none =>
    s.withDesc id m (fun h => h.ok s.build.arrays) fun s m d =>
      if !s.launchAllowed m d false then s.badCmd id
      else if d.workgroups = 0 then s.finishCmd id
      else s.startLaunch id m d fun s m => s.setCmd id { m with desc := some d, acted := true }

def execLaunch (q : Nat) (s : State) : Host.Outcome State Fault Refusal :=
  .next (s.work (s.qRow q (isQ 2) false fun s id m => s.actLaunch id m))

/-- A launch at its start: every register zero, its arrays cleared (R106, R114). -/
def Launch.initial (l : Launch) : Launch :=
  let x : Exec := { pc := l.desc.codeVa, consts := l.desc.consts, arrs := clearedArrays l.desc.arrays l.desc.arrays }
  { l with x := x, unit := x }

/-- The launch of a command's workgroup, waiting for a dispatch round. -/
def Cmd.launchOf (m : Cmd) (id wg : Nat) (d : Desc) (resident : Bool) : Launch :=
  let l : Launch :=
    { ctx := m.ctx, cmd := some id, wg := wg, wgs := d.workgroups, desc := d, origin := m.origin, queue := m.queue, resident := resident }
  l.initial

/-- LAUNCH_RESIDENT without STOP (R415). (DEDUCED: log 61) -/
def State.actResident (s : State) (id : Nat) (m : Cmd) : State :=
  s.withDesc id m (fun h => h.ok s.build.arrays) fun s m d =>
    if (s.queue m.queue).bound.isSome || decide (1 < d.workgroups) || !s.launchAllowed m d true then s.badCmd id
    else if d.workgroups = 0 then s.finishCmd id
    else
      s.startLaunch id m d fun s m =>
        let r := s.fresh
        let s := r.2.setLaunch r.1 (m.launchOf id 0 d true)
        let s := s.setCmd id { m with desc := some d, acted := true, resident := true, wgStarted := 1 }
        s.setQueue m.queue { s.queue m.queue with bound := some r.1 }

def execLaunchResident (q : Nat) (s : State) : Host.Outcome State Fault Refusal :=
  .next (s.work (s.qRow q (fun w => isQ 3 w && !bit w 8) false fun s id m => s.actResident id m))

/-- The oldest LAUNCH_RESIDENT with STOP of a queue. -/
def State.stopCmd (s : State) (qi : Nat) : Option (Nat × Cmd) :=
  (s.startedCmds qi).find? fun e => e.2.op = 3 && bit e.2.flags 0

/-- LAUNCH_RESIDENT with STOP acts once every earlier work packet has been delivered: it ends the bound launch's wait
(R418, R269). -/
def State.actStop (s : State) (qi : Nat) : State :=
  match s.stopCmd qi with
  | none => s
  | some (id, _) =>
    let s := s.acted id
    if (s.startedCmds qi).any fun e => e.1 < id && e.2.isPacket && !e.2.delivered then s
    else
      match (s.queue qi).bound with
      | none => s.finishCmd id
      | some l => ((s.modLaunch l fun x => { x with stopWait := true }).deliver l).finishCmd id

def execLaunchResidentStop (q : Nat) (s : State) : Host.Outcome State Fault Refusal :=
  .next (s.work <|
    let s := if (s.stopCmd q).isSome then s else s.startHead q fun w => isQ 3 w && bit w 8
    s.actStop q)

/-! ### Fences: signals and the wait graph (R355, R372, R373) -/

/-- FENCE_SIGNAL_APPLY: the oldest signal on its way reaches the fence unit. (DESIGN CHOICE: log 8) -/
def execFenceSignalApply (s : State) : Host.Outcome State Fault Refusal :=
  .next (s.work <|
    match s.fenceWire with
    | [] => s
    | sig :: rest => ({ s with fenceWire := rest }).applySignal sig)

/-- Has a context a launch that has been submitted and has not ended (R372)? (DEDUCED: log 62) -/
def State.hasWork (s : State) (c : Nat) : Bool :=
  s.launches.any (fun e => e.2.ctx == c) || s.cmds.any fun e => e.2.ctx == c && (e.2.op == 2 || e.2.op == 3)

/-- The fences on which the owner of a fence has its queues blocked, when the walk goes on from that fence (R372).
(DEDUCED: log 62) -/
def State.walkNext (s : State) (h : BitVec 32) : List (BitVec 32) :=
  let f := s.fence (hIndex h)
  let c := tagCtx f.owner
  let x := s.ctx c
  let qs := x.queues.filter fun e => e.2.state != 0
  let ends := f.state != 1 || hGen h != f.gen || f.exportScope == 2 || f.orphaned || x.tag c != f.owner || x.state != .live
    || s.hasWork c
    || qs.any fun e => e.2.blocked.isNone || e.2.state == 2 || (e.2.tail == e.2.head && !(e.2.decoded.any fun p => p.off.isSome))
  if ends then [] else qs.filterMap fun e => e.2.blocked.map (·.1)

/-- The walk, depth first: what is left of the 4,096 visits, and the cycle found. `path` is the current path, newest
first. (DEDUCED: log 62) -/
def State.walk : Nat → State → List (BitVec 32) → List (BitVec 32) → Nat → Nat × Option (List (BitVec 32))
  | 0, _, _, _, _ => (0, none)
  | _, _, [], _, n => (n, none)
  | fuel + 1, s, h :: rest, path, n =>
    if n = 0 then (0, none)
    else if path.contains h then (n, some (h :: path.takeWhile (· ≠ h)))
    else
      match State.walk fuel s (s.walkNext h) (h :: path) (n - 1) with
      | (k, some cyc) => (k, some cyc)
      | (k, none) => State.walk fuel s rest path k

/-- WAIT_GRAPH_WALK: a queue has been blocked for a further 1 ms. A cycle whose fences are all still unsignalled is
broken with CYCLE on every one. (DEDUCED: log 62) -/
def execWaitGraphWalk (q : Nat) (s : State) : Host.Outcome State Fault Refusal :=
  .next (s.work <|
    match (s.queue q).blocked with
    | none => s
    | some (h, _) =>
      let s := { s with fe := { s.fe with walks := bump s.fe.walks 1 } }
      match (State.walk 8192 s [h] [] 4096).2 with
      | none => s
      | some cyc =>
        if cyc.any fun h => s.fenceWire.any fun g => g.fence = h then s
        else
          let s := { s with fe := { s.fe with cycles := bump s.fe.cycles 1 } }
          cyc.foldl (fun s h => s.sendSignal h 8) s)

end Sys2Proof.Machine
end

