-- ==== Sys2Proof/Machine/Identity.lean ====
section
/-! DEFINITION. The fuse words (Table 17-4), the end of an object request (R341), and the two requests that reach memory
through a context's segments: CERT_READ and DBG_KEY_SET (R793, R794). -/

namespace Sys2Proof.Machine

/-- A word of the OTP (R777). -/
def State.otpWord (s : State) (i : Nat) : Nat := tget 0 s.lc.otp i

/-- Words of the OTP as bytes. -/
def State.otpBytes (s : State) (i n : Nat) : List Byte := (List.range n).flatMap fun k => bytesLE 4 (s.otpWord (i + k))

/-- The certificate's length, and the certificate followed by zeros (R794). -/
def State.certLen (s : State) : Nat := s.otpWord 0x400
def State.certBytes (s : State) : List Byte := takePad 2044 ((s.otpBytes 0x401 511).take s.certLen)

/-- Result of a request (R341). -/
def State.reqDone (s : State) (fn : Fn) (code r0 r1 : Nat) : State :=
  let b := s.block fn
  (s.setBlock fn { b with tag := b.curTag, code := code, done := true, busy := false, queued := false, op := 0, waits := [], stalled := none, refusedSegs := [],
                          subject := 0, result0 := BitVec.ofNat 64 r0, result1 := BitVec.ofNat 64 r1 }).raise fn 0

/-- The place of a fault of a request: no queue. -/
def requestOrigin (acc addr : Nat) : Origin := { source := 0x280, access := acc, address := addr }

/-- The violating lines of a request make one fault of its context (R405). -/
def State.requestViol (s : State) (c : Nat) (v : Viol) : State :=
  if v.lines = 0 then s else s.fault c v.code (requestOrigin v.acc v.addr)

/-- The certificate is written through the context's segments (R794). -/
def State.certWrite (s : State) (fn : Fn) (c va : Nat) (refused : List Nat) : State :=
  let bs := s.certBytes
  let r := (lineList va 2044).foldl (fun (q : State × Viol × Nat × Nat) l =>
    match q.1.writeLine ⟨c, 5, ⟨0, 0⟩, []⟩ refused l.1 ((bs.drop (l.1 - va)).take l.2) with
    | .done t host => (t, q.2.1, if host then q.2.2.1 else q.2.2.1 + l.2, if host then q.2.2.2 + l.2 else q.2.2.2)
    | .dropped k => (q.1, q.2.1.add 1 l.1 5 k, q.2.2)
    | .stopped _ => (q.1, q.2.1.add 1 l.1 5 1, q.2.2)) (s, {}, 0, 0)
  ((r.1.chargeBytes c r.2.2.1 r.2.2.2).requestViol c r.2.1).reqDone fn 0 s.certLen 0

/-- The tenant key is read and registered; a digest of zeros registers nothing (R793). -/
def State.keyRead (s : State) (fn : Fn) (c va : Nat) (refused : List Nat) : State :=
  let r := s.readVa ⟨c, 4, ⟨0, 0⟩, []⟩ refused va 48
  let s := (s.chargeBytes c r.dev r.host).requestViol c r.viol
  let p := (s.ctx c).part
  let k := takePad 48 r.bytes
  (if k = List.replicate 48 0 then s else s.setPart p { s.part p with dbgKey := k }).reqDone fn 0 0 0

/-- Either request goes on: an access to a segment that is not present stops it and raises a segment fault. -/
def State.identRun (s : State) (fn : Fn) : State :=
  let b := s.block fn
  let c := hIndex (BitVec.ofNat 32 b.arg0.toNat)
  let va := b.arg1.toNat
  let write := b.op = 0x15
  let acc := if write then 5 else 4
  let go (s : State) (refused : List Nat) : State := if write then s.certWrite fn c va refused else s.keyRead fn c va refused
  let stop := (lineList va (if write then 2044 else 48)).findSome? fun l =>
    match s.access ⟨c, acc, ⟨0, 0⟩, []⟩ l.1 with
    | .absent i => if b.refusedSegs.contains i then none else some (i, l.1)
    | .waits i => some (i, l.1)
    | _ => none
  match stop with
  | none => go s b.refusedSegs
  | some (i, a) =>
    match s.raiseSegFault c i a acc 0xFFFF (3 * 2 ^ 56) with
    | .waits s => s.setBlock fn { s.block fn with stalled := some i }
    | .refused s => go (s.fault c 6 (requestOrigin acc a)) (List.range 16)

/-- Requests stopped on a segment of a context go on, or are refused there (R455). (DEDUCED: log 49) -/
def State.identResolve (s : State) (f : SegFault) (refused : Bool) : State :=
  (s.blocks.filter fun e => e.2.busy && (e.2.op == 0x15 || e.2.op == 0x16) && e.2.stalled == some f.seg
      && hIndex (BitVec.ofNat 32 e.2.arg0.toNat) == f.ctx).foldl (fun s e =>
    let fn := keyFn e.1
    let b := s.block fn
    let s := s.setBlock fn { b with stalled := none, refusedSegs := if refused then f.seg :: b.refusedSegs else b.refusedSegs }
    (if refused then s.fault f.ctx 6 (requestOrigin f.access f.va) else s).identRun fn) s

/-- Requests of a context that is being destroyed, or is no longer LIVE, end with STATE. -/
def State.identCancel (s : State) (c : Nat) : State :=
  (s.blocks.filter fun e => e.2.busy && (e.2.op == 0x15 || e.2.op == 0x16) && e.2.stalled.isSome
      && hIndex (BitVec.ofNat 32 e.2.arg0.toNat) == c).foldl (fun s e => s.reqDone (keyFn e.1) 5 0 0) s

end Sys2Proof.Machine
end

