-- ==== Sys2Proof/Machine/Proxy.lean ====
section
/-! DEFINITION. Withdrawals (R447 to R451), the foreign-engine proxies (chapter 11): sending messages, performing the
requests of chiplets, quarantine; and the resolution of segment faults (R455). -/

namespace Sys2Proof.Machine

/-! ### Messages to a chiplet (R534 to R540) -/

/-- A message with every field zero. -/
def cppZero : CppMsg := ⟨0, 0, 0, 0, 0, 0, 0, 0, []⟩

/-- Classes of messages (Table 11-4): 0 none, 1 REQ, 2 RSP. -/
def cppClass (op : Nat) (ack : Bool) : Nat :=
  if op ≤ 3 then 0
  else if op = 7 ∨ op = 9 ∨ op = 0x0B ∨ op = 0x0D ∨ ((op = 0x0E ∨ op = 0x0F) ∧ ack) then 2
  else 1

/-- Data flits of a message (R536). -/
def cppFlits (m : CppMsg) : Nat := (m.lines.toNat + 3) / 4

/-- Credits after a message of a class; none when there are not enough (R537). -/
def CpCredits.spend (c : CpCredits) (cls data : Nat) : Option CpCredits :=
  if cls = 0 then some c
  else if cls = 1 then
    if 1 ≤ c.reqHdr ∧ data ≤ c.reqData then some { c with reqHdr := c.reqHdr - 1, reqData := c.reqData - data } else none
  else if 1 ≤ c.rspHdr ∧ data ≤ c.rspData then some { c with rspHdr := c.rspHdr - 1, rspData := c.rspData - data }
  else none

def CpCredits.add (c : CpCredits) (a b d e : Nat) : CpCredits := ⟨c.reqHdr + a, c.reqData + b, c.rspHdr + d, c.rspData + e⟩

/-- A message leaves, or waits behind those of its class that wait for credits. -/
def State.cppSend (s : State) (port op : Nat) (m : CppMsg) : State :=
  let p := s.cp port
  let cls := cppClass op (bit m.flags.toNat 0)
  let behind := p.txq.any fun w => cppClass w.1 (bit w.2.flags.toNat 0) = cls
  match p.toChip.spend cls (cppFlits m) with
  | some c => if behind then s.setCp port { p with txq := p.txq ++ [(op, m)] }
    else { s.setCp port { p with toChip := c } with out := s.out ++ [Out.cpp port op m] }
  | none => s.setCp port { p with txq := p.txq ++ [(op, m)] }

/-- The messages that wait are sent again, in order, as far as credits allow. -/
def State.cppPump (s : State) (port : Nat) : State :=
  let p := s.cp port
  p.txq.foldl (fun s w => s.cppSend port w.1 w.2) (s.setCp port { p with txq := [] })

/-- Credits for a message of the chiplet that has been handled go back to it (R540). -/
def State.cppReturn (s : State) (port cls data : Nat) : State :=
  if cls = 0 then s
  else
    let p := s.cp port
    let a := if cls = 1 then 2 ^ 16 + data * 2 ^ 32 else 2 ^ 48 + data
    let c := if cls = 1 then p.fromChip.add 1 data 0 0 else p.fromChip.add 0 0 1 data
    (s.setCp port { p with fromChip := c }).cppSend port 3 { cppZero with arg0 := BitVec.ofNat 64 a }

/-- A tag of the hub's own (R553). -/
def State.cppTag (s : State) (port : Nat) : BitVec 16 × State :=
  let p := s.cp port
  (BitVec.ofNat 16 p.nextTag, s.setCp port { p with nextTag := (p.nextTag + 1) % 65536 })

def CpPort.fe (p : CpPort) (x : Nat) : Fe := tget {} p.fes x
def CpPort.setFe (p : CpPort) (x : Nat) (f : Fe) : CpPort := { p with fes := tput p.fes x f }
def State.fe_ (s : State) (i : Nat) : Fe := (s.cp (i / 16)).fe (i % 16)
def State.setFe (s : State) (i : Nat) (f : Fe) : State := s.setCp (i / 16) ((s.cp (i / 16)).setFe (i % 16) f)

/-! ### Withdrawals (R442 to R451) -/

/-- The caches of a partition that a withdrawal is sent to (R447). -/
def State.cachesOf (s : State) (p : Nat) : List CacheId :=
  let x := s.part p
  x.engines.map CacheId.engine ++ ((List.range s.build.chipletPorts).filter fun c => x.foreign.any fun i => i / 16 = c).map CacheId.proxy
    ++ [CacheId.frontEnd, CacheId.host]

/-- Mask of the foreign engines of a port that a partition holds. -/
def State.feMask (s : State) (p port : Nat) : Nat :=
  bitsMask (((s.part p).foreign.filter fun i => i / 16 = port).map (· % 16))

/-- A withdrawal is broadcast: the proxy of every port that is up forwards an INVALIDATE (R450). -/
def State.broadcast (s : State) (id : Nat) : State :=
  match tfind s.withdrawals id with
  | none => s
  | some w =>
    let s := { s with withdrawals := tput s.withdrawals id { w with broadcast := true } }
    w.waiting.foldl (fun s c =>
      match c with
      | .proxy port =>
        if (s.cp port).state ≠ .up then s
        else
          let (tag, s) := s.cppTag port
          let s := s.setCp port { s.cp port with invals := (s.cp port).invals ++ [(tag, id)] }
          s.cppSend port 0x0C { cppZero with tag := tag, addr := BitVec.ofNat 64 w.lo, arg0 := BitVec.ofNat 64 (w.hi - w.lo),
                                             arg1 := BitVec.ofNat 64 (s.feMask (s.ctx w.owner).part port) }
      | _ => s) s

/-- Withdrawals in flight. -/
def State.invalActive (s : State) : Nat := (s.withdrawals.filter fun w => w.2.broadcast).length

/-- Waiting withdrawals are broadcast, oldest first, up to 16 at once (R451). -/
def State.broadcastNext (s : State) : State :=
  (s.withdrawals.filter fun w => !w.2.broadcast).foldl (fun s w => if s.invalActive < 16 then s.broadcast w.1 else s) s

/-- The old translation of a segment is withdrawn (R447). (DEDUCED: log 56) -/
def State.withdraw (s : State) (owner seg : Nat) (g : Seg) (why : WdFor) : Nat × State :=
  let (id, s) := s.fresh
  let w : Withdrawal :=
    { owner := owner, seg := seg, lo := g.vpage * 65536, hi := (g.vpage + g.pages) * 65536,
      waiting := s.cachesOf (s.ctx owner).part, broadcast := false, why := [why] }
  (id, { s with withdrawals := tput s.withdrawals id w }.broadcastNext)

/-- A cache has dropped the entries of a withdrawal, and has acknowledged it (R448). (DEDUCED: log 56) -/
def State.cacheAck (s : State) (id : Nat) (c : CacheId) : State :=
  match tfind s.withdrawals id with
  | none => s
  | some w =>
    let caches := s.caches.map fun k => if k.who = c then { k with tags := k.tags.filter fun t => t ≠ (w.owner, w.seg) } else k
    { s with caches := caches, withdrawals := tput s.withdrawals id { w with waiting := w.waiting.filter fun d => d ≠ c } }

/-! ### Requests of a chiplet (R543 to R547) -/

/-- Who a foreign engine's access is made for (R523): the launch dispatched to it. -/
def State.whoFe (s : State) (f : Fe) (acc : Nat) : Who :=
  { ctx := f.ctx, acc := acc, foot := ⟨f.desc.readSegs, f.desc.writeSegs⟩,
    gone := match f.cmd with
      | none => []
      | some id => match tfind s.cmds id with
        | none => []
        | some m => s.goneFor f.ctx (m.at_ id) }

/-- Queue and place of a foreign engine's launch (R865). -/
def State.fePlace (s : State) (f : Fe) : Nat × Nat :=
  match f.cmd.bind (tfind s.cmds) with
  | none => (0xFFFF, 3 * 2 ^ 56)
  | some m => (m.queue, m.origin)

/-- A fault of the context dispatched to a foreign engine (R544). -/
def State.feFault (s : State) (i code acc addr : Nat) : State :=
  let f := s.fe_ i
  let s := s.setFe i { f with code := if f.code = 0 then code else f.code }
  s.fault f.ctx code { source := 0x602 + 16 * (i / 16), access := acc, address := addr, cmd := f.cmd,
                       queue := (s.fePlace f).1, off := (s.fePlace f).2 }

/-- The violating lines of a READ or WRITE. -/
def State.feViol (s : State) (i : Nat) (v : Viol) : State :=
  if v.lines = 0 then s
  else
    let p := s.cp (i / 16)
    (s.setCp (i / 16) { p with violations := bump p.violations v.lines }).feFault i v.code v.acc v.addr

/-- The request with a tag leaves the proxy's list. -/
def CpPort.drop (p : CpPort) (tag : BitVec 16) : CpPort := { p with held := p.held.filter fun h => h.tag ≠ tag }

/-- READ_DATA with its data goes out when its credits are there, and otherwise is held (R539). -/
def State.readData (s : State) (port : Nat) (h : CpHeld) (bs : List Byte) : State :=
  let p := s.cp port
  let m : CppMsg := { cppZero with fe := BitVec.ofNat 8 h.fe, tag := h.tag, lines := BitVec.ofNat 8 h.lines, data := bs }
  let behind := p.txq.any fun w => cppClass w.1 (bit w.2.flags.toNat 0) = 2
  if behind || (p.toChip.spend 2 (cppFlits m)).isNone then
    s.setCp port { p with held := p.held.map fun g => if g.tag = h.tag then { g with ready := true, seg := none, data := bs } else g }
  else (s.setCp port (p.drop h.tag)).cppSend port 7 m

/-- A WRITE is acknowledged. -/
def State.writeAck (s : State) (port : Nat) (h : CpHeld) : State :=
  (s.setCp port ((s.cp port).drop h.tag)).cppSend port 9 { cppZero with fe := BitVec.ofNat 8 h.fe, tag := h.tag }

/-- One line of a WRITE. -/
def feWriteLine (w : Who) (refused : List Nat) (acc : State × Viol × Nat × Option (Nat × Nat)) (p : Nat × List Byte) :
    State × Viol × Nat × Option (Nat × Nat) :=
  let (s, v, n, stop) := acc
  match stop with
  | some _ => acc
  | none =>
    match s.writeLine w refused p.1 p.2 with
    | .done t host => (t.chargeBytes w.ctx (if host then 0 else 64) (if host then 64 else 0), v, n + 1, none)
    | .dropped code => (s, v.add 1 p.1 w.acc code, n, none)
    | .stopped seg => (s, v, n, some (seg, p.1))

/-- A request is performed line by line and answered, or is held for a segment fault, with FAULT (R543 to R546). `fuel`
bounds the segments refused at once. -/
def State.fePerform : Nat → State → Nat → CpHeld → List Nat → State
  | 0, s, _, _, _ => s
  | fuel + 1, s, port, h, refused =>
    let i := 16 * port + h.fe
    let f := s.fe_ i
    let acc := if h.isWrite then 9 else 8
    let w := s.whoFe f acc
    let stopped (s : State) (seg va : Nat) : State :=
      let pl := s.fePlace f
      match s.raiseSegFault f.ctx seg va acc pl.1 pl.2 with
      | .waits s =>
        let p := s.cp port
        let s := s.setCp port { p with heldCount := bump p.heldCount 1,
                                       held := p.held.map fun g => if g.tag = h.tag then { g with seg := some seg } else g }
        if s.linkWaits f.ctx seg then s
        else s.cppSend port 0x0B { cppZero with fe := BitVec.ofNat 8 h.fe, tag := h.tag, status := 1 }
      | .refused s => State.fePerform fuel (s.feFault i 6 acc va) port h (seg :: refused)
    if h.isWrite then
      let lines := (List.range h.lines).map fun k => (h.va + 64 * k, (h.data.drop (64 * k)).take 64)
      match lines.foldl (feWriteLine w refused) (s, {}, 0, none) with
      | (t, v, n, none) =>
        let p := t.cp port
        ((t.setCp port { p with writeLines := bump p.writeLines n }).feViol i v).writeAck port h
      | (_, _, _, some (seg, va)) => stopped s seg va
    else
      let r := s.readVa w refused h.va (64 * h.lines)
      match r.stop with
      | none =>
        let p := s.cp port
        let s := (s.setCp port { p with readLines := bump p.readLines ((r.dev + r.host) / 64) }).chargeBytes f.ctx r.dev r.host
        (s.feViol i r.viol).readData port h r.bytes
      | some (seg, va) => stopped s seg va

/-- A SIGNAL of a foreign engine (R547). -/
def State.feSignal (s : State) (i : Nat) (h : BitVec 32) : State :=
  let f := s.fe_ i
  let at_ : QPos := (f.cmd.bind fun id => (tfind s.cmds id).map fun m => (m.at_ id)).join
  if s.fenceValid f.ctx h at_ then s.sendSignal h 0 else s.feFault i 2 15 h.toNat

/-- SIGNALs act once no earlier WRITE of the engine is unanswered (R547). -/
def State.feFlush (s : State) (i : Nat) : State :=
  if (s.cp (i / 16)).held.any fun h => h.fe = i % 16 && h.isWrite then s
  else
    let f := s.fe_ i
    f.signals.foldl (fun s h => s.feSignal i h) (s.setFe i { f with signals := [] })

/-- The requests of a foreign engine that can be performed are performed, in order (R552), and its SIGNALs follow. -/
def State.feRun : Nat → State → Nat → List Nat → State
  | 0, s, _, _ => s
  | fuel + 1, s, i, refused =>
    let port := i / 16
    match (s.cp port).held.find? fun h => h.fe = i % 16 && !h.ready with
    | some h => if h.seg.isSome then s.feFlush i else State.feRun fuel (s.fePerform 17 port h refused) i []
    | none => s.feFlush i

/-- A request arrives. Its REQ credits go back at once, unless 64 requests are held (R545). (DEDUCED: log 88) -/
def State.feArrive (s : State) (port : Nat) (h : CpHeld) : State :=
  let p := s.cp port
  let full := decide (64 ≤ (p.held.filter fun g => g.seg.isSome).length)
  let s := s.setCp port { p with held := p.held ++ [{ h with owes := full }] }
  let s := if full then s else s.cppReturn port 1 (if h.isWrite then (h.lines + 3) / 4 else 0)
  s.feRun (p.held.length + 2) (16 * port + h.fe) []

/-- Credits withheld while 64 requests were held go back as soon as fewer are. (DEDUCED: log 88) -/
def State.feOwed (s : State) (port : Nat) : State :=
  let p := s.cp port
  if 64 ≤ (p.held.filter fun g => g.seg.isSome).length then s
  else
    (p.held.filter (·.owes)).foldl (fun s h => s.cppReturn port 1 (if h.isWrite then (h.lines + 3) / 4 else 0))
      (s.setCp port { p with held := p.held.map fun h => { h with owes := false } })

/-- Every request of a foreign engine is answered as squashed: zeros for reads, drops for writes, no violation
(R550). (DEDUCED: log 88) -/
def State.feSquash (s : State) (i : Nat) : State :=
  let port := i / 16
  let mine := (s.cp port).held.filter fun h => h.fe = i % 16
  let s := mine.foldl (fun s h =>
    if h.isWrite then s.writeAck port h
    else if h.ready then s
    else s.readData port h (List.replicate (64 * h.lines) 0)) s
  (s.setFe i { s.fe_ i with signals := [] }).feOwed port

/-! ### The end of a foreign launch, quarantine (R548, R550, R557 to R559) -/

/-- The launch of a foreign engine is over: its busy time is counted and the engine has none. -/
def State.feFree (s : State) (i state : Nat) : State :=
  let f := s.fe_ i
  s.setFe i { f with state := state, cmd := none, step := none, code := 0, signals := [], desc := {},
                     busyNs := if f.cmd.isSome || f.step.isSome then f.busyNs + (s.now - f.since) else f.busyNs }

/-- The launch of a foreign engine is discarded, to be executed again (R530). In a static schedule it triggers a
rollback (Table 15-2). In a context that is not LIVE it has ended. -/
def State.feDiscard (s : State) (i state : Nat) : State :=
  let f := s.fe_ i
  let s := s.feFree i state
  match f.step, f.cmd with
  | some (p, k), _ =>
    if (s.ctx f.ctx).state ≠ .live then s.stepEnds p k 0x0A
    else if (s.sched p).running.any fun r => r.step = k then s.setSched p { s.sched p with trigger := true } else s
  | none, none => s
  | none, some id =>
    match tfind s.cmds id with
    | none => s
    | some m =>
      let m := { m with foreign := m.foreign.filter fun w => w ≠ (i, f.wg) }
      if (s.ctx m.ctx).state = .live then s.setCmd id { m with redo := m.redo ++ [f.wg] }
      else (s.setCmd id { m with wgEnded := m.wgEnded + 1 }).checkCmdDone id

/-- The launch of a foreign engine has ended: its step or its command goes on (R548). (DEDUCED: log 89) -/
def State.feEnd (s : State) (i state : Nat) : State :=
  let f := s.fe_ i
  let s := s.feFree i state
  match f.step, f.cmd with
  | some (p, k), _ => s.stepEnds p k (if f.code = 0 ∧ (s.ctx f.ctx).state ≠ .live then 0x0A else f.code)
  | none, none => s
  | none, some id =>
    match tfind s.cmds id with
    | none => s
    | some m =>
      (s.setCmd id { m with foreign := m.foreign.filter (fun w => w ≠ (i, f.wg)), wgEnded := m.wgEnded + 1 }).checkCmdDone id

/-- A foreign engine is told to stop its launch, and its requests are answered as squashed (R550). -/
def State.feQuiesce (s : State) (i : Nat) : State :=
  let port := i / 16
  if (s.fe_ i).state ≠ 3 then s
  else
    let (tag, s) := s.cppTag port
    let s := s.setFe i { s.fe_ i with state := 4, quiesceTag := some tag }
    let p := s.cp port
    ((s.setCp port { p with quiesces := bump p.quiesces 1 }).cppSend port 0x0E
      { cppZero with fe := BitVec.ofNat 8 (i % 16), tag := tag }).feSquash i

/-- The kind and source part of a quarantine's message to Sage. -/
def quarKind (cause : Nat) : Nat × Nat :=
  if 6 ≤ cause ∧ cause ≤ 9 then (1, 5) else if cause = 11 then (0, 6) else (1, 7)

/-- A port is quarantined (R557 to R559). (DESIGN CHOICE: log 95) -/
def State.quarantine (s : State) (port cause : Nat) : State :=
  let p := s.cp port
  if p.state = .quarantined ∨ p.state = .down then s
  else
    let s := s.setCp port { p with state := .quarantined, cause := cause, quarCount := min (p.quarCount + 1) 15, held := [],
                                   txq := [], invals := [], resetTag := none, recovering := false,
                                   fes := tmap p.fes fun _ f => { f with quiesceTag := none, signals := [] } }
    let s := { s with caches := s.caches.filter (fun k => k.who ≠ CacheId.proxy port),
                      withdrawals := tmap s.withdrawals fun _ w => { w with waiting := w.waiting.filter (· ≠ CacheId.proxy port) } }
    let s := (p.fes.map (·.1)).foldl (fun s x =>
      let i := 16 * port + x
      if (s.fe_ i).state = 0 ∨ (s.fe_ i).state = 5 then s
      else ((s.feDiscard i 0).fptChange (.foreign i) fun f => { f with status := 3, detail := 0 }).leavePart (.foreign i)) s
    let s := s.fptChange (.chipletPort port) fun f => { f with status := 9 }
    let k := quarKind cause
    (s.sageFail (0x600 + 16 * port + k.1) k.2).rmRecord 0x40 port cause (p.vendor * 65536 + p.device) p.revision

/-! ### The resolution of segment faults (R455) -/

/-- Origin of a SEGMENT_REFUSED fault: the access that posted the miss record. (DEDUCED: log 58) -/
def SegFault.origin' (f : SegFault) (source : Nat) (cmd launch : Option Nat) : Origin :=
  { source := source, access := f.access, address := f.va, cmd := cmd, launch := launch, queue := f.queue, off := f.origin }

/-- Launches of a context stopped on a segment. -/
def State.launchResolve (s : State) (f : SegFault) (refused : Bool) : State :=
  ((s.launches.filter fun e => e.2.ctx = f.ctx && e.2.segStop == some f.seg).map (·.1)).foldl (fun s id =>
    let s := s.modLaunch id fun l => { l with segStop := none }
    if refused then
      let src := match tfind s.launches id with
        | some l => (match l.place with
          | .slot e _ => engSrc e 6
          | _ => 0x280)
        | none => 0x280
      let o : Origin := f.origin' src none (some id)
      (s.modLaunch id fun l => l.refuse f.seg).fault f.ctx 6 o
    else s) s

/-- Commands of a context stopped on a segment. -/
def State.cmdResolve (s : State) (f : SegFault) (refused : Bool) : State :=
  ((s.cmds.filter fun e => e.2.ctx = f.ctx && e.2.stalled == some f.seg).map (·.1)).foldl (fun s id =>
    match tfind s.cmds id with
    | none => s
    | some m =>
      let s := s.setCmd id { m with stalled := none, refusedSegs := if refused then f.seg :: m.refusedSegs else m.refusedSegs }
      if refused then s.fault f.ctx 6 (f.origin' 0x280 (some id) none) else s) s

/-- Ring fetches of a context stopped on a segment; a refused line is decoded as zeros (R382). -/
def State.queueResolve (s : State) (f : SegFault) (refused : Bool) : State :=
  (List.range 8).foldl (fun s n =>
    let qi := 8 * f.ctx + n
    let q := s.queue qi
    if q.stalled ≠ some f.seg then s
    else if refused then
      (s.setQueue qi (q.gotLine (List.replicate q.nextLine.2 0))).fault f.ctx 6 (f.origin' 0x280 none none)
    else s.setQueue qi { q with stalled := none }) s

/-- Requests of foreign engines stopped on a segment. -/
def State.portResolve (s : State) (f : SegFault) (refused : Bool) : State :=
  (s.cps.map (·.1)).foldl (fun s port =>
    ((s.cp port).held.filter fun h => h.seg == some f.seg && (s.fe_ (16 * port + h.fe)).ctx = f.ctx).foldl (fun s h =>
      let i := 16 * port + h.fe
      let p := s.cp port
      let s := s.setCp port { p with held := p.held.map fun g => if g.tag = h.tag then { g with seg := none } else g }
      let s := if refused then
          let g := s.fe_ i
          (s.setFe i { g with code := if g.code = 0 then 6 else g.code }).fault f.ctx 6 (f.origin' (0x602 + 16 * port) g.cmd none)
        else s
      (s.feRun (p.held.length + 2) i (if refused then [f.seg] else [])).feOwed port) s) s

/-- A pending segment fault is resolved: what had stopped on it goes on, or is refused. (DEDUCED: log 58) -/
def State.segResolve (s : State) (f : SegFault) (refused : Bool) : State :=
  let s := { s with segFaults := s.segFaults.filter (· ≠ f) }
  let s := (((s.launchResolve f refused).cmdResolve f refused).queueResolve f refused).portResolve f refused
  (s.cuRetry f.ctx refused).identResolve f refused

/-- Every pending fault on a segment of a table is resolved, whichever sharer made the access. -/
def State.segResolveAll (s : State) (owner seg : Nat) (refused : Bool) : State :=
  (s.segFaults.filter fun f => s.tableOwner f.ctx = owner && f.seg = seg).foldl (fun s f => s.segResolve f refused) s

end Sys2Proof.Machine
end

