-- ==== Sys2Proof/Machine/Objects.lean ====
section
/-! DEFINITION. The object request block (chapter 7): contexts, memory objects, fences, imports and queues; release and
retirement; the forced abort. -/

namespace Sys2Proof.Machine

/-! ### Freeing entries (R332, R365 to R367, R377, R442) -/

/-- STALE is set in the descriptors of some contexts that name an object, and each such segment is withdrawn (R442). -/
def State.staleSegs (s : State) (h : BitVec 32) (who : Nat → Bool) (why : WdFor) : State :=
  (s.ctxs.filter fun e => who e.1).foldl (fun s e =>
    (List.range 16).foldl (fun s i =>
      let g := (s.ctx e.1).seg i
      if g.pages = 0 ∨ g.object ≠ h ∨ g.stale then s
      else
        let s := s.modCtx e.1 fun x => { x with segs := tput x.segs i { g with stale := true } }
        (s.withdraw e.1 i g why).2) s) s

/-- A context that keeps no entry alive any more becomes FREE (Table 7-10): its accounting values stay readable (R514),
and its queue entries keep their generations. -/
def Context.freed (x : Context) : Context :=
  { gen := nextGen x.gen, acct := x.acct,
    sched := { share := x.sched.share, saveObject := x.sched.saveObject, saveRecords := x.sched.saveRecords },
    queues := tmap x.queues fun _ q => if q.state = 0 then { gen := q.gen } else { gen := nextGen q.gen } }

/-- An entry that an owner's destruction left to its imports has gone (R377). -/
def State.heldLess (s : State) (c : Nat) : State :=
  let x := s.ctx c
  let x := { x with heldByImports := x.heldByImports - 1 }
  s.setCtx c (if x.heldByImports = 0 ∧ x.state = .held then x.freed else x)

/-- The OBJ_CREATE that waits for the zeroing of an object ends with STATE (R349). (DEDUCED: log 55) -/
def State.zeroingStops (s : State) (h : BitVec 32) : State :=
  s.blocks.foldl (fun s e =>
    if e.2.busy && !e.2.queued && e.2.op == 4 && e.2.subject == h then s.reqDone (keyFn e.1) 5 0 0 else s) s

/-- A memory object is freed (R365, R367, R442). Its range is free again when the withdrawals of its segments are
complete. -/
def State.freeObj (s : State) (i : Nat) : State :=
  let o := s.obj i
  let h := mkHandle 3 o.gen i
  let c := tagCtx o.owner
  let range := (tagPart o.owner, o.base, o.size)
  let why := WdFor.freed range.1 range.2.1 range.2.2
  let s := (s.zeroingStops h).staleSegs h (fun _ => true) why
  let s := if !o.host && s.withdrawals.any fun w => w.2.why.contains why then { s with freeing := s.freeing ++ [range] } else s
  let s := s.setObj i { gen := nextGen o.gen }
  let s := if o.state = 3 then s.heldLess c
    else s.modCtx c fun x => { x with objectsOwned := x.objectsOwned - 1 }
  s.settleChannels

/-- A fence is freed (R365). -/
def State.freeFence (s : State) (i : Nat) : State :=
  let f := s.fence i
  let c := tagCtx f.owner
  let s := s.setFence i { gen := nextGen f.gen }
  if f.orphaned then s.heldLess c else s.modCtx c fun x => { x with fencesOwned := x.fencesOwned - 1 }

/-- Has every command of a context that precedes a RELEASE retired (R363)? -/
def State.precedingRetired (s : State) (c : Nat) (r : Released) : Bool :=
  s.cmds.all (fun e => e.2.ctx != c || !(r.earlier.contains e.1 || precedes r.marks e.2.queue e.2.pos))
    && r.marks.all fun m =>
      let d := ahead32 (s.queue m.1).head m.2
      (s.queue m.1).state == 0 || d == 0 || decide (2 ^ 31 ≤ d)

/-- ENTRY_FREE: a released entry is freed once every preceding command has retired and IMPORTS is 0 (R365). -/
def State.entryFree (s : State) (h : BitVec 32) : State :=
  let i := hIndex h
  let isObj := decide (hType h = 3)
  let live := if isObj then hGen h == (s.obj i).gen && (s.obj i).releasing && (s.obj i).imports == 0
    else hType h == 4 && hGen h == (s.fence i).gen && (s.fence i).releasing && (s.fence i).imports == 0
  let c := tagCtx (if isObj then (s.obj i).owner else (s.fence i).owner)
  match (s.ctx c).released.find? fun r => r.handle = h && !r.isImport with
  | none => s
  | some r =>
    if !live || !s.precedingRetired c r then s
    else
      let s := s.modCtx c fun x => { x with released := x.released.erase r }
      if isObj then s.freeObj i else s.freeFence i

def execEntryFree (h : BitVec 32) (s : State) : Host.Outcome State Fault Refusal := .next (s.work (s.entryFree h))

/-- A context's import of an entry ends; an orphaned entry with no import left is freed (R366, R377, R442). -/
def State.endImport (s : State) (c : Nat) (h : BitVec 32) : State :=
  let i := hIndex h
  let s := s.modCtx c fun x => { x with imports := x.imports.erase h, released := x.released.filter fun r => r.handle ≠ h }
  if hType h = 3 then
    let o := s.obj i
    let o := { o with imports := o.imports - 1 }
    let s := (s.setObj i o).staleSegs h (fun k => k = c) (.freed (tagPart o.owner) o.base o.size)
    if o.state = 3 ∧ o.imports = 0 then s.freeObj i else s
  else
    let f := s.fence i
    let f := { f with imports := f.imports - 1 }
    let s := s.setFence i f
    if f.orphaned ∧ f.imports = 0 then s.freeFence i else s

/-- IMPORT_END (R366). -/
def execImportEnd (c : Nat) (h : BitVec 32) (s : State) : Host.Outcome State Fault Refusal :=
  .next (s.work <|
    match (s.ctx c).released.find? fun r => r.handle = h && r.isImport with
    | none => s
    | some r => if s.precedingRetired c r && (s.ctx c).imports.contains h then s.endImport c h else s)

/-! ### The request block (R339 to R342) -/

/-- Bits of OBJ_ARG0 to OBJ_ARG2 that a request names (Tables 7-7, 8-2, 9-2, 10-3, 11-2 and 17-9). -/
def reqMask (op : Nat) : Nat × Nat × Nat :=
  match op with
  | 0x01 => (0x1FF3F, 0x1FFF, 0)
  | 0x02 => (2 ^ 32 - 1, 0, 0)
  | 0x03 => (2 ^ 32 - 1, 0, 0)
  | 0x04 => (2 ^ 32 - 1, 2 ^ 64 - 1, 1)
  | 0x05 => (2 ^ 32 - 1, 2 ^ 64 - 1, 2 ^ 64 - 1)
  | 0x06 => (2 ^ 32 - 1, 0, 0xFFFF0007)
  | 0x07 => (2 ^ 32 - 1, 2 ^ 32 - 1, 0)
  | 0x08 => (2 ^ 32 - 1, 2 ^ 32 - 1, 0)
  | 0x09 => (2 ^ 32 - 1, 2 ^ 64 - 1, 0x1071F)
  | 0x0A => (2 ^ 32 - 1, 2 ^ 32 - 1, 0)
  | 0x0B => (2 ^ 32 - 1, 2 ^ 32 - 1, 0)
  | 0x0C => (2 ^ 40 - 1, 2 ^ 57 - 1, 2 ^ 56 - 1)
  | 0x0D => (2 ^ 36 - 1, 0, 0)
  | 0x0E => (2 ^ 36 - 1, 0, 0)
  | 0x0F => (2 ^ 32 - 1, 2 ^ 32 - 1, 0)
  | 0x10 => (2 ^ 32 - 1, 2 ^ 32 - 1, 0)
  | 0x11 => (2 ^ 32 - 1, 2 ^ 32 - 1, 0)
  | 0x12 => (2 ^ 32 - 1, 2 ^ 16 - 1, 0)
  | 0x13 => (2 ^ 32 - 1, 2 ^ 5 - 1, 0)
  | 0x14 => (2 ^ 32 - 1, 2 ^ 32 - 1, 2 ^ 64 - 1)
  | 0x15 => (2 ^ 32 - 1, 2 ^ 64 - 1, 0)
  | 0x16 => (2 ^ 32 - 1, 2 ^ 64 - 1, 0)
  | _ => (0, 0, 0)

/-- Requests that only the PF may make, or only a VF ("From"). -/
def reqFrom (op : Nat) (fn : Fn) : Bool :=
  match fn with
  | .pf => op != 0x16
  | .vf _ => !(op == 0x01 || op == 0x05 || op == 0x10 || op == 0x12)

def ObjBlock.a0 (b : ObjBlock) : Nat := b.arg0.toNat
def ObjBlock.a1 (b : ObjBlock) : Nat := b.arg1.toNat
def ObjBlock.a2 (b : ObjBlock) : Nat := b.arg2.toNat

/-- A request that has been taken is checked for its function and its reserved bits, and then carried out. -/
def State.reqBegin (s : State) (fn : Fn) (op : Nat) (run : State → State) : State :=
  let b := s.block fn
  let m := reqMask op
  if !reqFrom op fn then s.reqDone fn 4 0 0
  else if b.a0 &&& m.1 ≠ b.a0 ∨ b.a1 &&& m.2.1 ≠ b.a1 ∨ b.a2 &&& m.2.2 ≠ b.a2 then s.reqDone fn 1 0 0
  else run s

/-- A write of OBJ_CMD (R340): ignored while a request is in progress. While the Warden restarts, the request waits in
its registers (R721). (DEDUCED: log 51) -/
def State.request (s : State) (fn : Fn) (tag : BitVec 16) (op : Nat) (run : State → State) : State :=
  if !s.decodes fn || !s.fwRuns then s
  else
    let b := s.block fn
    if b.busy then s.setBlock fn { b with lost := true }
    else
      let s := s.setBlock fn { b with busy := true, op := op, curTag := tag, subject := 0, waits := [], queued := s.sage.wardenDown }
      if s.sage.wardenDown then s else s.reqBegin fn op run

/-- The context that a request names: a result code, 0 when it is good, and the context (R333, R342). (DEDUCED: log 51) -/
def State.reqCtx (s : State) (fn : Fn) (h : Nat) : Nat × Nat :=
  let h := BitVec.ofNat 32 h
  let c := hIndex h
  let x := s.ctx c
  let mine := match fn with
    | .pf => true
    | .vf v => decide (c < 4096) && x.state != .free && x.vf == v
  if !mine then (4, c) else if !s.ctxValid h then (3, c) else (0, c)

/-- A request on a context: the context is checked, and the request goes on with it. (DEDUCED: log 51) -/
def State.onCtx (s : State) (fn : Fn) (run : State → Nat → State) : State :=
  let r := s.reqCtx fn (s.block fn).a0
  if r.1 = 0 then run s r.2 else s.reqDone fn r.1 0 0

/-- A request on a LIVE context. (DEDUCED: log 51) -/
def State.onLive (s : State) (fn : Fn) (run : State → Nat → State) : State :=
  s.onCtx fn fun s c => if (s.ctx c).state = .live then run s c else s.reqDone fn 5 0 0

/-- The first number from `i` on that meets a test, among `n`. -/
def firstFrom (test : Nat → Bool) : Nat → Nat → Option Nat
  | 0, _ => none
  | n + 1, i => if test i then some i else firstFrom test n (i + 1)

/-! ### Contexts (R342 to R347) -/

/-- The partition a VF is bound to. -/
def State.vfPart (s : State) (v : Nat) : Option Nat := (s.units.parts.find? fun e => e.2.vfs.contains v).map (·.1)

/-- CTX_CREATE (R343, R344, R306, R318, R338). A creation for a partition that a running partition program names waits
until the program completes. (DESIGN CHOICE: log 54) -/
def State.reqCtxCreate (s : State) (fn : Fn) : State :=
  let b := s.block fn
  let a0 := b.a0
  let a1 := b.a1
  let fabric := bit a0 16
  let units := fld a0 15 8
  let v := fld a0 5 0
  let done (code : Nat) : State := s.reqDone fn code 0 0
  if s.build.allotUnits < units then done 1
  else
    match s.vfPart v with
    | none => done 5
    | some p =>
      if s.wmb.busy && s.wmb.named.contains p then s.setBlock fn { b with queued := true }
      else
        let x := s.part p
        let pick := bit a1 12
        let want := fld a1 11 0
        let free (i : Nat) : Bool := (s.ctx i).state == .free && !(i == 0 && p == 0)
        if x.state ≠ 2 then done 5
        else if fabric ∧ s.build.fabricPorts = 0 then done 6
        else if pick ∧ want = 0 ∧ p = 0 then done 1
        else if x.quota ≤ (s.ctxs.filter fun e => e.2.state != .free && e.2.part = p).length then done 2
        else
          match (if pick then (if free want then some want else none) else firstFrom free 4096 0) with
          | none => done 2
          | some i =>
            let old := s.ctx i
            let c : Context := { state := .live, fabric := fabric, gen := old.gen, allotUnits := units, vf := v, part := p, queues := old.queues }
            (s.setCtx i c).reqDone fn 0 (mkHandle 1 old.gen i).toNat 0

def execCtxCreate (fn : Fn) (tag : BitVec 16) (s : State) : Host.Outcome State Fault Refusal :=
  .next (s.work (s.request fn tag 0x01 fun s => s.reqCtxCreate fn))

/-- CTX_STATUS (Table 7-11). -/
def State.ctxStatus (s : State) (c : Nat) : Nat :=
  let x := s.ctx c
  let st := match x.state with
    | .free => 0 | .live => 1 | .lost => 2 | .aborting => 3 | .held => 4
  (if x.state = .free then 0 else (x.tag c).toNat) * 2 ^ 48 + x.fault.code * 2 ^ 40 + x.gen * 2 ^ 32 + x.allotUnits * 2 ^ 24
    + x.vf * 2 ^ 16 + flag x.fabric 8 + flag x.sched.rslot.isSome 3 + st

/-- CTX_QUERY. -/
def State.reqCtxQuery (s : State) (fn : Fn) : State :=
  s.onCtx fn fun s c => s.reqDone fn 0 (s.ctxStatus c) (s.ctx c).fault.address

def execCtxQuery (fn : Fn) (tag : BitVec 16) (s : State) : Host.Outcome State Fault Refusal :=
  .next (s.work (s.request fn tag 0x03 fun s => s.reqCtxQuery fn))

/-! ### The forced abort (R374 to R378) -/

/-- One launch of a context in ABORTING: in a slot it stops at its next check point; anywhere else it is discarded. -/
def State.abortLaunch (s : State) (id : Nat) : State :=
  match tfind s.launches id with
  | none => s
  | some l =>
    match l.place with
    | .slot .. => s.setLaunch id { l with stop := some .abort }
    | _ => s.endLaunch id

/-- Foreign engines that run launches of a context. -/
def State.fesOf (s : State) (c : Nat) : List Nat :=
  s.cps.flatMap fun p => (p.2.fes.filter fun f => f.2.ctx = c && (f.2.cmd.isSome || f.2.step.isSome)).map fun f => 16 * p.1 + f.1

/-- A context enters ABORTING, for a request or a Function Level Reset (Table 7-16 steps 1 to 3): its packets and
commands are discarded, but for transfers under way; its launches stop; its foreign engines are quiesced. A job context
makes its hub leave the job (R642). (DEDUCED: log 53) -/
def State.startAbort (s : State) (c : Nat) (by_ : Option Fn) : State :=
  let x := s.ctx c
  let s := s.setCtx c { x with state := .aborting, destroyBy := by_,
                               queues := tmap x.queues fun _ q => { q with blocked := none, decoded := [], stalled := none, fetch := .asleep } }
  let s := if (s.part x.part).static && (s.sched x.part).ctx == c && (s.sched x.part).state != 0 then s.schedAbort x.part else s
  let s := { s with cmds := s.cmds.filter fun e => e.2.ctx ≠ c || e.2.copy.isSome,
                    segFaults := s.segFaults.filter fun f => f.ctx ≠ c }
  let s := ((s.launches.filter fun e => e.2.ctx = c).map (·.1)).foldl State.abortLaunch s
  ((s.fesOf c).foldl State.feQuiesce s).identCancel c

/-- CTX_DESTROY (R347, R374, R439). (DEDUCED: log 53) -/
def State.reqCtxDestroy (s : State) (fn : Fn) : State :=
  let h := BitVec.ofNat 32 (s.block fn).a0
  let r := s.reqCtx fn (s.block fn).a0
  let x := s.ctx r.2
  if r.1 = 3 ∧ hType h = 1 ∧ r.2 < 4096 ∧ hGen h = x.gen then s.reqDone fn 5 0 0
  else if r.1 ≠ 0 then s.reqDone fn r.1 0 0
  else if x.state ≠ .live ∧ x.state ≠ .lost then s.reqDone fn 5 0 0
  else if s.ctxs.any fun e => e.2.shareOf == some r.2 && e.2.state == .live then s.reqDone fn 5 0 0
  else (s.setBlock fn { s.block fn with subject := h }).startAbort r.2 (some fn)

def execCtxDestroy (fn : Fn) (tag : BitVec 16) (s : State) : Host.Outcome State Fault Refusal :=
  .next (s.work (s.request fn tag 0x02 fun s => s.reqCtxDestroy fn))

/-- The context's allotments, park places and resident slot are given up, and its partials dropped (step 5). -/
def State.abortUnits (s : State) (c : Nat) : State :=
  let tag := s.tag c
  let s := { s with engines := tmap s.engines fun _ e =>
    let mine := e.allots.filter fun (a : Nat × Allot) => a.2.owner = tag
    { e with allots := e.allots.filter (fun (a : Nat × Allot) => a.2.owner ≠ tag),
             parks := e.parks.filter (fun (p : Nat × Park) => p.2.owner ≠ tag),
             scrubs := e.scrubs ++ mine.map (fun (a : Nat × Allot) => Scrub.mk a.2.base a.2.size),
             held := e.held.filter (fun q => q.owner ≠ tag), inbox := e.inbox.filter (fun q => q.owner ≠ tag) } }
  let s := { s with fab := { s.fab with cus := tmap s.fab.cus fun _ u =>
    { u with held := u.held.filter (fun q => q.owner ≠ tag), rx := u.rx.filter (fun r => r.part.owner ≠ tag) } } }
  s.modCtx c fun x => { x with sched := { x.sched with rslot := none, switchingOut := false, saved := [] } }

/-- Every unsignalled fence the context owns is signalled with OWNER_GONE (step 6). (DEDUCED: log 53) -/
def State.ownerGone (s : State) (c : Nat) : State :=
  let s := s.drainSignals
  let tag := s.tag c
  (s.fences.filter fun e => e.2.owner = tag && e.2.state = 1 && !e.2.orphaned).foldl (fun s e =>
    s.applySignal ⟨mkHandle 4 e.2.gen e.1, 9⟩) s

/-- Imports held are ended; owned entries are freed, or orphaned while others import them (step 7). (DEDUCED: log 53) -/
def State.abortEntries (s : State) (c : Nat) : State :=
  let tag := s.tag c
  let s := (s.ctx c).imports.foldl (fun s h => s.endImport c h) s
  let s := (s.fences.filter fun e => e.2.owner = tag && e.2.state != 0 && !e.2.orphaned).foldl (fun s e =>
    if e.2.imports = 0 then s.freeFence e.1
    else (s.setFence e.1 { e.2 with orphaned := true }).modCtx c fun x => { x with heldByImports := x.heldByImports + 1 }) s
  (s.objs.filter fun e => e.2.owner = tag && e.2.state != 0 && e.2.state != 3).foldl (fun s e =>
    if e.2.imports = 0 then s.freeObj e.1
    else ((s.zeroingStops (mkHandle 3 e.2.gen e.1)).setObj e.1 { e.2 with state := 3 }).modCtx c fun x =>
      { x with heldByImports := x.heldByImports + 1 }) s

/-- The last steps of a forced abort (Table 7-16 steps 5 to 7). (DEDUCED: log 53; DESIGN CHOICE: log 95) -/
def State.finishAbort (s : State) (c : Nat) : State :=
  let s := ((s.abortUnits c).ownerGone c).abortEntries c
  let x := s.ctx c
  let by_ := x.destroyBy
  let x := { x with segs := [], released := [], shareOf := none, undo := {}, destroyBy := none }
  let s := s.setCtx c (if x.heldByImports = 0 then x.freed else { x with state := .held, fencesOwned := 0, objectsOwned := 0 })
  let s := { s with ctxs := tmap s.ctxs fun _ y => if y.shareOf = some c then { y with shareOf := none } else y }
  match by_ with
  | none => s
  | some fn => s.reqDone fn 0 0 0

/-- ABORT_COMPLETE: once nothing of the context runs, what is left of its transfers is squashed and its segments are
withdrawn (steps 3 and 4); when the withdrawals are complete, the abort ends. (DEDUCED: log 53) -/
def State.abortStep (s : State) (c : Nat) : State :=
  if (s.ctx c).state ≠ .aborting || s.launches.any (fun e => e.2.ctx = c) || !(s.fesOf c).isEmpty then s
  else
    let s := { s with cmds := s.cmds.filter fun e => e.2.ctx ≠ c }
    let s := (List.range 16).foldl (fun s i =>
      let g := (s.ctx c).seg i
      if g.pages = 0 then s
      else ((s.modCtx c fun x => { x with segs := tdel x.segs i }).withdraw c i g (.abort c)).2) s
    if s.withdrawals.any fun w => w.2.why.contains (.abort c) then s else s.finishAbort c

def execAbortComplete (c : Nat) (s : State) : Host.Outcome State Fault Refusal := .next (s.work (s.abortStep c))

/-! ### Memory objects (R349 to R352) -/

/-- Bytes of a partition's memory: the capacities of its channels outside hub-private memory (R337). -/
def State.partBytes (s : State) (p : Nat) : Nat :=
  ((s.part p).channels.map fun m => ((s.boot.fpt.find? fun f => f.type = 3 && f.index = m).map (·.detail)).getD 0).sum * 2 ^ 20

/-- The ranges of a partition that are not free: those of its device objects and those being freed. -/
def State.usedRanges (s : State) (p : Nat) : List (Nat × Nat) :=
  (s.objs.filter fun e => e.2.state != 0 && !e.2.host && tagPart e.2.owner = p).map (fun e => (e.2.base, e.2.size))
    ++ (s.freeing.filter fun r => r.1 = p).map (·.2)

/-- The lowest base from `at_` on where `n` bytes are free: a base that meets a used range moves past it. -/
def fitFrom (used : List (Nat × Nat)) (n : Nat) : Nat → Nat → Nat
  | 0, at_ => at_
  | fuel + 1, at_ =>
    match used.find? fun r => r.1 < at_ + n && at_ < r.1 + r.2 with
    | none => at_
    | some r => fitFrom used n fuel (r.1 + r.2)

/-- The lowest free range of a partition that fits (R349). -/
def State.fit (s : State) (p n : Nat) : Option Nat :=
  let used := s.usedRanges p
  let b := fitFrom used n (used.length + 1) (2 ^ 40 * p)
  if b + n ≤ 2 ^ 40 * p + s.partBytes p then some b else none

/-- Sizes of a memory object (Table 7-3). -/
def objSizeOk (n : Nat) : Bool := n != 0 && n ≤ 2 ^ 40 && n % 65536 == 0

/-- A free index of a table of `n` entries. Which one the hub takes is not stated: the first free one from a free value
on, cyclically. (DESIGN CHOICE: log 12, 52) -/
def State.pickFree (s : State) (n : Nat) (free : Nat → Bool) : Option Nat × State :=
  let (v, s) := s.free
  (firstFrom (fun i => free (i % n)) n (v.toNat % n) |>.map (· % n), s)

/-- A new memory object of a context. (DESIGN CHOICE: log 52) -/
def State.newObj (s : State) (c : Nat) (o : Obj) : Option Nat × State :=
  match s.pickFree 262144 fun i => (s.obj i).state == 0 with
  | (none, s) => (none, s)
  | (some i, s) =>
    (some i, (s.setObj i { o with gen := (s.obj i).gen, owner := s.tag c }).modCtx c fun x => { x with objectsOwned := x.objectsOwned + 1 })

/-- OBJ_CREATE (R349): the entry is in state ZEROING and the request stays in progress until the zeroing ends. -/
def State.reqObjCreate (s : State) (fn : Fn) : State :=
  s.onLive fn fun s c =>
    let b := s.block fn
    let n := b.a1
    if !objSizeOk n then s.reqDone fn 1 0 0
    else
      match s.fit (s.ctx c).part n with
      | none => s.reqDone fn 2 0 0
      | some base =>
        match s.newObj c { exported := bit b.a2 0, state := 1, base := base, size := n } with
        | (none, s) => s.reqDone fn 2 0 0
        | (some i, s) => s.setBlock fn { s.block fn with subject := mkHandle 3 (s.obj i).gen i }

def execObjCreate (fn : Fn) (tag : BitVec 16) (s : State) : Host.Outcome State Fault Refusal :=
  .next (s.work (s.request fn tag 0x04 fun s => s.reqObjCreate fn))

/-- OBJ_ZEROING_COMPLETE (R349): the object reads zero and is live, and the request returns its handle. The zeroing of an
object of a context in ABORTING has stopped. (DEDUCED: log 55) -/
def execObjZeroingComplete (fn : Fn) (s : State) : Host.Outcome State Fault Refusal :=
  .next (s.work <|
    let b := s.block fn
    let i := hIndex b.subject
    let o := s.obj i
    if !b.busy || b.queued || b.op != 4 || !s.zeroing b.subject || (s.ctx (tagCtx o.owner)).state == .aborting then s
    else
      let s := { s with mem := mzero s.mem o.base o.size }
      (s.setObj i { o with state := 2 }).reqDone fn 0 b.subject.toNat o.base)

/-- OBJ_CREATE_HOST (R350). -/
def State.reqObjCreateHost (s : State) (fn : Fn) : State :=
  s.onLive fn fun s c =>
    let b := s.block fn
    if b.a1 % 65536 ≠ 0 ∨ !objSizeOk b.a2 then s.reqDone fn 1 0 0
    else
      match s.newObj c { host := true, state := 2, base := b.a1, size := b.a2 } with
      | (none, s) => s.reqDone fn 2 0 0
      | (some i, s) => s.reqDone fn 0 (mkHandle 3 (s.obj i).gen i).toNat 0

def execObjCreateHost (fn : Fn) (tag : BitVec 16) (s : State) : Host.Outcome State Fault Refusal :=
  .next (s.work (s.request fn tag 0x05 fun s => s.reqObjCreateHost fn))

/-! ### Fences and imports (R345, R353) -/

/-- FENCE_CREATE (R353, R338). (DESIGN CHOICE: log 52) -/
def State.reqFenceCreate (s : State) (fn : Fn) : State :=
  s.onLive fn fun s c =>
    let a2 := (s.block fn).a2
    if a2 % 4 = 3 then s.reqDone fn 1 0 0
    else if 65536 ≤ (s.ctx c).fencesOwned then s.reqDone fn 2 0 0
    else
      match s.pickFree 1048576 fun i => (s.fence i).state == 0 with
      | (none, s) => s.reqDone fn 2 0 0
      | (some i, s) =>
        let f : Fence := { gen := (s.fence i).gen, exportScope := a2 % 4, notify := bit a2 2, state := 1, owner := s.tag c,
                           key := BitVec.ofNat 16 (fld a2 31 16) }
        let s := (s.setFence i f).modCtx c fun x => { x with fencesOwned := x.fencesOwned + 1 }
        s.reqDone fn 0 (mkHandle 4 f.gen i).toNat 0

def execFenceCreate (fn : Fn) (tag : BitVec 16) (s : State) : Host.Outcome State Fault Refusal :=
  .next (s.work (s.request fn tag 0x06 fun s => s.reqFenceCreate fn))

/-- Bytes 0 to 7 of a fence entry (Table 7-13). -/
def Fence.word (f : Fence) : Nat :=
  f.key.toNat * 2 ^ 48 + f.owner.toNat * 2 ^ 32 + f.gen * 2 ^ 24 + f.error * 2 ^ 16 + f.imports * 2 ^ 8 + f.exportScope * 2 ^ 6
    + flag f.notify 5 + flag f.releasing 4 + flag f.orphaned 3 + f.state

/-- FENCE_QUERY (R353). -/
def State.reqFenceQuery (s : State) (fn : Fn) : State :=
  s.onCtx fn fun s c =>
    let h := BitVec.ofNat 32 (s.block fn).a1
    if !s.fenceValid c h none then s.reqDone fn 3 0 0
    else let f := s.fence (hIndex h); s.reqDone fn 0 f.word f.signalThyme

def execFenceQuery (fn : Fn) (tag : BitVec 16) (s : State) : Host.Outcome State Fault Refusal :=
  .next (s.work (s.request fn tag 0x07 fun s => s.reqFenceQuery fn))

/-- What IMPORT makes of an entry: is it live with this generation, its owner, whether it is orphaned, exported, how many
imports it has and may have. -/
def State.importView (s : State) (h : BitVec 32) : Option (BitVec 16 × Bool × Bool × Nat × Nat) :=
  let i := hIndex h
  if hType h = 3 ∧ i < 262144 then
    let o := s.obj i
    if hGen h = o.gen ∧ (o.state = 2 ∨ o.state = 3) then some (o.owner, decide (o.state = 3), o.exported, o.imports, 65535) else none
  else if hType h = 4 then
    let f := s.fence i
    if hGen h = f.gen ∧ f.state ≠ 0 then some (f.owner, f.orphaned, f.exportScope != 0, f.imports, 255) else none
  else none

/-- IMPORT (R345, R338). -/
def State.reqImport (s : State) (fn : Fn) : State :=
  s.onLive fn fun s c =>
    let h := BitVec.ofNat 32 (s.block fn).a1
    let x := s.ctx c
    match s.importView h with
    | none => s.reqDone fn 3 0 0
    | some (owner, orphaned, exported, imports, limit) =>
      if x.imports.contains h || (owner == x.tag c && !orphaned) then s.reqDone fn 5 0 0
      else if tagPart owner ≠ x.part ∨ !exported then s.reqDone fn 4 0 0
      else if limit ≤ imports then s.reqDone fn 2 0 0
      else
        let i := hIndex h
        let s := if hType h = 3 then s.setObj i { s.obj i with imports := imports + 1 }
          else s.setFence i { s.fence i with imports := imports + 1 }
        (s.modCtx c fun x => { x with imports := x.imports ++ [h] }).reqDone fn 0 h.toNat 0

def execImportEntry (fn : Fn) (tag : BitVec 16) (s : State) : Host.Outcome State Fault Refusal :=
  .next (s.work (s.request fn tag 0x08 fun s => s.reqImport fn))

/-- Requests that the tables define. -/
def reqKnown (op : Nat) : Bool := 1 ≤ op && op ≤ 0x16

/-- OBJ_UNKNOWN_OP (R341, Table 7-8): an OP that no table defines ends with BAD_ARG. -/
def execObjUnknownOp (fn : Fn) (tag : BitVec 16) (op : BitVec 8) (s : State) : Host.Outcome State Fault Refusal :=
  .next (s.work <|
    if reqKnown op.toNat || !s.decodes fn || !s.fwRuns then s
    else
      let b := s.block fn
      if b.busy then s.setBlock fn { b with lost := true }
      else
        let s := s.setBlock fn { b with busy := true, op := op.toNat, curTag := tag, subject := 0, waits := [], queued := s.sage.wardenDown }
        if s.sage.wardenDown then s else s.reqDone fn 1 0 0)

/-! ### Queues (R384 to R386) -/

/-- QUEUE_CREATE (R384, R332). -/
def State.reqQueueCreate (s : State) (fn : Fn) : State :=
  s.onCtx fn fun s c =>
    let b := s.block fn
    let va := b.a1
    let n := fld b.a2 10 8
    let sz := fld b.a2 4 0
    if sz < 8 ∨ 24 < sz ∨ va % 2 ^ sz ≠ 0 ∨ 2 ^ 48 ≤ va then s.reqDone fn 1 0 0
    else
      let q := (s.ctx c).queue n
      if (s.ctx c).state ≠ .live ∨ q.state ≠ 0 then s.reqDone fn 5 0 0
      else
        (s.modCtx c fun x => x.setQueue n { gen := q.gen, state := 1, deviceWritten := bit b.a2 16, sizeLog2 := sz, ringVa := va }).reqDone
          fn 0 (mkHandle 2 q.gen (8 * c + n)).toNat 0

def execQueueCreate (fn : Fn) (tag : BitVec 16) (s : State) : Host.Outcome State Fault Refusal :=
  .next (s.work (s.request fn tag 0x09 fun s => s.reqQueueCreate fn))

/-- A request on a queue of a context (R333). -/
def State.onQueue (s : State) (fn : Fn) (run : State → Nat → State) : State :=
  s.onCtx fn fun s c =>
    let h := BitVec.ofNat 32 (s.block fn).a1
    let qi := hIndex h
    if hType h = 2 ∧ qi / 8 = c ∧ hGen h = (s.queue qi).gen ∧ (s.queue qi).state ≠ 0 then run s qi else s.reqDone fn 3 0 0

/-- QUEUE_DESTROY (R385): fetching stops, and the request stays in progress until every started command has retired. -/
def State.reqQueueDestroy (s : State) (fn : Fn) : State :=
  s.onQueue fn fun s qi =>
    if (s.queue qi).bound.isSome then s.reqDone fn 5 0 0
    else
      let s := s.setQueue qi { s.queue qi with destroying := true }
      s.setBlock fn { s.block fn with subject := mkHandle 2 (s.queue qi).gen qi }

def execQueueDestroy (fn : Fn) (tag : BitVec 16) (s : State) : Host.Outcome State Fault Refusal :=
  .next (s.work (s.request fn tag 0x0A fun s => s.reqQueueDestroy fn))

/-- QUEUE_DESTROY_COMPLETE (R385). -/
def execQueueDestroyComplete (fn : Fn) (s : State) : Host.Outcome State Fault Refusal :=
  .next (s.work <|
    let b := s.block fn
    let qi := hIndex b.subject
    if !b.busy || b.queued || b.op != 0x0A || !(s.startedCmds qi).isEmpty then s
    else
      let q := s.queue qi
      let s := if q.gen = hGen b.subject then
          (s.setQueue qi { gen := nextGen q.gen }).modCtx (qi / 8) fun x =>
            { x with released := x.released.map fun r => { r with marks := r.marks.filter fun m => m.1 ≠ qi } }
        else s
      s.reqDone fn 0 0 0)

/-- QUEUE_RESUME (R386, R867). -/
def State.reqQueueResume (s : State) (fn : Fn) : State :=
  s.onQueue fn fun s qi =>
    let q := s.queue qi
    if q.state ≠ 2 then s.reqDone fn 5 0 0
    else
      let away := (s.ctx (qi / 8)).sched.rslot.isNone && q.tail != q.head
      (s.setQueue qi { q with state := 1, haltCode := 0, pendingBit := q.pendingBit || away }).reqDone fn 0 0 0

def execQueueResume (fn : Fn) (tag : BitVec 16) (s : State) : Host.Outcome State Fault Refusal :=
  .next (s.work (s.request fn tag 0x0B fun s => s.reqQueueResume fn))

/-- QUEUE_TARGET (R525). -/
def State.reqQueueTarget (s : State) (fn : Fn) : State :=
  s.onQueue fn fun s qi =>
    let a2 := (s.block fn).a2
    let va := fld a2 47 0
    let q := s.queue qi
    if va % 8 ≠ 0 then s.reqDone fn 1 0 0
    else if q.bound.isSome || (s.startedCmds qi).any fun e => e.2.op = 2 || e.2.op = 3 then s.reqDone fn 5 0 0
    else (s.setQueue qi { q with targetFn := fld a2 63 48, nativeVa := va }).reqDone fn 0 0 0

def execQueueTarget (fn : Fn) (tag : BitVec 16) (s : State) : Host.Outcome State Fault Refusal :=
  .next (s.work (s.request fn tag 0x14 fun s => s.reqQueueTarget fn))

end Sys2Proof.Machine
end

