-- ==== Sys2Proof/Machine/Segments.lean ====
section
/-! DEFINITION. Segments (chapter 9): the mapping requests, withdrawals and their acknowledgements, the miss queues, and
the accesses through BAR4 (chapter 14), with the staging region they reach (chapter 19). -/

namespace Sys2Proof.Machine

/-! ### Mapping (R430 to R439) -/

/-- The segment that a request names in ARG0 [35:32]. -/
def ObjBlock.seg (b : ObjBlock) : Nat := fld b.a0 35 32

/-- A mapping request on a context: its table is the context's own (R439), and its state is checked (R436). -/
def State.onTable (s : State) (fn : Fn) (ok : CtxState → Bool) (run : State → Nat → State) : State :=
  let r := s.reqCtx fn (fld (s.block fn).a0 31 0)
  if r.1 ≠ 0 then s.reqDone fn r.1 0 0
  else if (s.ctx r.2).shareOf.isSome then s.reqDone fn 4 0 0
  else if !ok (s.ctx r.2).state then s.reqDone fn 5 0 0
  else run s r.2

/-- Do two byte ranges share a byte? -/
def rangesMeet (a n b m : Nat) : Bool := a < b + m && b < a + n

/-- The other valid segments of a table. -/
def Context.otherSegs (x : Context) (i : Nat) : List Seg :=
  ((List.range 16).filter fun j => j != i && (x.seg j).pages != 0).map x.seg

/-- The conditions of R434 that need no object. -/
def Context.mapPlainBad (x : Context) (i : Nat) (g : Seg) : Bool :=
  (g.lro && g.w) || decide (2 ^ 32 < g.vpage + g.pages) || (x.otherSegs i).any fun o => rangesMeet g.vpage g.pages o.vpage o.pages

/-- The conditions of R434 and R481 that need the object. -/
def Context.mapObjBad (x : Context) (i : Nat) (g : Seg) (offset size : Nat) : Bool :=
  decide (size < (offset + g.pages) * 65536)
    || (x.otherSegs i).any (fun o => o.host == g.host && (o.w || g.w) && rangesMeet g.pbase (g.pages * 65536) o.pbase (o.pages * 65536))
    || (g.w && (g.object == x.undo.object || g.object == x.sched.saveObject))

/-- A changed descriptor stands in the table; the request ends at once, or waits for the withdrawal of the old one. -/
def State.putSeg (s : State) (fn : Fn) (c i : Nat) (g : Seg) : State :=
  let old := (s.ctx c).seg i
  let s := s.modCtx c fun x => { x with segs := tput x.segs i g }
  if old.pages ≠ 0 ∧ old.present ∧ old ≠ g then
    let r := s.withdraw c i old (.request fn)
    r.2.setBlock fn { r.2.block fn with waits := [r.1] }
  else s.reqDone fn 0 0 0

/-- SEG_MAP (R432 to R435, R437). (DEDUCED: log 51) -/
def State.reqSegMap (s : State) (fn : Fn) : State :=
  s.onTable fn (· == .live) fun s c =>
    let b := s.block fn
    let i := b.seg
    let x := s.ctx c
    let h := BitVec.ofNat 32 (fld b.a2 31 0)
    let o := s.obj (hIndex h)
    let offset := fld b.a2 55 32
    let old := x.seg i
    let g : Seg :=
      { vpage := fld b.a1 31 0, pages := fld b.a1 56 32, pbase := o.base + 65536 * offset, object := h,
        keyIdx := if o.host then 31 else x.part, sourceFn := fnKey fn, host := o.host, present := bit b.a0 39, lro := bit b.a0 38,
        w := bit b.a0 37, rd := bit b.a0 36 }
    if x.mapPlainBad i g then s.reqDone fn 1 0 0
    else if !s.objValid c h none then s.reqDone fn 3 0 0
    else if x.mapObjBad i g offset o.size then s.reqDone fn 1 0 0
    else if g.pages = 0 then s.reqDone fn 0 0 0
    else if s.scheduleRuns x.part ∧ old.pages ≠ 0 ∧ old ≠ g then s.reqDone fn 5 0 0
    else
      let s := s.putSeg fn c i g
      if g.present then s.segResolveAll c i false else s

def execSegMap (fn : Fn) (tag : BitVec 16) (s : State) : Host.Outcome State Fault Refusal :=
  .next (s.work (s.request fn tag 0x0C fun s => s.reqSegMap fn))

def liveOrLost (x : CtxState) : Bool := x == .live || x == .lost

/-- SEG_UNMAP (R436, R437). -/
def State.reqSegUnmap (s : State) (fn : Fn) : State :=
  s.onTable fn liveOrLost fun s c =>
    let i := (s.block fn).seg
    let old := (s.ctx c).seg i
    if old.pages = 0 then s.reqDone fn 0 0 0
    else if s.scheduleRuns (s.ctx c).part then s.reqDone fn 5 0 0
    else
      let s := s.modCtx c fun x => { x with segs := tdel x.segs i }
      let r := s.withdraw c i old (.request fn)
      (r.2.setBlock fn { r.2.block fn with waits := [r.1] }).segResolveAll c i false

def execSegUnmap (fn : Fn) (tag : BitVec 16) (s : State) : Host.Outcome State Fault Refusal :=
  .next (s.work (s.request fn tag 0x0D fun s => s.reqSegUnmap fn))

/-- SEG_REFUSE (R455, R456). -/
def State.reqSegRefuse (s : State) (fn : Fn) : State :=
  s.onTable fn liveOrLost fun s c =>
    let i := (s.block fn).seg
    if s.segFaults.any fun f => s.tableOwner f.ctx = c && f.seg = i then (s.reqDone fn 0 0 0).segResolveAll c i true
    else s.reqDone fn 5 0 0

/-- (DEDUCED: log 58) -/
def execSegRefuse (fn : Fn) (tag : BitVec 16) (s : State) : Host.Outcome State Fault Refusal :=
  .next (s.work (s.request fn tag 0x0E fun s => s.reqSegRefuse fn))

/-- Is an object mapped with W set in the table that a context uses? -/
def State.mappedW (s : State) (c : Nat) (h : BitVec 32) : Bool :=
  let x := s.ctx (s.tableOwner c)
  (List.range 16).any fun i => (x.seg i).pages != 0 && (x.seg i).object == h && (x.seg i).w

/-- UNDO_SET (R458). (DEDUCED: log 51; DESIGN CHOICE: log 54) -/
def State.reqUndoSet (s : State) (fn : Fn) : State :=
  s.onLive fn fun s c =>
    let h := BitVec.ofNat 32 (s.block fn).a1
    let o := s.obj (hIndex h)
    let dispatched := s.launches.any fun e => e.2.ctx = c && e.2.place != .waiting
    let put (s : State) (object base slots : Nat) : State :=
      (s.modCtx c fun x => { x with undo := { x.undo with object := BitVec.ofNat 32 object, base := base, slots := slots } }).reqDone fn 0 0 0
    if h = 0 then if dispatched then s.reqDone fn 5 0 0 else put s 0 0 0
    else if !s.objValid c h none then s.reqDone fn 3 0 0
    else if o.host || o.size % 65536 != 0 || decide (o.size < 2 * 65536) || decide (8193 * 65536 < o.size) then s.reqDone fn 1 0 0
    else if dispatched || s.mappedW c h then s.reqDone fn 5 0 0
    else put s h.toNat o.base (o.size / 65536 - 1)

def execUndoSet (fn : Fn) (tag : BitVec 16) (s : State) : Host.Outcome State Fault Refusal :=
  .next (s.work (s.request fn tag 0x0F fun s => s.reqUndoSet fn))

/-- SEG_SHARE (R438). -/
def State.reqSegShare (s : State) (fn : Fn) : State :=
  s.onLive fn fun s c =>
    let h := BitVec.ofNat 32 (s.block fn).a1
    let d := hIndex h
    let x := s.ctx c
    let y := s.ctx d
    if !s.ctxValid h then s.reqDone fn 3 0 0
    else if !(s.part x.part).validated || y.state != .live || x.vf != y.vf || x.part != y.part || c == d || y.shareOf.isSome
        || (List.range 16).any (fun i => (x.seg i).pages != 0) || s.ctxs.any (fun e => e.2.shareOf == some c) then s.reqDone fn 5 0 0
    else (s.setCtx c { x with shareOf := some d }).reqDone fn 0 0 0

def execSegShare (fn : Fn) (tag : BitVec 16) (s : State) : Host.Outcome State Fault Refusal :=
  .next (s.work (s.request fn tag 0x10 fun s => s.reqSegShare fn))

/-! ### Segment caches and withdrawals (R443 to R451) -/

/-- SEG_MISS_FILL: a miss is served from the context table; only a valid descriptor that is PRESENT is cached, and the
least recently used of 64 entries gives way. -/
def execSegMissFill (cache : CacheId) (c seg : Nat) (s : State) : Host.Outcome State Fault Refusal :=
  .next (s.work <|
    let owner := s.tableOwner c
    let g := (s.ctx owner).seg seg
    let s := { s with fe := { s.fe with segMiss := bump s.fe.segMiss 1 } }
    if g.pages = 0 ∨ !g.present then s
    else
      let old := ((s.caches.find? fun k => k.who = cache).map (·.tags)).getD []
      let tags := ((owner, seg) :: old.filter fun t => t ≠ (owner, seg)).take 64
      { s with caches := ⟨cache, tags⟩ :: s.caches.filter fun k => k.who ≠ cache })

/-- May a cache acknowledge a withdrawal? It has been broadcast to it, and the cache has acknowledged those broadcast
before it (R451). -/
def State.mayAck (s : State) (id : Nat) (c : CacheId) : Bool :=
  match tfind s.withdrawals id with
  | none => false
  | some w => w.broadcast && w.waiting.contains c
      && s.withdrawals.all fun e => !(e.2.broadcast && decide (e.1 < id) && e.2.waiting.contains c)

/-- WITHDRAWAL_ACK (R448). A proxy waits for the chiplet's INVAL_ACK while its INVALIDATE is outstanding (R450). -/
def execWithdrawalAck (w : Nat) (cache : CacheId) (s : State) : Host.Outcome State Fault Refusal :=
  .next (s.work <|
    let outstanding := match cache with
      | .proxy port => (s.cp port).invals.any fun i => i.2 = w
      | _ => false
    if s.mayAck w cache && !outstanding then s.cacheAck w cache else s)

/-- What waited for a withdrawal goes on. -/
def State.withdrawn (s : State) (id : Nat) (why : WdFor) : State :=
  match why with
  | .request fn =>
    let b := s.block fn
    if !b.busy || !b.waits.contains id then s
    else
      let rest := b.waits.filter (· ≠ id)
      let s := s.setBlock fn { b with waits := rest }
      if rest.isEmpty then s.reqDone fn 0 0 0 else s
  | .abort _ => s
  | .freed p base size =>
    if s.withdrawals.any fun w => w.2.why.contains (.freed p base size) then s
    else { s with freeing := s.freeing.erase (p, base, size) }

/-- A withdrawal that every cache has acknowledged is complete (R447), and a waiting one may be broadcast (R451). -/
def State.withdrawalDone (s : State) (id : Nat) : State :=
  match tfind s.withdrawals id with
  | none => s
  | some w =>
    if !w.broadcast || !w.waiting.isEmpty then s
    else
      let s := { s with withdrawals := tdel s.withdrawals id, fe := { s.fe with inval := bump s.fe.inval 1 } }
      (w.why.foldl (fun s y => s.withdrawn id y) s).broadcastNext

/-- WITHDRAWAL_COMPLETE. -/
def execWithdrawalComplete (w : Nat) (s : State) : Host.Outcome State Fault Refusal := .next (s.work (s.withdrawalDone w))

/-- A cache that has not acknowledged in time (R450): a port is quarantined; any other unit is reset, and an engine is
retired; the cache counts as having acknowledged. (DEDUCED: log 57) -/
def State.ackLate (s : State) (w : Nat) (cache : CacheId) : State :=
  let s := { s with fe := { s.fe with invalLate := bump s.fe.invalLate 1 } }
  let reset (s : State) : State := { s.cacheAck w cache with caches := (s.cacheAck w cache).caches.filter fun k => k.who ≠ cache }
  match cache with
  | .proxy port => (s.quarantine port 7).cacheAck w cache
  | .engine e => ((reset s).sageFail (engSrc e 6) 5).retireUnit (.engine e) (engSrc e 6) 5
  | .frontEnd => (reset s).sageFail 0x280 5
  | .host => (reset s).sageFail 0x701 5

/-- INVAL_ACK_TIMEOUT. (DESIGN CHOICE: log 7; DEDUCED: log 57) -/
def execInvalAckTimeout (w : Nat) (cache : CacheId) (s : State) : Host.Outcome State Fault Refusal :=
  .next (s.work <|
    match tfind s.withdrawals w with
    | none => s
    | some d => if d.broadcast && d.waiting.contains cache then s.ackLate w cache else s)

/-! ### Miss queues (R453 to R457, R468) -/

/-- A miss record (Table 9-6). -/
def State.missRecord (s : State) (f : SegFault) (seq : Nat) : List Byte :=
  bytesLE 8 (s.ctxHandle f.ctx).toNat ++ bytesLE 8 (f.va % 2 ^ 48) ++ bytesLE 8 f.thyme
    ++ bytesLE 8 (seq % 2 ^ 32 * 2 ^ 32 + f.access % 16 * 16 + f.seg % 16)

/-- SEG_FAULT_RECORD_POST: the oldest pending fault of a function without a record gets one, when fewer than 64 have
theirs and the ring has room. -/
def execSegFaultRecordPost (fn : Fn) (s : State) : Host.Outcome State Fault Refusal :=
  .next (s.work <|
    let q := s.missq fn
    let posted := (s.segFaults.filter fun f => f.fn = fn && f.posted).length
    match s.segFaults.find? fun f => f.fn = fn && !f.posted with
    | none => s
    | some f =>
      let used := ahead32 q.head q.tail
      if !q.enable || decide (64 ≤ posted) || decide (2 ^ q.sizeLog2 ≤ used) then s
      else
        let at_ := q.base + 32 * (q.tail % 2 ^ q.sizeLog2)
        let s := s.hostWrite at_ (s.missRecord f (q.seq + 1))
        let s := s.setMissq fn { q with tail := (q.tail + 1) % 2 ^ 32, seq := (q.seq + 1) % 2 ^ 32 }
        let s := { s with segFaults := s.segFaults.map fun g => if g = f then { g with posted := true } else g }
        if used = 0 then s.raise fn 2 else s)

/-- SEG_FAULT_TIMEOUT: the function has not answered a posted record in time (R455). -/
def execSegFaultTimeout (c seg : Nat) (s : State) : Host.Outcome State Fault Refusal :=
  .next (s.work <|
    match s.segFaults.find? fun f => f.ctx = c && f.seg = seg && f.posted with
    | none => s
    | some f => s.segResolve f true)

/-- MISSQ_HEAD_WRITE (R468). -/
def execMissqHeadWrite (fn : Fn) (v : BitVec 64) (s : State) : Host.Outcome State Fault Refusal :=
  .next (s.work <|
    let q := s.missq fn
    let h := fld v.toNat 31 0
    if s.decodes fn && s.fwRuns && decide (ahead32 h q.tail ≤ ahead32 q.head q.tail) then s.setMissq fn { q with head := h } else s)

/-- MISSQ_CTRL as a write leaves it (R468, R27). -/
def MissQ.ctrl (q : MissQ) (v : Nat) : MissQ :=
  let t := fld v 31 16
  let size := if q.enable then q.sizeLog2 else fld v 4 0
  { q with timeoutMs := if 1 ≤ t ∧ t ≤ 10000 then t else q.timeoutMs, sizeLog2 := size,
           enable := bit v 8 && decide (4 ≤ size) && decide (size ≤ 16) }

/-- MISSQ_CTRL_WRITE. -/
def execMissqCtrlWrite (fn : Fn) (v : BitVec 64) (s : State) : Host.Outcome State Fault Refusal :=
  .next (s.work (if s.decodes fn && s.fwRuns then s.setMissq fn ((s.missq fn).ctrl v.toNat) else s))

/-! ### The staging region (R675, R843, R853) -/

/-- Bytes of the Floor Plan Table (Table 19-3). -/
def State.fptBytes (s : State) : List Byte :=
  if s.boot.step < 5 then []
  else
    let hub := if s.fab.idValid then s.fab.hubId else 0xFFFF
    bytesLE 4 0x50465653 ++ bytesLE 2 1 ++ bytesLE 2 s.boot.fpt.length ++ bytesLE 4 s.boot.generation ++ bytesLE 2 hub ++ bytesLE 2 0
      ++ bytesLE 8 s.boot.composed ++ bytesLE 3 s.rm.powerCycles ++ bytesLE 5 0
      ++ s.boot.fpt.flatMap fun f => bytesLE 1 f.type ++ bytesLE 1 f.status ++ bytesLE 2 f.index ++ bytesLE 4 f.detail

/-- Bytes of the boot page (Table 19-8). -/
def State.bootPage (s : State) : List Byte :=
  let b := s.boot
  let status := b.statSeq % 2 ^ 32 * 2 ^ 32 + b.code % 256 * 2 ^ 24 + b.fwState % 16 * 2 ^ 16 + b.source % 2
  bytesLE 8 (b.reqSeq % 2 ^ 32 * 2 ^ 32 + b.reqOp % 256) ++ bytesLE 8 (b.len % 2 ^ 32) ++ List.replicate 0x30 0 ++ bytesLE 8 status
    ++ bytesLE 8 (b.total % 2 ^ 32 * 2 ^ 32 + b.held.length % 2 ^ 32) ++ takePad 48 b.digest

/-- The region is usable once the table is composed and a memory channel works (R675, Table 19-5). -/
def State.stagingUp (s : State) : Bool :=
  decide (5 ≤ s.boot.step) && s.boot.fpt.any fun f => f.type = 3 && (f.status = 1 || f.status = 2)

/-- The byte at an offset of the staging region. -/
def State.stagingByte (s : State) (fpt page : List Byte) (o : Nat) : Byte :=
  if o < 0x01F00000 then mread s.boot.image o
  else if o < 0x01FFF000 then fpt.getD (o - 0x01F00000) 0
  else if o < 0x02000000 then page.getD (o - 0x01FFF000) 0
  else 0

def State.stagingRead (s : State) (off n : Nat) : List Byte :=
  if s.stagingUp then
    let fpt := s.fptBytes
    let page := s.bootPage
    (List.range n).map fun i => s.stagingByte fpt page (off + i)
  else List.replicate n 0

/-- A byte written by the host: the image buffer, BOOT_REQ and BOOT_LEN take it. -/
def State.stagingPut (s : State) (o : Nat) (b : Byte) : State :=
  let put (x k : Nat) : Nat := x - x / 2 ^ (8 * k) % 256 * 2 ^ (8 * k) + b.toNat * 2 ^ (8 * k)
  let p := o - 0x01FFF000
  if o < 0x01F00000 then { s with boot := { s.boot with image := mwrite s.boot.image o b } }
  else if o < 0x01FFF000 then s
  else if p = 0 then { s with boot := { s.boot with reqOp := b.toNat } }
  else if 4 ≤ p ∧ p < 8 then { s with boot := { s.boot with reqSeq := put s.boot.reqSeq (p - 4) } }
  else if 8 ≤ p ∧ p < 12 then { s with boot := { s.boot with len := put s.boot.len (p - 8) } }
  else s

def State.stagingWrite (s : State) (off : Nat) (bs : List Byte) : State :=
  if s.stagingUp then bs.zipIdx.foldl (fun s p => s.stagingPut (off + p.2) p.1) s else s

/-! ### BAR4 of a VF (R676, R677) -/

/-- The context and virtual address that an offset of a VF's BAR4 reaches; none where the aperture reads zero. A context
held for data lost at rest reads zero too (R709). (DEDUCED: log 59) -/
def State.aperture (s : State) (v off : Nat) : Option (Nat × Nat) :=
  let x := s.vf v
  let q := 2 ^ 18 * x.bar4MiB
  let a : Aperture := tget {} x.aps (off / q)
  let c := hIndex a.ctx
  let y := s.ctx c
  if off < 4 * q ∧ s.ctxValid a.ctx ∧ y.state = .live ∧ y.vf = v ∧ !y.lostHold then some (c, 65536 * a.vbase + off % q) else none

/-- A BAR4 access in progress: the context it is charged to, the bytes read, the violations, the bytes moved, and whether
a line met a segment that is not present. -/
structure Bar4Run where
  s : State
  ctx : Option Nat := none
  bytes : List Byte := []
  viol : Viol := {}
  moved : Nat := 0
  absent : Bool := false

/-- One line of a read. (DEDUCED: log 59) -/
def Bar4Run.read (r : Bar4Run) (v off n : Nat) : Bar4Run :=
  let zeros := List.replicate n 0
  match r.s.aperture v off with
  | none => { r with bytes := r.bytes ++ zeros }
  | some (c, va) =>
    match r.s.access ⟨c, 6, ⟨0, 0⟩, []⟩ va with
    | .ok host a => { r with ctx := some c, bytes := r.bytes ++ r.s.physRead host a n, moved := r.moved + n }
    | .viol code => { r with ctx := some c, bytes := r.bytes ++ zeros, viol := r.viol.add 1 va 6 code }
    | .absent _ => { r with bytes := r.bytes ++ zeros, absent := true }
    | .waits _ => { r with bytes := r.bytes ++ zeros }

/-- One line of a write. -/
def Bar4Run.write (r : Bar4Run) (v off : Nat) (bs : List Byte) : Bar4Run :=
  match r.s.aperture v off with
  | none => r
  | some (c, va) =>
    match r.s.access ⟨c, 7, ⟨0, 0⟩, []⟩ va with
    | .ok host a => { r with s := r.s.physWrite host a bs, ctx := some c, moved := r.moved + bs.length }
    | .viol code => { r with ctx := some c, viol := r.viol.add 1 va 7 code }
    | .absent _ => { r with absent := true }
    | .waits _ => r

/-- What follows the lines: bytes are charged to HOST_BYTES (Table 10-2), an absent segment is counted (Table 9-5), and
the violations make one fault in no queue (R865). (DEDUCED: log 59) -/
def Bar4Run.finish (r : Bar4Run) : State :=
  let s := if r.absent then { r.s with fe := { r.s.fe with bar4Absent := bump r.s.fe.bar4Absent 1 } } else r.s
  match r.ctx with
  | none => s
  | some c =>
    let s := s.chargeBytes c 0 r.moved
    if r.viol.lines = 0 then s else s.fault c r.viol.code { source := 0x701, access := r.viol.acc, address := r.viol.addr }

/-- BAR4_READ: the bytes go back in a completion. (DEDUCED: log 59) -/
def execBar4Read (fn : Fn) (off len : Nat) (s : State) : Host.Outcome State Fault Refusal :=
  .next (
    let reply (s : State) (bs : List Byte) : State := { s with out := s.out ++ [Out.completion fn bs] }
    if !s.decodes fn then reply s (List.replicate len 0)
    else
      match fn with
      | .pf => reply s (s.stagingRead off len)
      | .vf v =>
        let r := (lineList off len).foldl (fun (r : Bar4Run) p => r.read v p.1 p.2) { s := s }
        reply r.finish r.bytes)

/-- BAR4_WRITE. -/
def execBar4Write (fn : Fn) (off : Nat) (bytes : List (BitVec 8)) (s : State) : Host.Outcome State Fault Refusal :=
  .next (
    if !s.decodes fn then s
    else
      match fn with
      | .pf => s.stagingWrite off bytes
      | .vf v =>
        ((lineList off bytes.length).foldl (fun (r : Bar4Run) p => r.write v p.1 ((bytes.drop (p.1 - off)).take p.2)) { s := s }).finish)

end Sys2Proof.Machine
end

