-- ==== Sys2Proof/Machine/Scheduling.lean ====
section
/-! DEFINITION. Pooled scheduling (chapter 10): scheduling states, dispatch rounds, time slices, switching contexts out
and in, eviction, save areas, shares and accounting. -/

namespace Sys2Proof.Machine

/-! ### What can run (R478, Table 10-1) -/

/-- A launch out of a slot that nothing but a semaphore keeps from resuming. -/
def State.couldResume (s : State) (l : Launch) : Bool :=
  l.segStop.isNone && !l.restoring && (l.qwait.isNone || s.canWake l) &&
    match l.place with
    | .slot .. => false
    | _ => true

/-- A launch that a dispatch round may place. -/
def State.canResume (s : State) (l : Launch) : Bool :=
  s.couldResume l && l.semWait.isNone &&
    match l.place with
    | .parked .. => false
    | _ => true

/-- Launches of a context. -/
def State.launchesOf (s : State) (c : Nat) : List (Nat × Launch) := s.launches.filter fun e => e.2.ctx = c

/-- A LAUNCH with workgroups that have not been placed. -/
def Cmd.hasWorkgroups (m : Cmd) : Bool :=
  match m.desc with
  | none => false
  | some d => m.op == 2 && m.acted && !m.isPacket && (decide (m.wgStarted < d.workgroups) || !m.redo.isEmpty)

/-- Commands of a context that have workgroups to place, oldest first. -/
def State.openLaunches (s : State) (c : Nat) : List (Nat × Cmd) := s.cmds.filter fun e => e.2.ctx = c && e.2.hasWorkgroups

/-- Every queue is empty and no launch exists but resident launches that wait on their queues. -/
def State.ctxIdle (s : State) (c : Nat) : Bool :=
  (s.ctx c).queues.all (fun e => e.2.state == 0 || (e.2.tail == e.2.head && e.2.decoded.isEmpty))
    && (s.launchesOf c).all (fun e => e.2.resident && e.2.qwait.isSome && !s.canWake e.2)
    && s.cmds.all fun e => e.2.ctx != c || e.2.resident

/-- A command or a launch of a resident context can proceed. -/
def State.ctxProceeds (s : State) (c : Nat) : Bool :=
  (s.launchesOf c).any (fun e =>
      s.couldResume e.2 || match e.2.place with
        | .slot .. => e.2.semWait.isNone && e.2.segStop.isNone && (e.2.qwait.isNone || s.canWake e.2)
        | _ => false)
    || (s.openLaunches c).length != 0
    || s.cmds.any (fun e => e.2.ctx == c && (e.2.copy.isSome || !e.2.foreign.isEmpty) && e.2.stalled.isNone)
    || (List.range 8).any fun n =>
      let q := s.queue (8 * c + n)
      s.canStart (8 * c + n) && q.stalled.isNone && (q.tail != q.head || !q.decoded.isEmpty)

/-- Scheduling state of a context (Table 10-1). -/
def State.schedState (s : State) (c : Nat) : Nat :=
  let x := s.ctx c
  if x.sched.switchingOut then 5
  else
    match x.sched.rslot with
    | none =>
      let work := x.queues.any (fun e => e.2.pendingBit) || (s.launchesOf c).any fun e => s.couldResume e.2
      if x.state == .live && !x.lostHold && work then 1 else 0
    | some _ =>
      if x.state ≠ .live then 2
      else if x.sched.saved.any fun r => r.into.isSome then 6
      else if s.ctxIdle c then 2
      else if s.ctxProceeds c then 3
      else 4

/-- Contexts of a partition, in rising order. -/
def State.ctxsOf (s : State) (p : Nat) : List Nat :=
  (s.ctxs.filter fun e => e.2.part = p && e.2.state != .free).map (·.1)

/-- A context that holds a resident slot. -/
def State.resident (s : State) (c : Nat) : Bool := (s.ctx c).sched.rslot.isSome

/-- (DESIGN CHOICE: log 64) -/
def State.vtime (s : State) (c : Nat) : Nat := (s.ctx c).acct.vtime

/-- VTIME of a context that becomes runnable after being idle, or is switched in (R474). (DESIGN CHOICE: log 64) -/
def State.credit (s : State) (c : Nat) : State :=
  let p := (s.ctx c).part
  let others := (s.ctxsOf p).filter fun d => d ≠ c && s.resident d && s.schedState d == 3
  match minBy s.vtime others with
  | none => s
  | some d =>
    let share := max (s.effShare c) 1
    let slice := ((s.part p).timesliceMs * 1000000 + share - 1) / share
    s.modCtx c fun x => { x with acct := { x.acct with vtime := max x.acct.vtime (s.vtime d - slice) } }

/-- The scheduler looks at the contexts of a partition: charges stand at the present time, and one that was idle and is
runnable gets its VTIME of R474. (DESIGN CHOICE: log 64) -/
def State.look (s : State) (p : Nat) : State :=
  (s.ctxsOf p).foldl (fun s c =>
    let st := s.schedState c
    let idle := decide (st = 0 ∨ st = 2)
    if idle then s.modCtx c fun x => { x with sched := { x.sched with wasIdle := true } }
    else if (s.ctx c).sched.wasIdle ∧ (st = 1 ∨ st = 3) then
      (s.credit c).modCtx c fun x => { x with sched := { x.sched with wasIdle := false } }
    else s) s.chargeAll

/-! ### Placing (R483, R484, R497, R479) -/

/-- An engine that a partition's launches may go to: working, not out for self-test, not being handed over, with a free
slot. -/
def State.engineFree (s : State) (e : Nat) : Bool :=
  s.engineWorks e && (s.engine e).state != 3 && !(s.engine e).handover && (s.freeSlotOf e).isSome

/-- A new allotment of a context fits on an engine: an entry and units are free. -/
def State.allotFit (s : State) (e units : Nat) : Option Nat :=
  if 16 ≤ (s.engine e).allots.length then none else s.firstFit e units

/-- The engine that a save record goes to (R497). -/
def State.recordTarget (s : State) (c : Nat) (r : SaveRec) : Option Nat :=
  let es := (s.part (s.ctx c).part).engines
  let fits (e : Nat) : Bool := s.engineWorks e && !(s.engine e).handover && (s.allotOf e c).isNone && (r.units == 0 || (s.allotFit e r.units).isSome)
  if es.contains r.engine && fits r.engine then some r.engine
  else es.find? fun e => fits e && !(s.ctx c).sched.saved.any fun q => q.engine == e || q.into == some e

/-- The record that a dispatch of a context to an engine restores. -/
def State.recordFor (s : State) (c e : Nat) : Option SaveRec :=
  (s.ctx c).sched.saved.find? fun r => r.into.isNone && s.recordTarget c r == some e

/-- How a context comes by its allotment on an engine: it holds it or needs none, a record is restored, or a new one is
made; none when it does not fit (R131, R482). -/
inductive AllotPlan where
  | held
  | restore (r : SaveRec)
  | fresh (base : Nat)
deriving DecidableEq, Repr

def State.allotPlan (s : State) (c e : Nat) : Option AllotPlan :=
  let x := s.ctx c
  if (s.allotOf e c).isSome || x.sched.saved.any (fun r => r.into == some e) then some .held
  else
    match s.recordFor c e with
    | some r => some (.restore r)
    | none =>
      if x.allotUnits = 0 then some .held
      else
        let used := ((List.range s.build.engines).filter fun i => (s.allotOf i c).isSome).length + x.sched.saved.length
        if x.sched.saveRecords ≤ used then none else (s.allotFit e x.allotUnits).map AllotPlan.fresh

/-- Logical arrays whose images pre-empted launches of a context hold for an engine (R479). -/
def State.imageArrays (s : State) (c e : Nat) : Nat :=
  ((s.launchesOf c).map fun l => match l.2.place with
    | .preempted f _ => if f = e then l.2.x.arrs.length else 0
    | .saved _ => if (s.ctx c).sched.saved.any (fun r => r.launches.contains l.1 && (r.into.getD r.engine) == e) then l.2.x.arrs.length else 0
    | _ => 0).sum

/-- The allotment of a context on an engine is provided. A record that is restored brings its launches with it. -/
def State.provide (s : State) (c e : Nat) (plan : AllotPlan) : State :=
  let put (s : State) (base units : Nat) (st : AllotState) : State :=
    let i := ((List.range 16).find? fun i => (tfind (s.engine e).allots i).isNone).getD 0
    s.modEngine e fun x => { x with allots := tput x.allots i ⟨s.tag c, base, units, st⟩ }
  match plan with
  | .held => s
  | .fresh base => put s base (s.ctx c).allotUnits .live
  | .restore r =>
    let s := if r.units = 0 then s
      else match s.allotFit e r.units with
        | none => s
        | some base => put s base r.units .restoring
    let s := s.modCtx c fun x => { x with sched := { x.sched with saved := x.sched.saved.map fun q => if q = r then { q with into := some e } else q } }
    r.launches.foldl (fun s id => s.modLaunch id fun l =>
      match l.place with
      | .saved _ => { l with place := .preempted e none }
      | _ => l) s

/-- The segments whose blocks are captured: in both masks, with W and without LRO (R459). -/
def State.captureSet (s : State) (c : Nat) (d : Desc) : Nat :=
  let x := s.ctx (s.tableOwner c)
  bitsMask ((List.range 16).filter fun i => bit d.readSegs i && bit d.writeSegs i && (x.seg i).pages != 0 && (x.seg i).w && !(x.seg i).lro)

/-- A launch takes a slot of an engine: its arrays are bound, its state is its own from the start or from its image
(R104 to R114, R494). -/
def State.place (s : State) (id e : Nat) : State :=
  match tfind s.launches id, s.freeSlotOf e with
  | some l, some n =>
    match s.bindFor e l.desc.arrays with
    | none => s
    | some (bound, fold) =>
      let s := match l.place with
        | .preempted f (some k) => s.modEngine f fun x => { x with parks := tdel x.parks k }
        | _ => s
      let (seq, s) := s.fresh
      let s := s.modEngine e fun x => { x with slots := tput x.slots n id }
      let waits := l.qwait.isSome
      let s := s.modLaunch id fun l =>
        { l with place := .slot e n, status := .starting, bound := if waits then [] else bound, fold := if waits then none else fold,
                 x := { l.x with arrs := residentArrays l.x.arrs bound.length }, capSet := s.captureSet l.ctx l.desc,
                 startSeq := seq, chargedAt := s.now, replayed := false, avoid := none, issued := false }
      let s := s.modCtx l.ctx fun x => { x with sched := { x.sched with waitingSince := none } }
      s.startReady id
  | _, _ => s

/-- Can this launch take a slot on this engine now? -/
def State.placeOk (s : State) (c e arrays held : Nat) (avoid : Option Nat) : Bool :=
  s.engineFree e && avoid != some e && (s.bindFor e arrays).isSome && (s.allotPlan c e).isSome
    && (arrays == 0 || decide (arrays + s.imageArrays c e ≤ 4 + held))

/-- The engine on which a launch that may resume goes on, if it can (R483, R493, R497). -/
def State.resumeEngine (s : State) (id : Nat) (l : Launch) : Option Nat :=
  let c := l.ctx
  let ok (e : Nat) : Bool := s.placeOk c e l.desc.arrays l.x.arrs.length l.avoid
  match l.place with
  | .preempted e _ => if ok e then some e else none
  | .saved _ =>
    match (s.ctx c).sched.saved.find? fun r => r.launches.contains id with
    | none => (s.part (s.ctx c).part).engines.find? ok
    | some r =>
      match s.recordTarget c r with
      | some e => if ok e then some e else none
      | none => none
  | _ => (s.part (s.ctx c).part).engines.find? ok

/-- An existing launch is placed. -/
def State.resumeOn (s : State) (id : Nat) (l : Launch) (e : Nat) : State :=
  match s.allotPlan l.ctx e with
  | none => s
  | some plan => (s.provide l.ctx e plan).place id e

/-- The descriptor that a workgroup of a command runs with on a native engine: with a target whose function the
partition does not hold, the native code (R528); none while it can only wait for a foreign engine. -/
def State.nativeDesc (s : State) (m : Cmd) (d : Desc) : Option Desc :=
  let q := s.queue m.queue
  let x := s.part (s.ctx m.ctx).part
  if q.targetFn = 0 then some d
  else if x.foreign.any fun i => (s.fe_ i).function = q.targetFn then none
  else if q.nativeVa = 0 then none
  else some { d with codeVa := q.nativeVa }

/-- The next workgroup of a command, and the command without it. (DESIGN CHOICE: log 93) -/
def Cmd.nextWg (m : Cmd) : Nat × Cmd :=
  match m.redo with
  | w :: rest => (w, { m with redo := rest })
  | [] => (m.wgStarted, { m with wgStarted := m.wgStarted + 1 })

/-- A new workgroup of a command goes to an engine. (DESIGN CHOICE: log 93) -/
def State.startWg (s : State) (id : Nat) (m : Cmd) (d : Desc) (e : Nat) : State :=
  match s.allotPlan m.ctx e with
  | none => s
  | some plan =>
    let (wg, m) := m.nextWg
    let (lid, s) := (s.setCmd id m).fresh
    let l := m.launchOf id wg d false
    ((s.setLaunch lid l).provide m.ctx e plan).place lid e

/-- What a context would place next: a launch that resumes or starts, with its engine, or a new workgroup. -/
inductive Choice where
  | nothing
  | launch (id e : Nat)
  | workgroup (cmd e : Nat)
deriving DecidableEq, Repr

/-- The choice of R483 for one context: a pre-empted launch that can resume comes first, then launches that wait to
start, then new workgroups in the order of their commands. -/
def State.choose (s : State) (c : Nat) : Choice :=
  let ready := (s.launchesOf c).filter fun e => s.canResume e.2
  let first := ready.filter fun e => e.2.replayed
  let held := ready.filter fun e => match e.2.place with
    | .waiting => false
    | _ => true
  let pick (l : List (Nat × Launch)) : Option Choice :=
    l.findSome? fun e => (s.resumeEngine e.1 e.2).map fun g => Choice.launch e.1 g
  match pick first with
  | some k => k
  | none =>
    if !held.isEmpty then (pick held).getD .nothing
    else
      match pick ready with
      | some k => k
      | none =>
        ((s.openLaunches c).findSome? fun m =>
          match m.2.desc.bind (s.nativeDesc m.2) with
          | none => none
          | some d => ((s.part (s.ctx c).part).engines.find? fun e => s.placeOk c e d.arrays 0 none).map fun e => Choice.workgroup m.1 e).getD .nothing

/-! ### Foreign engines (R527 to R530) -/

/-- The lowest-indexed foreign engine of a partition that is free and reports a function. -/
def State.freeForeign (s : State) (p fn : Nat) : Option Nat :=
  (s.part p).foreign.find? fun i => (s.fe_ i).state = 1 && (s.fe_ i).function = fn && (s.cp (i / 16)).state = .up

/-- A workgroup is dispatched to a foreign engine, with a LAUNCH message (Table 11-4). -/
def State.feDispatch (s : State) (i ctx : Nat) (cmd : Option Nat) (step : Option (Nat × Nat)) (wg : Nat) (d : Desc) : State :=
  let port := i / 16
  let (tag, s) := s.cppTag port
  let s := s.setFe i { s.fe_ i with state := 3, cmd := cmd, step := step, wg := wg, tag := tag, desc := d, ctx := ctx, code := 0,
                                    signals := [], since := s.now }
  let lines := (d.consts.length + 63) / 64
  s.cppSend port 4
    { cppZero with fe := BitVec.ofNat 8 (i % 16), lines := BitVec.ofNat 8 lines, tag := tag, status := BitVec.ofNat 16 d.consts.length,
                   addr := BitVec.ofNat 64 (d.spanLog2 % 32 * 2 ^ 48 + d.codeVa % 2 ^ 48),
                   arg0 := BitVec.ofNat 64 (wg % 2 ^ 32 * 2 ^ 32 + d.k % 2 ^ 32), arg1 := BitVec.ofNat 64 d.arg,
                   data := takePad (64 * lines) d.consts }

/-- One workgroup of a context goes to a foreign engine, if one is free for it. -/
def State.foreignOne (s : State) (c : Nat) : Option State :=
  (s.openLaunches c).findSome? fun m =>
    let fn := (s.queue m.2.queue).targetFn
    match m.2.desc, s.freeForeign (s.ctx c).part fn with
    | some d, some i =>
      if fn = 0 then none
      else
        let (wg, k) := m.2.nextWg
        some ((s.setCmd m.1 { k with foreign := k.foreign ++ [(i, wg)] }).feDispatch i c (some m.1) none wg d)
    | _, _ => none

/-! ### Dispatch rounds (R483) -/

/-- Contexts of a partition that a dispatch round serves: resident, LIVE and not being switched out. (DEDUCED: log 65) -/
def State.dispatchable (s : State) (p : Nat) : List Nat :=
  (s.ctxsOf p).filter fun c =>
    let x := s.ctx c
    s.resident c && x.state == .live && !x.sched.switchingOut && !x.lostHold

/-- Rounds until nothing more can be placed. A replayed launch is ahead of every other launch of the partition.
(DESIGN CHOICE: log 93) -/
def State.rounds : Nat → State → Nat → List Nat → State
  | 0, s, _, _ => s
  | fuel + 1, s, p, tried =>
    let cs := (s.dispatchable p).filter fun c => !tried.contains c
    let replay := cs.filter fun c => (s.launchesOf c).any fun e => e.2.replayed && s.canResume e.2
    match minBy s.vtime (if replay.isEmpty then cs else replay) with
    | none => s
    | some c =>
      match s.foreignOne c with
      | some s => State.rounds fuel s p tried
      | none =>
        match s.choose c with
        | .nothing => State.rounds fuel s p (c :: tried)
        | .launch id e =>
          match tfind s.launches id with
          | none => State.rounds fuel s p (c :: tried)
          | some l => State.rounds fuel (s.resumeOn id l e) p tried
        | .workgroup k e =>
          match tfind s.cmds k with
          | none => State.rounds fuel s p (c :: tried)
          | some m =>
            match m.desc.bind (s.nativeDesc m) with
            | none => State.rounds fuel s p (c :: tried)
            | some d => State.rounds fuel (s.startWg k m d e) p tried

/-- Does a context have work that waits for a slot? (DESIGN CHOICE: log 64) -/
def State.wantsSlot (s : State) (c : Nat) : Bool :=
  (s.launchesOf c).any (fun e => s.canResume e.2) || (s.openLaunches c).any fun m => (m.2.desc.bind (s.nativeDesc m.2)).isSome

/-- Contexts with startable work and no slot have waited since now, or since before (R489). -/
def State.noteWaiting (s : State) (p : Nat) : State :=
  (s.ctxsOf p).foldl (fun s c =>
    let w := s.wantsSlot c
    let since := (s.ctx c).sched.waitingSince
    s.modCtx c fun x => { x with sched := { x.sched with waitingSince := if w then some (since.getD s.now) else none } }) s

/-- A dispatch round of a partition. `fuel` bounds the placements by the slots and foreign engines there are. -/
def State.dispatch (s : State) (p : Nat) : State :=
  if s.paused p || s.scheduleRuns p then s else (State.rounds 512 (s.look p) p []).noteWaiting p

/-- DISPATCH_ROUND. (DESIGN CHOICE: log 93) -/
def execDispatchRound (p : Nat) (s : State) : Host.Outcome State Fault Refusal := .next (s.work (s.dispatch p))

/-! ### Switching out and in (R495, R497) -/

/-- One launch of a context that leaves: in a slot it is pre-empted, at once while it waits on its queue and otherwise
at its next check point (R492). (DEDUCED: log 65) -/
def State.preemptLaunch (s : State) (id : Nat) : State :=
  match tfind s.launches id with
  | none => s
  | some l =>
    match l.place with
    | .slot .. => if l.status = .waiting then s.preempted id else s.setLaunch id { l with stop := some (l.stop.getD .preempt) }
    | _ => s

/-- Nothing of the context runs or transfers any more (step 3 of R495). (DESIGN CHOICE: log 64) -/
def State.quiet (s : State) (c : Nat) : Bool :=
  (s.launchesOf c).all (fun e => match e.2.place with
      | .slot .. => false
      | _ => true)
    && (s.fesOf c).isEmpty && s.cmds.all fun e => e.2.ctx != c || e.2.copy.isNone || e.2.stalled.isSome

/-- A queue as the queue table keeps it: fetching stops, and its pending-map bit is set when it has work it can start
(R383, R867). A called buffer that has begun is kept. -/
def Queue.put (q : Queue) (waits : Bool) : Queue :=
  let kept := q.decoded.filter fun p => p.off.isSome
  let work := q.state = 1 && !waits && (q.tail != q.head || !kept.isEmpty)
  { q with decoded := kept, fetch := .asleep, stalled := none, pendingBit := q.pendingBit || work }

/-- Steps 4 and 5: the queue slots and the resident slot are released. (DEDUCED: log 65) -/
def State.releaseSlots (s : State) (c : Nat) : State :=
  let x := s.ctx c
  let waits (q : Queue) : Bool := match q.blocked with
    | none => false
    | some (h, _) => (s.fence (hIndex h)).state == 1 && hGen h == (s.fence (hIndex h)).gen
  let s := s.setCtx c { x with queues := tmap x.queues fun _ q => q.put (waits q), sched := { x.sched with rslot := none },
                               acct := { x.acct with switchCount := bump x.acct.switchCount 1 } }
  s.schedCount x.part 0

/-- The switch-out of a context goes as far as it can: once it is quiet its slots are released. (DESIGN CHOICE: log 64) -/
def State.outStep (s : State) (c : Nat) : State :=
  let x := s.ctx c
  if x.sched.switchingOut && x.sched.rslot.isSome && s.quiet c then s.releaseSlots c else s

/-- A context begins to be switched out (steps 1 and 2). (DEDUCED: log 65) -/
def State.startOut (s : State) (c : Nat) : State :=
  let x := s.ctx c
  if x.sched.switchingOut || x.sched.rslot.isNone then s
  else
    let s := s.setCtx c { x with sched := { x.sched with switchingOut := true } }
    let s := ((s.launchesOf c).map (·.1)).foldl State.preemptLaunch s
    ((s.fesOf c).foldl State.feQuiesce s).outStep c

/-- SWITCH_OUT: the scheduler switches a resident context out; given again, the switch goes on. -/
def execSwitchOut (c : Nat) (s : State) : Host.Outcome State Fault Refusal :=
  .next (s.work (if (s.ctx c).state = .live ∨ (s.ctx c).state = .lost then (s.startOut c).outStep c else s))

/-- Bytes that a record holds (R479, R866). (DESIGN CHOICE: log 66) -/
def State.recordBytes (s : State) (r : SaveRec) : Nat :=
  r.units * unitBytes + (r.launches.map fun id =>
    match tfind s.launches id with
    | none => 0
    | some l => 36864 + (if l.qwait.isSome then 0 else l.x.arrs.length * 17 * unitBytes)).sum

/-- One engine's part of a context is saved: the allotment with its images goes to a record, its units are scrubbed
(steps 6 and 7). A launch keeps no undo slot while its context is away, so a new replay unit begins (R508, R462).
(DESIGN CHOICE: log 66) -/
def State.saveOn (s : State) (c e : Nat) : State :=
  let x := s.engine e
  let here := (s.launchesOf c).filter fun l => match l.2.place with
    | .parked f _ => f == e
    | .preempted f _ => f == e
    | _ => false
  match s.allotOf e c, here with
  | none, [] => s
  | a, _ =>
    let units := (a.map fun p => p.2.size).getD 0
    let base := (a.map fun p => p.2.base).getD 0 * unitBytes
    let cells := (x.store.filter fun b => base ≤ b.1 && b.1 < base + units * unitBytes).map fun b => (b.1 - base, b.2)
    let r : SaveRec := ⟨e, units, cells, here.map (·.1), none⟩
    let s := here.foldl (fun s l =>
      (s.clearCaptures l.2).modLaunch l.1 fun l =>
        { l with place := match l.place with
                   | .parked .. => .saved true
                   | _ => .saved false
                 captures := [], allotCaps := [], done := [], unit := l.x, unitSems := l.sems, chMem := 0, chHost := 0, chTime := 0 }) s
    let s := s.modEngine e fun y =>
      { y with allots := match a with
                 | none => y.allots
                 | some p => tdel y.allots p.1
               scrubs := if units = 0 then y.scrubs else y.scrubs ++ [⟨base / unitBytes, units⟩]
               parks := y.parks.filter fun p => p.2.owner ≠ s.tag c }
    s.modCtx c fun y => { y with sched := { y.sched with saved := y.sched.saved ++ [r] },
                                 acct := { y.acct with switchBytes := bump y.acct.switchBytes (s.recordBytes r) } }

/-- SWITCH_OUT_COMPLETE: the saves and scrubs of a context whose slots have been released finish, engine by engine. -/
def execSwitchOutComplete (c : Nat) (s : State) : Host.Outcome State Fault Refusal :=
  .next (s.work <|
    let s := s.outStep c
    let x := s.ctx c
    if !x.sched.switchingOut || x.sched.rslot.isSome then s
    else
      let s := (List.range s.build.engines).foldl (fun s e => s.saveOn c e) s
      s.modCtx c fun y => { y with sched := { y.sched with switchingOut := false } })

/-- The lowest free resident slot, when the hub and the partition have one (R476). -/
def State.freeRslot (s : State) (p : Nat) : Option Nat :=
  let held := s.ctxs.filterMap fun e => e.2.sched.rslot
  let mine := ((s.ctxs.filter fun e => e.2.part = p && e.2.sched.rslot.isSome).length)
  if (s.part p).rslots ≤ mine then none else (List.range s.build.ctxSlots).find? fun i => !held.contains i

/-- The context to be switched in for another: the one itself, unless every launch it could resume waits on a semaphore
whose holder is away; then that holder (R504). -/
def State.standIn (s : State) (c : Nat) : Option (Nat × Bool) :=
  let could := (s.launchesOf c).filter fun e => s.couldResume e.2
  let away (l : Launch) : Option Nat := l.semWait.bind fun w =>
    let m := s.sem (s.launchSem l w.1)
    if m.holder.isSome && m.holderCtx != c && !s.resident m.holderCtx then some m.holderCtx else none
  let pending := (s.ctx c).queues.any fun e => e.2.pendingBit
  if could.isEmpty || pending || could.any fun e => (away e.2).isNone then some (c, false)
  else
    (could.findSome? fun e => (away e.2).bind fun d => if (s.ctx d).state = .live && !(s.ctx d).sched.switchingOut then some d else none).map
      fun d => (d, true)

/-- A context takes a resident slot and its queue slots; queues with their bit of the pending map set wake. -/
def State.takeSlot (s : State) (c slot : Nat) : State :=
  let s := s.credit c
  s.modCtx c fun x =>
    { x with sched := { x.sched with rslot := some slot, switchedInAt := s.now, waitingSince := none, wasIdle := false },
             queues := tmap x.queues fun _ q =>
               if q.pendingBit ∨ q.tail ≠ q.head ∨ !q.decoded.isEmpty then { q.wake with pendingBit := false } else q }

/-- A waiting context, or the holder that stands in for it, is switched in when a slot is free. (DEDUCED: log 65) -/
def State.switchIn (s : State) (c : Nat) : State :=
  if s.schedState c ≠ 1 ∨ s.paused (s.ctx c).part then s
  else
    match s.standIn c, s.freeRslot (s.ctx c).part with
    | some (d, inherit), some slot =>
      let s := if inherit then s.schedCount (s.ctx c).part 4 else s
      if s.resident d || (s.ctx d).sched.switchingOut || (s.ctx d).lostHold then s else s.takeSlot d slot
    | _, _ => s

/-- SWITCH_IN. -/
def execSwitchIn (c : Nat) (s : State) : Host.Outcome State Fault Refusal := .next (s.work (s.switchIn c))

/-- RECORD_RESTORE_COMPLETE: the allotment holds what the record held; launches that wait for it start (R497).
(DESIGN CHOICE: log 66) -/
def execRecordRestoreComplete (c e : Nat) (s : State) : Host.Outcome State Fault Refusal :=
  .next (s.work <|
    match (s.ctx c).sched.saved.find? fun r => r.into == some e with
    | none => s
    | some r =>
      let a := s.allotOf e c
      let base := (a.map fun p => p.2.base).getD 0
      if (s.engine e).scrubbing base r.units then s
      else
        let s := s.modEngine e fun x =>
          { x with store := r.cells.foldl (fun m b => mwrite m (base * unitBytes + b.1) b.2) (mzero x.store (base * unitBytes) (r.units * unitBytes)),
                   allots := tmap x.allots fun _ (k : Allot) => if k.owner = s.tag c ∧ k.state = .restoring then { k with state := .live } else k }
        let s := s.modCtx c fun y => { y with sched := { y.sched with saved := y.sched.saved.erase r },
                                              acct := { y.acct with switchBytes := bump y.acct.switchBytes (s.recordBytes r) } }
        ((s.engine e).slots.map (·.2)).foldl State.startReady s)

/-! ### Time slices and eviction (R486 to R501) -/

/-- The contexts that R491 protects, and those with a running foreign launch (R530). -/
def State.sheltered (s : State) (c : Nat) : Bool :=
  let x := s.ctx c
  let slice := (s.part x.part).timesliceMs * nsPerMs
  decide (s.now < x.sched.switchedInAt + slice)
    || s.sems.any (fun m => m.2.holder.isSome && m.2.holderCtx == c && m.2.waiters.any fun id =>
        match tfind s.launches id with
        | none => false
        | some l => l.ctx != c)
    || s.schedState c == 5 || s.schedState c == 6

/-- The element with the greatest key; the later one of two equal keys. -/
def maxBy {α : Type} (key : α → Nat) : List α → Option α
  | [] => none
  | x :: xs =>
    match maxBy key xs with
    | none => some x
    | some y => if key x > key y then some x else some y

/-- Running launches of a context in slots of engines where none has yet been pre-empted at this boundary. -/
def State.runningOn (s : State) (c : Nat) (used : List Nat) : List (Nat × Launch) :=
  (s.launchesOf c).filter fun e => match e.2.place with
    | .slot g _ => e.2.stop.isNone && e.2.status != .waiting && !used.contains g
    | _ => false

/-- Slots at a boundary: one context that has waited the whole slice takes back one launch (R489). -/
def State.slotsFor (acc : State × List Nat) (c : Nat) : State × List Nat :=
  let (s, used) := acc
  let p := (s.ctx c).part
  let holders := (s.ctxsOf p).filter fun d => d ≠ c && !s.sheltered d && (s.fesOf d).isEmpty && (s.launchesOf d).any fun e => match e.2.place with
    | .slot .. => true
    | _ => false
  match maxBy s.vtime holders with
  | none => acc
  | some d =>
    if s.vtime d ≤ s.vtime c then acc
    else
      match maxBy (fun e => e.2.startSeq) (s.runningOn d used) with
      | none => acc
      | some (id, l) =>
        match l.place with
        | .slot e _ => (s.setLaunch id { l with stop := some .preempt }, e :: used)
        | _ => acc

/-- Residency at a boundary: up to four switches (R490). (DEDUCED: log 65) -/
def State.slicesOut : Nat → State → Nat → List Nat → State
  | 0, s, _, _ => s
  | n + 1, s, p, waiting =>
    let out := (s.ctxsOf p).filter fun c => s.resident c && s.schedState c == 3 && !s.sheltered c && (s.fesOf c).isEmpty
    match minBy s.vtime waiting, maxBy s.vtime out with
    | some w, some c =>
      if (s.freeRslot p).isSome then State.slicesOut n (s.switchIn w) p (waiting.filter (· ≠ w))
      else if s.vtime c ≤ s.vtime w then s
      else
        let s := s.startOut c
        State.slicesOut n (if (s.freeRslot p).isSome then s.switchIn w else s) p (waiting.filter (· ≠ w))
    | _, _ => s

/-- SLICE_BOUNDARY (R488): slots first, then residency. (DEDUCED: log 65) -/
def execSliceBoundary (p : Nat) (s : State) : Host.Outcome State Fault Refusal :=
  .next (s.work <|
    if (s.part p).state = 0 || (s.part p).static || s.paused p then s
    else
      let s := s.look p
      let slice := (s.part p).timesliceMs * nsPerMs
      let late := (s.ctxsOf p).filter fun c => s.resident c && s.schedState c == 3 &&
        match (s.ctx c).sched.waitingSince with
        | none => false
        | some t => decide (t + slice ≤ s.now)
      let s := (late.foldl State.slotsFor (s, [])).1
      State.slicesOut 4 s p ((s.ctxsOf p).filter fun c => s.schedState c == 1))

/-- ALLOT_WAIT_TIMEOUT (R486): a launch of a runnable resident context finds no engine its allotment fits on. -/
def execAllotWaitTimeout (p : Nat) (s : State) : Host.Outcome State Fault Refusal :=
  .next (s.work <|
    let x := s.part p
    let stuck := (s.dispatchable p).any fun c => s.wantsSlot c && x.engines.all fun e => (s.allotPlan c e).isNone
    match x.engines with
    | [] => s
    | e :: _ =>
      let size (c : Nat) : Nat := ((s.allotOf e c).map fun a => a.2.size).getD 0
      let away := (s.ctxsOf p).filter fun c => s.resident c && (s.schedState c == 2 || s.schedState c == 4) && size c != 0
      match maxBy size away.reverse with
      | some c => if stuck && !x.static then s.startOut c else s
      | none => s)

/-- EVICT (R499): a runnable context is away and no slot is free. -/
def execEvict (p : Nat) (s : State) : Host.Outcome State Fault Refusal :=
  .next (s.work <|
    let s := s.look p
    let waiting := (s.ctxsOf p).any fun c => s.schedState c == 1
    let of (st : Nat) : List Nat := (s.ctxsOf p).filter fun c => s.resident c && s.schedState c == st && !s.sheltered c
    let oldest (l : List Nat) : Option Nat := minBy (fun c => (s.ctx c).acct.lastProgress) l
    if !waiting || (s.freeRslot p).isSome then s
    else
      match (oldest (of 2)).or (oldest (of 4)) with
      | none => s
      | some c => (s.schedCount p 1).startOut c)

/-! ### Requests and registers (R479 to R481, R510 to R517) -/

/-- Bytes of a save record (R479). -/
def Context.recordSize (x : Context) : Nat := (x.allotUnits + 69) * unitBytes

/-- SAVE_SET (R479, R480). (DEDUCED: log 51) -/
def State.reqSaveSet (s : State) (fn : Fn) : State :=
  s.onLive fn fun s c =>
    let x := s.ctx c
    let h := BitVec.ofNat 32 (s.block fn).a1
    let o := s.obj (hIndex h)
    let n := min (o.size / x.recordSize) 16
    let busy := x.sched.rslot.isSome || x.sched.switchingOut || !x.sched.saved.isEmpty
    let put (object : BitVec 32) (n : Nat) : State :=
      (s.setCtx c { x with sched := { x.sched with saveObject := object, saveRecords := n } }).reqDone fn 0 0 0
    if h = 0 then if busy then s.reqDone fn 5 0 0 else put 0 0
    else if !s.objValid c h none then s.reqDone fn 3 0 0
    else if o.host || o.owner != s.tag c || o.state == 3 || o.exported || n == 0 then s.reqDone fn 1 0 0
    else if busy || s.mappedW c h then s.reqDone fn 5 0 0
    else put h n

def execSaveSet (fn : Fn) (tag : BitVec 16) (s : State) : Host.Outcome State Fault Refusal :=
  .next (s.work (s.request fn tag 0x11 fun s => s.reqSaveSet fn))

/-- CTX_SHARE (R472, R515). -/
def State.reqCtxShare (s : State) (fn : Fn) : State :=
  s.onLive fn fun s c =>
    let n := (s.block fn).a1
    if n = 0 ∨ 1000 < n then s.reqDone fn 1 0 0
    else (s.modCtx c fun x => { x with sched := { x.sched with share := n } }).reqDone fn 0 0 0

def execCtxShare (fn : Fn) (tag : BitVec 16) (s : State) : Host.Outcome State Fault Refusal :=
  .next (s.work (s.chargeAll.request fn tag 0x12 fun s => s.reqCtxShare fn))

/-- A field of Table 10-2 by its index. -/
def State.account (s : State) (c i : Nat) : Nat :=
  let x := s.ctx c
  let a := x.acct
  if i < 16 then min (tget 0 a.engineTime i / 12000) ctrMax
  else if i = 16 then a.energyMj
  else if i = 17 then a.memBytes
  else if i = 18 then a.fabricBytes
  else if i = 19 then a.hostBytes
  else if i = 20 then a.switchBytes
  else if i = 21 then a.switchCount
  else if i = 22 then a.preemptCount
  else if i = 23 then a.vtime
  else if i = 24 then a.lastProgress
  else if i = 25 then x.sched.saveRecords * 2 ^ 32 + x.sched.saveObject.toNat
  else if i = 26 then
    (if x.state = .free then 0 else s.schedState c) * 2 ^ 40 + x.sched.rslot.getD 0xFF * 2 ^ 32 + s.effShare c % 65536 * 2 ^ 16 + x.sched.share
  else 0

/-- CTX_ACCOUNT (R515). -/
def State.reqCtxAccount (s : State) (fn : Fn) : State :=
  s.onCtx fn fun s c =>
    let i := (s.block fn).a1
    if 26 < i then s.reqDone fn 1 0 0 else s.reqDone fn 0 (s.account c i) 0

def execCtxAccount (fn : Fn) (tag : BitVec 16) (s : State) : Host.Outcome State Fault Refusal :=
  .next (s.work (s.chargeAll.request fn tag 0x13 fun s => s.reqCtxAccount fn))

/-- SCHED_CTRL_WRITE (R517, R27). -/
def execSchedCtrlWrite (p : Nat) (v : BitVec 64) (s : State) : Host.Outcome State Fault Refusal :=
  .next (s.work <|
    let n := fld v.toNat 15 0
    if s.decodes .pf && s.fwRuns && decide (p < s.build.partitions) && decide (1 ≤ n) && decide (n ≤ 1000) then
      { s with holdLimit := tput s.holdLimit p n }
    else s)

end Sys2Proof.Machine
end

