-- ==== Sys2Proof/Machine/Points.lean ====
section
/-! DEFINITION. Operating points of engine islands (R809 to R815): the change of an operating point, and pins. -/

namespace Sys2Proof.Machine

/-- VID of a frequency (R809). -/
def vidOf (f : Nat) : Nat := 22 + 2 * ((f - 400) / 25)

/-- A domain requests a VID from its regulator (R810). -/
def State.requestVid (s : State) (d vid : Nat) : State :=
  { s.setDomain d { s.domain d with reqVid := vid } with out := s.out ++ [Out.ivrReq d vid] }

/-- A change of an engine's operating point begins: to raise it the VID is requested first, to lower it the PLL is
relocked first (R810). (DEDUCED: log 94) -/
def State.pointBegin (s : State) (e f : Nat) : State :=
  let now := (s.engine e).freq
  if f = now then s
  else
    let s := s.setDomain e { s.domain e with pending := true, toFreq := f, relocking := decide (f < now) }
    if f < now then s else s.requestVid e (vidOf f)

/-- An operating point is asked for: at once; after the change in progress, only the most recent one waiting; not at
all within 10 ms of a withdrawn change (R811, R812). (DEDUCED: log 94) -/
def State.setPoint (s : State) (e f : Nat) : State :=
  let d := s.domain e
  if d.pending then s.setDomain e { d with waiting := some f }
  else if s.now < d.holdOff then s
  else s.pointBegin e f

/-- The change in progress is over; a waiting one begins (R811). (DEDUCED: log 94) -/
def State.pointDone (s : State) (e : Nat) : State :=
  let d := s.domain e
  let s := s.setDomain e { d with pending := false, relocking := false, waiting := none }
  match d.waiting with
  | none => s
  | some f => s.pointBegin e f

/-- The PLL of an engine island has relocked: a raise ends; a lowering goes on with its VID. -/
def State.relocked (s : State) (e : Nat) : State :=
  let d := s.domain e
  if !d.pending || !d.relocking then s
  else
    let raised := decide ((s.engine e).freq < d.toFreq)
    let s := s.modEngine e fun x => { x with freq := d.toFreq }
    if raised then s.pointDone e
    else (s.setDomain e { s.domain e with relocking := false }).requestVid e (vidOf d.toFreq)

/-- The regulator of a domain has settled: a raise relocks the PLL; a lowering ends. -/
def State.settled (s : State) (d : Nat) : State :=
  let x := s.domain d
  if d < s.build.engines then
    if !x.pending || x.relocking then s
    else
      let s := s.modEngine d fun e => { e with vid := x.reqVid }
      if (s.engine d).freq < x.toFreq then s.setDomain d { s.domain d with relocking := true } else s.pointDone d
  else s.setDomain d { x with vid := x.reqVid, pending := false }

/-- The bound engines of a schedule are pinned at a clock (R643); in a thermal emergency the pin waits (R834). -/
def State.pinAll (s : State) (es : List Nat) (f : Nat) : State :=
  (es.filter (· < s.build.engines)).foldl (fun s e =>
    let s := s.modEngine e fun x => { x with pinned := true }
    if s.pw.emergency then s else s.setPoint e f) s

/-- Every pinned engine runs at the clock (R815). -/
def State.atPoint (s : State) (es : List Nat) (f : Nat) : Bool :=
  (es.filter (· < s.build.engines)).all fun e => (s.engine e).freq == f && !(s.domain e).pending

end Sys2Proof.Machine
end

