-- ==== Sys2Proof/Machine/Admission.lean ====
section
/-! DEFINITION. The admission checks of a schedule image (Table 13-12), binding (R632) and the usability of an
alternative (R631). -/

namespace Sys2Proof.Machine

/-! ### The form of the image -/

/-- Bytes `off` to `off + n - 1` lie within a length. -/
def within (off n len : Nat) : Bool := off + n ≤ len

/-- Offsets and counts of a part lie within the part, and the part within the image. -/
def partFits (b : List Byte) (len : Nat) (h : ImgHub) : Bool :=
  let o := h.part
  let sec (k size : Nat) : Bool := within (imgAt b (o + k) 4) (size * imgAt b (o + k + 4) 4) h.partLen
  within o h.partLen len && decide (64 ≤ h.partLen) && sec 0 8 && sec 8 32 && sec 0x10 40

/-- Every offset and count of an image lies within LENGTH. -/
def imageFits (b : List Byte) : Bool :=
  let h := imgHeader b
  decide (64 ≤ h.length) && within h.altTable (16 * h.altCount) h.length &&
    (List.range h.altCount).all fun i =>
      let a := imgAlt b i
      within a.hubs (16 * a.hubN) h.length && decide (a.leader < a.hubN) && (imgHubs b i).all (partFits b h.length)

/-- Every field of Table 13-3 is in range. -/
def headerRanges (b : List Byte) : Bool :=
  let h := imgHeader b
  (1 ≤ h.hubCount && h.hubCount ≤ 8192) && (39063 ≤ h.epochBeats && h.epochBeats ≤ 39062500) && 1 ≤ h.saveBeats
    && 64 ≤ h.commitBeats && (400 ≤ h.clockMhz && h.clockMhz ≤ 1250 && h.clockMhz % 25 == 0) && (1 ≤ h.altCount && h.altCount ≤ 16)
    && 1 ≤ h.periodBeats && imgAt b 0x38 8 == 0 && h.hubCount == (imgAlt b 0).hubN
    && (h.epochBeats % h.periodBeats == 0 || h.periodBeats % h.epochBeats == 0)

/-- Something in flight from beat `x` for `d` beats meets a save window of `w` beats at a multiple of `e`; at boundary 0
nothing is saved (R644). -/
def meetsWindow (e w x d : Nat) : Bool := (decide (e ≤ x) && decide (x % e < w)) || decide (e < x % e + d)

/-- A step or transfer, in any pass, meets a save window. The place of a pass among the epochs repeats. -/
def anyPassMeets (h : ImgHeader) (beat deadline : Nat) : Bool :=
  let m := h.epochBeats / h.periodBeats + 2
  (List.range (min h.iterations m)).any fun i => meetsWindow h.epochBeats h.saveBeats (i * h.periodBeats + beat) deadline

/-- No step or transfer of a part is in flight during any save window; votes and commits start after it. -/
def windowsClear (h : ImgHeader) (p : ImgPart) : Bool :=
  p.steps.all (fun k => !anyPassMeets h k.beat k.deadline) &&
    p.xfers.all fun k =>
      if k.kind = 0 then !anyPassMeets h k.beat k.deadline else decide (h.saveBeats + k.beat + k.deadline ≤ h.epochBeats)

/-- Insertion of an interval by its start. -/
def insertIv (x : Nat × Nat) : List (Nat × Nat) → List (Nat × Nat)
  | [] => [x]
  | y :: ys => if x.1 ≤ y.1 then x :: y :: ys else y :: insertIv x ys

/-- The idle intervals between busy ones that are sorted, from `at_` to `fin`, of at least `need` beats. -/
def idleGaps (need fin : Nat) : Nat → List (Nat × Nat) → List (Nat × Nat)
  | at_, [] => if at_ + need ≤ fin then [(at_, fin)] else []
  | at_, (a, b) :: rest => (if at_ + need ≤ a then [(at_, a)] else []) ++ idleGaps need fin (max at_ b) rest

/-- Consecutive idle intervals leave no window of `w` beats without `need` idle ones. -/
def gapsClose (need w fin : Nat) : Nat → List (Nat × Nat) → Bool
  | last, [] => decide (fin ≤ last + w)
  | last, (a, b) :: rest => decide (a + need ≤ last + w) && gapsClose need w fin (b - need) rest

/-- A logical engine is idle for 2,100 µs (8,204 beats) at least once in every 50 s (195,312,500 beats) of the run. Three
passes show every distance between idle intervals. -/
def idleEnough (h : ImgHeader) (p : ImgPart) (e : Nat) : Bool :=
  let w := 195312500
  let run := h.iterations * h.periodBeats
  let passes := min h.iterations 3
  let busy := (List.range passes).flatMap fun i => (p.steps.filter fun k => k.kind = 1 && k.unit = e).map fun k =>
    (i * h.periodBeats + k.beat, i * h.periodBeats + k.beat + k.deadline)
  let fin := passes * h.periodBeats
  decide (run < w) || gapsClose 8204 w fin 0 (idleGaps 8204 fin 0 (busy.foldr insertIv []))

/-- Logical engines of a part. -/
def ImgPart.engines (p : ImgPart) : List Nat := (p.units.filter fun u => u.type = 1).map (·.index)

/-- The checks of Table 13-12 marked BAD_IMAGE. -/
def State.imageOk (s : State) (b : List Byte) (objSize : Nat) : Bool :=
  let h := imgHeader b
  h.magic == 0x58535653 && h.format == 1 && decide (h.length ≤ objSize) && imageFits b && headerRanges b
    && h.release == blockRelease && h.arithRev == arithRev && h.sizeClass == s.build.sizeClass
    && (s.myHubEntry b 0).isSome
    && (List.range h.altCount).all fun i => (imgHubs b i).all fun k =>
        let p := imgPart b k.part
        windowsClear h p && p.engines.all (idleEnough h p)

/-! ### Binding (R632) -/

/-- The i-th element of a list, or 255 for none. -/
def ith (l : List Nat) (i : Nat) : Nat := l.getD i 255

/-- Logical engine i: the i-th lowest-indexed working engine with at least AMOUNT working arrays. -/
def State.bindEngine (s : State) (p : Nat) (u : ImgUnit) : Nat :=
  ith ((s.part p).engines.filter fun e => s.engineWorks e && decide (u.amount ≤ (s.workingArrays e).length)) u.index

/-- Logical foreign engine i: the i-th lowest-indexed foreign engine that reports FUNCTION AMOUNT. -/
def State.bindForeign (s : State) (p : Nat) (u : ImgUnit) : Nat :=
  ith ((s.part p).foreign.filter fun i =>
    let f := s.fe_ i
    f.state != 0 && f.state != 5 && f.function == u.amount && (s.cp (i / 16)).state == .up) u.index

/-- A table of bindings by logical index. -/
def bindTable (us : List ImgUnit) (type : Nat) (bind : ImgUnit → Nat) : List Nat :=
  let mine := us.filter fun u => u.type = type
  let n := mine.foldl (fun m u => max m (u.index + 1)) 0
  (List.range n).map fun i => ((mine.find? fun u => u.index = i).map bind).getD 255

/-- Ways needed by a part. -/
def ImgPart.ways (p : ImgPart) : Nat := ((p.units.filter fun u => u.type = 3).map (·.amount)).sum

/-- Every unit entry binds, and every port named is ACTIVE at its least width. -/
def State.unitsBind (s : State) (p : Nat) (x : ImgPart) : Bool :=
  x.units.all (fun u =>
    if u.type = 1 then s.bindEngine p u != 255
    else if u.type = 2 then s.bindForeign p u != 255
    else if u.type = 3 then true
    else if u.type = 4 then (s.fp u.index).state == .active && decide (u.amount % 16 ≤ (s.fp u.index).width)
    else if u.type = 5 then decide (16 ≤ u.index) && (s.cu (u.index - 16)).state == 1
    else false) && decide (x.ways ≤ (s.part p).ways.length)

/-! ### Limits -/

/-- Flit slots of a port per beat, and those that admitted schedules may reserve (R596). -/
def portSlots (width : Nat) : Nat × Nat :=
  if width = 8 then (49, 36) else if width = 6 then (37, 27) else if width = 4 then (24, 18) else (0, 0)

/-- Slots that a part asks of a port. -/
def ImgPart.slotsOn (x : ImgPart) (p : Nat) : Nat := ((x.units.filter fun u => u.type = 4 && u.index = p).map fun u => u.amount / 256).sum

/-- Pages that a part asks of a collective unit. -/
def ImgPart.pagesOn (x : ImgPart) (u : Nat) : Nat := ((x.units.filter fun e => e.type = 5 && e.index = 16 + u).map (·.amount)).sum

/-- Slots of a port that a partition has reserved. -/
def State.slotsHeld (s : State) (p port : Nat) : Nat := tget 0 (s.sched p).slots port
def State.pagesHeld (s : State) (p u : Nat) : Nat := tget 0 (s.sched p).pages u

/-- Slots per beat within R596, and within the traffic that R582 allows one virtual channel: 65,536 ÷ (2 × HOP_NS + 200)
flits of 1,024 bytes per beat. (DEDUCED: log 91) -/
def State.slotsFit (s : State) (p : Nat) (x : ImgPart) : Bool :=
  (List.range 20).all fun port =>
    let want := x.slotsOn port
    let f := s.fp port
    let k := portSlots f.width
    let others := f.reserved - s.slotsHeld p port
    want == 0 || (decide (others + want ≤ k.2) && decide (want ≤ k.1 * tget 0 (s.part p).shares port / 256)
      && decide (others + want ≤ 65536 / (2 * f.hopNs + 200)))

/-- Pages within R607. -/
def State.pagesFit (s : State) (p : Nat) (x : ImgPart) : Bool :=
  (List.range 5).all fun u => x.pagesOn u == 0 || decide ((s.cu u).pagesReserved - s.pagesHeld p u + x.pagesOn u ≤ 96)

/-- The allotment of the job context fits on each bound engine (R135). -/
def State.allotsFit (s : State) (c : Nat) (es : List Nat) : Bool :=
  let n := (s.ctx c).allotUnits
  n == 0 || (es.filter (· < s.build.engines)).all fun e => (s.allotOf e c).isSome || (s.allotFit e n).isSome

/-- Is an object mapped in any segment of any table? -/
def State.mappedAny (s : State) (h : BitVec 32) : Bool :=
  s.ctxs.any fun e => (List.range 16).any fun i => (e.2.seg i).pages != 0 && (e.2.seg i).object == h

/-- Bandwidth B_P of a partition in bytes per microsecond (R498). -/
def State.bandwidth (s : State) (p : Nat) : Nat := (s.part p).channels.length * 2 * s.build.dataRate

/-- The checks of Table 13-12 marked LIMIT. CLOCK_MHZ has been found within Table 18-2 with the header. -/
def State.limitsOk (s : State) (p c : Nat) (h : ImgHeader) (x : ImgPart) (es : List Nat) : Bool :=
  let o := s.obj (hIndex x.ckpt)
  s.allotsFit c es && s.slotsFit p x && decide (x.spinePct ≤ 75) && s.pagesFit p x && decide (x.power ≤ (s.part p).power)
    && !o.host && !s.mappedAny x.ckpt && decide (2 * (x.logBytes + x.liveBytes) ≤ o.size)
    && decide (x.liveBytes * 1000 ≤ h.saveBeats * 256 * s.bandwidth p)

/-- What the checks of Table 13-12 need of the job context and the fences. -/
def State.jobStateOk (s : State) (p c : Nat) (h : ImgHeader) (e : ImgHub) : Bool :=
  let x := s.ctx c
  let t := s.ctx (s.tableOwner c)
  let f := s.fence (hIndex e.endFence)
  (s.part p).static && (s.part p).state == 2 && x.state == .live && x.part == p && (x.fabric == decide (1 < h.hubCount))
    && (List.range 16).all (fun i => (t.seg i).pages == 0 || (t.seg i).present)
    && f.state == 1 && (decide (h.hubCount ≤ 1) || f.exportScope == 2)

/-- The bytes of the image object. -/
def State.imageBytes (s : State) (h : BitVec 32) : List Byte :=
  let o := s.obj (hIndex h)
  let n := imgAt (mreadN s.mem o.base 16) 8 8
  mreadN s.mem o.base (max 64 (min n o.size))

/-- The result code of the checks of Table 13-12, in their order. A handle that cannot be followed ends them first.
(DEDUCED: log 91) -/
def State.admitCode (s : State) (p : Nat) : Nat :=
  let x := s.sched p
  let c := hIndex x.imageCtx
  if !s.ctxValid x.imageCtx || !s.objValid c x.imageObj none then 7
  else
    let o := s.obj (hIndex x.imageObj)
    let b := s.imageBytes x.imageObj
    if o.host || !s.imageOk b o.size then 1
    else
      match s.myHubEntry b 0 with
      | none => 1
      | some e =>
        let h := imgHeader b
        let q := imgPart b e.part
        if !s.fenceValid c e.endFence none || !s.objValid c q.ckpt none then 7
        else if !s.jobStateOk p c h e then 2
        else if !s.unitsBind p q then 3
        else if !s.limitsOk p c h q (bindTable q.units 1 (s.bindEngine p)) then 4
        else 0

/-- The bindings and reservations of an alternative on this hub (R631, R632). -/
def State.bindAlt (s : State) (p alt : Nat) : State :=
  let s := s.schedRelease p
  let x := s.sched p
  match s.myHubEntry x.image alt with
  | none => s.setSched p { x with alt := alt }
  | some e =>
    let q := imgPart x.image e.part
    let slots := ((List.range 20).map fun i => (i, q.slotsOn i)).filter fun r => r.2 != 0
    let pages := ((List.range 5).map fun i => (i, q.pagesOn i)).filter fun r => r.2 != 0
    let s := s.setSched p
      { x with alt := alt, engines := bindTable q.units 1 (s.bindEngine p), foreign := bindTable q.units 2 (s.bindForeign p),
               ways := (s.part p).ways.take q.ways, logBytes := q.logBytes, slots := slots, pages := pages }
    let s := slots.foldl (fun s r => s.setFp r.1 { s.fp r.1 with reserved := (s.fp r.1).reserved + r.2 }) s
    pages.foldl (fun s r => s.setCu r.1 { s.cu r.1 with pagesReserved := (s.cu r.1).pagesReserved + r.2 }) s

/-- An alternative is usable (R631): its hubs are members of the job that have not been expelled, and what its part on
this hub requires can be bound and reserved. -/
def State.altUsable (s : State) (p alt : Nat) : Bool :=
  let x := s.sched p
  let hubs := (imgHubs x.image alt).map (·.hubId)
  let job := (imgHubs x.image 0).map (·.hubId)
  decide (alt < (imgHeader x.image).altCount) && hubs.all (fun h => job.contains h && !x.expelled.contains h)
    && match s.myHubEntry x.image alt with
      | none => true
      | some e =>
        let q := imgPart x.image e.part
        s.unitsBind p q && s.slotsFit p q && s.pagesFit p q && s.allotsFit x.ctx (bindTable q.units 1 (s.bindEngine p))

/-- The alternative that the leader resumes under (R650). -/
def State.chooseAlt (s : State) (p : Nat) : Option Nat :=
  let x := s.sched p
  if s.altUsable p x.alt then some x.alt
  else (List.range (imgHeader x.image).altCount).find? fun a => s.altUsable p a

end Sys2Proof.Machine
end

