-- ==== Sys2Proof/Machine/Schedules.lean ====
section
/-! DEFINITION. Static schedules (chapter 13): the schedule block's commands, start and agreement, steps and transfers,
epochs, rollback, expulsion and the end of a schedule. -/

namespace Sys2Proof.Machine

/-! ### The job -/

/-- The present beat (R625). -/
def State.beat (s : State) : Nat := s.now / 256

/-- Hubs of the alternative in force that have not been expelled. -/
def State.jobHubs (s : State) (p : Nat) : List Nat :=
  let x := s.sched p
  ((imgHubs x.image x.alt).map (·.hubId)).filter fun h => !x.expelled.contains h

/-- The hub that leads: the leader of the alternative in force, or, when it has been expelled, the lowest-indexed
remaining hub (R656). -/
def State.jobLeader (s : State) (p : Nat) : Nat :=
  let x := s.sched p
  let l := imgLeader x.image x.alt
  if x.expelled.contains l then (s.jobHubs p).headD l else l

def State.leads (s : State) (p : Nat) : Bool := s.jobLeader p == s.myHub

def Sched.header (x : Sched) : ImgHeader := imgHeader x.image

/-- A job of more than one hub. -/
def Sched.multi (x : Sched) : Bool := decide (1 < x.header.hubCount)

/-- The beat at which part execution goes on after boundary e, counted from ORIGIN: the end of its save window; boundary
0 has none (R644, R649). -/
def Sched.afterBoundary (x : Sched) (e : Nat) : Nat := if e = 0 then 0 else e * x.epochBeats + x.saveBeats

/-- Work up to this position is executed again, and is not charged to the job context (R652). (DEDUCED: log 92) -/
def State.rerun (s : State) (p : Nat) : Bool := decide (s.beat - (s.sched p).origin < (s.sched p).replayTo)

/-- An origin of faults that arise in a step or transfer: no queue. -/
def stepOrigin (acc addr : Nat) : Origin := { source := 0x282, access := acc, address := addr }

/-- The violations of a step or transfer make one fault of the job context (R405, R208). -/
def State.jobViol (s : State) (c : Nat) (v : Viol) : State := if v.lines = 0 then s else s.fault c v.code (stepOrigin v.acc v.addr)

/-! ### Messages of the schedule (Table 13-10) -/

/-- A SCHED_XFER message on a compiled route. -/
def State.schedMsg (s : State) (p : Nat) (r : ImgXfer) (kind epoch va index line total : Nat) (bs : List Byte) : OfpMsg :=
  msgData { s.ofp 5 r.dstHub (s.tag (s.sched p).ctx) with
    sourceRouted := true, routeLen := BitVec.ofNat 3 r.routeLen, route := BitVec.ofNat 25 r.route,
    f10 := BitVec.ofNat 64 epoch, f18 := BitVec.ofNat 64 (kind * 2 ^ 56 + (s.sched p).alt % 256 * 2 ^ 48 + va % 2 ^ 48),
    f20 := BitVec.ofNat 64 (index % 2 ^ 32 * 2 ^ 32 + line % 2 ^ 32), f28 := BitVec.ofNat 64 (total % 2 ^ 32 * 2 ^ 32) } bs

/-- A scheduled message leaves; its bytes are charged unless it is sent again after a rollback. -/
def State.schedSend (s : State) (p : Nat) (m : OfpMsg) : State :=
  (if s.rerun p then s else s.chargeFabric m).sourceRoute m

/-- Transfers of a kind with their indices. -/
def State.routesOf (s : State) (p kind : Nat) : List (ImgXfer × Nat) := (s.myPart p).xfers.zipIdx.filter fun r => r.1.kind = kind

/-! ### Votes and commits (R638, R645, R655) -/

/-- This hub votes on a boundary: at the leader the vote is noted, elsewhere it goes out on the vote route.
(DESIGN CHOICE: log 90) -/
def State.castVote (s : State) (p e : Nat) : State :=
  let x := s.sched p
  let d := manifestDigest (s.manifest x.digest e x.alt)
  let healthy := !x.trigger
  if s.leads p then
    s.setSched p { x with votes := ⟨s.myHub, e, d, healthy⟩ :: x.votes.filter fun v => !(v.hub = s.myHub && v.epoch = e) }
  else
    (s.routesOf p 1).foldl (fun s r => s.schedSend p (s.schedMsg p r.1 1 e 0 r.2 0 1 (d ++ bytesLE 1 (flag healthy 0) ++ List.replicate 15 0))) s

/-- The leader sends a COMMIT on every commit route. -/
def State.sendCommit (s : State) (p e origin verdict alt : Nat) : State :=
  (s.routesOf p 2).foldl (fun s r =>
    let m := s.schedMsg p r.1 2 e 0 r.2 0 1 (bytesLE 8 origin ++ bytesLE 1 verdict ++ List.replicate 55 0)
    s.schedSend p { m with f18 := BitVec.ofNat 64 (2 * 2 ^ 56 + alt % 256 * 2 ^ 48) }) s

/-- A trigger of R648. -/
def State.schedTrigger (s : State) (p : Nat) : State := s.setSched p { s.sched p with trigger := true }

/-- Hubs are expelled from the job; this is a rollback trigger (R656). -/
def State.expel (s : State) (p : Nat) (hubs : List Nat) : State :=
  let x := s.sched p
  if hubs = [] then s
  else s.setSched p { x with expelled := x.expelled ++ hubs.filter (fun h => !x.expelled.contains h), trigger := true,
                             afterExpel := x.afterExpel || hubs.contains s.myHub }

/-- How many of some votes hold a digest. -/
def holders (vs : List Vote) (d : List Byte) : Nat := (vs.filter fun v => v.digest = d).length

/-- The digest that stands: the one held by more hubs; a tie goes to the leader's (R655). -/
def standing (vs : List Vote) (own : List Byte) : List Byte :=
  vs.foldl (fun d v => if holders vs d < holders vs v.digest then v.digest else d) own

/-! ### Allotments and checkpoints (R644) -/

/-- The bytes of the job context's allotment on an engine, counted from its base. -/
def State.allotBytes (s : State) (c e : Nat) : Mem :=
  match s.allotOf e c with
  | none => []
  | some a =>
    let base := a.2.base * unitBytes
    ((s.engine e).store.filter fun b => base ≤ b.1 && b.1 < base + a.2.size * unitBytes).map fun b => (b.1 - base, b.2)

/-- The job context gets its allotment on an engine, if it has none. -/
def State.giveAllot (s : State) (c e : Nat) : State :=
  let n := (s.ctx c).allotUnits
  if n = 0 ∨ (s.allotOf e c).isSome ∨ s.build.engines ≤ e then s
  else
    match s.allotFit e n with
    | none => s
    | some b => s.provide c e (.fresh b)

/-- The scrubs of an engine that meet a range of units are over: the range is about to be written. -/
def State.scrubNow (s : State) (e b n : Nat) : State :=
  let meets (r : Scrub) : Bool := decide (r.base < b + n) && decide (b < r.base + r.units)
  s.modEngine e fun x =>
    { x with scrubs := x.scrubs.filter (fun r => !meets r),
             store := (x.scrubs.filter meets).foldl (fun m r => mzero m (r.base * unitBytes) (r.units * unitBytes)) x.store,
             ctr := { x.ctr with scrubBytes := bump x.ctr.scrubBytes (((x.scrubs.filter meets).map fun r => r.units * unitBytes).sum) } }

/-- The allotment of the job context on an engine takes the bytes of a checkpoint. -/
def State.putAllot (s : State) (c e : Nat) (cells : Mem) : State :=
  let s := s.giveAllot c e
  match s.allotOf e c with
  | none => s
  | some a =>
    let base := a.2.base * unitBytes
    (s.scrubNow e a.2.base a.2.size).modEngine e fun x =>
      { x with store := cells.foldl (fun m b => mwrite m (base + b.1) b.2) (mzero x.store base (a.2.size * unitBytes)) }

/-- The allotments of the bound engines are restored from the committed checkpoint; that of boundary 0 is empty. -/
def State.restoreAllots (s : State) (p : Nat) : State :=
  let x := s.sched p
  let ck := ((x.ckpts.find? fun k => k.epoch = x.epoch).map (·.allots)).getD []
  x.engines.zipIdx.foldl (fun s r => s.putAllot x.ctx r.1 (tget [] ck r.2)) s

/-- The allotments of the job context are given up and scrubbed (R643). -/
def State.dropAllots (s : State) (p : Nat) : State :=
  let c := (s.sched p).ctx
  let t := s.tag c
  { s with engines := tmap s.engines fun _ e =>
    let mine := e.allots.filter fun (a : Nat × Allot) => a.2.owner = t
    { e with allots := e.allots.filter (fun (a : Nat × Allot) => a.2.owner ≠ t),
             scrubs := e.scrubs ++ mine.map (fun (a : Nat × Allot) => Scrub.mk a.2.base a.2.size) } }

/-! ### States of the schedule (Table 13-11) -/

/-- A schedule is suspended. -/
def State.schedSuspend (s : State) (p : Nat) : State :=
  let s := (s.schedStop p).dropAllots p
  s.setSched p { s.sched p with state := 6, alt := 0, afterSuspend := false, noRemedy := false }

/-- A boundary is committed on this hub (R645). -/
def State.commitBoundary (s : State) (p e : Nat) : State :=
  let x := s.sched p
  let s := s.setSched p
    { x with epoch := e, voting := none, votes := x.votes.filter (fun v => v.epoch > e), ckpts := x.ckpts.filter (fun k => k.epoch = e),
             logs := x.logs.filter fun b => e ≤ b.epoch }
  if x.state = 5 then s.schedSuspend p else s

/-- The leader looks at the votes on the boundary it is voting on: with every vote there, disagreement expels hubs,
HEALTH 0 triggers a rollback, and agreement commits (R645, R648, R655). -/
def State.leaderCheck (s : State) (p : Nat) : State :=
  let x := s.sched p
  match x.voting with
  | none => s
  | some e =>
    let hubs := s.jobHubs p
    let vs := x.votes.filter fun v => v.epoch = e && hubs.contains v.hub
    if !s.leads p || !hubs.all (fun h => vs.any fun v => v.hub = h) then s
    else
      let own := manifestDigest (s.manifest x.digest e x.alt)
      let d := standing vs own
      let lost := (vs.filter fun v => v.digest ≠ d).map (·.hub)
      if lost ≠ [] then s.expel p lost
      else if vs.any fun v => !v.healthy then s.schedTrigger p
      else (s.sendCommit p e x.origin 1 x.alt).commitBoundary p e

/-- A start is refused on this hub: it completes with DISAGREE (R638). (DEDUCED: log 91) -/
def State.startRefused (s : State) (p : Nat) : State :=
  let s := s.schedStop p
  (s.setSched p { s.sched p with state := 1, alt := 0 }).sxDone p 5

/-- A start is committed with an alternative and a start beat. A hub that is not in it completes with DISAGREE. -/
def State.startCommitted (s : State) (p alt b : Nat) : State :=
  let x := s.sched p
  if (s.myHubEntry x.image alt).isNone then s.startRefused p
  else
    let s := if alt = x.alt then s else s.bindAlt p alt
    let x := s.sched p
    let s := s.setSched p { x with state := 3, origin := b - x.afterBoundary x.epoch, votes := [], replayTo := 0 }
    (s.restoreAllots p).sxDone p 0

/-! ### The schedule block's commands (R635 to R643) -/

/-- The Warden carries out an ADMIT. -/
def State.runAdmit (s : State) (p : Nat) : State :=
  let x := s.sched p
  if x.state ≠ 0 then s.sxDone p 2
  else
    let code := s.admitCode p
    if code ≠ 0 then s.sxDone p code
    else
      let b := s.imageBytes x.imageObj
      let h := imgHeader b
      let c := hIndex x.imageCtx
      let b := b.take h.length
      let s := s.setSched p
        { imageObj := x.imageObj, imageCtx := x.imageCtx, startBeat := x.startBeat, tag := x.tag, code := x.code, lost := x.lost, done := x.done,
          busy := true, op := x.op, curTag := x.curTag, state := 1, ctx := c, image := b,
          digest := takePad 48 (Config.sha384 b), epochBeats := h.epochBeats, saveBeats := h.saveBeats, period := h.periodBeats,
          iterations := h.iterations }
      let s := s.bindAlt p 0
      let c := (s.sched p).ctx
      ((s.sched p).engines.foldl (fun s e => s.giveAllot c e) s).sxDone p 0

/-- The hub entry that names this hub's END_FENCE. -/
def State.endEntry (s : State) (p : Nat) : Option ImgHub :=
  (s.myHubEntry (s.sched p).image (s.sched p).alt).or (s.myHubEntry (s.sched p).image 0)

/-- END_FENCE of this hub is signalled. -/
def State.signalEnd (s : State) (p code : Nat) : State :=
  match s.endEntry p with
  | none => s
  | some e => s.sendSignal e.endFence code

/-- May a schedule be armed now: 6 LATE, 5 DISAGREE (R624, R637). -/
def State.armCode (s : State) (p : Nat) : Nat :=
  let x := s.sched p
  if x.startBeat < s.beat + 4000 then 6
  else if x.multi && (s.thyme.state == 0 || s.thyme.state == 3) then 5
  else 0

/-- The start VOTE goes out once every bound engine has reached its pinned point (R815). (DEDUCED: log 91) -/
def State.voteIfPinned (s : State) (p : Nat) : State :=
  let x := s.sched p
  if x.voteDue && x.state == 2 && s.atPoint x.engines x.header.clockMhz then (s.setSched p { x with voteDue := false }).castVote p 0
  else s

/-- A schedule is armed: clocks are pinned, power is reserved, and the hub votes (R638, R643). -/
def State.arm (s : State) (p : Nat) : State :=
  let x := s.sched p
  let s := s.setSched p { x with state := 2, voteDue := true, votes := [], powerHeld := (s.myPart p).power,
                                 trigger := false, noRemedy := false, restart := none, reports := [] }
  (s.pinAll x.engines x.header.clockMhz).voteIfPinned p

/-- The Warden carries out a START. -/
def State.runStart (s : State) (p : Nat) : State :=
  let x := s.sched p
  if x.state ≠ 1 then s.sxDone p 2
  else if x.iterations = 0 then (((s.signalEnd p 0).setSched p { x with state := 7 })).sxDone p 0
  else
    let code := s.armCode p
    if code ≠ 0 then s.sxDone p code else s.arm p

/-- The Warden carries out a SUSPEND. -/
def State.runSuspend (s : State) (p : Nat) : State :=
  let x := s.sched p
  if x.state ≠ 3 then s.sxDone p 2 else (s.setSched p { x with state := 5, suspendAsked := true }).sxDone p 0

/-- The Warden carries out a RESUME: the checks of Table 13-12 are made against the live state, and units bound again
(R632, R636). (DEDUCED: log 91) -/
def State.runResume (s : State) (p : Nat) : State :=
  let x := s.sched p
  if x.state ≠ 6 then s.sxDone p 2
  else
    let code := s.admitCode p
    if code ≠ 0 then s.sxDone p code
    else
      let late := s.armCode p
      if late ≠ 0 then s.sxDone p late else (s.bindAlt p 0).arm p

/-- The Warden carries out an UNLOAD. -/
def State.runUnload (s : State) (p : Nat) : State :=
  let x := s.sched p
  if x.state ≠ 1 ∧ x.state ≠ 7 ∧ x.state ≠ 8 then s.sxDone p 2
  else
    let s := ((s.schedRelease p).dropAllots p)
    (s.setSched p { s.sched p with state := 0, image := [], logs := [], ckpts := [], engines := [], foreign := [], ways := [] }).sxDone p 0

/-- Partition programs and LC commands are serialised with admissions (R281, R791). (DEDUCED: log 45) -/
def State.adminBusy (s : State) : Bool := s.wmb.busy || s.lc.busy

/-- The Warden carries out the command in progress of a schedule block. -/
def State.runSx (s : State) (p : Nat) : State :=
  let op := (s.sched p).op
  if op = 1 then s.runAdmit p
  else if op = 2 then s.runStart p
  else if op = 3 then s.runSuspend p
  else if op = 4 then s.runResume p
  else if op = 5 then s.runUnload p
  else s.sxDone p 2

/-- ADMITs that waited for a partition program or an LC command are carried out. -/
def State.runAdmits (s : State) : State :=
  if s.adminBusy || s.sage.wardenDown then s
  else (s.sx.filter fun e => e.2.busy && e.2.op = 1).foldl (fun s e => s.runAdmit e.1) s

/-- A write of SX_CMD (R635): ignored while a command is in progress. -/
def State.sxCommand (s : State) (p op : Nat) (tag : BitVec 16) : State :=
  if !s.decodes .pf || !s.fwRuns || s.build.partitions ≤ p then s
  else
    let x := s.sched p
    if x.busy then s.setSched p { x with lost := true }
    else
      let s := s.setSched p { x with busy := true, op := op, curTag := tag.toNat, queued := s.sage.wardenDown }
      if s.sage.wardenDown || (op == 1 && s.adminBusy) then s else s.runSx p

def execSxAdmit (p : Nat) (tag : BitVec 16) (s : State) : Host.Outcome State Fault Refusal := .next (s.work (s.sxCommand p 1 tag))

def execSxStart (p : Nat) (tag : BitVec 16) (s : State) : Host.Outcome State Fault Refusal := .next (s.work (s.sxCommand p 2 tag))

def execSxSuspend (p : Nat) (tag : BitVec 16) (s : State) : Host.Outcome State Fault Refusal := .next (s.work (s.sxCommand p 3 tag))

def execSxResume (p : Nat) (tag : BitVec 16) (s : State) : Host.Outcome State Fault Refusal := .next (s.work (s.sxCommand p 4 tag))

def execSxUnload (p : Nat) (tag : BitVec 16) (s : State) : Host.Outcome State Fault Refusal := .next (s.work (s.sxCommand p 5 tag))

/-- SX_UNKNOWN_OP: any other OP completes with STATE. -/
def execSxUnknownOp (p : Nat) (tag : BitVec 16) (op : BitVec 8) (s : State) : Host.Outcome State Fault Refusal :=
  .next (s.work (if 1 ≤ op.toNat ∧ op.toNat ≤ 5 then s else s.sxCommand p op.toNat tag))

/-! ### The start (R638) -/

/-- START_DECISION: the leader commits alternative 0, or the lowest-indexed usable alternative whose hubs all voted in
agreement, or refuses. -/
def execStartDecision (p : Nat) (s : State) : Host.Outcome State Fault Refusal :=
  .next (s.work <|
    let x := s.sched p
    if x.state ≠ 2 ∨ s.leads p = false then s
    else
      let own := manifestDigest (s.manifest x.digest 0 x.alt)
      let yes := (x.votes.filter fun v => v.epoch = 0 && v.healthy && v.digest = own).map (·.hub)
      let all (a : Nat) : Bool := (imgHubs x.image a).all fun h => yes.contains h.hubId
      let choice := if all 0 then some 0 else (List.range x.header.altCount).find? fun a => all a && s.altUsable p a
      match choice with
      | some a => (s.sendCommit p 0 x.startBeat 1 a).startCommitted p a x.startBeat
      | none => (s.sendCommit p 0 x.startBeat 2 x.alt).startRefused p)

/-- START_BEAT_TIMEOUT. -/
def execStartBeatTimeout (p : Nat) (s : State) : Host.Outcome State Fault Refusal :=
  .next (s.work (if (s.sched p).state = 2 then s.startRefused p else s))

/-- The partition of a scheduled message, when its owner tag is that of the job context there. -/
def State.jobOf (s : State) (m : OfpMsg) : Option Nat :=
  let p := tagPart m.ownerTag
  let x := s.sched p
  if m.ownerTag ≠ 0 ∧ x.state ≠ 0 ∧ s.tag x.ctx = m.ownerTag ∧ (s.ctx x.ctx).state = .live then some p else none

/-- KIND of a SCHED_XFER (Table 13-10). -/
def xferKind (m : OfpMsg) : Nat := fld m.f18.toNat 63 56

/-- SCHED_VOTE. -/
def execSchedVote (port : Nat) (m : OfpMsg) (s : State) : Host.Outcome State Fault Refusal :=
  .next (s.work <| s.receive port m 5 fun s =>
    match s.jobOf m with
    | none => s
    | some p =>
      if xferKind m ≠ 1 ∨ s.leads p = false then s
      else
        let v : Vote := ⟨m.srcHub.toNat, m.f10.toNat, m.data.take 48, m.data.getD 48 0 = 1⟩
        let x := s.sched p
        let s := s.setSched p { x with votes := v :: x.votes.filter fun w => !(w.hub = v.hub && w.epoch = v.epoch) }
        if x.state = 3 ∨ x.state = 5 then (if v.healthy then s.leaderCheck p else s.schedTrigger p) else s)

/-- SCHED_COMMIT: of a start in state ARMED, of the boundary voted on otherwise. -/
def execSchedCommit (port : Nat) (m : OfpMsg) (s : State) : Host.Outcome State Fault Refusal :=
  .next (s.work <| s.receive port m 5 fun s =>
    match s.jobOf m with
    | none => s
    | some p =>
      let x := s.sched p
      let alt := fld m.f18.toNat 55 48
      if xferKind m ≠ 2 ∨ m.srcHub.toNat ≠ s.jobLeader p then s
      else if x.state = 2 then
        if m.data.getD 8 0 = 1 then s.startCommitted p alt (leAt m.data 0 8) else s.startRefused p
      else if (x.state = 3 ∨ x.state = 5) ∧ x.voting = some m.f10.toNat ∧ m.data.getD 8 0 = 1 then s.commitBoundary p m.f10.toNat
      else s)

/-! ### Steps (R630, R633) -/

/-- A step is listed as running; a rollback or its end takes it off. -/
def State.stepRuns (s : State) (p k : Nat) (t : ImgStep) : State :=
  let x := s.sched p
  s.setSched p { x with running := x.running ++ [{ step := k, deadline := s.beat + t.deadline, fence := t.fence }] }

/-- A fault BAD_COMMAND of a step when it is dispatched; the step signals its FENCE with it. -/
def State.badStep (s : State) (p k va : Nat) : State := (s.fault (s.sched p).ctx 3 (stepOrigin 4 va)).stepEnds p k 3

/-- The hub's own reads and writes in a step refuse a segment that is not present at once (R456). -/
def State.jobRead (s : State) (c va n : Nat) : ReadRes := s.readVa ⟨c, 4, ⟨0, 0⟩, []⟩ (List.range 16) va n

/-- Bytes moved by a step or transfer are charged, unless it runs again after a rollback. (DEDUCED: log 92) -/
def State.jobCharge (s : State) (p c dev host : Nat) : State := if s.rerun p then s else s.chargeBytes c dev host

/-- The launch of a step goes to its bound engine. While it runs again after a rollback nothing is charged (R652). -/
def State.startStep (s : State) (p k : Nat) (t : ImgStep) (d : Desc) : State :=
  let x := s.sched p
  let e := ith x.engines t.unit
  let (id, s) := s.fresh
  let free := if s.rerun p then 2 ^ 64 else 0
  let l : Launch := { ctx := x.ctx, cmd := none, step := some (p, k), wg := 0, wgs := 1, desc := d, origin := 3 * 2 ^ 56, queue := 0xFFFF,
                      owedTime := free, owedMem := free, owedHost := free }
  if !s.engineFree e || (s.bindFor e d.arrays).isNone then s
  else ((((s.setLaunch id l.initial).giveAllot x.ctx e).place id e).modLaunch id fun l => { l with capSet := 0 })

/-- A launch or foreign launch step reads its descriptor and constant buffer, is checked, and is dispatched (R633).
(DEDUCED: log 92) -/
def State.launchStep (s : State) (p k : Nat) (t : ImgStep) : State :=
  let x := s.sched p
  let c := x.ctx
  let q := s.myPart p
  let a := s.jobRead c t.va 64
  let s := (s.jobCharge p c a.dev a.host).jobViol c a.viol
  let h := LaunchHeader.ofBytes a.bytes
  let u := (q.units.find? fun u => u.type = t.kind && u.index = t.unit).map (·.amount)
  if a.stop.isSome then s.schedTrigger p
  else if (s.ctx c).state ≠ .live then s.stepEnds p k 0x0A
  else if !h.ok s.build.arrays then s.badStep p k t.va
  else
    let b := s.jobRead c (h.constVa t.va) h.constLen
    let s := (s.jobCharge p c b.dev b.host).jobViol c b.viol
    let d := h.desc b.bytes
    if b.stop.isSome then s.schedTrigger p
    else if (s.ctx c).state ≠ .live then s.stepEnds p k 0x0A
    else if d.workgroups = 0 then s.stepEnds p k 0
    else if 1 < d.workgroups then s.badStep p k t.va
    else if t.kind = 1 then if u.getD 0 < d.arrays then s.badStep p k t.va else s.startStep p k t d
    else
      let i := ith x.foreign t.unit
      if d.arrays ≠ 0 then s.badStep p k t.va
      else if i = 255 ∨ (s.fe_ i).state ≠ 1 ∨ (s.cp (i / 16)).state ≠ .up then s.schedTrigger p
      else s.feDispatch i c none (some (p, k)) 0 d

/-- A COPY step: its block is read, and its bytes are moved (R406). (DESIGN CHOICE: log 90) -/
def State.copyStep (s : State) (p k : Nat) (t : ImgStep) : State :=
  let c := (s.sched p).ctx
  let a := s.jobRead c t.va 32
  let s := (s.jobCharge p c a.dev a.host).jobViol c a.viol
  if a.stop.isSome then s.schedTrigger p
  else if (s.ctx c).state ≠ .live then s.stepEnds p k 0x0A
  else
    match copyBlock false a.bytes with
    | none => s.badStep p k t.va
    | some j =>
      let acct := (s.ctx c).acct
      let r := (List.range (ceilDiv j.len 65536)).foldl (fun (r : CopyRun) _ =>
        r.block ⟨c, 4, ⟨0, 0⟩, []⟩ ⟨c, 5, ⟨0, 0⟩, []⟩ (List.range 16) true) { s := s, j := j }
      let s := if s.rerun p then r.s.modCtx c fun x => { x with acct := acct } else r.s
      let s := s.jobViol c r.v
      if r.stop.isSome then s.schedTrigger p else s.stepEnds p k (if r.v.lines = 0 then 0 else r.v.code)

/-- BEAT_STEP_DISPATCH. (DESIGN CHOICE: log 90) -/
def execBeatStepDispatch (p step : Nat) (s : State) : Host.Outcome State Fault Refusal :=
  .next (s.work <|
    let x := s.sched p
    match (s.myPart p).steps[step]? with
    | none => s
    | some t =>
      if (x.state ≠ 3 ∧ x.state ≠ 5) ∨ x.running.any (fun r => r.step = step) then s
      else
        let s := s.stepRuns p step t
        if (s.ctx x.ctx).state ≠ .live then s.stepEnds p step 0x0A
        else if t.kind = 3 then s.copyStep p step t
        else s.launchStep p step t)

/-! ### Transfers (R634) -/

/-- A data transfer is read and sent, 64 lines to a message. -/
def State.startXfer (s : State) (p k : Nat) (t : ImgXfer) : State :=
  let c := (s.sched p).ctx
  let e := (s.sched p).epochAt s.now
  let a := s.jobRead c t.srcVa (64 * t.lines)
  let s := (s.jobCharge p c a.dev a.host).jobViol c a.viol
  if a.stop.isSome then s.schedTrigger p
  else
   (List.range ((t.lines + 63) / 64)).foldl (fun s i =>
    s.schedSend p (s.schedMsg p t 0 e t.dstVa k (64 * i) t.lines ((a.bytes.drop (4096 * i)).take 4096))) s

/-- BEAT_XFER_START. Votes and commits leave with SAVE_WINDOW_END and with the leader's decision. -/
def execBeatXferStart (p xfer : Nat) (s : State) : Host.Outcome State Fault Refusal :=
  .next (s.work <|
    let x := s.sched p
    match (s.myPart p).xfers[xfer]? with
    | none => s
    | some t => if (x.state = 3 ∨ x.state = 5) ∧ t.kind = 0 ∧ (s.ctx x.ctx).state = .live then s.startXfer p xfer t else s)

/-- Received lines are written through the job context's segments. -/
def State.schedWrite (s : State) (c va : Nat) (bs : List Byte) : State × Viol × Nat × Nat :=
  (lineList va bs.length).foldl (fun (q : State × Viol × Nat × Nat) l =>
    match q.1.writeJob ⟨c, 5, ⟨0, 0⟩, []⟩ (List.range 16) l.1 ((bs.drop (l.1 - va)).take l.2) with
    | .done t host => (t, q.2.1, if host then q.2.2.1 else q.2.2.1 + l.2, if host then q.2.2.2 + l.2 else q.2.2.2)
    | .dropped k => (q.1, q.2.1.add 1 l.1 5 k, q.2.2)
    | .stopped _ => (q.1.jobWaits c, q.2)) (s, {}, 0, 0)

/-- SCHED_XFER_DATA. -/
def execSchedXferData (port : Nat) (m : OfpMsg) (s : State) : Host.Outcome State Fault Refusal :=
  .next (s.work <| s.receive port m 5 fun s =>
    match s.jobOf m with
    | none => s
    | some p =>
      let x := s.sched p
      if xferKind m ≠ 0 ∨ (x.state ≠ 3 ∧ x.state ≠ 5) then s
      else
        let r := s.schedWrite x.ctx (fld m.f18.toNat 47 0 + 64 * fld m.f20.toNat 31 0) m.data
        ((if r.1.rerun p then r.1 else r.1.chargeFabric m).jobCharge p x.ctx r.2.2.1 r.2.2.2).jobViol x.ctx r.2.1)

/-! ### Overruns and epochs (R627, R644, R645) -/

/-- OVERRUN: a step is still running at the boundary of its deadline beat, or a save has not completed within its
window. -/
def execOverrun (p : Nat) (s : State) : Host.Outcome State Fault Refusal :=
  .next (s.work <|
    let x := s.sched p
    let late := x.running.any (fun r => r.deadline ≤ s.beat)
      || match x.saving with
        | none => false
        | some e => decide (x.origin + x.afterBoundary e ≤ s.beat)
    if (x.state = 3 ∨ x.state = 5) ∧ late then (s.schedTrigger p).sageFail 0x282 5 else s)

/-- Passes that are complete at a beat (Table 13-17). (DEDUCED: log 92) -/
def Sched.passesAt (x : Sched) (beat : Nat) : Nat := max x.passes (min x.iterations ((beat - x.origin) / max x.period 1))

/-- EPOCH_BOUNDARY: the save of the allotments begins. -/
def execEpochBoundary (p : Nat) (s : State) : Host.Outcome State Fault Refusal :=
  .next (s.work <|
    let x := s.sched p
    let e := x.epochAt s.now
    if (x.state = 3 ∨ x.state = 5) ∧ x.epoch < e then s.setSched p { x with saving := some e, passes := x.passesAt s.beat } else s)

/-- SAVE_WINDOW_END: the allotments of the bound engines stand in the checkpoint slot that does not hold the last
committed one, and the hub votes. (DESIGN CHOICE: log 90) -/
def execSaveWindowEnd (p : Nat) (s : State) : Host.Outcome State Fault Refusal :=
  .next (s.work <|
    let x := s.sched p
    match x.saving with
    | none => s
    | some e =>
      let allots : Table Mem := x.engines.zipIdx.map fun r => (r.2, s.allotBytes x.ctx r.1)
      let s := s.setSched p { x with saving := none, voting := some e, ckpts := x.ckpts.filter (fun k => k.epoch = x.epoch) ++ [⟨e, allots⟩] }
      (s.castVote p e).leaderCheck p)

/-- VOTE_WINDOW_TIMEOUT: the leader expels the hubs whose VOTE has not come. -/
def execVoteWindowTimeout (p : Nat) (s : State) : Host.Outcome State Fault Refusal :=
  .next (s.work <|
    let x := s.sched p
    match x.voting with
    | none => s
    | some e =>
      if s.leads p = false then s
      else s.expel p ((s.jobHubs p).filter fun h => !x.votes.any fun v => v.hub = h && v.epoch = e))

/-! ### Rollback (R648 to R652) -/

/-- The steps, messages and partials of a job are discarded, and no fence is signalled (Table 13-14 step 2). -/
def State.discardSteps (s : State) (p : Nat) : State :=
  let x := s.sched p
  let t := s.tag x.ctx
  let s := s.setSched p { x with running := [] }
  let mine (l : Option (Nat × Nat)) : Bool := match l with
    | some (q, _) => q == p
    | none => false
  let s := ((s.launches.filter fun e => mine e.2.step).map (·.1)).foldl State.endLaunch s
  let fes := s.cps.flatMap fun c => (c.2.fes.filter fun f => mine f.2.step).map fun f => 16 * c.1 + f.1
  let s := fes.foldl State.feQuiesce s
  { s with fab := { s.fab with cus := tmap s.fab.cus fun _ u =>
             { u with held := u.held.filter (fun q => q.owner ≠ t), rx := u.rx.filter (fun r => r.part.owner ≠ t) } },
           engines := tmap s.engines fun _ e => { e with held := e.held.filter (fun q => q.owner ≠ t), inbox := e.inbox.filter (fun q => q.owner ≠ t) },
           fps := tmap s.fps fun _ f => { f with txQueue := f.txQueue.filter fun m => !(m.sourceRouted && m.ownerTag == t) } }

/-- ROLLBACK_TRIGGER: a trigger on this hub, or, in a job of several hubs, the leader's notice, stops the part. During a
rollback it starts it again (R651). A unit lost with no remedy: the hub leaves a job of several hubs, and a single-hub
job is to be suspended (R658). (DESIGN CHOICE: log 90) -/
def execRollbackTrigger (p : Nat) (s : State) : Host.Outcome State Fault Refusal :=
  .next (s.work <|
    let x := s.sched p
    if !(x.state == 3 || x.state == 4 || x.state == 5) || !(x.trigger || x.multi) then s
    else
      let s := s.discardSteps p
      let x := s.sched p
      let s := s.setSched p
        { x with state := 4, trigger := false, restart := none, reports := [], saving := none, voting := none, votes := [],
                 rollbacks := if x.state = 4 then x.rollbacks else bump x.rollbacks 1, stoppedAt := if x.state = 4 then x.stoppedAt else s.beat }
      if !x.noRemedy || (s.chooseAlt p).isSome then s
      else if x.multi then (s.expel p [s.myHub]).rmRecord 0x51 p 3 0 0
      else (s.setSched p { s.sched p with afterSuspend := true }).rmRecord 0x51 p 3 0 0)

/-- Bytes of the capture logs that a rollback restores. -/
def Sched.logLive (x : Sched) : Nat := 65536 * x.logs.length

/-- LIVE_BYTES of a hub of the alternative in force. -/
def State.liveOf (s : State) (p hub : Nat) : Nat :=
  let x := s.sched p
  (((imgHubs x.image x.alt).find? fun h => h.hubId = hub).map fun h => (imgPart x.image h.part).liveBytes).getD 0

/-- The restart beat: the first boundary at least 1 ms plus the largest T_restore after the last report (R649, R650).
(DEDUCED: log 91) -/
def State.restartBeat (s : State) (p : Nat) (reports : List (Nat × Nat)) : Nat :=
  let bw := max (s.bandwidth p) 1
  let t := reports.foldl (fun m r => max m (((2 * r.2 + s.liveOf p r.1) * 1000 + bw - 1) / bw)) 0
  (s.now + 1000000 + t + 255) / 256

/-- The leader holds every report: it chooses the alternative and the restart beat. With no usable alternative a
single-hub job is suspended and a job of several hubs expelled (R650, R658, R660). -/
def State.planRestart (s : State) (p : Nat) : State :=
  let x := s.sched p
  let b := s.restartBeat p x.reports
  match s.chooseAlt p with
  | some a =>
    let s := s.setSched p { x with restart := some b, nextAlt := a }
    if a = x.alt ∨ !x.noRemedy then s else s.rmRecord 0x51 p 2 0 0
  | none =>
    s.setSched p { x with restart := some b, nextAlt := x.alt, afterSuspend := x.afterSuspend || !x.multi,
                          afterExpel := x.afterExpel || x.multi }

/-- ROLLBACK_REPORT: a hub's report of its log bytes reaches the leader. This hub sends its own only when no thermal
emergency is in force (R833). -/
def execRollbackReport (p hub logBytes : Nat) (s : State) : Host.Outcome State Fault Refusal :=
  .next (s.work <|
    let x := s.sched p
    let me := hub == s.myHub
    if x.state ≠ 4 ∨ s.leads p = false ∨ !(s.jobHubs p).contains hub ∨ (me ∧ s.pw.emergency) then s
    else
      let l := if me then x.logLive else logBytes
      let s := s.setSched p { x with reports := (hub, l) :: x.reports.filter fun r => r.1 ≠ hub }
      if (s.jobHubs p).all fun h => (s.sched p).reports.any fun r => r.1 = h then s.planRestart p else s)

/-- One captured block is copied back. -/
def State.restoreLog (s : State) (b : LogBlock) : State :=
  let put (m : Mem) : Mem := b.cells.foldl (fun m c => mwrite m c.1 c.2) (mzero m b.base 65536)
  if b.host then { s with hostMem := put s.hostMem } else { s with mem := put s.mem }

/-- The END_FENCE and every unsignalled step FENCE are signalled with EXPELLED (R660). -/
def State.signalExpelled (s : State) (p : Nat) : State :=
  ((s.myPart p).steps.foldl (fun s t => s.sendSignal t.fence 0x0B) (s.signalEnd p 0x0B))

/-- Can the hubs that are left go on with some alternative? -/
def State.othersGoOn (s : State) (p : Nat) : Bool :=
  let x := s.sched p
  (List.range x.header.altCount).any fun a => (imgHubs x.image a).all fun h => !x.expelled.contains h.hubId

/-- The schedule enters EXPELLED: without signalling while the job goes on without this hub, and otherwise with its
fences signalled (R659, R660). (DEDUCED: log 92) -/
def State.schedExpelled (s : State) (p : Nat) : State :=
  let s := if s.othersGoOn p then s else s.signalExpelled p
  let s := s.schedStop p
  s.setSched p { s.sched p with state := 8, afterExpel := false }

/-- The part resumes at the first beat after the target's save window, mapped to the restart beat (Table 13-14).
(DEDUCED: log 92) -/
def State.resumePart (s : State) (p b : Nat) : State :=
  let x := s.sched p
  if (s.myHubEntry x.image x.nextAlt).isNone then
    let s := s.schedStop p
    s.setSched p { s.sched p with state := 8 }
  else
    let at_ := x.afterBoundary x.epoch
    let s := if x.nextAlt = x.alt then s else s.bindAlt p x.nextAlt
    let x := s.sched p
    let s := s.setSched p
      { x with state := if x.suspendAsked then 5 else 3, origin := b - at_, replayTo := max x.replayTo (x.stoppedAt - x.origin),
               replayBeats := bump x.replayBeats (x.stoppedAt - (x.origin + at_)), restart := none, reports := [], noRemedy := false }
    (s.restoreAllots p).pinAll (s.sched p).engines x.header.clockMhz

/-- RESTART_BEAT: memory holds what it held at the target, and the part resumes, is suspended or is expelled. On a hub
that does not lead, the leader's notice gives the beat; the alternative follows the same choice. (DESIGN CHOICE: log 90) -/
def execRestartBeat (p : Nat) (s : State) : Host.Outcome State Fault Refusal :=
  .next (s.work <|
    let x := s.sched p
    let due := match x.restart with
      | some b => decide (b ≤ s.beat)
      | none => !(s.leads p)
    if x.state ≠ 4 ∨ x.trigger ∨ !due then s
    else
      let b := x.restart.getD s.beat
      let s := x.logs.reverse.foldl State.restoreLog s
      let alt := if x.restart.isSome then x.nextAlt else (s.chooseAlt p).getD x.alt
      let s := s.setSched p { x with logs := x.logs.filter (fun l => l.epoch = x.epoch), nextAlt := alt }
      if x.afterExpel then s.schedExpelled p
      else if x.afterSuspend then s.schedSuspend p
      else s.resumePart p b)

/-! ### The end (R640, R647) -/

/-- The beat, counted from ORIGIN, by which everything of the last pass has ended. -/
def State.lastDeadline (s : State) (p : Nat) : Nat :=
  let x := s.sched p
  let q := s.myPart p
  let m := (q.steps.map fun t => t.beat + t.deadline) ++ (q.xfers.filter (fun t => t.kind = 0)).map (fun t => t.beat + t.deadline)
  (x.iterations - 1) * x.period + m.foldl max 0

/-- The leader signals the END_FENCE of every hub of alternative 0 that is not in the alternative in force and can be
reached. -/
def State.signalOthers (s : State) (p : Nat) : State :=
  let x := s.sched p
  let now := (imgHubs x.image x.alt).map (·.hubId)
  ((imgHubs x.image 0).filter fun h => !now.contains h.hubId && s.reachable h.hubId && h.hubId != s.myHub).foldl (fun s h =>
    let m := s.ofp 1 h.hubId (s.tag x.ctx)
    s.e2eSend { dst := h.hubId, seq := 0,
                msg := { m with f10 := BitVec.ofNat 64 (h.hubId * 2 ^ 48 + h.endKey * 2 ^ 32 + h.endFence.toNat) } }) s

/-- SCHEDULE_END: after a log was full, every END_FENCE is signalled with BAD_COMMAND; once the last pass's last deadline
has passed and the boundary after it is committed, normally. -/
def execScheduleEnd (p : Nat) (s : State) : Host.Outcome State Fault Refusal :=
  .next (s.work <|
    let x := s.sched p
    if x.ending ∧ (x.state = 3 ∨ x.state = 4 ∨ x.state = 5) then
      let s := ((s.discardSteps p).signalEnd p 3).schedStop p
      s.setSched p { s.sched p with state := 7, ending := false }
    else if (x.state = 3 ∨ x.state = 5) ∧ x.running = [] ∧ s.lastDeadline p ≤ x.epoch * x.epochBeats then
      let s := s.setSched p { x with passes := x.iterations }
      let s := s.signalEnd p 0
      let s := (if s.leads p then s.signalOthers p else s).schedStop p
      s.setSched p { s.sched p with state := 7 }
    else s)

end Sys2Proof.Machine
end

