-- ==== Sys2Proof/Machine/Chiplet.lean ====
section
/-! DEFINITION. Chiplet ports (chapter 11): link and handshake, the messages of chiplets, their bounds, and recovery. -/

namespace Sys2Proof.Machine

/-! ### Link and handshake (R519 to R522, R538, R541, R542, R560) -/

/-- Credits that the hub advertises (R538). -/
def hubCredits : CpCredits := ⟨128, 512, 128, 64⟩

/-- HELLO (Table 11-4). -/
def helloMsg : CppMsg :=
  { cppZero with arg0 := BitVec.ofNat 64 (1 + 128 * 2 ^ 16 + 512 * 2 ^ 32 + 128 * 2 ^ 48), arg1 := 64 }

/-- RESET and HELLO leave when a link has come up: RESET only in a recovery (R541, R560). (DEDUCED: log 87) -/
def State.sayHello (s : State) (port : Nat) : State :=
  let s :=
    if (s.cp port).recovering then
      let (tag, s) := s.cppTag port
      { s.setCp port { s.cp port with resetTag := some tag } with out := s.out ++ [Out.cpp port 0x0F { cppZero with tag := tag }] }
    else s
  { s with out := s.out ++ [Out.cpp port 1 helloMsg] }

/-- CHIPLET_LINK_UP: with no module trained the port stays down (R520). -/
def execChipletLinkUp (port rate lanes : Nat) (s : State) : Host.Outcome State Fault Refusal :=
  .next (s.work <|
    let p := s.cp port
    let st := s.fptStatus (.chipletPort port)
    if s.build.chipletPorts ≤ port ∨ st = 0 ∨ (4 ≤ st ∧ st ≤ 8) ∨ (p.state ≠ .down ∧ p.state ≠ .training) then s
    else if lanes = 0 then
      (s.setCp port { p with state := if p.recovering then .quarantined else .down, cause := if p.recovering then 11 else p.cause,
                             rate := 0, lanes := 0, recovering := false }).fptChange (.chipletPort port) fun f => { f with status := 9, detail := 0 }
    else
      (s.setCp port { p with state := .handshake, rate := rate, lanes := lanes, fromChip := hubCredits, toChip := {}, txq := [], held := [],
                             invals := [] }).sayHello port)

/-- The port stays down with a case of R542; a recovery returns to state 4 (R560). (DEDUCED: log 87) -/
def State.capsRefused (s : State) (port case_ : Nat) : State :=
  let p := s.cp port
  let s := s.setCp port { p with state := if p.recovering then .quarantined else .down, cause := 0x80 + case_, recovering := false, resetTag := none }
  (s.fptChange (.chipletPort port) fun f => { f with status := 9, detail := 0 }).rmRecord 0x42 port case_ 0 0

/-- The reserved bits of CAPS are zero, and its line is well formed (Tables 11-4, 11-5). -/
def capsForm (m : CppMsg) : Bool :=
  m.flags == 0 && m.fe == 0 && m.lines == 1 && m.tag == 0 && m.status == 0 && m.addr == 0 && decide (m.arg1.toNat < 65536)
    && m.data.length == 64 && m.data.getD 7 0 == 0 && (m.data.drop 0x30).all (· == 0)

/-- The case of R542 that CAPS meets; 0 for none. -/
def capsCase (m : CppMsg) : Nat :=
  let a := m.arg0.toNat
  if fld a 15 0 ≠ 1 then 2
  else if 16 < (m.data.getD 6 0).toNat then 3
  else if fld a 31 16 < 8 ∨ fld a 47 32 < 16 ∨ fld a 63 48 < 8 ∨ m.arg1.toNat < 16 then 4
  else 0

/-- Foreign engines that are admitted, over all ports (R522). -/
def State.feTotal (s : State) : Nat := (s.cps.map fun c => (c.2.fes.filter fun f => f.2.state != 0).length).sum

/-- One foreign engine that CAPS reports is admitted, while the size table allows. One retired since reset stays so.
(DEDUCED: log 87) -/
def State.admitFe (s : State) (port function x status : Nat) : State :=
  let i := 16 * port + x
  let f := s.fe_ i
  if function = 0 ∨ f.state = 5 then s
  else if s.build.foreign ≤ s.feTotal then s.rmRecord 0x42 port 0xFF 0 0
  else
    let s := s.setFe i { f with state := 1, function := function }
    let s := s.fptChange (.foreign i) fun e => { e with status := status, detail := function }
    { s with units := { s.units with freeForeign := insertIdx s.units.freeForeign i } }

/-- A valid CAPS brings the port up (R541). A change of claimed identity in a recovery is recorded (R560). -/
def State.capsGood (s : State) (port : Nat) (m : CppMsg) : State :=
  let p := s.cp port
  let d := m.data
  let a := m.arg0.toNat
  let status := if p.lanes * p.rate < 128 * 32 then 2 else 1
  let n := (d.getD 6 0).toNat
  let q := { p with state := .up, toChip := ⟨fld a 31 16, fld a 47 32, fld a 63 48, m.arg1.toNat⟩, version := fld a 15 0,
                    vendor := leAt d 0 2, device := leAt d 2 2, revision := leAt d 4 2, serial := leAt d 8 8, recovering := false }
  let changed := (p.vendor, p.device, p.revision, p.serial) ≠ (q.vendor, q.device, q.revision, q.serial)
  let s := s.setCp port q
  let s := if p.recovering ∧ changed then s.rmRecord 0x41 port 0 (q.vendor * 65536 + q.device) q.revision else s
  let s := (List.range n).foldl (fun s x => s.admitFe port (leAt d (0x10 + 2 * x) 2) x status) s
  let here := ((s.cp port).fes.filter fun f => f.2.state = 1).length
  (s.setCp port { s.cp port with feCount := here }).fptChange (.chipletPort port) fun f => { f with status := status, detail := p.lanes * 256 + p.rate }

/-- CPP_CAPS. (DEDUCED: log 87) -/
def execCppCaps (port : Nat) (m : CppMsg) (s : State) : Host.Outcome State Fault Refusal :=
  .next (s.work <|
    if (s.cp port).state ≠ .handshake then s
    else if !capsForm m then s.quarantine port 1
    else if capsCase m ≠ 0 then s.capsRefused port (capsCase m)
    else s.capsGood port m)

/-- CAPS_TIMEOUT. -/
def execCapsTimeout (port : Nat) (s : State) : Host.Outcome State Fault Refusal :=
  .next (s.work (if (s.cp port).state = .handshake then s.capsRefused port 1 else s))

/-- CP_RECOVER (R560). -/
def execCpRecover (port : Nat) (s : State) : Host.Outcome State Fault Refusal :=
  .next (s.work <|
    let p := s.cp port
    if !s.decodes .pf || !s.fwRuns || p.state != .quarantined || decide (4 ≤ p.quarCount) then s
    else s.setCp port { p with state := .training, recovering := true })

/-! ### Messages of a chiplet (R543 to R557) -/

/-- A message of a chiplet is taken against the credits that the hub has given; one beyond them quarantines the port.
Messages to a port that is not up are discarded (R537, R557, R558). -/
def State.cppIn (s : State) (port cls data : Nat) (act : State → State) : State :=
  let p := s.cp port
  if p.state ≠ .up then s
  else
    match p.fromChip.spend cls data with
    | none => s.quarantine port 5
    | some c => act (s.setCp port { p with fromChip := c })

/-- CPP_CREDIT (R537). -/
def execCppCredit (port : Nat) (m : CppMsg) (s : State) : Host.Outcome State Fault Refusal :=
  .next (s.work <| s.cppIn port 0 0 fun s =>
    let a := m.arg0.toNat
    if m ≠ { cppZero with arg0 := m.arg0 } then s.quarantine port 1
    else
      let p := s.cp port
      (s.setCp port { p with toChip := p.toChip.add (fld a 31 16) (fld a 47 32) (fld a 63 48) (fld a 15 0) }).cppPump port)

/-- A request of a foreign engine after its format has been checked: an absent engine, one without a launch, and a tag
in use quarantine the port. -/
def State.feRequest (s : State) (port : Nat) (m : CppMsg) (act : State → State) : State :=
  let f := s.fe_ (16 * port + m.fe.toNat)
  if 16 ≤ m.fe.toNat ∨ f.state = 0 then s.quarantine port 2
  else if f.state ≠ 3 ∧ f.state ≠ 4 then s.quarantine port 3
  else act s

/-- A READ or WRITE arrives. While its engine is quiescing it is answered as squashed (R550). -/
def State.feLines (s : State) (port : Nat) (h : CpHeld) : State :=
  let p := s.cp port
  if p.held.any fun g => g.tag = h.tag then s.quarantine port 4
  else if (s.fe_ (16 * port + h.fe)).state = 4 then
    let s := (s.setCp port { p with held := p.held ++ [h] }).cppReturn port 1 (if h.isWrite then (h.lines + 3) / 4 else 0)
    if h.isWrite then s.writeAck port h else s.readData port h (List.replicate (64 * h.lines) 0)
  else s.feArrive port h

/-- An address of whole lines within one 4 KiB block. -/
def linesOk (addr n : Nat) : Bool := addr % 64 == 0 && decide (1 ≤ n) && decide (n ≤ 64) && decide (addr % 4096 + 64 * n ≤ 4096)

/-- CPP_READ. -/
def execCppRead (port : Nat) (m : CppMsg) (s : State) : Host.Outcome State Fault Refusal :=
  .next (s.work <| s.cppIn port 1 0 fun s =>
    let n := m.arg0.toNat
    if m ≠ { cppZero with fe := m.fe, tag := m.tag, addr := m.addr, arg0 := m.arg0 } ∨ !linesOk m.addr.toNat n then s.quarantine port 1
    else s.feRequest port m fun s =>
      s.feLines port { fe := m.fe.toNat, tag := m.tag, isWrite := false, va := m.addr.toNat, lines := n, data := [] })

/-- CPP_WRITE. -/
def execCppWrite (port : Nat) (m : CppMsg) (s : State) : Host.Outcome State Fault Refusal :=
  .next (s.work <| s.cppIn port 1 (cppFlits m) fun s =>
    let n := m.lines.toNat
    if m ≠ { cppZero with fe := m.fe, tag := m.tag, addr := m.addr, lines := m.lines, data := m.data } ∨ !linesOk m.addr.toNat n
        ∨ m.data.length ≠ 64 * n then s.quarantine port 1
    else s.feRequest port m fun s =>
      s.feLines port { fe := m.fe.toNat, tag := m.tag, isWrite := true, va := m.addr.toNat, lines := n, data := m.data })

/-- CPP_SIGNAL (R547). One of a quiescing engine is dropped. -/
def execCppSignal (port : Nat) (m : CppMsg) (s : State) : Host.Outcome State Fault Refusal :=
  .next (s.work <| s.cppIn port 1 0 fun s =>
    let i := 16 * port + m.fe.toNat
    if m ≠ { cppZero with fe := m.fe, arg0 := m.arg0 } ∨ 2 ^ 32 ≤ m.arg0.toNat then s.quarantine port 1
    else s.feRequest port m fun s =>
      let s := s.cppReturn port 1 0
      let f := s.fe_ i
      if f.state = 4 then s else (s.setFe i { f with signals := f.signals ++ [BitVec.ofNat 32 m.arg0.toNat] }).feFlush i)

/-- Every foreign engine of the port is retired: cause 12. -/
def State.retireAll (s : State) (port : Nat) : State :=
  let present := (s.cp port).fes.filter fun f => f.2.state != 0
  if present.all (fun f => f.2.state = 5) then s.quarantine port 12 else s

/-- The end of a foreign launch by COMPLETE: ended, fault, or engine failure (R548). (DEDUCED: log 88) -/
def State.feComplete (s : State) (i status : Nat) : State :=
  let next := if (s.fe_ i).state = 4 then 4 else 1
  if status = 0 then s.feEnd i next
  else if status = 1 then (s.feFault i 3 15 0).feEnd i next
  else (((s.feDiscard i 5).retireUnit (.foreign i) (0x602 + 16 * (i / 16)) 7)).retireAll (i / 16)

/-- CPP_COMPLETE (R548, R554, R556). (DEDUCED: log 88) -/
def execCppComplete (port : Nat) (m : CppMsg) (s : State) : Host.Outcome State Fault Refusal :=
  .next (s.work <| s.cppIn port 1 0 fun s =>
    let i := 16 * port + m.fe.toNat
    if m ≠ { cppZero with fe := m.fe, tag := m.tag, status := m.status } ∨ 2 < m.status.toNat then s.quarantine port 1
    else s.feRequest port m fun s =>
      let s := s.cppReturn port 1 0
      let f := s.fe_ i
      if f.cmd.isNone && f.step.isNone then s.quarantine port 3
      else if f.tag ≠ m.tag then s.quarantine port 4
      else if (s.cp port).held.any fun h => h.fe = m.fe.toNat then s.quarantine port 10
      else s.feComplete i m.status.toNat)

/-- CPP_INVAL_ACK: the proxy may acknowledge the withdrawal (R549). -/
def execCppInvalAck (port : Nat) (m : CppMsg) (s : State) : Host.Outcome State Fault Refusal :=
  .next (s.work <| s.cppIn port 2 0 fun s =>
    if m ≠ { cppZero with tag := m.tag } then s.quarantine port 1
    else
      let s := s.cppReturn port 2 0
      let p := s.cp port
      if p.invals.any fun i => i.1 = m.tag then s.setCp port { p with invals := p.invals.filter fun i => i.1 ≠ m.tag }
      else s.quarantine port 4)

/-- CPP_QUIESCE_ACK: the engine has stopped; a launch it still had is discarded (R530, R550). -/
def execCppQuiesceAck (port : Nat) (m : CppMsg) (s : State) : Host.Outcome State Fault Refusal :=
  .next (s.work <| s.cppIn port 2 0 fun s =>
    let i := 16 * port + m.fe.toNat
    if m ≠ { cppZero with flags := 1, fe := m.fe, tag := m.tag } then s.quarantine port 1
    else if 16 ≤ m.fe.toNat ∨ (s.fe_ i).state = 0 then s.quarantine port 2
    else if (s.fe_ i).quiesceTag ≠ some m.tag then s.quarantine port 4
    else
      let s := (s.cppReturn port 2 0).feSquash i
      let s := s.setFe i { s.fe_ i with quiesceTag := none }
      s.feDiscard i (if (s.fe_ i).state = 5 then 5 else 1))

/-- CPP_RESET_ACK: the chiplet's engines are idle (R551). -/
def execCppResetAck (port : Nat) (m : CppMsg) (s : State) : Host.Outcome State Fault Refusal :=
  .next (s.work <|
    let p := s.cp port
    if p.state ≠ .up ∧ p.state ≠ .handshake then s
    else if m ≠ { cppZero with flags := 1, tag := m.tag } then s.quarantine port 1
    else if p.resetTag ≠ some m.tag then s.quarantine port 4
    else
      let s := s.setCp port { p with resetTag := none }
      (p.fes.filter fun f => f.2.state = 3 || f.2.state = 4).foldl (fun s f =>
        let i := 16 * port + f.1
        let s := s.feSquash i
        (s.setFe i { s.fe_ i with quiesceTag := none }).feDiscard i 1) s)

/-- CPP_UNDEFINED_MESSAGE. -/
def execCppUndefinedMessage (port : Nat) (s : State) : Host.Outcome State Fault Refusal :=
  .next (s.work (if (s.cp port).state = .up ∨ (s.cp port).state = .handshake then s.quarantine port 1 else s))

/-- READ_DATA_SEND: a READ_DATA that waited for credits leaves (R539). -/
def execReadDataSend (port : Nat) (tag : BitVec 16) (s : State) : Host.Outcome State Fault Refusal :=
  .next (s.work <|
    let p := s.cp port
    match p.held.find? fun h => h.tag = tag && h.ready with
    | some h => if p.state = .up then s.readData port h h.data else s
    | none => s)

/-! ### Bounds (R550, R551, R557) -/

/-- QUIESCE_TIMEOUT. (DESIGN CHOICE: log 7) -/
def execQuiesceTimeout (port fe : Nat) (s : State) : Host.Outcome State Fault Refusal :=
  .next (s.work (if (s.fe_ (16 * port + fe % 16)).quiesceTag.isSome then s.quarantine port 8 else s))

/-- RESET_TIMEOUT. -/
def execResetTimeout (port : Nat) (s : State) : Host.Outcome State Fault Refusal :=
  .next (s.work (if (s.cp port).resetTag.isSome then s.quarantine port 9 else s))

/-- CREDIT_STALL_TIMEOUT. -/
def execCreditStallTimeout (port : Nat) (s : State) : Host.Outcome State Fault Refusal :=
  .next (s.work <|
    let p := s.cp port
    if p.state = .up ∧ (p.txq ≠ [] ∨ p.held.any fun h => h.ready) then s.quarantine port 6 else s)

/-- CHIPLET_LINK_DOWN (R521). -/
def execChipletLinkDown (port : Nat) (s : State) : Host.Outcome State Fault Refusal := .next (s.work (s.quarantine port 11))

end Sys2Proof.Machine
end

