-- ==== Sys2Proof/Machine/Fabric.lean ====
section
/-! DEFINITION. The commands of the fabric ports (chapter 12): link training, the link layer, the delivery of messages,
remote signals, partials, the manifest exchange and routes. -/

namespace Sys2Proof.Machine

/-! ### Ports -/

/-- The port exists in this size table. -/
def State.hasPort (s : State) (p : Nat) : Bool := decide (p < s.build.fabricPorts)

/-- A port that the wiring rule leaves unconnected (Table 12-7). -/
def State.sparePort (s : State) (p : Nat) : Bool :=
  s.build.fabricPorts == 20 && (p == 19 || (s.fab.idValid && (wiredPeer 20 s.fab.hubId p).isNone))

/-- A port that may train: not held down by DISABLE, not spare, and not disabled or retired. -/
def State.mayTrain (s : State) (p : Nat) : Bool :=
  let st := s.fptStatus (.fabricPort p)
  s.hasPort p && !(s.fp p).disable && !s.sparePort p && !(4 ≤ st && st ≤ 8)

/-- Lanes of a mask, in rising order. -/
def laneList (v : BitVec 8) : List Nat := maskBits 8 v.toNat

/-- Sage sources of a port: its link layer and its transport layer (Table 15-7). -/
def linkSrc (p : Nat) : Nat := 0x400 + 16 * p + 8
def transportSrc (p : Nat) : Nat := 0x400 + 16 * p + 9

/-- A link that carries or will carry traffic: ACTIVE, or in RETRAIN. -/
def FpPort.linked (x : FpPort) : Bool := x.state == .active || x.retraining

/-! ### Routes (R597, R598) -/

/-- The working combination of ORDER and COPY toward a member: its first port is linked and its peer admitted.
(DESIGN CHOICE: log 82) -/
def State.routeFor (s : State) (hub : Nat) : Option Nat :=
  [0, 1, 2, 3].find? fun e =>
    match s.nextHop { s.ofp 0 hub 0 with order := bit e 1, copy := bit e 0 } with
    | none => false
    | some (p, _) => (s.fp p).linked && (s.fp p).admitted

/-- Messages that wait for a route go out as far as the routes allow. -/
def State.unpark (s : State) : State :=
  let waiting := s.fab.parked
  let s := waiting.foldl State.inject { s with fab := { s.fab with parked := [] } }
  ((s.fab.out.filter (·.held)).map (·.dst)).eraseDups.foldl State.e2eRelease s

/-- Firmware writes FAB_ROUTE anew for every member (R597). (DESIGN CHOICE: log 82) -/
def State.reroute (s : State) : State :=
  if !s.fwRuns then s
  else
    let route := tmap s.fab.route fun h v =>
      if v / 4 = 0 then v
      else
        match s.routeFor h with
        | some e => 4 + e
        | none => 8 + v % 4
    ({ s with fab := { s.fab with route := route } }).unpark

/-- A hub becomes a member. (DESIGN CHOICE: log 82) -/
def State.join (s : State) (hub : Nat) : State :=
  if hub = s.myHub ∨ s.routeState hub ≠ 0 then s
  else ({ s with fab := { s.fab with route := tput s.fab.route hub 8 } }).reroute

/-! ### Changes of a link (R570) -/

/-- The FPT entry of a port follows it; when its status or width changes, the statement of every partition with a share
on the port changes (R570). (DEDUCED: log 83) -/
def State.fptPort (s : State) (p : Nat) : State :=
  let x := s.fp p
  let seen (s : State) : List (Nat × Nat) :=
    (s.boot.fpt.filter fun f => f.type = 5 && f.index = p).map fun f => (f.status, fld f.detail 23 20)
  let detail := x.cause % 256 * 2 ^ 24 + x.width % 16 * 2 ^ 20 + x.peerHub % 65536
  let t := s.fptChange (.fabricPort p) fun f =>
    if 4 ≤ f.status ∧ f.status ≤ 8 then f
    else { f with detail := detail,
                  status := if x.state = .active then (if x.width = 8 then 1 else 2)
                            else if x.state = .down ∧ x.cause ≠ 0 then 9 else f.status }
  if seen s = seen t then t
  else
    (t.units.parts.filter fun e => e.2.state != 0 && tget 0 e.2.shares p != 0).foldl (fun s e =>
      s.partChanged e.1 (if x.state = .active ∧ x.width = 8 then e.2.reason else 2)) t

/-- A port that a running schedule's part uses enters RETRAIN or DOWN: a rollback trigger (R648). -/
def State.portTriggers (s : State) (p : Nat) : State :=
  s.units.parts.foldl (fun s e =>
    let m := s.myPart e.1
    if s.scheduleRuns e.1 && (m.units.any (fun u => u.type == 4 && u.index == p) || m.xfers.any fun x => x.route % 32 == p)
    then s.schedTrigger e.1 else s) s

/-- A port leaves ACTIVE: a failure, reported and recorded (R570). (DEDUCED: log 83) -/
def State.leftActive (s : State) (p code : Nat) (cause : Nat) : State :=
  let s := if cause = 14 then s else { s with out := s.out ++ [Out.linkNote p code] }
  (s.sageFail (linkSrc p) 6).portTriggers p

/-- An ACTIVE port enters RETRAIN (R568). (DEDUCED: log 83) -/
def State.portRetrain (s : State) (p cause : Nat) : State :=
  let x := s.fp p
  if x.state ≠ .active then s
  else
    ((s.setFp p { x with state := .equalise, retraining := true, cause := cause, retrains := min (x.retrains + 1) 255,
                         locked := 0 }).leftActive p 1 cause).fptPort p

/-- A port enters DOWN with a cause. What it had sent and not been acknowledged is lost, and scheduled messages that
wait for it are discarded (R580, R595). (DEDUCED: log 81) -/
def State.portDown (s : State) (p cause : Nat) : State :=
  let x := s.fp p
  if x.state = .down then s
  else
    let waiting := x.txQueue.filter (·.sourceRouted)
    let y : FpPort := { x with
      state := .down, cause := cause, retraining := false, laneMask := 0, locked := 0, width := 0, admitted := false, refused := false,
      buffer := [], txQueue := x.txQueue.filter (fun m => !m.sourceRouted && msgVc m != 3),
      discarded := bump x.discarded waiting.length }
    let s := s.setFp p y
    let s := (x.buffer.flatMap (·.msgs) ++ waiting).foldl State.schedLost s
    let s := if x.state = .active then s.leftActive p 2 cause else if x.retraining then s.portTriggers p else s
    (s.fptPort p).reroute

/-! ### Link training (Table 12-2) -/

/-- FP_CTRL.TRAIN: ignored but in DOWN with DISABLE clear; a spare port never trains. -/
def State.trainPort (s : State) (p : Nat) : State :=
  if s.mayTrain p && (s.fp p).state == .down then s.setFp p { s.fp p with state := .detect, retraining := false } else s

def execFpTrain (port : Nat) (s : State) : Host.Outcome State Fault Refusal :=
  .next (if s.decodes .pf then s.trainPort port else s)

/-- FP_CTRL.DISABLE takes the port to DOWN and holds it there. -/
def execFpDisable (port : Nat) (v : BitVec 64) (s : State) : Host.Outcome State Fault Refusal :=
  .next (if s.decodes .pf && s.hasPort port then
      let d := bit v.toNat 1
      let t := s.setFp port { s.fp port with disable := d }
      if d then t.portDown port 13 else t
    else s)

/-- An event of a port's training in one state. (DEDUCED: log 6) -/
def State.inState (s : State) (p : Nat) (st : FpState) (act : FpPort → State) : State :=
  if s.hasPort p && (s.fp p).state == st then act (s.fp p) else s

/-- Lanes of a mask that the fuse map does not hold out of training (Table 19-2). -/
def State.goodLanes (s : State) (p : Nat) (lanes : BitVec 8) : BitVec 8 :=
  lanes &&& ~~~(BitVec.ofNat 8 (tget 0 s.lc.otp (0x106 + p / 4) >>> (8 * (p % 4))))

def execLaneDetect (port : Nat) (lanes : BitVec 8) (s : State) : Host.Outcome State Fault Refusal :=
  .next (s.work (s.inState port .detect fun x =>
    if 4 ≤ (laneList (s.goodLanes port lanes)).length then s.setFp port { x with state := .equalise } else s))

def execDetectTimeout (port : Nat) (s : State) : Host.Outcome State Fault Refusal :=
  .next (s.work (s.inState port .detect fun _ => s.portDown port 1))

def execEqualiseStable (port : Nat) (lanes : BitVec 8) (s : State) : Host.Outcome State Fault Refusal :=
  .next (s.work (s.inState port .equalise fun x =>
    let good := s.goodLanes port lanes
    if 4 ≤ (laneList good).length then s.setFp port { x with state := .align, locked := good.toNat } else s))

def execEqualiseTimeout (port : Nat) (s : State) : Host.Outcome State Fault Refusal :=
  .next (s.work (s.inState port .equalise fun _ => s.portDown port 2))

/-- The width that common lanes allow (R567). -/
def widthOf (n : Nat) : Nat := if n = 8 then 8 else if 6 ≤ n then 6 else if 4 ≤ n then 4 else 0

/-- ALIGN ends: the common lanes decide the width, which a RETRAIN never raises (R567, R568). -/
def execAlignComplete (port : Nat) (lanes : BitVec 8) (s : State) : Host.Outcome State Fault Refusal :=
  .next (s.work (s.inState port .align fun x =>
    let common := laneList (BitVec.ofNat 8 x.locked &&& lanes)
    let w := widthOf common.length
    let w := if x.retraining then min w x.width else w
    if common.length < 4 then s.portDown port 3
    else s.setFp port { x with state := .ident, width := w, laneMask := bitsMask (common.take w) }))

def execAlignFail (port : Nat) (s : State) : Host.Outcome State Fault Refusal :=
  .next (s.work (s.inState port .align fun _ => s.portDown port 3))

/-- A field of every slice statement has changed (R325). -/
def State.statementsChange (s : State) : State :=
  (s.units.parts.filter fun e => e.2.state != 0).foldl (fun s e => s.partChanged e.1 e.2.reason) s

/-- The hub takes an ID (R571). The slice statements name it (Table 6-16), and a hub in LOCAL is its own root. -/
def State.takeId (s : State) (id : Nat) : State :=
  if s.fab.idValid ∧ s.fab.hubId = id then s
  else
    ({ s with fab := { s.fab with idValid := true, hubId := id },
              thyme := if s.thyme.state = 0 then { s.thyme with root := id } else s.thyme }).statementsChange

/-- The checks of IDENT, by the code of the cause they end with, 0 when all pass (R569, Table 12-3). (DEDUCED: log 83) -/
def State.identCause (s : State) (p : Nat) (x : FpPort) (hub : Nat) (peer : PeerIdent) : Nat :=
  if peer.major ≠ blockRelease / 256 then 8
  else if peer.sizeClass ≠ s.build.sizeClass then 7
  else if s.build.fabricPorts = 8 ∧ (hubX hub ≠ 0 ∨ hubY hub ≠ 0) then 6
  else if wiredPeer s.build.fabricPorts s.fab.hubId p ≠ some (hub, peer.port) then 5
  else if x.retraining ∧ (x.peerHub ≠ hub ∨ x.peerPort ≠ peer.port) then 5
  else 0

/-- IDENT: a hub without an ID takes the one its peer implies; a peer without one is waited for (R569, R571). -/
def execIdentExchange (port : Nat) (peer : PeerIdent) (s : State) : Host.Outcome State Fault Refusal :=
  .next (s.work (s.inState port .ident fun x =>
    match peer.hub with
    | none => s
    | some h =>
      let hub := h.toNat
      let s := if s.fab.idValid then s
        else
          match wiredSelf s.build.fabricPorts hub peer.port port with
          | some id => if peer.major = blockRelease / 256 ∧ peer.sizeClass = s.build.sizeClass then s.takeId id else s
          | none => s
      let c := s.identCause port x hub peer
      if c ≠ 0 then s.portDown port c
      else s.setFp port { s.fp port with state := .calibrate, peerHub := hub, peerPort := peer.port,
                                         peerRelease := peer.major % 256 * 256 + peer.minor % 256 }))

/-- (DEDUCED: log 83) -/
def execIdentTimeout (port : Nat) (s : State) : Host.Outcome State Fault Refusal :=
  .next (s.work (s.inState port .ident fun _ => s.portDown port 4))

/-- HOP_NS from the 64 round trips and their turnarounds (R600). -/
def hopOf (trips : List (Nat × Nat)) : Nat :=
  match minBy (fun t => t.1 - t.2) trips with
  | none => 0
  | some t => (t.1 - t.2 + 1) / 2 + 8

/-- This hub's manifest record goes to the peer of a port (R654). -/
def State.sendManifest (s : State) (p : Nat) : State :=
  s.portSend p (msgData (s.ofp 8 (s.fp p).peerHub 0) (s.manifest [] 0 0))

/-- Every buffered flit is sent again; with one sent for the eighth time, the port enters RETRAIN (R578, R579). -/
def State.resend (s : State) (p kind : Nat) : State :=
  let x := s.fp p
  if x.buffer = [] then s
  else
    let buf := x.buffer.map fun f => { f with sent := f.sent + 1 }
    let s := (s.setFp p { x with buffer := buf, replays := bump x.replays buf.length }).sageFail (linkSrc p) kind
    if buf.any fun f => 8 ≤ f.sent then s.portRetrain p 11 else s

/-- CALIBRATE ends: HOP_NS is set and the port is ACTIVE; a first training starts with all credits and fresh sequence
numbers, a RETRAIN resends what was not acknowledged (R580, R600). (DEDUCED: log 81) -/
def State.calibrated (s : State) (p : Nat) (x : FpPort) (hop : Nat) : State :=
  let y := { x with state := .active, hopNs := hop, retraining := false }
  let y := if x.retraining then
      { y with buffer := x.buffer.map (fun f => { f with sent := 1 }), replays := bump x.replays x.buffer.length, nakSent := false }
    else { y with txSeq := 0, rxSeq := 0, nakSent := false, buffer := [],
                  credits := freshCredits s.build.fabricPorts p }
  let s := (s.setFp p y.pump).fptPort p
  let s := if s.fwRuns then s.sendManifest p else s
  s.reroute

/-- (DEDUCED: log 83) -/
def execCalibrateComplete (port : Nat) (trips : List (Nat × Nat)) (s : State) : Host.Outcome State Fault Refusal :=
  .next (s.work (s.inState port .calibrate fun x =>
    if trips.length ≠ 64 then s
    else if 1000 < hopOf trips then s.portDown port 9
    else s.calibrated port x (hopOf trips)))

/-- (DESIGN CHOICE: log 7) -/
def execTrainTimeout (port : Nat) (s : State) : Host.Outcome State Fault Refusal :=
  .next (s.work (if s.hasPort port && (s.fp port).state != .active then s.portDown port 10 else s))

def execLaneLockLoss (port lane : Nat) (s : State) : Host.Outcome State Fault Refusal :=
  .next (s.work (if s.hasPort port && bit (s.fp port).laneMask lane then s.portRetrain port 2 else s))

/-- More than 16 uncorrectable codewords in 1 ms: how many more than 16 is not given. (DESIGN CHOICE: log 12) -/
def execFecErrorRate (port : Nat) (s : State) : Host.Outcome State Fault Refusal :=
  .next (s.work (s.inState port .active fun x =>
    let r := s.free
    (r.2.setFp port { x with fecUncorrectable := bump x.fecUncorrectable (max 17 r.1.toNat) }).portRetrain port 12))

/-! ### Flits (R575 to R584) -/

/-- Flits acknowledged up to a SEQ leave the replay buffer. -/
def FpPort.acked (x : FpPort) (seq : Nat) : FpPort :=
  { x with buffer := x.buffer.filter fun f => 2048 ≤ (seq + 4096 - f.seq) % 4096 }

/-- The link fields of a flit act: acknowledgement, credits, and NAK. (DEDUCED: log 81) -/
def State.flitLink (s : State) (p : Nat) (f : Flit) : State :=
  let x := s.fp p
  let x := if f.ackValid then x.acked f.ackSeq.toNat else x
  let credit (x : FpPort) (vc : BitVec 2) (ph : BitVec 3) (n : BitVec 10) : FpPort :=
    if n = 0 then x else { x with credits := tmod ⟨0, []⟩ x.credits vc.toNat fun c => c.back ph.toNat n.toNat }
  let x := credit (credit x f.credVc f.credPhase f.credLines) f.cred2Vc f.cred2Phase f.cred2Lines
  let s := s.setFp p x.pump
  if f.nak then s.resend p 4 else s

/-- A message that a port may carry now (R654, R847). -/
def State.carries (s : State) (p : Nat) (m : OfpMsg) : Bool :=
  msgVc m == 3 || (!(s.fp p).refused && (s.fwRuns || m.type == 6 || m.type == 7))

/-- A discarded message is counted; a scheduled one is lost. -/
def State.discardMsg (s : State) (p : Nat) (m : OfpMsg) : State :=
  (s.setFp p { s.fp p with discarded := bump (s.fp p).discarded 1 }).schedLost m

/-- A message that breaks R588: discarded, counted, and reported. -/
def State.badMsg (s : State) (p : Nat) : State :=
  (s.setFp p { s.fp p with discarded := bump (s.fp p).discarded 1 }).sageFail (transportSrc p) 7

/-- A message arrives through a port: it is kept for this hub, or goes on (R595, R597). -/
def State.msgArrives (s : State) (p : Nat) (m : OfpMsg) : State :=
  let mine := { s with fab := { s.fab with inbox := s.fab.inbox ++ [(p, m)] } }
  if m.type = 0 ∨ 0x0B < m.type.toNat ∨ 64 < m.lines.toNat then s.badMsg p
  else if !s.carries p m then s.discardMsg p m
  else if msgVc m = 3 then mine
  else if m.sourceRouted then
    if m.hop.toNat < m.routeLen.toNat then s.sourceRoute m
    else if m.dstHub.toNat = s.myHub then mine else s.discardMsg p m
  else
    match s.nextHop m with
    | none => mine
    | some (q, ph) => s.portSend q { m with phase := BitVec.ofNat 3 ph }

/-- FLIT_RECEIVE (R575, R576), once corrected symbols are counted: the link fields of an idle flit with good CRC, and of an accepted flit, act.
(DEDUCED: log 81) -/
def State.flit (s : State) (p : Nat) (x : FpPort) (f : Flit) : State :=
  if f.lines = 0 then (if f.crcGood then s.flitLink p f else s)
  else if !f.crcGood then s.setFp p { x with crcErrors := bump x.crcErrors 1, nakSent := true }
  else if f.seq.toNat ≠ x.rxSeq then s.setFp p { x with nakSent := true }
  else
    let s := s.setFp p { x with rxSeq := (x.rxSeq + 1) % 4096, nakSent := false, rxFlits := bump x.rxFlits 1 }
    f.msgs.foldl (fun s m => s.msgArrives p m) (s.flitLink p f)

def execFlitReceive (port : Nat) (f : Flit) (s : State) : Host.Outcome State Fault Refusal :=
  .next (s.work (s.inState port .active fun x =>
    if f.corrected = 0 then s.flit port x f
    else
      let x := { x with fecCorrected := bump x.fecCorrected f.corrected }
      (s.setFp port x).flit port x f))

/-- No acknowledgement for 2 µs (R578). -/
def execReplayTimeout (port : Nat) (s : State) : Host.Outcome State Fault Refusal :=
  .next (s.work (s.inState port .active fun _ => s.resend port 5))

/-- A message that breaks R588. -/
def execOfpUndefinedMessage (port : Nat) (s : State) : Host.Outcome State Fault Refusal :=
  .next (s.work (if s.hasPort port then s.badMsg port else s))

/-! ### End-to-end messages (R590, R591) -/

/-- A received end-to-end message: a duplicate gets the recorded answer, a new one is acted on and answered. -/
def State.e2eReceive (s : State) (m : OfpMsg) (act : State → State) : State :=
  match s.e2eSeen m with
  | some r => s.inject r
  | none => act s

/-- SIGNAL (R335, R336). -/
def execFabricSignal (port : Nat) (m : OfpMsg) (s : State) : Host.Outcome State Fault Refusal :=
  .next (s.work (s.receive port m 1 fun s => s.e2eReceive m fun s =>
    let r := m.f10.toNat
    if s.refAccepted r then (s.sendSignal (BitVec.ofNat 32 r) 0).e2eAnswer m 2 1
    else (s.refuseRemote m.ownerTag r).e2eAnswer m 2 2))

/-- SIGNAL_ACK (R336, R423). -/
def execFabricSignalAck (port : Nat) (m : OfpMsg) (s : State) : Host.Outcome State Fault Refusal :=
  .next (s.work (s.receive port m 2 fun s =>
    let src := m.srcHub.toNat
    let seq := m.e2eSeq.toNat
    let code := fld m.f10.toNat 1 0
    match s.fab.find src seq with
    | none => s
    | some o =>
      if o.msg.type ≠ 1 ∨ code = 0 ∨ code = 3 then s
      else
        let s := s.e2eDone src seq
        match o.cmd with
        | none => s
        | some id => (if code = 1 then s else s.cmdFault id 2 15 (o.msg.f10.toNat % 2 ^ 32)).finishCmd id))

/-- PARTIAL: a scheduled one has no answer (R608, R610). -/
def execPartialMsg (port : Nat) (m : OfpMsg) (s : State) : Host.Outcome State Fault Refusal :=
  .next (s.work (s.receive port m 3 fun s =>
    if m.sourceRouted then (s.partialArrive m).1
    else s.e2eReceive m fun s =>
      let r := s.partialArrive m
      r.1.e2eAnswer m 4 r.2))

/-- A fault of a CRED whose partial has been refused or abandoned (R606, R609). (DESIGN CHOICE: log 84) -/
def State.credFault (s : State) (o : E2eOut) (code : Nat) : State :=
  let src := match o.launch.bind (tfind s.launches) with
    | some l => match l.place with
      | .slot e _ => engSrc e 6
      | _ => 0x280
    | none => 0x280
  let c := tagCtx o.msg.ownerTag
  if s.tag c = o.msg.ownerTag then s.fault c code { source := src, launch := o.launch } else s

/-- PARTIAL_ACK (R606, R608). -/
def execPartialAck (port : Nat) (m : OfpMsg) (s : State) : Host.Outcome State Fault Refusal :=
  .next (s.work (s.receive port m 4 fun s =>
    let src := m.srcHub.toNat
    let seq := m.e2eSeq.toNat
    let code := fld m.f10.toNat 1 0
    match s.fab.find src seq with
    | none => s
    | some o =>
      if o.msg.type ≠ 3 ∨ o.answered then s
      else if code = 1 then
        let s := s.e2eDone src seq
        match o.rest with
        | [] => s
        | n :: rest => s.e2eSend { o with msg := n, rest := rest, retrySince := none }
      else if code = 2 then (s.e2eDone src seq).credFault o 2
      else if code = 3 then
        ({ s with fab := { s.fab with out := s.fab.out.map fun (u : E2eOut) =>
            if u.dst = src ∧ u.seq = seq then { u with answered := true, retrySince := u.retrySince.or (some s.now) } else u } }).e2eRelease src
      else s))

/-- A partial answered "retry" is sent again from its first message with a new E2E_SEQ (R608). -/
def execPartialRetryResend (dst : Nat) (seq : BitVec 16) (s : State) : Host.Outcome State Fault Refusal :=
  .next (s.work (match s.fab.find dst seq.toNat with
    | none => s
    | some o =>
      if !o.answered then s
      else
        ({ s with fab := { s.fab with out := s.fab.out.filter fun u => !(u.dst = dst && u.seq = seq.toNat) } }).e2eSend
          { o with answered := false, held := false }))

/-- A partial answered "retry" for 10 ms is abandoned (R609). -/
def execPartialAbandon (dst : Nat) (seq : BitVec 16) (s : State) : Host.Outcome State Fault Refusal :=
  .next (s.work (match s.fab.find dst seq.toNat with
    | none => s
    | some o => if o.retrySince.isNone then s else (s.e2eDone dst seq.toNat).credFault o 3))

/-- No response for 100 µs: the message is sent again, and not charged again (R590). -/
def execE2eResendTimeout (dst : Nat) (seq : BitVec 16) (s : State) : Host.Outcome State Fault Refusal :=
  .next (s.work (match s.fab.find dst seq.toNat with
    | none => s
    | some o => if o.held || o.answered then s else { s.inject o.msg with ctxs := s.ctxs }))

/-! ### Between neighbours, and between Wardens -/

/-- A peer's manifest record is compared with this hub's (R654). (DESIGN CHOICE: log 82) -/
def State.manifestIn (s : State) (p : Nat) (m : OfpMsg) : State :=
  let x := s.fp p
  if m.data.take 0x34 = (s.manifest [] 0 0).take 0x34 then
    ((s.setFp p { x with admitted := true, refused := false }).join x.peerHub).reroute
  else
    (((s.setFp p { x with admitted := false, refused := true }).sageFail (transportSrc p) 7).rmRecord 0x50 p x.peerHub 0 0).reroute

/-- MANIFEST. Before this hub's own firmware runs there is nothing to compare with, and the message waits (R847).
(DESIGN CHOICE: log 82) -/
def execManifest (port : Nat) (m : OfpMsg) (s : State) : Host.Outcome State Fault Refusal :=
  .next (s.work (s.inState port .active fun _ =>
    if m.type ≠ 8 then s
    else if !s.fwRuns then { (s.takeInbox port m) with fab := { (s.takeInbox port m).fab with inbox := (s.takeInbox port m).fab.inbox ++ [(port, m)] } }
    else (s.takeInbox port m).manifestIn port m))

/-- LINK_NOTE: the peer enters RETRAIN or DOWN (R568, Table 12-3 code 14). -/
def execLinkNote (port : Nat) (m : OfpMsg) (s : State) : Host.Outcome State Fault Refusal :=
  .next (s.work (if !s.hasPort port || m.type ≠ 0x0B then s
    else
      let s := s.takeInbox port m
      let code := fld m.f10.toNat 7 0
      if code = 1 then s.portRetrain port 14
      else if code = 2 ∧ (s.fp port).linked then s.portDown port 14 else s))

/-- WMSG: its content is the firmware release's own; a hub that sends one is a member (R597). (DESIGN CHOICE: log 82) -/
def execWmsg (port : Nat) (m : OfpMsg) (s : State) : Host.Outcome State Fault Refusal :=
  .next (s.work (s.receive port m 0x0A fun s => if s.fwRuns then s.join m.srcHub.toNat else s))

/-- FAB_ID.HUB_ID is written only while every port is DOWN, with a value of R587. -/
def execFabIdWrite (v : BitVec 64) (s : State) : Host.Outcome State Fault Refusal :=
  .next (if s.decodes .pf && decide (0 < s.build.fabricPorts) && (List.range s.build.fabricPorts).all (fun p => (s.fp p).state == .down)
      && decide (fld v.toNat 15 0 < 8192) then s.takeId (fld v.toNat 15 0)
    else s)

/-- A hub stops being a member: what waits for its answers ends (R657). -/
def State.leaveFabric (s : State) (hub : Nat) (jobs : List Nat) : State :=
  let gone := s.fab.out.filter fun o => o.dst = hub
  let s := { s with fab := { s.fab with route := tput s.fab.route hub 0, out := s.fab.out.filter (fun o => o.dst ≠ hub),
                                         parked := s.fab.parked.filter fun m => m.dstHub.toNat ≠ hub } }
  gone.foldl (fun s o =>
    match o.cmd with
    | some id =>
      match tfind s.cmds id with
      | none => s
      | some m => if jobs.any (fun p => (s.sched p).ctx = m.ctx) then s.completeCmd id 0x0B else (s.cmdFault id 7 15 o.msg.f10.toNat).finishCmd id
    | none => if o.msg.type = 3 && !(jobs.any fun p => s.tag (s.sched p).ctx = o.msg.ownerTag) then s.credFault o 7 else s) s

/-- A hub of a job that this hub leads has had no route for 10 ms (R656). (DESIGN CHOICE: log 82) -/
def execNoRouteTimeout (hub : BitVec 16) (s : State) : Host.Outcome State Fault Refusal :=
  .next (s.work (
    let h := hub.toNat
    let jobs := (s.units.parts.map (·.1)).filter fun p => s.scheduleRuns p && s.leads p && (s.jobHubs p).contains h
    if s.routeState h ≠ 2 ∨ jobs = [] then s
    else (jobs.foldl (fun s p => s.expel p [h]) s).leaveFabric h jobs))

end Sys2Proof.Machine
end

