-- ==== Sys2Proof/Machine/ThymeLink.lean ====
section
/-! DEFINITION. Thyme over the fabric (R615 to R624): its messages, the choice of root and parent, the correction, and
the states of Table 13-2. -/

namespace Sys2Proof.Machine

/-- Thyme changes; the slice statements name its state and root (Table 6-16). -/
def State.setThyme (s : State) (t : Thyme) : State :=
  let old := s.thyme
  let s := { s with thyme := t }
  if old.state = t.state ∧ old.root = t.root then s else s.statementsChange

/-- A hub that takes part in a running multi-hub schedule is expelled from it (R624). -/
def State.thymeExpels (s : State) : State :=
  s.sx.foldl (fun s e => if s.scheduleRuns e.1 && (s.sched e.1).multi then s.expel e.1 [s.myHub] else s) s

/-- The hub is its own root, and keeps its count (R616, Table 13-2). -/
def Thyme.alone (t : Thyme) (id : Nat) : Thyme :=
  { t with root := id, depth := 0, parent := 31, errorNs := 0, state := 0, slew := 0, stepped := false, rootChanged := false }

/-- The hub's own ID as a root. -/
def State.ownRoot (s : State) : Nat := if s.fab.idValid then s.fab.hubId else 0

/-- The hub follows a root (R615): from LOCAL it begins to acquire. (DEDUCED: log 85) -/
def Thyme.follow (t : Thyme) (root gen depth parent : Nat) : Thyme :=
  { t with root := root, generation := gen, depth := depth, parent := parent, state := if t.state = 0 then 2 else t.state,
           stepped := if t.state = 0 then false else t.stepped, rootChanged := t.rootChanged || (t.state != 0 && t.root != root) }

/-- Half of a sum of nanoseconds, and its size rounded up (R619, R620). (DEDUCED: log 85) -/
def halfUp (x : Int) : Nat := (x.natAbs + 1) / 2

/-- The correction of R619, R620, R622 and R623 from a message of the parent: the lead is to be removed, or, in ACQUIRING
and more than 1,000 ns, stepped over once. (DEDUCED: log 85) -/
def Thyme.correct (t : Thyme) (lead2 : Int) (parentError : Nat) : Thyme :=
  let lead := lead2 / 2
  let big := decide (1000 < halfUp lead2)
  let t := { t with theta := BitVec.ofInt 32 lead }
  let t := if t.state = 1 ∧ t.rootChanged ∧ big then { t with state := 2, stepped := false }
    else if big then t else { t with rootChanged := false }
  if t.state = 2 ∧ !t.stepped ∧ 1000 < lead then
    { t with now := (t.now + lead.toNat) % 2 ^ 64, stepped := true, slew := 0, errorNs := min (parentError + 5) 65535 }
  else { t with slew := lead, errorNs := min (parentError + 5 + halfUp lead2) 65535 }

/-- What a THYME message says of the root, taken in at a port (R615, R617). (DEDUCED: log 85; DESIGN CHOICE: log 86) -/
def State.thymeRoot (s : State) (p root gen depth : Nat) : Thyme :=
  let t := s.thyme
  let own := s.fab.idValid && (root == s.fab.hubId || (t.rootEn && decide (s.fab.hubId < root)))
  if own || 4 < depth then t
  else if t.state = 0 ∨ root < t.root ∨ (root = t.root ∧ (t.parent = 31 ∨ t.parent = p)) then t.follow root gen (depth + 1) p
  else t

/-- A THYME message has arrived at a port at its Thyme t4. -/
def State.thymeIn (s : State) (p : Nat) (m : OfpMsg) (t4 : Nat) : State :=
  let x := s.fp p
  let w := m.f28.toNat
  let root := fld w 63 48
  let s := s.setFp p { x with lastSend := m.f10.toNat, lastRecv := t4 }
  let old := s.thyme.state
  let s := s.setThyme (s.thymeRoot p root (fld w 47 40) (fld w 39 37))
  if s.thyme.state = 0 ∨ s.thyme.parent ≠ p ∨ s.thyme.root ≠ root ∨ m.f20 = 0 then s
  else
    let lead2 : Int := ((m.f20.toNat : Int) - m.f18.toNat) - ((t4 : Int) - m.f10.toNat)
    let s := s.setThyme (s.thyme.correct lead2 (fld w 31 16))
    if old = 1 ∧ s.thyme.state = 2 then s.thymeExpels else s

/-- THYME (R619). -/
def execThymeMsg (port : Nat) (m : OfpMsg) (t4 : BitVec 64) (s : State) : Host.Outcome State Fault Refusal :=
  .next (s.work (s.inState port .active fun _ => if m.type ≠ 9 then s else (s.takeInbox port m).thymeIn port m t4.toNat))

/-- The THYME message of a port (Table 13-1). -/
def State.thymeMessage (s : State) (x : FpPort) : OfpMsg :=
  let t := s.thyme
  { s.ofp 9 x.peerHub 0 with
    f10 := BitVec.ofNat 64 t.now, f18 := BitVec.ofNat 64 x.lastSend, f20 := BitVec.ofNat 64 x.lastRecv,
    f28 := BitVec.ofNat 64 (t.root % 65536 * 2 ^ 48 + t.generation % 256 * 2 ^ 40 + t.depth % 8 * 2 ^ 37 + t.errorNs % 65536 * 2 ^ 16
      + t.state % 4) }

/-- Every ACTIVE port sends a THYME message (R618). -/
def execThymeSendTick (s : State) : Host.Outcome State Fault Refusal :=
  .next (s.work ((List.range s.build.fabricPorts).foldl (fun s p =>
    if (s.fp p).state = .active then s.portSend p (s.thymeMessage (s.fp p)) else s) s))

/-- No THYME with the current root for 10 ms: the lowest offering hub that is still reached becomes the root (R616).
(DESIGN CHOICE: log 86) -/
def execThymeRootTimeout (roots : List (BitVec 16)) (s : State) : Host.Outcome State Fault Refusal :=
  .next (s.work (
    let t := s.thyme
    if t.state = 0 then s
    else
      let g := (t.generation + 1) % 256
      let rs := (if t.rootEn && s.fab.idValid then [s.fab.hubId] else []) ++ roots.map (·.toNat)
      match minBy id rs with
      | none => s.setThyme { t.alone s.ownRoot with generation := g }
      | some r =>
        if s.fab.idValid ∧ r = s.fab.hubId then s.setThyme { t.alone r with generation := g }
        else s.setThyme { t with root := r, generation := g, parent := 31, rootChanged := true }))

/-- The parent port has left ACTIVE or is silent: firmware chooses a new parent, or none (R617). (DESIGN CHOICE: log 86) -/
def execThymeParentTimeout (parent depth : Nat) (s : State) : Host.Outcome State Fault Refusal :=
  .next (s.work (
    let t := s.thyme
    if t.state = 0 ∨ t.parent = 31 then s
    else
      let ok := s.hasPort parent && (s.fp parent).state == .active && decide (1 ≤ depth) && decide (depth ≤ 5)
      s.setThyme { t with parent := if ok then parent else 31, depth := if ok then depth else t.depth,
                          parentLosses := bump t.parentLosses 1 }))

/-- A follower without a parent: its error grows by 1 every 100 µs (R620). -/
def execThymeHoldoverTick (s : State) : Host.Outcome State Fault Refusal :=
  .next (s.work (if s.thyme.state ≠ 0 ∧ s.thyme.parent = 31 then s.setThyme { s.thyme with errorNs := min (s.thyme.errorNs + 1) 65535 } else s))

/-- ERROR_NS has held on one side of 40 ns for 1 ms (Table 13-2, R624). -/
def execThymeStateTimer (s : State) : Host.Outcome State Fault Refusal :=
  .next (s.work (
    let t := s.thyme
    if (t.state = 2 ∨ t.state = 3) ∧ t.errorNs ≤ 40 then s.setThyme { t with state := 1 }
    else if t.state = 1 ∧ 40 < t.errorNs then (s.setThyme { t with state := 3 }).thymeExpels
    else s))

/-- A write of TH_CTRL: the hub offers itself as root or not; offered and lower than the root it follows, it becomes
root and keeps its count (R615, R616). -/
def State.thCtrl (s : State) (en : Bool) : State :=
  let t := { s.thyme with rootEn := en }
  if en && s.fab.idValid && t.state != 0 && decide (s.fab.hubId < t.root) then s.setThyme (t.alone s.fab.hubId) else s.setThyme t

end Sys2Proof.Machine
end

