-- ==== Sys2Proof/Machine/LifeCore.lean ====
section
/-! DEFINITION. The life cycle (chapter 17): states and transitions, roots and keys, challenges and tokens, and the
commands of LC_CMD as the Warden's ROM carries them out. -/

namespace Sys2Proof.Machine

/-! ### States, transitions and roots (Tables 17-1 to 17-4) -/

/-- A transition: its states, the bits it sets, and the word at which the digest of its root stands. -/
structure LcMove where
  src : Nat
  dst : Nat
  lo : Nat
  n : Nat
  root : Nat
deriving DecidableEq, Repr

/-- First words of the root digests (Table 17-4). -/
def testRoot : Nat := 0x008
def provRoot : Nat := 0x014
def firmwareRoot : Nat := 0x020
def debugRoot : Nat := 0x02C
def rmaRoot : Nat := 0x038

/-- Table 17-2. -/
def lcMoves : List LcMove :=
  [⟨1, 2, 0, 4, testRoot⟩, ⟨2, 3, 4, 4, provRoot⟩, ⟨3, 4, 8, 4, provRoot⟩, ⟨4, 5, 12, 4, debugRoot⟩, ⟨1, 6, 16, 16, testRoot⟩,
   ⟨2, 6, 16, 16, provRoot⟩, ⟨3, 6, 16, 16, provRoot⟩, ⟨4, 6, 16, 16, debugRoot⟩, ⟨5, 6, 16, 16, debugRoot⟩]

/-- The LC word of a state up to RETURN (Table 17-1). -/
def lcWord (code : Nat) : Nat := 2 ^ (4 * (code - 1)) - 1

/-- The word after the first k bits of a transition. -/
def LcMove.word (m : LcMove) (k : Nat) : Nat := lcWord m.src + (2 ^ k - 1) * 2 ^ m.lo

/-- The transition that a LOCKED pattern is finishable by, if exactly one fits (R768). -/
def lcFinishable (w : Nat) : Option LcMove :=
  match lcMoves.filter fun m => (List.range m.n).any fun k => k != 0 && m.word k == w with
  | [m] => some m
  | _ => none

/-- The transition between two states. -/
def lcMove (src dst : Nat) : Option LcMove := lcMoves.find? fun m => m.src == src && m.dst == dst

/-- LC_ROOTS.USABLE (Table 17-3). -/
def lcRoots (st : Nat) : Nat :=
  match st with
  | 1 => 0b0001101
  | 2 => 0b0001111
  | 3 => 0b0111110
  | 4 => 0b0111100
  | 5 => 0b1101000
  | _ => 0

/-- A root digest of the OTP; one of zeros matches no key (R772). -/
def State.rootDigest (s : State) (w : Nat) : Option (List Byte) :=
  let d := s.otpBytes w 12
  if d.all (· == 0) then none else some d

/-! ### Keys (R773, R780, R783) -/

/-- SHA-384 as 48 bytes. -/
def digest48 (bs : List Byte) : List Byte := takePad 48 (Config.sha384 bs)

/-- Bytes of a label. -/
def labelBytes (cs : List Nat) : List Byte := cs.map (BitVec.ofNat 8)

/-- The order of the P-384 group. (PRESUMED: log 48) -/
def p384Order : Nat :=
  0xFFFFFFFFFFFFFFFFFFFFFFFFFFFFFFFFFFFFFFFFFFFFFFFFC7634D81F4372DDF581A0DB248B0A77AECEC196ACCC52973

/-- A big-endian number. (PRESUMED: log 48) -/
def natBE (bs : List Byte) : Nat := natLE bs.reverse

/-- The device identity private scalar, from the identity seed and the label "SV16-ID" (Table 17-6). (PRESUMED: log 48) -/
def State.deviceScalar (s : State) : Nat :=
  natBE (takePad 64 (Config.kdf (s.otpBytes 0x048 8) (labelBytes [0x53, 0x56, 0x31, 0x36, 0x2D, 0x49, 0x44]) [])) % (p384Order - 1) + 1

/-- The key in the identity-key role: the device identity key, the manufacturing key as 0, or none (Table 17-3). -/
def State.identityKey (s : State) : Option Nat :=
  match s.lcState with
  | 1 | 2 => some 0
  | 3 | 4 => some s.deviceScalar
  | _ => none

/-- A signature of 96 bytes over the SHA-384 of bytes. (PRESUMED: log 48) -/
def signBytes (key : Nat) (bs : List Byte) : List Byte := takePad 96 (Config.ecdsaSign key (digest48 bs))

/-! ### Challenges (R785, Table 17-5) -/

/-- The identity fields as a challenge and a statement carry them: LOT, WAFER, DIE_X, DIE_Y. -/
def State.dieBytes (s : State) : List Byte :=
  let w := s.otpWord 2
  bytesLE 4 (s.otpWord 1) ++ [BitVec.ofNat 8 (w / 65536), BitVec.ofNat 8 (w / 256), BitVec.ofNat 8 w]

/-- The challenge block. (PRESUMED: log 48) -/
def State.challengeBytes (s : State) (purpose part counter : Nat) : List Byte :=
  bytesLE 4 0x48435653 ++ bytesLE 1 purpose ++ bytesLE 1 s.lcState ++ bytesLE 1 (if purpose = 5 then part else 0) ++ bytesLE 1 0
    ++ bytesLE 4 counter ++ bytesLE 4 (s.otpWord 3) ++ s.dieBytes ++ [0] ++ List.replicate 8 0 ++ takePad 32 s.lc.bootNonce

/-- An LC command completes (R800). -/
def State.lcDone (s : State) (code : Nat) : State :=
  let x := s.lc
  { s with lc := { x with tag := x.curTag, code := code, busy := false, done := true, op := 0, drawWaits := false, target := 0 } }

/-- CHALLENGE. -/
def State.runChallenge (s : State) : State :=
  let x := s.lc
  if 0xFFFFFFFF ≤ x.counter then s.lcDone 5
  else
    let purpose := x.arg % 16
    let part := x.arg / 16 % 16
    let c := x.counter + 1
    let s := { s with lc := { x with counter := c, challenge := some ⟨purpose, if purpose = 5 then part else 0, s.now⟩,
                                     block := s.challengeBytes purpose part c } }
    s.lcDone 0

/-! ### Tokens (R786, Table 17-7) -/

/-- Words of a register array as bytes. -/
def wordBytes (t : Table Nat) (n : Nat) : List Byte := (List.range n).flatMap fun i => bytesLE 8 (tget 0 t i)

/-- Bytes as the words of a register array; the words beyond them stay. -/
def putWords (t : Table Nat) (bs : List Byte) : Table Nat :=
  (List.range ((bs.length + 7) / 8)).foldl (fun t i => tput t i (leAt bs (8 * i) 8)) t

structure Token where
  magic : Nat
  purpose : Nat
  target : Nat
  part : Nat
  duration : Nat
  dataLen : Nat
  reserved : Bool
  challenge : List Byte
  data : List Byte
  key : List Byte
  signed : List Byte
  sig : List Byte
deriving DecidableEq, Repr

/-- The token in LC_TOKEN. -/
def LifeCycle.tokenRead (x : LifeCycle) : Token :=
  let b := wordBytes x.token 38
  { magic := leAt b 0 4, purpose := leAt b 4 1, target := leAt b 5 1, part := leAt b 6 1, duration := leAt b 8 2,
    dataLen := leAt b 0x0A 2, reserved := leAt b 7 1 != 0 || leAt b 0x0C 4 != 0, challenge := (b.drop 0x10).take 48,
    data := (b.drop 0x40).take 48, key := (b.drop 0x70).take 96, signed := b.take 0xD0, sig := (b.drop 0xD0).take 96 }

/-- A token that breaks the layout of Table 17-7. (DEDUCED: log 47) -/
def Token.malformed (t : Token) : Bool :=
  t.magic != 0x4B545653 || t.reserved || decide (3600 < t.duration) || decide (2048 < t.dataLen)
    || (t.target != 0 && t.purpose != 1 && t.purpose != 2)

/-- The digest of the root that a purpose requires now; none when the purpose is not permitted (R787, Table 17-8). -/
def State.tokenRoot (s : State) (t : Token) : Option (Option (List Byte)) :=
  let st := s.lcState
  let of (ok : Bool) (w : Nat) : Option (Option (List Byte)) := if ok then some (s.rootDigest w) else none
  match t.purpose with
  | 1 => (lcMove st t.target).map fun m => s.rootDigest m.root
  | 2 =>
    match (if st = 15 then lcFinishable (s.lc.raw % 2 ^ 32) else none) with
    | some m => of (m.dst == t.target) m.root
    | none => none
  | 3 => of (st == 1 || st == 2) testRoot
  | 4 => of (st == 3 || st == 4) debugRoot
  | 5 => if st = 3 ∨ st = 4 then some (let k := (s.part t.part).dbgKey; if k.isEmpty then none else some k) else none
  | 6 => of (st == 5) rmaRoot
  | 7 => of (st == 3 || st == 4 || st == 5) debugRoot
  | 8 => of (st == 3) provRoot
  | _ => none

/-! ### What accepted tokens do (Table 17-8, R788 to R792) -/

/-- Is any partition sealed? -/
def State.anySealed (s : State) : Bool := s.units.parts.any fun e => e.2.state == 2

/-- Program an OTP word. -/
def State.otpPut (s : State) (i v : Nat) : State := { s with lc := { s.lc with otp := tput s.lc.otp i v } }

/-- The LC bits of a transition are programmed; the new state takes effect at the next reset (R767, R770, R792). -/
def State.lcProgram (s : State) : State :=
  let x := s.lc
  match (if x.finish then lcFinishable (x.raw % 2 ^ 32) else lcMove s.lcState x.target) with
  | none => s.lcDone 5
  | some m =>
    let s := s.otpPut 0 (x.raw % 2 ^ 32 ||| (2 ^ m.n - 1) * 2 ^ m.lo)
    let s := { s with lc := { s.lc with pending := m.dst } }
    (s.rmRecord 0x10 m.src m.dst (flag x.finish 0) 0).lcDone 0

/-- What R780 makes of one seed: kept, to be drawn, or damaged. -/
inductive Seed where
  | keep | draw | damaged
deriving DecidableEq, Repr

def State.seedAt (s : State) (w : Nat) : Seed :=
  let seed := s.otpBytes w 8
  let check := s.otpWord (w + 8)
  if seed.all (· == 0) && check == 0 then .draw
  else if leAt (digest48 seed) 0 4 = check then .keep else .damaged

/-- A drawn seed and its check word are programmed. (DESIGN CHOICE: log 14) -/
def State.drawSeed (s : State) (w : Nat) : State :=
  let seed := takePad 32 (Config.entropy s.lc.draws)
  let s := { s with lc := { s.lc with draws := s.lc.draws + 1 } }
  let s := (List.range 8).foldl (fun s i => s.otpPut (w + i) (leAt seed (4 * i) 4)) s
  s.otpPut (w + 8) (leAt (digest48 seed) 0 4)

/-- The seeds are dealt with one after the other, and then the LC bits; a draw that meets the failed source waits (R780,
R781). -/
def State.lcSeeds (s : State) : List Nat → State
  | [] => s.lcProgram
  | w :: ws =>
    match s.seedAt w with
    | .keep => s.lcSeeds ws
    | .damaged => s.lcDone 8
    | .draw => if s.lc.entropyOk then (s.drawSeed w).lcSeeds ws else { s with lc := { s.lc with drawWaits := true } }

/-- The transition that has been accepted goes on. -/
def State.lcGoOn (s : State) : State := if s.lc.target = 3 then s.lcSeeds [0x048, 0x058] else s.lcProgram

/-- TRANSITION and FINISH (R788). -/
def State.tokenMove (s : State) (t : Token) (finish : Bool) : State :=
  if s.anySealed then s.lcDone 6
  else if s.lc.pending ≠ 0 then s.lcDone 7
  else if !finish && t.target == 4 && s.certLen == 0 then s.lcDone 5
  else ({ s with lc := { s.lc with target := t.target, finish := finish } }).lcGoOn

/-- End of a grant of so many seconds. (DESIGN CHOICE: log 14) -/
def State.until_ (s : State) (seconds : Nat) : Nat := s.now + seconds * 1000000000

/-- CERT_WRITE (R789). -/
def State.certProgram (s : State) (t : Token) : State :=
  let cert := (wordBytes s.lc.data 256).take t.dataLen
  if s.certLen ≠ 0 then s.lcDone 7
  else if t.dataLen = 0 ∨ 2044 < t.dataLen then s.lcDone 1
  else if !Config.certOk cert (takePad 96 (Config.publicKey s.deviceScalar)) then s.lcDone 1
  else
    let s := (List.range ((t.dataLen + 3) / 4)).foldl (fun s i => s.otpPut (0x401 + i) (leAt cert (4 * i) 4)) s
    (s.otpPut 0x400 t.dataLen).lcDone 0

/-- An accepted token acts. (DEDUCED: log 47) -/
def State.tokenAct (s : State) (t : Token) : State :=
  let none_ := t.duration = 0
  match t.purpose with
  | 1 => s.tokenMove t false
  | 2 => s.tokenMove t true
  | 3 => (if none_ then s else { s with lc := { s.lc with test := some (s.until_ t.duration) } }).lcDone 0
  | 4 =>
    if s.anySealed then s.lcDone 6
    else if none_ then s.lcDone 0
    else (({ s with lc := { s.lc with hubDebug := some (s.until_ t.duration) } }).rmRecord 0x13 1 0 s.lc.counter 0).lcDone 0
  | 5 =>
    if none_ then s.lcDone 0
    else (({ s with lc := { s.lc with partDebug := tput s.lc.partDebug t.part (s.until_ t.duration) } }).rmRecord 0x13 2 t.part
      s.lc.counter 0).lcDone 0
  | 6 =>
    if none_ then s.lcDone 0
    else (({ s with lc := { s.lc with rma := some (s.until_ t.duration) } }).rmRecord 0x13 1 0 s.lc.counter 0).lcDone 0
  | 7 => ({ s with lc := { s.lc with recClear := some (s.until_ 60) } }).lcDone 0
  | _ => s.certProgram t

/-- SUBMIT: the challenge is consumed; the checks of R786 and R787, then the effect. (DEDUCED: log 47) -/
def State.runSubmit (s : State) : State :=
  let t := s.lc.tokenRead
  let live := s.lc.challenge
  let block := s.lc.block
  let s := { s with lc := { s.lc with challenge := none } }
  if t.malformed then s.lcDone 1
  else
    match live with
    | none => s.lcDone 2
    | some c =>
      if t.purpose ≠ c.purpose ∨ t.part ≠ c.part ∨ t.challenge ≠ digest48 block then s.lcDone 2
      else if t.data ≠ (if t.dataLen = 0 then List.replicate 48 0 else digest48 ((wordBytes s.lc.data 256).take t.dataLen)) then s.lcDone 1
      else
        match s.tokenRoot t with
        | none => s.lcDone 5
        | some root =>
          if root ≠ some (digest48 t.key) then s.lcDone 3
          else if !Config.ecdsaVerify t.key (digest48 t.signed) t.sig then s.lcDone 4
          else s.tokenAct t

/-! ### Attestation and the other commands -/

/-- FW_DIGEST of the running image; zeros while the hub is firmware-absent. -/
def State.fwDigest (s : State) : List Byte := if s.fwRuns then takePad 48 s.boot.digest else List.replicate 48 0

/-- ATTEST (R796, Table 17-10). (DEDUCED: log 49) -/
def State.runAttest (s : State) : State :=
  match s.identityKey with
  | none => s.lcDone 5
  | some key =>
    if s.lc.challenge.isNone then s.lcDone 2
    else
      let body := (wordBytes s.lc.data 4).take 32 ++ takePad 64 s.lc.block ++ s.fwDigest ++ List.replicate 16 0
      let report := body ++ signBytes key body
      ({ s with lc := { s.lc with challenge := none, data := putWords s.lc.data report } }).lcDone 0

/-- Every grant ends (R790). (DEDUCED: log 41) -/
def LifeCycle.endGrants (x : LifeCycle) : LifeCycle :=
  { x with test := none, hubDebug := none, rma := none, recClear := none, partDebug := [] }

/-- The command in progress is carried out. -/
def State.lcRun (s : State) : State :=
  match s.lc.op with
  | 1 => s.runChallenge
  | 2 => s.runSubmit
  | 3 => s.runAttest
  | 4 => ({ s with lc := s.lc.endGrants }).lcDone 0
  | _ => s.lcDone 1

end Sys2Proof.Machine
end

