-- ==== Sys2Proof/Machine/Programs.lean ====
section
/-! DEFINITION. Partition programs (chapter 6): submission and pre-scan, the instructions of the partition subset,
validation, and the hand-over. -/

namespace Sys2Proof.Machine

/-! ### The power budget (R816) -/

/-- The non-engine reservation in 0.25 W (R816, Table 1-7, R53). -/
def nonEngine (b : Build) : Nat :=
  (4 * (90 * b.hubStoreMiB + 400 * b.channels + 2304 * b.fabricPorts + 2400 * b.chipletPorts + 38400) + 639) / 640

/-- The engine power budget in 0.25 W. -/
def State.engineBudget (s : State) : Nat := s.pw.limit - nonEngine s.build

/-! ### Fields of a program word (Table 6-10) -/

def wOp (w : Nat) : Nat := fld w 63 56
def wPart (w : Nat) : Nat := fld w 55 52
def wRelease (w : Nat) : Bool := bit w 48

/-- The RSVD bits of a word are zero (R301). -/
def wReserved (w : Nat) : Bool :=
  match wOp w with
  | 0xC0 | 0xC1 | 0xCD => fld w 51 0 == 0
  | 0xC2 => fld w 51 49 == 0 && fld w 47 16 == 0
  | 0xC3 => fld w 51 49 == 0 && fld w 47 19 == 0
  | 0xC4 | 0xC5 => fld w 51 49 == 0 && fld w 47 32 == 0
  | 0xC6 => fld w 51 49 == 0 && fld w 47 6 == 0
  | 0xC7 => fld w 51 48 == 0 && fld w 39 9 == 0
  | 0xC8 => fld w 51 16 == 0
  | 0xC9 => fld w 51 24 == 0 && fld w 15 1 == 0
  | 0xCA => fld w 51 1 == 0
  | 0xCB => fld w 51 29 == 0 && fld w 15 6 == 0
  | 0xCC => fld w 55 52 == 0 && fld w 47 35 == 0
  | 0xCE | 0xCF => fld w 55 0 == 0
  | _ => false

/-- COMMIT or ABORT. -/
def wLast (w : Nat) : Bool := wOp w == 0xCE || wOp w == 0xCF

/-- A program word. -/
def Wmb.word (m : Wmb) (i : Nat) : Nat := tget 0 m.program i

/-- The first offending word of a program, if any (R301). -/
def Wmb.prescan (m : Wmb) (len : Nat) : Option Nat :=
  (List.range len).find? fun i => !wReserved (m.word i) || wLast (m.word i) != decide (i + 1 = len)

/-- The partitions that words of a program name. -/
def Wmb.names (m : Wmb) (len : Nat) : List Nat :=
  (((List.range len).map m.word).filterMap fun w => if wLast w || wOp w == 0xCC then none else some (wPart w)).eraseDups

/-! ### The end of a program (R296) -/

/-- What waited for the program goes on: context creations, an LC command and admissions (R281, R318, R791).
(DEDUCED: log 45) -/
def State.afterProgram (s : State) : State :=
  let waiting := s.blocks.filter fun e => e.2.busy && e.2.queued && e.2.op = 1
  let s := if s.sage.wardenDown then s
    else waiting.foldl (fun s e =>
      (s.setBlock (keyFn e.1) { s.block (keyFn e.1) with queued := false }).reqCtxCreate (keyFn e.1)) s
  let s := if s.lc.busy && !s.lc.drawWaits && !s.sage.wardenDown then s.lcRun else s
  s.runAdmits

/-- The program completes with a code. -/
def State.wmbEnd (s : State) (code : Nat) : State :=
  let m := s.wmb
  let us := if m.phase = .handover then min ((s.now - m.began) / 1000) 0x3FFFFF else 0
  let s := { s with wmb := { m with
    phase := .idle, busy := false, done := true, resTag := m.tag, resCode := code, resIndex := m.idx, resDuration := us,
    shadow := {}, named := [], switched := false, began := 0, handing := [], len := 0, idx := 0 } }
  (s.raise .pf 0).afterProgram

/-- The pre-scan of the submitted program; when it passes, staging begins (Table 6-9). (DESIGN CHOICE: log 43) -/
def State.wmbScan (s : State) : State :=
  let m := s.wmb
  match m.prescan m.len with
  | some i => ({ s with wmb := { m with idx := i } }).wmbEnd 2
  | none => { s with wmb := { m with phase := .staging, idx := 0, shadow := s.units, named := m.names m.len } }

/-- A submission (R293 to R295). (DESIGN CHOICE: log 43) -/
def execWmbSubmit (v : BitVec 64) (s : State) : Host.Outcome State Fault Refusal :=
  .next (if !s.decodes .pf || !s.fwRuns then s
    else if s.wmb.busy then { s with wmb := { s.wmb with lost := true } }
    else
      let len := fld v.toNat 9 0
      let s := { s with wmb := { s.wmb with tag := fld v.toNat 31 16, len := len, idx := 0, busy := true } }
      if len = 0 then s.wmbEnd 0
      else if 512 < len then s.wmbEnd 2
      else
        let s := { s with wmb := { s.wmb with phase := .prescan } }
        if s.sage.wardenDown || s.lc.busy then s else s.wmbScan)

/-! ### Staging (Table 6-11) -/

/-- What a staged instruction does: the shadow it leaves, or a result code. -/
inductive Staged where
  | ok (u : Units)
  | fail (code : Nat)
deriving DecidableEq, Repr

def Units.part (u : Units) (p : Nat) : Part := tget {} u.parts p
def Units.setPart (u : Units) (p : Nat) (x : Part) : Units := { u with parts := tput u.parts p x }

/-- The next word is carried out when it is this instruction. (DESIGN CHOICE: log 43) -/
def State.wRow (s : State) (op : Nat) (run : Nat → Staged) : State :=
  let m := s.wmb
  let w := m.word m.idx
  if m.phase ≠ .staging ∨ wOp w ≠ op ∨ s.sage.wardenDown then s
  else
    match run w with
    | .ok u => { s with wmb := { m with shadow := u, idx := m.idx + 1 } }
    | .fail code => s.wmbEnd code

/-- An instruction that names a partition: it must exist, be open in the shadow, and run no schedule (R280).
(DEDUCED: log 44) -/
def State.onPart (s : State) (w : Nat) (act : Units → Nat → Part → Staged) : Staged :=
  let p := wPart w
  let u := s.wmb.shadow
  if s.build.partitions ≤ p then .fail 3
  else if (u.part p).state = 0 then .fail 4
  else if s.scheduleRuns p then .fail 6
  else act u p (u.part p)

def insertAll (l ns : List Nat) : List Nat := ns.foldl insertIdx l
def removeAll (l ns : List Nat) : List Nat := l.filter fun i => !ns.contains i

def execPartOpen (s : State) : Host.Outcome State Fault Refusal :=
  .next (s.work (s.wRow 0xC0 fun w =>
    let p := wPart w
    let u := s.wmb.shadow
    if s.build.partitions ≤ p then .fail 3
    else if (u.part p).state ≠ 0 then .fail 4
    else if s.scheduleRuns p then .fail 6
    else .ok (u.setPart p { state := 1, timesliceMs := 10, keygen := (u.part p).keygen })))

/-- Every unit of a partition returns to the free pool. -/
def Units.close (u : Units) (p : Nat) : Units :=
  let x := u.part p
  let y : Part := { keygen := x.keygen, changes := x.changes }
  ({ u with freeEngines := insertAll u.freeEngines x.engines, freeForeign := insertAll u.freeForeign x.foreign,
            freeChannels := insertAll u.freeChannels x.channels, freeWays := insertAll u.freeWays x.ways }).setPart p y

/-- Does a context of the partition exist? -/
def State.partHasCtx (s : State) (p : Nat) : Bool := s.ctxs.any fun e => e.2.state != .free && e.2.part == p

def execPartClose (s : State) : Host.Outcome State Fault Refusal :=
  .next (s.work (s.wRow 0xC1 fun w => s.onPart w fun u p _ => if s.partHasCtx p then .fail 7 else .ok (u.close p)))

/-- Units of a mask, `limit` being how many the size table provides; none for a mask that is 0 or names others.
(DEDUCED: log 44) -/
def unitMask (limit mask : Nat) : Option (List Nat) :=
  if mask = 0 ∨ 2 ^ limit ≤ mask then none else some (maskBits limit mask)

/-- ASSIGN_*: units move between the free pool and the partition. (DEDUCED: log 44) -/
def assign (release : Bool) (units : Option (List Nat)) (free held : List Nat) : Except Nat (List Nat × List Nat) :=
  match units with
  | none => .error 3
  | some us =>
    if release then
      if us.all held.contains then .ok (insertAll free us, removeAll held us) else .error 5
    else if us.all free.contains then .ok (removeAll free us, insertAll held us) else .error 5

/-- The outcome of an assignment, put into the shadow. -/
def assigned (r : Except Nat (List Nat × List Nat)) (put : List Nat → List Nat → Units) : Staged :=
  match r with
  | .error code => .fail code
  | .ok (free, held) => .ok (put free held)

/-- (DEDUCED: log 44) -/
def execAssignEngine (s : State) : Host.Outcome State Fault Refusal :=
  .next (s.work (s.wRow 0xC2 fun w => s.onPart w fun u p x =>
    assigned (assign (wRelease w) (unitMask s.build.engines (fld w 15 0)) u.freeEngines x.engines) fun f h =>
      ({ u with freeEngines := f }).setPart p { x with engines := h }))

def execAssignForeign (s : State) : Host.Outcome State Fault Refusal :=
  .next (s.work (s.wRow 0xC3 fun w => s.onPart w fun u p x =>
    let port := fld w 18 16
    let us := if s.build.chipletPorts ≤ port then none else (unitMask 16 (fld w 15 0)).map fun l => l.map (16 * port + ·)
    assigned (assign (wRelease w) us u.freeForeign x.foreign) fun f h =>
      ({ u with freeForeign := f }).setPart p { x with foreign := h }))

def execAssignChannel (s : State) : Host.Outcome State Fault Refusal :=
  .next (s.work (s.wRow 0xC4 fun w => s.onPart w fun u p x =>
    let r := assign (wRelease w) (unitMask s.build.channels (fld w 31 0)) u.freeChannels x.channels
    if r.isOk && s.hasObjects p then .fail 7
    else assigned r fun f h => ({ u with freeChannels := f }).setPart p { x with channels := h }))

def execAssignWays (s : State) : Host.Outcome State Fault Refusal :=
  .next (s.work (s.wRow 0xC5 fun w => s.onPart w fun u p x =>
    assigned (assign (wRelease w) (unitMask s.build.ways (fld w 31 0)) u.freeWays x.ways) fun f h =>
      ({ u with freeWays := f }).setPart p { x with ways := h }))

/-- Does a context created through a VF exist? -/
def State.vfHasCtx (s : State) (v : Nat) : Bool := s.ctxs.any fun e => e.2.state != .free && e.2.vf == v

def execAssignVf (s : State) : Host.Outcome State Fault Refusal :=
  .next (s.work (s.wRow 0xC6 fun w => s.onPart w fun u p x =>
    let v := fld w 5 0
    let bad := if wRelease w then !x.vfs.contains v else u.parts.any fun e => e.1 != p && e.2.vfs.contains v
    if bad then .fail 5
    else if s.vfHasCtx v then .fail 7
    else if x.state = 2 then .fail 9
    else .ok (u.setPart p { x with vfs := if wRelease w then x.vfs.filter (· ≠ v) else insertIdx x.vfs v })))

/-- A share, without an entry when it is 0. -/
def setShareOf (t : Table Nat) (port share : Nat) : Table Nat := if share = 0 then tdel t port else tput t port share

def execSetShare (s : State) : Host.Outcome State Fault Refusal :=
  .next (s.work (s.wRow 0xC7 fun w => s.onPart w fun u p x =>
    let port := fld w 47 40
    let share := fld w 8 0
    if 256 < share ∨ (port ≠ 0x20 ∧ s.build.fabricPorts ≤ port) then .fail 3
    else .ok (u.setPart p { x with shares := setShareOf x.shares port share })))

def execSetPower (s : State) : Host.Outcome State Fault Refusal :=
  .next (s.work (s.wRow 0xC8 fun w => s.onPart w fun u p x =>
    if 2480 < fld w 15 0 then .fail 3 else .ok (u.setPart p { x with power := fld w 15 0 })))

def execSetMode (s : State) : Host.Outcome State Fault Refusal :=
  .next (s.work (s.wRow 0xC9 fun w => s.onPart w fun u p x =>
    let static := bit w 0
    let ms := fld w 23 16
    if (static && ms != 0) || (!static && (ms == 0 || decide (100 < ms))) then .fail 3
    else if static && x.validated then .fail 4
    else if x.state = 2 then .fail 9
    else .ok (u.setPart p { x with static := static, timesliceMs := ms })))

def execSetIsolation (s : State) : Host.Outcome State Fault Refusal :=
  .next (s.work (s.wRow 0xCA fun w => s.onPart w fun u p x =>
    let v := bit w 0
    if v && !s.build.validatedSharing then .fail 0x0A
    else if v && x.static then .fail 4
    else if x.state = 2 then .fail 9
    else .ok (u.setPart p { x with validated := v })))

def execSetContexts (s : State) : Host.Outcome State Fault Refusal :=
  .next (s.work (s.wRow 0xCB fun w => s.onPart w fun u p x =>
    let quota := fld w 28 16
    let slots := fld w 5 0
    if 4096 < quota ∨ s.build.ctxSlots < slots then .fail 3
    else if quota < (s.ctxs.filter fun e => e.2.state != .free && e.2.part == p).length then .fail 7
    else .ok (u.setPart p { x with quota := quota, rslots := slots })))

/-- SET_RESERVE moves units between the free pool and the reserve. -/
def moveReserve (release : Bool) (us free reserve : List Nat) (put : List Nat → List Nat → Units) : Staged :=
  if us.all (if release then reserve else free).contains then
    if release then .ok (put (insertAll free us) (removeAll reserve us)) else .ok (put (removeAll free us) (insertAll reserve us))
  else .fail 5

/-- (DEDUCED: log 44) -/
def execSetReserve (s : State) : Host.Outcome State Fault Refusal :=
  .next (s.work (s.wRow 0xCC fun w =>
    let u := s.wmb.shadow
    let r := wRelease w
    let us := maskBits 32 (fld w 31 0)
    match fld w 51 49 with
    | 1 => moveReserve r us u.freeEngines u.reserveEngines fun f v => { u with freeEngines := f, reserveEngines := v }
    | 2 =>
      let port := fld w 34 32
      moveReserve r (us.map fun i => if i < 16 then 16 * port + i else 4096) u.freeForeign u.reserveForeign fun f v =>
        { u with freeForeign := f, reserveForeign := v }
    | 3 => moveReserve r us u.freeWays u.reserveWays fun f v => { u with freeWays := f, reserveWays := v }
    | _ => .fail 3))

/-- SEAL is accepted only in states with an identity and a partition key seed, or before provisioning, and not while a
hub-scope or RMA grant is held (R774, R791). -/
def State.maySeal (s : State) : Bool := s.identityKey.isSome && s.lc.hubDebug.isNone && s.lc.rma.isNone

def execSeal (s : State) : Host.Outcome State Fault Refusal :=
  .next (s.work (s.wRow 0xCD fun w => s.onPart w fun u p x =>
    if x.state ≠ 1 || !s.maySeal then .fail 4 else .ok (u.setPart p { x with state := 2 })))

def execAbortProgram (s : State) : Host.Outcome State Fault Refusal := .next (s.work (s.wRow 0xCF fun _ => .fail 1))

/-! ### COMMIT (Table 6-12) -/

/-- The unit works in the FPT. -/
def State.unitWorks (s : State) (u : UnitId) : Bool := s.fptStatus u == 1 || s.fptStatus u == 2

/-- The units of a partition. -/
def Part.unitsOf (x : Part) : List UnitId :=
  x.engines.map .engine ++ x.foreign.map .foreign ++ x.channels.map .channel ++ x.ways.map .way

/-- Every unit of the live tables. -/
def Units.all (u : Units) : List UnitId :=
  ((u.freeEngines ++ u.reserveEngines).map .engine ++ (u.freeForeign ++ u.reserveForeign).map .foreign ++ u.freeChannels.map .channel
    ++ (u.freeWays ++ u.reserveWays).map .way) ++ u.parts.flatMap fun e => e.2.unitsOf

/-- A partition that the program opens: no key has been derived for it yet. -/
def Part.opening (x : Part) : Bool := x.state != 0 && !x.keyed

/-- The first check of Table 6-12 that the shadow breaks, as its code; 0 when it breaks none. (DEDUCED: log 45) -/
def State.commitCode (s : State) : Nat :=
  let m := s.wmb
  let open_ := m.shadow.parts.filter fun e => e.2.state != 0
  let sum (f : Part → Nat) : Nat := (open_.map fun e => f e.2).sum
  let named := open_.filter fun e => m.named.contains e.1
  let others := (s.units.parts.filter fun e => !m.named.contains e.1).flatMap fun e => e.2.unitsOf
  if !(open_.all fun e => e.2.unitsOf.all fun u => s.unitWorks u) || !(named.all fun e => e.2.unitsOf.all fun u => !others.contains u) then 5
  else if m.named.any s.scheduleRuns then 6
  else if open_.any fun e => e.2.channels.isEmpty then 8
  else if (List.range s.build.fabricPorts ++ [0x20]).any fun p => 256 < sum fun x => tget 0 x.shares p then 8
  else if s.engineBudget < sum (·.power) then 8
  else if 4096 < sum (·.quota) ∨ s.build.ctxSlots < sum (·.rslots) then 8
  else if open_.any fun e => e.2.state == 2 && ((s.part e.1).state != 2 || e.2.opening) && (e.2.vfs.isEmpty || e.2.quota == 0 || e.2.rslots == 0) then 8
  else if open_.any fun e => e.2.static && e.2.power == 0 then 8
  else 0

/-- COMMIT: validation, and from the point of no return the hand-over (R307, R308). -/
def execCommitProgram (s : State) : Host.Outcome State Fault Refusal :=
  .next (s.work (
    let m := s.wmb
    if m.phase ≠ .staging ∨ wOp (m.word m.idx) ≠ 0xCE ∨ s.sage.wardenDown then s
    else
      let c := s.commitCode
      if c ≠ 0 then s.wmbEnd c else { s with wmb := { m with phase := .handover, began := s.now, switched := false } }))

/-! ### Hand-over (R308 to R317) -/

/-- Units that leave a partition at the switch. -/
def State.leaving (s : State) : List UnitId :=
  s.wmb.named.flatMap fun p =>
    let new := (s.wmb.shadow.part p).unitsOf
    (s.part p).unitsOf.filter fun u => !new.contains u

/-- A leaving engine or foreign engine has reached a launch boundary. -/
def State.leftQuiet (s : State) (u : UnitId) : Bool :=
  match u with
  | .engine e => (s.engine e).slots.isEmpty
  | .foreign i => let f := s.fe_ i; f.state != 3 && f.state != 4
  | _ => true

/-- 1.5 ms after COMMIT began: what still runs on a leaving unit is pre-empted, and its context is switched out (R309). -/
def execHandoverPreemptTimeout (s : State) : Host.Outcome State Fault Refusal :=
  .next (s.work (
    if s.wmb.phase ≠ .handover ∨ s.wmb.switched then s
    else
      s.leaving.foldl (fun s u =>
        match u with
        | .engine e => ((s.engine e).slots.filterMap fun r => (tfind s.launches r.2).map (·.ctx)).eraseDups.foldl State.startOut s
        | .foreign i => if (s.fe_ i).state = 3 then s.feQuiesce i else s
        | _ => s) s))

/-- What a statement says of the partition's own fields. -/
def Part.content (x : Part) : List Nat × List (List Nat) × Table Nat :=
  ([flag x.static 0, flag x.validated 0, x.timesliceMs, x.quota, x.rslots, x.power, x.keygen, x.label],
   [x.engines, x.foreign, x.channels, x.ways], x.shares)

/-- Memory of a partition whose key has gone, or is new: nothing of what was there can be read (R288, R289). Without
a usable partition key seed the memory is plaintext and stays (R467). (DEDUCED: log 45) -/
def State.dropMemory (s : State) (p : Nat) : State :=
  if s.lcState = 3 ∨ s.lcState = 4 then { s with mem := s.mem.filter fun c => fld c.1 44 40 ≠ p } else s

/-- One named partition takes its new configuration (R305, R316, Table 6-13). (DEDUCED: log 45) -/
def State.switchPart (s : State) (p : Nat) : State :=
  let old := s.part p
  let new := s.wmb.shadow.part p
  if new.state = 0 then
    if old.state = 0 then s
    else
      let s := (s.setPart p { new with keygen := old.keygen, changes := old.changes }).dropMemory p
      let s := { s with lc := { s.lc with partDebug := tdel s.lc.partDebug p } }
      old.vfs.foldl (fun s v => (s.setVf v { s.vf v with stmt := { (s.vf v).stmt with changed := true } }).raise (.vf v) 1) s
  else if new.opening then
    let s := { s with lc := { s.lc with partDebug := if old.state = 0 then s.lc.partDebug else tdel s.lc.partDebug p } }
    let s := (s.setPart p { new with keygen := (old.keygen + 1) % 2 ^ 32, keyed := true, changes := 0, label := 0, sliceFrom := s.now }).dropMemory p
    let s := (old.vfs.filter fun v => !new.vfs.contains v).foldl (fun s v =>
      (s.setVf v { s.vf v with stmt := { (s.vf v).stmt with changed := true } }).raise (.vf v) 1) s
    s.partChanged p 0
  else
    let x : Part := { old with
      state := new.state, static := new.static, validated := new.validated, timesliceMs := new.timesliceMs, quota := new.quota,
      rslots := new.rslots, engines := new.engines, foreign := new.foreign, channels := new.channels, ways := new.ways,
      shares := new.shares, power := new.power, vfs := new.vfs,
      sliceFrom := if new.timesliceMs = old.timesliceMs then old.sliceFrom else s.now,
      refilled := old.refilled.filter fun r => (r.1 = 1 && new.engines.contains r.2) || (r.1 = 2 && new.foreign.contains r.2)
        || (r.1 = 4 && new.ways.contains r.2) }
    let s := s.setPart p x
    if x.content = old.content then s else s.partChanged p 0

/-- The pools after the switch: the reserve as the shadow has it, as far as it still is there, and every other unit that
no partition holds in the free pool. -/
def State.switchPools (s : State) (before : Units) : State :=
  let u := s.units
  let held : List UnitId := u.parts.flatMap fun e => e.2.unitsOf
  let known := before.all.filter s.unitWorks
  let isFree (x : UnitId) : Bool := known.contains x && !held.contains x
  let sh := s.wmb.shadow
  let rest (mk : Nat → UnitId) (n : Nat) (reserve : List Nat) : List Nat := (List.range n).filter fun i => isFree (mk i) && !reserve.contains i
  let re := sh.reserveEngines.filter fun i => isFree (.engine i)
  let rf := sh.reserveForeign.filter fun i => isFree (.foreign i)
  let rw := sh.reserveWays.filter fun i => isFree (.way i)
  { s with units := { u with
      reserveEngines := re, reserveForeign := rf, reserveWays := rw,
      freeEngines := rest .engine s.build.engines re, freeForeign := rest .foreign (16 * s.build.chipletPorts) rf,
      freeChannels := rest .channel s.build.channels [], freeWays := rest .way s.build.ways rw } }

/-- Contexts in excess of the resident slots of a partition are switched out, the ones switched in last first.
(DEDUCED: log 45) -/
def State.trimSlots : Nat → State → Nat → State
  | 0, s, _ => s
  | n + 1, s, p =>
    let mine := s.ctxs.filter fun e => e.2.part = p && e.2.sched.rslot.isSome && !e.2.sched.switchingOut
    if mine.length ≤ (s.part p).rslots then s
    else
      match minBy (fun e => ctrMax - e.2.sched.switchedInAt) mine with
      | none => s
      | some e => State.trimSlots n (s.startOut e.1) p

/-- The switch (R310, R316, R317): a unit of a named partition that has been retired meanwhile is refilled after it.
(DESIGN CHOICE: log 95) -/
def State.switch (s : State) : State :=
  let left := s.leaving
  let before := s.units
  let named := s.wmb.named
  let s := named.foldl State.switchPart s
  let dead := named.flatMap fun p => ((s.part p).unitsOf.filter fun u => !s.unitWorks u).map fun u => (p, u)
  let handing := left.filter fun u => s.unitWorks u && match u with
    | .channel _ => false
    | _ => true
  let s := { s.switchPools before with wmb := { s.wmb with switched := true, handing := handing } }
  let s := handing.foldl (fun s u => match u with
    | .engine e => s.modEngine e fun x => { x with handover := true }
    | _ => s) s
  let s := dead.foldl (fun s r => s.refill r.1 r.2) s
  let s := named.foldl (fun s p => State.trimSlots 64 s p) s
  s.movePartials

/-- HANDOVER_SWITCH: at a beat boundary, once every leaving engine is quiet (R310). A program with nothing to save is
complete then. -/
def execHandoverSwitch (s : State) : Host.Outcome State Fault Refusal :=
  .next (s.work (
    if s.wmb.phase ≠ .handover || s.wmb.switched || !(s.leaving.all s.leftQuiet) then s
    else
      let s := s.switch
      if s.wmb.handing = [] then s.wmbEnd 0 else s))

/-- The save and scrub of a leaving unit: the allotments of an engine go to their contexts' records, and its whole store
is overwritten; a proxy's segment cache is invalidated (R314). -/
def State.handUnit (s : State) (u : UnitId) : State :=
  match u with
  | .engine e =>
    let owners := ((s.engine e).allots.map fun a => tagCtx a.2.owner) ++ (s.launches.filterMap fun l =>
      match l.2.place with
      | .parked f _ => if f = e then some l.2.ctx else none
      | .preempted f _ => if f = e then some l.2.ctx else none
      | _ => none)
    (owners.eraseDups.foldl (fun s c => s.saveOn c e) s).modEngine e fun x =>
      { x with handover := false, scrubs := [], store := [],
               ctr := { x.ctr with scrubBytes := bump x.ctr.scrubBytes ((x.scrubs.map fun r => r.units * unitBytes).sum) } }
  | .foreign i => { s with caches := s.caches.map fun (c : SegCache) => if c.who = CacheId.proxy (i / 16) then { c with tags := [] } else c }
  | _ => s

/-- HANDOVER_SAVE_COMPLETE: the program completes with the last one (R304, R314). -/
def execHandoverSaveComplete (u : UnitId) (s : State) : Host.Outcome State Fault Refusal :=
  .next (s.work (
    if s.wmb.phase ≠ .handover || !s.wmb.switched || !s.wmb.handing.contains u then s
    else
      let s := s.handUnit u
      let left := s.wmb.handing.erase u
      let s := { s with wmb := { s.wmb with handing := left } }
      if left = [] then s.wmbEnd 0 else s))

end Sys2Proof.Machine
end

