-- ==== Sys2Proof/Machine/Statement.lean ====
section
/-! DEFINITION. Slice statements (chapter 6): requests, the statement's bytes (Tables 6-16 to 6-18), and its issue. -/

namespace Sys2Proof.Machine

/-- The FPT entry of a unit. -/
def State.fptEntry (s : State) (u : UnitId) : FptEntry :=
  (s.boot.fpt.find? fun f => f.type = unitType u && f.index = unitIdx u).getD ⟨unitType u, 0, unitIdx u, 0⟩

/-- The chiplet ports whose engines a partition holds, in rising order: its claimed identities. -/
def Part.claims (x : Part) : List Nat := (List.range 8).filter fun c => x.foreign.any fun i => i / 16 == c

/-- One unit entry (Table 6-17). -/
def unitEntry (type status index detail : Nat) : List Byte := bytesLE 1 type ++ bytesLE 1 status ++ bytesLE 2 index ++ bytesLE 4 detail

/-- STATUS of a unit entry: a unit that joined by refill is 3; else working or degraded as the FPT has it. -/
def State.unitStatus (s : State) (x : Part) (u : UnitId) : Nat :=
  if x.refilled.contains (unitType u, unitIdx u) then 3 else s.fptStatus u

/-- The unit entries of a partition, by TYPE and INDEX. (DESIGN CHOICE: log 46) -/
def State.unitEntries (s : State) (x : Part) : List (List Byte) :=
  let plain (us : List UnitId) (detail : UnitId → Nat) : List (List Byte) :=
    us.map fun u => unitEntry (unitType u) (s.unitStatus x u) (unitIdx u) (detail u)
  let fpt (u : UnitId) : Nat := (s.fptEntry u).detail
  let claim (u : UnitId) : Nat := ((findIdxVal (· == unitIdx u / 16) x.claims 0).map (·.1)).getD 0
  let port (p : Nat) : List Byte :=
    let f := s.fp p
    unitEntry 5 (if f.state = .active ∧ f.width = 8 then 1 else 2) p (f.width * 4096 + tget 0 x.shares p)
  plain (x.engines.map .engine) fpt ++ plain (x.foreign.map .foreign) claim ++ plain (x.channels.map .channel) fpt
    ++ plain (x.ways.map .way) (fun _ => 4)
    ++ ((List.range s.build.fabricPorts).filter fun p => tget 0 x.shares p != 0).map port
    ++ [unitEntry 6 1 0 (tget 0 x.shares 0x20)]

/-- A claimed-identity entry (Table 6-18). (DESIGN CHOICE: log 46) -/
def State.claimEntry (s : State) (c : Nat) : List Byte :=
  let p := s.cp c
  bytesLE 2 p.vendor ++ bytesLE 2 p.device ++ bytesLE 2 p.revision ++ bytesLE 2 1 ++ bytesLE 8 p.serial

/-- A partition's sequence number (R325, Table 6-7). -/
def Part.seq (x : Part) : Nat := x.keygen % 2 ^ 32 * 2 ^ 32 + x.changes % 2 ^ 32

/-- THYME_ROOT of a statement: no hub ID for a hub that is its own root without one. -/
def State.statementRoot (s : State) : Nat := if s.thyme.state = 0 ∧ !s.fab.idValid then 0xFFFF else s.thyme.root

/-- The statement of a partition for a VF, but for its signature (Table 6-16). (DESIGN CHOICE: log 46) -/
def State.statementBody (s : State) (v p : Nat) : List Byte :=
  let x := s.part p
  let units := s.unitEntries x
  let claims := x.claims
  let len := 176 + 8 * units.length + 16 * claims.length + 96
  let nonce := (List.range 4).flatMap fun i => bytesLE 8 (tget 0 (s.vf v).stmt.nonce i)
  let memory := (x.channels.map fun m => (s.fptEntry (.channel m)).detail).sum * 2 ^ 20
  let w := s.otpWord 2
  bytesLE 4 0x53535653 ++ bytesLE 2 1 ++ bytesLE 2 0xB0 ++ bytesLE 4 len ++ bytesLE 1 p ++ bytesLE 1 (flag x.static 0)
    ++ bytesLE 1 (flag x.validated 0) ++ bytesLE 1 (if s.lcState = 1 ∨ s.lcState = 2 then 0 else 1) ++ bytesLE 8 x.seq ++ nonce
    ++ bytesLE 8 x.label ++ bytesLE 4 (s.otpWord 1) ++ bytesLE 1 (w / 65536) ++ bytesLE 1 (w / 256) ++ bytesLE 1 w
    ++ bytesLE 1 s.lcState ++ bytesLE 4 (s.otpWord 3) ++ bytesLE 2 s.myHub ++ bytesLE 2 blockRelease ++ bytesLE 1 arithRev
    ++ bytesLE 1 s.build.sizeClass ++ bytesLE 2 0 ++ bytesLE 2 units.length ++ bytesLE 2 claims.length ++ s.fwDigest
    ++ bytesLE 8 memory ++ bytesLE 2 x.power ++ bytesLE 1 x.timesliceMs ++ bytesLE 1 s.thyme.state ++ bytesLE 2 s.thyme.errorNs
    ++ bytesLE 2 s.statementRoot ++ bytesLE 8 s.now ++ bytesLE 2 x.quota ++ bytesLE 1 x.rslots ++ bytesLE 1 x.reason
    ++ List.replicate 12 0 ++ units.flatten ++ (claims.map s.claimEntry).flatten

/-- Change a VF's statement registers, and raise its statement cause for DONE or CHANGED (R322). -/
def State.stmtSet (s : State) (v : Nat) (f : Stmt → Stmt) : State := s.setVf v { s.vf v with stmt := f (s.vf v).stmt }

/-- A request is refused (R321, R774). -/
def State.stmtRefused (s : State) (v : Nat) : State :=
  (s.stmtSet v fun x => { x with busy := false, refused := true, done := true }).raise (.vf v) 1

/-- The partition whose statement a VF may have: the sealed one it is bound to, in a state with an identity key. -/
def State.stmtPart (s : State) (v : Nat) : Option Nat :=
  match s.vfPart v with
  | none => none
  | some p => if (s.part p).state = 2 ∧ s.identityKey.isSome then some p else none

/-- STMT_REQUEST: a write of STMT_CTRL (R319, R321). -/
def execStmtRequest (vf : Nat) (v : BitVec 64) (s : State) : Host.Outcome State Fault Refusal :=
  .next (if !s.decodes (.vf vf) then s
    else
      let w := v.toNat
      let s := s.stmtSet vf fun x =>
        { x with changed := x.changed && !bit w 4, refused := x.refused && !bit w 3, lost := x.lost && !bit w 2, done := x.done && !bit w 1 }
      if !bit w 0 then s
      else if (s.vf vf).stmt.busy then s.stmtSet vf fun x => { x with lost := true }
      else if (s.stmtPart vf).isNone then s.stmtRefused vf
      else { s.stmtSet vf (fun x => { x with busy := true }) with wmb := { s.wmb with stmtQueue := s.wmb.stmtQueue ++ [vf] } })

/-- May the request of a VF be served now (R318)? (DESIGN CHOICE: log 46) -/
def State.stmtReady (s : State) (v : Nat) : Bool :=
  match s.stmtPart v with
  | none => true
  | some p => !(s.wmb.busy && s.wmb.named.contains p)

/-- STMT_ISSUE: the oldest request that can be served gets its signed statement (R320, R324). (DESIGN CHOICE: log 46) -/
def execStmtIssue (s : State) : Host.Outcome State Fault Refusal :=
  .next (s.work (
    if s.sage.wardenDown || !s.fwRuns then s
    else
      match s.wmb.stmtQueue.find? s.stmtReady with
      | none => s
      | some v =>
        let s := { s with wmb := { s.wmb with stmtQueue := s.wmb.stmtQueue.erase v } }
        match s.stmtPart v, s.identityKey with
        | some p, some key =>
          let body := s.statementBody v p
          let bytes := body ++ signBytes key body
          (s.stmtSet v fun x => { x with busy := false, done := true, length := bytes.length, buffer := bytes }).raise (.vf v) 1
        | _, _ => s.stmtRefused v))

end Sys2Proof.Machine
end

