-- ==== Sys2Proof/Machine/LifeCycle.lean ====
section
/-! DEFINITION. The commands of the life cycle and of debug authorisation (chapter 17). -/

namespace Sys2Proof.Machine

/-- After an LC command, a partition program and admissions that waited for it go on (R281, R791). -/
def State.afterLc (s : State) : State :=
  if s.lc.busy || s.sage.wardenDown then s
  else (if s.wmb.busy ∧ s.wmb.phase = .prescan then s.wmbScan else s).runAdmits

/-- A write of LC_CMD (R800): ignored while a command is in progress; a partition program or the Warden's restart holds
it (R791). -/
def State.lcCommand (s : State) (op arg : Nat) (tag : BitVec 16) : State :=
  if !s.decodes .pf then s
  else if s.lc.busy then { s with lc := { s.lc with lost := true } }
  else
    let s := { s with lc := { s.lc with busy := true, op := op, curTag := tag.toNat, arg := arg } }
    if s.wmb.busy || s.sage.wardenDown then s else s.lcRun.afterLc

/-- SUBMIT with a token of one purpose. A token whose PURPOSE no row of Table 17-8 names is submitted by any of these
commands. (DEDUCED: log 47) -/
def State.lcSubmit (s : State) (purpose : Nat) (tag : BitVec 16) : State :=
  let p := s.lc.tokenRead.purpose
  if p = purpose ∨ p = 0 ∨ 8 < p then s.lcCommand 2 0 tag else s

def execLcChallenge (tag : BitVec 16) (purpose partition : BitVec 4) (s : State) : Host.Outcome State Fault Refusal :=
  .next (s.lcCommand 1 (partition.toNat * 16 + purpose.toNat) tag)
def execLcTransition (tag : BitVec 16) (s : State) : Host.Outcome State Fault Refusal := .next (s.lcSubmit 1 tag)
def execLcFinish (tag : BitVec 16) (s : State) : Host.Outcome State Fault Refusal := .next (s.lcSubmit 2 tag)
def execLcTest (tag : BitVec 16) (s : State) : Host.Outcome State Fault Refusal := .next (s.lcSubmit 3 tag)
def execLcHubDebug (tag : BitVec 16) (s : State) : Host.Outcome State Fault Refusal := .next (s.lcSubmit 4 tag)
def execLcPartitionDebug (tag : BitVec 16) (s : State) : Host.Outcome State Fault Refusal := .next (s.lcSubmit 5 tag)
def execLcRma (tag : BitVec 16) (s : State) : Host.Outcome State Fault Refusal := .next (s.lcSubmit 6 tag)
def execLcRecorderClear (tag : BitVec 16) (s : State) : Host.Outcome State Fault Refusal := .next (s.lcSubmit 7 tag)
def execLcCertWrite (tag : BitVec 16) (s : State) : Host.Outcome State Fault Refusal := .next (s.lcSubmit 8 tag)
def execLcAttest (tag : BitVec 16) (s : State) : Host.Outcome State Fault Refusal := .next (s.lcCommand 3 0 tag)
def execLcEndGrants (tag : BitVec 16) (s : State) : Host.Outcome State Fault Refusal := .next (s.lcCommand 4 0 tag)

/-- An undefined OP of LC_CMD. -/
def execLcUnknownOp (tag : BitVec 16) (op : BitVec 8) (s : State) : Host.Outcome State Fault Refusal :=
  .next (if 1 ≤ op.toNat ∧ op.toNat ≤ 4 then s else s.lcCommand op.toNat 0 tag)

/-- A challenge is void 60 s after issue (R785). -/
def execChallengeExpire (s : State) : Host.Outcome State Fault Refusal :=
  .next (s.work { s with lc := { s.lc with challenge := none } })

/-- A grant ends (R790). -/
def execGrantExpire (g : Grant) (s : State) : Host.Outcome State Fault Refusal :=
  .next (s.work { s with lc := match g with
    | .test => { s.lc with test := none }
    | .hub => { s.lc with hubDebug := none }
    | .rma => { s.lc with rma := none }
    | .recorder => { s.lc with recClear := none }
    | .partition p => { s.lc with partDebug := tdel s.lc.partDebug p } })

/-! ### The debug window (R797, R798) -/

/-- Where an access through the window goes. -/
inductive DbgPlace where
  | memory (a : Nat)
  | store (e a : Nat)
  | denied
deriving DecidableEq, Repr

/-- The place that an offset of the window names, as far as the grants held reach. (DESIGN CHOICE: log 50) -/
def State.dbgPlace (s : State) (off : Nat) : DbgPlace :=
  let x := s.lc
  let a := x.dbgBase * 32768 + off % 32768
  let all := x.hubDebug.isSome || x.rma.isSome
  let parts := x.partDebug.map (·.1)
  if x.dbgSpace = 0 then
    if all || parts.contains (fld a 43 40) then .memory a else .denied
  else if x.dbgSpace = 1 then
    let e := x.dbgEngine
    let held := (s.engine e).allots.any fun r =>
      parts.contains (tagPart r.2.owner) && decide (r.2.base * unitBytes ≤ a) && decide (a + 8 ≤ (r.2.base + r.2.size) * unitBytes)
    if e < s.build.engines ∧ a + 8 ≤ s.build.allotUnits * unitBytes ∧ (all || held) then .store e a else .denied
  else .denied

/-- An access outside the scope is counted. (DESIGN CHOICE: log 50) -/
def State.dbgDeny (s : State) : State := { s with lc := { s.lc with dbgDenied := bump s.lc.dbgDenied 1 } }

/-- (DESIGN CHOICE: log 50) -/
def execDebugWindowRead (off : Nat) (s : State) : Host.Outcome State Fault Refusal :=
  .next (if !s.decodes .pf then s
    else
      let o := off / 8 * 8
      match s.dbgPlace o with
      | .memory a => { s with out := s.out ++ [Out.completion .pf (mreadN s.mem a 8)] }
      | .store e a => { s with out := s.out ++ [Out.completion .pf (mreadN (s.engine e).store a 8)] }
      | .denied => { s.dbgDeny with out := s.out ++ [Out.completion .pf (List.replicate 8 0)] })

/-- A debug write is never captured (R798). (DESIGN CHOICE: log 50) -/
def execDebugWindowWrite (off : Nat) (v : BitVec 64) (s : State) : Host.Outcome State Fault Refusal :=
  .next (if !s.decodes .pf then s
    else
      let o := off / 8 * 8
      match s.dbgPlace o with
      | .memory a => { s with mem := mwriteN s.mem a (bytesLE 8 v.toNat) }
      | .store e a => s.modEngine e fun x => { x with store := mwriteN x.store a (bytesLE 8 v.toNat) }
      | .denied => s.dbgDeny)

/-! ### The random source (R781) -/

/-- A failed health test of the entropy source. (DEDUCED: log 49) -/
def execEntropyHealthFail (s : State) : Host.Outcome State Fault Refusal :=
  .next (s.work (({ s with lc := { s.lc with entropyOk := false } }).sageFail 0x014 9))

/-- A later health test passes: a draw that waited goes on. -/
def execEntropyHealthPass (s : State) : Host.Outcome State Fault Refusal :=
  .next (s.work (
    let s := { s with lc := { s.lc with entropyOk := true } }
    if s.lc.drawWaits then ({ s with lc := { s.lc with drawWaits := false } }).lcGoOn.afterLc else s))

/-- A draw has waited for 100 ms. (DEDUCED: log 49) -/
def execNoEntropyTimeout (s : State) : Host.Outcome State Fault Refusal :=
  .next (s.work (if s.lc.drawWaits then (s.lcDone 0x0A).afterLc else s))

/-! ### Requests (Table 17-9) -/

/-- CERT_READ (R794). (DEDUCED: log 49) -/
def State.reqCertRead (s : State) (fn : Fn) : State :=
  s.onLive fn fun s _ => if (s.block fn).a1 % 64 ≠ 0 then s.reqDone fn 1 0 0 else s.identRun fn

def execCertRead (fn : Fn) (tag : BitVec 16) (s : State) : Host.Outcome State Fault Refusal :=
  .next (s.work (s.request fn tag 0x15 fun s => s.reqCertRead fn))

/-- DBG_KEY_SET (R793). -/
def State.reqDbgKeySet (s : State) (fn : Fn) : State :=
  s.onLive fn fun s c =>
    let x := s.part (s.ctx c).part
    if (s.block fn).a1 % 64 ≠ 0 then s.reqDone fn 1 0 0
    else if x.state ≠ 2 ∨ !x.dbgKey.isEmpty then s.reqDone fn 5 0 0
    else s.identRun fn

def execDbgKeySet (fn : Fn) (tag : BitVec 16) (s : State) : Host.Outcome State Fault Refusal :=
  .next (s.work (s.request fn tag 0x16 fun s => s.reqDbgKeySet fn))

end Sys2Proof.Machine
end

