-- ==== Sys2Proof/Machine/HubReset.lean ====
section
/-! DEFINITION. The resets of the hub (R41) and what their release starts (R837), and the safe state (R724). -/

namespace Sys2Proof.Machine

/-- The whole hub is reset. What lies outside the reset stays: the size table, host memory, the fuses, what has already
been sent, and the commands that wait; and the model's own counters. (DEDUCED: log 4) -/
def State.hubReset (s : State) (pins : Pins) : State :=
  { State.reset with
    build := s.build, pins := pins, hostMem := s.hostMem, lc := { State.reset.lc with otp := s.lc.otp, draws := s.lc.draws },
    out := s.out, nextId := s.nextId, freeCtr := s.freeCtr, pending := s.pending }

/-- A reset ends (R837, Table 19-1 step 1): the Warden boots from ROM and reads the LC word and the identity; a boot
nonce is drawn (R782). (DESIGN CHOICE: log 32) -/
def State.released (s : State) : State :=
  { s with pins := { s.pins with por := false, sysRst := false },
           lc := { s.lc with raw := tget 0 s.lc.otp 0, bootNonce := takePad 32 (Config.entropy s.lc.draws), draws := s.lc.draws + 1 },
           rm := { s.rm with porCaused := s.pins.powerCycle }, boot := { s.boot with step := 1 } }

/-- A reset as sys_rst_n makes it, which the hub gives itself (R43, R739). (DEDUCED: log 25) -/
def State.selfReset (s : State) : State := (s.hubReset ⟨false, true, false⟩).released

/-- POR_N_ASSERT. (DEDUCED: log 4) -/
def execPorNAssert (s : State) : Host.Outcome State Fault Refusal :=
  .next (s.hubReset ⟨true, s.pins.sysRst, true⟩)

/-- SYS_RST_N_ASSERT: one reset with a por_n asserted together with it, which then makes it a power cycle.
(DEDUCED: log 4) -/
def execSysRstNAssert (s : State) : Host.Outcome State Fault Refusal :=
  .next (s.hubReset ⟨s.pins.por, true, (s.pins.por || s.pins.sysRst) && s.pins.powerCycle⟩)

/-- HUB_RESET_RELEASE. -/
def execHubResetRelease (s : State) : Host.Outcome State Fault Refusal :=
  .next (if s.pins.por || s.pins.sysRst then s.released else s)

/-- The hub enters the safe state (R724): engines halt and their passes are discarded, fault_beat is held low, and
Rosemary records the source. (DEDUCED: log 25) -/
def State.safeState (s : State) (src : Nat) : State :=
  if s.sage.safe then s
  else
    let s := s.chargeAll.rmRecord 0x22 src 0 0 0
    { s with sage := { s.sage with safe := true, pin := 0 },
             launches := tmap s.launches fun _ l => { l with x := { l.x with inflight := [] } } }

end Sys2Proof.Machine
end

