-- ==== Sys2Proof/Machine/Sage.lean ====
section
/-! DEFINITION. Sage (chapter 15): the message queue, classification and reactions, the fault_beat pin, patrol scrub and
data lost at rest, self-test, the Warden's restart, and the failures of crossings and spine links. -/

namespace Sys2Proof.Machine

/-! ### Sources (Tables 15-7, 15-9) -/

/-- Configuration of a source at reset: THRESHOLD, WINDOW_MS, MINOR_REACT, SEVERE_REACT. -/
def srcCfg (threshold windowMs minor severe : Nat) : SrcCfg :=
  { threshold := threshold, windowMs := windowMs, minorReact := minor, severeReact := severe }

/-- The reset values of a listed source; none for a value that is never sent and for Sage itself. -/
def srcCfgReset (src : Nat) : Option SrcCfg :=
  let k := src % 16
  if src = 0x010 ∨ (0x012 ≤ src ∧ src ≤ 0x014) then some (srcCfg 1 1 17 17)
  else if src = 0x011 then some (srcCfg 255 1000 0 1)
  else if 0x020 ≤ src ∧ src < 0x036 then some (srcCfg 1 1 3 3)
  else if 0x040 ≤ src ∧ src < 0x080 then some (srcCfg 1 1 3 3)
  else if 0x100 ≤ src ∧ src < 0x200 then
    if k = 7 then some (srcCfg 4 1000 0 3) else if k ≤ 8 then some (srcCfg 16 1000 0 3) else none
  else if 0x200 ≤ src ∧ src < 0x220 then some (srcCfg 16 1000 0 3)
  else if 0x240 ≤ src ∧ src < 0x280 then some (srcCfg 4 1000 0 3)
  else if 0x280 ≤ src ∧ src ≤ 0x282 then some (srcCfg 4 1000 0 3)
  else if src = 0x283 then some (srcCfg 1 1 3 3)
  else if 0x300 ≤ src ∧ src < 0x324 then some (srcCfg 16 1000 0 3)
  else if 0x400 ≤ src ∧ src < 0x540 ∧ k ≤ 9 then some (srcCfg 255 1000 0 1)
  else if 0x580 ≤ src ∧ src < 0x585 then some (srcCfg 16 1000 0 3)
  else if 0x600 ≤ src ∧ src < 0x680 ∧ k ≤ 2 then some (srcCfg 1 1 3 3)
  else if src = 0x700 then some (srcCfg 255 1000 0 1)
  else if src = 0x701 then some (srcCfg 4 1000 0 3)
  else none

/-- SG_SRC_CFG of a source. -/
def State.srcCfg (s : State) (src : Nat) : Option SrcCfg :=
  (srcCfgReset src).map fun d => tget d s.sage.cfg src

def State.setSrcCfg (s : State) (src : Nat) (c : SrcCfg) : State := { s with sage := { s.sage with cfg := tput s.sage.cfg src c } }

/-- A kind of the failure class, and a kind of the fault class (Table 15-8). -/
def kindFailure (k : Nat) : Bool := 1 ≤ k && k ≤ 0x0F
def kindFault (k : Nat) : Bool := 0x80 ≤ k && k ≤ 0x82

/-! ### The queue (R733 to R737) -/

/-- A message is placed in the queue, or counted as dropped. -/
def Sage.place (g : Sage) (m : SageMsg) (fault : Bool) : Sage :=
  let total := g.queue.length + g.ring.length
  if fault && decide (49344 < total) then { g with faultsDropped := bump g.faultsDropped 1 }
  else if g.ring.isEmpty && decide (g.queue.length < 256) then { g with queue := g.queue ++ [m] }
  else if g.ringReady && decide (g.ring.length < 65536) then { g with ring := g.ring ++ [m] }
  else if fault then { g with faultsDropped := bump g.faultsDropped 1 }
  else { g with dropped := bump g.dropped 1 }

/-- First-error capture (R737). (DESIGN CHOICE: log 36) -/
def Sage.capture (g : Sage) (m : SageMsg) : Sage :=
  if g.firstValid then { g with firstMore := true } else { g with first := some m, firstValid := true }

/-! ### Reactions (R739, Table 15-8) -/

/-- A unit is retired; a fabric port that leaves ACTIVE thereby does so as when it is disabled, and the foreign engines
of a chiplet port go with it. -/
def State.retireAny (s : State) (u : UnitId) (src kind : Nat) : State :=
  match u with
  | .fabricPort p => (s.portDown p 13).retireUnit u src kind
  | .chipletPort c => (s.retireAll c).retireUnit u src kind
  | _ => s.retireUnit u src kind

/-- RESET to a chiplet (R551). (DEDUCED: log 37) -/
def State.cppReset (s : State) (c : Nat) : State :=
  if (s.cp c).state ≠ .up then s
  else
    let (tag, s) := s.cppTag c
    (s.setCp c { s.cp c with resetTag := some tag }).cppSend c 0x0F { cppZero with tag := tag }

/-- The block reset of a source. (DEDUCED: log 37) -/
def State.blockReset (s : State) (src : Nat) : State :=
  if 0x100 ≤ src ∧ src < 0x200 then s.failOn ((src - 0x100) / 16) fun _ => true
  else if 0x400 ≤ src ∧ src < 0x540 then s.portRetrain ((src - 0x400) / 16) (s.fp ((src - 0x400) / 16)).cause
  else if 0x600 ≤ src ∧ src < 0x680 then s.cppReset ((src - 0x600) / 16)
  else s

/-- Does a source have a block reset? (DEDUCED: log 37) -/
def hasBlockReset (src : Nat) : Bool :=
  (0x100 ≤ src && src < 0x200) || (0x300 ≤ src && src < 0x320) || (0x400 ≤ src && src < 0x540) || (0x600 ≤ src && src < 0x680)

/-- The reactions that a mask selects; the reset of the hub comes last. (DEDUCED: log 25) -/
def State.reactTo (s : State) (src react : Nat) : State :=
  let s := if bit react 0 then s.raise .pf 1 else s
  let s := if bit react 1 then { s with sage := { s.sage with nmi := s.sage.nmi + 1 } } else s
  let s := if bit react 2 then s.blockReset src else s
  let s := if bit react 4 then { s with sage := { s.sage with pin := 2 } } else s
  if bit react 3 then s.selfReset else s

/-- Rosemary records a severe message (Table 16-4). -/
def State.recordSevere (s : State) (m : SageMsg) : State :=
  s.rmRecord 0x30 (m.source.toNat * 2 ^ 20 + m.kind.toNat * 2 ^ 12 + m.access.toNat * 2 ^ 8) (m.initiator.toNat * 65536)
    (fld m.address.toNat 31 0) (fld m.address.toNat 51 32)

/-- A failure-class message is classified (R738) and reacted to. A block reset that is followed within its window by
another severe event of the source retires the unit (R729). (DESIGN CHOICE: log 36) -/
def State.classify (s : State) (m : SageMsg) (c : SrcCfg) : State :=
  let src := m.source.toNat
  let count := min ((if c.window then c.count else 0) + 1) 255
  let reached := decide (c.threshold ≤ count)
  let severe := reached || m.kind == 0x0E
  let react := if severe then c.severeReact else c.minorReact
  let again := c.window && c.blockReset && severe
  let s := s.setSrcCfg src { c with window := true, count := count, severe := reached,
                                    blockReset := (c.window && c.blockReset) || (bit react 2 && hasBlockReset src) }
  let s := if severe then s.recordSevere m else s
  let s := match again, srcUnit src with
    | true, some u => s.retireAny u src m.kind.toNat
    | _, _ => s
  s.reactTo src react

/-- A message reaches Sage. (DESIGN CHOICE: log 36) -/
def State.sageTake (s : State) (m : SageMsg) : State :=
  let s := { s with sage := { s.sage with wire := s.sage.wire.erase m } }
  if m.source = 0xF00 ∧ kindFailure m.kind.toNat then s.safeState 0xF00
  else
    match s.srcCfg m.source.toNat with
    | none => s
    | some c =>
      if kindFault m.kind.toNat then
        { s with sage := { s.sage.place m true with faults := bump s.sage.faults 1 } }
      else if kindFailure m.kind.toNat then
        ({ s with sage := (s.sage.place m false).capture m }).classify m c
      else s

/-- SAGE_MESSAGE. (DESIGN CHOICE: log 8) -/
def execSageMessage (m : SageMsg) (s : State) : Host.Outcome State Fault Refusal := .next (s.work (s.sageTake m))

/-- SG_POP (R734). -/
def execSgPop (v : BitVec 64) (s : State) : Host.Outcome State Fault Refusal :=
  .next (if !s.decodes .pf || !bit v.toNat 0 then s
    else
      let g := s.sage
      match g.queue with
      | [] => s
      | _ :: rest => { s with sage := { g with queue := rest ++ g.ring.take 1, ring := g.ring.drop 1 } })

/-- SG_PIN.RESUME (R742). -/
def execSgPinResume (v : BitVec 64) (s : State) : Host.Outcome State Fault Refusal :=
  .next (if s.decodes .pf && bit v.toNat 8 && s.sage.pin == 3 && !s.sage.firstValid then { s with sage := { s.sage with pin := 1 } } else s)

/-- PIN_HOLD_EXPIRE (R742). -/
def execPinHoldExpire (s : State) : Host.Outcome State Fault Refusal :=
  .next (s.work (if s.sage.pin = 2 then { s with sage := { s.sage with pin := 3 } } else s))

/-- SAGE_WINDOW_CLOSE (R738). -/
def execSageWindowClose (src : BitVec 12) (s : State) : Host.Outcome State Fault Refusal :=
  .next (s.work <|
    match s.srcCfg src.toNat with
    | some c =>
      if c.window then s.setSrcCfg src.toNat { c with window := false, count := 0, severe := false, blockReset := false } else s
    | none => s)

/-- SG_SRC_CFG_WRITE (R740). -/
def execSgSrcCfgWrite (src : BitVec 12) (v : BitVec 64) (s : State) : Host.Outcome State Fault Refusal :=
  .next (if !s.decodes .pf then s
    else
      match s.srcCfg src.toNat with
      | none => s
      | some c =>
        let w := v.toNat
        let t := fld w 39 32
        let ms := fld w 21 0
        s.setSrcCfg src.toNat
          { c with severeReact := fld w 49 45, minorReact := fld w 44 40, threshold := if 1 ≤ t then t else c.threshold,
                   windowMs := if 1 ≤ ms ∧ ms ≤ 3600000 then ms else c.windowMs })

/-! ### Errors of stores, and data lost at rest (R129, R707 to R709) -/

/-- A context is held for data lost at rest: it is switched out and stays out; a static schedule of its job rolls back
and suspends, or leaves a multi-hub job (R709). -/
def State.holdLost (s : State) (c : Nat) : State :=
  if (s.ctx c).state = .free ∨ (s.ctx c).lostHold then s
  else
    let s := s.modCtx c fun x => { x with lostHold := true }
    let s := s.startOut c
    s.sx.foldl (fun s e =>
      let p := e.1
      if !s.scheduleRuns p || (s.sched p).ctx != c then s
      else if (s.sched p).multi then s.expel p [s.myHub]
      else s.setSched p { s.sched p with trigger := true, afterSuspend := true }) s

/-- Contexts that own, or import, a memory object that holds a byte of device memory. -/
def State.usersOf (s : State) (addr : Nat) : List Nat :=
  let objs := s.objs.filter fun e =>
    e.2.state != 0 && !e.2.host && decide (e.2.base ≤ addr) && decide (addr < e.2.base + e.2.size)
  (s.ctxs.filter fun x => x.2.state != .free && objs.any fun o =>
    o.2.owner == s.tag x.1 || x.2.imports.contains (mkHandle 3 o.2.gen o.1)).map (·.1)

/-- A line is lost at rest: Sage and Rosemary are told, and the contexts it holds up are held. (DESIGN CHOICE: log 39) -/
def State.lostAtRest (s : State) (src addr : Nat) (initiator : BitVec 16) (ctxs : List Nat) : State :=
  let s := (s.sageSend src 0x0E initiator 15 addr).rmRecord 0x23 initiator.toNat 0 (fld addr 31 0) (fld addr 51 32)
  ctxs.foldl State.holdLost s

/-- A line of memory, of a hub-store way or of a channel, is lost: its 64 KiB block is marked. (DESIGN CHOICE: log 39) -/
def State.lostMemory (s : State) (src addr : Nat) : State :=
  let b := addr / 65536
  let users := s.usersOf addr
  let s := { s with boot := { s.boot with lost := insertIdx s.boot.lost b } }
  s.lostAtRest src addr ((users.head?.map s.tag).getD 0) users

/-- The allotment of an engine that contains an address of its store. (DESIGN CHOICE: log 39) -/
def State.allotAt (s : State) (e addr : Nat) : Option Allot :=
  ((s.engine e).allots.find? fun a => decide (a.2.base * unitBytes ≤ addr) && decide (addr < (a.2.base + a.2.size) * unitBytes)).map (·.2)

/-- The partial that holds a line of a collective unit's buffer: the partials held follow one another.
(DESIGN CHOICE: log 39) -/
def partialLine : List Partial → Nat → Option Partial
  | [], _ => none
  | p :: ps, n => if n < p.lines then some p else partialLine ps (n - p.lines)

/-- Sage's source of a place. -/
def placeSrc : Sys2Proof.Place → Nat
  | .engineStore e _ => engSrc e 5
  | .way w _ _ => 0x200 + w
  | .collective u _ => 0x580 + u
  | .channel m _ => 0x300 + m

/-- PATROL_SCRUB (R705, R707, R708). (DESIGN CHOICE: log 39) -/
def execPatrolScrub (place : Sys2Proof.Place) (found : ScrubFinding) (s : State) : Host.Outcome State Fault Refusal :=
  .next (s.work <|
    let src := placeSrc place
    match found with
    | .clean => s
    | .corrected =>
      let s := match place with
        | .engineStore e _ => s.modEngine e fun x => { x with ctr := { x.ctr with storeCe := bump x.ctr.storeCe 1 } }
        | _ => s
      s.sageFail src 1
    | .recovered => s.sageFail src 2
    | .lost =>
      match place with
      | .engineStore e addr =>
        match s.allotAt e addr with
        | some a => s.lostAtRest src addr a.owner [tagCtx a.owner]
        | none => s.sageFail src 2
      | .way _ addr _ => s.lostMemory src addr
      | .channel _ addr => s.lostMemory src addr
      | .collective u line =>
        match partialLine (s.cu u).held line with
        | some p => s.lostAtRest src 0 p.owner [tagCtx p.owner]
        | none => s.sageFail src 2)

/-- STORE_SECDED_ERROR: a read of an engine store by a launch. A double error fails the launches of the context whose
allotment holds the line. (DESIGN CHOICE: log 39) -/
def execStoreSecdedError (e addr : Nat) (double : Bool) (s : State) : Host.Outcome State Fault Refusal :=
  .next (s.work <|
    let src := engSrc e 5
    if s.build.engines ≤ e then s
    else if !double then
      (s.modEngine e fun x => { x with ctr := { x.ctr with storeCe := bump x.ctr.storeCe 1 } }).sageFail src 1
    else
      match s.allotAt e addr with
      | none => s.sageFail src 2
      | some a =>
        let s := s.sageSend src 2 a.owner 15 0
        let hit := (s.engine e).slots.filter fun r => ((tfind s.launches r.2).map fun l => s.tag l.ctx == a.owner).getD false
        hit.foldl (fun s r => s.failLaunch r.2 src 2) s)

/-- PARITY_ERROR (R703): a failure of the unit; what ran through an engine's sequencer fails with it. (DEDUCED: log 38) -/
def execParityError (src : BitVec 12) (s : State) : Host.Outcome State Fault Refusal :=
  .next (s.work <|
    let n := src.toNat
    match s.srcCfg n with
    | none => s
    | some _ =>
      let s := s.sageFail n 3
      if 0x100 ≤ n ∧ n < 0x200 then
        let e := (n - 0x100) / 16
        let k := (n - 0x100) % 16
        let hit := (s.engine e).slots.filter fun r =>
          decide (4 ≤ k) || ((tfind s.launches r.2).map fun l => l.bound.contains k).getD false
        hit.foldl (fun s r => s.failLaunch r.2 n 3) s
      else s)

/-! ### Self-test (R725 to R728) -/

/-- SELFTEST_DUE. (DESIGN CHOICE: log 40) -/
def execSelftestDue (e : Nat) (s : State) : Host.Outcome State Fault Refusal :=
  .next (s.work (if (s.engine e).state = 1 ∧ !s.sage.out then
      let t := s.modEngine e fun x => { x with state := 3 }
      { t with sage := { t.sage with out := true, engine := e } }
    else s))

/-- SELFTEST_PREEMPT_TIMEOUT: launches still running are pre-empted at their next check point. (DESIGN CHOICE: log 40) -/
def execSelftestPreemptTimeout (e : Nat) (s : State) : Host.Outcome State Fault Refusal :=
  .next (s.work (if (s.engine e).state = 3 then ((s.engine e).slots.map (·.2)).foldl State.preemptLaunch s else s))

/-- The Sage source of a unit whose self-test has failed. -/
def unitSrc : UnitId → Nat
  | .engine e => engSrc e 6
  | .array i => engSrc (i / 4) (i % 4)
  | .foreign i => 0x602 + 16 * (i / 16)
  | .channel i => 0x300 + i
  | .way i => 0x200 + i
  | .fabricPort i => 0x408 + 16 * i
  | .collective i => 0x580 + i
  | .chipletPort i => 0x600 + 16 * i

/-- Is an engine the last of a rotation? (DESIGN CHOICE: log 40) -/
def State.lastEngine (s : State) (e : Nat) : Bool :=
  (List.range s.build.engines).all fun i => decide (i ≤ e) || !s.engineWorks i

/-- SELFTEST_COMPLETE. (DESIGN CHOICE: log 40) -/
def execSelftestComplete (u : UnitId) (pass : Bool) (s : State) : Host.Outcome State Fault Refusal :=
  .next (s.work <|
    let s := match u with
      | .engine e =>
        if (s.engine e).state = 3 then
          let s := s.modEngine e fun x => { x with state := 1 }
          { s with sage := { s.sage with out := false, rounds := if s.lastEngine e then (s.sage.rounds + 1) % 2 ^ 32 else s.sage.rounds } }
        else s
      | _ => s
    if pass || s.fptStatus u == 0 then s else (s.sageFail (unitSrc u) 9).retireAny u (unitSrc u) 9)

/-! ### The Warden (R720 to R722) and Sage (R723) -/

/-- The request in progress of a function is carried out by its OP (R721). -/
def State.serve (s : State) (fn : Fn) : State :=
  let op := (s.block fn).op
  let go (run : State → Fn → State) : State := s.reqBegin fn op fun s => run s fn
  match op with
  | 0x01 => go State.reqCtxCreate
  | 0x02 => go State.reqCtxDestroy
  | 0x03 => go State.reqCtxQuery
  | 0x04 => go State.reqObjCreate
  | 0x05 => go State.reqObjCreateHost
  | 0x06 => go State.reqFenceCreate
  | 0x07 => go State.reqFenceQuery
  | 0x08 => go State.reqImport
  | 0x09 => go State.reqQueueCreate
  | 0x0A => go State.reqQueueDestroy
  | 0x0B => go State.reqQueueResume
  | 0x0C => go State.reqSegMap
  | 0x0D => go State.reqSegUnmap
  | 0x0E => go State.reqSegRefuse
  | 0x0F => go State.reqUndoSet
  | 0x10 => go State.reqSegShare
  | 0x11 => go State.reqSaveSet
  | 0x12 => go State.reqCtxShare
  | 0x13 => go State.reqCtxAccount
  | 0x14 => go State.reqQueueTarget
  | 0x15 => go State.reqCertRead
  | 0x16 => go State.reqDbgKeySet
  | _ => s.reqDone fn 1 0 0

/-- WARDEN_MISMATCH: both cores reset. Debug grants end (R790). The journal remembers what had been begun. A second
mismatch within an hour drives the hub to the safe state. (DEDUCED: log 41) -/
def execWardenMismatch (s : State) : Host.Outcome State Fault Refusal :=
  .next (s.work <|
    let g := s.sage
    let second := match g.mismatchAt with
      | some t => decide (s.now < t + 3600 * 1000000000)
      | none => false
    let s := s.sageFail 0x010 8
    if second then s.safeState 0x010
    else
      let begun := s.wmb.busy && (s.wmb.phase == .prescan || s.wmb.phase == .staging || s.wmb.phase == .validating)
      { s with lc := s.lc.endGrants,
               sage := { s.sage with mismatchAt := some s.now, wardenDown := true, restarts := s.sage.restarts + 1,
                                     cutProgram := g.cutProgram || begun, cutLc := g.cutLc || (s.lc.busy && s.lc.drawWaits) } })

/-- What waited for the Warden is served: requests, schedule commands, a program, an LC command. (DEDUCED: log 41) -/
def State.serveAll (s : State) : State :=
  let s := (s.blocks.filter fun e => e.2.busy && e.2.queued).foldl (fun s e =>
    let fn := keyFn e.1
    (s.setBlock fn { s.block fn with queued := false }).serve fn) s
  let s := (s.sx.filter fun e => e.2.busy && e.2.queued).foldl (fun s e =>
    let s := s.setSched e.1 { s.sched e.1 with queued := false }
    if e.2.op = 1 then s else s.runSx e.1) s
  let s := if s.wmb.busy && s.wmb.phase == .prescan && !s.lc.busy then s.wmbScan else s
  let s := if s.lc.busy && !s.lc.drawWaits && !s.wmb.busy then s.lcRun.afterLc else s
  s.runAdmits

/-- WARDEN_RESTART_COMPLETE. (DEDUCED: log 41) -/
def execWardenRestartComplete (s : State) : Host.Outcome State Fault Refusal :=
  .next (s.work <|
    if !s.sage.wardenDown then s
    else
      let g := s.sage
      let s := ({ s with sage := { g with wardenDown := false, cutProgram := false, cutLc := false } }).rmRecord 0x31 g.restarts 0 0 0
      let s := if g.cutLc && s.lc.busy then ({ s with lc := { s.lc with challenge := none } }).lcDone 0x0B else s
      let s := if g.cutProgram && s.wmb.busy then s.wmbEnd 0x0B else s
      s.serveAll)

/-- SAGE_PARITY_ERROR. (DEDUCED: log 25) -/
def execSageParityError (s : State) : Host.Outcome State Fault Refusal := .next (s.work (s.safeState 0xF00))

/-! ### Crossings and spine links (R33, R38) -/

/-- The number of the first spine link of an island, in the order of Table 1-3. (DESIGN CHOICE: log 22) -/
def State.linkOf (s : State) (i : Island) : Nat :=
  let b := s.build
  let mem := (b.channels + 7) / 8
  let fab := b.fabricPorts / 4
  let chip := 2 * ((b.chipletPorts + 3) / 4)
  match i with
  | .engine e => e
  | .memory i => b.engines + b.ways + i
  | .fabric i => b.engines + b.ways + mem + i
  | .chiplet i => b.engines + b.ways + mem + fab + 2 * i
  | .host => b.engines + b.ways + mem + fab + chip
  | .warden => b.engines + b.ways + mem + fab + chip + 1

/-- CROSSING_TIMEOUT: the source names the island, and with it the spine. (DESIGN CHOICE: log 22; DEDUCED: log 42) -/
def execCrossingTimeout (island : Island) (s : State) : Host.Outcome State Fault Refusal :=
  .next (s.work (s.sageFail (match island with | .engine e => engSrc e 7 | i => 0x240 + s.linkOf i) 5))

/-- The outcome of a failed transfer for its requester (Table 15-2). (DEDUCED: log 42) -/
def State.transferFails (s : State) (who : Requester) (src kind : Nat) : State :=
  match who with
  | .launch a =>
    match s.inSlot a with
    | some (id, _) => s.failLaunch id src kind
    | none => s
  | .schedule p => if s.scheduleRuns p then s.schedTrigger p else s
  | .frontEnd _ => s
  | .unit => s

/-- SPINE_CRC_MISMATCH: the first is retried, the second fails the transfer. (DESIGN CHOICE: log 22; DEDUCED: log 42) -/
def execSpineCrcMismatch (link transfer : Nat) (who : Requester) (s : State) : Host.Outcome State Fault Refusal :=
  .next (s.work <|
    if s.spineRetries.contains (link, transfer) then
      (({ s with spineRetries := s.spineRetries.erase (link, transfer) }).sageFail (0x240 + link) 4).transferFails who (0x240 + link) 4
    else { s with spineRetries := s.spineRetries ++ [(link, transfer)] })

end Sys2Proof.Machine
end

