-- ==== Sys2Proof/Machine/Endpoint.lean ====
section
/-! DEFINITION. The host endpoint (chapter 14): the link and perst_n, failed and unmapped requests, Function Level Reset,
interrupts, notifications and messages between functions. -/

namespace Sys2Proof.Machine

/-! ### The link (R42, R668, R839) -/

/-- Does a row of a descriptor start in host memory that the context can reach? -/
def State.rowInHost (s : State) (c : Nat) (d : TDesc) (off r : Nat) : Bool :=
  d.space && (((s.ctx (s.tableOwner c)).findSeg (d.rowFrom off r)).map fun g => g.2.present && g.2.host).getD false

/-- Does a launch have a move between host memory and its store in flight? (DEDUCED: log 21) -/
def State.movesHost (s : State) (l : Launch) : Bool :=
  l.x.inflight.any fun f => match f.eff with
    | .move m => s.rowInHost l.ctx (TDesc.ofBits m.src) m.sos m.row || s.rowInHost l.ctx (TDesc.ofBits m.dst) m.sod m.row
    | _ => false

/-- The endpoint goes down: transfers to and from the host in flight fail and are replayed (R42, Table 15-2).
(DEDUCED: log 20, 21) -/
def State.hostDown (s : State) : State :=
  let hit := s.launches.filter fun e => (match e.2.place with | .slot .. => s.movesHost e.2 | _ => false)
  let s := hit.foldl (fun s e => s.failLaunch e.1 0x700 6) s
  { s with ep := { s.ep with down := true, width := 0, speed := 0, flit := false } }

/-- What waited for the endpoint goes on, in every context and segment without a pending segment fault. (DEDUCED: log 21) -/
def State.hostResume (s : State) : State :=
  (s.ctxs.map (·.1)).foldl (fun s c =>
    (List.range 16).foldl (fun s seg =>
      if s.segFaults.any fun f => f.ctx = c && f.seg = seg then s
      else s.segResolve { ctx := c, seg := seg, fn := .pf, va := 0, access := 0, thyme := 0 } false) s) s

/-- The registers of a VF at their reset values (R687 step 4, R692). What the hub still needs of a request in progress
stays. (PRESUMED: log 19; DEDUCED: log 20; DESIGN CHOICE: log 23) -/
def State.vfClear (s : State) (v : Nat) : State :=
  let x := s.vf v
  let b := s.block (.vf v)
  let s := s.setVf v { ({} : Vf) with bar4MiB := x.bar4MiB, resetting := x.resetting }
  let s := s.setMissq (.vf v) {}
  let s := s.setBlock (.vf v) (if b.busy then
      { ({} : ObjBlock) with arg0 := b.arg0, arg1 := b.arg1, arg2 := b.arg2, busy := true, op := b.op, curTag := b.curTag, queued := b.queued,
                             subject := b.subject, waits := b.waits, stalled := b.stalled, refusedSegs := b.refusedSegs }
    else {})
  -- the VF's inbox is empty again, so its sender is free (R686); its statement requests go with its registers
  { s with ep := { s.ep with msgs := tmod {} s.ep.msgs v fun m => { m with toBusy := false } },
           wmb := { s.wmb with stmtQueue := s.wmb.stmtQueue.filter (· ≠ v) } }

/-- The PF's registers that Table 14-4 marks W1C, and its MSI-X state (R691). Clearing VF_MSG_PENDING frees the senders.
(DEDUCED: log 20) -/
def State.pfClear (s : State) : State :=
  let freed := (List.range 64).filter fun v => bit s.ep.msgPending v
  let s := freed.foldl (fun s v => s.setVf v { s.vf v with msg := { (s.vf v).msg with toBusy := false } }) s
  { s with ep := { s.ep with int := {}, msgPending := 0, resetDone := 0, d3hot := false } }

/-- The host island's segment cache is empty, and acknowledges what it was asked (R447). (DEDUCED: log 20) -/
def State.hostCacheClear (s : State) : State :=
  { s with caches := s.caches.filter (fun k => k.who ≠ CacheId.host),
           withdrawals := tmap s.withdrawals fun _ w => { w with waiting := w.waiting.filter (· ≠ CacheId.host) } }

/-- PERST_N_ASSERT: the host island is reset, and nothing else (R42, R692). (DEDUCED: log 20) -/
def execPerstNAssert (s : State) : Host.Outcome State Fault Refusal :=
  .next (s.portWork <|
    let s := s.hostDown
    let s := (List.range 64).foldl State.vfClear s
    let s := s.pfClear.hostCacheClear
    { s with ep := { s.ep with perstCount := min (s.ep.perstCount + 1) 255, vfEnable := false, numVfs := 0, vfs := tmap s.ep.vfs fun _ x => { x with resetting := false } } })

/-- PCIE_LINK_UP: the link trains once perst_n is deasserted and ref_clk_100 is present (R698, R699, R839); what waited
for the host goes on (R42). (DEDUCED: log 21) -/
def execPcieLinkUp (speed width : Nat) (flit : Bool) (s : State) : Host.Outcome State Fault Refusal :=
  .next (s.work (if s.pw.refPresent && decide (1 ≤ speed) && decide (speed ≤ 6) && [1, 2, 4, 8, 16].contains width then
      ({ s with ep := { s.ep with down := false, speed := speed, width := width, flit := flit } }).hostResume
    else s))

/-- PCIE_LINK_DOWN. -/
def execPcieLinkDown (s : State) : Host.Outcome State Fault Refusal := .next (s.work s.hostDown)

/-! ### Requests and completions (R665 to R669) -/

/-- The endpoint receives requests: no reset, and the link up. -/
def State.linkUp (s : State) : Bool := !s.pins.por && !s.pins.sysRst && !s.ep.down

/-- (PRESUMED: log 19) -/
def execPcieUnmappedRequest (kind : PcieReq) (s : State) : Host.Outcome State Fault Refusal :=
  .next (if !s.linkUp then s
    else
      match kind with
      | .memRead => { s with out := s.out ++ [Out.completion .pf (List.replicate 4 0)] }
      | .memWrite => s
      | .atomicOp => { s with out := s.out ++ [Out.attentionUr] }
      | .io => { s with out := s.out ++ [Out.attentionUr] })

/-- POISONED_WRITE. (DESIGN CHOICE: log 22) -/
def execPoisonedWrite (s : State) : Host.Outcome State Fault Refusal :=
  .next (if !s.linkUp || s.sage.safe then s
    else ({ s with ep := { s.ep with poisoned := bump s.ep.poisoned 1 } }).sageFail 0x700 2)

/-- CPL_FAILURE: the read is issued again; the requester sees only the delay. (DESIGN CHOICE: log 22) -/
def execCplFailure (c : Nat) (addr : BitVec 64) (s : State) : Host.Outcome State Fault Refusal :=
  .next (if !s.linkUp || s.sage.safe then s
    else ({ s with ep := { s.ep with cplFailed := bump s.ep.cplFailed 1 } }).sageSend 0x700 5 (s.tag c) 15 addr.toNat)

/-- CPL_ERROR_STATUS: the line is a violation of the context that made the access. (DESIGN CHOICE: log 22) -/
def execCplErrorStatus (c : Nat) (addr : BitVec 64) (write : Bool) (s : State) : Host.Outcome State Fault Refusal :=
  .next (if !s.linkUp || s.sage.safe then s
    else s.fault c 1 { source := 0x701, access := if write then 1 else 0, address := addr.toNat })

/-! ### Function Level Reset and VF Enable (R687 to R693) -/

/-- A VF that is enabled. -/
def State.vfOn (s : State) (v : Nat) : Bool := s.ep.vfEnable && decide (v < s.ep.numVfs)

/-- Step 1: the VF stops decoding and sending, and every context created for it enters ABORTING. -/
def State.flrBegin (s : State) (v : Nat) : State :=
  if !s.vfOn v || (s.vf v).resetting then s
  else
    let s := s.setVf v { s.vf v with resetting := true }
    ((s.ctxs.filter fun e => e.2.vf = v && (e.2.state == .live || e.2.state == .lost)).map (·.1)).foldl (fun s c => s.startAbort c none) s

def execVfFlr (vf : Nat) (s : State) : Host.Outcome State Fault Refusal :=
  .next (s.work (if s.linkUp then s.flrBegin vf else s))

/-- VF_FLR_COMPLETE: steps 3 and 4, once every forced abort has completed and the request in progress has ended. -/
def execVfFlrComplete (vf : Nat) (s : State) : Host.Outcome State Fault Refusal :=
  .next (s.work <|
    if !(s.vf vf).resetting || (s.ctxs.any fun e => e.2.vf = vf && e.2.state == .aborting) || (s.block (.vf vf)).busy then s
    else
      let s := s.vfClear vf
      let s := s.setVf vf { s.vf vf with resetting := false }
      ({ s with ep := { s.ep with resetDone := s.ep.resetDone ||| 2 ^ vf } }).raise .pf 4)

/-- Every enabled VF is reset, and VF Enable is clear. (PRESUMED: log 19) -/
def State.vfsOff (s : State) : State :=
  let s := (List.range 64).foldl State.flrBegin s
  { s with ep := { s.ep with vfEnable := false } }

/-- PF_FLR. (PRESUMED: log 19) -/
def execPfFlr (s : State) : Host.Outcome State Fault Refusal :=
  .next (s.work (if s.linkUp then s.vfsOff.pfClear else s))

/-- VF_ENABLE_CLEAR. (PRESUMED: log 19) -/
def execVfEnableClear (s : State) : Host.Outcome State Fault Refusal :=
  .next (s.work (if s.linkUp then s.vfsOff else s))

/-- NUMVFS_WRITE (R693), with VF Enable. (PRESUMED: log 19) -/
def execNumvfsWrite (n : Nat) (enable : Bool) (s : State) : Host.Outcome State Fault Refusal :=
  .next (if s.linkUp then
      { s with ep := { s.ep with numVfs := if n ≤ 64 then n else s.ep.numVfs, vfEnable := s.ep.vfEnable || enable } }
    else s)

/-! ### D3hot (R664) -/

def State.setD3 (s : State) (fn : Fn) (d3 : Bool) : State :=
  match fn with
  | .pf => { s with ep := { s.ep with d3hot := d3 } }
  | .vf v => s.setVf v { s.vf v with d3hot := d3 }

def execD3hotEntry (fn : Fn) (s : State) : Host.Outcome State Fault Refusal := .next (if s.linkUp then s.setD3 fn true else s)

def execD3hotExit (fn : Fn) (s : State) : Host.Outcome State Fault Refusal := .next (if s.linkUp then s.setD3 fn false else s)

/-! ### Interrupts (R678 to R680) -/

def State.ints (s : State) : Fn → IntBlock
  | .pf => s.ep.int
  | .vf v => (s.vf v).int

def State.setInts (s : State) (fn : Fn) (b : IntBlock) : State :=
  match fn with
  | .pf => { s with ep := { s.ep with int := b } }
  | .vf v => s.setVf v { s.vf v with int := b }

/-- A vector of a function is unmasked and MSI-X enabled: it is sent if it was pending. A VF in reset sends nothing.
(DESIGN CHOICE: log 24) -/
def State.unmask (s : State) (fn : Fn) (vector : Nat) : State :=
  let b := s.ints fn
  let waits := b.pending.contains vector
  let s := s.setInts fn { b with msixEnable := true, unmasked := insertIdx b.unmasked vector, pending := b.pending.filter (· ≠ vector) }
  if waits then { s with out := s.out ++ [Out.msix fn vector] } else s

/-- MSI-X vectors of a function (Tables 14-3, 14-6). -/
def vectors : Fn → Nat
  | .pf => 16
  | .vf _ => 8

/-- MSIX_UNMASK. -/
def execMsixUnmask (fn : Fn) (vector : Nat) (s : State) : Host.Outcome State Fault Refusal :=
  .next (s.work (if s.decodes fn && decide (vector < vectors fn) then s.unmask fn vector else s))

/-- The registers of Table 14-4 answer in the safe state too (R674, R724). (DEDUCED: log 16) -/
def State.decodesBase (s : State) (fn : Fn) : Bool :=
  match fn with
  | .pf => s.linkUp && !s.ep.d3hot
  | .vf v => s.decodes (.vf v)

/-- Causes of a function (Table 14-7). -/
def causes : Fn → Nat
  | .pf => 5
  | .vf _ => 6

/-- INT_STATUS_CLEAR: a cause that hardware sets meanwhile stays set, and its vector is sent again (R679).
(DEDUCED: log 18) -/
def execIntStatusClear (fn : Fn) (v hwSet : BitVec 64) (s : State) : Host.Outcome State Fault Refusal :=
  .next (if !s.decodesBase fn then s
    else
      let b := s.ints fn
      let s := s.setInts fn { b with status := b.status - (b.status &&& (v.toNat % 2 ^ causes fn)) }
      ((List.range (causes fn)).filter fun i => bit hwSet.toNat i).foldl (fun s i => s.raise fn i) s)

/-! ### Notifications and messages (R681 to R686) -/

/-- NOTIFY_HEAD_WRITE. -/
def execNotifyHeadWrite (vf : Nat) (v : BitVec 64) (s : State) : Host.Outcome State Fault Refusal :=
  .next (
    let x := s.vf vf
    let h := v.toNat % 2 ^ 32
    if s.decodes (.vf vf) && decide (ahead32 h x.notifyTail ≤ ahead32 x.notifyHead x.notifyTail) then
      s.setVf vf { x with notifyHead := h }
    else s)

/-- NOTIFY_CTRL_WRITE. -/
def execNotifyCtrlWrite (vf : Nat) (v : BitVec 64) (s : State) : Host.Outcome State Fault Refusal :=
  .next (if !s.decodes (.vf vf) then s
    else
      let x := s.vf vf
      let w := v.toNat
      let size := if x.notifyEnable then x.notifySize else fld w 4 0
      s.setVf vf { x with notifyOverflow := x.notifyOverflow && !bit w 9, notifySize := size,
                          notifyEnable := bit w 8 && decide (9 ≤ size) && decide (size ≤ 16) })

/-- The four words of an outbox. -/
def MsgSide.copyTo (a b : MsgSide) : MsgSide := { b with inbox := (List.range 4).map fun i => (i, tget 0 a.out i) }

/-- MSG_SEND. (DESIGN CHOICE: log 23) -/
def execMsgSend (sideVf : Bool) (vf : Nat) (s : State) : Host.Outcome State Fault Refusal :=
  .next (
    let x := s.vf vf
    let m := tget {} s.ep.msgs vf
    if sideVf then
      if !s.decodes (.vf vf) then s
      else if x.msg.toBusy then s.setVf vf { x with msg := { x.msg with lost := true } }
      else
        let s := s.setVf vf { x with msg := { x.msg with toBusy := true } }
        ({ s with ep := { s.ep with msgs := tput s.ep.msgs vf (x.msg.copyTo m), msgPending := s.ep.msgPending ||| 2 ^ vf } }).raise .pf 3
    else if !s.decodes .pf || decide (64 ≤ vf) then s
    else if m.toBusy then { s with ep := { s.ep with msgs := tput s.ep.msgs vf { m with lost := true } } }
    else
      let s := { s with ep := { s.ep with msgs := tput s.ep.msgs vf { m with toBusy := true } } }
      (s.setVf vf { x with msg := { (m.copyTo x.msg) with fromValid := true } }).raise (.vf vf) 5)

/-- MSG_PENDING_CLEAR. (DESIGN CHOICE: log 23) -/
def execMsgPendingClear (sideVf : Bool) (vf : Nat) (s : State) : Host.Outcome State Fault Refusal :=
  .next (
    let x := s.vf vf
    if sideVf then
      if !s.decodes (.vf vf) || !x.msg.fromValid then s
      else
        let s := s.setVf vf { x with msg := { x.msg with fromValid := false } }
        { s with ep := { s.ep with msgs := tmod {} s.ep.msgs vf fun m => { m with toBusy := false } } }
    else if !s.decodesBase .pf || !bit s.ep.msgPending vf then s
    else
      let s := s.setVf vf { x with msg := { x.msg with toBusy := false } }
      { s with ep := { s.ep with msgPending := s.ep.msgPending - 2 ^ vf } })

end Sys2Proof.Machine
end

