-- ==== Sys2Proof/Machine/Registers.lean ====
section
/-! DEFINITION. Writes of register fields that have no behaviour of their own (R17, Table 0-5), by the register maps of
Tables 14-3 and 14-6. -/

namespace Sys2Proof.Machine

/-- A W1C bit after a write, with what hardware sets in the same cycle (R18). (DEDUCED: log 18) -/
def w1c (old : Bool) (v hw k : Nat) : Bool := (old && !bit v k) || bit hw k

/-- MSI-X table bytes of a function, 4 at a time (R666): address, data, and the mask in bit 0 of the last word.
(DESIGN CHOICE: log 24) -/
def State.msixWrite (s : State) (fn : Fn) (off v : Nat) : State :=
  let i := off / 16
  let b := s.ints fn
  let e := tget (0, 0) b.table i
  if off % 16 = 0 then s.setInts fn { b with table := tput b.table i (e.1 / 2 ^ 32 * 2 ^ 32 + v / 4 * 4, e.2) }
  else if off % 16 = 4 then s.setInts fn { b with table := tput b.table i (e.1 % 2 ^ 32 + v * 2 ^ 32, e.2) }
  else if off % 16 = 8 then s.setInts fn { b with table := tput b.table i (e.1, v) }
  else if bit v 0 then s.setInts fn { b with unmasked := b.unmasked.filter (· ≠ i) }
  else if b.msixEnable then s.unmask fn i
  else s.setInts fn { b with unmasked := insertIdx b.unmasked i }

/-- A write of 4 or 8 bytes into the MSI-X table. (DEDUCED: log 18; DESIGN CHOICE: log 24) -/
def State.msixTable (s : State) (fn : Fn) (off width v : Nat) : State :=
  if off % 4 ≠ 0 then s
  else if width = 4 then s.msixWrite fn off (v % 2 ^ 32)
  else (s.msixWrite fn off (v % 2 ^ 32)).msixWrite fn (off + 4) (v / 2 ^ 32)

/-- The object request block of a function (Tables 7-4, 7-6). -/
def State.objReg (s : State) (fn : Fn) (o : Nat) (v hw : BitVec 64) : State :=
  let b := s.block fn
  if o = 0 then s.setBlock fn { b with arg0 := v }
  else if o = 8 then s.setBlock fn { b with arg1 := v }
  else if o = 0x10 then s.setBlock fn { b with arg2 := v }
  else if o = 0x28 then
    s.setBlock fn { b with lost := w1c b.lost v.toNat hw.toNat 3, done := w1c b.done v.toNat hw.toNat 1 }
  else s

/-- MISSQ_BASE (R468). -/
def State.missqBase (s : State) (fn : Fn) (v : Nat) : State :=
  let q := s.missq fn
  if q.enable then s else s.setMissq fn { q with base := v / 4096 * 4096 }

/-- One side of a message block (Table 14-10): outbox words, and LOST. -/
def MsgSide.write (m : MsgSide) (o v hw : Nat) : MsgSide :=
  if o < 0x20 then { m with out := tput m.out (o / 8) v }
  else if o = 0x40 then { m with lost := w1c m.lost v hw 2 }
  else m

/-- The schedule block of a partition (Table 13-17). -/
def State.sxReg (s : State) (p o v hw : Nat) : State :=
  let x := s.sched p
  if o = 0 then s.setSched p { x with imageObj := BitVec.ofNat 32 (v / 2 ^ 32), imageCtx := BitVec.ofNat 32 v }
  else if o = 0x10 then s.setSched p { x with startBeat := v }
  else if o = 0x18 then s.setSched p { x with lost := w1c x.lost v hw 6, done := w1c x.done v hw 5 }
  else s

/-- An entry of the peer table (Table 8-10). -/
def Peer.write (p : Peer) (addr : Bool) (v : Nat) : Peer :=
  if addr then { p with addr := v / 4096 * 4096 }
  else { p with hubId := BitVec.ofNat 16 (fld v 63 48), slot := fld v 11 8, valid := bit v 0 }

/-- Registers of the PF that need firmware (R852). -/
def State.pfFwReg (s : State) (o : Nat) (v hw : BitVec 64) : State :=
  let n := v.toNat
  if o = 0x10000 then
    { s with wmb := { s.wmb with lost := w1c s.wmb.lost n hw.toNat 2, done := w1c s.wmb.done n hw.toNat 1 } }
  else if 0x11000 ≤ o ∧ o < 0x12000 then
    if s.wmb.busy then s else { s with wmb := { s.wmb with program := tput s.wmb.program ((o - 0x11000) / 8) n } }
  else if 0x18000 ≤ o ∧ o < 0x18000 + 0x40 * s.build.partitions ∧ o % 0x40 = 0x30 then
    let p := (o - 0x18000) / 0x40
    let x := s.part p
    if x.state ≠ 1 ∨ x.label = n then s else (s.setPart p { x with label := n }).partChanged p 0
  else if 0x51000 ≤ o ∧ o < 0x51000 + 0x100 * s.build.partitions then s.sxReg ((o - 0x51000) / 0x100) (o % 0x100) n hw.toNat
  else if 0x400000 ≤ o ∧ o < 0x401000 then s.objReg .pf (o - 0x400000) v hw
  else if 0x418000 ≤ o ∧ o < 0x418100 then
    { s with peers := tmod {} s.peers ((o - 0x418000) / 16) fun p => p.write (o % 16 = 8) n }
  else if o = 0x420000 then s.missqBase .pf n
  else s

/-- Registers of the PF that need none: message blocks, Sage, Rosemary, power, Thyme, life cycle, chiplet ports. -/
def State.pfReg (s : State) (o : Nat) (v hw : BitVec 64) : State :=
  let n := v.toNat
  let h := hw.toNat
  if 0x2000 ≤ o ∧ o < 0x4000 then
    { s with ep := { s.ep with msgs := tmod {} s.ep.msgs ((o - 0x2000) / 0x80) fun m => m.write (o % 0x80) n h } }
  else if o = 0x20048 then
    { s with sage := { s.sage with firstMore := w1c s.sage.firstMore n h 1, firstValid := w1c s.sage.firstValid n h 0 } }
  else if o = 0x30000 then { s with rm := { s.rm with clearRefused := w1c s.rm.clearRefused n h 6 } }
  else if o = 0x40008 then { s with pw := { s.pw with limitRefused := w1c s.pw.limitRefused n h 2 } }
  else if o = 0x50010 then s.thCtrl (bit n 0)
  else if o = 0x60018 then { s with lc := { s.lc with lost := w1c s.lc.lost n h 2, done := w1c s.lc.done n h 1 } }
  else if 0x60400 ≤ o ∧ o < 0x60530 then { s with lc := { s.lc with token := tput s.lc.token ((o - 0x60400) / 8) n } }
  else if 0x61000 ≤ o ∧ o < 0x61800 then { s with lc := { s.lc with data := tput s.lc.data ((o - 0x61000) / 8) n } }
  else if o = 0x70000 then
    { s with lc := { s.lc with dbgSpace := fld n 55 52, dbgEngine := fld n 51 48, dbgBase := fld n 43 15 } }
  else if 0x100000 ≤ o ∧ o < 0x100000 + 0x20000 * s.build.chipletPorts ∧ (o - 0x100000) % 0x20000 = 0x10 then
    let c := (o - 0x100000) / 0x20000
    s.setCp c { s.cp c with exclusive := bit n 0 }
  else if s.fwRuns then s.pfFwReg o v hw
  else s

/-- Registers of a VF (Table 14-6). -/
def State.vfReg (s : State) (vf o : Nat) (v hw : BitVec 64) : State :=
  let n := v.toNat
  let x := s.vf vf
  if o = 0x18 then if x.notifyEnable then s else s.setVf vf { x with notifyBase := n / 4096 * 4096 }
  else if 0x1000 ≤ o ∧ o < 0x1048 then s.setVf vf { x with msg := x.msg.write (o - 0x1000) n hw.toNat }
  else if 0x2000 ≤ o ∧ o < 0x2020 then
    s.setVf vf { x with stmt := { x.stmt with nonce := tput x.stmt.nonce ((o - 0x2000) / 8) n } }
  else if 0x4000 ≤ o ∧ o < 0x5000 then s.objReg (.vf vf) (o - 0x4000) v hw
  else if o = 0x5000 then s.missqBase (.vf vf) n
  else if 0x6000 ≤ o ∧ o < 0x6040 then
    s.setVf vf { x with aps := tmod {} x.aps ((o - 0x6000) / 16) fun a =>
      if o % 16 = 0 then { a with ctx := BitVec.ofNat 32 n } else { a with vbase := n % 2 ^ 32 } }
  else s

/-- A write of 8 bytes to a register of BAR0; fewer are ignored, except in an MSI-X table (R666). VF_RESET_DONE is one of
the registers of Table 14-4, which answer in the safe state too. (DEDUCED: log 18) -/
def State.regWrite (s : State) (fn : Fn) (o width : Nat) (v hw : BitVec 64) : State :=
  let msix := match fn with | .pf => 0x4000 | .vf _ => 0x8000
  if msix ≤ o ∧ o < msix + 16 * vectors fn then
    if s.decodes fn then s.msixTable fn (o - msix) width v.toNat else s
  else if width ≠ 8 ∨ o % 8 ≠ 0 then s
  else if !s.decodesBase fn then s
  else
    match fn with
    | .pf =>
      if o = 0x1010 then
        let clear := s.ep.resetDone - (s.ep.resetDone &&& v.toNat)
        { s with ep := { s.ep with resetDone := clear ||| hw.toNat } }
      else if s.up then s.pfReg o v hw
      else s
    | .vf k => s.vfReg k o v hw

/-- REGISTER_WRITE: registers lie in BAR0; the doorbell pages, BAR4 and the registers that start something have commands
of their own, and everything else is RSVD (R22, R665). -/
def execRegisterWrite (fn : Fn) (bar off width : Nat) (v hwSet : BitVec 64) (s : State) : Host.Outcome State Fault Refusal :=
  .next (if bar = 0 then s.regWrite fn off width v hwSet else s)

end Sys2Proof.Machine
end

