-- ==== Sys2Proof/Machine/Power.lean ====
section
/-! DEFINITION. Power, clocks and thermal control (chapter 18), and the regulator and sensor pins (chapter 1). -/

namespace Sys2Proof.Machine

/-! ### Regulators (R43, R44, R810 to R815, R827 to R830) -/

/-- Domains of a build (Table 18-1). -/
def State.hasDomain (s : State) (d : Nat) : Bool := decide (d < s.build.engines) || (decide (16 ≤ d) && decide (d ≤ 21))

/-- A schedule that waits for its pinned point votes once the point is reached (R815). -/
def State.votesIfPinned (s : State) : State := s.sx.foldl (fun s e => s.voteIfPinned e.1) s

/-- IVR_PG_LOSS: an engine is retired and its work replayed; any other domain resets the hub (R43). (DEDUCED: log 25) -/
def execIvrPgLoss (d : Nat) (s : State) : Host.Outcome State Fault Refusal :=
  .next (s.work (if d < s.build.engines then
      let s := s.setDomain d { s.domain d with pg := false }
      (s.sageFail (0x020 + d) 0x0A).retireUnit (.engine d) (0x020 + d) 0x0A
    else if s.hasDomain d then s.selfReset
    else s))

/-- IVR_ACK. -/
def execIvrAck (d : Nat) (s : State) : Host.Outcome State Fault Refusal :=
  .next (s.work (if s.hasDomain d then (s.settled d).votesIfPinned else s))

/-- IVR_ACK_TIMEOUT: the change is withdrawn, the island stays at its previous code, and nothing is asked of the domain
for 10 ms (R44, R812). (DESIGN CHOICE: log 28) -/
def execIvrAckTimeout (d : Nat) (s : State) : Host.Outcome State Fault Refusal :=
  .next (s.work <|
    let x := s.domain d
    if !x.pending || x.relocking then s
    else
      (s.setDomain d { x with pending := false, waiting := none, reqVid := (s.engine d).vid, holdOff := s.now + 10 * nsPerMs }).sageFail
        (0x020 + d) 0x0A)

/-- IVR_OC_ASSERT (R830). (DESIGN CHOICE: log 28) -/
def execIvrOcAssert (d : Nat) (s : State) : Host.Outcome State Fault Refusal :=
  .next (s.work <|
    if !s.hasDomain d then s
    else
      let s := (s.setDomain d { s.domain d with oc := true }).sageFail (0x020 + d) 0x0A
      if d < s.build.engines ∧ !(s.engine d).pinned then s.setPoint d (max 400 ((s.engine d).freq - 100)) else s)

/-- DROOP: counted and reported; an engine island halves its clock (R827 to R829). (DESIGN CHOICE: log 28) -/
def execDroop (d : Nat) (s : State) : Host.Outcome State Fault Refusal :=
  .next (s.work <|
    if !s.hasDomain d then s
    else
      let s := ({ s with pw := { s.pw with droops := bump s.pw.droops 1 } }).sageFail (0x020 + d) 0x0A
      if d < s.build.engines then s.modEngine d fun x => { x with halved := true } else s)

/-- DROOP_RECOVERY (R827). -/
def execDroopRecovery (d : Nat) (s : State) : Host.Outcome State Fault Refusal :=
  .next (s.work (if d < s.build.engines then s.modEngine d fun x => { x with halved := false } else s))

/-- PLL_RELOCK_COMPLETE (R810). -/
def execPllRelockComplete (e : Nat) (s : State) : Host.Outcome State Fault Refusal :=
  .next (s.work (s.relocked e).votesIfPinned)

/-- ENGINE_IDLE_TIMEOUT (R813). -/
def execEngineIdleTimeout (e : Nat) (s : State) : Host.Outcome State Fault Refusal :=
  .next (s.work (if (s.engine e).slots.isEmpty ∧ !(s.engine e).pinned ∧ e < s.build.engines then s.setPoint e 400 else s))

/-! ### Reference clocks (R801 to R808) -/

/-- A reference has been selected: every PLL locks, every island is clocked and supplied (Table 18-1), and Rosemary
begins reading the record store (Table 19-1 steps 2 and 3). (DESIGN CHOICE: log 32) -/
def State.clocked (s : State) : State :=
  let domains : Table Domain :=
    (List.range s.build.engines).map (fun e => (e, { s.domain e with pg := true, vid := 0x46, reqVid := 0x46 }))
      ++ [16, 17, 18, 19, 20].map (fun d => (d, { s.domain d with pg := true, vid := 0x46, reqVid := 0x46 }))
      ++ [(21, { s.domain 21 with pg := true, vid := 0x3C, reqVid := 0x3C })]
  { s with pw := { s.pw with domains := domains }, boot := { s.boot with step := 3 },
           rm := ({ s.rm with waiting := readUnit 0 .bringUp :: s.rm.waiting }).pump }

/-- REF_CLOCK_SELECT (R802). -/
def execRefClockSelect (s : State) : Host.Outcome State Fault Refusal :=
  .next (s.work (if s.boot.step = 1 then
      ({ s with pw := { s.pw with refPresent := true, clkSource := 0, clkActive := 0 } }).clocked
    else s))

/-- FAB_REC_CLOCK_SELECT (R803). -/
def execFabRecClockSelect (port : Nat) (s : State) : Host.Outcome State Fault Refusal :=
  .next (s.work (if s.boot.step = 1 ∧ !s.pw.refPresent ∧ s.hasPort port then
      ({ s with pw := { s.pw with recLocked := true, recPort := port, clkPort := port, clkSource := 1, clkActive := 1 } }).clocked
    else s))

/-- NO_REFERENCE_TIMEOUT (R804). -/
def execNoReferenceTimeout (s : State) : Host.Outcome State Fault Refusal :=
  .next (s.work (if s.boot.step = 1 then s.sageFail 0x060 0x0B else s))

/-- REF_CLOCK_LOSS: the PLLs move to the other locked source, or hold (R806). Loss of ref_clk_100 takes the PCIe link
down (R808). (DEDUCED: log 21, 30) -/
def execRefClockLoss (s : State) : Host.Outcome State Fault Refusal :=
  .next (s.work <|
    let p := s.pw
    if p.clkActive = 0 then
      ({ s with pw := { p with refPresent := false, clkActive := if p.clkFallback && p.recLocked then 1 else 3 } }).hostDown
    else if p.clkActive = 1 then
      { s with pw := { p with recLocked := false, clkActive := if p.clkFallback && p.refPresent then 0 else 3 } }
    else s)

/-- HOLDOVER_TIMEOUT (R807). (DEDUCED: log 30) -/
def execHoldoverTimeout (s : State) : Host.Outcome State Fault Refusal :=
  .next (s.work (if s.pw.clkActive = 3 then s.safeState 0x060 else s))

/-- CLOCK_SOURCE_LOCK: a source gains lock, and a holdover ends with it (R807). (DEDUCED: log 30) -/
def execClockSourceLock (src : ClockSource) (s : State) : Host.Outcome State Fault Refusal :=
  .next (s.work <|
    let p := s.pw
    let active (k : Nat) : Nat := if p.clkActive = 3 then k else p.clkActive
    match src with
    | .ref => { s with pw := { p with refPresent := true, clkActive := active 0 } }
    | .fab port =>
      if s.hasPort port && port == p.clkPort then
        { s with pw := { p with recLocked := true, recPort := port, clkActive := active 1 } }
      else s)

/-- CLK_CTRL_WRITE: a write that names a source without lock is ignored (R805). (DEDUCED: log 30) -/
def execClkCtrlWrite (v : BitVec 64) (s : State) : Host.Outcome State Fault Refusal :=
  .next (if !s.decodes .pf then s
    else
      let p := s.pw
      let w := v.toNat
      let port := fld w 12 8
      let fab := bit w 0
      let sameLock := p.recLocked && p.recPort == port
      if (if fab then sameLock else p.refPresent) then
        { s with pw := { p with clkPort := port, clkFallback := bit w 1, clkSource := flag fab 0, recLocked := sameLock,
                                clkActive := if p.clkActive = 2 then 2 else flag fab 0 } }
      else s)

/-! ### Temperature (R45, R831 to R834) -/

/-- A valid code of a sensor. -/
def Power.sense (p : Power) (sensor code : Nat) : Power :=
  { p with codes := tput p.codes sensor code, valid := if bit p.valid sensor then p.valid else p.valid + 2 ^ sensor }

/-- The hub trips (R831). (DEDUCED: log 29) -/
def State.trip (s : State) (sensor : Nat) : State := s.safeState (0x040 + sensor)

/-- TS_VALID_TIMEOUT: the sensor counts as reading 2,047, which lies above TRIP (R45). (DEDUCED: log 29) -/
def execTsValidTimeout (sensor : Nat) (s : State) : Host.Outcome State Fault Refusal :=
  .next (s.work (if sensor < 32 then
      ({ s with pw := { s.pw with valid := if bit s.pw.valid sensor then s.pw.valid - 2 ^ sensor else s.pw.valid } }).trip sensor
    else s))

/-- THERMAL_TRIP. -/
def execThermalTrip (sensor : Nat) (code : BitVec 11) (s : State) : Host.Outcome State Fault Refusal :=
  .next (s.work (if sensor < 32 ∧ s.pw.trip ≤ code.toNat then
      ({ s with pw := s.pw.sense sensor code.toNat }).trip sensor
    else s))

/-- THERMAL_EMERGENCY (R832). (DESIGN CHOICE: log 28) -/
def execThermalEmergency (sensor : Nat) (code : BitVec 11) (s : State) : Host.Outcome State Fault Refusal :=
  .next (s.work <|
    if 32 ≤ sensor ∨ code.toNat < s.pw.emerg ∨ s.pw.emergency then s
    else
      let p := s.pw.sense sensor code.toNat
      let s := { s with pw := { p with emergency := true, emergencies := bump p.emergencies 1 } }
      let s := (List.range s.build.engines).foldl (fun s e => (s.modEngine e fun x => { x with pinned := false }).setPoint e 400) s
      let s := s.sx.foldl (fun s e =>
        if s.scheduleRuns e.1 then s.setSched e.1 { s.sched e.1 with powerHeld := 0, trigger := true } else s) s
      (s.sageFail (0x040 + sensor) 0x0C).rmRecord 0x60 sensor code.toNat 0 0)

/-- THERMAL_EMERGENCY_END: reservations and pins are restored (R833). (DESIGN CHOICE: log 28) -/
def execThermalEmergencyEnd (s : State) : Host.Outcome State Fault Refusal :=
  .next (s.work <|
    if !s.pw.emergency then s
    else
      let s := { s with pw := { s.pw with emergency := false } }
      s.sx.foldl (fun s e =>
        if s.scheduleRuns e.1 then
          let x := s.sched e.1
          (s.setSched e.1 { x with powerHeld := (s.myPart e.1).power }).pinAll x.engines x.header.clockMhz
        else s) s)

/-! ### The control interval (R816 to R826) -/

/-- Picojoules in one interval of 100 µs at 0.25 W. (DESIGN CHOICE: log 26) -/
def quarterPj : Nat := 25000000

/-- Voltage of a code, in mV (Table 1-5). -/
def voltMv (vid : Nat) : Nat := 400 + 5 * vid

/-- Energy of an engine in the interval just ended, in picojoules. (DESIGN CHOICE: log 26) -/
def drawOf (energy : List (Nat × Nat)) (e : Nat) : Nat := ((energy.filter fun p => p.1 = e).map (·.2)).sum

/-- Draw of engines predicted at a frequency, in picojoules of one interval, rounded up (R821). (DESIGN CHOICE: log 26) -/
def State.predict (s : State) (energy : List (Nat × Nat)) (es : List Nat) (f : Nat) : Nat :=
  (es.map fun e =>
    let x := s.engine e
    let d := x.freq * voltMv x.vid ^ 2
    (drawOf energy e * (f * voltMv (vidOf f) ^ 2) + d - 1) / d).sum

/-- Water-filling (R820): partition, power share and prediction of each; the allotments, and what is left when all are
satisfied. -/
def waterFill : Nat → Nat → List (Nat × Nat × Nat) → List (Nat × Nat) × Nat
  | 0, pool, _ => ([], pool)
  | fuel + 1, pool, parts =>
    let total := (parts.map fun p => p.2.1).sum
    match parts.filter fun p => decide (p.2.2 * total < pool * p.2.1) with
    | [] => (parts.map fun p => (p.1, pool * p.2.1 / max total 1), if parts.isEmpty then pool else 0)
    | sat =>
      let r := waterFill fuel (pool - (sat.map fun p => p.2.2).sum) (parts.filter fun p => !sat.contains p)
      (sat.map (fun p => (p.1, p.2.2)) ++ r.1, r.2)

/-- Operating points of Table 18-2 (R809), highest first. -/
def points : List Nat := ((List.range 35).map fun i => 400 + 25 * i).reverse

/-- The point and the throttle step of a pooled partition with an allotment (R821, R823). -/
def State.partPoint (s : State) (energy : List (Nat × Nat)) (es : List Nat) (allot : Nat) : Nat × Nat :=
  if s.pw.emergency then
    (400, if s.predict energy es 400 ≤ allot then 0
          else (([7, 6, 5, 4, 3, 2].find? fun k => decide (s.predict energy es 400 * k ≤ 8 * allot)).getD 1))
  else
    match points.find? fun f => decide (f ≤ s.pw.fmaxEff) && decide (s.predict energy es f ≤ allot) with
    | some f => (f, 0)
    | none => (400, (([7, 6, 5, 4, 3, 2].find? fun k => decide (s.predict energy es 400 * k ≤ 8 * allot)).getD 1))

/-- An engine is moved towards a point: at most 100 MHz up in one interval; an idle engine stays at 400 MHz until a
launch is dispatched to it (R813, R822). -/
def State.moveTo (s : State) (e f throttle : Nat) : State :=
  let x := s.engine e
  let s := s.modEngine e fun x => { x with throttle := throttle }
  if x.pinned || (x.slots.isEmpty && x.freq == 400) then s
  else
    let f := if x.freq < f then min f (x.freq + 100) else f
    if f = x.freq then s else s.setPoint e f

/-- Energy added to a context, as a fraction of picojoules (R512, R826). -/
def Account.addEnergy (a : Account) (num den : Nat) : Account :=
  let n := a.energyNum * den + num * a.energyDen
  let d := a.energyDen * den
  let r := n % (d * 1000000000)
  let g := Nat.gcd r d
  { a with energyMj := bump a.energyMj (n / (d * 1000000000)), energyNum := r / g, energyDen := d / g }

/-- The energy estimate of an engine is added to its counter and divided among its slots in proportion to w (R512).
(DESIGN CHOICE: log 26) -/
def State.addEnergy (s : State) (e pj : Nat) : State :=
  let s := s.modEngine e fun x =>
    let n := x.ctr.energyRem + pj
    { x with ctr := { x.ctr with energyUj := bump x.ctr.energyUj (n / 1000000), energyRem := n % 1000000 } }
  let held := (s.engine e).slots.filterMap fun r => (tfind s.launches r.2).map fun l => (l.ctx, max l.bound.length 1)
  let total := (held.map (·.2)).sum
  held.foldl (fun s p => s.modCtx p.1 fun x => { x with acct := x.acct.addEnergy (pj * p.2) total }) s

/-- The readings of the sensors, and PWR_FMAX in effect (R831). -/
def Power.readSensors (p : Power) (sensors : List (Nat × BitVec 11)) : Power :=
  let known := sensors.filter fun r => decide (r.1 < 32)
  let p := known.foldl (fun p r => p.sense r.1 r.2.toNat) { p with valid := 0 }
  let hot := known.foldl (fun m r => max m r.2.toNat) 0
  let eff := if p.warn < hot then max 400 (p.fmaxEff - 25)
    else if hot + 40 ≤ p.warn then min p.fmax (p.fmaxEff + 25) else min p.fmax p.fmaxEff
  { p with fmaxEff := eff }

/-- Open partitions of a kind. -/
def State.openParts (s : State) (static : Bool) : List (Nat × Part) :=
  s.units.parts.filter fun e => e.2.state != 0 && e.2.static == static

/-- A static partition's draw above its share is counted and reported; it is never throttled (R824). (DEDUCED: log 31) -/
def State.staticDraw (s : State) (energy : List (Nat × Nat)) (p : Nat) : State :=
  let x := s.part p
  let draw := (x.engines.map (drawOf energy)).sum
  let s := { s with pw := { s.pw with allotted := tput s.pw.allotted p x.power, partEstimate := tput s.pw.partEstimate p (draw / quarterPj) } }
  let s := x.engines.foldl (fun s e => s.modEngine e fun y => { y with throttle := 0 }) s
  if x.power * quarterPj < draw then
    ({ s with pw := { s.pw with staticExcessUs := bump s.pw.staticExcessUs 100 } }).sageFail 0x011 0x0F
  else s

/-- A pooled partition takes its allotment: its engines move to its point. -/
def State.pooledPoint (s : State) (energy : List (Nat × Nat)) (p allot : Nat) : State :=
  let es := (s.part p).engines.filter s.engineWorks
  let draw := (es.map (drawOf energy)).sum
  let point := s.partPoint energy es allot
  let below := decide (point.1 < s.pw.fmax) && !es.isEmpty
  let s := { s with pw := { s.pw with allotted := tput s.pw.allotted p (allot / quarterPj), throttling := s.pw.throttling || below,
                                      partEstimate := tput s.pw.partEstimate p (draw / quarterPj) } }
  es.foldl (fun s e => s.moveTo e point.1 point.2) s

/-- POWER_INTERVAL. The energy of each engine comes as its estimator's sum over the interval, in picojoules.
(DESIGN CHOICE: log 26, 27; DEDUCED: log 31) -/
def execPowerInterval (sensors : List (Nat × BitVec 11)) (energy : List (Nat × Nat)) (s : State) :
    Host.Outcome State Fault Refusal :=
  .next (s.work <|
    let energy := energy.filter fun r => s.engineWorks r.1
    let s := { s with pw := { s.pw.readSensors sensors with throttling := false } }
    let s := energy.foldl (fun s r => s.addEnergy r.1 r.2) s
    let static := s.openParts true
    let pooled := s.openParts false
    let s := static.foldl (fun s e => s.staticDraw energy e.1) s
    let reserved := if s.pw.emergency then 0 else (static.map fun e => e.2.power).sum
    let held := s.units.parts.flatMap fun e => e.2.engines
    let loose := (List.range s.build.engines).filter fun e => !held.contains e
    let excess := Config.excess s.now
    let pool := s.engineBudget * quarterPj - excess - reserved * quarterPj - (loose.map (drawOf energy)).sum
    let asks := (pooled.filter fun e => e.2.power != 0).map fun e => (e.1, e.2.power, s.predict energy (e.2.engines.filter s.engineWorks) s.pw.fmaxEff)
    let filled := waterFill 17 pool asks
    let poor := (pooled.filter fun e => e.2.power == 0).map (·.1)
    let s := filled.1.foldl (fun s a => s.pooledPoint energy a.1 a.2) s
    let s := poor.foldl (fun s p => s.pooledPoint energy p (filled.2 / max poor.length 1)) s
    let s := (loose.filter s.engineWorks).foldl (fun s e =>
      if (s.engine e).pinned ∨ (s.engine e).freq = 400 then s else s.setPoint e 400) s
    let total := (energy.map (·.2)).sum
    { s with pw := { s.pw with estimate := nonEngine s.build + (total + excess) / quarterPj,
                               throttleUs := if s.pw.throttling then bump s.pw.throttleUs 100 else s.pw.throttleUs } })

/-! ### Registers (R818, R836) -/

/-- PWR_LIMIT_WRITE. -/
def execPwrLimitWrite (v : BitVec 64) (s : State) : Host.Outcome State Fault Refusal :=
  .next (if !s.decodes .pf then s
    else
      let n := fld v.toNat 15 0
      let shares := ((s.units.parts.filter fun e => e.2.state != 0).map fun e => e.2.power).sum
      if n < 1000 ∨ 2480 < n then s
      else if n < nonEngine s.build + shares then { s with pw := { s.pw with limitRefused := true } }
      else { s with pw := { s.pw with limit := n } })

/-- PWR_FMAX_WRITE. -/
def execPwrFmaxWrite (v : BitVec 64) (s : State) : Host.Outcome State Fault Refusal :=
  .next (if !s.decodes .pf then s
    else
      let n := fld v.toNat 10 0
      if n < 400 ∨ 1250 < n ∨ n % 25 ≠ 0 then s
      else { s with pw := { s.pw with fmax := n, fmaxEff := if s.pw.fmaxEff = s.pw.fmax then n else min n s.pw.fmaxEff } })

/-- THERM_LIMITS_WRITE. (DEDUCED: log 31) -/
def execThermLimitsWrite (v : BitVec 64) (s : State) : Host.Outcome State Fault Refusal :=
  .next (if !s.decodes .pf then s
    else
      let emerg := fld v.toNat 26 16
      let warn := fld v.toNat 10 0
      if emerg ≤ warn ∨ s.pw.trip ≤ emerg ∨ s.pw.trip ≤ warn then s
      else { s with pw := { s.pw with emerg := emerg, warn := warn } })

end Sys2Proof.Machine
end

