-- ==== Sys2Proof/Machine/Boot.lean ====
section
/-! DEFINITION. Bring-up, the Floor Plan Table and firmware (chapter 19). -/

namespace Sys2Proof.Machine

/-! ### The Floor Plan Table (R841 to R845) -/

/-- Is a unit marked bad by the defect map (Table 19-2)? -/
def State.fuseBad (s : State) (u : UnitId) : Bool :=
  let w (a : Nat) : Nat := tget 0 s.lc.otp a
  match u with
  | .engine e => bit (w 0x100) e
  | .array i => bit (w (0x101 + i / 32)) (i % 32)
  | .way i => bit (w 0x103) i
  | .channel i => bit (w 0x104) i
  | .fabricPort i => bit (w 0x105) i
  | .chipletPort i => bit (w 0x10B) i
  | .collective i => bit (w 0x10C) i
  | .foreign _ => false

/-- P0 of a record that names a unit (Table 16-4). -/
def unitCode (u : UnitId) : Nat := unitType u * 2 ^ 24 + unitIdx u

/-- Does the forever area hold a record of a code for a unit? -/
def State.everRecorded (s : State) (code : Nat) (u : UnitId) (p1 : Option Nat) : Bool :=
  s.rm.forever.any fun r => r.code == code && r.p0 == unitCode u && (p1.getD r.p1) == r.p1

/-- STATUS of a unit at composition: disabled by fuse, by self-test or by both, or retired in an earlier power cycle.
(DEDUCED: log 33) -/
def State.unitVerdict (s : State) (failed : List UnitId) (u : UnitId) : Nat :=
  match s.fuseBad u, failed.contains u with
  | true, true => 6
  | true, false => 4
  | false, true => 5
  | false, false => if s.everRecorded 0x20 u none then 8 else 1

/-- Working arrays of an engine at composition. -/
def State.arraysAt (s : State) (failed : List UnitId) (e : Nat) : List Nat :=
  (List.range s.build.arrays).filter fun a => s.unitVerdict failed (.array (4 * e + a)) == 1

/-- STATUS of an engine: one with no working array is itself disabled (R841). (DEDUCED: log 33) -/
def State.engineVerdict (s : State) (failed : List UnitId) (e : Nat) : Nat :=
  let own := s.unitVerdict failed (.engine e)
  let n := (s.arraysAt failed e).length
  if own ≠ 1 then own
  else if n = s.build.arrays then 1
  else if n ≠ 0 then 2
  else
    let all := (List.range s.build.arrays).map fun a => s.unitVerdict failed (.array (4 * e + a))
    let fuse := all.any fun v => v == 4 || v == 6
    let test := all.any fun v => v == 5 || v == 6
    if fuse && test then 6 else if fuse then 4 else if test then 5 else 8

/-- Every unit of the size table, in the order of Table 19-3. -/
def sizeUnits (b : Build) : List UnitId :=
  (List.range b.engines).map UnitId.engine ++ (List.range (16 * b.chipletPorts)).map UnitId.foreign
    ++ (List.range b.channels).map UnitId.channel ++ (List.range b.ways).map UnitId.way
    ++ (List.range b.fabricPorts).map UnitId.fabricPort
    ++ ((List.range b.engines).flatMap fun e => (List.range b.arrays).map fun a => UnitId.array (4 * e + a))
    ++ (List.range (b.fabricPorts / 4)).map UnitId.collective ++ (List.range b.chipletPorts).map UnitId.chipletPort

/-- The entry of a unit at composition (Tables 19-3, 19-5). (DEDUCED: log 33) -/
def State.composeEntry (s : State) (failed : List UnitId) (channels : Nat) (u : UnitId) : FptEntry :=
  let v := s.unitVerdict failed u
  let st : Nat := match u with
    | .engine e => s.engineVerdict failed e
    | .foreign _ => 3
    | .fabricPort p => if v ≠ 1 then v else if s.sparePort p then 10 else 9
    | .chipletPort _ => if v ≠ 1 then v else 9
    | _ => v
  let detail : Nat := match u with
    | .engine e => (s.arraysAt failed e).length * 256 + s.build.storeMiB
    | .channel _ => if st = 1 then s.build.channelMiB - Build.privateShare channels else 0
    | .way _ => 4
    | _ => 0
  { type := unitType u, status := st, index := unitIdx u, detail := detail }

/-- Units that self-test examines (Table 19-4). -/
def selfTested : UnitId → Bool
  | .engine _ | .channel _ | .way _ | .array _ | .collective _ => true
  | _ => false

/-- DEFECT_DISAGREE of a unit, once (R842). -/
def State.disagree (s : State) (failed : List UnitId) (u : UnitId) : State :=
  let fuse := s.fuseBad u
  let test := failed.contains u
  let p1 := flag fuse 0 + flag test 1
  if fuse == test || !selfTested u || s.everRecorded 0x21 u (some p1) then s else s.rmRecord 0x21 (unitCode u) p1 0 0

/-- The free pools hold every working unit of the table, and the reserve is empty (R864). (DEDUCED: log 33) -/
def State.poolsFromFpt (s : State) : State :=
  let working (t : Nat) : List Nat := (s.boot.fpt.filter fun f => f.type = t && (f.status = 1 || f.status = 2)).map (·.index)
  { s with units := { s.units with freeEngines := working 1, freeForeign := working 2, freeChannels := working 3, freeWays := working 4,
                                   reserveEngines := [], reserveForeign := [], reserveWays := [] } }

/-- FPT_COMPOSE: Table 19-1 step 5, or the safe state when a part of the spine, Warden, Sage or host island has failed
self-test (R840). Fabric ports then train without waiting for firmware (R846).
(DESIGN CHOICE: log 32; DEDUCED: log 33) -/
def execFptCompose (failed : List UnitId) (core : Option (BitVec 12)) (s : State) : Host.Outcome State Fault Refusal :=
  .next (s.work <|
    if s.boot.step ≠ 3 then s
    else if let some src := core then s.safeState src.toNat
    else
      let us := sizeUnits s.build
      let channels := ((List.range s.build.channels).filter fun c => s.unitVerdict failed (.channel c) == 1).length
      let fpt := us.map (s.composeEntry failed channels)
      let engines : Table Engine := (List.range s.build.engines).map fun e =>
        (e, { ({} : Engine) with state := if s.engineVerdict failed e ≤ 2 then 1 else 0,
                                  arrayRetired := (List.range s.build.arrays).filter fun a => !(s.arraysAt failed e).contains a })
      let cus : Table Cu := (List.range (s.build.fabricPorts / 4)).map fun u =>
        (u, { ({} : Cu) with state := if s.unitVerdict failed (.collective u) = 1 then 1 else 0 })
      let t := us.foldl (fun t u => t.disagree failed u) s
      let t := { t with engines := engines, fab := { t.fab with cus := cus },
                        boot := { t.boot with step := 5, fpt := fpt, generation := 1, composed := t.now },
                        sage := { t.sage with pin := if t.sage.pin = 0 then 1 else t.sage.pin, ringReady := decide (0 < channels) } }
      (List.range t.build.fabricPorts).foldl State.trainPort t.poolsFromFpt)

/-! ### Requests of the host (R854 to R858) -/

/-- BOOT_REQ_SAMPLE: a new request is taken once no load is in progress. (DESIGN CHOICE: log 34) -/
def execBootReqSample (s : State) : Host.Outcome State Fault Refusal :=
  .next (s.work <|
    let b := s.boot
    if !s.stagingUp || s.sage.wardenDown || b.reqSeq == 0 || b.reqSeq == b.statSeq || b.taken.isSome || b.fwState == 1 || b.fwState == 2 then s
    else { s with boot := { b with taken := some (b.reqSeq, b.reqOp) } })

/-- A request ends with a code. -/
def Boot.answer (b : Boot) (seq code : Nat) : Boot := { b with taken := none, statSeq := seq, code := code }

/-- The request taken is carried out when it is of this kind. -/
def State.onBoot (s : State) (op : Nat → Bool) (act : Nat → Boot → State) : State :=
  match s.boot.taken with
  | some (seq, k) => if op k then act seq s.boot else s
  | none => s

/-- LENGTH of an image (R848). -/
def imageLength (n : Nat) : Bool := n % 8 == 0 && decide (4096 ≤ n) && decide (n ≤ 32505856)

/-- BOOT_LOAD (R856): the whole image is in the buffer, so its last byte is held at once. (DESIGN CHOICE: log 34) -/
def execBootLoad (s : State) : Host.Outcome State Fault Refusal :=
  .next (s.work <| s.onBoot (· == 1) fun seq b =>
    if b.fwState = 3 then { s with boot := b.answer seq 6 }
    else if !imageLength b.len then { s with boot := b.answer seq 1 }
    else
      { s with boot := { b.answer seq 0 with fwState := 2, source := 0, total := 0, held := [], loadLen := b.len, chunks := [], srcHub := 0 } })

/-- Chunks of an image. -/
def chunksOf (len : Nat) : Nat := ceilDiv len 4096

/-- FW_CHUNK or FW_ACK to the peer of a port (Table 19-9). -/
def State.fwMsg (s : State) (type p loadId chunk len : Nat) : OfpMsg :=
  { s.ofp type (s.fp p).peerHub 0 with
    f10 := BitVec.ofNat 64 loadId, f18 := BitVec.ofNat 64 (chunk % 2 ^ 32 * 2 ^ 32 + len % 2 ^ 32) }

/-- A chunk is sent on a port whose peer has not refused the load. -/
def State.sendChunk (s : State) (p loadId chunk len : Nat) (bytes : List Byte) : State :=
  if (s.fp p).state ≠ .active ∨ s.boot.refusedBy.contains (loadId, p) then s
  else
    s.e2eSend { dst := (s.fp p).peerHub, seq := 0, msg := msgData (s.fwMsg 6 p loadId chunk len) bytes, port := some p }

/-- Bytes of the FW_DIGEST that name a load. -/
def loadIdOf (digest : List Byte) : Nat := leAt digest 0 8

/-- BOOT_BROADCAST (R858). (DESIGN CHOICE: log 34) -/
def execBootBroadcast (s : State) : Host.Outcome State Fault Refusal :=
  .next (s.work <| s.onBoot (· == 2) fun seq b =>
    if b.fwState ≠ 3 then { s with boot := b.answer seq 6 }
    else
      let len := b.running.length
      let id := loadIdOf b.digest
      let t := { s with boot := { b.answer seq 0 with refusedBy := b.refusedBy.filter fun r => r.1 ≠ id } }
      (List.range t.build.fabricPorts).foldl (fun t p =>
        (List.range (chunksOf len)).foldl (fun t i => t.sendChunk p id i len ((b.running.drop (4096 * i)).take 4096)) t) t)

/-- BOOT_UNKNOWN_OP. -/
def execBootUnknownOp (s : State) : Host.Outcome State Fault Refusal :=
  .next (s.work <| s.onBoot (fun k => k != 1 && k != 2) fun seq b => { s with boot := b.answer seq 1 })

/-! ### Verification (R775, R795, R848, R850) -/

/-- FW_DIGEST of an image. -/
def imageDigest (img : List Byte) : List Byte := digest48 (img.take (img.length - 192))

/-- CODE of BOOT_STATUS for an image: 0 when it is accepted. (DESIGN CHOICE: log 34) -/
def State.imageCode (s : State) (img : List Byte) : Nat :=
  let n := img.length
  let key := (img.drop (n - 192)).take 96
  let roots := lcRoots s.lcState
  let matches_ (w : Nat) : Bool := s.rootDigest w == some (digest48 key)
  if s.lcState = 6 ∨ s.lcState = 15 then 5
  else if leAt img 0 4 ≠ 0x57465653 ∨ leAt img 4 2 ≠ 1 ∨ leAt img 8 4 ≠ n ∨ leAt img 0x0C 4 % 8 ≠ 0 ∨ n - 192 ≤ leAt img 0x0C 4
      ∨ ((img.drop 0x10).take 0x30).any (fun b => b != 0) then 1
  else if leAt img 7 1 ≠ 4 then 2
  else if !((bit roots 3 && matches_ firmwareRoot) || (bit roots 0 && matches_ testRoot)) then 3
  else if !Config.ecdsaVerify key (imageDigest img) (img.drop (n - 96)) then 4
  else 0

/-- FW_VERIFY_COMPLETE: the outcome is recorded (R851); an accepted image is copied and started. -/
def execFwVerifyComplete (s : State) : Host.Outcome State Fault Refusal :=
  .next (s.work <|
    let b := s.boot
    if b.fwState ≠ 2 ∨ !b.running.isEmpty then s
    else
      let img := mreadN b.image 0 b.loadLen
      let code := s.imageCode img
      let b := { b with code := code, chunks := [], loadId := 0 }
      let t := { s with boot := if code = 0 then { b with running := img } else { b with fwState := 4 } }
      t.rmRecord (if code = 0 then 0x11 else 0x12) (leAt (imageDigest img) 0 4) b.source b.srcHub 0)

/-- FW_RUNNING: the hub is ready; the free pools are taken from the table, and MANIFEST is exchanged on every ACTIVE port
(R847, R850, R864). (DESIGN CHOICE: log 32) -/
def execFwRunning (s : State) : Host.Outcome State Fault Refusal :=
  .next (s.work <|
    let b := s.boot
    if b.fwState ≠ 2 ∨ b.running.isEmpty then s
    else
      let s := ({ s with boot := { b with fwState := 3, step := 8, digest := imageDigest b.running } }).poolsFromFpt
      let s := (List.range s.build.fabricPorts).foldl (fun s p => if (s.fp p).state = .active then s.sendManifest p else s) s
      (s.fab.inbox.filter fun m => m.2.type == 8).foldl (fun s m => (s.takeInbox m.1 m.2).manifestIn m.1 m.2) s)

/-! ### Loads over the fabric (R859 to R863) -/

/-- A load over the fabric is abandoned (R863). -/
def Boot.abandon (b : Boot) : Boot :=
  { b with fwState := if b.fwState = 1 then b.prevState else b.fwState, loadId := 0, loadLen := 0, chunks := [], held := [], total := 0 }

/-- FW_LOAD_STALL. -/
def execFwLoadStall (s : State) : Host.Outcome State Fault Refusal :=
  .next (s.work (if s.boot.fwState ≤ 1 ∨ s.boot.fwState = 4 then { s with boot := s.boot.abandon } else s))

/-- Has this hub seen a chunk before? -/
def Boot.saw (b : Boot) (id chunk : Nat) : Bool := b.seen.any fun r => r.1 == id && r.2.contains chunk

/-- The four most recent LOAD_IDs are remembered (R860). -/
def Boot.note (b : Boot) (id chunk : Nat) : Boot :=
  let old := ((b.seen.find? fun r => r.1 = id).map (·.2)).getD []
  { b with seen := ((id, insertIdx old chunk) :: b.seen.filter fun r => r.1 ≠ id).take 4 }

/-- A chunk is stored; chunk 0 makes the hub LOADING, and the last one held leads to verification (Table 19-6, R861,
R863). -/
def State.storeChunk (s : State) (id chunk len : Nat) (src : Nat) (bytes : List Byte) : State :=
  let b := s.boot
  let b := if b.chunks.isEmpty then { b with loadId := id, loadLen := len, total := chunksOf len, held := [], source := 1, srcHub := src } else b
  let b := if chunk = 0 ∧ b.fwState ≠ 1 then { b with prevState := b.fwState, fwState := 1, code := 0 } else b
  let b := { b with chunks := tput b.chunks chunk bytes, held := insertIdx b.held chunk }
  if b.held.length = chunksOf len ∧ b.fwState = 1 then
    let img := b.chunks.flatMap (·.2)
    { s with boot := { b with fwState := 2, chunks := [], image := mwriteN (mzero b.image 0 0x01F00000) 0 img } }
  else { s with boot := b }

/-- What becomes of a chunk here: the state, and RESULT: 1 accepted, 2 refused (R860, R861). (DESIGN CHOICE: log 34) -/
def State.takeChunk (s : State) (id chunk len : Nat) (src : Nat) (bytes : List Byte) : State × Nat :=
  let b := s.boot
  let fits := imageLength len && decide (chunk < chunksOf len) && bytes.length == min 4096 (len - 4096 * chunk)
  let open_ := b.fwState = 0 ∨ b.fwState = 4 ∨ b.fwState = 1
  if !fits then (s, 2)
  else if !open_ then (s, 1)
  else if (b.fwState = 1 ∨ !b.chunks.isEmpty) ∧ (b.source = 0 ∨ b.loadId ≠ id ∨ b.loadLen ≠ len) then (s, 2)
  else if !s.stagingUp then ({ s with boot := { b with code := 7 } }, 2)
  else (s.storeChunk id chunk len src bytes, 1)

/-- FW_CHUNK. (DESIGN CHOICE: log 34) -/
def execFwChunk (port : Nat) (m : OfpMsg) (s : State) : Host.Outcome State Fault Refusal :=
  .next (s.work <| s.receive port m 6 fun s =>
    match s.e2eSeen m with
    | some r => s.portSend port r
    | none =>
      let id := m.f10.toNat
      let chunk := fld m.f18.toNat 63 32
      let len := fld m.f18.toNat 31 0
      let bytes := m.data.take (min 4096 (len - 4096 * chunk))
      let r := s.takeChunk id chunk len m.srcHub.toNat bytes
      let s := r.1
      let s :=
        if s.boot.saw id chunk then s
        else
          let s := { s with boot := s.boot.note id chunk }
          (List.range s.build.fabricPorts).foldl (fun s p => if p = port then s else s.sendChunk p id chunk len bytes) s
      let a : OfpMsg := { s.fwMsg 7 port id chunk len with dstHub := m.srcHub, e2eSeq := m.e2eSeq, f20 := BitVec.ofNat 64 r.2 }
      (s.e2eNote m a).portSend port a)

/-- FW_ACK: on a refusal the sender stops sending the load on that port (R861). -/
def execFwAck (port : Nat) (m : OfpMsg) (s : State) : Host.Outcome State Fault Refusal :=
  .next (s.work <| s.receive port m 7 fun s =>
    let src := m.srcHub.toNat
    match s.fab.find src m.e2eSeq.toNat with
    | none => s
    | some o =>
      if o.msg.type ≠ 6 then s
      else
        let s := s.e2eDone src m.e2eSeq.toNat
        if fld m.f20.toNat 1 0 ≠ 2 then s
        else
          let id := o.msg.f10.toNat
          let s := { s with fab := { s.fab with out := s.fab.out.filter fun (u : E2eOut) => !(u.port == some port && u.msg.type == 6 && u.msg.f10.toNat == id && u.held) } }
          { s with boot := { s.boot with refusedBy := if s.boot.refusedBy.contains (id, port) then s.boot.refusedBy else s.boot.refusedBy ++ [(id, port)] } })

end Sys2Proof.Machine
end

