-- ==== Sys2Proof/Machine/Vector.lean ====
section
/-! DEFINITION. The vector and predicate instructions of the E profile (chapter 5). -/

namespace Sys2Proof.Machine

/-! ### Lanes and predicates -/

/-- Lanes whose predicate bit is set take the new value; the others keep the old one (R217). -/
def mergeLanes (p : BitVec 256) (old new : List W32) : List W32 :=
  (old.zip new).zipIdx.map fun v => if p.getLsbD v.2 then v.1.2 else v.1.1

/-- A predicate from a list of 256 bits, lane 0 first. -/
def predOf (bs : List Bool) : BitVec 256 := BitVec.ofNat 256 (bitsMask ((bs.zipIdx.filter (·.1)).map (·.2)))

/-- A vector instruction of one opcode runs on its slot; the engine's vector unit has issued once more (Table 3-6). -/
def State.vrun (s : State) (a : SlotId) (row : Nat → Bool) (act : State → Leaving → State) : State :=
  s.runNow a 1 row fun s x =>
    act (s.modEngine x.e fun y => { y with ctr := { y.ctr with vectorBusy := bump y.ctr.vectorBusy 1 } }) x

/-- The check of an instruction whose result is compared (R102, R103, R247): it completes when the comparison agrees, at
once or for the reissued instruction; a second disagreement retires the engine and fails its launches. -/
def State.checked (s : State) (x : Leaving) (chk : Check) (act : State → State) : State :=
  let src := engSrc x.e 4
  let tag := s.tag x.l.ctx
  match chk with
  | .agree => act s
  | .retried => act (s.checkRetry x.e src tag)
  | .failed => ((s.checkRetry x.e src tag).checkRetry x.e src tag).retireUnit (.engine x.e) src 3

/-- Write the active lanes of VD. -/
def State.writeLanes (s : State) (x : Leaving) (pg : Nat) (new : Regs → List W32) : State :=
  s.doneRegs x fun r =>
    let d := fld x.h.word 45 41
    r.setV d (mergeLanes (r.getP pg) (r.getV d) (new r))

/-- Lane by lane on VA and VB, with the predicate of bits [25:23]. -/
def State.lanes2 (s : State) (x : Leaving) (f : W32 → W32 → W32) : State :=
  let w := x.h.word
  s.writeLanes x (fld w 25 23) fun r => List.zipWith f (r.getV (fld w 40 36)) (r.getV (fld w 35 31))

/-- Lane by lane on VA, with the predicate of bits [35:33]. -/
def State.lanes1 (s : State) (x : Leaving) (f : W32 → W32) : State :=
  let w := x.h.word
  s.writeLanes x (fld w 35 33) fun r => (r.getV (fld w 40 36)).map f

/-! ### Float arithmetic (R238 to R240, R96, R97) -/

/-- The two BF16 halves of a lane, computed apart (R97). -/
def bfHalves (f : Nat → Nat) : W32 := BitVec.ofNat 32 (f 0 + f 16 * 65536)

/-- A float operation of two operands on a lane, in FP32 or on two BF16 halves, rounded once. -/
def fop2 (bf : Bool) (g : FVal → FVal → FVal) (a b : W32) : W32 :=
  if bf then
    bfHalves fun i => fBF16.round (g (fBF16.decode (fld a.toNat (i + 15) i)) (fBF16.decode (fld b.toNat (i + 15) i)))
  else toF32 (g (f32 a) (f32 b))

/-- As `fop2`, of three operands. -/
def fop3 (bf : Bool) (g : FVal → FVal → FVal → FVal) (a b c : W32) : W32 :=
  if bf then
    bfHalves fun i => fBF16.round (g (fBF16.decode (fld a.toNat (i + 15) i)) (fBF16.decode (fld b.toNat (i + 15) i))
      (fBF16.decode (fld c.toNat (i + 15) i)))
  else toF32 (g (f32 a) (f32 b) (f32 c))

/-- Maximum and minimum: NaN when either is NaN, −0 below +0 (R239). -/
def fmaxV (a b : FVal) : FVal := if a.isNan || b.isNan then .nan else if a.lt true b then b else a
def fminV (a b : FVal) : FVal := if a.isNan || b.isNan then .nan else if b.lt true a then b else a

/-- The BF bit of opcodes 0x60 to 0x65 (R240). -/
def bfBit (x : Leaving) : Bool := bit x.h.word 22

/-- VADD (R238). -/
def execVadd (a : SlotId) (chk : Check) (s : State) : Host.Outcome State Fault Refusal :=
  .next (s.work (s.vrun a (isOp 0x60) fun s x => s.checked x chk fun s => s.lanes2 x (fop2 (bfBit x) FVal.add)))

/-- VSUB (R238). -/
def execVsub (a : SlotId) (chk : Check) (s : State) : Host.Outcome State Fault Refusal :=
  .next (s.work (s.vrun a (isOp 0x61) fun s x =>
    s.checked x chk fun s => s.lanes2 x (fop2 (bfBit x) fun u v => u.add v.neg)))

/-- VMUL (R238). -/
def execVmul (a : SlotId) (chk : Check) (s : State) : Host.Outcome State Fault Refusal :=
  .next (s.work (s.vrun a (isOp 0x62) fun s x => s.checked x chk fun s => s.lanes2 x (fop2 (bfBit x) FVal.mul)))

/-- VFMA: VA × VB + VC, rounded once (R96, R97, R238). -/
def execVfma (a : SlotId) (chk : Check) (s : State) : Host.Outcome State Fault Refusal :=
  .next (s.work (s.vrun a (isOp 0x63) fun s x => s.checked x chk fun s =>
    let w := x.h.word
    s.writeLanes x (fld w 25 23) fun r =>
      List.zipWith (fun (ab : W32 × W32) c => fop3 (bfBit x) (fun u v t => (u.mul v).add t) ab.1 ab.2 c)
        ((r.getV (fld w 40 36)).zip (r.getV (fld w 35 31))) (r.getV (fld w 30 26))))

/-- VMAX (R239). -/
def execVmax (a : SlotId) (s : State) : Host.Outcome State Fault Refusal :=
  .next (s.work (s.vrun a (isOp 0x64) fun s x => s.lanes2 x (fop2 (bfBit x) fmaxV)))

/-- VMIN (R239). -/
def execVmin (a : SlotId) (s : State) : Host.Outcome State Fault Refusal :=
  .next (s.work (s.vrun a (isOp 0x65) fun s x => s.lanes2 x (fop2 (bfBit x) fminV)))

/-- VSEL (R241): it writes every lane. -/
def execVsel (a : SlotId) (s : State) : Host.Outcome State Fault Refusal :=
  .next (s.work (s.vrun a (isOp 0x66) fun s x =>
    let w := x.h.word
    s.doneRegs x fun r =>
      r.setV (fld w 45 41) (mergeLanes (r.getP (fld w 25 23)) (r.getV (fld w 35 31)) (r.getV (fld w 40 36)))))

/-! ### Integer arithmetic (R242) -/

def execViadd (a : SlotId) (s : State) : Host.Outcome State Fault Refusal :=
  .next (s.work (s.vrun a (isOp 0x68) fun s x => s.lanes2 x fun u v => u + v))

def execVisub (a : SlotId) (s : State) : Host.Outcome State Fault Refusal :=
  .next (s.work (s.vrun a (isOp 0x69) fun s x => s.lanes2 x fun u v => u - v))

def execVimul (a : SlotId) (s : State) : Host.Outcome State Fault Refusal :=
  .next (s.work (s.vrun a (isOp 0x6A) fun s x => s.lanes2 x fun u v => u * v))

def execVimax (a : SlotId) (s : State) : Host.Outcome State Fault Refusal :=
  .next (s.work (s.vrun a (isOp 0x6B) fun s x => s.lanes2 x fun u v => if u.slt v then v else u))

def execVimin (a : SlotId) (s : State) : Host.Outcome State Fault Refusal :=
  .next (s.work (s.vrun a (isOp 0x6C) fun s x => s.lanes2 x fun u v => if u.slt v then u else v))

def execVand (a : SlotId) (s : State) : Host.Outcome State Fault Refusal :=
  .next (s.work (s.vrun a (isOp 0x6D) fun s x => s.lanes2 x fun u v => u &&& v))

def execVor (a : SlotId) (s : State) : Host.Outcome State Fault Refusal :=
  .next (s.work (s.vrun a (isOp 0x6E) fun s x => s.lanes2 x fun u v => u ||| v))

def execVxor (a : SlotId) (s : State) : Host.Outcome State Fault Refusal :=
  .next (s.work (s.vrun a (isOp 0x6F) fun s x => s.lanes2 x fun u v => u ^^^ v))

/-- VSHL: by the low 5 bits of the VB lane. -/
def execVshl (a : SlotId) (s : State) : Host.Outcome State Fault Refusal :=
  .next (s.work (s.vrun a (isOp 0x70) fun s x => s.lanes2 x fun u v => u <<< (v.toNat % 32)))

def execVshr (a : SlotId) (s : State) : Host.Outcome State Fault Refusal :=
  .next (s.work (s.vrun a (isOp 0x71) fun s x => s.lanes2 x fun u v => u >>> (v.toNat % 32)))

def execVsra (a : SlotId) (s : State) : Host.Outcome State Fault Refusal :=
  .next (s.work (s.vrun a (isOp 0x72) fun s x => s.lanes2 x fun u v => u.sshiftRight (v.toNat % 32)))

/-! ### Comparison and conversion (R243 to R245) -/

/-- A comparison into p[PD], for the lanes active under PG; a CND of 4 to 7 faults (R243). -/
def State.compare (s : State) (x : Leaving) (f : Nat → W32 → W32 → Bool) : State :=
  let w := x.h.word
  let cnd := fld w 29 27
  if 4 ≤ cnd then s.bad x
  else
    s.doneRegs x fun r =>
      let d := fld w 45 43
      let p := r.getP (fld w 32 30)
      let c := predOf (List.zipWith (f cnd) (r.getV (fld w 42 38)) (r.getV (fld w 37 33)))
      r.setP d ((r.getP d &&& ~~~p) ||| (c &&& p))

/-- VCMP (R243). -/
def execVcmp (a : SlotId) (s : State) : Host.Outcome State Fault Refusal :=
  .next (s.work (s.vrun a (isOp 0x74) fun s x => s.compare x fun cnd u v => vcmpHolds cnd (f32 u) (f32 v)))

/-- VICMP (R243). -/
def execVicmp (a : SlotId) (s : State) : Host.Outcome State Fault Refusal :=
  .next (s.work (s.vrun a (isOp 0x75) fun s x => s.compare x fun cnd u v => vicmpHolds cnd u.toInt v.toInt))

/-- FP32 to INT32 with the count of R244. -/
def cvtInt (u : W32) : W32 × Nat :=
  match f32 u with
  | .nan => (0, 1)
  | .inf neg => (if neg then 0x80000000 else 0x7FFFFFFF, 1)
  | .fin neg m e =>
    let r := clampInt (-(2 ^ 31)) (2 ^ 31 - 1) (roundInt neg m e)
    (BitVec.ofInt 32 r.1, r.2)

/-- INT32 to FP32, rounded to nearest even (R244). -/
def cvtFloat (u : W32) : W32 := toF32 (.fin (decide (u.toInt < 0)) u.toInt.natAbs 0)

/-- MODE of VCVT. -/
def cvtMode (w : Nat) : Nat := fld w 32 30

/-- VCVT, MODE 0 (R244): every active NaN or out-of-range lane counts in INT_SAT. -/
def execVcvtToInt32 (a : SlotId) (s : State) : Host.Outcome State Fault Refusal :=
  .next (s.work (s.vrun a (fun w => isOp 0x78 w && cvtMode w == 0) fun s x =>
    let w := x.h.word
    let r := x.l.x.regs
    let p := r.getP (fld w 35 33)
    let n := ((r.getV (fld w 40 36)).zipIdx.map fun v => if p.getLsbD v.2 then (cvtInt v.1).2 else 0).foldl (· + ·) 0
    (s.addSat x.id x.e n).lanes1 x fun u => (cvtInt u).1))

/-- VCVT, MODE 1; MODE 2 to 7 faults (R244). -/
def execVcvtToFp32 (a : SlotId) (s : State) : Host.Outcome State Fault Refusal :=
  .next (s.work (s.vrun a (fun w => isOp 0x78 w && cvtMode w != 0) fun s x =>
    if cvtMode x.h.word = 1 then s.lanes1 x cvtFloat else s.bad x))

/-- VIOTA (R245). -/
def execViota (a : SlotId) (s : State) : Host.Outcome State Fault Refusal :=
  .next (s.work (s.vrun a (isOp 0x7F) fun s x =>
    s.doneRegs x fun r => r.setV (fld x.h.word 45 41) ((List.range 256).map (BitVec.ofNat 32))))

/-- VBCST (R245). -/
def execVbcst (a : SlotId) (s : State) : Host.Outcome State Fault Refusal :=
  .next (s.work (s.vrun a (isOp 0x84) fun s x =>
    s.doneRegs x fun r =>
      r.setV (fld x.h.word 45 41) (List.replicate 256 (BitVec.ofNat 32 (x.h.sv (fld x.h.word 40 35))))))

/-- VMOVS (R245). -/
def execVmovs (a : SlotId) (s : State) : Host.Outcome State Fault Refusal :=
  .next (s.work (s.vrun a (isOp 0x85) fun s x =>
    let w := x.h.word
    s.doneRegs x fun r => r.setS (fld w 45 40) ((r.getV (fld w 39 35)).getD (fld w 34 27) 0).toNat))

/-! ### Special functions (R246, R247) -/

def execVexp2 (a : SlotId) (chk : Check) (s : State) : Host.Outcome State Fault Refusal :=
  .next (s.work (s.vrun a (isOp 0x79) fun s x => s.checked x chk fun s => s.lanes1 x fexp2))

def execVlog2 (a : SlotId) (chk : Check) (s : State) : Host.Outcome State Fault Refusal :=
  .next (s.work (s.vrun a (isOp 0x7A) fun s x => s.checked x chk fun s => s.lanes1 x flog2))

def execVrcp (a : SlotId) (chk : Check) (s : State) : Host.Outcome State Fault Refusal :=
  .next (s.work (s.vrun a (isOp 0x7B) fun s x => s.checked x chk fun s => s.lanes1 x frcp32))

def execVrsqrt (a : SlotId) (chk : Check) (s : State) : Host.Outcome State Fault Refusal :=
  .next (s.work (s.vrun a (isOp 0x7C) fun s x => s.checked x chk fun s => s.lanes1 x frsqrt32))

def execVsqrt (a : SlotId) (chk : Check) (s : State) : Host.Outcome State Fault Refusal :=
  .next (s.work (s.vrun a (isOp 0x7D) fun s x => s.checked x chk fun s => s.lanes1 x fsqrt32))

def execVtanh (a : SlotId) (chk : Check) (s : State) : Host.Outcome State Fault Refusal :=
  .next (s.work (s.vrun a (isOp 0x7E) fun s x => s.checked x chk fun s => s.lanes1 x ftanh))

/-! ### Reductions (R98, R248, R249) -/

/-- One level of the pairwise tree: neighbours combine, and a lane that has no neighbour passes up (R98). -/
def pairUp (f : W32 → W32 → W32) : List (Option W32) → List (Option W32)
  | some a :: some b :: rest => some (f a b) :: pairUp f rest
  | some a :: none :: rest => some a :: pairUp f rest
  | none :: b :: rest => b :: pairUp f rest
  | [a] => [a]
  | [] => []

/-- The tree over 256 lanes: eight levels. (DEDUCED: log 73) -/
def treeReduce (f : W32 → W32 → W32) (lanes : List (Option W32)) : Option W32 :=
  ((List.range 8).foldl (fun l _ => pairUp f l) lanes).headD none

/-- A NaN result is the canonical one (R63). (DEDUCED: log 73) -/
def canonNan (u : W32) : W32 := if (f32 u).isNan then BitVec.ofNat 32 fFP32.qnan else u

/-- A float reduction of the active lanes into s[SD] (R248). -/
def State.reduce (s : State) (x : Leaving) (f : W32 → W32 → W32) (empty : W32) : State :=
  let w := x.h.word
  s.doneRegs x fun r =>
    let p := r.getP (fld w 34 32)
    let act := (r.getV (fld w 39 35)).zipIdx.map fun v => if p.getLsbD v.2 then some v.1 else none
    r.setS (fld w 45 40) (canonNan ((treeReduce f act).getD empty)).toNat

/-- VRSUM (R248). -/
def execVrsum (a : SlotId) (s : State) : Host.Outcome State Fault Refusal :=
  .next (s.work (s.vrun a (isOp 0x80) fun s x => s.reduce x fadd32 0))

/-- VRMAX (R248): −∞ with no active lane. -/
def execVrmax (a : SlotId) (s : State) : Host.Outcome State Fault Refusal :=
  .next (s.work (s.vrun a (isOp 0x81) fun s x => s.reduce x (fop2 false fmaxV) 0xFF800000))

/-- VRMIN (R248): +∞ with no active lane. -/
def execVrmin (a : SlotId) (s : State) : Host.Outcome State Fault Refusal :=
  .next (s.work (s.vrun a (isOp 0x82) fun s x => s.reduce x (fop2 false fminV) 0x7F800000))

/-- VIRSUM (R249). -/
def execVirsum (a : SlotId) (s : State) : Host.Outcome State Fault Refusal :=
  .next (s.work (s.vrun a (isOp 0x83) fun s x =>
    let w := x.h.word
    s.doneRegs x fun r =>
      let p := r.getP (fld w 34 32)
      let sum := ((r.getV (fld w 39 35)).zipIdx.map fun v => if p.getLsbD v.2 then v.1.toInt else 0).foldl (· + ·) 0
      r.setS (fld w 45 40) (wrap 64 sum)))

/-! ### Engine-store access (R250 to R256) -/

/-- The lines that bytes at these offsets touch at or beyond the size (R133, R208). (DEDUCED: log 74) -/
def violAt (size acc : Nat) (offs : List Nat) : Viol :=
  match offs.filter (size ≤ ·) with
  | [] => {}
  | first :: rest =>
    let lines := ((first :: rest).map (· / 64)).eraseDups
    { lines := lines.length, addr := first, acc := acc, code := 1 }

/-- Single bytes written to the allotment, those at or beyond its size dropped (R133, R712). (DEDUCED: log 74) -/
def State.storeBytes (s : State) (id e c : Nat) (bs : List (Nat × Byte)) : State × Viol :=
  let (base, size) := s.allotSpan e c
  let inside := bs.filter fun p => p.1 < size
  let s := ((inside.map fun p => p.1 / 65536).eraseDups).foldl (fun s b => s.captureStore id e base (65536 * b) 1) s
  (s.modEngine e fun x => { x with store := inside.foldl (fun m p => mwrite m (base + p.1) p.2) x.store },
   violAt size 1 (bs.map (·.1)))

/-- Offset of VLD and VST, and their line count. -/
def vecOffset (x : Leaving) : Nat := x.h.sv (fld x.h.word 40 35) + 64 * fld x.h.word 29 10
/-- (DEDUCED: log 74) -/
def vecLines (x : Leaving) : Nat := fld x.h.word 34 30

/-- Bytes as 256 lanes of four bytes, zeros beyond them. -/
def lanesOf (bs : List Byte) : List W32 := (List.range 256).map fun i => BitVec.ofNat 32 (leAt bs (4 * i) 4)

/-- VLD (R250). -/
def execVld (a : SlotId) (s : State) : Host.Outcome State Fault Refusal :=
  .next (s.work (s.vrun a (isOp 0x88) fun s x =>
    let off := vecOffset x
    let n := vecLines x
    if 16 < n ∨ off % 64 ≠ 0 then s.bad x
    else if n = 0 then s.doneRegs x id
    else
      let r := s.storeRead x.e x.l.ctx off (64 * n)
      (s.doneRegs x fun g => g.setV (fld x.h.word 45 41) (lanesOf r.1)).settle x.id x.src r.2))

/-- VST (R250): inactive lanes are skipped. -/
def execVst (a : SlotId) (s : State) : Host.Outcome State Fault Refusal :=
  .next (s.work (s.vrun a (isOp 0x89) fun s x =>
    let off := vecOffset x
    let n := vecLines x
    if 16 < n ∨ off % 64 ≠ 0 then s.bad x
    else
      let g := x.l.x.regs
      let p := g.getP (fld x.h.word 9 7)
      let bs := ((g.getV (fld x.h.word 45 41)).zipIdx.take (16 * n)).flatMap fun v =>
        if p.getLsbD v.2 then (bytesLE 4 v.1.toNat).zipIdx.map fun b => (off + 4 * v.2 + b.2, b.1) else []
      let r := s.storeBytes x.id x.e x.l.ctx bs
      (r.1.doneRegs x id).settle x.id x.src r.2))

/-- The element range of VLDT and VSTT: the descriptor, its row, the first element, and how many lanes have one. -/
structure RowSpan where
  d : TDesc
  row : Nat
  e0 : Nat
  n : Nat
deriving DecidableEq, Repr

/-- The row and first element from s[SR], and the checks of R253; `toStore` for VSTT. -/
def rowSpan (x : Leaving) (toStore : Bool) : Option RowSpan :=
  let w := x.h.word
  let d := x.h.tv (fld w 40 37)
  let v := x.h.sv (fld w 36 31)
  let row := fld v 63 32
  let e0 := fld v 31 0
  let f := d.fmt
  if d.space || d.dim1 ≤ row || e0 * fmtBits f % 8 != 0 || !fmtDefined f || f = 0x11 || f = 0x12 || fmtMX f
      || (toStore && f = 2) then none
  else some ⟨d, row, e0, min 256 (d.dim0 - e0)⟩

/-- Offset of the first element's byte. -/
def RowSpan.offset (r : RowSpan) : Nat := r.d.row r.row + r.e0 * fmtBits r.d.fmt / 8

/-- An element widened to a lane (R251). (DEDUCED: log 73) -/
def widen (fmt v : Nat) : W32 :=
  if fmt = 9 ∨ fmt = 0x10 then BitVec.ofNat 32 v
  else if 5 ≤ fmt ∧ fmt ≤ 8 then toF32 ((fmtFloat fmt).decode v)
  else BitVec.ofInt 32 (intElem fmt v)

/-- VLDT (R251, R253). (DEDUCED: log 73) -/
def execVldt (a : SlotId) (s : State) : Host.Outcome State Fault Refusal :=
  .next (s.work (s.vrun a (isOp 0x8A) fun s x =>
    match rowSpan x false with
    | none => s.bad x
    | some p =>
      let b := fmtBits p.d.fmt
      let r := s.storeRead x.e x.l.ctx p.offset ((p.n * b + 7) / 8)
      let es := elemsOf b p.n r.1
      let bad := (es.filter fun v => decide (p.d.fmt = 2) && v % 4 == 2).length
      let s := s.addT2 x.id x.e bad
      (s.doneRegs x fun g =>
        (g.setV (fld x.h.word 45 41) ((es.map (widen p.d.fmt)) ++ List.replicate (256 - p.n) 0)).setP
          (fld x.h.word 30 28) (BitVec.ofNat 256 (2 ^ p.n - 1))).settle x.id x.src r.2))

/-- A lane narrowed to an element, with the saturations of R252. -/
def narrow (fmt : Nat) (sat : Bool) (u : W32) : Nat × Nat :=
  if fmt = 9 ∨ fmt = 0x10 then (u.toNat, 0)
  else if 5 ≤ fmt ∧ fmt ≤ 8 then ((fmtFloat fmt).encode sat false (f32 u), 0)
  else
    let b := fmtBits fmt
    let r := clampInt (-(2 ^ (b - 1) : Nat)) ((2 ^ (b - 1) : Nat) - 1) u.toInt
    (wrap b r.1, r.2)

/-- VSTT (R252, R253). -/
def execVstt (a : SlotId) (s : State) : Host.Outcome State Fault Refusal :=
  .next (s.work (s.vrun a (isOp 0x8B) fun s x =>
    match rowSpan x true with
    | none => s.bad x
    | some p =>
      let g := x.l.x.regs
      let pg := g.getP (fld x.h.word 30 28)
      let lanes := (g.getV (fld x.h.word 45 41)).zipIdx.take p.n
      let es := lanes.map fun v => (pg.getLsbD v.2, narrow p.d.fmt p.d.sat v.1)
      let sat := (es.map fun v => if v.1 then v.2.2 else 0).foldl (· + ·) 0
      let b := fmtBits p.d.fmt
      let bs : List (Nat × Byte) :=
        if 8 ≤ b then
          es.zipIdx.flatMap fun v =>
            if v.1.1 then (bytesLE (b / 8) v.1.2.1).zipIdx.map fun y => (p.offset + v.2 * (b / 8) + y.2, y.1) else []
        else
          let per := 8 / b
          (List.range ((p.n + per - 1) / per)).filterMap fun k =>
            let mine := (es.drop (k * per)).take per
            let old := (s.storeRead x.e x.l.ctx (p.offset + k) 1).1
            if mine.any (·.1) then
              some (p.offset + k, BitVec.ofNat 8 (((List.range per).map fun j =>
                (match mine[j]? with
                 | some (true, v) => v.1
                 | _ => natLE old >>> (j * b) % 2 ^ b) * 2 ^ (j * b)).foldl (· + ·) 0))
            else none
      let r := s.storeBytes x.id x.e x.l.ctx bs
      ((r.1.addSat x.id x.e sat).doneRegs x id).settle x.id x.src r.2))

/-! ### VMXQ (R254, R255) -/

/-- emax of R254. -/
def mxEmax (fmt : Nat) : Int :=
  if fmt = 0x0A then 8 else if fmt = 0x0B then 15 else if fmt = 0x0C then 2 else if fmt = 0x0D then 4
  else if fmt = 0x0E then 2 else 0

/-- ⌊log2⌋ of the magnitude of a finite nonzero value. -/
def FVal.log2 : FVal → Int
  | .fin _ m e => (Nat.log2 m : Int) + e
  | _ => 0

/-- The scale byte of a block (R254). (DEDUCED: log 73) -/
def mxScale (fmt : Nat) (vs : List FVal) : Nat :=
  if vs.any fun v => match v with | .fin .. => false | _ => true then 0xFF
  else
    match vs.filter fun v => !v.isZero with
    | [] => 0
    | v :: rest =>
      let top := rest.foldl (fun m u => max m u.log2) v.log2
      (min (max (top - mxEmax fmt + 127) 0) 254).toNat

/-- An element of a block with scale X (R255). (DEDUCED: log 73) -/
def mxElem (fmt X : Nat) (v : FVal) : Nat :=
  match v with
  | .fin neg m e =>
    let e' := e - ((X : Int) - 127)
    if fmt = 0x0F then wrap 8 (clampInt (-128) 127 (roundInt neg m (e' + 6))).1
    else (fmtFloat fmt).encode true false (.fin neg m e')
  | _ => 0

/-- Elements of `b` bits packed from bit 0 (R58), as a number. -/
def packElems (b : Nat) : List Nat → Nat
  | [] => 0
  | v :: vs => v % 2 ^ b + 2 ^ b * packElems b vs

/-- VMXQ (R254, R255). (DEDUCED: log 73) -/
def execVmxq (a : SlotId) (s : State) : Host.Outcome State Fault Refusal :=
  .next (s.work (s.vrun a (isOp 0x8C) fun s x =>
    let w := x.h.word
    let fmt := fld w 29 25
    if !fmtMX fmt then s.bad x
    else
      s.doneRegs x fun r =>
        let vs := (r.getV (fld w 40 36)).map f32
        let blocks := (List.range 8).map fun b => (vs.drop (32 * b)).take 32
        let scales := blocks.map (mxScale fmt)
        let elems := (List.zipWith (fun X b => b.map fun v => if X = 0xFF || b.all FVal.isZero then 0 else mxElem fmt X v) scales blocks).flatten
        let packed := packElems (fmtBits fmt) elems
        (r.setV (fld w 45 41) ((List.range 256).map fun i => BitVec.ofNat 32 (packed >>> (32 * i)))).setS
          (fld w 35 30) (packElems 8 scales)))

/-! ### Predicates (R257) -/

/-- PLOGIC. -/
def execPlogic (a : SlotId) (s : State) : Host.Outcome State Fault Refusal :=
  .next (s.work (s.vrun a (isOp 0x90) fun s x =>
    let w := x.h.word
    s.doneRegs x fun r =>
      let u := r.getP (fld w 42 40)
      let v := r.getP (fld w 39 37)
      let fn := fld w 36 35
      r.setP (fld w 45 43)
        (if fn = 0 then u &&& v else if fn = 1 then u ||| v else if fn = 2 then u ^^^ v else u &&& ~~~v)))

/-- PCNT. -/
def execPcnt (a : SlotId) (s : State) : Host.Outcome State Fault Refusal :=
  .next (s.work (s.vrun a (isOp 0x91) fun s x =>
    let w := x.h.word
    s.doneRegs x fun r => r.setS (fld w 45 40) (maskBits 256 (r.getP (fld w 39 37)).toNat).length))

/-- PFIRST. -/
def execPfirst (a : SlotId) (s : State) : Host.Outcome State Fault Refusal :=
  .next (s.work (s.vrun a (isOp 0x92) fun s x =>
    let w := x.h.word
    s.doneRegs x fun r => r.setP (fld w 45 43) (BitVec.ofNat 256 (2 ^ min (x.h.sv (fld w 42 37)) 256 - 1))))

end Sys2Proof.Machine
end

