-- ==== Sys2Proof/Machine/Dispatch.lean ====
section
/-! DEFINITION. The effect of each command: one arm for each constructor of `Instr`. -/

namespace Sys2Proof.Machine

def exec (i : Instr) (s : State) : Host.Outcome State Fault Refusal :=
  match i with
  | .porNAssert => Sys2Proof.Machine.execPorNAssert s
  | .sysRstNAssert => Sys2Proof.Machine.execSysRstNAssert s
  | .hubResetRelease => Sys2Proof.Machine.execHubResetRelease s
  | .perstNAssert => Sys2Proof.Machine.execPerstNAssert s
  | .ivrPgLoss d => Sys2Proof.Machine.execIvrPgLoss d s
  | .ivrAck d => Sys2Proof.Machine.execIvrAck d s
  | .ivrAckTimeout d => Sys2Proof.Machine.execIvrAckTimeout d s
  | .ivrOcAssert d => Sys2Proof.Machine.execIvrOcAssert d s
  | .droop d => Sys2Proof.Machine.execDroop d s
  | .tsValidTimeout sensor => Sys2Proof.Machine.execTsValidTimeout sensor s
  | .thermalEmergency sensor code => Sys2Proof.Machine.execThermalEmergency sensor code s
  | .thermalEmergencyEnd => Sys2Proof.Machine.execThermalEmergencyEnd s
  | .thermalTrip sensor code => Sys2Proof.Machine.execThermalTrip sensor code s
  | .recAccessFail => Sys2Proof.Machine.execRecAccessFail s
  | .crossingTimeout island => Sys2Proof.Machine.execCrossingTimeout island s
  | .spineCrcMismatch link transfer who => Sys2Proof.Machine.execSpineCrcMismatch link transfer who s
  | .refClockSelect => Sys2Proof.Machine.execRefClockSelect s
  | .fabRecClockSelect port => Sys2Proof.Machine.execFabRecClockSelect port s
  | .noReferenceTimeout => Sys2Proof.Machine.execNoReferenceTimeout s
  | .refClockLoss => Sys2Proof.Machine.execRefClockLoss s
  | .holdoverTimeout => Sys2Proof.Machine.execHoldoverTimeout s
  | .clkCtrlWrite v => Sys2Proof.Machine.execClkCtrlWrite v s
  | .registerWrite fn bar off width v hwSet => Sys2Proof.Machine.execRegisterWrite fn bar off width v hwSet s
  | .dispatchRound p => Sys2Proof.Machine.execDispatchRound p s
  | .foldSwap a arr => Sys2Proof.Machine.execFoldSwap a arr s
  | .passCommit a arr agree => Sys2Proof.Machine.execPassCommit a arr agree s
  | .checkPoint a => Sys2Proof.Machine.execCheckPoint a s
  | .arrayImageWritten a => Sys2Proof.Machine.execArrayImageWritten a s
  | .scrubComplete e n => Sys2Proof.Machine.execScrubComplete e n s
  | .storeSecdedError e addr double => Sys2Proof.Machine.execStoreSecdedError e addr double s
  | .park a => Sys2Proof.Machine.execPark a s
  | .wake e place => Sys2Proof.Machine.execWake e place s
  | .tdld a => Sys2Proof.Machine.execTdld a s
  | .tdset a => Sys2Proof.Machine.execTdset a s
  | .wld a => Sys2Proof.Machine.execWld a s
  | .tmul a => Sys2Proof.Machine.execTmul a s
  | .twin a => Sys2Proof.Machine.execTwin a s
  | .tcmb a => Sys2Proof.Machine.execTcmb a s
  | .tdrn a => Sys2Proof.Machine.execTdrn a s
  | .tclr a => Sys2Proof.Machine.execTclr a s
  | .cred a => Sys2Proof.Machine.execCred a s
  | .mcopy a => Sys2Proof.Machine.execMcopy a s
  | .mfill a => Sys2Proof.Machine.execMfill a s
  | .mgath a => Sys2Proof.Machine.execMgath a s
  | .eUndefinedOpcode a => Sys2Proof.Machine.execEUndefinedOpcode a s
  | .combinerPartial e => Sys2Proof.Machine.execCombinerPartial e s
  | .codeFetch a => Sys2Proof.Machine.execCodeFetch a s
  | .nop a => Sys2Proof.Machine.execNop a s
  | .sli a => Sys2Proof.Machine.execSli a s
  | .slui a => Sys2Proof.Machine.execSlui a s
  | .salu a => Sys2Proof.Machine.execSalu a s
  | .salui a => Sys2Proof.Machine.execSalui a s
  | .sld a => Sys2Proof.Machine.execSld a s
  | .sst a => Sys2Proof.Machine.execSst a s
  | .sparam a => Sys2Proof.Machine.execSparam a s
  | .sstat a => Sys2Proof.Machine.execSstat a s
  | .br a => Sys2Proof.Machine.execBr a s
  | .jal a => Sys2Proof.Machine.execJal a s
  | .jr a => Sys2Proof.Machine.execJr a s
  | .kset a => Sys2Proof.Machine.execKset a s
  | .tokenDeadlock a => Sys2Proof.Machine.execTokenDeadlock a s
  | .qwait a => Sys2Proof.Machine.execQwait a s
  | .workPacketDeliver q => Sys2Proof.Machine.execWorkPacketDeliver q s
  | .enq a => Sys2Proof.Machine.execEnq a s
  | .endLaunch a => Sys2Proof.Machine.execEndLaunch a s
  | .sacq a => Sys2Proof.Machine.execSacq a s
  | .semaphoreGrant p sem => Sys2Proof.Machine.execSemaphoreGrant p sem s
  | .srel a => Sys2Proof.Machine.execSrel a s
  | .holdLimitExpire p sem => Sys2Proof.Machine.execHoldLimitExpire p sem s
  | .vadd a chk => Sys2Proof.Machine.execVadd a chk s
  | .vsub a chk => Sys2Proof.Machine.execVsub a chk s
  | .vmul a chk => Sys2Proof.Machine.execVmul a chk s
  | .vfma a chk => Sys2Proof.Machine.execVfma a chk s
  | .vmax a => Sys2Proof.Machine.execVmax a s
  | .vmin a => Sys2Proof.Machine.execVmin a s
  | .vsel a => Sys2Proof.Machine.execVsel a s
  | .viadd a => Sys2Proof.Machine.execViadd a s
  | .visub a => Sys2Proof.Machine.execVisub a s
  | .vimul a => Sys2Proof.Machine.execVimul a s
  | .vimax a => Sys2Proof.Machine.execVimax a s
  | .vimin a => Sys2Proof.Machine.execVimin a s
  | .vand a => Sys2Proof.Machine.execVand a s
  | .vor a => Sys2Proof.Machine.execVor a s
  | .vxor a => Sys2Proof.Machine.execVxor a s
  | .vshl a => Sys2Proof.Machine.execVshl a s
  | .vshr a => Sys2Proof.Machine.execVshr a s
  | .vsra a => Sys2Proof.Machine.execVsra a s
  | .vcmp a => Sys2Proof.Machine.execVcmp a s
  | .vicmp a => Sys2Proof.Machine.execVicmp a s
  | .vcvtToInt32 a => Sys2Proof.Machine.execVcvtToInt32 a s
  | .vcvtToFp32 a => Sys2Proof.Machine.execVcvtToFp32 a s
  | .vexp2 a chk => Sys2Proof.Machine.execVexp2 a chk s
  | .vlog2 a chk => Sys2Proof.Machine.execVlog2 a chk s
  | .vrcp a chk => Sys2Proof.Machine.execVrcp a chk s
  | .vrsqrt a chk => Sys2Proof.Machine.execVrsqrt a chk s
  | .vsqrt a chk => Sys2Proof.Machine.execVsqrt a chk s
  | .vtanh a chk => Sys2Proof.Machine.execVtanh a chk s
  | .viota a => Sys2Proof.Machine.execViota a s
  | .vrsum a => Sys2Proof.Machine.execVrsum a s
  | .vrmax a => Sys2Proof.Machine.execVrmax a s
  | .vrmin a => Sys2Proof.Machine.execVrmin a s
  | .virsum a => Sys2Proof.Machine.execVirsum a s
  | .vbcst a => Sys2Proof.Machine.execVbcst a s
  | .vmovs a => Sys2Proof.Machine.execVmovs a s
  | .vld a => Sys2Proof.Machine.execVld a s
  | .vst a => Sys2Proof.Machine.execVst a s
  | .vldt a => Sys2Proof.Machine.execVldt a s
  | .vstt a => Sys2Proof.Machine.execVstt a s
  | .vmxq a => Sys2Proof.Machine.execVmxq a s
  | .plogic a => Sys2Proof.Machine.execPlogic a s
  | .pcnt a => Sys2Proof.Machine.execPcnt a s
  | .pfirst a => Sys2Proof.Machine.execPfirst a s
  | .wmbSubmit v => Sys2Proof.Machine.execWmbSubmit v s
  | .partOpen => Sys2Proof.Machine.execPartOpen s
  | .partClose => Sys2Proof.Machine.execPartClose s
  | .assignEngine => Sys2Proof.Machine.execAssignEngine s
  | .assignForeign => Sys2Proof.Machine.execAssignForeign s
  | .assignChannel => Sys2Proof.Machine.execAssignChannel s
  | .assignWays => Sys2Proof.Machine.execAssignWays s
  | .assignVf => Sys2Proof.Machine.execAssignVf s
  | .setShare => Sys2Proof.Machine.execSetShare s
  | .setPower => Sys2Proof.Machine.execSetPower s
  | .setMode => Sys2Proof.Machine.execSetMode s
  | .setIsolation => Sys2Proof.Machine.execSetIsolation s
  | .setContexts => Sys2Proof.Machine.execSetContexts s
  | .setReserve => Sys2Proof.Machine.execSetReserve s
  | .sealPartition => Sys2Proof.Machine.execSeal s
  | .commitProgram => Sys2Proof.Machine.execCommitProgram s
  | .abortProgram => Sys2Proof.Machine.execAbortProgram s
  | .handoverPreemptTimeout => Sys2Proof.Machine.execHandoverPreemptTimeout s
  | .handoverSwitch => Sys2Proof.Machine.execHandoverSwitch s
  | .handoverSaveComplete u => Sys2Proof.Machine.execHandoverSaveComplete u s
  | .stmtRequest vf v => Sys2Proof.Machine.execStmtRequest vf v s
  | .stmtIssue => Sys2Proof.Machine.execStmtIssue s
  | .ctxCreate fn tag => Sys2Proof.Machine.execCtxCreate fn tag s
  | .ctxDestroy fn tag => Sys2Proof.Machine.execCtxDestroy fn tag s
  | .abortComplete c => Sys2Proof.Machine.execAbortComplete c s
  | .ctxQuery fn tag => Sys2Proof.Machine.execCtxQuery fn tag s
  | .objCreate fn tag => Sys2Proof.Machine.execObjCreate fn tag s
  | .objZeroingComplete fn => Sys2Proof.Machine.execObjZeroingComplete fn s
  | .objCreateHost fn tag => Sys2Proof.Machine.execObjCreateHost fn tag s
  | .fenceCreate fn tag => Sys2Proof.Machine.execFenceCreate fn tag s
  | .fenceQuery fn tag => Sys2Proof.Machine.execFenceQuery fn tag s
  | .importEntry fn tag => Sys2Proof.Machine.execImportEntry fn tag s
  | .objUnknownOp fn tag op => Sys2Proof.Machine.execObjUnknownOp fn tag op s
  | .fenceSignalApply => Sys2Proof.Machine.execFenceSignalApply s
  | .waitGraphWalk q => Sys2Proof.Machine.execWaitGraphWalk q s
  | .entryFree h => Sys2Proof.Machine.execEntryFree h s
  | .importEnd c h => Sys2Proof.Machine.execImportEnd c h s
  | .queueCreate fn tag => Sys2Proof.Machine.execQueueCreate fn tag s
  | .queueDestroy fn tag => Sys2Proof.Machine.execQueueDestroy fn tag s
  | .queueDestroyComplete fn => Sys2Proof.Machine.execQueueDestroyComplete fn s
  | .queueResume fn tag => Sys2Proof.Machine.execQueueResume fn tag s
  | .doorbell fn q width v => Sys2Proof.Machine.execDoorbell fn q width v s
  | .ringLineReturn q => Sys2Proof.Machine.execRingLineReturn q s
  | .tailReread q => Sys2Proof.Machine.execTailReread q s
  | .qNop q => Sys2Proof.Machine.execQNop q s
  | .launch q => Sys2Proof.Machine.execLaunch q s
  | .launchResident q => Sys2Proof.Machine.execLaunchResident q s
  | .launchResidentStop q => Sys2Proof.Machine.execLaunchResidentStop q s
  | .waitFence q => Sys2Proof.Machine.execWaitFence q s
  | .waitComplete q => Sys2Proof.Machine.execWaitComplete q s
  | .signal q => Sys2Proof.Machine.execSignal q s
  | .signalRemoteFabric q => Sys2Proof.Machine.execSignalRemoteFabric q s
  | .signalRemotePeer q result => Sys2Proof.Machine.execSignalRemotePeer q result s
  | .signalRemoteWrite q => Sys2Proof.Machine.execSignalRemoteWrite q s
  | .copy q => Sys2Proof.Machine.execCopy q s
  | .fill q => Sys2Proof.Machine.execFill q s
  | .barrier q => Sys2Proof.Machine.execBarrier q s
  | .jump q => Sys2Proof.Machine.execJump q s
  | .callRing q => Sys2Proof.Machine.execCallRing q s
  | .release q => Sys2Proof.Machine.execRelease q s
  | .timestamp q => Sys2Proof.Machine.execTimestamp q s
  | .qUndefinedOpcode q => Sys2Proof.Machine.execQUndefinedOpcode q s
  | .peerSignalRecord reference record => Sys2Proof.Machine.execPeerSignalRecord reference record s
  | .segMap fn tag => Sys2Proof.Machine.execSegMap fn tag s
  | .segUnmap fn tag => Sys2Proof.Machine.execSegUnmap fn tag s
  | .segRefuse fn tag => Sys2Proof.Machine.execSegRefuse fn tag s
  | .undoSet fn tag => Sys2Proof.Machine.execUndoSet fn tag s
  | .segShare fn tag => Sys2Proof.Machine.execSegShare fn tag s
  | .segMissFill cache c seg => Sys2Proof.Machine.execSegMissFill cache c seg s
  | .withdrawalAck w cache => Sys2Proof.Machine.execWithdrawalAck w cache s
  | .withdrawalComplete w => Sys2Proof.Machine.execWithdrawalComplete w s
  | .invalAckTimeout w cache => Sys2Proof.Machine.execInvalAckTimeout w cache s
  | .segFaultRecordPost fn => Sys2Proof.Machine.execSegFaultRecordPost fn s
  | .segFaultTimeout c seg => Sys2Proof.Machine.execSegFaultTimeout c seg s
  | .undoCaptureComplete a block => Sys2Proof.Machine.execUndoCaptureComplete a block s
  | .recoveryPoint a => Sys2Proof.Machine.execRecoveryPoint a s
  | .missqHeadWrite fn v => Sys2Proof.Machine.execMissqHeadWrite fn v s
  | .missqCtrlWrite fn v => Sys2Proof.Machine.execMissqCtrlWrite fn v s
  | .bar4Read fn off len => Sys2Proof.Machine.execBar4Read fn off len s
  | .bar4Write fn off bytes => Sys2Proof.Machine.execBar4Write fn off bytes s
  | .sliceBoundary p => Sys2Proof.Machine.execSliceBoundary p s
  | .allotWaitTimeout p => Sys2Proof.Machine.execAllotWaitTimeout p s
  | .evict p => Sys2Proof.Machine.execEvict p s
  | .switchOut c => Sys2Proof.Machine.execSwitchOut c s
  | .switchOutComplete c => Sys2Proof.Machine.execSwitchOutComplete c s
  | .switchIn c => Sys2Proof.Machine.execSwitchIn c s
  | .recordRestoreComplete c e => Sys2Proof.Machine.execRecordRestoreComplete c e s
  | .saveSet fn tag => Sys2Proof.Machine.execSaveSet fn tag s
  | .ctxShare fn tag => Sys2Proof.Machine.execCtxShare fn tag s
  | .ctxAccount fn tag => Sys2Proof.Machine.execCtxAccount fn tag s
  | .schedCtrlWrite p v => Sys2Proof.Machine.execSchedCtrlWrite p v s
  | .queueTarget fn tag => Sys2Proof.Machine.execQueueTarget fn tag s
  | .chipletLinkUp port rate lanes => Sys2Proof.Machine.execChipletLinkUp port rate lanes s
  | .cppCaps port m => Sys2Proof.Machine.execCppCaps port m s
  | .capsTimeout port => Sys2Proof.Machine.execCapsTimeout port s
  | .cppCredit port m => Sys2Proof.Machine.execCppCredit port m s
  | .cppRead port m => Sys2Proof.Machine.execCppRead port m s
  | .cppWrite port m => Sys2Proof.Machine.execCppWrite port m s
  | .cppSignal port m => Sys2Proof.Machine.execCppSignal port m s
  | .cppComplete port m => Sys2Proof.Machine.execCppComplete port m s
  | .cppInvalAck port m => Sys2Proof.Machine.execCppInvalAck port m s
  | .cppQuiesceAck port m => Sys2Proof.Machine.execCppQuiesceAck port m s
  | .cppResetAck port m => Sys2Proof.Machine.execCppResetAck port m s
  | .quiesceTimeout port fe => Sys2Proof.Machine.execQuiesceTimeout port fe s
  | .resetTimeout port => Sys2Proof.Machine.execResetTimeout port s
  | .creditStallTimeout port => Sys2Proof.Machine.execCreditStallTimeout port s
  | .chipletLinkDown port => Sys2Proof.Machine.execChipletLinkDown port s
  | .readDataSend port tag => Sys2Proof.Machine.execReadDataSend port tag s
  | .cpRecover port => Sys2Proof.Machine.execCpRecover port s
  | .fpTrain port => Sys2Proof.Machine.execFpTrain port s
  | .fpDisable port v => Sys2Proof.Machine.execFpDisable port v s
  | .laneDetect port lanes => Sys2Proof.Machine.execLaneDetect port lanes s
  | .detectTimeout port => Sys2Proof.Machine.execDetectTimeout port s
  | .equaliseStable port lanes => Sys2Proof.Machine.execEqualiseStable port lanes s
  | .equaliseTimeout port => Sys2Proof.Machine.execEqualiseTimeout port s
  | .alignComplete port lanes => Sys2Proof.Machine.execAlignComplete port lanes s
  | .alignFail port => Sys2Proof.Machine.execAlignFail port s
  | .identExchange port peer => Sys2Proof.Machine.execIdentExchange port peer s
  | .identTimeout port => Sys2Proof.Machine.execIdentTimeout port s
  | .calibrateComplete port trips => Sys2Proof.Machine.execCalibrateComplete port trips s
  | .trainTimeout port => Sys2Proof.Machine.execTrainTimeout port s
  | .laneLockLoss port lane => Sys2Proof.Machine.execLaneLockLoss port lane s
  | .fecErrorRate port => Sys2Proof.Machine.execFecErrorRate port s
  | .flitReceive port f => Sys2Proof.Machine.execFlitReceive port f s
  | .replayTimeout port => Sys2Proof.Machine.execReplayTimeout port s
  | .fabricSignal port m => Sys2Proof.Machine.execFabricSignal port m s
  | .fabricSignalAck port m => Sys2Proof.Machine.execFabricSignalAck port m s
  | .partialMsg port m => Sys2Proof.Machine.execPartialMsg port m s
  | .partialAck port m => Sys2Proof.Machine.execPartialAck port m s
  | .partialRetryResend dst seq => Sys2Proof.Machine.execPartialRetryResend dst seq s
  | .partialAbandon dst seq => Sys2Proof.Machine.execPartialAbandon dst seq s
  | .schedXferData port m => Sys2Proof.Machine.execSchedXferData port m s
  | .schedVote port m => Sys2Proof.Machine.execSchedVote port m s
  | .schedCommit port m => Sys2Proof.Machine.execSchedCommit port m s
  | .fwChunk port m => Sys2Proof.Machine.execFwChunk port m s
  | .fwAck port m => Sys2Proof.Machine.execFwAck port m s
  | .manifest port m => Sys2Proof.Machine.execManifest port m s
  | .thymeMsg port m t4 => Sys2Proof.Machine.execThymeMsg port m t4 s
  | .wmsg port m => Sys2Proof.Machine.execWmsg port m s
  | .linkNote port m => Sys2Proof.Machine.execLinkNote port m s
  | .e2eResendTimeout dst seq => Sys2Proof.Machine.execE2eResendTimeout dst seq s
  | .fabIdWrite v => Sys2Proof.Machine.execFabIdWrite v s
  | .thymeSendTick => Sys2Proof.Machine.execThymeSendTick s
  | .thymeRootTimeout roots => Sys2Proof.Machine.execThymeRootTimeout roots s
  | .thymeParentTimeout parent depth => Sys2Proof.Machine.execThymeParentTimeout parent depth s
  | .thymeHoldoverTick => Sys2Proof.Machine.execThymeHoldoverTick s
  | .thymeStateTimer => Sys2Proof.Machine.execThymeStateTimer s
  | .sxAdmit p tag => Sys2Proof.Machine.execSxAdmit p tag s
  | .sxStart p tag => Sys2Proof.Machine.execSxStart p tag s
  | .sxSuspend p tag => Sys2Proof.Machine.execSxSuspend p tag s
  | .sxResume p tag => Sys2Proof.Machine.execSxResume p tag s
  | .sxUnload p tag => Sys2Proof.Machine.execSxUnload p tag s
  | .sxUnknownOp p tag op => Sys2Proof.Machine.execSxUnknownOp p tag op s
  | .startDecision p => Sys2Proof.Machine.execStartDecision p s
  | .startBeatTimeout p => Sys2Proof.Machine.execStartBeatTimeout p s
  | .beatStepDispatch p step => Sys2Proof.Machine.execBeatStepDispatch p step s
  | .beatXferStart p xfer => Sys2Proof.Machine.execBeatXferStart p xfer s
  | .overrun p => Sys2Proof.Machine.execOverrun p s
  | .epochBoundary p => Sys2Proof.Machine.execEpochBoundary p s
  | .saveWindowEnd p => Sys2Proof.Machine.execSaveWindowEnd p s
  | .voteWindowTimeout p => Sys2Proof.Machine.execVoteWindowTimeout p s
  | .rollbackTrigger p => Sys2Proof.Machine.execRollbackTrigger p s
  | .rollbackReport p hub logBytes => Sys2Proof.Machine.execRollbackReport p hub logBytes s
  | .restartBeat p => Sys2Proof.Machine.execRestartBeat p s
  | .scheduleEnd p => Sys2Proof.Machine.execScheduleEnd p s
  | .pcieUnmappedRequest kind => Sys2Proof.Machine.execPcieUnmappedRequest kind s
  | .poisonedWrite => Sys2Proof.Machine.execPoisonedWrite s
  | .cplFailure c addr => Sys2Proof.Machine.execCplFailure c addr s
  | .cplErrorStatus c addr write => Sys2Proof.Machine.execCplErrorStatus c addr write s
  | .vfFlr vf => Sys2Proof.Machine.execVfFlr vf s
  | .pfFlr => Sys2Proof.Machine.execPfFlr s
  | .vfEnableClear => Sys2Proof.Machine.execVfEnableClear s
  | .numvfsWrite n enable => Sys2Proof.Machine.execNumvfsWrite n enable s
  | .d3hotEntry fn => Sys2Proof.Machine.execD3hotEntry fn s
  | .msixUnmask fn vector => Sys2Proof.Machine.execMsixUnmask fn vector s
  | .intStatusClear fn v hwSet => Sys2Proof.Machine.execIntStatusClear fn v hwSet s
  | .notifyHeadWrite vf v => Sys2Proof.Machine.execNotifyHeadWrite vf v s
  | .notifyCtrlWrite vf v => Sys2Proof.Machine.execNotifyCtrlWrite vf v s
  | .msgSend sideVf vf => Sys2Proof.Machine.execMsgSend sideVf vf s
  | .msgPendingClear sideVf vf => Sys2Proof.Machine.execMsgPendingClear sideVf vf s
  | .sageMessage m => Sys2Proof.Machine.execSageMessage m s
  | .sgPop v => Sys2Proof.Machine.execSgPop v s
  | .sgPinResume v => Sys2Proof.Machine.execSgPinResume v s
  | .pinHoldExpire => Sys2Proof.Machine.execPinHoldExpire s
  | .sageWindowClose src => Sys2Proof.Machine.execSageWindowClose src s
  | .sgSrcCfgWrite src v => Sys2Proof.Machine.execSgSrcCfgWrite src v s
  | .patrolScrub place found => Sys2Proof.Machine.execPatrolScrub place found s
  | .parityError src => Sys2Proof.Machine.execParityError src s
  | .replay a => Sys2Proof.Machine.execReplay a s
  | .replayRestoreComplete id => Sys2Proof.Machine.execReplayRestoreComplete id s
  | .selftestDue e => Sys2Proof.Machine.execSelftestDue e s
  | .selftestPreemptTimeout e => Sys2Proof.Machine.execSelftestPreemptTimeout e s
  | .selftestComplete u pass => Sys2Proof.Machine.execSelftestComplete u pass s
  | .wardenMismatch => Sys2Proof.Machine.execWardenMismatch s
  | .wardenRestartComplete => Sys2Proof.Machine.execWardenRestartComplete s
  | .sageParityError => Sys2Proof.Machine.execSageParityError s
  | .rmStoreWriteComplete readBack => Sys2Proof.Machine.execRmStoreWriteComplete readBack s
  | .rmSelect v => Sys2Proof.Machine.execRmSelect v s
  | .rmShutdown => Sys2Proof.Machine.execRmShutdown s
  | .rmClear => Sys2Proof.Machine.execRmClear s
  | .timeCommit => Sys2Proof.Machine.execTimeCommit s
  | .hoursTick => Sys2Proof.Machine.execHoursTick s
  | .bucketRefill => Sys2Proof.Machine.execBucketRefill s
  | .lcChallenge tag purpose partition => Sys2Proof.Machine.execLcChallenge tag purpose partition s
  | .lcTransition tag => Sys2Proof.Machine.execLcTransition tag s
  | .lcFinish tag => Sys2Proof.Machine.execLcFinish tag s
  | .lcTest tag => Sys2Proof.Machine.execLcTest tag s
  | .lcHubDebug tag => Sys2Proof.Machine.execLcHubDebug tag s
  | .lcPartitionDebug tag => Sys2Proof.Machine.execLcPartitionDebug tag s
  | .lcRma tag => Sys2Proof.Machine.execLcRma tag s
  | .lcRecorderClear tag => Sys2Proof.Machine.execLcRecorderClear tag s
  | .lcCertWrite tag => Sys2Proof.Machine.execLcCertWrite tag s
  | .lcAttest tag => Sys2Proof.Machine.execLcAttest tag s
  | .lcEndGrants tag => Sys2Proof.Machine.execLcEndGrants tag s
  | .lcUnknownOp tag op => Sys2Proof.Machine.execLcUnknownOp tag op s
  | .challengeExpire => Sys2Proof.Machine.execChallengeExpire s
  | .grantExpire g => Sys2Proof.Machine.execGrantExpire g s
  | .debugWindowRead off => Sys2Proof.Machine.execDebugWindowRead off s
  | .debugWindowWrite off v => Sys2Proof.Machine.execDebugWindowWrite off v s
  | .entropyHealthFail => Sys2Proof.Machine.execEntropyHealthFail s
  | .certRead fn tag => Sys2Proof.Machine.execCertRead fn tag s
  | .dbgKeySet fn tag => Sys2Proof.Machine.execDbgKeySet fn tag s
  | .powerInterval sensors energy => Sys2Proof.Machine.execPowerInterval sensors energy s
  | .pllRelockComplete e => Sys2Proof.Machine.execPllRelockComplete e s
  | .engineIdleTimeout e => Sys2Proof.Machine.execEngineIdleTimeout e s
  | .pwrLimitWrite v => Sys2Proof.Machine.execPwrLimitWrite v s
  | .pwrFmaxWrite v => Sys2Proof.Machine.execPwrFmaxWrite v s
  | .thermLimitsWrite v => Sys2Proof.Machine.execThermLimitsWrite v s
  | .fptCompose failed core => Sys2Proof.Machine.execFptCompose failed core s
  | .bootReqSample => Sys2Proof.Machine.execBootReqSample s
  | .bootLoad => Sys2Proof.Machine.execBootLoad s
  | .bootBroadcast => Sys2Proof.Machine.execBootBroadcast s
  | .bootUnknownOp => Sys2Proof.Machine.execBootUnknownOp s
  | .fwVerifyComplete => Sys2Proof.Machine.execFwVerifyComplete s
  | .fwRunning => Sys2Proof.Machine.execFwRunning s
  | .fwLoadStall => Sys2Proof.Machine.execFwLoadStall s
  | .pcieLinkUp speed width flit => Sys2Proof.Machine.execPcieLinkUp speed width flit s
  | .pcieLinkDown => Sys2Proof.Machine.execPcieLinkDown s
  | .clockSourceLock src => Sys2Proof.Machine.execClockSourceLock src s
  | .droopRecovery d => Sys2Proof.Machine.execDroopRecovery d s
  | .d3hotExit fn => Sys2Proof.Machine.execD3hotExit fn s
  | .vfFlrComplete vf => Sys2Proof.Machine.execVfFlrComplete vf s
  | .instructionCompletionPoint a n => Sys2Proof.Machine.execInstructionCompletionPoint a n s
  | .copyComplete cmd => Sys2Proof.Machine.execCopyComplete cmd s
  | .noRouteTimeout hub => Sys2Proof.Machine.execNoRouteTimeout hub s
  | .entropyHealthPass => Sys2Proof.Machine.execEntropyHealthPass s
  | .noEntropyTimeout => Sys2Proof.Machine.execNoEntropyTimeout s
  | .rmStoreReadComplete data => Sys2Proof.Machine.execRmStoreReadComplete data s
  | .cppUndefinedMessage port => Sys2Proof.Machine.execCppUndefinedMessage port s
  | .ofpUndefinedMessage port => Sys2Proof.Machine.execOfpUndefinedMessage port s

end Sys2Proof.Machine
end

