-- ==== Sys2Proof/Machine/Thyme.lean ====
section
/-! DEFINITION. The counter of Thyme (chapter 13). -/

namespace Sys2Proof.Machine

/-- One nanosecond of the spine clock. The count follows it; a lead still to remove makes it gain or lose one
nanosecond in each 10,000, and in ACQUIRING a lag of more than 1,000 ns halves its rate (R614, R619, R623).
(DESIGN CHOICE: log 2; DEDUCED: log 85) -/
def Thyme.tick (t : Thyme) : Thyme :=
  let half := decide (t.state = 2) && decide (t.slew < -1000)
  let fix := if half then t.phase % 2 == 0 else t.phase == 0 && t.slew != 0
  let d : Nat := if !fix then 1 else if 0 < t.slew then 2 else 0
  let slew : Int := if !fix then t.slew else if 0 < t.slew then t.slew - 1 else t.slew + 1
  { t with now := (t.now + d) % 2 ^ 64, slew := slew, phase := (t.phase + 1) % 10000 }

/-- One nanosecond passes. In reset the count stays at 0 (R614), and the spine is not clocked before a reference is
selected (R801). (DESIGN CHOICE: log 2) -/
def State.tick (s : State) : State :=
  if s.pins.por || s.pins.sysRst || s.boot.step < 2 then s else { s with thyme := s.thyme.tick }

end Sys2Proof.Machine
end

