-- ==== Sys2Proof/Safety.lean ====
section
/-! DEFINITION. What a safe run is, and the words that the statements use: when a command of each kind may act, and the
state it leaves. -/

namespace Sys2Proof.Machine

/-- The Warden is free for a command of LC_CMD: the PF decodes, no such command and no partition program is in progress,
no schedule command waits, and the Warden runs. -/
def State.lcFree (s : State) : Bool :=
  s.decodes .pf && !s.lc.busy && !s.wmb.busy && !s.sage.wardenDown && s.sx.isEmpty

/-- A function may make a request now: it decodes its BARs, firmware runs, the Warden is up, its block is not busy, the
tables let the function make it, and no reserved bit is set. -/
def State.mayAsk (s : State) (fn : Fn) (op : Nat) : Bool :=
  s.decodes fn && s.fwRuns && !(s.block fn).busy && !s.sage.wardenDown && reqFrom op fn
    && (s.block fn).a0 &&& (reqMask op).1 == (s.block fn).a0 && (s.block fn).a1 &&& (reqMask op).2.1 == (s.block fn).a1
    && (s.block fn).a2 &&& (reqMask op).2.2 == (s.block fn).a2

/-- The state in which a request of a function is in progress. -/
def State.asked (s : State) (fn : Fn) (op : Nat) (tag : BitVec 16) : State :=
  s.setBlock fn { s.block fn with busy := true, op := op, curTag := tag, subject := 0, waits := [], queued := false }

/-- ARG1 of a queue request names queue `q` of the context. -/
def State.namesQueue (s : State) (fn : Fn) (c q : Nat) : Bool :=
  let h := BitVec.ofNat 32 (s.block fn).a1
  hType h == 2 && hIndex h == q && q / 8 == c && hGen h == (s.queue q).gen && (s.queue q).state != 0

/-- The descriptor that a SEG_MAP in a function's block asks for. -/
def State.newSeg (s : State) (fn : Fn) (c : Nat) : Seg :=
  let b := s.block fn
  let h := BitVec.ofNat 32 (fld b.a2 31 0)
  let o := s.obj (hIndex h)
  { vpage := fld b.a1 31 0, pages := fld b.a1 56 32, pbase := o.base + 65536 * fld b.a2 55 32, object := h,
    keyIdx := if o.host then 31 else (s.ctx c).part, sourceFn := fnKey fn, host := o.host, present := bit b.a0 39,
    lro := bit b.a0 38, w := bit b.a0 37, rd := bit b.a0 36 }

/-- A fabric message of a type that has arrived for this hub and may be handled (R588, R589). -/
def State.hears (s : State) (port : Nat) (m : OfpMsg) (type : Nat) : Bool :=
  s.up && (s.build.fabricPorts != 0 || port == 31) && m.type.toNat == type && m.dstHub.toNat == s.myHub
    && (m.ownerTag == 0 || (s.part (tagPart m.ownerTag)).state != 0)

/-- The fence that a packet's HANDLE gives its command: none where the row signals its HANDLE and HANDLE names none. -/
def Packet.heldFence (p : Packet) : BitVec 32 :=
  let h := fld p.w0 63 32
  if signalsHandle (p.w0 % 256) (fld p.w0 15 8) && h / 2 ^ 28 == 0 then 0 else BitVec.ofNat 32 h

/-- The command that a packet of queue `q` starts as (R396). -/
def Packet.cmd (p : Packet) (q : Nat) : Cmd :=
  { ctx := q / 8, queue := q, op := p.w0 % 256, flags := fld p.w0 15 8, handle := p.heldFence, arg := p.w1,
    origin := p.origin, pos := p.pos, acted := false }

/-- The next packet of a queue may start (R396 to R398): the queue is ready, its context LIVE, its fence valid where it
names one to signal, and its identity is new. -/
def State.starts (s : State) (q : Nat) (p : Packet) (rest : List Packet) : Bool :=
  let h := fld p.w0 63 32
  s.up && decide ((s.queue q).decoded = p :: rest) && s.canStart q && (s.ctx (q / 8)).state == .live
    && (tfind s.cmds s.nextId).isNone
    && (!signalsHandle (p.w0 % 256) (fld p.w0 15 8) || h / 2 ^ 28 == 0
      || s.fenceValid (q / 8) (BitVec.ofNat 32 h) (some (q, p.pos, s.nextId)))

/-- Every earlier command of a queue, but for an enclosing CALL_RING, has completed (R399). -/
def State.alone (s : State) (q : Nat) : Bool := (s.startedCmds q).all fun e => e.2.op == 0x0B

/-- The state in which a packet has been read and its command listed; an enclosing CALL_RING completes with the last
packet of its buffer. -/
def State.begun (s : State) (q : Nat) (p : Packet) (rest : List Packet) : State :=
  ((s.fresh.2.setQueue q ((s.queue q).take p rest)).setCmd s.nextId (p.cmd q)).closeCall q

/-- The instruction `h` leaves queue `q` of a slot (R158, R219): the launch runs, `h` heads the queue and is legal, its
wait is satisfied, the scalar unit is free where `q` is the scalar queue, and its token counter is not at 255. -/
def State.leaves (s : State) (a : SlotId) (q : Nat) (h : QEntry) (id : Nat) (l : Launch) : Bool :=
  s.up && decide (s.inSlot a = some (id, l)) && l.status == .running && decide ((l.x.queue q).head? = some h)
    && wordOk h.word && l.x.waitOk h.word && (q != 3 || (!l.x.scalarBusy && l.semWait.isNone))
    && (!bit h.word 50 || decide (tget 0 (l.x.dropHead q h.word).regs.k (fld h.word 49 46) < 255))

/-- The signal of a word raises its token counter (R159). -/
def Exec.signalled (x : Exec) (w : Nat) : Exec :=
  if bit w 50 then { x with regs := { x.regs with k := tput x.regs.k (fld w 49 46) (tget 0 x.regs.k (fld w 49 46) + 1) } }
  else x

/-- The state after an instruction that completes as it leaves queue `q`: what it does to its launch, and its signal. -/
def State.ran (s : State) (q id : Nat) (l : Launch) (h : QEntry) (g : Exec → Exec) : State :=
  s.setLaunch id { l with x := (g (l.x.dropHead q h.word)).signalled h.word }

/-- As `ran`, for one that only writes registers. -/
def State.wrote (s : State) (q id : Nat) (l : Launch) (h : QEntry) (f : Regs → Regs) : State :=
  s.ran q id l h fun x => { x with regs := f x.regs }

/-- The state after an instruction that goes on after it has left queue `q`. -/
def State.flew (s : State) (q id : Nat) (l : Launch) (h : QEntry) (g : Exec → Exec) (eff : Effect) : State :=
  s.setLaunch id { l with x := { (g (l.x.dropHead q h.word)) with
    inflight := (g (l.x.dropHead q h.word)).inflight ++ [⟨eff, signalOf h.word⟩] } }

/-- The vector unit of an engine has issued once more. -/
def State.vectorIssued (s : State) (e : Nat) : State :=
  s.modEngine e fun y => { y with ctr := { y.ctr with vectorBusy := bump y.ctr.vectorBusy 1 } }

/-- The state after a vector instruction that completes as it leaves and only writes registers. -/
def State.vwrote (s : State) (a : SlotId) (id : Nat) (l : Launch) (h : QEntry) (f : Regs → Regs) : State :=
  (s.vectorIssued a.engine).wrote 1 id l h f

/-- The integer rows of the vector profile: opcode, command, and the operation on a lane (R242). -/
def intRows (a : SlotId) : List (Nat × Instr × (W32 → W32 → W32)) :=
  [(0x68, .viadd a, fun u v => u + v), (0x69, .visub a, fun u v => u - v), (0x6A, .vimul a, fun u v => u * v),
   (0x6B, .vimax a, fun u v => if u.slt v then v else u), (0x6C, .vimin a, fun u v => if u.slt v then u else v),
   (0x6D, .vand a, fun u v => u &&& v), (0x6E, .vor a, fun u v => u ||| v), (0x6F, .vxor a, fun u v => u ^^^ v),
   (0x70, .vshl a, fun u v => u <<< (v.toNat % 32)), (0x71, .vshr a, fun u v => u >>> (v.toNat % 32)),
   (0x72, .vsra a, fun u v => u.sshiftRight (v.toNat % 32))]

/-- The float rows of two operands whose result is checked: opcode, command by outcome of the check, and the operation
on values (R238). -/
def floatRows (a : SlotId) : List (Nat × (Check → Instr) × (FVal → FVal → FVal)) :=
  [(0x60, .vadd a, FVal.add), (0x61, .vsub a, fun u v => u.add v.neg), (0x62, .vmul a, FVal.mul)]

/-- The special functions: opcode, command by outcome of the check, and the function on a lane (R246). -/
def specialRows (a : SlotId) : List (Nat × (Check → Instr) × (W32 → W32)) :=
  [(0x79, .vexp2 a, fexp2), (0x7A, .vlog2 a, flog2), (0x7B, .vrcp a, frcp32), (0x7C, .vrsqrt a, frsqrt32),
   (0x7D, .vsqrt a, fsqrt32), (0x7E, .vtanh a, ftanh)]

/-- The float reductions: opcode, command, operation, and the value with no active lane (R248). -/
def reduceRows (a : SlotId) : List (Nat × Instr × (W32 → W32 → W32) × W32) :=
  [(0x80, .vrsum a, fadd32, 0), (0x81, .vrmax a, fop2 false fmaxV, 0xFF800000), (0x82, .vrmin a, fop2 false fminV, 0x7F800000)]

/-- The lanes of VD after an operation on VA and VB under the predicate of bits [25:23] (R217). -/
def Regs.lanes2 (r : Regs) (w : Nat) (f : W32 → W32 → W32) : Regs :=
  r.setV (fld w 45 41) (mergeLanes (r.getP (fld w 25 23)) (r.getV (fld w 45 41))
    (List.zipWith f (r.getV (fld w 40 36)) (r.getV (fld w 35 31))))

/-- The lanes of VD after an operation on VA under the predicate of bits [35:33] (R217). -/
def Regs.lanes1 (r : Regs) (w : Nat) (f : W32 → W32) : Regs :=
  r.setV (fld w 45 41) (mergeLanes (r.getP (fld w 35 33)) (r.getV (fld w 45 41)) ((r.getV (fld w 40 36)).map f))

/-- The next word of the program in progress is `w`, an instruction of opcode `op` (Table 6-11). -/
def State.stages (s : State) (op w : Nat) : Bool :=
  s.up && s.wmb.phase == .staging && s.wmb.word s.wmb.idx == w && wOp w == op && !s.sage.wardenDown

/-- As `stages`, for an instruction that names an open partition with no running schedule (R280). -/
def State.stagesPart (s : State) (op w p : Nat) : Bool :=
  s.stages op w && wPart w == p && decide (p < s.build.partitions) && (s.wmb.shadow.part p).state != 0 && !s.scheduleRuns p

/-- The instruction has been staged: it leaves this shadow, and the next word is up. -/
def State.staged (s : State) (u : Units) : State := { s with wmb := { s.wmb with shadow := u, idx := s.wmb.idx + 1 } }

/-- The Warden may begin a command of a partition's schedule block now (R635). -/
def State.sxFree (s : State) (p : Nat) : Bool :=
  s.decodes .pf && s.fwRuns && decide (p < s.build.partitions) && !(s.sched p).busy && !s.sage.wardenDown

/-- The state in which a command of a schedule block is in progress. -/
def State.sxBegun (s : State) (p op : Nat) (tag : BitVec 16) : State :=
  s.setSched p { s.sched p with busy := true, op := op, curTag := tag.toNat, queued := false }

/-- A scheduled message of a kind for the job of partition `p` has arrived (Table 13-10). -/
def State.hearsJob (s : State) (port p kind : Nat) (m : OfpMsg) : Bool :=
  s.hears port m 5 && s.jobOf m == some p && xferKind m == kind

/-- What every state keeps: device memory and host memory in their canonical form, and a size table that R49 allows. -/
def Inv (s : State) : Prop := Memory.wf s.mem = true ∧ Memory.wf s.hostMem = true ∧ s.build.legal = true

/-- A step answers a next state. -/
def Completes (s : State) : Prop := ∃ t, step s = .next t

end Sys2Proof.Machine
end

