-- ==== Sys2Proof/Certificates/Slice0/Obligations.lean ====
section
/-! DEFINITION. The statements for the provers, in terms of the words of Safety.lean. -/

open Sys2Proof Sys2Proof.Machine

/-- A step with a command at the front of the queue is that command's effect on the state with the rest of the queue (the
queue is the model's own, log 1). -/
def Obligations.StepTakesFront : Prop :=
  ∀ (s : State) (i : Instr) (rest : List Instr), s.pending = i :: rest → step s = exec i { s with pending := rest }

/-- On an empty queue one nanosecond of the spine clock passes (R614; that a step on an empty queue is such a tick is the
model's choice, log 2): with no lead or lag to remove the count rises by one and nothing else but the place in the
correction cycle changes; in reset, and before a reference is selected, nothing changes. No command but a THYME message
changes the count, unless a hub reset leaves it at 0, and a THYME message only ever moves it forward. -/
def Obligations.ThymeCountsTime : Prop :=
  (∀ s : State, s.pending = [] → s.pins.por = false → s.pins.sysRst = false → 2 ≤ s.boot.step → s.thyme.slew = 0 →
    step s = .next { s with thyme := { s.thyme with now := (s.thyme.now + 1) % 2 ^ 64,
                                                    phase := (s.thyme.phase + 1) % 10000 } }) ∧
  (∀ s : State, s.pending = [] → (s.pins.por = true ∨ s.pins.sysRst = true ∨ s.boot.step < 2) → step s = .next s) ∧
  (∀ (i : Instr) (s t : State), exec i s = .next t → (∀ p m a, i ≠ .thymeMsg p m a) →
    t.thyme.now = s.thyme.now ∨ t.thyme.now = 0) ∧
  (∀ (s t : State) (p : Nat) (m : OfpMsg) (a : BitVec 64), exec (.thymeMsg p m a) s = .next t →
    t.thyme.now = s.thyme.now ∨ ∃ n, 1000 < n ∧ t.thyme.now = (s.thyme.now + n) % 2 ^ 64)

/-- Asserting por_n or sys_rst_n puts every register at its reset value (R41). What a reset does not reach stays: the size
table, host memory, the fuses, what has been sent, and the model's own counters and queue (log 4). A reset in which both
are asserted together counts as a power cycle, in either order of assertion, and a reset by sys_rst_n alone does not.
Releasing the reset starts bring-up: the LC word is read and a boot nonce drawn (R766, R782). -/
def Obligations.HubResetAndRelease : Prop :=
  (∀ s : State, exec .porNAssert s = .next { State.reset with
      build := s.build, pins := ⟨true, s.pins.sysRst, true⟩, hostMem := s.hostMem,
      lc := { State.reset.lc with otp := s.lc.otp, draws := s.lc.draws }, out := s.out, nextId := s.nextId,
      freeCtr := s.freeCtr, pending := s.pending }) ∧
  (∀ s : State, exec .sysRstNAssert s = .next { State.reset with
      build := s.build, pins := ⟨s.pins.por, true, (s.pins.por || s.pins.sysRst) && s.pins.powerCycle⟩,
      hostMem := s.hostMem, lc := { State.reset.lc with otp := s.lc.otp, draws := s.lc.draws }, out := s.out,
      nextId := s.nextId, freeCtr := s.freeCtr, pending := s.pending }) ∧
  (∀ s : State, (s.pins.por || s.pins.sysRst) = true → ∃ t, exec .hubResetRelease s = .next t ∧
      t.pins.por = false ∧ t.pins.sysRst = false ∧ t.boot = { s.boot with step := 1 } ∧
      t.rm = { s.rm with porCaused := s.pins.powerCycle } ∧ t.lc.raw = tget 0 s.lc.otp 0 ∧ t.lc.bootNonce.length = 32 ∧
      { t with pins := s.pins, lc := s.lc, rm := s.rm, boot := s.boot } = s) ∧
  (∀ s : State, ∃ t u, exec .porNAssert s = .next t ∧ exec .sysRstNAssert t = .next u ∧ u.pins = ⟨true, true, true⟩ ∧
    u.units = {} ∧ u.ctxs = [] ∧ u.engines = [] ∧ u.fps = [] ∧ u.cps = [] ∧ u.mem = [] ∧ u.ep = {} ∧ u.thyme = {}) ∧
  (∀ s : State, ∃ t u, exec .sysRstNAssert s = .next t ∧ exec .porNAssert t = .next u ∧ u.pins = ⟨true, true, true⟩) ∧
  (∀ s : State, s.pins.por = false → s.pins.sysRst = false → ∃ t, exec .sysRstNAssert s = .next t ∧
    t.pins = ⟨false, true, false⟩ ∧ t.units = {} ∧ t.ctxs = [] ∧ t.engines = [] ∧ t.fps = [] ∧ t.cps = [] ∧
    t.mem = [] ∧ t.ep = {} ∧ t.thyme = {})

/-- The registers that the tables give a reset value other than zero hold it at reset, and no command waits; the invariant
that every step keeps holds there. -/
def Obligations.ResetValues : Prop :=
  State.reset.pw.limit = 0x820 ∧ State.reset.pw.fmax = 1000 ∧ State.reset.pw.clkFallback = true ∧
  State.reset.pw.clkActive = 2 ∧ State.reset.pw.warn = 0x4F8 ∧ State.reset.pw.emerg = 0x548 ∧ State.reset.pw.trip = 0x5C0 ∧
  State.reset.rm.bucket = 64 ∧ State.reset.ep.bar4MiB = 32 ∧ (State.reset.vf 0).bar4MiB = 4096 ∧
  State.reset.holdLimitOf 0 = 10 ∧ State.reset.thyme.now = 0 ∧ State.reset.sage.pin = 0 ∧ State.reset.fwRuns = false ∧
  (State.reset.srcCfg 0x011).map (fun c => (c.threshold, c.windowMs, c.minorReact, c.severeReact)) =
    some (255, 1000, 0, 1) ∧ State.reset.pending = [] ∧ Inv State.reset

/-- Asserting perst_n resets the host island only (R42): the endpoint is down, its functions' interrupts are clear and
PERST_COUNT rises; partitions, contexts' device memory, engines, chiplet and fabric ports, the fabric and Thyme stay. -/
def Obligations.PerstResetsHostIslandOnly : Prop :=
  ∀ s : State, s.pins.por = false → s.pins.sysRst = false → ∃ t, exec .perstNAssert s = .next t ∧
    t.ep.down = true ∧ t.ep.width = 0 ∧ t.ep.int = {} ∧ t.ep.perstCount = min (s.ep.perstCount + 1) 255 ∧
    t.ep.vfEnable = false ∧ t.ep.numVfs = 0 ∧ (∀ v, v < 64 → (t.vf v).int = {} ∧ (t.vf v).resetting = false) ∧
    t.units = s.units ∧ t.mem = s.mem ∧ t.hostMem = s.hostMem ∧ t.engines = s.engines ∧ t.ctxs = s.ctxs ∧
    t.objs = s.objs ∧ t.fences = s.fences ∧ t.cps = s.cps ∧ t.fps = s.fps ∧ t.fab = s.fab ∧ t.thyme = s.thyme ∧
    t.pw = s.pw ∧ t.boot = s.boot ∧ t.lc = s.lc ∧ t.out = s.out

/-- Regulators and droop (R43, R44, R810, R813, R827 to R830). Loss of power-good retires the engine of an engine domain
and resets the hub for any other domain. An acknowledged change of a domain that is no engine's takes its requested code.
A change that is not acknowledged is withdrawn for 10 ms and reported. Over-current and droop are reported, and lower or
halve the engine's clock. -/
def Obligations.RegulatorsAndDroop : Prop :=
  (∀ (s : State) (d : Nat), s.up = true → d < s.build.engines → exec (.ivrPgLoss d) s = .next
    (((s.setDomain d { s.domain d with pg := false }).sageFail (0x020 + d) 0x0A).retireUnit (.engine d) (0x020 + d) 0x0A)) ∧
  (∀ (s : State) (d : Nat), s.up = true → s.build.engines ≤ d → 16 ≤ d → d ≤ 21 → ∃ t, exec (.ivrPgLoss d) s = .next t ∧
    t.pins = ⟨false, false, false⟩ ∧ t.boot.step = 1 ∧ t.units = {} ∧ t.ctxs = [] ∧ t.engines = [] ∧ t.mem = [] ∧
    t.thyme = {} ∧ t.lc.otp = s.lc.otp) ∧
  (∀ (s : State) (d : Nat), s.up = true → s.build.engines ≤ d → 16 ≤ d → d ≤ 21 → s.sx = [] →
    exec (.ivrAck d) s = .next (s.setDomain d { s.domain d with vid := (s.domain d).reqVid, pending := false })) ∧
  (∀ (s : State) (d : Nat), s.up = true → (s.domain d).pending = true → (s.domain d).relocking = false →
    exec (.ivrAckTimeout d) s = .next ((s.setDomain d { s.domain d with
      pending := false, waiting := none, reqVid := (s.engine d).vid, holdOff := s.thyme.now + 10000000 }).sageFail
        (0x020 + d) 0x0A)) ∧
  (∀ (s : State) (d f : Nat), s.up = true → (s.domain d).pending = false → s.thyme.now < (s.domain d).holdOff →
    s.setPoint d f = s) ∧
  (∀ (s : State) (d : Nat), s.up = true → s.hasDomain d = true → (s.build.engines ≤ d ∨ (s.engine d).pinned = true) →
    exec (.ivrOcAssert d) s = .next ((s.setDomain d { s.domain d with oc := true }).sageFail (0x020 + d) 0x0A)) ∧
  (∀ (s : State) (d : Nat), s.up = true → d < s.build.engines → (s.engine d).pinned = false →
    exec (.ivrOcAssert d) s = .next (((s.setDomain d { s.domain d with oc := true }).sageFail (0x020 + d) 0x0A).setPoint d
      (max 400 ((s.engine d).freq - 100)))) ∧
  (∀ (s : State) (d : Nat), s.up = true → d < s.build.engines → ∃ t, exec (.droop d) s = .next t ∧
    t.pw.droops = bump s.pw.droops 1 ∧ t.engine d = { s.engine d with halved := true } ∧
    (∃ m, t.sage.wire = s.sage.wire ++ [m] ∧ m.source = BitVec.ofNat 12 (0x020 + d) ∧ m.kind = 0x0A) ∧
    { t with pw := s.pw, engines := s.engines, sage := s.sage } = s) ∧
  (∀ (s : State) (d : Nat), s.up = true → d < s.build.engines →
    exec (.droopRecovery d) s = .next (s.setEngine d { s.engine d with halved := false })) ∧
  (∀ (s : State) (e : Nat), s.up = true → s.sx = [] → (s.domain e).pending = true → (s.domain e).relocking = true →
    (s.domain e).waiting = none → (s.engine e).freq < (s.domain e).toFreq →
    exec (.pllRelockComplete e) s = .next ((s.setEngine e { s.engine e with freq := (s.domain e).toFreq }).setDomain e
      { s.domain e with pending := false, relocking := false, waiting := none })) ∧
  (∀ (s : State) (e : Nat), s.up = true → e < s.build.engines → (s.engine e).slots = [] → (s.engine e).pinned = false →
    (s.domain e).pending = false → (s.domain e).holdOff ≤ s.thyme.now → 400 < (s.engine e).freq →
    exec (.engineIdleTimeout e) s = .next
      (s.setDomain e { s.domain e with pending := true, toFreq := 400, relocking := true }))

/-- Temperature (R45, R831 to R833). A sensor without a valid code, or one at TRIP, drives the hub to the safe state with
Rosemary's record of the source. An emergency begins once: it is counted, reported and recorded, and every engine loses
its pin; its end restores the reservations. Where no static schedule runs, the end changes only the flag. -/
def Obligations.ThermalControl : Prop :=
  (∀ (s : State) (n : Nat), s.up = true → n < 32 → ∃ t, exec (.tsValidTimeout n) s = .next t ∧ t.sage.safe = true ∧
    t.sage.pin = 0 ∧ t.up = false ∧ bit t.pw.valid n = false ∧ t.mem = s.mem ∧ t.units = s.units) ∧
  (∀ (s : State) (n : Nat) (c : BitVec 11), s.up = true → n < 32 → s.pw.trip ≤ c.toNat →
    ∃ t, exec (.thermalTrip n c) s = .next t ∧ t.sage.safe = true ∧ t.sage.pin = 0 ∧ t.up = false ∧
      tget 0 t.pw.codes n = c.toNat ∧ t.mem = s.mem ∧ t.units = s.units) ∧
  (∀ (s : State) (n : Nat) (c : BitVec 11), s.up = true → n < 32 → s.pw.emerg ≤ c.toNat → s.pw.emergency = false →
    ∃ t, exec (.thermalEmergency n c) s = .next t ∧ t.pw.emergency = true ∧
      t.pw.emergencies = bump s.pw.emergencies 1 ∧ tget 0 t.pw.codes n = c.toNat ∧
      (∀ e, e < s.build.engines → (t.engine e).pinned = false) ∧
      (∃ m, t.sage.wire = s.sage.wire ++ [m] ∧ m.source = BitVec.ofNat 12 (0x040 + n) ∧ m.kind = 0x0C) ∧
      t.mem = s.mem ∧ t.units = s.units ∧ t.ctxs = s.ctxs) ∧
  (∀ s : State, s.up = true → s.pw.emergency = true → s.sx = [] →
    exec .thermalEmergencyEnd s = .next { s with pw := { s.pw with emergency := false } })

/-- Reference clocks (R802 to R807). The first reference clocks every island and starts the reading of the record store;
without one the hub reports source 0x060. Loss of the active reference moves the PLLs to the other locked source or into
holdover, which ends when a locked source returns and leads to the safe state when it lasts. A write that names a source
without lock is ignored (R805). -/
def Obligations.ReferenceClocks : Prop :=
  (∀ s : State, s.up = true → s.boot.step = 1 → s.build.engines ≤ 16 → ∃ t, exec .refClockSelect s = .next t ∧
    t.boot.step = 3 ∧ t.pw.refPresent = true ∧ t.pw.clkActive = 0 ∧ (t.domain 16).pg = true ∧
    (t.domain 21).vid = 0x3C ∧ (∀ e, e < s.build.engines → (t.domain e).pg = true ∧ (t.domain e).vid = 0x46) ∧
    { t with pw := s.pw, boot := s.boot, rm := s.rm } = s) ∧
  (∀ (s : State) (p : Nat), s.up = true → s.boot.step = 1 → s.pw.refPresent = false → p < s.build.fabricPorts →
    ∃ t, exec (.fabRecClockSelect p) s = .next t ∧ t.boot.step = 3 ∧ t.pw.recLocked = true ∧ t.pw.recPort = p ∧
      t.pw.clkPort = p ∧ t.pw.clkSource = 1 ∧ t.pw.clkActive = 1 ∧ { t with pw := s.pw, boot := s.boot, rm := s.rm } = s) ∧
  (∀ s : State, s.up = true → s.boot.step = 1 → exec .noReferenceTimeout s = .next (s.sageFail 0x060 0x0B)) ∧
  (∀ s : State, s.up = true → s.pw.clkActive = 1 → exec .refClockLoss s = .next { s with pw := { s.pw with
    recLocked := false, clkActive := if s.pw.clkFallback && s.pw.refPresent then 0 else 3 } }) ∧
  (∀ s : State, s.up = true → s.pw.clkActive = 0 → ∃ t, exec .refClockLoss s = .next t ∧ t.pw.refPresent = false ∧
    t.pw.clkActive = (if s.pw.clkFallback && s.pw.recLocked then 1 else 3) ∧ t.ep.down = true ∧ t.units = s.units ∧
    t.mem = s.mem ∧ t.fps = s.fps) ∧
  (∀ s : State, s.up = true → s.pw.clkActive = 3 → ∃ t, exec .holdoverTimeout s = .next t ∧ t.sage.safe = true ∧
    t.sage.pin = 0 ∧ t.pw = s.pw ∧ t.mem = s.mem) ∧
  (∀ s : State, s.up = true → s.pw.clkActive = 3 → exec (.clockSourceLock .ref) s = .next { s with pw := { s.pw with
    refPresent := true, clkActive := 0 } }) ∧
  (∀ s : State, s.up = true → s.pw.clkActive = 3 → s.pw.clkPort < s.build.fabricPorts →
    exec (.clockSourceLock (.fab s.pw.clkPort)) s = .next { s with pw := { s.pw with
      recLocked := true, recPort := s.pw.clkPort, clkActive := 1 } }) ∧
  (∀ (s : State) (v : BitVec 64), s.decodes .pf = true → bit v.toNat 0 = false → s.pw.refPresent = true →
    ∃ t, exec (.clkCtrlWrite v) s = .next t ∧ t.pw.clkSource = 0 ∧ t.pw.clkFallback = bit v.toNat 1 ∧
      t.pw.clkPort = fld v.toNat 12 8 ∧ t.thyme = s.thyme ∧ { t with pw := s.pw } = s) ∧
  (∀ (s : State) (v : BitVec 64), s.decodes .pf = true → bit v.toNat 0 = false → s.pw.refPresent = false →
    exec (.clkCtrlWrite v) s = .next s) ∧
  (∀ (s : State) (v : BitVec 64), s.decodes .pf = true → bit v.toNat 0 = true →
    (s.pw.recLocked = false ∨ s.pw.recPort ≠ fld v.toNat 12 8) → exec (.clkCtrlWrite v) s = .next s)

/-- A write of EMERG at or below WARN, of either value at or above TRIP, or of PWR_FMAX outside 400 to 1,250 or not a
multiple of 25, keeps the previous value (R836). -/
def Obligations.BadLimitsKeepThePreviousValue : Prop :=
  (∀ (s : State) (v : BitVec 64), fld v.toNat 26 16 ≤ fld v.toNat 10 0 → exec (.thermLimitsWrite v) s = .next s) ∧
  (∀ (s : State) (v : BitVec 64), s.pw.trip ≤ fld v.toNat 26 16 ∨ s.pw.trip ≤ fld v.toNat 10 0 →
    exec (.thermLimitsWrite v) s = .next s) ∧
  (∀ (s : State) (v : BitVec 64), fld v.toNat 10 0 < 400 ∨ 1250 < fld v.toNat 10 0 ∨ fld v.toNat 10 0 % 25 ≠ 0 →
    exec (.pwrFmaxWrite v) s = .next s)

/-- Writes of the power block, and the control interval (R816 to R826, R836). A limit in range that covers the non-engine
draw and the shares is taken, one that does not is refused and flagged, one out of range is ignored. In an interval
without open partitions or energy, an idle hub's estimate is its non-engine draw and the excess of R817 (a free value, log
27), and no clock moves. -/
def Obligations.PowerBlock : Prop :=
  (∀ (s : State) (v : BitVec 64), s.decodes .pf = true → 1000 ≤ fld v.toNat 15 0 → fld v.toNat 15 0 ≤ 2480 →
    nonEngine s.build + ((s.units.parts.filter fun e => e.2.state != 0).map fun e => e.2.power).sum ≤ fld v.toNat 15 0 →
    exec (.pwrLimitWrite v) s = .next { s with pw := { s.pw with limit := fld v.toNat 15 0 } }) ∧
  (∀ (s : State) (v : BitVec 64), s.decodes .pf = true → 1000 ≤ fld v.toNat 15 0 → fld v.toNat 15 0 ≤ 2480 →
    fld v.toNat 15 0 < nonEngine s.build + ((s.units.parts.filter fun e => e.2.state != 0).map fun e => e.2.power).sum →
    exec (.pwrLimitWrite v) s = .next { s with pw := { s.pw with limitRefused := true } }) ∧
  (∀ (s : State) (v : BitVec 64), fld v.toNat 15 0 < 1000 ∨ 2480 < fld v.toNat 15 0 →
    exec (.pwrLimitWrite v) s = .next s) ∧
  (∀ (s : State) (v : BitVec 64), s.decodes .pf = true → 400 ≤ fld v.toNat 10 0 → fld v.toNat 10 0 ≤ 1250 →
    fld v.toNat 10 0 % 25 = 0 → ∃ t, exec (.pwrFmaxWrite v) s = .next t ∧ t.pw.fmax = fld v.toNat 10 0 ∧
      t.pw.fmaxEff ≤ fld v.toNat 10 0 ∧ { t with pw := s.pw } = s) ∧
  (∀ (s : State) (v : BitVec 64), s.decodes .pf = true → fld v.toNat 10 0 < fld v.toNat 26 16 →
    fld v.toNat 26 16 < s.pw.trip →
    exec (.thermLimitsWrite v) s = .next { s with pw := { s.pw with emerg := fld v.toNat 26 16, warn := fld v.toNat 10 0 } }) ∧
  (∀ s : State, s.up = true → s.units.parts = [] → s.pw.emergency = false → (∀ e, e < s.build.engines → (s.engine e).freq = 400) →
    ∃ t, exec (.powerInterval [] []) s = .next t ∧ t.pw.estimate = nonEngine s.build + Config.excess s.thyme.now / quarterPj ∧ t.pw.throttling = false ∧
      t.pw.valid = 0 ∧ t.engines = s.engines ∧ { t with pw := s.pw } = s) ∧
  (∀ (s : State) (n : Nat) (c : BitVec 11), s.up = true → s.units.parts = [] → n < 32 → s.pw.warn < c.toNat →
    (∀ e, e < s.build.engines → (s.engine e).freq = 400) →
    ∃ t, exec (.powerInterval [(n, c)] []) s = .next t ∧ tget 0 t.pw.codes n = c.toNat ∧ t.pw.valid = 2 ^ n ∧
      t.pw.fmaxEff = max 400 (s.pw.fmaxEff - 25) ∧ { t with pw := s.pw } = s)

/-- The PCIe link and its errors (R42, R665 to R669, R698, R699, R839). A trained link brings the endpoint up and what
waited for the host goes on; a lost one takes it down and nothing outside the endpoint but the launches with host moves in
flight. An unmapped read completes with zeros, an unmapped write is dropped, an AtomicOp or I/O request ends with
Unsupported Request. A poisoned write, a failed completion and an error status are counted or reported. -/
def Obligations.PcieLinkAndErrors : Prop :=
  (∀ (s : State) (sp w : Nat) (fl : Bool), s.up = true → s.pw.refPresent = true → 1 ≤ sp → sp ≤ 6 →
    w ∈ [1, 2, 4, 8, 16] → exec (.pcieLinkUp sp w fl) s =
      .next (State.hostResume { s with ep := { s.ep with down := false, speed := sp, width := w, flit := fl } })) ∧
  (∀ s : State, s.up = true → ∃ t, exec .pcieLinkDown s = .next t ∧
    t.ep = { s.ep with down := true, width := 0, speed := 0, flit := false } ∧ t.units = s.units ∧ t.mem = s.mem ∧
    t.hostMem = s.hostMem ∧ t.ctxs = s.ctxs ∧ t.objs = s.objs ∧ t.engines = s.engines ∧ t.fps = s.fps ∧ t.out = s.out) ∧
  (∀ s : State, s.linkUp = true → exec (.pcieUnmappedRequest .memRead) s =
    .next { s with out := s.out ++ [Out.completion .pf [0, 0, 0, 0]] }) ∧
  (∀ s : State, s.linkUp = true → exec (.pcieUnmappedRequest .memWrite) s = .next s) ∧
  (∀ (s : State) (k : PcieReq), s.linkUp = true → (k = .atomicOp ∨ k = .io) →
    exec (.pcieUnmappedRequest k) s = .next { s with out := s.out ++ [Out.attentionUr] }) ∧
  (∀ s : State, s.linkUp = true → s.sage.safe = false → exec .poisonedWrite s =
    .next (State.sageFail { s with ep := { s.ep with poisoned := bump s.ep.poisoned 1 } } 0x700 2)) ∧
  (∀ (s : State) (c : Nat) (a : BitVec 64), s.linkUp = true → s.sage.safe = false → exec (.cplFailure c a) s =
    .next (State.sageSend { s with ep := { s.ep with cplFailed := bump s.ep.cplFailed 1 } } 0x700 5 (s.tag c) 15 a.toNat)) ∧
  (∀ (s : State) (c : Nat) (a : BitVec 64) (w : Bool), s.linkUp = true → s.sage.safe = false →
    exec (.cplErrorStatus c a w) s =
      .next (s.fault c 1 { source := 0x701, access := if w then 1 else 0, address := a.toNat }))

/-- Function Level Reset, VF Enable, NumVFs and D3hot (R664, R687 to R693). A VF in reset stops and its contexts abort;
completion restores its registers, sets its bit of VF_RESET_DONE and raises cause 4 of the PF. -/
def Obligations.FunctionResets : Prop :=
  (∀ (s : State) (v : Nat), s.up = true → s.linkUp = true → s.vfOn v = true → (s.vf v).resetting = false →
    exec (.vfFlr v) s = .next (((s.ctxs.filter fun e => e.2.vf = v && (e.2.state == .live || e.2.state == .lost)).map
      (·.1)).foldl (fun s c => s.startAbort c none) (s.setVf v { s.vf v with resetting := true }))) ∧
  (∀ (s : State) (v : Nat), s.up = true → (s.vf v).resetting = true →
    (∀ e ∈ s.ctxs, e.2.vf = v → e.2.state ≠ .aborting) → (s.block (.vf v)).busy = false →
    ∃ t, exec (.vfFlrComplete v) s = .next t ∧ (t.vf v).resetting = false ∧ (t.vf v).int = {} ∧ (t.vf v).aps = [] ∧
      (t.vf v).notifyEnable = false ∧ t.missq (.vf v) = {} ∧ t.block (.vf v) = {} ∧
      t.ep.resetDone = s.ep.resetDone ||| 2 ^ v ∧ bit t.ep.int.status 4 = true ∧ t.ctxs = s.ctxs ∧ t.units = s.units ∧
      t.mem = s.mem ∧ t.engines = s.engines) ∧
  (∀ s : State, s.up = true → s.linkUp = true → ∃ t, exec .pfFlr s = .next t ∧ t.ep.vfEnable = false ∧ t.ep.int = {} ∧
    t.ep.msgPending = 0 ∧ t.ep.resetDone = 0 ∧ t.ep.d3hot = false) ∧
  (∀ s : State, s.up = true → s.linkUp = true → s.ep.numVfs = 0 →
    exec .vfEnableClear s = .next { s with ep := { s.ep with vfEnable := false } }) ∧
  (∀ s : State, s.up = true → s.linkUp = true → ∃ t, exec .vfEnableClear s = .next t ∧ t.ep.vfEnable = false) ∧
  (∀ (s : State) (n : Nat) (en : Bool), s.linkUp = true → n ≤ 64 → exec (.numvfsWrite n en) s =
    .next { s with ep := { s.ep with numVfs := n, vfEnable := s.ep.vfEnable || en } }) ∧
  (∀ s : State, s.linkUp = true → exec (.d3hotEntry .pf) s = .next { s with ep := { s.ep with d3hot := true } }) ∧
  (∀ (s : State) (v : Nat), s.linkUp = true →
    exec (.d3hotEntry (.vf v)) s = .next (s.setVf v { s.vf v with d3hot := true })) ∧
  (∀ s : State, s.linkUp = true → exec (.d3hotExit .pf) s = .next { s with ep := { s.ep with d3hot := false } }) ∧
  (∀ (s : State) (v : Nat), s.linkUp = true →
    exec (.d3hotExit (.vf v)) s = .next (s.setVf v { s.vf v with d3hot := false }))

/-- Interrupts, notification registers and messages between functions (R678 to R686). -/
def Obligations.InterruptsAndMessages : Prop :=
  (∀ (s : State) (v : Nat), s.decodes .pf = true → v < 16 → ∃ t, exec (.msixUnmask .pf v) s = .next t ∧
    t.ep.int.msixEnable = true ∧ v ∈ t.ep.int.unmasked ∧ v ∉ t.ep.int.pending ∧ t.ep.int.status = s.ep.int.status ∧
    t.out = (if v ∈ s.ep.int.pending then s.out ++ [Out.msix .pf v] else s.out) ∧
    { t with ep := s.ep, out := s.out } = s) ∧
  (∀ (s : State) (w : BitVec 64), s.decodesBase .pf = true → exec (.intStatusClear .pf w 0) s = .next { s with ep :=
    { s.ep with int := { s.ep.int with status := s.ep.int.status - (s.ep.int.status &&& w.toNat % 2 ^ 5) } } }) ∧
  (∀ (s : State) (v : Nat) (w : BitVec 64), s.decodesBase (.vf v) = true → exec (.intStatusClear (.vf v) w 0) s =
    .next (s.setVf v { s.vf v with
      int := { (s.vf v).int with status := (s.vf v).int.status - ((s.vf v).int.status &&& w.toNat % 2 ^ 6) } })) ∧
  (∀ (s : State) (w : BitVec 64), s.decodesBase .pf = true → ∃ t, exec (.intStatusClear .pf w 1) s = .next t ∧
    bit t.ep.int.status 0 = true) ∧
  (∀ (s : State) (v : Nat) (w : BitVec 64), s.decodes (.vf v) = true →
    ahead32 (w.toNat % 2 ^ 32) (s.vf v).notifyTail ≤ ahead32 (s.vf v).notifyHead (s.vf v).notifyTail →
    exec (.notifyHeadWrite v w) s = .next (s.setVf v { s.vf v with notifyHead := w.toNat % 2 ^ 32 })) ∧
  (∀ (s : State) (v : Nat) (w : BitVec 64), s.decodes (.vf v) = true → (s.vf v).notifyEnable = false →
    exec (.notifyCtrlWrite v w) s = .next (s.setVf v { s.vf v with
      notifyOverflow := (s.vf v).notifyOverflow && !bit w.toNat 9, notifySize := fld w.toNat 4 0,
      notifyEnable := bit w.toNat 8 && decide (9 ≤ fld w.toNat 4 0) && decide (fld w.toNat 4 0 ≤ 16) })) ∧
  (∀ (s : State) (v : Nat) (w : BitVec 64), s.decodes (.vf v) = true → (s.vf v).notifyEnable = true →
    ∃ t, exec (.notifyCtrlWrite v w) s = .next t ∧ (t.vf v).notifySize = (s.vf v).notifySize) ∧
  (∀ (s : State) (v : Nat), s.decodes (.vf v) = true → (s.vf v).msg.toBusy = false →
    ∃ t, exec (.msgSend true v) s = .next t ∧ (t.vf v).msg.toBusy = true ∧ bit t.ep.msgPending v = true ∧
      bit t.ep.int.status 3 = true ∧
      (∀ i, i < 4 → tget 0 (tget {} t.ep.msgs v).inbox i = tget 0 (s.vf v).msg.out i) ∧
      { t with ep := s.ep, out := s.out } = s) ∧
  (∀ (s : State) (v : Nat), s.decodes (.vf v) = true → (s.vf v).msg.toBusy = true →
    exec (.msgSend true v) s = .next (s.setVf v { s.vf v with msg := { (s.vf v).msg with lost := true } })) ∧
  (∀ (s : State) (v : Nat), s.decodes .pf = true → v < 64 → (tget {} s.ep.msgs v).toBusy = false →
    (s.vf v).resetting = false →
    ∃ t, exec (.msgSend false v) s = .next t ∧ (tget {} t.ep.msgs v).toBusy = true ∧ (t.vf v).msg.fromValid = true ∧
      bit (t.vf v).int.status 5 = true ∧
      (∀ i, i < 4 → tget 0 (t.vf v).msg.inbox i = tget 0 (tget {} s.ep.msgs v).out i) ∧
      { t with ep := s.ep, out := s.out } = s) ∧
  (∀ (s : State) (v : Nat), s.decodes (.vf v) = true → (s.vf v).msg.fromValid = true →
    ∃ t, exec (.msgPendingClear true v) s = .next t ∧ (t.vf v).msg.fromValid = false ∧
      (tget {} t.ep.msgs v).toBusy = false ∧ { t with ep := s.ep } = s) ∧
  (∀ (s : State) (v : Nat), s.decodesBase .pf = true → bit s.ep.msgPending v = true →
    ∃ t, exec (.msgPendingClear false v) s = .next t ∧ (t.vf v).msg.toBusy = false ∧ bit t.ep.msgPending v = false ∧
      { t with ep := s.ep } = s)

/-- Writes of registers without a command of their own (R17, R18, R22, R666): eight aligned bytes in BAR0 of a function
that decodes its BARs; fewer change nothing outside the MSI-X table; a bit marked W1C clears, or stays with what the
hardware sets in the same cycle; a register that is locked while in use ignores the write. -/
def Obligations.RegisterWrites : Prop :=
  (∀ (s : State) (fn : Fn) (bar o w : Nat) (v h : BitVec 64), bar ≠ 0 →
    exec (.registerWrite fn bar o w v h) s = .next s) ∧
  (∀ (s : State) (o w : Nat) (v h : BitVec 64), w ≠ 8 → (o < 0x4000 ∨ 0x4100 ≤ o) →
    exec (.registerWrite .pf 0 o w v h) s = .next s) ∧
  (∀ (s : State) (v h : BitVec 64), s.decodesBase .pf = true → exec (.registerWrite .pf 0 0x1010 8 v h) s = .next
    { s with ep := { s.ep with resetDone := (s.ep.resetDone - (s.ep.resetDone &&& v.toNat)) ||| h.toNat } }) ∧
  (∀ (s : State) (v h : BitVec 64), s.decodesBase .pf = true → s.up = true →
    exec (.registerWrite .pf 0 0x40008 8 v h) s = .next { s with pw := { s.pw with
      limitRefused := (s.pw.limitRefused && !bit v.toNat 2) || bit h.toNat 2 } }) ∧
  (∀ (s : State) (v h : BitVec 64) (k : Nat), s.decodesBase .pf = true → s.up = true → s.fwRuns = true →
    s.wmb.busy = false → k < 512 → exec (.registerWrite .pf 0 (0x11000 + 8 * k) 8 v h) s =
      .next { s with wmb := { s.wmb with program := tput s.wmb.program k v.toNat } }) ∧
  (∀ (s : State) (v h : BitVec 64) (n : Nat), s.decodes (.vf n) = true → (s.vf n).notifyEnable = false →
    exec (.registerWrite (.vf n) 0 0x18 8 v h) s =
      .next (s.setVf n { s.vf n with notifyBase := v.toNat / 4096 * 4096 })) ∧
  (∀ (s : State) (v h : BitVec 64) (n : Nat), s.decodes (.vf n) = true → (s.vf n).notifyEnable = true →
    exec (.registerWrite (.vf n) 0 0x18 8 v h) s = .next s) ∧
  (∀ (s : State) (v h : BitVec 64) (n : Nat), s.decodes (.vf n) = true →
    exec (.registerWrite (.vf n) 0 0x4000 8 v h) s = .next (s.setBlock (.vf n) { s.block (.vf n) with arg0 := v })) ∧
  (∀ (s : State) (v h : BitVec 64) (n : Nat), s.decodes (.vf n) = true → (s.missq (.vf n)).enable = false →
    exec (.registerWrite (.vf n) 0 0x5000 8 v h) s =
      .next (s.setMissq (.vf n) { s.missq (.vf n) with base := v.toNat / 4096 * 4096 }))

/-- Rosemary (R746 to R764). Hours and the bucket count up to their limits; a commit is queued for the store; an orderly
shutdown records SHUTDOWN; a clear without a grant, or with the store failed, is refused and flagged; a record that waits
in the queue is read from it and an index with no record reads zeros; an access that fails once is repeated, and one that
fails again ends the use of the store; a write whose read-back agrees ends its access. Rosemary makes a record (R749 to
R756): while the sequence can rise and the queue has room, an event that does not repeat the newest circulating record
takes the next sequence number, carries the event's parameters, and waits for the store; a repeat of the newest
circulating record raises its count instead and takes no number; without room it is counted as dropped and nothing else
changes. -/
def Obligations.RosemaryPortAndRecords : Prop :=
  (∀ s : State, s.up = true → exec .hoursTick s =
    .next { s with rm := { s.rm with hours := min (s.rm.hours + 1) (2 ^ 32 - 1) } }) ∧
  (∀ s : State, s.pins.por = false → s.pins.sysRst = false → exec .bucketRefill s =
    .next { s with rm := Rosemary.pump { s.rm with bucket := min (s.rm.bucket + 1) 64 } }) ∧
  (∀ s : State, s.up = true → s.rm.ready = true → s.rm.failed = false →
    exec .timeCommit s = .next { s with rm := s.rm.commit.pump }) ∧
  (∀ s : State, s.up = true → exec .rmShutdown s =
    .next { s with rm := Rosemary.pump { s.rm.record 2 0 0 0 0 with shutting := !s.rm.failed } }) ∧
  (∀ s : State, s.up = true → (s.lc.recClear = none ∨ s.rm.failed = true) →
    exec .rmClear s = .next { s with rm := { s.rm with clearRefused := true } }) ∧
  (∀ (s : State) (g : Nat), s.up = true → s.lc.recClear = some g → s.rm.failed = false → s.rm.clearing = false →
    ∃ t, exec .rmClear s = .next t ∧ t.lc = { s.lc with recClear := none } ∧ t.rm.clearing = true ∧
      t.rm.forever = s.rm.forever ∧ (∀ r ∈ t.rm.circ, r.code = 3) ∧ { t with rm := s.rm, lc := s.lc } = s) ∧
  (∀ (s : State) (v : BitVec 64), s.up = true → s.rm.readBusy = false → bit v.toNat 15 = false →
    s.rm.forever.length ≤ fld v.toNat 11 0 → exec (.rmSelect v) s =
      .next { s with rm := { s.rm with readBusy := false, readError := false, recWords := [0, 0, 0, 0] } }) ∧
  (∀ (s : State) (v : BitVec 64) (x : Rec), s.up = true → s.rm.readBusy = false → bit v.toNat 15 = false →
    s.rm.forever[fld v.toNat 11 0]? = some x → x ∈ s.rm.queue → exec (.rmSelect v) s =
      .next { s with rm := { s.rm with readBusy := false, readError := false, recWords := wordsOf x.bits } }) ∧
  (∀ (s : State) (a : RecAccess), s.pins.por = false → s.pins.sysRst = false → s.rm.access = some a →
    a.again = false → exec .recAccessFail s = .next (State.sageFail { s with rm := { s.rm with
      access := some { a with again := true } } } 0x012 5)) ∧
  (∀ (s : State) (a : RecAccess), s.pins.por = false → s.pins.sysRst = false → s.rm.access = some a →
    a.again = true → ∃ t, exec .recAccessFail s = .next t ∧ t.rm.failed = true ∧ t.rm.access = none) ∧
  (∀ (s : State) (a : RecAccess) (d : BitVec 256), s.pins.por = false → s.pins.sysRst = false →
    s.rm.access = some a → a.write = true → a.use = .repeatRec → d.toNat = a.data % 2 ^ 256 →
    exec (.rmStoreWriteComplete d) s = .next { s with rm := Rosemary.pump { s.rm with access := none } }) ∧
  (∀ (s : State) (a : RecAccess) (d : BitVec 256), s.pins.por = false → s.pins.sysRst = false →
    s.rm.access = some a → a.write = false → a.use = .select → exec (.rmStoreReadComplete d) s =
      .next { s with rm := Rosemary.pump { s.rm with access := none, readBusy := false, recWords := wordsOf d.toNat } }) ∧
  (∀ (r : Rosemary) (code p0 p1 p2 p3 : Nat), r.seq < 2 ^ 32 - 1 → r.queue.length < 48 → rmForever code = true →
    r.forever.length < 512 → ∃ x, (r.record code p0 p1 p2 p3).queue = r.queue ++ [x] ∧
      (r.record code p0 p1 p2 p3).forever = r.forever ++ [x] ∧ (r.record code p0 p1 p2 p3).circ = r.circ ∧
      (r.record code p0 p1 p2 p3).seq = r.seq + 1 ∧ x.seq = r.seq + 1 ∧ x.code = code ∧ x.p0 = p0 ∧ x.p1 = p1 ∧
      x.p2 = p2 ∧ x.p3 = p3 ∧ x.forever = true ∧ x.diverted = false ∧ x.repeats = 1 ∧ x.hours = r.hours ∧
      x.powerCycles = r.powerCycles) ∧
  (∀ (r : Rosemary) (code p0 p1 p2 p3 : Nat), r.seq < 2 ^ 32 - 1 → r.queue.length < 48 → rmForever code = false →
    (∀ y, r.circ.head? = some y → y.code ≠ code) →
    ∃ x, (r.record code p0 p1 p2 p3).queue = r.queue ++ [x] ∧ (r.record code p0 p1 p2 p3).forever = r.forever ∧
      (r.record code p0 p1 p2 p3).circ = (x :: r.circ).take 4096 ∧ x.seq = r.seq + 1 ∧ x.code = code ∧ x.p0 = p0 ∧
      x.p1 = p1 ∧ x.p2 = p2 ∧ x.p3 = p3 ∧ x.forever = false ∧ x.repeats = 1) ∧
  (∀ (r : Rosemary) (y : Rec), rmForever y.code = false → r.circ.head? = some y →
    (r.record y.code y.p0 y.p1 y.p2 y.p3).seq = r.seq ∧
    (r.record y.code y.p0 y.p1 y.p2 y.p3).circ = { y with repeats := min (y.repeats + 1) 65535 } :: r.circ.tail ∧
    (r.record y.code y.p0 y.p1 y.p2 y.p3).queue.length = r.queue.length) ∧
  (∀ (r : Rosemary) (code p0 p1 p2 p3 : Nat), r.queue.length = 64 → rmForever code = true →
    r.record code p0 p1 p2 p3 = { r with dropped := bump r.dropped 1 })

/-- Sage's queue, windows and pin (R733 to R743). A message of the fault class is queued and counted and causes no
reaction; one of the failure class is queued, captured first and classified; a source's own failure message leads to the
safe state. SG_POP takes the oldest message; SG_PIN.RESUME acts when the pin may resume; the end of the hold and of a
window, and a write of SG_SRC_CFG, change only what they name. A message of the fault class is counted and causes no other
reaction: no interrupt, no reset, no retirement, no record, whatever source it names (Table 15-8). -/
def Obligations.SageQueueAndClassification : Prop :=
  (∀ (s : State) (m : SageMsg) (c : SrcCfg), s.up = true → s.srcCfg m.source.toNat = some c →
    kindFault m.kind.toNat = true → exec (.sageMessage m) s = .next { s with sage :=
      { (Sage.place { s.sage with wire := s.sage.wire.erase m } m true) with faults := bump s.sage.faults 1 } }) ∧
  (∀ (s : State) (m : SageMsg) (c : SrcCfg), s.up = true → m.source ≠ 0xF00 → s.srcCfg m.source.toNat = some c →
    kindFailure m.kind.toNat = true → m.kind ≠ 0x0E → c.window = false → 1 < c.threshold → c.minorReact = 0 →
    exec (.sageMessage m) s = .next (State.setSrcCfg { s with sage :=
      (Sage.place { s.sage with wire := s.sage.wire.erase m } m false).capture m } m.source.toNat
        { c with window := true, count := 1, severe := false, blockReset := false })) ∧
  (∀ (s : State) (m : SageMsg) (c : SrcCfg), s.up = true → m.source ≠ 0xF00 → s.srcCfg m.source.toNat = some c →
    kindFailure m.kind.toNat = true → c.window = false → (c.threshold ≤ 1 ∨ m.kind = 0x0E) → c.severeReact = 1 →
    ∃ t, exec (.sageMessage m) s = .next t ∧ t.sage.firstValid = true ∧ bit t.ep.int.status 1 = true ∧
      (t.srcCfg m.source.toNat).map (·.count) = some 1 ∧ t.mem = s.mem ∧ t.units = s.units ∧ t.engines = s.engines) ∧
  (∀ (s : State) (m : SageMsg), s.up = true → m.source = 0xF00 → kindFailure m.kind.toNat = true →
    ∃ t, exec (.sageMessage m) s = .next t ∧ t.sage.safe = true ∧ t.sage.pin = 0 ∧ t.up = false) ∧
  (∀ (s : State) (v : BitVec 64) (m : SageMsg) (rest : List SageMsg), s.decodes .pf = true → bit v.toNat 0 = true →
    s.sage.queue = m :: rest → exec (.sgPop v) s = .next { s with sage :=
      { s.sage with queue := rest ++ s.sage.ring.take 1, ring := s.sage.ring.drop 1 } }) ∧
  (∀ (s : State) (v : BitVec 64), s.decodes .pf = true → bit v.toNat 8 = true → s.sage.pin = 3 →
    s.sage.firstValid = false → exec (.sgPinResume v) s = .next { s with sage := { s.sage with pin := 1 } }) ∧
  (∀ s : State, s.up = true → s.sage.pin = 2 →
    exec .pinHoldExpire s = .next { s with sage := { s.sage with pin := 3 } }) ∧
  (∀ (s : State) (n : BitVec 12) (c : SrcCfg), s.up = true → s.srcCfg n.toNat = some c → c.window = true →
    exec (.sageWindowClose n) s = .next (s.setSrcCfg n.toNat
      { c with window := false, count := 0, severe := false, blockReset := false })) ∧
  (∀ (s : State) (n : BitVec 12) (v : BitVec 64) (c : SrcCfg), s.decodes .pf = true → s.srcCfg n.toNat = some c →
    1 ≤ fld v.toNat 39 32 → 1 ≤ fld v.toNat 21 0 → fld v.toNat 21 0 ≤ 3600000 →
    exec (.sgSrcCfgWrite n v) s = .next (s.setSrcCfg n.toNat { c with
      severeReact := fld v.toNat 49 45,
      minorReact := fld v.toNat 44 40, threshold := fld v.toNat 39 32, windowMs := fld v.toNat 21 0 })) ∧
  (∀ (s : State) (n : BitVec 12) (v : BitVec 64) (c : SrcCfg), s.decodes .pf = true → s.srcCfg n.toNat = some c →
    fld v.toNat 39 32 = 0 → 3600000 < fld v.toNat 21 0 →
    exec (.sgSrcCfgWrite n v) s = .next (s.setSrcCfg n.toNat { c with
      severeReact := fld v.toNat 49 45,
      minorReact := fld v.toNat 44 40 })) ∧
  ∀ (s : State) (m : SageMsg), s.up = true → kindFault m.kind.toNat = true → ∃ t, exec (.sageMessage m) s = .next t ∧
    { t with sage := s.sage } = s ∧ t.sage.safe = s.sage.safe ∧ t.sage.pin = s.sage.pin ∧
    t.sage.firstValid = s.sage.firstValid ∧ t.sage.cfg = s.sage.cfg ∧ (t.sage.faults = s.sage.faults ∨ t.sage.faults = bump s.sage.faults 1)

/-- Errors of stores, crossings and spine links (R33, R38, R129, R703 to R709). A corrected error is counted and reported;
an uncorrectable one without a user is reported; a line of memory lost at rest marks its 64 KiB block, is recorded and
holds its users; a first mismatch of a spine transfer is retried and a second is reported. -/
def Obligations.StoreAndSpineErrors : Prop :=
  (∀ (s : State) (p : Sys2Proof.Place), s.up = true → exec (.patrolScrub p .clean) s = .next s) ∧
  (∀ (s : State) (e a : Nat), s.up = true → exec (.patrolScrub (.engineStore e a) .corrected) s =
    .next ((s.setEngine e { s.engine e with ctr := { (s.engine e).ctr with storeCe := bump (s.engine e).ctr.storeCe 1 }
      }).sageFail (engSrc e 5) 1)) ∧
  (∀ (s : State) (m a : Nat), s.up = true → exec (.patrolScrub (.channel m a) .recovered) s =
    .next (s.sageFail (0x300 + m) 2)) ∧
  (∀ (s : State) (m a : Nat), s.up = true → s.usersOf a = [] → ∃ t, exec (.patrolScrub (.channel m a) .lost) s = .next t ∧
    t.boot.lost = insertIdx s.boot.lost (a / 65536) ∧
    (∃ g, t.sage.wire = s.sage.wire ++ [g] ∧ g.kind = 0x0E ∧ g.source = BitVec.ofNat 12 (0x300 + m)) ∧
    { t with boot := s.boot, sage := s.sage, rm := s.rm } = s) ∧
  (∀ (s : State) (e a : Nat), s.up = true → e < s.build.engines → exec (.storeSecdedError e a false) s =
    .next ((s.setEngine e { s.engine e with ctr := { (s.engine e).ctr with storeCe := bump (s.engine e).ctr.storeCe 1 }
      }).sageFail (engSrc e 5) 1)) ∧
  (∀ (s : State) (e a : Nat), s.up = true → e < s.build.engines → s.allotAt e a = none →
    exec (.storeSecdedError e a true) s = .next (s.sageFail (engSrc e 5) 2)) ∧
  (∀ (s : State) (n : BitVec 12), s.up = true → (s.srcCfg n.toNat).isSome = true → (n.toNat < 0x100 ∨ 0x200 ≤ n.toNat) →
    exec (.parityError n) s = .next (s.sageFail n.toNat 3)) ∧
  (∀ (s : State) (e : Nat), s.up = true →
    exec (.crossingTimeout (.engine e)) s = .next (s.sageFail (engSrc e 7) 5)) ∧
  (∀ (s : State) (l x : Nat) (r : Requester), s.up = true → (l, x) ∉ s.spineRetries →
    exec (.spineCrcMismatch l x r) s = .next { s with spineRetries := s.spineRetries ++ [(l, x)] }) ∧
  (∀ (s : State) (l x q : Nat), s.up = true → (l, x) ∈ s.spineRetries → exec (.spineCrcMismatch l x (.frontEnd q)) s =
    .next (State.sageFail { s with spineRetries := s.spineRetries.erase (l, x) } (0x240 + l) 4))

/-- Self-test and the Warden (R720 to R728). A due engine leaves for its test; a passed test returns it and ends the
rotation after the last working engine; a failed test retires the unit. A first Warden mismatch ends debug grants and
takes the Warden down, a second within an hour leads to the safe state; the restart is recorded and serves what waited. -/
def Obligations.SelfTestAndWarden : Prop :=
  (∀ (s : State) (e : Nat), s.up = true → (s.engine e).state = 1 → s.sage.out = false → ∃ t,
    exec (.selftestDue e) s = .next t ∧ t.engine e = { s.engine e with state := 3 } ∧ t.sage.out = true ∧
    t.sage.engine = e ∧ { t with engines := s.engines, sage := s.sage } = s) ∧
  (∀ (s : State) (e : Nat), s.up = true → (s.engine e).state = 3 → exec (.selftestPreemptTimeout e) s =
    .next (((s.engine e).slots.map (·.2)).foldl State.preemptLaunch s)) ∧
  (∀ (s : State) (e : Nat), s.up = true → (s.engine e).state = 3 → ∃ t,
    exec (.selftestComplete (.engine e) true) s = .next t ∧ t.engine e = { s.engine e with state := 1 } ∧
    t.sage.out = false ∧ { t with engines := s.engines, sage := s.sage } = s) ∧
  (∀ (s : State) (w : Nat), s.up = true → s.fptStatus (.way w) ≠ 0 → exec (.selftestComplete (.way w) false) s =
    .next ((s.sageFail (0x200 + w) 9).retireUnit (.way w) (0x200 + w) 9)) ∧
  (∀ s : State, s.up = true → s.sage.mismatchAt = none → ∃ t, exec .wardenMismatch s = .next t ∧
    t.sage.wardenDown = true ∧ t.sage.restarts = s.sage.restarts + 1 ∧ t.sage.mismatchAt = some s.thyme.now ∧
    t.lc.test = none ∧ t.lc.hubDebug = none ∧ t.lc.rma = none ∧ t.lc.recClear = none ∧ t.lc.partDebug = [] ∧
    t.lc.otp = s.lc.otp ∧ { t with sage := s.sage, lc := s.lc } = s) ∧
  (∀ (s : State) (n : Nat), s.up = true → s.sage.mismatchAt = some n → s.thyme.now < n + 3600000000000 →
    ∃ t, exec .wardenMismatch s = .next t ∧ t.sage.safe = true ∧ t.sage.pin = 0 ∧ t.mem = s.mem) ∧
  (∀ s : State, s.up = true → s.sage.wardenDown = true → s.blocks = [] → s.sx = [] → s.wmb.busy = false →
    s.lc.busy = false → exec .wardenRestartComplete s = .next (State.rmRecord { s with sage := { s.sage with
      wardenDown := false, cutProgram := false, cutLc := false } } 0x31 s.sage.restarts 0 0 0)) ∧
  (∀ s : State, s.up = true → ∃ t, exec .sageParityError s = .next t ∧ t.sage.safe = true ∧ t.sage.pin = 0 ∧
    t.up = false ∧ t.mem = s.mem)

/-- The commands of LC_CMD are carried out at once where nothing else holds the Warden (R785 to R791, R800). A challenge
raises the counter by one and is live from now; END_GRANTS ends every grant; an undefined OP ends with BAD_TOKEN; a
command while one is in progress is lost. A submitted token consumes the live challenge whatever becomes of it (R785),
ends the command with the tag of the write unless the draw of a seed waits for the entropy source (R781), and has its
row's effect of Table 17-8 exactly when it is accepted (code 0): the LC word gains the bits of the transition and the new
state is pending (R767), a grant runs from now for its duration (R790), the certificate is programmed (R789). No token of
a grant touches the fuses, and one of a certificate that is not accepted does not either. -/
def Obligations.LifeCycle : Prop :=
  (∀ (s : State) (tag : BitVec 16) (p q : BitVec 4), s.lcFree = true → s.lc.counter < 0xFFFFFFFF →
    ∃ t, exec (.lcChallenge tag p q) s = .next t ∧ t.lc.counter = s.lc.counter + 1 ∧ t.lc.code = 0 ∧
      t.lc.tag = tag.toNat ∧ t.lc.done = true ∧ t.lc.busy = false ∧
      t.lc.challenge = some ⟨p.toNat, if p = 5 then q.toNat else 0, s.thyme.now⟩ ∧ t.lc.otp = s.lc.otp ∧
      { t with lc := s.lc } = s) ∧
  (∀ (s : State) (tag : BitVec 16), s.lcFree = true → ∃ t, exec (.lcEndGrants tag) s = .next t ∧ t.lc.code = 0 ∧
    t.lc.tag = tag.toNat ∧ t.lc.done = true ∧ t.lc.test = none ∧ t.lc.hubDebug = none ∧ t.lc.rma = none ∧
    t.lc.recClear = none ∧ t.lc.partDebug = [] ∧ t.lc.otp = s.lc.otp ∧ { t with lc := s.lc } = s) ∧
  (∀ (s : State) (tag : BitVec 16) (op : BitVec 8), s.lcFree = true → (op = 0 ∨ 4 < op.toNat) → ∃ t,
    exec (.lcUnknownOp tag op) s = .next t ∧ t.lc.code = 1 ∧ t.lc.tag = tag.toNat ∧ t.lc.done = true ∧
    t.lc.busy = false ∧ t.lc.challenge = s.lc.challenge ∧ t.lc.otp = s.lc.otp ∧ { t with lc := s.lc } = s) ∧
  (∀ (s : State) (tag : BitVec 16) (c : Challenge) (k : Nat), s.lcFree = true → s.lc.challenge = some c →
    s.identityKey = some k → ∃ t, exec (.lcAttest tag) s = .next t ∧ t.lc.code = 0 ∧ t.lc.challenge = none ∧
      t.lc.done = true ∧ t.lc.otp = s.lc.otp ∧ { t with lc := s.lc } = s) ∧
  (∀ (s : State) (tag : BitVec 16) (p q : BitVec 4), s.decodes .pf = true → s.lc.busy = true →
    exec (.lcChallenge tag p q) s = .next { s with lc := { s.lc with lost := true } }) ∧
  (∀ s : State, s.up = true → exec .challengeExpire s = .next { s with lc := { s.lc with challenge := none } }) ∧
  (∀ s : State, s.up = true → exec (.grantExpire .test) s = .next { s with lc := { s.lc with test := none } }) ∧
  (∀ s : State, s.up = true → exec (.grantExpire .hub) s = .next { s with lc := { s.lc with hubDebug := none } }) ∧
  (∀ s : State, s.up = true → exec (.grantExpire .rma) s = .next { s with lc := { s.lc with rma := none } }) ∧
  (∀ s : State, s.up = true → exec (.grantExpire .recorder) s = .next { s with lc := { s.lc with recClear := none } }) ∧
  (∀ (s : State) (p : Nat), s.up = true →
    exec (.grantExpire (.partition p)) s = .next { s with lc := { s.lc with partDebug := tdel s.lc.partDebug p } }) ∧
  (∀ (s : State) (tag : BitVec 16), s.lcFree = true → s.lc.tokenRead.purpose = 1 → ∃ t,
    exec (.lcTransition tag) s = .next t ∧ t.lc.challenge = none ∧
    (t.lc.busy = false → t.lc.done = true ∧ t.lc.tag = tag.toNat ∧ (t.lc.code = 0 →
      t.lc.pending = s.lc.tokenRead.target ∧ (∃ m, lcMove s.lcState s.lc.tokenRead.target = some m ∧
        tget 0 t.lc.otp 0 = s.lc.raw % 2 ^ 32 ||| (2 ^ m.n - 1) * 2 ^ m.lo))) ∧ t.units = s.units ∧ t.mem = s.mem) ∧
  (∀ (s : State) (tag : BitVec 16), s.lcFree = true → s.lc.tokenRead.purpose = 2 → ∃ t,
    exec (.lcFinish tag) s = .next t ∧ t.lc.challenge = none ∧
    (t.lc.busy = false → t.lc.done = true ∧ t.lc.tag = tag.toNat ∧ (t.lc.code = 0 →
      t.lc.pending = s.lc.tokenRead.target ∧ s.lcState = 15)) ∧ t.units = s.units ∧ t.mem = s.mem) ∧
  (∀ (s : State) (tag : BitVec 16), s.lcFree = true → s.lc.tokenRead.purpose = 3 → ∃ t,
    exec (.lcTest tag) s = .next t ∧ t.lc.challenge = none ∧ t.lc.done = true ∧ t.lc.tag = tag.toNat ∧
    t.lc.busy = false ∧ t.lc.otp = s.lc.otp ∧ t.lc.test = (if t.lc.code = 0 ∧ s.lc.tokenRead.duration ≠ 0
      then some (s.thyme.now + s.lc.tokenRead.duration * 1000000000) else s.lc.test) ∧ { t with lc := s.lc } = s) ∧
  (∀ (s : State) (tag : BitVec 16), s.lcFree = true → s.lc.tokenRead.purpose = 4 → ∃ t,
    exec (.lcHubDebug tag) s = .next t ∧ t.lc.challenge = none ∧ t.lc.done = true ∧ t.lc.tag = tag.toNat ∧
    t.lc.busy = false ∧ t.lc.otp = s.lc.otp ∧ (t.lc.code = 0 → s.anySealed = false) ∧
    t.lc.hubDebug = (if t.lc.code = 0 ∧ s.lc.tokenRead.duration ≠ 0
      then some (s.thyme.now + s.lc.tokenRead.duration * 1000000000) else s.lc.hubDebug) ∧
    { t with lc := s.lc, rm := s.rm } = s) ∧
  (∀ (s : State) (tag : BitVec 16), s.lcFree = true → s.lc.tokenRead.purpose = 5 → ∃ t,
    exec (.lcPartitionDebug tag) s = .next t ∧ t.lc.challenge = none ∧ t.lc.done = true ∧ t.lc.tag = tag.toNat ∧
    t.lc.busy = false ∧ t.lc.otp = s.lc.otp ∧ t.lc.hubDebug = s.lc.hubDebug ∧
    t.lc.partDebug = (if t.lc.code = 0 ∧ s.lc.tokenRead.duration ≠ 0
      then tput s.lc.partDebug s.lc.tokenRead.part (s.thyme.now + s.lc.tokenRead.duration * 1000000000)
      else s.lc.partDebug) ∧ { t with lc := s.lc, rm := s.rm } = s) ∧
  (∀ (s : State) (tag : BitVec 16), s.lcFree = true → s.lc.tokenRead.purpose = 6 → ∃ t,
    exec (.lcRma tag) s = .next t ∧ t.lc.challenge = none ∧ t.lc.done = true ∧ t.lc.tag = tag.toNat ∧
    t.lc.busy = false ∧ t.lc.otp = s.lc.otp ∧ (t.lc.code = 0 → s.lcState = 5) ∧
    t.lc.rma = (if t.lc.code = 0 ∧ s.lc.tokenRead.duration ≠ 0
      then some (s.thyme.now + s.lc.tokenRead.duration * 1000000000) else s.lc.rma) ∧
    { t with lc := s.lc, rm := s.rm } = s) ∧
  (∀ (s : State) (tag : BitVec 16), s.lcFree = true → s.lc.tokenRead.purpose = 7 → ∃ t,
    exec (.lcRecorderClear tag) s = .next t ∧ t.lc.challenge = none ∧ t.lc.done = true ∧ t.lc.tag = tag.toNat ∧
    t.lc.busy = false ∧ t.lc.otp = s.lc.otp ∧
    t.lc.recClear = (if t.lc.code = 0 then some (s.thyme.now + 60000000000) else s.lc.recClear) ∧
    { t with lc := s.lc } = s) ∧
  (∀ (s : State) (tag : BitVec 16), s.lcFree = true → s.lc.tokenRead.purpose = 8 → ∃ t,
    exec (.lcCertWrite tag) s = .next t ∧ t.lc.challenge = none ∧ t.lc.done = true ∧ t.lc.tag = tag.toNat ∧
    t.lc.busy = false ∧ (t.lc.code = 0 → s.lcState = 3 ∧ s.certLen = 0 ∧ t.certLen = s.lc.tokenRead.dataLen) ∧
    (t.lc.code ≠ 0 → t.lc.otp = s.lc.otp) ∧ { t with lc := s.lc } = s)

/-- The debug window and the entropy source (R781, R797, R798). Without a grant an access is denied and counted and a read
returns zeros; a hub-scope grant reaches device memory; a write through the window changes the eight bytes it names and
nothing else. A failed health test is reported; a later one that passes, or 100 ms, ends the wait of a draw. -/
def Obligations.DebugWindowAndEntropy : Prop :=
  (∀ (s : State) (o : Nat), s.decodes .pf = true → s.lc.hubDebug = none → s.lc.rma = none → s.lc.partDebug = [] →
    exec (.debugWindowRead o) s = .next { s with lc := { s.lc with dbgDenied := bump s.lc.dbgDenied 1 },
                                                 out := s.out ++ [Out.completion .pf (List.replicate 8 0)] }) ∧
  (∀ (s : State) (o : Nat) (v : BitVec 64), s.decodes .pf = true → s.lc.hubDebug = none → s.lc.rma = none →
    s.lc.partDebug = [] → exec (.debugWindowWrite o v) s =
      .next { s with lc := { s.lc with dbgDenied := bump s.lc.dbgDenied 1 } }) ∧
  (∀ (s : State) (o g : Nat), s.decodes .pf = true → s.lc.hubDebug = some g → s.lc.dbgSpace = 0 →
    exec (.debugWindowRead o) s = .next { s with out := s.out ++
      [Out.completion .pf (mreadN s.mem (s.lc.dbgBase * 32768 + o / 8 * 8 % 32768) 8)] }) ∧
  (∀ (s : State) (o g : Nat) (v : BitVec 64), s.decodes .pf = true → s.lc.hubDebug = some g → s.lc.dbgSpace = 0 →
    ∃ t, exec (.debugWindowWrite o v) s = .next t ∧ { t with mem := s.mem } = s ∧
      (∀ a, (a < s.lc.dbgBase * 32768 + o / 8 * 8 % 32768 ∨ s.lc.dbgBase * 32768 + o / 8 * 8 % 32768 + 8 ≤ a) →
        mread t.mem a = mread s.mem a) ∧
      (∀ i, i < 8 → mread t.mem (s.lc.dbgBase * 32768 + o / 8 * 8 % 32768 + i) = BitVec.ofNat 8 (v.toNat / 256 ^ i))) ∧
  (∀ s : State, s.up = true → exec .entropyHealthFail s =
    .next (State.sageFail { s with lc := { s.lc with entropyOk := false } } 0x014 9)) ∧
  (∀ s : State, s.up = true → s.lc.drawWaits = false →
    exec .entropyHealthPass s = .next { s with lc := { s.lc with entropyOk := true } }) ∧
  (∀ s : State, s.up = true → s.lc.drawWaits = true → s.wmb.busy = false → s.sx = [] → ∃ t,
    exec .noEntropyTimeout s = .next t ∧ t.lc.code = 0x0A ∧ t.lc.busy = false ∧ t.lc.done = true ∧
    t.lc.drawWaits = false ∧ t.lc.otp = s.lc.otp ∧ { t with lc := s.lc } = s)

/-- A request ends (R340, R341): its block shows the tag of the write, the code and the results, and is neither busy nor
queued, and cause 0 of the function is raised; a request written while one is in progress changes only LOST; and no
request is taken from a function that does not decode its BARs or before firmware runs. -/
def Obligations.RequestProtocol : Prop :=
  (∀ (s : State) (v code r0 r1 : Nat), ((s.reqDone (.vf v) code r0 r1).block (.vf v)).code = code ∧
    ((s.reqDone (.vf v) code r0 r1).block (.vf v)).tag = (s.block (.vf v)).curTag ∧
    ((s.reqDone (.vf v) code r0 r1).block (.vf v)).done = true ∧
    ((s.reqDone (.vf v) code r0 r1).block (.vf v)).busy = false ∧
    ((s.reqDone (.vf v) code r0 r1).block (.vf v)).result0 = BitVec.ofNat 64 r0 ∧
    ((s.reqDone (.vf v) code r0 r1).block (.vf v)).result1 = BitVec.ofNat 64 r1 ∧
    (s.reqDone (.vf v) code r0 r1).ctxs = s.ctxs ∧ (s.reqDone (.vf v) code r0 r1).objs = s.objs ∧
    (s.reqDone (.vf v) code r0 r1).fences = s.fences ∧ (s.reqDone (.vf v) code r0 r1).mem = s.mem) ∧
  (∀ (s : State) (code r0 r1 : Nat), bit (s.reqDone .pf code r0 r1).ep.int.status 0 = true ∧
    ((s.reqDone .pf code r0 r1).block .pf).code = code ∧ ((s.reqDone .pf code r0 r1).block .pf).busy = false) ∧
  (∀ (s : State) (fn : Fn) (tag : BitVec 16), s.up = true → s.decodes fn = true → s.fwRuns = true →
    (s.block fn).busy = true →
    exec (.ctxQuery fn tag) s = .next (s.setBlock fn { s.block fn with lost := true }) ∧
    exec (.objCreate fn tag) s = .next (s.setBlock fn { s.block fn with lost := true }) ∧
    exec (.queueCreate fn tag) s = .next (s.setBlock fn { s.block fn with lost := true }) ∧
    exec (.segMap fn tag) s = .next (s.setBlock fn { s.block fn with lost := true })) ∧
  (∀ (s : State) (fn : Fn) (tag : BitVec 16), s.up = true → (s.decodes fn = false ∨ s.fwRuns = false) →
    exec (.ctxQuery fn tag) s = .next s ∧ exec (.objCreate fn tag) s = .next s ∧
    exec (.queueCreate fn tag) s = .next s ∧ exec (.segMap fn tag) s = .next s) ∧
  (∀ (s : State) (fn : Fn) (tag : BitVec 16) (op : BitVec 8), s.up = true → s.decodes fn = true → s.fwRuns = true →
    (s.block fn).busy = false → s.sage.wardenDown = false → (op = 0 ∨ 0x16 < op.toNat) →
    exec (.objUnknownOp fn tag op) s = .next ((s.asked fn op.toNat tag).reqDone fn 1 0 0))

/-- Requests on contexts (R342 to R347, R374 to R378, R472, R479, R515, Table 17-9). A context is created LIVE at the free
index named, with the units, function and partition of the request; its destruction begins the forced abort, which ends
when nothing of it is left; queries return its status and accounts; SHARE and the save area are set. -/
def Obligations.ContextRequests : Prop :=
  (∀ (s : State) (tag : BitVec 16) (p c : Nat), s.up = true → s.mayAsk .pf 0x01 = true →
    fld (s.block .pf).a0 15 8 ≤ s.build.allotUnits → s.vfPart (fld (s.block .pf).a0 5 0) = some p → s.wmb.busy = false →
    (s.part p).state = 2 → bit (s.block .pf).a0 16 = false → bit (s.block .pf).a1 12 = true →
    fld (s.block .pf).a1 11 0 = c → c ≠ 0 → (s.ctx c).state = .free →
    (s.ctxs.filter fun e => e.2.state != .free && e.2.part = p).length < (s.part p).quota →
    exec (.ctxCreate .pf tag) s = .next (((s.asked .pf 0x01 tag).setCtx c
      { state := .live, gen := (s.ctx c).gen, allotUnits := fld (s.block .pf).a0 15 8, vf := fld (s.block .pf).a0 5 0,
        part := p, queues := (s.ctx c).queues }).reqDone .pf 0 (mkHandle 1 (s.ctx c).gen c).toNat 0)) ∧
  (∀ (s : State) (fn : Fn) (tag : BitVec 16) (c : Nat), s.up = true → s.mayAsk fn 0x02 = true →
    s.reqCtx fn (s.block fn).a0 = (0, c) → ((s.ctx c).state = .live ∨ (s.ctx c).state = .lost) →
    (∀ e ∈ s.ctxs, e.2.shareOf ≠ some c) → exec (.ctxDestroy fn tag) s = .next (((s.asked fn 0x02 tag).setBlock fn
      { (s.asked fn 0x02 tag).block fn with subject := BitVec.ofNat 32 (s.block fn).a0 }).startAbort c (some fn))) ∧
  (∀ (s : State) (c : Nat), s.up = true → (s.ctx c).state = .aborting → (∀ e ∈ s.launches, e.2.ctx ≠ c) →
    s.fesOf c = [] → (s.ctx c).segs = [] → s.withdrawals = [] → exec (.abortComplete c) s =
      .next (State.finishAbort { s with cmds := s.cmds.filter fun e => e.2.ctx ≠ c } c)) ∧
  (∀ (s : State) (fn : Fn) (tag : BitVec 16) (c : Nat), s.up = true → s.mayAsk fn 0x03 = true →
    s.reqCtx fn (s.block fn).a0 = (0, c) → exec (.ctxQuery fn tag) s =
      .next ((s.asked fn 0x03 tag).reqDone fn 0 (s.ctxStatus c) (s.ctx c).fault.address)) ∧
  (∀ (s : State) (tag : BitVec 16) (c : Nat), s.up = true → s.launches = [] → s.mayAsk .pf 0x12 = true →
    s.reqCtx .pf (s.block .pf).a0 = (0, c) → (s.ctx c).state = .live → 1 ≤ (s.block .pf).a1 → (s.block .pf).a1 ≤ 1000 →
    exec (.ctxShare .pf tag) s = .next (((s.asked .pf 0x12 tag).setCtx c { s.ctx c with sched :=
      { (s.ctx c).sched with share := (s.block .pf).a1 } }).reqDone .pf 0 0 0)) ∧
  (∀ (s : State) (fn : Fn) (tag : BitVec 16) (c : Nat), s.up = true → s.launches = [] → s.mayAsk fn 0x13 = true →
    s.reqCtx fn (s.block fn).a0 = (0, c) → (s.block fn).a1 = 17 → exec (.ctxAccount fn tag) s =
      .next ((s.asked fn 0x13 tag).reqDone fn 0 (s.ctx c).acct.memBytes 0)) ∧
  (∀ (s : State) (fn : Fn) (tag : BitVec 16) (c : Nat), s.up = true → s.mayAsk fn 0x11 = true →
    s.reqCtx fn (s.block fn).a0 = (0, c) → (s.ctx c).state = .live → (s.block fn).a1 = 0 →
    (s.ctx c).sched.rslot = none → (s.ctx c).sched.switchingOut = false → (s.ctx c).sched.saved = [] →
    exec (.saveSet fn tag) s = .next (((s.asked fn 0x11 tag).setCtx c { s.ctx c with sched :=
      { (s.ctx c).sched with saveObject := 0, saveRecords := 0 } }).reqDone fn 0 0 0)) ∧
  (∀ (s : State) (fn : Fn) (tag : BitVec 16) (c : Nat), s.up = true → s.mayAsk fn 0x15 = true →
    s.reqCtx fn (s.block fn).a0 = (0, c) → (s.ctx c).state = .live → (s.block fn).a1 % 64 = 0 →
    exec (.certRead fn tag) s = .next ((s.asked fn 0x15 tag).identRun fn)) ∧
  (∀ (s : State) (v : Nat) (tag : BitVec 16) (c : Nat), s.up = true → s.mayAsk (.vf v) 0x16 = true →
    s.reqCtx (.vf v) (s.block (.vf v)).a0 = (0, c) → (s.ctx c).state = .live → (s.block (.vf v)).a1 % 64 = 0 →
    (s.part (s.ctx c).part).state = 2 → (s.part (s.ctx c).part).dbgKey = [] →
    exec (.dbgKeySet (.vf v) tag) s = .next ((s.asked (.vf v) 0x16 tag).identRun (.vf v)))

/-- Requests on memory objects and fences, and what frees an entry (R345, R349 to R353, R363 to R367). An object is zeroed
before its request ends; which free index a new entry takes is free; a query returns the entry; an import raises the count
of the entry and is noted by the context; a released entry is freed once everything before it has retired. -/
def Obligations.ObjectRequests : Prop :=
  (∀ (s : State) (fn : Fn) (tag : BitVec 16) (c b i : Nat) (t : State), s.up = true → s.mayAsk fn 0x04 = true →
    s.reqCtx fn (s.block fn).a0 = (0, c) → (s.ctx c).state = .live → objSizeOk (s.block fn).a1 = true →
    s.fit (s.ctx c).part (s.block fn).a1 = some b →
    (s.asked fn 0x04 tag).newObj c { exported := bit (s.block fn).a2 0, state := 1, base := b, size := (s.block fn).a1 } =
      (some i, t) →
    exec (.objCreate fn tag) s = .next (t.setBlock fn { t.block fn with subject := mkHandle 3 (t.obj i).gen i })) ∧
  (∀ (s : State) (c i : Nat) (o : Obj) (t : State), s.newObj c o = (some i, t) → t.freeCtr = s.freeCtr + 1 ∧
    (t.obj i).state = o.state ∧ (t.obj i).base = o.base ∧ (t.obj i).size = o.size ∧ (t.obj i).owner = s.tag c ∧
    (t.obj i).gen = (s.obj i).gen ∧ (s.obj i).state = 0 ∧ i < 262144 ∧
    (t.ctx c).objectsOwned = (s.ctx c).objectsOwned + 1 ∧ (∀ j, j ≠ i → t.obj j = s.obj j) ∧ t.mem = s.mem) ∧
  (∀ (s : State) (fn : Fn), s.up = true → (s.block fn).busy = true → (s.block fn).queued = false →
    (s.block fn).op = 4 → s.zeroing (s.block fn).subject = true →
    (s.ctx (tagCtx (s.obj (hIndex (s.block fn).subject)).owner)).state ≠ .aborting →
    exec (.objZeroingComplete fn) s = .next ((State.setObj { s with
      mem := mzero s.mem (s.obj (hIndex (s.block fn).subject)).base (s.obj (hIndex (s.block fn).subject)).size } (hIndex (s.block fn).subject)
      { s.obj (hIndex (s.block fn).subject) with state := 2 }).reqDone fn 0 (s.block fn).subject.toNat
        (s.obj (hIndex (s.block fn).subject)).base)) ∧
  (∀ (s : State) (tag : BitVec 16) (c i : Nat) (t : State), s.up = true → s.mayAsk .pf 0x05 = true →
    s.reqCtx .pf (s.block .pf).a0 = (0, c) → (s.ctx c).state = .live → (s.block .pf).a1 % 65536 = 0 →
    objSizeOk (s.block .pf).a2 = true → (s.asked .pf 0x05 tag).newObj c
      { host := true, state := 2, base := (s.block .pf).a1, size := (s.block .pf).a2 } = (some i, t) →
    exec (.objCreateHost .pf tag) s = .next (t.reqDone .pf 0 (mkHandle 3 (t.obj i).gen i).toNat 0)) ∧
  (∀ (s : State) (fn : Fn) (tag : BitVec 16) (c i : Nat) (t : State), s.up = true → s.mayAsk fn 0x06 = true →
    s.reqCtx fn (s.block fn).a0 = (0, c) → (s.ctx c).state = .live → (s.block fn).a2 % 4 ≠ 3 →
    (s.ctx c).fencesOwned < 65536 →
    (s.asked fn 0x06 tag).pickFree 1048576 (fun k => (s.fence k).state == 0) = (some i, t) →
    exec (.fenceCreate fn tag) s = .next (((t.setFence i
      { gen := (s.fence i).gen, exportScope := (s.block fn).a2 % 4, notify := bit (s.block fn).a2 2, state := 1,
        owner := s.tag c, key := BitVec.ofNat 16 (fld (s.block fn).a2 31 16) }).setCtx c
        { s.ctx c with fencesOwned := (s.ctx c).fencesOwned + 1 }).reqDone fn 0 (mkHandle 4 (s.fence i).gen i).toNat 0)) ∧
  (∀ (s : State) (fn : Fn) (tag : BitVec 16) (c : Nat), s.up = true → s.mayAsk fn 0x07 = true →
    s.reqCtx fn (s.block fn).a0 = (0, c) → s.fenceValid c (BitVec.ofNat 32 (s.block fn).a1) none = true →
    exec (.fenceQuery fn tag) s = .next ((s.asked fn 0x07 tag).reqDone fn 0
      (s.fence (hIndex (BitVec.ofNat 32 (s.block fn).a1))).word
      (s.fence (hIndex (BitVec.ofNat 32 (s.block fn).a1))).signalThyme)) ∧
  (∀ (s : State) (fn : Fn) (tag : BitVec 16) (c n lim : Nat) (h : BitVec 32) (own : BitVec 16) (orph : Bool),
    s.up = true → s.mayAsk fn 0x08 = true → s.reqCtx fn (s.block fn).a0 = (0, c) → (s.ctx c).state = .live →
    BitVec.ofNat 32 (s.block fn).a1 = h → hType h = 4 → s.importView h = some (own, orph, true, n, lim) → n < lim →
    h ∉ (s.ctx c).imports → own ≠ (s.ctx c).tag c → tagPart own = (s.ctx c).part →
    exec (.importEntry fn tag) s = .next ((((s.asked fn 0x08 tag).setFence (hIndex h)
      { s.fence (hIndex h) with imports := n + 1 }).setCtx c
        { s.ctx c with imports := (s.ctx c).imports ++ [h] }).reqDone fn 0 h.toNat 0)) ∧
  (∀ (s : State) (h : BitVec 32) (r : Released), s.up = true → hType h = 4 →
    (s.ctx (tagCtx (s.fence (hIndex h)).owner)).released.find? (fun r => r.handle = h && !r.isImport) = some r →
    hGen h = (s.fence (hIndex h)).gen → (s.fence (hIndex h)).releasing = true → (s.fence (hIndex h)).imports = 0 →
    s.precedingRetired (tagCtx (s.fence (hIndex h)).owner) r = true → ∃ t, exec (.entryFree h) s = .next t ∧
      (t.fence (hIndex h)).state = 0 ∧ (t.fence (hIndex h)).gen = nextGen (s.fence (hIndex h)).gen ∧
      { t with fences := s.fences, ctxs := s.ctxs } = s) ∧
  (∀ (s : State) (c : Nat) (h : BitVec 32) (r : Released), s.up = true →
    (s.ctx c).released.find? (fun r => r.handle = h && r.isImport) = some r → s.precedingRetired c r = true →
    (s.ctx c).imports.contains h = true → exec (.importEnd c h) s = .next (s.endImport c h))

/-- Requests on queues (R384 to R386, R525). A queue is created empty with the generation of its entry; its destruction
waits for its started commands and then frees the entry with the next generation; a halted queue resumes; its target is
set while it is idle. -/
def Obligations.QueueRequests : Prop :=
  (∀ (s : State) (fn : Fn) (tag : BitVec 16) (c : Nat), s.up = true → s.mayAsk fn 0x09 = true →
    s.reqCtx fn (s.block fn).a0 = (0, c) → 8 ≤ fld (s.block fn).a2 4 0 → fld (s.block fn).a2 4 0 ≤ 24 →
    (s.block fn).a1 % 2 ^ fld (s.block fn).a2 4 0 = 0 → (s.block fn).a1 < 2 ^ 48 → (s.ctx c).state = .live →
    ((s.ctx c).queue (fld (s.block fn).a2 10 8)).state = 0 →
    exec (.queueCreate fn tag) s = .next (((s.asked fn 0x09 tag).setCtx c ((s.ctx c).setQueue (fld (s.block fn).a2 10 8)
      { gen := ((s.ctx c).queue (fld (s.block fn).a2 10 8)).gen, state := 1, deviceWritten := bit (s.block fn).a2 16,
        sizeLog2 := fld (s.block fn).a2 4 0, ringVa := (s.block fn).a1 })).reqDone fn 0
      (mkHandle 2 ((s.ctx c).queue (fld (s.block fn).a2 10 8)).gen (8 * c + fld (s.block fn).a2 10 8)).toNat 0)) ∧
  (∀ (s : State) (fn : Fn) (tag : BitVec 16) (c q : Nat), s.up = true → s.mayAsk fn 0x0A = true →
    s.reqCtx fn (s.block fn).a0 = (0, c) → s.namesQueue fn c q = true → (s.queue q).bound = none →
    exec (.queueDestroy fn tag) s = .next (((s.asked fn 0x0A tag).setQueue q { s.queue q with destroying := true }).setBlock
      fn { (s.asked fn 0x0A tag).block fn with subject := mkHandle 2 (s.queue q).gen q })) ∧
  (∀ (s : State) (fn : Fn), s.up = true → (s.block fn).busy = true → (s.block fn).queued = false →
    (s.block fn).op = 0x0A → s.startedCmds (hIndex (s.block fn).subject) = [] →
    (s.queue (hIndex (s.block fn).subject)).gen = hGen (s.block fn).subject →
    ∃ t, exec (.queueDestroyComplete fn) s = .next t ∧
      t.queue (hIndex (s.block fn).subject) = { gen := nextGen (hGen (s.block fn).subject) } ∧
      (t.block fn).busy = false ∧ (t.block fn).code = 0 ∧ t.objs = s.objs ∧ t.fences = s.fences ∧ t.mem = s.mem) ∧
  (∀ (s : State) (fn : Fn) (tag : BitVec 16) (c q : Nat), s.up = true → s.mayAsk fn 0x0B = true →
    s.reqCtx fn (s.block fn).a0 = (0, c) → s.namesQueue fn c q = true → (s.queue q).state = 2 →
    (s.queue q).tail = (s.queue q).head → exec (.queueResume fn tag) s =
      .next (((s.asked fn 0x0B tag).setQueue q { s.queue q with state := 1, haltCode := 0 }).reqDone fn 0 0 0)) ∧
  (∀ (s : State) (fn : Fn) (tag : BitVec 16) (c q : Nat), s.up = true → s.mayAsk fn 0x14 = true →
    s.reqCtx fn (s.block fn).a0 = (0, c) → s.namesQueue fn c q = true → (s.queue q).bound = none →
    s.startedCmds q = [] → fld (s.block fn).a2 47 0 % 8 = 0 → exec (.queueTarget fn tag) s =
      .next (((s.asked fn 0x14 tag).setQueue q { s.queue q with targetFn := fld (s.block fn).a2 63 48,
                                                                nativeVa := fld (s.block fn).a2 47 0 }).reqDone fn 0 0 0))

/-- Mapping requests, withdrawals and miss queues (R430 to R458, R468). A new descriptor stands in the table at once; the
withdrawal of an old one is broadcast and ends when every cache has acknowledged; a cache that fills holds only present
segments; a refused fault goes on as refused; records go to the ring of the function's miss queue. -/
def Obligations.SegmentCommands : Prop :=
  (∀ (s : State) (fn : Fn) (tag : BitVec 16) (c : Nat), s.up = true → s.mayAsk fn 0x0D = true →
    s.reqCtx fn (fld (s.block fn).a0 31 0) = (0, c) → (s.ctx c).shareOf = none → liveOrLost (s.ctx c).state = true →
    ((s.ctx c).seg (s.block fn).seg).pages = 0 → exec (.segUnmap fn tag) s = .next ((s.asked fn 0x0D tag).reqDone fn 0 0 0)) ∧
  (∀ (s : State) (fn : Fn) (tag : BitVec 16) (c : Nat), s.up = true → s.mayAsk fn 0x0D = true →
    s.reqCtx fn (fld (s.block fn).a0 31 0) = (0, c) → (s.ctx c).shareOf = none → liveOrLost (s.ctx c).state = true →
    ((s.ctx c).seg (s.block fn).seg).pages ≠ 0 → s.scheduleRuns (s.ctx c).part = false →
    ∃ r, State.withdraw ((s.asked fn 0x0D tag).setCtx c { s.ctx c with segs := tdel (s.ctx c).segs (s.block fn).seg }) c
        (s.block fn).seg ((s.ctx c).seg (s.block fn).seg) (.request fn) = r ∧
      exec (.segUnmap fn tag) s = .next ((r.2.setBlock fn { r.2.block fn with waits := [r.1] }).segResolveAll c
        (s.block fn).seg false)) ∧
  (∀ (s : State) (fn : Fn) (tag : BitVec 16) (c : Nat), s.up = true → s.mayAsk fn 0x0C = true →
    s.reqCtx fn (fld (s.block fn).a0 31 0) = (0, c) → (s.ctx c).shareOf = none → (s.ctx c).state = .live →
    s.objValid c (BitVec.ofNat 32 (fld (s.block fn).a2 31 0)) none = true →
    ((s.ctx c).seg (s.block fn).seg).pages = 0 → (s.newSeg fn c).pages ≠ 0 →
    (s.ctx c).mapPlainBad (s.block fn).seg (s.newSeg fn c) = false →
    (s.ctx c).mapObjBad (s.block fn).seg (s.newSeg fn c) (fld (s.block fn).a2 55 32)
      (s.obj (hIndex (BitVec.ofNat 32 (fld (s.block fn).a2 31 0)))).size = false →
    ∃ r, ((s.asked fn 0x0C tag).setCtx c { s.ctx c with
        segs := tput (s.ctx c).segs (s.block fn).seg (s.newSeg fn c) }).reqDone fn 0 0 0 = r ∧
      exec (.segMap fn tag) s =
        .next (if (s.newSeg fn c).present then r.segResolveAll c (s.block fn).seg false else r)) ∧
  (∀ (s : State) (fn : Fn) (tag : BitVec 16) (c : Nat) (f : SegFault), s.up = true → s.mayAsk fn 0x0E = true →
    s.reqCtx fn (fld (s.block fn).a0 31 0) = (0, c) → (s.ctx c).shareOf = none → liveOrLost (s.ctx c).state = true →
    f ∈ s.segFaults → s.tableOwner f.ctx = c → f.seg = (s.block fn).seg → exec (.segRefuse fn tag) s =
      .next (((s.asked fn 0x0E tag).reqDone fn 0 0 0).segResolveAll c (s.block fn).seg true)) ∧
  (∀ (s : State) (fn : Fn) (tag : BitVec 16) (c : Nat), s.up = true → s.mayAsk fn 0x0F = true →
    s.reqCtx fn (s.block fn).a0 = (0, c) → (s.ctx c).state = .live → (s.block fn).a1 = 0 → s.launches = [] →
    exec (.undoSet fn tag) s = .next (((s.asked fn 0x0F tag).setCtx c { s.ctx c with undo :=
      { (s.ctx c).undo with object := 0, base := 0, slots := 0 } }).reqDone fn 0 0 0)) ∧
  (∀ (s : State) (tag : BitVec 16) (c d : Nat), s.up = true → s.mayAsk .pf 0x10 = true →
    s.reqCtx .pf (s.block .pf).a0 = (0, c) → (s.ctx c).state = .live →
    hIndex (BitVec.ofNat 32 (s.block .pf).a1) = d → s.ctxValid (BitVec.ofNat 32 (s.block .pf).a1) = true → c ≠ d →
    (s.part (s.ctx c).part).validated = true → (s.ctx d).state = .live → (s.ctx c).vf = (s.ctx d).vf →
    (s.ctx c).part = (s.ctx d).part → (s.ctx d).shareOf = none → (s.ctx c).segs = [] →
    (∀ e ∈ s.ctxs, e.2.shareOf ≠ some c) → exec (.segShare .pf tag) s =
      .next (((s.asked .pf 0x10 tag).setCtx c { s.ctx c with shareOf := some d }).reqDone .pf 0 0 0)) ∧
  (∀ (s : State) (k : CacheId) (c i : Nat), s.up = true → ((s.ctx (s.tableOwner c)).seg i).present = false →
    exec (.segMissFill k c i) s = .next { s with fe := { s.fe with segMiss := bump s.fe.segMiss 1 } }) ∧
  (∀ (s : State) (k : CacheId) (c i : Nat), s.up = true → ((s.ctx (s.tableOwner c)).seg i).present = true →
    ((s.ctx (s.tableOwner c)).seg i).pages ≠ 0 → ∃ t, exec (.segMissFill k c i) s = .next t ∧
      t.fe.segMiss = bump s.fe.segMiss 1 ∧ (∃ g ∈ t.caches, g.who = k ∧ (s.tableOwner c, i) ∈ g.tags ∧ g.tags.length ≤ 64) ∧
      (∀ g ∈ s.caches, g.who ≠ k → g ∈ t.caches) ∧ { t with fe := s.fe, caches := s.caches } = s) ∧
  (∀ (s : State) (w e : Nat), s.up = true → s.mayAck w (.engine e) = true →
    exec (.withdrawalAck w (.engine e)) s = .next (s.cacheAck w (.engine e))) ∧
  (∀ (s : State) (w : Nat) (d : Withdrawal), s.up = true → tfind s.withdrawals w = some d → d.broadcast = true →
    d.waiting = [] → d.why = [] → exec (.withdrawalComplete w) s = .next (State.broadcastNext
      { s with withdrawals := tdel s.withdrawals w, fe := { s.fe with inval := bump s.fe.inval 1 } })) ∧
  (∀ (s : State) (w : Nat) (d : Withdrawal) (k : CacheId), s.up = true → tfind s.withdrawals w = some d →
    d.broadcast = true → k ∈ d.waiting → exec (.invalAckTimeout w k) s = .next (s.ackLate w k)) ∧
  (∀ (s : State) (fn : Fn) (f : SegFault), s.up = true →
    s.segFaults.find? (fun f => f.fn = fn && !f.posted) = some f → (s.missq fn).enable = true →
    (s.segFaults.filter fun f => f.fn = fn && f.posted).length < 64 →
    ahead32 (s.missq fn).head (s.missq fn).tail < 2 ^ (s.missq fn).sizeLog2 →
    ahead32 (s.missq fn).head (s.missq fn).tail ≠ 0 → ∃ t, exec (.segFaultRecordPost fn) s = .next t ∧
      t.hostMem = mwriteN s.hostMem ((s.missq fn).base + 32 * ((s.missq fn).tail % 2 ^ (s.missq fn).sizeLog2))
        (s.missRecord f ((s.missq fn).seq + 1)) ∧
      t.missq fn = { s.missq fn with tail := ((s.missq fn).tail + 1) % 2 ^ 32, seq := ((s.missq fn).seq + 1) % 2 ^ 32 } ∧
      { t with hostMem := s.hostMem, missqs := s.missqs, segFaults := s.segFaults } = s) ∧
  (∀ (s : State) (c i : Nat) (f : SegFault), s.up = true →
    s.segFaults.find? (fun f => f.ctx = c && f.seg = i && f.posted) = some f →
    exec (.segFaultTimeout c i) s = .next (s.segResolve f true)) ∧
  (∀ (s : State) (fn : Fn) (v : BitVec 64), s.decodes fn = true → s.fwRuns = true →
    ahead32 (fld v.toNat 31 0) (s.missq fn).tail ≤ ahead32 (s.missq fn).head (s.missq fn).tail →
    exec (.missqHeadWrite fn v) s = .next (s.setMissq fn { s.missq fn with head := fld v.toNat 31 0 })) ∧
  (∀ (s : State) (fn : Fn) (v : BitVec 64), s.decodes fn = true → s.fwRuns = true → (s.missq fn).enable = false →
    exec (.missqCtrlWrite fn v) s = .next (s.setMissq fn { s.missq fn with
      timeoutMs := if 1 ≤ fld v.toNat 31 16 ∧ fld v.toNat 31 16 ≤ 10000 then fld v.toNat 31 16 else (s.missq fn).timeoutMs,
      sizeLog2 := fld v.toNat 4 0,
      enable := bit v.toNat 8 && decide (4 ≤ fld v.toNat 4 0) && decide (fld v.toNat 4 0 ≤ 16) }))

/-- Accesses through BAR4 (R675 to R677, R843, R853). A function that does not decode reads zeros and its writes are
dropped; the PF reads and writes the staging region; a VF reaches only what an aperture names. -/
def Obligations.Bar4Accesses : Prop :=
  (∀ (s : State) (fn : Fn) (o n : Nat), s.decodes fn = false → exec (.bar4Read fn o n) s =
    .next { s with out := s.out ++ [Out.completion fn (List.replicate n 0)] }) ∧
  (∀ (s : State) (fn : Fn) (o : Nat) (bs : List (BitVec 8)), s.decodes fn = false →
    exec (.bar4Write fn o bs) s = .next s) ∧
  (∀ (s : State) (o n : Nat), s.decodes .pf = true → exec (.bar4Read .pf o n) s =
    .next { s with out := s.out ++ [Out.completion .pf (s.stagingRead o n)] }) ∧
  (∀ (s : State) (o : Nat) (b : BitVec 8), s.decodes .pf = true → s.stagingUp = true → o < 0x01F00000 →
    exec (.bar4Write .pf o [b]) s = .next { s with boot := { s.boot with image := mwrite s.boot.image o b } }) ∧
  (∀ (s : State) (v o : Nat) (bs : List (BitVec 8)), s.decodes (.vf v) = true → (∀ k, s.aperture v k = none) →
    exec (.bar4Write (.vf v) o bs) s = .next s) ∧
  (∀ (s : State) (v o n c va a : Nat), s.decodes (.vf v) = true → 1 ≤ n → o % 64 + n ≤ 64 →
    s.aperture v o = some (c, va) → s.access ⟨c, 6, ⟨0, 0⟩, []⟩ va = .ok false a → ∃ t,
      exec (.bar4Read (.vf v) o n) s = .next t ∧ t.out = s.out ++ [Out.completion (.vf v) (mreadN s.mem a n)] ∧
      { t with out := s.out, ctxs := s.ctxs } = s) ∧
  (∀ (s : State) (v o c va a : Nat) (bs : List (BitVec 8)), s.decodes (.vf v) = true → bs ≠ [] →
    o % 64 + bs.length ≤ 64 → s.aperture v o = some (c, va) → s.access ⟨c, 7, ⟨0, 0⟩, []⟩ va = .ok false a →
    ∃ t, exec (.bar4Write (.vf v) o bs) s = .next t ∧
      (∀ k, (k < a ∨ a + bs.length ≤ k) → mread t.mem k = mread s.mem k) ∧
      (∀ k, k < bs.length → mread t.mem (a + k) = bs.getD k 0) ∧ { t with mem := s.mem, ctxs := s.ctxs } = s)

/-- The Floor Plan Table is composed from the fuses, the self-test and the forever area (Tables 19-1, 19-3, R841, R842,
R864): an entry for every unit of the size table, in order, generation 1; an engine is present when it is whole or
degraded; an engine with no working array is disabled; the free pools hold the working units and the reserve is empty. A
failed part of the spine, Warden, Sage or host island drives the hub to the safe state instead (R840). -/
def Obligations.FloorPlanComposition : Prop :=
  (∀ (s : State) (failed : List UnitId) (src : BitVec 12), s.up = true → s.boot.step = 3 → ∃ t,
    exec (.fptCompose failed (some src)) s = .next t ∧ t.sage.safe = true ∧ t.sage.pin = 0 ∧ t.boot.step = 3 ∧
    t.boot.fpt = s.boot.fpt) ∧
  (∀ (s : State) (failed : List UnitId), s.up = true → s.boot.step = 3 → ∃ t, exec (.fptCompose failed none) s = .next t ∧
    t.boot.step = 5 ∧ t.boot.generation = 1 ∧ t.boot.composed = s.now ∧
    t.boot.fpt.length = (sizeUnits s.build).length ∧
    t.boot.fpt.map (fun f => (f.type, f.index)) = (sizeUnits s.build).map (fun u => (unitType u, unitIdx u)) ∧
    (∀ e, e < s.build.engines → (t.engine e).state = (if s.engineVerdict failed e ≤ 2 then 1 else 0)) ∧
    (∀ e, e ∈ t.units.freeEngines → e < s.build.engines ∧ (s.engineVerdict failed e = 1 ∨ s.engineVerdict failed e = 2)) ∧
    t.units.reserveEngines = [] ∧ t.units.reserveForeign = [] ∧ t.units.reserveWays = [] ∧ t.units.parts = s.units.parts ∧
    t.mem = s.mem ∧ t.hostMem = s.hostMem ∧ t.ctxs = s.ctxs ∧ t.launches = s.launches ∧ t.ep = s.ep ∧ t.lc = s.lc ∧
    t.pw = s.pw ∧ t.thyme = s.thyme ∧ t.cps = s.cps ∧ t.out = s.out) ∧
  (∀ (s : State) (failed : List UnitId) (u : UnitId), s.fuseBad u = true →
    s.unitVerdict failed u = (if failed.contains u then 6 else 4)) ∧
  (∀ (s : State) (failed : List UnitId) (u : UnitId), s.fuseBad u = false → failed.contains u = true →
    s.unitVerdict failed u = 5) ∧
  (∀ (s : State) (failed : List UnitId) (e : Nat), 0 < s.build.arrays → s.unitVerdict failed (.engine e) = 1 →
    s.arraysAt failed e = [] → 4 ≤ s.engineVerdict failed e)

/-- Requests of the host in the boot page (R854 to R858): a new request is taken while no load is in progress; a load of a
good length makes the hub verify it, and one while firmware runs, or of a wrong length, only gets its code; a broadcast
sends every chunk of the running image on every ACTIVE port; an unknown request gets code 1. Firmware (R775, R795, R847 to
R851, R859 to R863): verification records its outcome and keeps an accepted image; when firmware runs the hub is ready and
the pools come from the table; a stalled load is abandoned; a chunk is taken, noted and answered, and an answer that
refuses a load stops it on that port. -/
def Obligations.BootAndFirmware : Prop :=
  (∀ s : State, s.up = true → s.stagingUp = true → s.sage.wardenDown = false → s.boot.reqSeq ≠ 0 →
    s.boot.reqSeq ≠ s.boot.statSeq → s.boot.taken = none → s.boot.fwState ≠ 1 → s.boot.fwState ≠ 2 →
    exec .bootReqSample s = .next { s with boot := { s.boot with taken := some (s.boot.reqSeq, s.boot.reqOp) } }) ∧
  (∀ (s : State) (q : Nat), s.up = true → s.boot.taken = some (q, 1) → s.boot.fwState = 3 → exec .bootLoad s =
    .next { s with boot := { s.boot with taken := none, statSeq := q, code := 6 } }) ∧
  (∀ (s : State) (q : Nat), s.up = true → s.boot.taken = some (q, 1) → s.boot.fwState ≠ 3 →
    (s.boot.len % 8 ≠ 0 ∨ s.boot.len < 4096 ∨ 32505856 < s.boot.len) → exec .bootLoad s =
    .next { s with boot := { s.boot with taken := none, statSeq := q, code := 1 } }) ∧
  (∀ (s : State) (q : Nat), s.up = true → s.boot.taken = some (q, 1) → s.boot.fwState ≠ 3 →
    s.boot.len % 8 = 0 → 4096 ≤ s.boot.len → s.boot.len ≤ 32505856 → exec .bootLoad s =
    .next { s with boot := { s.boot with taken := none, statSeq := q, code := 0, fwState := 2, source := 0, total := 0,
                                         held := [], loadLen := s.boot.len, chunks := [], srcHub := 0 } }) ∧
  (∀ (s : State) (q : Nat), s.up = true → s.boot.taken = some (q, 2) → s.boot.fwState = 3 → ∃ t,
    exec .bootBroadcast s = .next t ∧ t.boot.taken = none ∧ t.boot.statSeq = q ∧ t.boot.code = 0 ∧ t.boot.fwState = 3 ∧
    (∀ p i, p < s.build.fabricPorts → (s.fp p).state = .active → i < chunksOf s.boot.running.length →
      ∃ o ∈ t.fab.out, o.dst = (s.fp p).peerHub ∧ o.port = some p ∧ o.msg.type = 6 ∧
        o.msg.f10 = BitVec.ofNat 64 (loadIdOf s.boot.digest) ∧
        o.msg.f18 = BitVec.ofNat 64 (i % 2 ^ 32 * 2 ^ 32 + s.boot.running.length % 2 ^ 32)) ∧
    t.mem = s.mem ∧ t.units = s.units ∧ t.ctxs = s.ctxs) ∧
  (∀ (s : State) (q op : Nat), s.up = true → s.boot.taken = some (q, op) → op ≠ 1 → op ≠ 2 →
    exec .bootUnknownOp s = .next { s with boot := { s.boot with taken := none, statSeq := q, code := 1 } }) ∧
  (∀ s : State, s.up = true → s.boot.fwState = 2 → s.boot.running = [] → ∃ t, exec .fwVerifyComplete s = .next t ∧
    t.boot.code = s.imageCode (mreadN s.boot.image 0 s.boot.loadLen) ∧
    (t.boot.code = 0 → t.boot.running = mreadN s.boot.image 0 s.boot.loadLen ∧ t.boot.fwState = 2) ∧
    (t.boot.code ≠ 0 → t.boot.running = [] ∧ t.boot.fwState = 4) ∧ { t with boot := s.boot, rm := s.rm } = s) ∧
  (∀ s : State, s.lcState = 6 ∨ s.lcState = 15 → ∀ img, s.imageCode img = 5) ∧
  (∀ s : State, s.up = true → s.boot.fwState = 2 → s.boot.running ≠ [] → ∃ t, exec .fwRunning s = .next t ∧
    t.boot = { s.boot with fwState := 3, step := 8, digest := imageDigest s.boot.running } ∧ t.fwRuns = true ∧
    t.units = s.poolsFromFpt.units ∧ t.mem = s.mem ∧ t.thyme = s.thyme) ∧
  (∀ s : State, s.up = true → s.boot.fwState = 1 → exec .fwLoadStall s = .next { s with boot :=
    { s.boot with fwState := s.boot.prevState, loadId := 0, loadLen := 0, chunks := [], held := [], total := 0 } }) ∧
  (∀ (s : State) (p : Nat) (m : OfpMsg), s.hears p m 6 = true → s.e2eSeen m = none →
    ∃ t r, exec (.fwChunk p m) s = .next t ∧
    s.takeChunk m.f10.toNat (fld m.f18.toNat 63 32) (fld m.f18.toNat 31 0) m.srcHub.toNat
      (m.data.take (min 4096 (fld m.f18.toNat 31 0 - 4096 * fld m.f18.toNat 63 32))) = r ∧
    t.boot = (if r.1.boot.saw m.f10.toNat (fld m.f18.toNat 63 32) then r.1.boot
      else r.1.boot.note m.f10.toNat (fld m.f18.toNat 63 32)) ∧
    (∃ a, t.e2eSeen m = some a ∧ a.type = 7 ∧ a.f20 = BitVec.ofNat 64 r.2 ∧ a.dstHub = m.srcHub) ∧
    t.mem = s.mem ∧ t.units = s.units) ∧
  (∀ (s : State) (p : Nat) (m : OfpMsg) (o : E2eOut), s.hears p m 7 = true →
    s.fab.find m.srcHub.toNat m.e2eSeq.toNat = some o → o.msg.type = 6 → fld m.f20.toNat 1 0 ≠ 2 →
    exec (.fwAck p m) s = .next ((s.takeInbox p m).e2eDone m.srcHub.toNat m.e2eSeq.toNat)) ∧
  (∀ (s : State) (p : Nat) (m : OfpMsg) (o : E2eOut), s.hears p m 7 = true →
    s.fab.find m.srcHub.toNat m.e2eSeq.toNat = some o → o.msg.type = 6 → fld m.f20.toNat 1 0 = 2 → ∃ t,
    exec (.fwAck p m) s = .next t ∧ t.boot.refusedBy.contains (o.msg.f10.toNat, p) = true ∧
    { t.boot with refusedBy := s.boot.refusedBy } = s.boot ∧ t.mem = s.mem ∧ t.units = s.units)

/-- Doorbells and fetch (R387 to R395). A doorbell within the ring writes TAIL, is counted and wakes the queue; one that
is no whole packet, or beyond the ring, faults; a stale one is ignored and counted. A line of the ring is decoded; a
sequencer that finds TAIL unchanged with no doorbell since falls asleep. -/
def Obligations.DoorbellsAndFetch : Prop :=
  (∀ (s : State) (fn : Fn) (q : Nat) (v : BitVec 64), s.decodes fn = true → s.pageActs fn q = true →
    (s.queue q).deviceWritten = false → (s.ctx (q / 8)).state = .live → v.toNat % 2 ^ 32 % 16 = 0 →
    ahead32 (s.queue q).tail (v.toNat % 2 ^ 32) < 2 ^ 31 →
    ahead32 (s.queue q).head (v.toNat % 2 ^ 32) ≤ 2 ^ (s.queue q).sizeLog2 →
    exec (.doorbell fn q 8 v) s = .next (s.ring q (v.toNat % 2 ^ 32))) ∧
  (∀ (s : State) (q v : Nat), (s.ctx (q / 8)).sched.rslot.isSome = true → (s.queue q).fetch = .asleep →
    (s.queue q).head ≠ v → ((s.ring q v).queue q).tail = v ∧ ((s.ring q v).queue q).dbPending = true ∧
      ((s.ring q v).queue q).fetch = .fetching ∧ (s.ring q v).fe.dbAccepted = bump s.fe.dbAccepted 1 ∧
      (s.ring q v).mem = s.mem ∧ (s.ring q v).objs = s.objs ∧ (s.ring q v).fences = s.fences) ∧
  (∀ (s : State) (fn : Fn) (q width : Nat) (v : BitVec 64), s.decodes fn = true →
    (width ≠ 8 ∨ s.pageActs fn q = false ∨ (s.queue q).deviceWritten = true) →
    exec (.doorbell fn q width v) s = .next { s with fe := { s.fe with dbIgnored := bump s.fe.dbIgnored 1 } }) ∧
  (∀ (s : State) (fn : Fn) (q : Nat) (v : BitVec 64), s.decodes fn = true → s.pageActs fn q = true →
    (s.queue q).deviceWritten = false → (s.ctx (q / 8)).state = .live → v.toNat % 2 ^ 32 % 16 ≠ 0 →
    exec (.doorbell fn q 8 v) s = .next (s.fault (q / 8) 3
      { source := 0x280, queue := q, off := 2 * 2 ^ 56 + v.toNat % 2 ^ 32 })) ∧
  (∀ (s : State) (q : Nat) (bs : List Byte), s.up = true → s.fetchOn q = true → (s.queue q).fetch = .fetching →
    (s.queue q).decoded = [] → (s.queue q).stalled = none → (s.queue q).seenTail ≠ (s.queue q).head →
    s.ringBytes (q / 8) (s.queue q).nextLine.1 (s.queue q).nextLine.2 = (bs, none) →
    exec (.ringLineReturn q) s = .next (s.setQueue q { s.queue q with decoded := packetsOf (s.queue q).head bs })) ∧
  (∀ (s : State) (q : Nat), s.up = true → s.fetchOn q = true → (s.queue q).fetch = .reread →
    (s.queue q).tail = (s.queue q).head → (s.queue q).dbPending = false →
    exec (.tailReread q) s = .next (s.setQueue q { s.queue q with fetch := .asleep })) ∧
  (∀ (s : State) (q : Nat), s.up = true → s.fetchOn q = true → (s.queue q).fetch = .reread →
    (s.queue q).tail ≠ (s.queue q).head → exec (.tailReread q) s = .next (s.setQueue q
      { s.queue q with fetch := .fetching, seenTail := (s.queue q).tail, dbPending := false }))

/-- NOP, SIGNAL and BARRIER, and an undefined opcode (R396 to R402, Table 8-6). The packet is read, its command completes
and its fence, if it names one, is on its way to be signalled; SIGNAL and BARRIER act only when every earlier command of
the queue has completed; an undefined opcode faults BAD_COMMAND. -/
def Obligations.QueueSignals : Prop :=
  (∀ (s : State) (q : Nat) (p : Packet) (rest : List Packet), s.starts q p rest = true → p.malformed = false →
    p.w0 % 256 = 1 → exec (.qNop q) s = .next ((s.begun q p rest).finishCmd s.nextId)) ∧
  (∀ (s : State) (q : Nat) (p : Packet) (rest : List Packet), s.starts q p rest = true → p.malformed = false →
    s.alone q = true → p.w0 % 256 = 5 → exec (.signal q) s = .next ((s.begun q p rest).finishCmd s.nextId)) ∧
  (∀ (s : State) (q : Nat) (p : Packet) (rest : List Packet), s.starts q p rest = true → p.malformed = false →
    s.alone q = true → p.w0 % 256 = 9 → exec (.barrier q) s = .next ((s.begun q p rest).finishCmd s.nextId)) ∧
  (∀ (s : State) (q : Nat) (p : Packet) (rest : List Packet), s.starts q p rest = true → p.off = none →
    s.startedCmds q = [] → (p.w0 % 256 = 1 ∨ p.w0 % 256 = 5 ∨ p.w0 % 256 = 9) → ∃ t,
    (s.begun q p rest).finishCmd s.nextId = t ∧ (t.queue q).head = (p.pos + 16) % 2 ^ 32 ∧
    (t.queue q).decoded = rest ∧ tfind t.cmds s.nextId = none ∧
    t.fenceWire = (if p.heldFence = 0 then s.fenceWire else s.fenceWire ++ [⟨p.heldFence, 0⟩]) ∧
    (t.ctx (q / 8)).acct.lastProgress = s.now ∧ t.mem = s.mem ∧ t.hostMem = s.hostMem ∧ t.objs = s.objs ∧
    t.fences = s.fences ∧ t.launches = s.launches ∧ t.engines = s.engines) ∧
  (∀ (s : State) (q : Nat) (p : Packet) (rest : List Packet), s.starts q p rest = true →
    (p.w0 % 256 = 0 ∨ 0x0D < p.w0 % 256) → exec (.qUndefinedOpcode q) s =
      .next ((s.begun q p rest).badCmd s.nextId))

/-- WAIT and the fence unit (R354 to R358, R372, R373, R403). A WAIT on an unsignalled fence blocks its queue, on a
signalled one completes, on one with an error halts the queue with that error; the fence unit applies signals in order and
only to an unsignalled fence of the same generation; a cycle of waits is broken with CYCLE on every fence of it. -/
def Obligations.WaitsAndFences : Prop :=
  (∀ (s : State) (q : Nat) (p : Packet) (rest : List Packet), s.starts q p rest = true → p.malformed = false →
    p.w0 % 256 = 4 → s.fenceValid (q / 8) p.heldFence (some (q, p.pos, s.nextId)) = true →
    (s.fence (hIndex p.heldFence)).state = 1 → exec (.waitFence q) s = .next (((s.begun q p rest).setQueue q
      { (s.begun q p rest).queue q with blocked := some (p.heldFence, s.now) }).acted s.nextId)) ∧
  (∀ (s : State) (q : Nat) (p : Packet) (rest : List Packet), s.starts q p rest = true → p.malformed = false →
    p.w0 % 256 = 4 → s.fenceValid (q / 8) p.heldFence (some (q, p.pos, s.nextId)) = true →
    (s.fence (hIndex p.heldFence)).state = 2 → exec (.waitFence q) s =
      .next ((s.begun q p rest).waitEnds q s.nextId 0)) ∧
  (∀ (s : State) (q : Nat) (p : Packet) (rest : List Packet), s.starts q p rest = true → p.malformed = false →
    p.w0 % 256 = 4 → s.fenceValid (q / 8) p.heldFence (some (q, p.pos, s.nextId)) = true →
    (s.fence (hIndex p.heldFence)).state = 3 → exec (.waitFence q) s =
      .next ((s.begun q p rest).waitEnds q s.nextId (s.fence (hIndex p.heldFence)).error)) ∧
  (∀ (s : State) (q id code : Nat), code ≠ 0 → ((s.waitEnds q id code).queue q).state = 2 ∧
    ((s.waitEnds q id code).queue q).haltCode = code ∧ ((s.waitEnds q id code).queue q).blocked = none) ∧
  (∀ (s : State) (q id : Nat), ((s.waitEnds q id 0).queue q).blocked = none ∧
    ((s.waitEnds q id 0).queue q).state = (s.queue q).state) ∧
  (∀ (s : State) (q since id : Nat) (h : BitVec 32) (m : Cmd), s.up = true → (s.queue q).blocked = some (h, since) →
    (s.startedCmds q).find? (fun e => e.2.op = 4) = some (id, m) → (s.fence (hIndex h)).gen = hGen h →
    (s.fence (hIndex h)).state = 2 → (s.ctx (q / 8)).sched.rslot.isSome = true →
    exec (.waitComplete q) s = .next (s.waitEnds q id 0)) ∧
  (∀ (s : State) (sig : FenceSig) (rest : List FenceSig), s.up = true → s.fenceWire = sig :: rest →
    hType sig.fence = 4 → hGen sig.fence = (s.fence (hIndex sig.fence)).gen →
    (s.fence (hIndex sig.fence)).state = 1 → (s.fence (hIndex sig.fence)).notify = false →
    exec .fenceSignalApply s = .next (State.setFence { s with fenceWire := rest } (hIndex sig.fence)
      { s.fence (hIndex sig.fence) with state := (if sig.code = 0 then 2 else 3), error := sig.code, signalThyme := s.now })) ∧
  (∀ (s : State) (sig : FenceSig) (rest : List FenceSig), s.up = true → s.fenceWire = sig :: rest →
    (hType sig.fence ≠ 4 ∨ hGen sig.fence ≠ (s.fence (hIndex sig.fence)).gen ∨ (s.fence (hIndex sig.fence)).state ≠ 1) →
    exec .fenceSignalApply s = .next { s with fenceWire := rest }) ∧
  (∀ (s : State) (q since : Nat) (h : BitVec 32) (cyc : List (BitVec 32)), s.up = true →
    (s.queue q).blocked = some (h, since) → s.fenceWire = [] → (∀ g ∈ cyc, g ≠ 0) →
    (State.walk 8192 { s with fe := { s.fe with walks := bump s.fe.walks 1 } } [h] [] 4096).2 = some cyc →
    exec (.waitGraphWalk q) s = .next { s with
      fe := { s.fe with walks := bump s.fe.walks 1, cycles := bump s.fe.cycles 1 }, fenceWire := cyc.map (⟨·, 8⟩) }) ∧
  (∀ (s : State) (q since : Nat) (h : BitVec 32), s.up = true → (s.queue q).blocked = some (h, since) →
    (State.walk 8192 { s with fe := { s.fe with walks := bump s.fe.walks 1 } } [h] [] 4096).2 = none →
    exec (.waitGraphWalk q) s = .next { s with fe := { s.fe with walks := bump s.fe.walks 1 } })

/-- Signals to other hubs, and the two commands that write to memory (R335, R336, R420 to R426, R409). PATH 0 sends the
reference to its hub and waits for the answer; PATH 1 posts a record to the peer's page; PATH 2 writes HANDLE; a reference
to this hub signals here; an unreachable hub faults UNREACHABLE; a peer's record is checked and answered. -/
def Obligations.RemoteSignals : Prop :=
  (∀ (s : State) (q : Nat) (p : Packet) (rest : List Packet), s.starts q p rest = true → p.malformed = false →
    s.alone q = true → p.w0 % 256 = 6 → fld p.w0 9 8 = 0 → s.refHere p.w1 = false → s.reachable (refHub p.w1) = true →
    exec (.signalRemoteFabric q) s = .next (((s.begun q p rest).setCmd s.nextId { (p.cmd q) with acted := true }).e2eSend
      { dst := refHub p.w1, seq := 0, cmd := some s.nextId,
        msg := { (s.begun q p rest).ofp 1 (refHub p.w1) ((s.begun q p rest).tag (q / 8)) with f10 := BitVec.ofNat 64 p.w1 } })) ∧
  (∀ (s : State) (q : Nat) (p : Packet) (rest : List Packet), s.starts q p rest = true → p.malformed = false →
    s.alone q = true → p.w0 % 256 = 6 → fld p.w0 9 8 = 0 → s.refHere p.w1 = false → s.reachable (refHub p.w1) = false →
    exec (.signalRemoteFabric q) s =
      .next (((s.begun q p rest).cmdFault s.nextId 7 15 p.w1).finishCmd s.nextId)) ∧
  (∀ (s : State) (q : Nat) (p : Packet) (rest : List Packet), s.starts q p rest = true → p.malformed = false →
    s.alone q = true → p.w0 % 256 = 6 → fld p.w0 9 8 = 0 → s.refHere p.w1 = true →
    s.fenceValid (q / 8) (BitVec.ofNat 32 p.w1) (some (q, p.pos, s.nextId)) = true →
    exec (.signalRemoteFabric q) s =
      .next (((s.begun q p rest).sendSignal (BitVec.ofNat 32 p.w1) 0).finishCmd s.nextId)) ∧
  (∀ (s : State) (q i : Nat) (p : Packet) (rest : List Packet) (result : BitVec 64), s.starts q p rest = true →
    p.malformed = false → s.alone q = true → p.w0 % 256 = 6 → fld p.w0 9 8 = 1 → s.refHere p.w1 = false →
    (List.range 16).find? (fun i => (tget {} s.peers i).valid && (tget {} s.peers i).hubId.toNat == refHub p.w1) = some i →
    fld result.toNat 63 32 = ((tget {} s.peers i).sentSeq + 1) % 2 ^ 32 → fld result.toNat 1 0 = 1 →
    exec (.signalRemotePeer q result) s = .next (State.finishCmd { (s.begun q p rest) with
      peers := tput s.peers i { tget {} s.peers i with sentSeq := ((tget {} s.peers i).sentSeq + 1) % 2 ^ 32 },
      out := s.out ++ [Out.peerWrite (tget {} s.peers i).addr (bytesLE 8 p.w1 ++
        bytesLE 8 ((s.begun q p rest).myHub * 2 ^ 48 + ((tget {} s.peers i).sentSeq + 1) % 2 ^ 32))] } s.nextId)) ∧
  (∀ (s : State) (q : Nat) (p : Packet) (rest : List Packet) (host : Bool) (t : State), s.starts q p rest = true →
    p.malformed = false → s.alone q = true → p.w0 % 256 = 6 → fld p.w0 9 8 = 2 →
    (s.begun q p rest).writeLine ((s.begun q p rest).whoCmd (p.cmd q) s.nextId 5) [] p.w1 (bytesLE 4 p.heldFence.toNat) =
      .done t host →
    exec (.signalRemoteWrite q) s = .next ((t.chargeBytes (q / 8) (if host then 0 else 4) (if host then 4 else 0)).finishCmd
      s.nextId)) ∧
  (∀ (s : State) (q : Nat) (p : Packet) (rest : List Packet) (host : Bool) (t : State), s.starts q p rest = true →
    p.malformed = false → s.alone q = true → p.w0 % 256 = 0x0D →
    (s.begun q p rest).writeLine ((s.begun q p rest).whoCmd (p.cmd q) s.nextId 5) [] p.w1 (bytesLE 8 s.now) =
      .done t host →
    exec (.timestamp q) s = .next ((t.chargeBytes (q / 8) (if host then 0 else 8) (if host then 8 else 0)).finishCmd
      s.nextId)) ∧
  (∀ (s : State) (r c : BitVec 64) (i : Nat), s.decodes .pf = true → s.fwRuns = true →
    (List.range 16).find? (fun i => (tget {} s.peers i).valid && (tget {} s.peers i).hubId.toNat == fld c.toNat 63 48) = some i →
    s.refAccepted r.toNat = true → BitVec.ofNat 32 r.toNat ≠ 0 → exec (.peerSignalRecord r c) s = .next { s with
      fenceWire := s.fenceWire ++ [⟨BitVec.ofNat 32 r.toNat, 0⟩],
      peers := tput s.peers i { tget {} s.peers i with resultSeq := c.toNat % 2 ^ 32, result := 1 } }) ∧
  (∀ (s : State) (r c : BitVec 64), s.decodes .pf = true → s.fwRuns = true →
    (List.range 16).find? (fun i => (tget {} s.peers i).valid && (tget {} s.peers i).hubId.toNat == fld c.toNat 63 48) = none →
    exec (.peerSignalRecord r c) s = .next { s with fe := { s.fe with remoteRefused := bump s.fe.remoteRefused 1 } })

/-- COPY, FILL, JUMP, CALL_RING and RELEASE (R362 to R366, R405 to R408). A transfer starts once its block is read; when
it runs, the bytes of its destination become the pattern or those of the source, nothing else in memory changes, and its
command completes; a JUMP moves HEAD on; the packets of a called buffer come before those of the ring; the owner's RELEASE
marks the entry, and names what preceded it. -/
def Obligations.QueueMemoryCommands : Prop :=
  (∀ (s : State) (q : Nat) (p : Packet) (rest : List Packet) (j : CopyJob), s.starts q p rest = true →
    p.malformed = false → (p.w0 % 256 = 7 ∨ p.w0 % 256 = 8) →
    ((s.begun q p rest).readVa ((s.begun q p rest).whoCmd (p.cmd q) s.nextId 4) [] p.w1 32).stop = none →
    ((s.begun q p rest).readVa ((s.begun q p rest).whoCmd (p.cmd q) s.nextId 4) [] p.w1 32).viol.lines = 0 →
    copyBlock (p.w0 % 256 = 8)
      ((s.begun q p rest).readVa ((s.begun q p rest).whoCmd (p.cmd q) s.nextId 4) [] p.w1 32).bytes = some j →
    (∀ f, s.namesZeroing (q / 8) f = false) → j.len ≠ 0 → ∃ t,
    exec (if p.w0 % 256 = 7 then .copy q else .fill q) s = .next t ∧
    tfind t.cmds s.nextId = some { (p.cmd q) with copy := some j, acted := true } ∧
    (t.queue q).decoded = rest ∧ t.mem = s.mem ∧ t.hostMem = s.hostMem ∧ t.objs = s.objs ∧ t.fences = s.fences) ∧
  (∀ (s : State) (id a : Nat) (m : Cmd) (j : CopyJob), s.up = true → tfind s.cmds id = some m → m.copy = some j →
    m.stalled = none → (s.ctx m.ctx).lostHold = false → s.paused (s.ctx m.ctx).part = false → j.isFill = true →
    j.done = 0 → j.buf = [] → j.reading = true → 0 < j.len → j.len ≤ 64 - j.dst % 64 →
    s.access (s.whoCmd m id 5) j.dst = .ok false a → ∃ t, exec (.copyComplete id) s = .next t ∧
    t.mem = mwriteN s.mem a ((List.range j.len).map fun i => BitVec.ofNat 8 (j.pattern >>> (8 * (i % 8)))) ∧
    tfind t.cmds id = none ∧ t.hostMem = s.hostMem ∧ t.objs = s.objs ∧ t.fences = s.fences) ∧
  (∀ (s : State) (id a b : Nat) (m : Cmd) (j : CopyJob), s.up = true → tfind s.cmds id = some m → m.copy = some j →
    m.stalled = none → (s.ctx m.ctx).lostHold = false → s.paused (s.ctx m.ctx).part = false → j.isFill = false →
    j.done = 0 → j.buf = [] → j.reading = true → 0 < j.len → j.len ≤ 64 - j.dst % 64 → j.len ≤ 64 - j.src % 64 →
    s.access (s.whoCmd m id 4) j.src = .ok false a → s.access (s.whoCmd m id 5) j.dst = .ok false b → ∃ t,
    exec (.copyComplete id) s = .next t ∧ t.mem = mwriteN s.mem b (mreadN s.mem a j.len) ∧
    tfind t.cmds id = none ∧ t.hostMem = s.hostMem ∧ t.objs = s.objs ∧ t.fences = s.fences) ∧
  (∀ (s : State) (q : Nat) (p : Packet) (rest : List Packet), s.starts q p rest = true → p.malformed = false →
    p.w0 % 256 = 0x0A → p.off = none → p.pos < 2 ^ 32 →
    p.w1 ≤ ahead32 ((s.begun q p rest).queue q).head ((s.begun q p rest).queue q).tail → ∃ t, exec (.jump q) s = .next t ∧
    (t.queue q).head = (((s.begun q p rest).queue q).head + p.w1) % 2 ^ 32 ∧ (t.queue q).decoded = rest.drop (p.w1 / 16) ∧
    (t.queue q).tail = (s.queue q).tail ∧ tfind t.cmds s.nextId = none ∧ t.fenceWire = (s.begun q p rest).fenceWire ∧
    t.mem = s.mem ∧ t.hostMem = s.hostMem ∧ t.objs = s.objs ∧ t.fences = s.fences) ∧
  (∀ (s : State) (q : Nat) (p : Packet) (rest : List Packet) (bs : List Byte), s.starts q p rest = true →
    p.malformed = false → p.w0 % 256 = 0x0B → p.heldFence.toNat ≠ 0 →
    (s.begun q p rest).callBytes (q / 8) p.w1 p.heldFence.toNat [] = (bs, none) → ∃ t, exec (.callRing q) s = .next t ∧
    (t.queue q).decoded = ((packetsOf 0 bs).zipIdx.map fun k => { k.1 with pos := p.pos, off := some (16 * k.2) }) ++ rest ∧
    tfind t.cmds s.nextId = some { (p.cmd q) with acted := true } ∧ t.mem = s.mem ∧ t.hostMem = s.hostMem ∧
    t.objs = s.objs ∧ t.fences = s.fences) ∧
  (∀ (s : State) (q : Nat) (p : Packet) (rest : List Packet) (h : BitVec 32), s.starts q p rest = true →
    p.malformed = false → p.w0 % 256 = 0x0C → BitVec.ofNat 32 p.w1 = h → hType h = 4 →
    s.fenceValid (q / 8) h (some (q, p.pos, s.nextId)) = true → (s.fence (hIndex h)).owner = s.tag (q / 8) →
    (s.fence (hIndex h)).orphaned = false → ∃ t, exec (.release q) s = .next t ∧
    t.fence (hIndex h) = { s.fence (hIndex h) with releasing := true } ∧
    (t.ctx (q / 8)).released = (s.ctx (q / 8)).released ++ [⟨h, false, s.tails (q / 8) q,
      ((s.begun q p rest).cmds.filter fun e => e.2.ctx = q / 8 && e.1 != s.nextId).map (·.1)⟩] ∧
    tfind t.cmds s.nextId = none ∧ t.mem = s.mem ∧ t.hostMem = s.hostMem ∧ t.objs = s.objs) ∧
  (∀ (s : State) (q : Nat) (p : Packet) (rest : List Packet) (h : BitVec 32), s.starts q p rest = true →
    p.malformed = false → p.w0 % 256 = 0x0C → BitVec.ofNat 32 p.w1 = h → hType h = 3 →
    s.objValid (q / 8) h (some (q, p.pos, s.nextId)) = true → s.zeroing h = false →
    (s.obj (hIndex h)).owner = s.tag (q / 8) → (s.obj (hIndex h)).state ≠ 3 → ∃ t, exec (.release q) s = .next t ∧
    t.obj (hIndex h) = { s.obj (hIndex h) with releasing := true } ∧
    (t.ctx (q / 8)).released = (s.ctx (q / 8)).released ++ [⟨h, false, s.tails (q / 8) q,
      ((s.begun q p rest).cmds.filter fun e => e.2.ctx = q / 8 && e.1 != s.nextId).map (·.1)⟩] ∧
    tfind t.cmds s.nextId = none ∧ t.mem = s.mem ∧ t.hostMem = s.hostMem ∧ t.fences = s.fences)

/-- Launches (R410 to R419). A LAUNCH whose header is good becomes a command with its descriptor, of which dispatch makes
the workgroups; on a queue with a bound launch it is a work packet; LAUNCH_RESIDENT binds one launch to its queue; with
STOP it completes at once when nothing is bound; a packet reaches a launch that waits on the queue. -/
def Obligations.QueueLaunches : Prop :=
  (∀ (s : State) (q : Nat) (p : Packet) (rest : List Packet) (b : State) (r : ReadRes), s.starts q p rest = true →
    p.malformed = false → p.w0 % 256 = 2 → s.begun q p rest = b → (b.queue q).bound = none →
    b.readVa (b.whoCmd (p.cmd q) s.nextId 4) [] p.w1 64 = r → r.stop = none → r.viol.lines = 0 →
    (LaunchHeader.ofBytes r.bytes).ok s.build.arrays = true → (LaunchHeader.ofBytes r.bytes).constLen = 0 →
    s.launchAllowed (p.cmd q) ((LaunchHeader.ofBytes r.bytes).desc []) false = true →
    ((LaunchHeader.ofBytes r.bytes).desc []).workgroups ≠ 0 → (∀ f, s.namesZeroing (q / 8) f = false) →
    (s.ctx (q / 8)).released = [] → exec (.launch q) s = .next ((b.chargeBytes (q / 8) r.dev r.host).setCmd s.nextId
      { (p.cmd q) with desc := some ((LaunchHeader.ofBytes r.bytes).desc []), acted := true })) ∧
  (∀ (s : State) (q l : Nat) (p : Packet) (rest : List Packet) (b : State) (r : ReadRes), s.starts q p rest = true →
    p.malformed = false → p.w0 % 256 = 2 → s.begun q p rest = b → (b.queue q).bound = some l →
    s.scheduleRuns (s.ctx (q / 8)).part = false →
    b.readVa (b.whoCmd (p.cmd q) s.nextId 4) [] p.w1 64 = r → r.stop = none → r.viol.lines = 0 →
    (LaunchHeader.ofBytes r.bytes).constOk = true → (LaunchHeader.ofBytes r.bytes).constLen = 0 →
    exec (.launch q) s = .next ((b.chargeBytes (q / 8) r.dev r.host).setCmd s.nextId
      { (p.cmd q) with desc := some ((LaunchHeader.ofBytes r.bytes).desc []), isPacket := true, acted := true })) ∧
  (∀ (s : State) (q : Nat) (p : Packet) (rest : List Packet) (b : State) (r : ReadRes), s.starts q p rest = true →
    p.malformed = false → p.w0 % 256 = 3 → bit (fld p.w0 15 8) 0 = false → s.begun q p rest = b → (b.queue q).bound = none →
    b.readVa (b.whoCmd (p.cmd q) s.nextId 4) [] p.w1 64 = r → r.stop = none → r.viol.lines = 0 →
    (LaunchHeader.ofBytes r.bytes).ok s.build.arrays = true → (LaunchHeader.ofBytes r.bytes).constLen = 0 →
    s.launchAllowed (p.cmd q) ((LaunchHeader.ofBytes r.bytes).desc []) true = true →
    ((LaunchHeader.ofBytes r.bytes).desc []).workgroups = 1 → (∀ f, s.namesZeroing (q / 8) f = false) →
    (s.ctx (q / 8)).released = [] → ∃ t, exec (.launchResident q) s = .next t ∧ (t.queue q).bound = some (s.nextId + 1) ∧
    tfind t.launches (s.nextId + 1) = some ((p.cmd q).launchOf s.nextId 0 ((LaunchHeader.ofBytes r.bytes).desc []) true) ∧
    t.mem = s.mem ∧ t.objs = s.objs ∧ t.fences = s.fences ∧ t.engines = s.engines) ∧
  (∀ (s : State) (q : Nat) (p : Packet) (rest : List Packet), s.starts q p rest = true → p.malformed = false →
    p.w0 % 256 = 3 → bit (fld p.w0 15 8) 0 = true → s.startedCmds q = [] → (s.queue q).bound = none →
    exec (.launchResidentStop q) s = .next (((s.begun q p rest).acted s.nextId).finishCmd s.nextId)) ∧
  (∀ (s : State) (q id e k sd sp n : Nat) (l : Launch) (m : Cmd) (bound : List Nat) (fold : Option (Nat × Nat)),
    s.up = true → (s.queue q).bound = some id → l.queue = q →
    tfind s.launches id = some l → l.place = .slot e n → l.qwait = some (sd, sp, none) → l.status = .waiting →
    l.stopWait = false → s.nextPacket q = some (k, m) → s.bindFor e l.desc.arrays = some (bound, fold) → ∃ t x,
    exec (.workPacketDeliver q) s = .next t ∧ tfind t.launches id = some x ∧ x.status = .running ∧ x.qwait = none ∧
    x.packet = some k ∧ x.bound = bound ∧ x.fold = fold ∧ x.x.consts = (m.desc.getD {}).consts ∧
    x.x.regs.getS sp = (if sp = 0 then 0 else (m.desc.getD {}).arg % 2 ^ 64) ∧
    (sd ≠ sp → x.x.regs.getS sd = 0) ∧ x.x.pc = l.x.pc ∧ t.mem = s.mem ∧ t.objs = s.objs ∧ t.fences = s.fences)

/-- The scalar instructions that write registers (R162, R224, R226 to R233): each completes as it leaves the scalar queue,
writes the register its word names with the value the rule gives, and changes nothing else but its token counters. A write
of s0 is discarded by the register write itself. Branches and jumps (R234, R235): a taken branch goes on at its target,
one not taken with the next instruction; JAL links; JR goes to its register; a word with a bad condition or an odd target
faults BAD_COMMAND and does nothing. An undefined opcode faults when it leaves, and signals (R156, R160). -/
def Obligations.ScalarInstructions : Prop :=
  (∀ (s : State) (a : SlotId) (h : QEntry) (id : Nat) (l : Launch), s.leaves a 3 h id l = true → isOp 0x01 h.word = true →
    exec (.nop a) s = .next (s.wrote 3 id l h fun r => r)) ∧
  (∀ (s : State) (a : SlotId) (h : QEntry) (id : Nat) (l : Launch), s.leaves a 3 h id l = true → isOp 0x02 h.word = true →
    exec (.sli a) s = .next (s.wrote 3 id l h fun r =>
      r.setS (fld h.word 45 40) (wrap 64 (sext 32 (fld h.word 39 8))))) ∧
  (∀ (s : State) (a : SlotId) (h : QEntry) (id : Nat) (l : Launch), s.leaves a 3 h id l = true → isOp 0x03 h.word = true →
    exec (.slui a) s = .next (s.wrote 3 id l h fun r =>
      r.setS (fld h.word 45 40) (r.getS (fld h.word 45 40) % 2 ^ 32 + fld h.word 39 8 * 2 ^ 32))) ∧
  (∀ (s : State) (a : SlotId) (h : QEntry) (id v : Nat) (l : Launch), s.leaves a 3 h id l = true →
    isOp 0x04 h.word = true → scalarFn (fld h.word 27 24) (h.sv (fld h.word 39 34)) (h.sv (fld h.word 33 28)) = some v →
    exec (.salu a) s = .next (s.wrote 3 id l h fun r => r.setS (fld h.word 45 40) v)) ∧
  (∀ (s : State) (a : SlotId) (h : QEntry) (id v : Nat) (l : Launch), s.leaves a 3 h id l = true →
    isOp 0x05 h.word = true →
    scalarFn (fld h.word 27 24) (h.sv (fld h.word 39 34)) (wrap 64 (sext 24 (fld h.word 23 0))) = some v →
    exec (.salui a) s = .next (s.wrote 3 id l h fun r => r.setS (fld h.word 45 40) v)) ∧
  (∀ (s : State) (a : SlotId) (h : QEntry) (id off : Nat) (l : Launch), s.leaves a 3 h id l = true →
    isOp 0x06 h.word = true → h.sv (fld h.word 39 34) + 8 * fld h.word 33 14 = off → off % 8 = 0 →
    off + 8 ≤ (s.allotSpan a.engine l.ctx).2 → exec (.sld a) s = .next (s.wrote 3 id l h fun r =>
      r.setS (fld h.word 45 40) (natLE (mreadN (s.engine a.engine).store ((s.allotSpan a.engine l.ctx).1 + off) 8)))) ∧
  (∀ (s : State) (a : SlotId) (h : QEntry) (id off : Nat) (l : Launch), s.leaves a 3 h id l = true →
    isOp 0x07 h.word = true → h.sv (fld h.word 39 34) + 8 * fld h.word 33 14 = off → off % 8 = 0 →
    off + 8 ≤ (s.allotSpan a.engine l.ctx).2 → ∃ t x, exec (.sst a) s = .next t ∧ tfind t.launches id = some x ∧
    x.x = (l.x.dropHead 3 h.word).signalled h.word ∧ (t.engine a.engine).store = mwriteN (s.engine a.engine).store
      ((s.allotSpan a.engine l.ctx).1 + off) (bytesLE 8 (h.sv (fld h.word 45 40))) ∧
    { t with launches := s.launches, engines := s.engines } = s ∧ (∀ e, e ≠ a.engine → t.engine e = s.engine e)) ∧
  (∀ (s : State) (a : SlotId) (h : QEntry) (id : Nat) (l : Launch), s.leaves a 3 h id l = true → isOp 0x08 h.word = true →
    exec (.sparam a) s = .next (s.wrote 3 id l h fun r =>
      r.setS (fld h.word 45 40) (leAt l.x.consts (8 * fld h.word 39 34) 8))) ∧
  (∀ (s : State) (a : SlotId) (h : QEntry) (id v : Nat) (l : Launch), s.leaves a 3 h id l = true →
    isOp 0x09 h.word = true → fld h.word 39 35 ≠ 4 → s.statusValue l (fld h.word 39 35) = some v →
    exec (.sstat a) s = .next (s.wrote 3 id l h fun r => r.setS (fld h.word 45 40) v)) ∧
  (∀ (s : State) (a : SlotId) (h : QEntry) (id : Nat) (l : Launch), s.leaves a 3 h id l = true →
    isOp 0x09 h.word = true → fld h.word 39 35 = 4 → exec (.sstat a) s = .next { (s.wrote 3 id l h fun r =>
      r.setS (fld h.word 45 40) (Config.freeValue s.freeCtr).toNat) with freeCtr := s.freeCtr + 1 }) ∧
  (∀ (s : State) (a : SlotId) (h : QEntry) (id : Nat) (l : Launch), s.leaves a 3 h id l = true → isOp 0x0D h.word = true →
    (bit h.word 50 = true → fld h.word 49 46 = fld h.word 45 42 → fld h.word 41 34 < 255) →
    exec (.kset a) s = .next (s.wrote 3 id l h fun r => { r with k := tput r.k (fld h.word 45 42) (fld h.word 41 34) })) ∧
  (∀ (s : State) (a : SlotId) (h : QEntry) (id off : Nat) (l : Launch), s.leaves a 3 h id l = true →
    isOp 0x18 h.word = true → h.sv (fld h.word 41 36) + 32 * fld h.word 35 16 = off → off % 32 = 0 →
    off + 32 ≤ (s.allotSpan a.engine l.ctx).2 → exec (.tdld a) s = .next (s.wrote 3 id l h fun r =>
      { r with t := tput r.t (fld h.word 45 42) (BitVec.ofNat 256
        (natLE (mreadN (s.engine a.engine).store ((s.allotSpan a.engine l.ctx).1 + off) 32))) })) ∧
  (∀ (s : State) (a : SlotId) (h : QEntry) (id : Nat) (l : Launch) (v : BitVec 256), s.leaves a 3 h id l = true →
    isOp 0x19 h.word = true →
    tdField (tget 0 l.x.regs.t (fld h.word 45 42)) (fld h.word 41 39) (h.sv (fld h.word 38 33)) = some v →
    exec (.tdset a) s = .next (s.wrote 3 id l h fun r => { r with t := tput r.t (fld h.word 45 42) v })) ∧
  (∀ (s : State) (a : SlotId) (h : QEntry) (id : Nat) (l : Launch), s.leaves a 3 h id l = true → isOp 0x0A h.word = true →
    brHolds (fld h.word 45 43) (h.sv (fld h.word 42 37)) (h.sv (fld h.word 36 31)) = some true →
    exec (.br a) s = .next (s.ran 3 id l h fun x => { x with pc := branchTarget h % 2 ^ 64 })) ∧
  (∀ (s : State) (a : SlotId) (h : QEntry) (id : Nat) (l : Launch), s.leaves a 3 h id l = true → isOp 0x0A h.word = true →
    brHolds (fld h.word 45 43) (h.sv (fld h.word 42 37)) (h.sv (fld h.word 36 31)) = some false →
    exec (.br a) s = .next (s.wrote 3 id l h fun r => r)) ∧
  (∀ (s : State) (a : SlotId) (h : QEntry) (id : Nat) (l : Launch), s.leaves a 3 h id l = true → isOp 0x0B h.word = true →
    exec (.jal a) s = .next (s.ran 3 id l h fun x =>
      { x with regs := x.regs.setS (fld h.word 45 40) (h.addr + 8), pc := branchTarget h % 2 ^ 64 })) ∧
  (∀ (s : State) (a : SlotId) (h : QEntry) (id : Nat) (l : Launch), s.leaves a 3 h id l = true → isOp 0x0C h.word = true →
    h.sv (fld h.word 39 34) % 8 = 0 → exec (.jr a) s = .next (s.ran 3 id l h fun x =>
      { x with pc := h.sv (fld h.word 39 34) % 2 ^ 64 })) ∧
  (∀ (s : State) (a : SlotId) (h : QEntry) (id : Nat) (l : Launch), s.leaves a 3 h id l = true → isOp 0x0C h.word = true →
    h.sv (fld h.word 39 34) % 8 ≠ 0 → exec (.jr a) s =
      .next ((s.setLaunch id { l with x := l.x.dropHead 3 h.word }).badInstr id h.word (queueSrc a.engine 3))) ∧
  (∀ (s : State) (a : SlotId) (h : QEntry) (rest : List QEntry) (id : Nat) (l : Launch), s.up = true →
    s.inSlot a = some (id, l) → l.status = .running → undefinedOp h.word = true → l.x.waitOk h.word = true →
    l.x.tq = [] → l.x.mq = [] → l.x.vq = [] → l.x.sq = h :: rest → l.x.scalarBusy = false → l.semWait = none →
    exec (.eUndefinedOpcode a) s =
      .next ((s.setLaunch id { l with x := l.x.dropHead 3 h.word }).badInstr id h.word (queueSrc a.engine 3)))

/-- QWAIT, ENQ, END and the semaphores (R236, R259, R266 to R272, R503, R505). QWAIT of a resident launch waits with its
arrays released; ENQ goes on; END ends the launch; SACQ takes a free semaphore and otherwise waits; SREL gives one back; a
waiter takes a free semaphore in order; a semaphore held too long is taken and passed on. -/
def Obligations.QueueWaitAndSemaphores : Prop :=
  (∀ (s : State) (a : SlotId) (h : QEntry) (id : Nat) (l : Launch), s.leaves a 3 h id l = true → isOp 0x0E h.word = true →
    l.resident = true → l.x.tq = [] → l.x.vq = [] → l.x.mq = [] → l.x.sq = [h] → l.x.inflight = [] → ∃ t x,
    exec (.qwait a) s = .next t ∧ tfind t.launches id = some x ∧ x.status = .waiting ∧
    x.qwait = some (fld h.word 45 40, fld h.word 39 34, signalOf h.word) ∧ x.bound = [] ∧ x.fold = none ∧ x.x.arrs = [] ∧
    x.packet = none ∧ x.x.regs = (l.x.dropHead 3 h.word).regs ∧ x.place = l.place) ∧
  (∀ (s : State) (a : SlotId) (h : QEntry) (id : Nat) (l : Launch), s.leaves a 3 h id l = true → isOp 0x0F h.word = true →
    h.sv (fld h.word 39 34) % 16 = 0 → ((s.ctx l.ctx).queue (fld h.word 33 31)).state ≠ 0 →
    ((s.ctx l.ctx).queue (fld h.word 33 31)).deviceWritten = true → exec (.enq a) s = .next (s.flew 3 id l h (fun x => x)
      (.enqueue (h.sv (fld h.word 39 34)) (fld h.word 33 31) (fld h.word 45 40)))) ∧
  (∀ (s : State) (a : SlotId) (h : QEntry) (id : Nat) (l : Launch), s.leaves a 3 h id l = true → isOp 0x10 h.word = true →
    l.sems = [] → l.x.tq = [] → l.x.vq = [] → l.x.mq = [] → l.x.sq = [h] → l.x.inflight = [] →
    exec (.endLaunch a) s = .next ((s.setLaunch id { l with x := l.x.dropHead 3 h.word }).endLaunch id)) ∧
  (∀ (s : State) (id : Nat) (l : Launch), tfind s.launches id = some l → tfind (s.endLaunch id).launches id = none) ∧
  (∀ (s : State) (a : SlotId) (h : QEntry) (id i : Nat) (l : Launch), s.leaves a 3 h id l = true → isOp 0x11 h.word = true →
    h.sv (fld h.word 39 34) = i → i ≤ 63 → l.sems.contains i = false →
    (s.sem (s.launchSem l i)).holder = none → (s.sem (s.launchSem l i)).waiters = [] → ∃ t x, exec (.sacq a) s = .next t ∧
    (t.sem (s.launchSem l i)).holder = some id ∧ (t.sem (s.launchSem l i)).since = s.now ∧
    (t.sem (s.launchSem l i)).waiters = [] ∧ tfind t.launches id = some x ∧ x.sems = l.sems ++ [i] ∧ x.semWait = none ∧
    x.x = (l.x.dropHead 3 h.word).signalled h.word ∧ t.mem = s.mem ∧ t.engines = s.engines) ∧
  (∀ (s : State) (a : SlotId) (h : QEntry) (id i k : Nat) (l : Launch), s.leaves a 3 h id l = true →
    isOp 0x11 h.word = true → h.sv (fld h.word 39 34) = i → i ≤ 63 → l.sems.contains i = false →
    (s.sem (s.launchSem l i)).holder = some k → exec (.sacq a) s = .next ((s.setLaunch id { l with
      x := l.x.dropHead 3 h.word, semWait := some (i, h.word) }).setSem (s.launchSem l i)
      { s.sem (s.launchSem l i) with waiters := (s.sem (s.launchSem l i)).waiters ++ [id] })) ∧
  (∀ (s : State) (a : SlotId) (h : QEntry) (id i : Nat) (l : Launch), s.leaves a 3 h id l = true → isOp 0x12 h.word = true →
    h.sv (fld h.word 39 34) = i → l.sems.contains i = true → ∃ t x, exec (.srel a) s = .next t ∧
    (t.sem (s.launchSem l i)).holder = none ∧ (t.sem (s.launchSem l i)).waiters = (s.sem (s.launchSem l i)).waiters ∧
    tfind t.launches id = some x ∧ x.sems = l.sems.filter (· ≠ i) ∧ x.x = (l.x.dropHead 3 h.word).signalled h.word ∧
    t.mem = s.mem ∧ t.engines = s.engines) ∧
  (∀ (s : State) (p i id : Nat) (rest : List Nat) (l : Launch), s.up = true → i < 64 → (s.sem (semKey p i)).holder = none →
    (s.sem (semKey p i)).waiters = id :: rest → tfind s.launches id = some l →
    (∀ w, l.semWait = some w → bit w.2 50 = true → tget 0 l.x.regs.k (fld w.2 49 46) < 255) → ∃ t x,
    exec (.semaphoreGrant p i) s = .next t ∧ (t.sem (semKey p i)).holder = some id ∧
    (t.sem (semKey p i)).waiters = (id :: rest).filter (· ≠ id) ∧ tfind t.launches id = some x ∧
    x.sems = l.sems ++ [i] ∧ x.semWait = none) ∧
  (∀ (s : State) (p i id : Nat) (l : Launch), s.up = true → i < 64 → (s.sem (semKey p i)).holder = some id →
    (s.sem (semKey p i)).waiters = [] → tfind s.launches id = some l → (s.ctx l.ctx).state = .live →
    (s.ctx l.ctx).fabric = true → (s.ctx l.ctx).fault.code = 0 → ∃ t x, exec (.holdLimitExpire p i) s = .next t ∧
    (t.sem (semKey p i)).holder = none ∧ tfind t.launches id = some x ∧ x.sems = l.sems.filter (· ≠ i) ∧
    x.semLost = l.semLost ++ [i] ∧ (t.ctx l.ctx).fault.code = 5 ∧ (t.ctx l.ctx).state = .live) ∧
  (∀ (s : State) (p i id : Nat) (l : Launch), s.up = true → i < 64 → (s.sem (semKey p i)).holder = some id →
    (s.sem (semKey p i)).waiters = [] → tfind s.launches id = some l → (s.ctx l.ctx).state = .live →
    (s.ctx l.ctx).fabric = false → (s.ctx l.ctx).fault.code = 0 → ∃ t, exec (.holdLimitExpire p i) s = .next t ∧
    (t.sem (semKey p i)).holder = none ∧ (t.ctx l.ctx).fault.code = 5 ∧ (t.ctx l.ctx).state = .lost)

/-- Lane arithmetic of the vector profile (R217, R238 to R242, R246). Every row writes VD lane by lane, a lane whose
predicate bit is clear keeps its value, and nothing else changes but the token counters and the count of vector
instructions. A checked row whose comparison disagrees once gives the same result and the disagreement is counted and
reported; the second disagreement retires the engine (R102, R103, R247). -/
def Obligations.VectorArithmetic : Prop :=
  (∀ (s : State) (a : SlotId) (h : QEntry) (id : Nat) (l : Launch), ∀ e ∈ intRows a, s.leaves a 1 h id l = true →
    isOp e.1 h.word = true → exec e.2.1 s = .next (s.vwrote a id l h fun r => r.lanes2 h.word e.2.2)) ∧
  (∀ (s : State) (a : SlotId) (h : QEntry) (id : Nat) (l : Launch), ∀ e ∈ floatRows a, s.leaves a 1 h id l = true →
    isOp e.1 h.word = true → exec (e.2.1 .agree) s =
      .next (s.vwrote a id l h fun r => r.lanes2 h.word (fop2 (bit h.word 22) e.2.2)) ∧
    exec (e.2.1 .retried) s = .next (((s.vectorIssued a.engine).checkRetry a.engine (engSrc a.engine 4) (s.tag l.ctx)).wrote
      1 id l h fun r => r.lanes2 h.word (fop2 (bit h.word 22) e.2.2)) ∧
    exec (e.2.1 .failed) s = .next ((((s.vectorIssued a.engine).setLaunch id { l with x := l.x.dropHead 1 h.word }).checkRetry
      a.engine (engSrc a.engine 4) (s.tag l.ctx)).checkRetry a.engine (engSrc a.engine 4) (s.tag l.ctx) |>.retireUnit
      (.engine a.engine) (engSrc a.engine 4) 3)) ∧
  (∀ (s : State) (a : SlotId) (h : QEntry) (id : Nat) (l : Launch), s.leaves a 1 h id l = true → isOp 0x63 h.word = true →
    exec (.vfma a .agree) s = .next (s.vwrote a id l h fun r => r.setV (fld h.word 45 41)
      (mergeLanes (r.getP (fld h.word 25 23)) (r.getV (fld h.word 45 41)) (List.zipWith
        (fun (ab : W32 × W32) c => fop3 (bit h.word 22) (fun u v t => (u.mul v).add t) ab.1 ab.2 c)
        ((r.getV (fld h.word 40 36)).zip (r.getV (fld h.word 35 31))) (r.getV (fld h.word 30 26)))))) ∧
  (∀ (s : State) (a : SlotId) (h : QEntry) (id : Nat) (l : Launch), s.leaves a 1 h id l = true → isOp 0x64 h.word = true →
    exec (.vmax a) s = .next (s.vwrote a id l h fun r => r.lanes2 h.word (fop2 (bit h.word 22) fmaxV))) ∧
  (∀ (s : State) (a : SlotId) (h : QEntry) (id : Nat) (l : Launch), s.leaves a 1 h id l = true → isOp 0x65 h.word = true →
    exec (.vmin a) s = .next (s.vwrote a id l h fun r => r.lanes2 h.word (fop2 (bit h.word 22) fminV))) ∧
  (∀ (s : State) (a : SlotId) (h : QEntry) (id : Nat) (l : Launch), s.leaves a 1 h id l = true → isOp 0x66 h.word = true →
    exec (.vsel a) s = .next (s.vwrote a id l h fun r => r.setV (fld h.word 45 41)
      (mergeLanes (r.getP (fld h.word 25 23)) (r.getV (fld h.word 35 31)) (r.getV (fld h.word 40 36))))) ∧
  (∀ (s : State) (a : SlotId) (h : QEntry) (id : Nat) (l : Launch), ∀ e ∈ specialRows a, s.leaves a 1 h id l = true →
    isOp e.1 h.word = true → exec (e.2.1 .agree) s = .next (s.vwrote a id l h fun r => r.lanes1 h.word e.2.2))

/-- Comparisons, conversions, moves between registers, reductions and predicates (R243 to R245, R248, R249, R254, R255,
R257): each writes the register its word names with what the rule gives, and nothing else changes but the counters. -/
def Obligations.VectorMovesAndPredicates : Prop :=
  (∀ (s : State) (a : SlotId) (h : QEntry) (id : Nat) (l : Launch), s.leaves a 1 h id l = true → isOp 0x74 h.word = true →
    fld h.word 29 27 < 4 → exec (.vcmp a) s = .next (s.vwrote a id l h fun r => r.setP (fld h.word 45 43)
      ((r.getP (fld h.word 45 43) &&& ~~~r.getP (fld h.word 32 30)) |||
        (predOf (List.zipWith (fun u v => vcmpHolds (fld h.word 29 27) (f32 u) (f32 v)) (r.getV (fld h.word 42 38))
          (r.getV (fld h.word 37 33))) &&& r.getP (fld h.word 32 30))))) ∧
  (∀ (s : State) (a : SlotId) (h : QEntry) (id : Nat) (l : Launch), s.leaves a 1 h id l = true → isOp 0x75 h.word = true →
    fld h.word 29 27 < 4 → exec (.vicmp a) s = .next (s.vwrote a id l h fun r => r.setP (fld h.word 45 43)
      ((r.getP (fld h.word 45 43) &&& ~~~r.getP (fld h.word 32 30)) |||
        (predOf (List.zipWith (fun u v => vicmpHolds (fld h.word 29 27) u.toInt v.toInt) (r.getV (fld h.word 42 38))
          (r.getV (fld h.word 37 33))) &&& r.getP (fld h.word 32 30))))) ∧
  (∀ (s : State) (a : SlotId) (h : QEntry) (id : Nat) (l : Launch), s.leaves a 1 h id l = true → isOp 0x75 h.word = true →
    4 ≤ fld h.word 29 27 → exec (.vicmp a) s = .next (((s.vectorIssued a.engine).setLaunch id
      { l with x := l.x.dropHead 1 h.word }).badInstr id h.word (engSrc a.engine 4))) ∧
  (∀ (s : State) (a : SlotId) (h : QEntry) (id : Nat) (l : Launch), s.leaves a 1 h id l = true → isOp 0x78 h.word = true →
    fld h.word 32 30 = 0 → ∃ t x, exec (.vcvtToInt32 a) s = .next t ∧ tfind t.launches id = some x ∧
    x.x.regs.v = (l.x.regs.lanes1 h.word fun u => (cvtInt u).1).v ∧ x.x.regs.s = l.x.regs.s ∧ x.x.regs.p = l.x.regs.p ∧
    x.x.regs.intSat = (let n := (((l.x.regs.getV (fld h.word 40 36)).zipIdx.map fun v =>
      if (l.x.regs.getP (fld h.word 35 33)).getLsbD v.2 then (cvtInt v.1).2 else 0).foldl (· + ·) 0)
      if n = 0 then l.x.regs.intSat else bump l.x.regs.intSat n) ∧
    { t with launches := s.launches, engines := s.engines } = s) ∧
  (∀ (s : State) (a : SlotId) (h : QEntry) (id : Nat) (l : Launch), s.leaves a 1 h id l = true → isOp 0x78 h.word = true →
    fld h.word 32 30 = 1 → exec (.vcvtToFp32 a) s = .next (s.vwrote a id l h fun r => r.lanes1 h.word cvtFloat)) ∧
  (∀ (s : State) (a : SlotId) (h : QEntry) (id : Nat) (l : Launch), s.leaves a 1 h id l = true → isOp 0x7F h.word = true →
    exec (.viota a) s = .next (s.vwrote a id l h fun r =>
      r.setV (fld h.word 45 41) ((List.range 256).map (BitVec.ofNat 32)))) ∧
  (∀ (s : State) (a : SlotId) (h : QEntry) (id : Nat) (l : Launch), ∀ e ∈ reduceRows a, s.leaves a 1 h id l = true →
    isOp e.1 h.word = true → exec e.2.1 s = .next (s.vwrote a id l h fun r => r.setS (fld h.word 45 40)
      (canonNan ((treeReduce e.2.2.1 ((r.getV (fld h.word 39 35)).zipIdx.map fun v =>
        if (r.getP (fld h.word 34 32)).getLsbD v.2 then some v.1 else none)).getD e.2.2.2)).toNat)) ∧
  (∀ (s : State) (a : SlotId) (h : QEntry) (id : Nat) (l : Launch), s.leaves a 1 h id l = true → isOp 0x83 h.word = true →
    exec (.virsum a) s = .next (s.vwrote a id l h fun r => r.setS (fld h.word 45 40)
      (wrap 64 (((r.getV (fld h.word 39 35)).zipIdx.map fun v =>
        if (r.getP (fld h.word 34 32)).getLsbD v.2 then v.1.toInt else 0).foldl (· + ·) 0)))) ∧
  (∀ (s : State) (a : SlotId) (h : QEntry) (id : Nat) (l : Launch), s.leaves a 1 h id l = true → isOp 0x84 h.word = true →
    exec (.vbcst a) s = .next (s.vwrote a id l h fun r => r.setV (fld h.word 45 41)
      (List.replicate 256 (BitVec.ofNat 32 (h.sv (fld h.word 40 35)))))) ∧
  (∀ (s : State) (a : SlotId) (h : QEntry) (id : Nat) (l : Launch), s.leaves a 1 h id l = true → isOp 0x85 h.word = true →
    exec (.vmovs a) s = .next (s.vwrote a id l h fun r => r.setS (fld h.word 45 40)
      ((r.getV (fld h.word 39 35)).getD (fld h.word 34 27) 0).toNat)) ∧
  (∀ (s : State) (a : SlotId) (h : QEntry) (id : Nat) (l : Launch), s.leaves a 1 h id l = true → isOp 0x8C h.word = true →
    fmtMX (fld h.word 29 25) = true → ∃ t x, exec (.vmxq a) s = .next t ∧ tfind t.launches id = some x ∧
    (fld h.word 35 30 ≠ 0 → x.x.regs.getS (fld h.word 35 30) = (packElems 8 ((List.range 8).map fun b =>
      mxScale (fld h.word 29 25) ((((l.x.regs.getV (fld h.word 40 36)).map f32).drop (32 * b)).take 32))) % 2 ^ 64) ∧
    (x.x.regs.getV (fld h.word 45 41)).length = 256 ∧ x.x.regs.p = l.x.regs.p ∧
    { t with launches := s.launches, engines := s.engines } = s) ∧
  (∀ (s : State) (a : SlotId) (h : QEntry) (id : Nat) (l : Launch), s.leaves a 1 h id l = true → isOp 0x90 h.word = true →
    exec (.plogic a) s = .next (s.vwrote a id l h fun r => r.setP (fld h.word 45 43)
      (match fld h.word 36 35 with
       | 0 => r.getP (fld h.word 42 40) &&& r.getP (fld h.word 39 37)
       | 1 => r.getP (fld h.word 42 40) ||| r.getP (fld h.word 39 37)
       | 2 => r.getP (fld h.word 42 40) ^^^ r.getP (fld h.word 39 37)
       | _ => r.getP (fld h.word 42 40) &&& ~~~r.getP (fld h.word 39 37)))) ∧
  (∀ (s : State) (a : SlotId) (h : QEntry) (id : Nat) (l : Launch), s.leaves a 1 h id l = true → isOp 0x91 h.word = true →
    exec (.pcnt a) s = .next (s.vwrote a id l h fun r => r.setS (fld h.word 45 40)
      (maskBits 256 (r.getP (fld h.word 39 37)).toNat).length)) ∧
  (∀ (s : State) (a : SlotId) (h : QEntry) (id : Nat) (l : Launch), s.leaves a 1 h id l = true → isOp 0x92 h.word = true →
    exec (.pfirst a) s = .next (s.vwrote a id l h fun r => r.setP (fld h.word 45 43)
      (BitVec.ofNat 256 (2 ^ min (h.sv (fld h.word 42 37)) 256 - 1))))

/-- Vector access to the allotment (R133, R250 to R253). VLD loads lines, VLDT widens a row and sets a predicate; VST and
VSTT store the active lanes at their places and leave the other bytes of the lines, and every byte outside the range, as
they were; memory and the other engines are unchanged. -/
def Obligations.VectorStoreAccess : Prop :=
  (∀ (s : State) (a : SlotId) (h : QEntry) (id n off : Nat) (l : Launch), s.leaves a 1 h id l = true →
    isOp 0x88 h.word = true → fld h.word 34 30 = n → h.sv (fld h.word 40 35) + 64 * fld h.word 29 10 = off →
    0 < n → n ≤ 16 → off % 64 = 0 → off + 64 * n ≤ (s.allotSpan a.engine l.ctx).2 →
    exec (.vld a) s = .next (s.vwrote a id l h fun r => r.setV (fld h.word 45 41)
      (lanesOf (mreadN (s.engine a.engine).store ((s.allotSpan a.engine l.ctx).1 + off) (64 * n))))) ∧
  (∀ (s : State) (a : SlotId) (h : QEntry) (id n off : Nat) (l : Launch), s.leaves a 1 h id l = true →
    isOp 0x89 h.word = true → fld h.word 34 30 = n → h.sv (fld h.word 40 35) + 64 * fld h.word 29 10 = off →
    n ≤ 16 → off % 64 = 0 → off + 64 * n ≤ (s.allotSpan a.engine l.ctx).2 →
    (l.x.regs.getV (fld h.word 45 41)).length = 256 → ∃ t, exec (.vst a) s = .next t ∧
    (∀ i, i < 16 * n → (l.x.regs.getP (fld h.word 9 7)).getLsbD i = true →
      mreadN (t.engine a.engine).store ((s.allotSpan a.engine l.ctx).1 + off + 4 * i) 4 =
        bytesLE 4 ((l.x.regs.getV (fld h.word 45 41)).getD i 0).toNat) ∧
    (∀ i, i < 16 * n → (l.x.regs.getP (fld h.word 9 7)).getLsbD i = false →
      mreadN (t.engine a.engine).store ((s.allotSpan a.engine l.ctx).1 + off + 4 * i) 4 =
        mreadN (s.engine a.engine).store ((s.allotSpan a.engine l.ctx).1 + off + 4 * i) 4) ∧
    (∀ b, b < (s.allotSpan a.engine l.ctx).1 + off ∨ (s.allotSpan a.engine l.ctx).1 + off + 64 * n ≤ b →
      mread (t.engine a.engine).store b = mread (s.engine a.engine).store b) ∧
    (∀ e, e ≠ a.engine → t.engine e = s.engine e) ∧ { t with launches := s.launches, engines := s.engines } = s) ∧
  (∀ (s : State) (a : SlotId) (h : QEntry) (id : Nat) (l : Launch) (p : RowSpan), s.leaves a 1 h id l = true →
    isOp 0x8A h.word = true → rowSpan ⟨a.engine, a.slot, id, l, h⟩ false = some p →
    p.offset + (p.n * fmtBits p.d.fmt + 7) / 8 ≤ (s.allotSpan a.engine l.ctx).2 → ∃ t x,
    exec (.vldt a) s = .next t ∧ tfind t.launches id = some x ∧
    x.x.regs.getV (fld h.word 45 41) = ((elemsOf (fmtBits p.d.fmt) p.n (mreadN (s.engine a.engine).store
      ((s.allotSpan a.engine l.ctx).1 + p.offset) ((p.n * fmtBits p.d.fmt + 7) / 8))).map (widen p.d.fmt)) ++
        List.replicate (256 - p.n) 0 ∧
    (fld h.word 30 28 ≠ 0 → x.x.regs.getP (fld h.word 30 28) = BitVec.ofNat 256 (2 ^ p.n - 1)) ∧
    x.x.regs.s = l.x.regs.s ∧ (∀ e, (t.engine e).store = (s.engine e).store) ∧
    { t with launches := s.launches, engines := s.engines } = s) ∧
  (∀ (s : State) (a : SlotId) (h : QEntry) (id : Nat) (l : Launch) (p : RowSpan), s.leaves a 1 h id l = true →
    isOp 0x8B h.word = true → rowSpan ⟨a.engine, a.slot, id, l, h⟩ true = some p →
    p.offset + (p.n * fmtBits p.d.fmt + 7) / 8 ≤ (s.allotSpan a.engine l.ctx).2 →
    (l.x.regs.getV (fld h.word 45 41)).length = 256 → ∃ t, exec (.vstt a) s = .next t ∧
    (8 ≤ fmtBits p.d.fmt → ∀ i, i < p.n → (l.x.regs.getP (fld h.word 30 28)).getLsbD i = true →
      mreadN (t.engine a.engine).store ((s.allotSpan a.engine l.ctx).1 + p.offset + i * (fmtBits p.d.fmt / 8))
        (fmtBits p.d.fmt / 8) = bytesLE (fmtBits p.d.fmt / 8)
          (narrow p.d.fmt p.d.sat ((l.x.regs.getV (fld h.word 45 41)).getD i 0)).1) ∧
    (∀ b, b < (s.allotSpan a.engine l.ctx).1 + p.offset ∨
        (s.allotSpan a.engine l.ctx).1 + p.offset + (p.n * fmtBits p.d.fmt + 7) / 8 ≤ b →
      mread (t.engine a.engine).store b = mread (s.engine a.engine).store b) ∧
    (∀ e, e ≠ a.engine → t.engine e = s.engine e) ∧ { t with launches := s.launches, engines := s.engines } = s)

/-- The tensor instructions as they leave their queue (R170 to R194). A legal WLD fixes what its buffer will hold, a legal
TMUL opens its bank and starts a pass with the chunk sums, TWIN, TCMB, TDRN and CRED hold their banks BUSY until their
completion point, TCLR empties a bank; a TMUL of no rows does nothing. -/
def Obligations.TensorInstructions : Prop :=
  (∀ (s : State) (a : SlotId) (h : QEntry) (id j b n0 c : Nat) (l : Launch) (d sd : TDesc) (cols : List (List Nat × List Nat × Viol)),
    s.leaves a 0 h id l = true → isOp 0x20 h.word = true → fld h.word 45 44 = j → fld h.word 43 43 = b →
    h.tv (fld h.word 42 39) = d → h.scaleOf d = sd → fld (h.sv (fld h.word 38 33)) 63 32 = n0 →
    fld (h.sv (fld h.word 38 33)) 31 0 = c → l.here j = true → l.x.loadAny j = false →
    l.x.passAny j (fun _ u => d.fmt == 9 || u == b) = false → j < l.desc.arrays → operandOk l d sd fmtStationary = true →
    chunkHeld l d sd c = true → n0 < d.dim1 → cols = ((List.range (min (nstat d.fmt) (d.dim1 - n0))).map fun i =>
      s.readChunk a.engine l.ctx l.desc.k d sd (n0 + i) c) →
    (∀ r ∈ cols, r.2.2.lines = 0) → d.fmt ≠ 2 →
    (d.fmt ≠ 9 → exec (.wld a) s = .next (s.flew 0 id l h (fun x => x.modArr j fun A => A.setBuf b
      { loading := true, fmt := d.fmt, cols := cols.map fun r => ⟨r.1, r.2.1⟩ }) (.load j b false))) ∧
    (d.fmt = 9 → exec (.wld a) s = .next (s.flew 0 id l h (fun x => x.modArr j fun A =>
      { A with w0 := { loading := true, fmt := 9, cols := cols.map fun r => hiColumn r.1 r.2.1 },
               w1 := { loading := true, fmt := 9, cols := cols.map fun r => loColumn r.1 r.2.1 } }) (.load j b true)))) ∧
  (∀ (s : State) (a : SlotId) (h : QEntry) (id : Nat) (l : Launch) (p : Pass) (pi : PairInfo),
    s.leaves a 0 h id l = true → isOp 0x21 h.word = true → passOf ⟨a.engine, a.slot, id, l, h⟩ = p → l.here p.j = true →
    ((l.x.arr p.j).buf p.buf).loading = false → ((l.x.arr p.j).bank p.bank).busy = false →
    pairInfo ((l.x.arr p.j).buf p.buf).fmt p.d.fmt p.wx = some pi → p.j < l.desc.arrays →
    operandOk l p.d p.sd fmtStreamed = true → chunkHeld l p.d p.sd p.c = true → p.c < l.desc.chunks →
    p.m0 + p.m ≤ p.d.dim1 → p.r0 + p.m ≤ pi.rows → ((l.x.arr p.j).buf p.buf).loaded = true →
    p.halves (l.x.arr p.j) = true → p.accepted l.desc ((l.x.arr p.j).bank p.bank) ((l.x.arr p.j).buf p.buf).fmt
      (p.cols (l.x.arr p.j) pi) = true → l.desc.k ≠ 0 →
    (p.m = 0 → exec (.tmul a) s = .next (s.wrote 0 id l h fun r => r)) ∧
    (p.m ≠ 0 → exec (.tmul a) s = .next ((s.flew 0 id l h (fun x => x.modArr p.j fun A => A.setBank p.bank
        { A.bank p.bank with state := .opened, a := p.c / l.desc.span, e := p.c / l.desc.span, cur := p.c,
                             fs := ((l.x.arr p.j).buf p.buf).fmt, fx := p.d.fmt, wx := p.wx,
                             n := p.cols (l.x.arr p.j) pi, rows := max (A.bank p.bank).rows (p.r0 + p.m) })
      (.pass p.j p.bank p.buf p.r0 (p.c % l.desc.span == 0)
        (s.passSums ⟨a.engine, a.slot, id, l, h⟩ p pi (l.x.arr p.j)).1 false)).settle id (queueSrc a.engine 0)
        (s.passSums ⟨a.engine, a.slot, id, l, h⟩ p pi (l.x.arr p.j)).2))) ∧
  (∀ (s : State) (a : SlotId) (h : QEntry) (id j b : Nat) (l : Launch) (ds dx : TDesc), s.leaves a 0 h id l = true →
    isOp 0x22 h.word = true → fld h.word 45 44 = j → fld h.word 43 43 = b → h.tv (fld h.word 42 39) = ds →
    h.tv (fld h.word 38 35) = dx → l.here j = true → l.x.bankQuiet j b = true → j < l.desc.arrays →
    operandOk l ds (h.scaleOf ds) fmtStationary = true → operandOk l dx (h.scaleOf dx) fmtStreamed = true →
    pairWide ds.fmt dx.fmt = true → ((l.x.arr j).bank b).state = .empty → allScales l ds (h.scaleOf ds) = true →
    allScales l dx (h.scaleOf dx) = true → fld (h.sv (fld h.word 34 29)) 47 32 ≠ 0 → fld (h.sv (fld h.word 28 23)) 47 32 ≠ 0 →
    ∃ L v, exec (.twin a) s = .next ((s.flew 0 id l h (fun x => x.modArr j fun A => A.setBank b
      { A.bank b with busy := true }) (.window j b L)).settle id (queueSrc a.engine 0) v) ∧
      (ds.scaleEn = false → L = windowL ds.fmt dx.fmt [] ∧ v.lines = 0)) ∧
  (∀ (s : State) (a : SlotId) (h : QEntry) (id i j bi bj : Nat) (l : Launch) (u v : Nat × Nat), s.leaves a 0 h id l = true →
    isOp 0x23 h.word = true → fld h.word 45 44 = i → fld h.word 42 41 = j → fld h.word 43 43 = bi → fld h.word 40 40 = bj →
    l.here i = true → l.here j = true → l.x.bankQuiet i bi = true → l.x.bankQuiet j bj = true → i < l.desc.arrays →
    j < l.desc.arrays → ((l.x.arr i).bank bi).whole l.desc = some u → ((l.x.arr j).bank bj).whole l.desc = some v →
    ((l.x.arr i).bank bi).sameAs ((l.x.arr j).bank bj) = true → siblings l.desc.spans u.1 u.2 v.1 v.2 = true →
    exec (.tcmb a) s = .next (s.flew 0 id l h (fun x => (x.modArr i fun A => A.setBank bi { A.bank bi with busy := true }).modArr
      j fun A => A.setBank bj { A.bank bj with busy := true }) (.combine i bi j bj))) ∧
  (∀ (s : State) (a : SlotId) (h : QEntry) (id j b : Nat) (l : Launch) (d : TDesc), s.leaves a 0 h id l = true →
    isOp 0x24 h.word = true → fld h.word 45 44 = j → fld h.word 43 43 = b → h.tv (fld h.word 41 38) = d → l.here j = true →
    l.x.bankQuiet j b = true → j < l.desc.arrays → j < l.x.arrs.length → outputOk d = true → d.space = false →
    ((l.x.arr j).bank b).whole l.desc = some (0, l.desc.spans - 1) → outAllowed ((l.x.arr j).bank b).fam d.fmt = true →
    (bit h.word 42 = true → ((l.x.arr j).bank b).wx = false) →
    (∀ p ∈ outRows d (h.sv (fld h.word 37 32)) ((l.x.arr j).bank b).rows ((l.x.arr j).bank b).row,
      p.1 + p.2.length * (fmtBits d.fmt / 8) ≤ (s.allotSpan a.engine l.ctx).2) → ∃ t x, exec (.tdrn a) s = .next t ∧
    tfind t.launches id = some x ∧ ((x.x.arr j).bank b).busy = true ∧
    x.x.inflight = l.x.inflight ++ [⟨.drain j b, signalOf h.word⟩] ∧
    (∀ c, (c < (s.allotSpan a.engine l.ctx).1 ∨ (s.allotSpan a.engine l.ctx).1 + (s.allotSpan a.engine l.ctx).2 ≤ c) →
      mread (t.engine a.engine).store c = mread (s.engine a.engine).store c) ∧
    (∀ e, e ≠ a.engine → t.engine e = s.engine e) ∧ { t with launches := s.launches, engines := s.engines } = s) ∧
  (∀ (s : State) (a : SlotId) (h : QEntry) (id j b : Nat) (l : Launch), s.leaves a 0 h id l = true →
    isOp 0x25 h.word = true → fld h.word 45 44 = j → fld h.word 43 43 = b → l.here j = true → l.x.bankQuiet j b = true →
    j < l.desc.arrays → exec (.tclr a) s = .next (s.ran 0 id l h fun x => x.modArr j fun A => A.setBank b {})) ∧
  (∀ (s : State) (a : SlotId) (h : QEntry) (id j b u v dst : Nat) (l : Launch), s.leaves a 0 h id l = true →
    isOp 0x26 h.word = true → fld h.word 45 44 = j → fld h.word 43 43 = b → h.sv (fld h.word 32 27) = dst →
    l.here j = true → l.x.bankQuiet j b = true → j < l.desc.arrays → outputOk (h.tv (fld h.word 42 39)) = true →
    dst < 2 ^ 32 → fld dst 15 8 = 0 → (fld dst 7 0 < 16 → fld dst 7 0 < s.build.engines ∧ (h.tv (fld h.word 42 39)).space = false) →
    (16 ≤ fld dst 7 0 → fld dst 7 0 < 16 + s.islands ∧ (h.tv (fld h.word 42 39)).space = true) →
    ((l.x.arr j).bank b).whole l.desc = some (u, v) → s.reachable (fld dst 31 16) = true →
    exec (.cred a) s = .next (s.flew 0 id l h (fun x => x.modArr j fun A => A.setBank b { A.bank b with busy := true })
      (.send j b (BitVec.ofNat 64 dst) (s.partialOf ⟨a.engine, a.slot, id, l, h⟩ ((l.x.arr j).bank b) u v))))

/-- The move instructions go to their mover (R197 to R204), one with nothing to move does nothing; and a fill of one row
of the allotment, when it runs, writes its pattern there, nothing else, and lands (R201, R205). -/
def Obligations.MoveInstructions : Prop :=
  (∀ (s : State) (a : SlotId) (h : QEntry) (id : Nat) (l : Launch) (d t : TDesc), s.leaves a 2 h id l = true →
    isOp 0x40 h.word = true → h.tv (fld h.word 44 41) = d → h.tv (fld h.word 40 37) = t → fmtDefined d.fmt = true →
    fmtDefined t.fmt = true → d.aligned = true → t.aligned = true → (d.space && t.space) = false → d.dim1 = t.dim1 →
    d.rowBytes = t.rowBytes → d.dim1 ≠ 0 → t.rowBytes ≠ 0 → exec (.mcopy a) s = .next (s.flew 2 id l h (fun x => x)
      (.move { kind := 0x40, dm := fld h.word 45 45, src := tget 0 h.t (fld h.word 40 37), dst := tget 0 h.t (fld h.word 44 41),
               sod := h.sv (fld h.word 36 31), sos := h.sv (fld h.word 30 25), rows := d.dim1 }))) ∧
  (∀ (s : State) (a : SlotId) (h : QEntry) (id : Nat) (l : Launch) (d : TDesc), s.leaves a 2 h id l = true →
    isOp 0x41 h.word = true → h.tv (fld h.word 44 41) = d → fmtDefined d.fmt = true → d.aligned = true →
    (d.dim1 ≠ 0 → d.rowBytes ≠ 0 → exec (.mfill a) s = .next (s.flew 2 id l h (fun x => x)
      (.move { kind := 0x41, dm := fld h.word 45 45, src := 0, dst := tget 0 h.t (fld h.word 44 41),
               sod := h.sv (fld h.word 40 35), pattern := h.sv (fld h.word 34 29), rows := d.dim1 }))) ∧
    ((d.dim1 = 0 ∨ d.rowBytes = 0) → exec (.mfill a) s = .next (s.wrote 2 id l h fun r => r))) ∧
  (∀ (s : State) (a : SlotId) (h : QEntry) (id : Nat) (l : Launch) (d t i : TDesc), s.leaves a 2 h id l = true →
    isOp 0x42 h.word = true → h.tv (fld h.word 44 41) = d → h.tv (fld h.word 40 37) = t → h.tv (fld h.word 36 33) = i →
    fmtDefined d.fmt = true → fmtDefined t.fmt = true → d.aligned = true → t.aligned = true → (d.space && t.space) = false →
    i.fmt = 0x10 → i.dim1 = 1 → i.space = false → i.aligned = true → d.dim1 = i.dim0 → d.rowBytes = t.rowBytes →
    d.dim1 ≠ 0 → t.rowBytes ≠ 0 → exec (.mgath a) s = .next (s.flew 2 id l h (fun x => x)
      (.move { kind := 0x42, dm := fld h.word 45 45, src := tget 0 h.t (fld h.word 40 37), dst := tget 0 h.t (fld h.word 44 41),
               idx := tget 0 h.t (fld h.word 36 33), rows := d.dim1 }))) ∧
  (∀ (s : State) (a : SlotId) (id n off k : Nat) (l : Launch) (f : InFlight) (m : MoveJob) (d : TDesc), s.up = true →
    s.inSlot a = some (id, l) → l.segStop = none → l.capWait = none → l.recovery = false → l.status ≠ .starting →
    l.x.inflight[n]? = some f → f.eff = .move m → f.signal = none → l.x.moverBusy n m.dm = false → m.kind = 0x41 →
    TDesc.ofBits m.dst = d → d.space = false → m.rows = 1 → m.row = 0 → m.done = 0 → m.counted = false →
    d.addr + m.sod = off → off < 2 ^ 64 → d.rowBytes = k → off + k ≤ (s.allotSpan a.engine l.ctx).2 → ∃ t x,
    exec (.instructionCompletionPoint a n) s = .next t ∧ (t.engine a.engine).store = mwriteN (s.engine a.engine).store
      ((s.allotSpan a.engine l.ctx).1 + off) ((List.range k).map fun i => BitVec.ofNat 8 (m.pattern >>> (8 * (i % 8)))) ∧
    tfind t.launches id = some x ∧ x.x.inflight = l.x.inflight.eraseIdx n ∧ x.x.regs = l.x.regs ∧ t.mem = s.mem ∧
    t.hostMem = s.hostMem ∧ (∀ e, e ≠ a.engine → t.engine e = s.engine e))

/-- Completion points of the tensor instructions, and the checks of a pass (R99 to R103, R119, R159, R178, R185, Table
4-12). A pass whose checks agree enters its bank; a disagreement reissues it once; a loaded buffer can feed passes; a
drained bank is empty; a CRED to an engine combiner of this hub delivers its partial and empties the bank; an ENQ writes
its packet, rings, and gives 0; a combiner keeps a partial that has no mate. -/
def Obligations.CompletionPoints : Prop :=
  (∀ (s : State) (a : SlotId) (id n j b w r0 : Nat) (l : Launch) (f : InFlight) (starts ri : Bool) (sums : List (List AccSt)),
    s.up = true → s.inSlot a = some (id, l) → l.x.oldestPass j = some (n, f) → f.eff = .pass j b w r0 starts sums ri →
    f.signal = none → j < l.x.arrs.length → ∃ t x, exec (.passCommit a j true) s = .next t ∧ tfind t.launches id = some x ∧
    (x.x.arr j).bank b = ((((l.x.arr j).bank b).commit r0 starts sums).1) ∧ x.x.inflight = l.x.inflight.eraseIdx n ∧
    x.x.regs.s = l.x.regs.s ∧ x.x.regs.v = l.x.regs.v ∧ x.x.regs.k = l.x.regs.k ∧ t.freeCtr = s.freeCtr + 1 ∧
    { t with launches := s.launches, engines := s.engines, freeCtr := s.freeCtr } = s) ∧
  (∀ (s : State) (a : SlotId) (id n j b w r0 : Nat) (l : Launch) (f : InFlight) (starts : Bool) (sums : List (List AccSt)),
    s.up = true → s.inSlot a = some (id, l) → l.x.oldestPass j = some (n, f) → f.eff = .pass j b w r0 starts sums false →
    ∃ t x, exec (.passCommit a j false) s = .next t ∧ tfind t.launches id = some x ∧ x.x.arrs = l.x.arrs ∧
    x.x.inflight = lmod l.x.inflight n (fun g => { g with eff := .pass j b w r0 starts sums true }) ∧
    (t.engine a.engine).ctr.checkRetry = bump (s.engine a.engine).ctr.checkRetry 1 ∧ t.mem = s.mem ∧ t.ctxs = s.ctxs) ∧
  (∀ (s : State) (a : SlotId) (id n j b : Nat) (l : Launch) (f : InFlight), s.up = true → s.inSlot a = some (id, l) →
    l.segStop = none → l.capWait = none → l.recovery = false → l.status ≠ .starting → l.x.inflight[n]? = some f →
    f.signal = none →
    (f.eff = .load j b false → exec (.instructionCompletionPoint a n) s = .next (s.setLaunch id { l with x :=
      { (l.x.modArr j fun A => A.setBuf b { A.buf b with loaded := true, loading := false }) with
        inflight := l.x.inflight.eraseIdx n } })) ∧
    (∀ L, f.eff = .window j b L → exec (.instructionCompletionPoint a n) s = .next (s.setLaunch id { l with x :=
      { (l.x.modArr j fun A => A.setBank b { state := .windowed, L := L, wx := true }) with
        inflight := l.x.inflight.eraseIdx n } })) ∧
    (f.eff = .drain j b → exec (.instructionCompletionPoint a n) s = .next (s.setLaunch id { l with x :=
      { (l.x.modArr j fun A => A.setBank b {}) with inflight := l.x.inflight.eraseIdx n } }))) ∧
  (∀ (s : State) (a : SlotId) (id n j b : Nat) (l : Launch) (f : InFlight) (dest : W64) (p : Partial), s.up = true →
    s.inSlot a = some (id, l) → l.segStop = none → l.capWait = none → l.recovery = false → l.status ≠ .starting →
    l.x.inflight[n]? = some f → f.signal = none → f.eff = .send j b dest p → l.redo = [] → l.done = [] →
    fld dest.toNat 7 0 < 16 → fld dest.toNat 31 16 = 0xFFFF → j < l.x.arrs.length → ∃ t x,
    exec (.instructionCompletionPoint a n) s = .next t ∧
    (t.engine (fld dest.toNat 7 0)).inbox = (s.engine (fld dest.toNat 7 0)).inbox ++ [p] ∧
    tfind t.launches id = some x ∧ (x.x.arr j).bank b = {} ∧ x.x.inflight = l.x.inflight.eraseIdx n ∧ x.done = [.cred] ∧
    t.mem = s.mem ∧ t.fab = s.fab) ∧
  (∀ (s : State) (a : SlotId) (id n off q ss : Nat) (l : Launch) (f : InFlight) (t0 : State), s.up = true →
    s.inSlot a = some (id, l) → l.segStop = none → l.capWait = none → l.recovery = false → l.status ≠ .starting →
    l.x.inflight[n]? = some f → f.signal = none → f.eff = .enqueue off q ss → q < 8 → l.redo = [] → l.done = [] → ss ≠ 0 →
    off + 16 ≤ (s.allotSpan a.engine l.ctx).2 →
    ahead32 ((s.ctx l.ctx).queue q).head ((s.ctx l.ctx).queue q).tail + 16 ≤ 2 ^ ((s.ctx l.ctx).queue q).sizeLog2 →
    s.writeLine ⟨l.ctx, 5, ⟨0, 0⟩, []⟩ l.segRefused
      (((s.ctx l.ctx).queue q).ringVa + ((s.ctx l.ctx).queue q).tail % 2 ^ ((s.ctx l.ctx).queue q).sizeLog2)
      (mreadN (s.engine a.engine).store ((s.allotSpan a.engine l.ctx).1 + off) 16) = .done t0 false → ∃ t x,
    exec (.instructionCompletionPoint a n) s = .next t ∧ t.mem = t0.mem ∧
    ((t.ctx l.ctx).queue q).tail = (((s.ctx l.ctx).queue q).tail + 16) % 2 ^ 32 ∧
    ((t.ctx l.ctx).queue q).dbPending = true ∧ tfind t.launches id = some x ∧ x.x.regs.getS ss = 0 ∧
    x.x.inflight = l.x.inflight.eraseIdx n ∧ x.done = [.enq 0]) ∧
  (∀ (s : State) (e : Nat) (p : Partial) (rest : List Partial), s.up = true → (s.engine e).state ≠ 4 →
    (s.engine e).inbox = p :: rest → s.tagLive p.owner = true → (∀ q ∈ (s.engine e).held, p.mates q = false) →
    p.whole = false → p.leftOf p = false → ∃ t, exec (.combinerPartial e) s = .next t ∧
    (t.engine e).inbox = rest ∧ (t.engine e).held = (s.engine e).held ++ [p] ∧
    (t.engine e).store = (s.engine e).store ∧ (∀ k, k ≠ e → t.engine k = s.engine k) ∧ { t with engines := s.engines } = s)

/-- The life of a launch in its slot (R111, R125, R136 to R149, R218, R866): a code line is fetched through the segments;
a fold swap makes one logical array resident and its mates not; at a check point a launch that is to be pre-empted leaves
its slot, one that is to be aborted ends; a waiting launch parks and wakes; a scrub zeroes its units. -/
def Obligations.SlotLife : Prop :=
  (∀ (s : State) (a : SlotId) (id : Nat) (l : Launch) (r : ReadRes), s.up = true → s.inSlot a = some (id, l) →
    l.status = .running → l.x.wordAt = none → l.x.held = false → l.qwait = none → l.segStop = none → l.owedMem = 0 →
    l.owedHost = 0 → s.readVa (s.whoLaunch l 2) l.segRefused (l.x.pc - l.x.pc % 64) 64 = r → r.stop = none →
    r.viol.lines = 0 → ∃ t x, exec (.codeFetch a) s = .next t ∧ tfind t.launches id = some x ∧
    x.x = { l.x with line := some (l.x.pc - l.x.pc % 64, r.bytes) } ∧ x.segRefused = [] ∧ x.chMem = l.chMem + r.dev ∧
    x.chHost = l.chHost + r.host ∧ t.mem = s.mem ∧ t.hostMem = s.hostMem ∧ t.engines = s.engines) ∧
  (∀ (s : State) (a : SlotId) (id j : Nat) (l : Launch), s.up = true → s.inSlot a = some (id, l) →
    j < l.x.arrs.length → (l.x.arr j).resident = false →
    (∀ k, k < l.x.arrs.length → l.phys k = l.phys j → l.x.arrayQuiet k = true) → ∃ t x,
    exec (.foldSwap a j) s = .next t ∧ tfind t.launches id = some x ∧ x.x.arrs.length = l.x.arrs.length ∧
    (∀ k, k < l.x.arrs.length → x.x.arr k =
      { (l.x.arr k) with resident := (if l.phys k = l.phys j then decide (k = j) else (l.x.arr k).resident) }) ∧
    { t with launches := s.launches } = s) ∧
  (∀ (s : State) (a : SlotId) (id : Nat) (l : Launch), s.up = true → s.inSlot a = some (id, l) → l.stop = none →
    ∃ t, exec (.checkPoint a) s = .next t ∧ tfind t.launches id = some { l with issued := false } ∧
    (l.issued = true → (t.ctx l.ctx).acct.lastProgress = s.now) ∧ t.engines = s.engines ∧ t.mem = s.mem) ∧
  (∀ (s : State) (a : SlotId) (id n : Nat) (l : Launch), s.up = true → s.inSlot a = some (id, l) →
    l.place = .slot a.engine a.slot → l.stop = some .preempt → l.x.arrs = [] → l.x.inflight = [] → l.qwait = none →
    s.freePark a.engine = some n → ∃ t x, exec (.checkPoint a) s = .next t ∧ tfind t.launches id = some x ∧
    x.place = .preempted a.engine (some n) ∧ x.stop = none ∧ x.bound = [] ∧ x.x = { l.x with line := none } ∧
    tfind (t.engine a.engine).slots a.slot = none ∧ t.mem = s.mem) ∧
  (∀ (s : State) (a : SlotId) (id : Nat) (l : Launch), s.up = true → s.inSlot a = some (id, l) →
    (l.stop = some .abort ∨ l.stop = some .lost) → ∃ t, exec (.checkPoint a) s = .next t ∧ tfind t.launches id = none) ∧
  (∀ (s : State) (a : SlotId) (id : Nat) (l : Launch), s.up = true → s.inSlot a = some (id, l) →
    l.place = .slot a.engine a.slot → l.status = .stopping → l.x.inflight = [] → ∃ t x,
    exec (.arrayImageWritten a) s = .next t ∧ tfind t.launches id = some x ∧ x.bound = [] ∧ x.stop = none ∧
    tfind (t.engine a.engine).slots a.slot = none ∧ x.x = { l.x with line := none } ∧ t.mem = s.mem) ∧
  (∀ (s : State) (a : SlotId) (id n : Nat) (l : Launch), s.up = true → s.inSlot a = some (id, l) →
    l.place = .slot a.engine a.slot → l.status = .waiting → s.canWake l = false → s.freePark a.engine = some n → ∃ t x,
    exec (.park a) s = .next t ∧ tfind t.launches id = some x ∧ x.place = .parked a.engine n ∧
    tfind (t.engine a.engine).slots a.slot = none ∧ ((tfind (t.engine a.engine).parks n).map (·.launch)) = some id ∧
    (t.engine a.engine).ctr.park = bump (s.engine a.engine).ctr.park 1 ∧ t.mem = s.mem) ∧
  (∀ (s : State) (e k n : Nat) (p : Park) (l : Launch) (bound : List Nat) (fold : Option (Nat × Nat)), s.up = true →
    tfind (s.engine e).parks k = some p → s.freeSlotOf e = some n → tfind s.launches p.launch = some l →
    l.place = .parked e k → s.canWake l = true → s.bindFor e l.desc.arrays = some (bound, fold) →
    (s.ctx l.ctx).state = .live → (s.ctx l.ctx).sched.rslot.isSome = true → (s.ctx l.ctx).sched.switchingOut = false →
    (s.ctx l.ctx).lostHold = false → s.engineWorks e = true → (∀ q, l.qwait = some q → q.2.2 = none) → ∃ t x,
    exec (.wake e k) s = .next t ∧
    tfind t.launches p.launch = some x ∧ x.place = .slot e n ∧ tfind (t.engine e).slots n = some p.launch ∧
    tfind (t.engine e).parks k = none ∧ (t.engine e).ctr.wake = bump (s.engine e).ctr.wake 1 ∧ t.mem = s.mem) ∧
  (∀ (s : State) (e n : Nat) (r : Scrub), s.up = true → (s.engine e).scrubs[n]? = some r → ∃ t,
    exec (.scrubComplete e n) s = .next t ∧ (t.engine e).scrubs = (s.engine e).scrubs.eraseIdx n ∧
    (t.engine e).store = mzero (s.engine e).store (r.base * unitBytes) (r.units * unitBytes) ∧
    (t.engine e).ctr.scrubBytes = bump (s.engine e).ctr.scrubBytes (r.units * unitBytes) ∧
    (∀ k, k ≠ e → t.engine k = s.engine k) ∧ { t with engines := s.engines, launches := s.launches } = s)

/-- Undo capture, recovery and replay (R225, R460 to R462, R710 to R713). A captured block's bytes stand in its undo slot
before the write goes on; a recovery point begins a new replay unit; a failed launch leaves its slot and waits for its
restores; after them its captured blocks hold what they held, and it starts its unit again; a launch in token deadlock
faults TOKEN_DEADLOCK and ends. -/
def Obligations.CaptureAndReplay : Prop :=
  (∀ (s : State) (a : SlotId) (id b slot at_ : Nat) (host : Bool) (l : Launch), s.up = true → s.inSlot a = some (id, l) →
    l.capWait = some b → l.recovery = false → s.undoFree l.ctx = some slot → s.blockPhys l.ctx b = some (host, at_) → ∃ t,
    exec (.undoCaptureComplete a b) s = .next t ∧ t.mem = mwriteN (mwriteN s.mem
      ((s.ctx l.ctx).undo.base + 65536 * (slot + 1)) (s.physRead host at_ 65536)) ((s.ctx l.ctx).undo.base + 8 * slot)
      (bytesLE 8 (s.undoEntry l b)) ∧
    tfind t.launches id = some { l with capWait := none, captures := l.captures ++ [⟨b, some slot⟩] } ∧
    (t.ctx l.ctx).undo.captures = bump (s.ctx l.ctx).undo.captures 1 ∧
    { t with mem := s.mem, ctxs := s.ctxs, launches := s.launches } = s) ∧
  (∀ (s : State) (a : SlotId) (id b at_ : Nat) (host : Bool) (l : Launch), s.up = true → s.inSlot a = some (id, l) →
    l.capWait = some b → l.recovery = false → s.undoFree l.ctx = none → s.blockPhys l.ctx b = some (host, at_) →
    exec (.undoCaptureComplete a b) s = .next (s.setLaunch id { l with recovery := true })) ∧
  (∀ (s : State) (a : SlotId) (id : Nat) (l : Launch), s.up = true → s.inSlot a = some (id, l) →
    l.recovery = true → l.x.inflight = [] → l.capWait = none → ∃ t x, exec (.recoveryPoint a) s = .next t ∧
    tfind t.launches id = some x ∧ x.unit = l.x ∧ x.unitSems = l.sems ∧ x.captures = [] ∧ x.allotCaps = [] ∧ x.done = [] ∧
    x.recovery = false ∧ x.x = l.x ∧ t.fe.undoRecovery = bump s.fe.undoRecovery 1) ∧
  (∀ (s : State) (a : SlotId) (id : Nat) (l : Launch), s.up = true → s.inSlot a = some (id, l) →
    l.place = .slot a.engine a.slot → l.stop = some .failed → (s.ctx l.ctx).state = .live → ∃ t x,
    exec (.replay a) s = .next t ∧ tfind t.launches id = some x ∧ x.restoring = true ∧ x.stop = none ∧ x.bound = [] ∧
    x.x = { l.x with inflight := [] } ∧ x.place = (if s.engineWorks a.engine && l.avoid != some a.engine then
      .preempted a.engine none else .waiting) ∧ tfind (t.engine a.engine).slots a.slot = none ∧
    t.sage.replays = bump s.sage.replays 1 ∧ t.mem = s.mem) ∧
  (∀ (s : State) (id : Nat) (l : Launch), s.up = true → tfind s.launches id = some l → l.restoring = true → l.sems = [] →
    l.captures = [] → l.allotCaps = [] → l.place = .waiting → ∃ t x, exec (.replayRestoreComplete id) s = .next t ∧
    tfind t.launches id = some x ∧ x = { l with
      restoring := false, replayed := true, x := l.unit, sems := [], semLost := l.unitSems, redo := l.done, done := [],
      status := .running, issued := false } ∧ t.mem = s.mem) ∧
  (∀ (s : State) (id b slot at_ : Nat) (l : Launch), s.up = true → tfind s.launches id = some l →
    l.restoring = true → l.sems = [] → l.captures = [⟨b, some slot⟩] → s.blockPhys l.ctx b = some (false, at_) → ∃ t,
    exec (.replayRestoreComplete id) s = .next t ∧ t.mem = mwriteN s.mem at_
      (mreadN s.mem ((s.ctx l.ctx).undo.base + 65536 * (slot + 1)) 65536)) ∧
  (∀ (s : State) (a : SlotId) (id : Nat) (l : Launch), s.up = true → s.inSlot a = some (id, l) → l.deadlocked = true →
    (s.ctx l.ctx).state = .live → (s.ctx l.ctx).fault.code = 0 → ∃ t, exec (.tokenDeadlock a) s = .next t ∧
    (t.ctx l.ctx).fault.code = 4 ∧ tfind t.launches id = none)

/-- Dispatch and time slices (R483 to R491, R499, R517). A dispatch round puts the workgroup it chooses into a launch slot
of the engine it chooses, with the workgroup's number; at a slice boundary a context that has waited a whole slice takes
one launch's slot, and one that waits without a slot is switched in; a stuck allotment, and a runnable context with no
slot, switch out the context the rules name; SCHED_CTRL takes 1 to 1000. Switching a context out and in (R476, R479, R495,
R497). A context with nothing running gives up its slots at once; its allotments are saved to records, engine by engine,
and their units scrubbed; a waiting context takes the free slot; a restored record gives its bytes back to the allotment.
-/
def Obligations.DispatchAndContextSwitch : Prop :=
  (∀ (s : State) (p c k e n : Nat) (m : Cmd) (d : Desc) (bound : List Nat) (fold : Option (Nat × Nat)), s.up = true →
    s.paused p = false → s.scheduleRuns p = false →
    ((s.look p).dispatchable p).filter (fun c => ((s.look p).launchesOf c).any fun e => e.2.replayed && (s.look p).canResume e.2) = [] →
    minBy (s.look p).vtime ((s.look p).dispatchable p) = some c → (s.look p).foreignOne c = none →
    (s.look p).choose c = .workgroup k e → tfind (s.look p).cmds k = some m → m.ctx = c →
    m.desc.bind ((s.look p).nativeDesc m) = some d → (s.look p).allotPlan c e = some .held →
    (s.look p).freeSlotOf e = some n → (s.look p).bindFor e d.arrays = some (bound, fold) →
    (∀ x ∈ (s.look p).launches, x.1 < (s.look p).nextId) → (∀ x ∈ ((s.look p).engine e).slots, x.2 < (s.look p).nextId) → ∃ t l,
    exec (.dispatchRound p) s = .next t ∧ tfind t.launches s.nextId = some l ∧ l.cmd = some k ∧ l.ctx = c ∧
    l.wg = m.nextWg.1 ∧ l.place = .slot e n ∧ l.bound = bound ∧ tfind (t.engine e).slots n = some s.nextId ∧
    t.mem = s.mem ∧ t.hostMem = s.hostMem ∧ t.objs = s.objs ∧ t.fences = s.fences) ∧
  (∀ (s : State) (p c d e n id : Nat) (l : Launch), s.up = true → (s.part p).state ≠ 0 → (s.part p).static = false →
    s.paused p = false → ((s.look p).ctxsOf p).filter (fun c => (s.look p).resident c && (s.look p).schedState c == 3 &&
      (match ((s.look p).ctx c).sched.waitingSince with
       | none => false
       | some t => decide (t + (s.part p).timesliceMs * nsPerMs ≤ s.now))) = [c] →
    maxBy (s.look p).vtime (((s.look p).ctxsOf ((s.look p).ctx c).part).filter fun d => d ≠ c && !(s.look p).sheltered d &&
      ((s.look p).fesOf d).isEmpty && ((s.look p).launchesOf d).any fun e => match e.2.place with
        | .slot .. => true
        | _ => false) = some d →
    (s.look p).vtime c < (s.look p).vtime d →
    maxBy (fun e => e.2.startSeq) ((s.look p).runningOn d []) = some (id, l) → l.place = .slot e n →
    (∀ c ∈ ((s.look p).setLaunch id { l with stop := some .preempt }).ctxsOf p,
      ((s.look p).setLaunch id { l with stop := some .preempt }).schedState c ≠ 1) →
    exec (.sliceBoundary p) s = .next ((s.look p).setLaunch id { l with stop := some .preempt })) ∧
  (∀ (s : State) (p w c : Nat), s.up = true → (s.part p).state ≠ 0 → (s.part p).static = false → s.paused p = false →
    ((s.look p).ctxsOf p).filter (fun c => (s.look p).resident c && (s.look p).schedState c == 3 &&
      (match ((s.look p).ctx c).sched.waitingSince with
       | none => false
       | some t => decide (t + (s.part p).timesliceMs * nsPerMs ≤ s.now))) = [] →
    ((s.look p).ctxsOf p).filter (fun c => (s.look p).schedState c == 1) = [w] →
    ((s.look p).freeRslot p).isSome = true → maxBy (s.look p).vtime (((s.look p).ctxsOf p).filter fun c =>
      (s.look p).resident c && (s.look p).schedState c == 3 && !(s.look p).sheltered c && ((s.look p).fesOf c).isEmpty) = some c →
    exec (.sliceBoundary p) s = .next ((s.look p).switchIn w)) ∧
  (∀ (s : State) (p e c : Nat) (rest : List Nat), s.up = true → (s.part p).static = false → (s.part p).engines = e :: rest →
    ((s.dispatchable p).any fun c => s.wantsSlot c && (e :: rest).all fun e => (s.allotPlan c e).isNone) = true →
    maxBy (fun c => ((s.allotOf e c).map fun a => a.2.size).getD 0) (((s.ctxsOf p).filter fun c => s.resident c &&
      (s.schedState c == 2 || s.schedState c == 4) && ((s.allotOf e c).map fun a => a.2.size).getD 0 != 0).reverse) = some c →
    exec (.allotWaitTimeout p) s = .next (s.startOut c)) ∧
  (∀ (s : State) (p c : Nat), s.up = true → ((s.look p).ctxsOf p).any (fun c => (s.look p).schedState c == 1) = true →
    (s.look p).freeRslot p = none → minBy (fun c => ((s.look p).ctx c).acct.lastProgress) (((s.look p).ctxsOf p).filter
      fun c => (s.look p).resident c && (s.look p).schedState c == 2 && !(s.look p).sheltered c) = some c →
    exec (.evict p) s = .next (((s.look p).schedCount p 1).startOut c)) ∧
  (∀ (s : State) (p : Nat) (v : BitVec 64), s.up = true → s.decodes .pf = true → s.fwRuns = true →
    p < s.build.partitions → (1 ≤ fld v.toNat 15 0 ∧ fld v.toNat 15 0 ≤ 1000 → exec (.schedCtrlWrite p v) s =
      .next { s with holdLimit := tput s.holdLimit p (fld v.toNat 15 0) }) ∧
    (fld v.toNat 15 0 = 0 ∨ 1000 < fld v.toNat 15 0 → exec (.schedCtrlWrite p v) s = .next s)) ∧
  (∀ (s : State) (c k : Nat), s.up = true → (s.ctx c).state = .live → (s.ctx c).sched.rslot = some k →
    (s.ctx c).sched.switchingOut = false → (∀ e ∈ s.launches, e.2.ctx ≠ c) → (∀ e ∈ s.cmds, e.2.ctx ≠ c) → s.fesOf c = [] → ∃ t,
    exec (.switchOut c) s = .next t ∧ (t.ctx c).sched.rslot = none ∧ (t.ctx c).sched.switchingOut = true ∧
    (t.ctx c).acct.switchCount = bump (s.ctx c).acct.switchCount 1 ∧ (∀ q, ((t.ctx c).queue q).fetch = .asleep) ∧
    (∀ d, d ≠ c → t.ctx d = s.ctx d) ∧ { t with ctxs := s.ctxs, schedCtr := s.schedCtr } = s) ∧
  (∀ (s : State) (c : Nat), s.up = true → (s.ctx c).sched.switchingOut = true → (s.ctx c).sched.rslot = none → ∃ t,
    exec (.switchOutComplete c) s = .next t ∧ (t.ctx c).sched.switchingOut = false ∧
    (∀ e i a, e < s.build.engines → s.allotOf e c = some (i, a) → tfind (t.engine e).allots i = none ∧
      (∃ r ∈ (t.ctx c).sched.saved, r.engine = e ∧ r.units = a.size ∧ r.into = none ∧
        (∀ o, o < a.size * unitBytes → mread r.cells o = mread (s.engine e).store (a.base * unitBytes + o))) ∧
      (a.size ≠ 0 → ⟨a.base, a.size⟩ ∈ (t.engine e).scrubs)) ∧ (∀ e, (t.engine e).store = (s.engine e).store)) ∧
  (∀ (s : State) (c k : Nat), s.up = true → s.schedState c = 1 → s.paused (s.ctx c).part = false →
    s.standIn c = some (c, false) → s.freeRslot (s.ctx c).part = some k → s.resident c = false → (s.ctx c).lostHold = false →
    ∃ t, exec (.switchIn c) s = .next t ∧ (t.ctx c).sched.rslot = some k ∧ (t.ctx c).sched.switchedInAt = s.now ∧
    (t.ctx c).sched.waitingSince = none ∧ (∀ d, d ≠ c → t.ctx d = s.ctx d) ∧ { t with ctxs := s.ctxs } = s) ∧
  (∀ (s : State) (c e i : Nat) (r : SaveRec) (a : Allot), s.up = true →
    (s.ctx c).sched.saved.find? (fun r => r.into == some e) = some r → s.allotOf e c = some (i, a) →
    (s.engine e).scrubbing a.base r.units = false → Memory.wf r.cells = true →
    (∀ b ∈ r.cells, b.1 < r.units * unitBytes) → ∃ t, exec (.recordRestoreComplete c e) s = .next t ∧
    (∀ o, o < r.units * unitBytes → mread (t.engine e).store (a.base * unitBytes + o) = mread r.cells o) ∧
    (∀ b, b < a.base * unitBytes ∨ a.base * unitBytes + r.units * unitBytes ≤ b →
      mread (t.engine e).store b = mread (s.engine e).store b) ∧
    (t.ctx c).sched.saved = (s.ctx c).sched.saved.erase r ∧ t.mem = s.mem)

/-- Partition programs up to COMMIT (R280, R293 to R302, Tables 6-9 to 6-12). A program that passes the pre-scan is staged
word by word on a shadow of the tables, which each instruction changes as its row says; a bad word, an instruction that
breaks a rule, ABORT and a COMMIT that fails its validation end the program with their code; nothing of the live tables
changes before the switch. -/
def Obligations.PartitionPrograms : Prop :=
  (∀ (s : State) (v : BitVec 64), s.decodes .pf = true → s.fwRuns = true → s.wmb.busy = false → s.sage.wardenDown = false →
    s.lc.busy = false → fld v.toNat 9 0 ≠ 0 → fld v.toNat 9 0 ≤ 512 → s.wmb.prescan (fld v.toNat 9 0) = none →
    exec (.wmbSubmit v) s = .next { s with wmb := { s.wmb with
      tag := fld v.toNat 31 16, len := fld v.toNat 9 0, idx := 0, busy := true, phase := .staging, shadow := s.units,
      named := s.wmb.names (fld v.toNat 9 0) } }) ∧
  (∀ (s : State) (v : BitVec 64), s.decodes .pf = true → s.fwRuns = true → s.wmb.busy = true →
    exec (.wmbSubmit v) s = .next { s with wmb := { s.wmb with lost := true } }) ∧
  (∀ (s : State) (w p : Nat), s.stages 0xC0 w = true → wPart w = p → p < s.build.partitions →
    (s.wmb.shadow.part p).state = 0 → s.scheduleRuns p = false → exec .partOpen s = .next (s.staged (s.wmb.shadow.setPart p
      { state := 1, timesliceMs := 10, keygen := (s.wmb.shadow.part p).keygen }))) ∧
  (∀ (s : State) (w p : Nat), s.stages 0xC0 w = true → wPart w = p → p < s.build.partitions →
    (s.wmb.shadow.part p).state ≠ 0 → exec .partOpen s = .next (s.wmbEnd 4)) ∧
  (∀ (s : State) (w p : Nat), s.stagesPart 0xC1 w p = true → s.partHasCtx p = false →
    exec .partClose s = .next (s.staged (s.wmb.shadow.close p))) ∧
  (∀ (s : State) (w p : Nat), s.stagesPart 0xC1 w p = true → s.partHasCtx p = true → exec .partClose s = .next (s.wmbEnd 7)) ∧
  (∀ (s : State) (w p : Nat) (us f h : List Nat), s.stagesPart 0xC2 w p = true →
    unitMask s.build.engines (fld w 15 0) = some us →
    assign (wRelease w) (some us) s.wmb.shadow.freeEngines (s.wmb.shadow.part p).engines = .ok (f, h) →
    exec .assignEngine s = .next (s.staged ({ s.wmb.shadow with freeEngines := f }.setPart p
      { s.wmb.shadow.part p with engines := h }))) ∧
  (∀ (s : State) (w p : Nat) (us : List Nat), s.stagesPart 0xC2 w p = true → wRelease w = false →
    unitMask s.build.engines (fld w 15 0) = some us → us.all s.wmb.shadow.freeEngines.contains = false →
    exec .assignEngine s = .next (s.wmbEnd 5)) ∧
  (∀ (s : State) (w p : Nat) (us f h : List Nat), s.stagesPart 0xC3 w p = true → fld w 18 16 < s.build.chipletPorts →
    unitMask 16 (fld w 15 0) = some us → assign (wRelease w) (some (us.map (16 * fld w 18 16 + ·)))
      s.wmb.shadow.freeForeign (s.wmb.shadow.part p).foreign = .ok (f, h) →
    exec .assignForeign s = .next (s.staged ({ s.wmb.shadow with freeForeign := f }.setPart p
      { s.wmb.shadow.part p with foreign := h }))) ∧
  (∀ (s : State) (w p : Nat) (us f h : List Nat), s.stagesPart 0xC4 w p = true → s.hasObjects p = false →
    unitMask s.build.channels (fld w 31 0) = some us →
    assign (wRelease w) (some us) s.wmb.shadow.freeChannels (s.wmb.shadow.part p).channels = .ok (f, h) →
    exec .assignChannel s = .next (s.staged ({ s.wmb.shadow with freeChannels := f }.setPart p
      { s.wmb.shadow.part p with channels := h }))) ∧
  (∀ (s : State) (w p : Nat) (us f h : List Nat), s.stagesPart 0xC5 w p = true →
    unitMask s.build.ways (fld w 31 0) = some us →
    assign (wRelease w) (some us) s.wmb.shadow.freeWays (s.wmb.shadow.part p).ways = .ok (f, h) →
    exec .assignWays s = .next (s.staged ({ s.wmb.shadow with freeWays := f }.setPart p
      { s.wmb.shadow.part p with ways := h }))) ∧
  (∀ (s : State) (w p : Nat), s.stagesPart 0xC6 w p = true → wRelease w = false →
    (s.wmb.shadow.parts.any fun e => e.1 != p && e.2.vfs.contains (fld w 5 0)) = false → s.vfHasCtx (fld w 5 0) = false →
    (s.wmb.shadow.part p).state = 1 → exec .assignVf s = .next (s.staged (s.wmb.shadow.setPart p
      { s.wmb.shadow.part p with vfs := insertIdx (s.wmb.shadow.part p).vfs (fld w 5 0) }))) ∧
  (∀ (s : State) (w p : Nat), s.stagesPart 0xC7 w p = true → fld w 8 0 ≤ 256 →
    (fld w 47 40 = 0x20 ∨ fld w 47 40 < s.build.fabricPorts) → exec .setShare s = .next (s.staged (s.wmb.shadow.setPart p
      { s.wmb.shadow.part p with shares := setShareOf (s.wmb.shadow.part p).shares (fld w 47 40) (fld w 8 0) }))) ∧
  (∀ (s : State) (w p : Nat), s.stagesPart 0xC8 w p = true → fld w 15 0 ≤ 2480 → exec .setPower s =
    .next (s.staged (s.wmb.shadow.setPart p { s.wmb.shadow.part p with power := fld w 15 0 }))) ∧
  (∀ (s : State) (w p : Nat), s.stagesPart 0xC9 w p = true → bit w 0 = false → 1 ≤ fld w 23 16 → fld w 23 16 ≤ 100 →
    (s.wmb.shadow.part p).state = 1 → exec .setMode s = .next (s.staged (s.wmb.shadow.setPart p
      { s.wmb.shadow.part p with static := false, timesliceMs := fld w 23 16 }))) ∧
  (∀ (s : State) (w p : Nat), s.stagesPart 0xC9 w p = true → bit w 0 = true → fld w 23 16 = 0 →
    (s.wmb.shadow.part p).validated = false → (s.wmb.shadow.part p).state = 1 → exec .setMode s = .next (s.staged
      (s.wmb.shadow.setPart p { s.wmb.shadow.part p with static := true, timesliceMs := 0 }))) ∧
  (∀ (s : State) (w p : Nat), s.stagesPart 0xCA w p = true → (bit w 0 = true → s.build.validatedSharing = true ∧
    (s.wmb.shadow.part p).static = false) → (s.wmb.shadow.part p).state = 1 → exec .setIsolation s =
    .next (s.staged (s.wmb.shadow.setPart p { s.wmb.shadow.part p with validated := bit w 0 }))) ∧
  (∀ (s : State) (w p : Nat), s.stagesPart 0xCB w p = true → fld w 28 16 ≤ 4096 → fld w 5 0 ≤ s.build.ctxSlots →
    (s.ctxs.filter fun e => e.2.state != .free && e.2.part == p).length ≤ fld w 28 16 → exec .setContexts s =
    .next (s.staged (s.wmb.shadow.setPart p { s.wmb.shadow.part p with quota := fld w 28 16, rslots := fld w 5 0 }))) ∧
  (∀ (s : State) (w : Nat), s.stages 0xCC w = true → fld w 51 49 = 1 → wRelease w = false →
    (maskBits 32 (fld w 31 0)).all s.wmb.shadow.freeEngines.contains = true → exec .setReserve s = .next (s.staged
      { s.wmb.shadow with freeEngines := removeAll s.wmb.shadow.freeEngines (maskBits 32 (fld w 31 0)),
                          reserveEngines := insertAll s.wmb.shadow.reserveEngines (maskBits 32 (fld w 31 0)) })) ∧
  (∀ (s : State) (w p : Nat), s.stagesPart 0xCD w p = true → (s.wmb.shadow.part p).state = 1 → s.maySeal = true →
    exec .sealPartition s = .next (s.staged (s.wmb.shadow.setPart p { s.wmb.shadow.part p with state := 2 }))) ∧
  (∀ (s : State) (w p : Nat), s.stagesPart 0xCD w p = true → s.maySeal = false → exec .sealPartition s = .next (s.wmbEnd 4)) ∧
  (∀ (s : State) (w : Nat), s.stages 0xCF w = true → exec .abortProgram s = .next (s.wmbEnd 1)) ∧
  (∀ (s : State) (w : Nat), s.stages 0xCE w = true → s.commitCode = 0 → exec .commitProgram s = .next { s with wmb :=
    { s.wmb with phase := .handover, began := s.now, switched := false } }) ∧
  (∀ (s : State) (w : Nat), s.stages 0xCE w = true → s.commitCode ≠ 0 →
    exec .commitProgram s = .next (s.wmbEnd s.commitCode)) ∧
  (∀ (s : State) (code : Nat), s.blocks = [] → s.lc.busy = false → s.sx = [] → (s.wmbEnd code).wmb.resCode = code ∧
    (s.wmbEnd code).wmb.phase = .idle ∧ (s.wmbEnd code).wmb.busy = false ∧ (s.wmbEnd code).wmb.done = true ∧
    (s.wmbEnd code).wmb.resTag = s.wmb.tag ∧ (s.wmbEnd code).wmb.resIndex = s.wmb.idx ∧ (s.wmbEnd code).units = s.units ∧
    (s.wmbEnd code).ctxs = s.ctxs ∧ (s.wmbEnd code).mem = s.mem)

/-- The hand-over (R304, R308 to R317). What still runs on a leaving engine after 1.5 ms is switched out; the switch gives
each named partition its new units and leaves the others theirs; the last save and scrub, after which nothing of the old
owner is left in the engine's store, completes the program. -/
def Obligations.HandOver : Prop :=
  (∀ (s : State) (e : Nat), s.up = true → s.wmb.phase = .handover → s.wmb.switched = false → s.leaving = [.engine e] →
    exec .handoverPreemptTimeout s = .next (((s.engine e).slots.filterMap fun r =>
      (tfind s.launches r.2).map (·.ctx)).eraseDups.foldl State.startOut s)) ∧
  (∀ (s : State) (p : Nat), s.up = true → s.wmb.phase = .handover → s.wmb.switched = false →
    s.leaving.all s.leftQuiet = true → s.wmb.named = [p] → (s.part p).state = 2 → (s.wmb.shadow.part p).state = 2 →
    (s.wmb.shadow.part p).keyed = true → (s.wmb.shadow.part p).unitsOf.all s.unitWorks = true → s.ctxs = [] → s.blocks = [] →
    s.lc.busy = false → s.sx = [] → ∃ t, exec .handoverSwitch s = .next t ∧
    (t.part p).engines = (s.wmb.shadow.part p).engines ∧ (t.part p).foreign = (s.wmb.shadow.part p).foreign ∧
    (t.part p).channels = (s.wmb.shadow.part p).channels ∧ (t.part p).ways = (s.wmb.shadow.part p).ways ∧
    (t.part p).power = (s.wmb.shadow.part p).power ∧ (t.part p).quota = (s.wmb.shadow.part p).quota ∧
    (t.part p).keygen = (s.part p).keygen ∧ (∀ q, q ≠ p → t.part q = s.part q) ∧ t.mem = s.mem) ∧
  (∀ (s : State) (e : Nat), s.up = true → s.wmb.phase = .handover → s.wmb.switched = true → s.wmb.handing = [.engine e] →
    s.blocks = [] → s.lc.busy = false → s.sx = [] → ∃ t, exec (.handoverSaveComplete (.engine e)) s = .next t ∧
    (t.engine e).store = [] ∧ (t.engine e).handover = false ∧ (t.engine e).scrubs = [] ∧ t.wmb.phase = .idle ∧
    t.wmb.resCode = 0 ∧ t.wmb.busy = false)

/-- Slice statements (R318 to R325). A request of a VF bound to a sealed partition waits its turn; one that may have none
is refused; the oldest request that can be served gets the statement of its partition, signed with the identity key. -/
def Obligations.SliceStatements : Prop :=
  (∀ (s : State) (v p : Nat) (w : BitVec 64), s.decodes (.vf v) = true → bit w.toNat 0 = true →
    (s.vf v).stmt.busy = false → s.stmtPart v = some p → ∃ t, exec (.stmtRequest v w) s = .next t ∧
    (t.vf v).stmt.busy = true ∧ t.wmb.stmtQueue = s.wmb.stmtQueue ++ [v] ∧ (t.vf v).stmt.nonce = (s.vf v).stmt.nonce ∧
    t.units = s.units ∧ t.mem = s.mem ∧ t.ctxs = s.ctxs) ∧
  (∀ (s : State) (v : Nat) (w : BitVec 64), s.decodes (.vf v) = true → bit w.toNat 0 = true →
    (s.vf v).stmt.busy = false → s.stmtPart v = none → ∃ t, exec (.stmtRequest v w) s = .next t ∧
    (t.vf v).stmt.busy = false ∧ (t.vf v).stmt.refused = true ∧ (t.vf v).stmt.done = true ∧ t.wmb = s.wmb ∧
    t.units = s.units ∧ t.mem = s.mem) ∧
  (∀ (s : State) (v p : Nat) (key : Nat), s.up = true → s.sage.wardenDown = false → s.fwRuns = true →
    s.wmb.stmtQueue.find? s.stmtReady = some v → s.stmtPart v = some p → s.identityKey = some key → ∃ t,
    exec .stmtIssue s = .next t ∧ t.wmb.stmtQueue = s.wmb.stmtQueue.erase v ∧ (t.vf v).stmt.busy = false ∧
    (t.vf v).stmt.done = true ∧ (t.vf v).stmt.buffer = s.statementBody v p ++ signBytes key (s.statementBody v p) ∧
    t.units = s.units ∧ t.mem = s.mem ∧ t.lc = s.lc) ∧
  (∀ (s : State) (v p : Nat), (s.statementBody v p).take 4 = bytesLE 4 0x53535653 ∧
    (s.statementBody v p)[12]? = some (BitVec.ofNat 8 p) ∧
    ((s.statementBody v p).drop 13).take 1 = bytesLE 1 (flag (s.part p).static 0) ∧
    ((s.statementBody v p).drop 16).take 8 = bytesLE 8 (s.part p).seq)

/-- Link and handshake of a chiplet port (R519 to R522, R538, R541, R542, R557, R560). A link with a trained module says
HELLO with the hub's credits; a CAPS in order brings the port up and admits the engines it reports; one that is late, of
another version or short of credits leaves the port down with its cause; RECOVER retrains a quarantined port, which says
RESET before HELLO. Quarantine (R557 to R559, Table 11-6). The events of the table quarantine the port with their cause:
it holds nothing more, its engines are absent and out of the free pool, its acknowledgements are no longer awaited, and
Sage and Rosemary hear of it; memory, contexts and native engines stay. -/
def Obligations.ChipletPorts : Prop :=
  (∀ (s : State) (port rate lanes : Nat), s.up = true → port < s.build.chipletPorts →
    s.fptStatus (.chipletPort port) = 9 → ((s.cp port).state = .down ∨ (s.cp port).state = .training) →
    (s.cp port).recovering = false → lanes ≠ 0 → exec (.chipletLinkUp port rate lanes) s = .next
      { s.setCp port { s.cp port with state := .handshake, rate := rate, lanes := lanes, fromChip := ⟨128, 512, 128, 64⟩,
                                      toChip := {}, txq := [], held := [], invals := [] } with
        out := s.out ++ [.cpp port 1 { cppZero with arg0 := 0x0080020000800001, arg1 := 64 }] }) ∧
  (∀ (s : State) (port rate lanes : Nat), s.up = true → port < s.build.chipletPorts →
    s.fptStatus (.chipletPort port) = 9 → (s.cp port).state = .training → (s.cp port).recovering = true → lanes ≠ 0 → ∃ t,
    exec (.chipletLinkUp port rate lanes) s = .next t ∧ (t.cp port).state = .handshake ∧
    (t.cp port).resetTag = some (BitVec.ofNat 16 (s.cp port).nextTag) ∧
    t.out = s.out ++ [.cpp port 0x0F { cppZero with tag := BitVec.ofNat 16 (s.cp port).nextTag },
                      .cpp port 1 { cppZero with arg0 := 0x0080020000800001, arg1 := 64 }] ∧
    { t with cps := s.cps, out := s.out } = s) ∧
  (∀ (s : State) (port : Nat) (m : CppMsg), s.up = true → (s.cp port).state = .handshake → (s.cp port).recovering = false →
    capsForm m = true → capsCase m = 0 → (m.data.getD 6 0).toNat = 1 → leAt m.data 0x10 2 ≠ 0 →
    (∀ q, q.fes = (s.cp port).fes → (s.setCp port q).feTotal < s.build.foreign) → (s.fe_ (16 * port)).state = 0 → ∃ t, exec (.cppCaps port m) s = .next t ∧
    (t.cp port).state = .up ∧ (t.cp port).vendor = leAt m.data 0 2 ∧ (t.cp port).device = leAt m.data 2 2 ∧
    (t.cp port).revision = leAt m.data 4 2 ∧ (t.cp port).serial = leAt m.data 8 8 ∧
    (t.cp port).toChip = ⟨fld m.arg0.toNat 31 16, fld m.arg0.toNat 47 32, fld m.arg0.toNat 63 48, m.arg1.toNat⟩ ∧
    (t.fe_ (16 * port)).state = 1 ∧ (t.fe_ (16 * port)).function = leAt m.data 0x10 2 ∧
    t.units.freeForeign = insertIdx s.units.freeForeign (16 * port) ∧ t.units.parts = s.units.parts ∧ t.mem = s.mem ∧
    t.ctxs = s.ctxs ∧ t.engines = s.engines ∧ t.out = s.out ∧ (∀ c, c ≠ port → t.cp c = s.cp c)) ∧
  (∀ (s : State) (port : Nat) (m : CppMsg), s.up = true → (s.cp port).state = .handshake → (s.cp port).recovering = false →
    capsForm m = true → capsCase m ≠ 0 → ∃ t, exec (.cppCaps port m) s = .next t ∧ (t.cp port).state = .down ∧
    (t.cp port).cause = 0x80 + capsCase m ∧ t.units = s.units ∧ t.mem = s.mem ∧ t.ctxs = s.ctxs ∧ t.out = s.out) ∧
  (∀ (s : State) (port : Nat) (m : CppMsg), s.up = true → (s.cp port).state = .handshake → capsForm m = false →
    exec (.cppCaps port m) s = .next (s.quarantine port 1)) ∧
  (∀ (s : State) (port : Nat), s.up = true → (s.cp port).state = .handshake → (s.cp port).recovering = false → ∃ t,
    exec (.capsTimeout port) s = .next t ∧ (t.cp port).state = .down ∧ (t.cp port).cause = 0x81 ∧ t.units = s.units ∧
    t.mem = s.mem ∧ t.ctxs = s.ctxs) ∧
  (∀ (s : State) (port : Nat), s.decodes .pf = true → s.fwRuns = true → (s.cp port).state = .quarantined →
    (s.cp port).quarCount < 4 →
    exec (.cpRecover port) s = .next (s.setCp port { s.cp port with state := .training, recovering := true })) ∧
  (∀ (s : State) (port : Nat), s.decodes .pf = true → 4 ≤ (s.cp port).quarCount → exec (.cpRecover port) s = .next s) ∧
  (∀ (s : State) (port cause : Nat) (f : Fe), (s.cp port).state = .up → (s.cp port).fes = [(0, f)] → f.state = 1 →
    f.cmd = none → f.step = none → s.units.parts = [] → port < 8 → ∃ t, s.quarantine port cause = t ∧
    (t.cp port).state = .quarantined ∧ (t.cp port).cause = cause ∧ (t.cp port).quarCount = min ((s.cp port).quarCount + 1) 15 ∧
    (t.cp port).held = [] ∧ (t.cp port).txq = [] ∧ (t.cp port).invals = [] ∧ (t.fe_ (16 * port)).state = 0 ∧
    t.units.freeForeign = s.units.freeForeign.filter (· ≠ 16 * port) ∧ t.units.freeEngines = s.units.freeEngines ∧
    (∃ m, t.sage.wire = s.sage.wire ++ [m] ∧ m.kind = BitVec.ofNat 8 (quarKind cause).2 ∧
      m.source = BitVec.ofNat 12 (0x600 + 16 * port + (quarKind cause).1)) ∧
    (∀ id w, tfind t.withdrawals id = some w → CacheId.proxy port ∉ w.waiting) ∧ t.mem = s.mem ∧ t.ctxs = s.ctxs ∧
    t.engines = s.engines ∧ t.out = s.out) ∧
  (∀ (s : State) (port : Nat), s.up = true → exec (.chipletLinkDown port) s = .next (s.quarantine port 11)) ∧
  (∀ (s : State) (port : Nat), s.up = true → ((s.cp port).state = .up ∨ (s.cp port).state = .handshake) →
    exec (.cppUndefinedMessage port) s = .next (s.quarantine port 1)) ∧
  (∀ (s : State) (port fe : Nat) (tag : BitVec 16), s.up = true → fe < 16 →
    (s.fe_ (16 * port + fe)).quiesceTag = some tag → exec (.quiesceTimeout port fe) s = .next (s.quarantine port 8)) ∧
  (∀ (s : State) (port : Nat) (tag : BitVec 16), s.up = true → (s.cp port).resetTag = some tag →
    exec (.resetTimeout port) s = .next (s.quarantine port 9)) ∧
  (∀ (s : State) (port : Nat), s.up = true → (s.cp port).state = .up → (s.cp port).txq ≠ [] →
    exec (.creditStallTimeout port) s = .next (s.quarantine port 6)) ∧
  (∀ (s : State) (port : Nat) (m : CppMsg), s.up = true → (s.cp port).state = .up → (s.cp port).fromChip.reqHdr = 0 →
    exec (.cppRead port m) s = .next (s.quarantine port 5) ∧ exec (.cppSignal port m) s = .next (s.quarantine port 5) ∧
    exec (.cppComplete port m) s = .next (s.quarantine port 5))

/-- Requests of a foreign engine (R523, R524, R537, R543 to R548, R550, R551, R556). A READ of memory that its context may
read is answered with the bytes and a WRITE that it may write puts its data there, on credit; a SIGNAL signals; COMPLETE
frees the engine and ends its launch; acknowledgements clear what waited for them. -/
def Obligations.ChipletRequests : Prop :=
  (∀ (s : State) (port : Nat) (a : BitVec 64), s.up = true → (s.cp port).state = .up → (s.cp port).txq = [] →
    exec (.cppCredit port { cppZero with arg0 := a }) s = .next (s.setCp port { s.cp port with
      toChip := (s.cp port).toChip.add (fld a.toNat 31 16) (fld a.toNat 47 32) (fld a.toNat 63 48) (fld a.toNat 15 0) })) ∧
  (∀ (s : State) (port n : Nat) (fe : BitVec 8) (tag : BitVec 16) (va : BitVec 64) (b c : CpCredits) (r : ReadRes),
    s.up = true → (s.cp port).state = .up → (s.cp port).fromChip.spend 1 0 = some b → fe.toNat < 16 →
    (s.fe_ (16 * port + fe.toNat)).state = 3 → (s.fe_ (16 * port + fe.toNat)).signals = [] → (s.cp port).held = [] →
    (s.cp port).txq = [] → n < 2 ^ 64 → linesOk va.toNat n = true →
    (s.cp port).toChip.spend 2 ((n + 3) / 4) = some c →
    s.readVa (s.whoFe (s.fe_ (16 * port + fe.toNat)) 8) [] va.toNat (64 * n) = r → r.stop = none → r.viol.lines = 0 → ∃ t,
    exec (.cppRead port { cppZero with fe := fe, tag := tag, addr := va, arg0 := BitVec.ofNat 64 n }) s = .next t ∧
    t.out = s.out ++ [.cpp port 3 { cppZero with arg0 := 0x10000 },
      .cpp port 7 { cppZero with fe := fe, tag := tag, lines := BitVec.ofNat 8 n, data := r.bytes }] ∧
    (t.cp port).toChip = c ∧ (t.cp port).readLines = bump (s.cp port).readLines ((r.dev + r.host) / 64) ∧
    (t.cp port).held = [] ∧ t.mem = s.mem ∧ t.hostMem = s.hostMem ∧ t.engines = s.engines ∧ t.units = s.units) ∧
  (∀ (s u : State) (port : Nat) (fe : BitVec 8) (tag : BitVec 16) (va : BitVec 64) (ds : List Byte) (host : Bool)
    (b : CpCredits), s.up = true → (s.cp port).state = .up → (s.cp port).fromChip.spend 1 1 = some b → fe.toNat < 16 →
    (s.fe_ (16 * port + fe.toNat)).state = 3 → (s.fe_ (16 * port + fe.toNat)).signals = [] → (s.cp port).held = [] →
    (s.cp port).txq = [] → 1 ≤ (s.cp port).toChip.rspHdr → ds.length = 64 → va.toNat % 64 = 0 →
    s.writeLine (s.whoFe (s.fe_ (16 * port + fe.toNat)) 9) [] va.toNat ds = .done u host → s.isJob
      (s.fe_ (16 * port + fe.toNat)).ctx = false → ∃ t,
    exec (.cppWrite port { cppZero with fe := fe, tag := tag, addr := va, lines := 1, data := ds }) s = .next t ∧
    t.mem = u.mem ∧ t.hostMem = u.hostMem ∧
    t.out = s.out ++ [.cpp port 3 { cppZero with arg0 := 0x100010000 }, .cpp port 9 { cppZero with fe := fe, tag := tag }] ∧
    (t.cp port).writeLines = bump (s.cp port).writeLines 1 ∧ (t.cp port).held = [] ∧ t.engines = s.engines ∧
    t.units = s.units) ∧
  (∀ (s : State) (port : Nat) (fe : BitVec 8) (h : BitVec 32) (b : CpCredits), s.up = true → (s.cp port).state = .up →
    (s.cp port).fromChip.spend 1 0 = some b → fe.toNat < 16 → (s.fe_ (16 * port + fe.toNat)).state = 3 →
    (s.fe_ (16 * port + fe.toNat)).signals = [] → (s.fe_ (16 * port + fe.toNat)).cmd = none → (s.cp port).held = [] →
    (s.cp port).txq = [] → h ≠ 0 → s.fenceValid (s.fe_ (16 * port + fe.toNat)).ctx h none = true → ∃ t,
    exec (.cppSignal port { cppZero with fe := fe, arg0 := BitVec.ofNat 64 h.toNat }) s = .next t ∧
    t.fenceWire = s.fenceWire ++ [⟨h, 0⟩] ∧ t.out = s.out ++ [.cpp port 3 { cppZero with arg0 := 0x10000 }] ∧
    (t.fe_ (16 * port + fe.toNat)).state = 3 ∧ t.mem = s.mem ∧ t.fences = s.fences ∧ t.ctxs = s.ctxs) ∧
  (∀ (s : State) (port id : Nat) (fe : BitVec 8) (tag : BitVec 16) (b : CpCredits) (m : Cmd) (d : Desc),
    s.up = true → (s.cp port).state = .up → (s.cp port).fromChip.spend 1 0 = some b → fe.toNat < 16 →
    (s.fe_ (16 * port + fe.toNat)).state = 3 → (s.fe_ (16 * port + fe.toNat)).tag = tag → (s.cp port).held = [] →
    (s.fe_ (16 * port + fe.toNat)).cmd = some id → (s.fe_ (16 * port + fe.toNat)).step = none → (s.cp port).txq = [] →
    tfind s.cmds id = some m → m.isPacket = false → m.desc = some d → m.wgEnded + 1 < d.workgroups →
    (s.ctx m.ctx).state = .live → ∃ t,
    exec (.cppComplete port { cppZero with fe := fe, tag := tag }) s = .next t ∧
    (t.fe_ (16 * port + fe.toNat)).state = 1 ∧ (t.fe_ (16 * port + fe.toNat)).cmd = none ∧ tfind t.cmds id = some
      { m with foreign := m.foreign.filter fun w => w ≠ (16 * port + fe.toNat, (s.fe_ (16 * port + fe.toNat)).wg),
               wgEnded := m.wgEnded + 1 } ∧ t.mem = s.mem ∧ t.fenceWire = s.fenceWire ∧ t.units = s.units) ∧
  (∀ (s : State) (port id : Nat) (fe : BitVec 8) (tag : BitVec 16) (b : CpCredits) (m : Cmd) (d : Desc),
    s.up = true → (s.cp port).state = .up → (s.cp port).fromChip.spend 1 0 = some b → fe.toNat < 16 →
    (s.fe_ (16 * port + fe.toNat)).state = 3 → (s.fe_ (16 * port + fe.toNat)).tag = tag → (s.cp port).held = [] →
    (s.fe_ (16 * port + fe.toNat)).cmd = some id → (s.fe_ (16 * port + fe.toNat)).step = none → (s.cp port).txq = [] →
    tfind s.cmds id = some m → m.isPacket = false → m.desc = some d → m.wgEnded + 1 = d.workgroups → m.op = 2 →
    m.foreign = [(16 * port + fe.toNat, (s.fe_ (16 * port + fe.toNat)).wg)] → s.cmdLaunches id = [] → m.code = 0 →
    (s.ctx m.ctx).state = .live → ∃ t,
    exec (.cppComplete port { cppZero with fe := fe, tag := tag }) s = .next t ∧
    (t.fe_ (16 * port + fe.toNat)).state = 1 ∧ tfind t.cmds id = none ∧ t.fenceWire =
      (if m.handle = 0 then s.fenceWire else s.fenceWire ++ [⟨m.handle, 0⟩]) ∧ t.mem = s.mem ∧ t.units = s.units) ∧
  (∀ (s : State) (port : Nat) (tag : BitVec 16) (h : CpHeld), s.up = true → (s.cp port).state = .up →
    (s.cp port).held = [h] → h.tag = tag → h.ready = true → (s.cp port).txq = [] → h.lines < 65 →
    1 ≤ (s.cp port).toChip.rspHdr → (h.lines + 3) / 4 ≤ (s.cp port).toChip.rspData → ∃ t,
    exec (.readDataSend port tag) s = .next t ∧ (t.cp port).held = [] ∧ t.out = s.out ++ [.cpp port 7
      { cppZero with fe := BitVec.ofNat 8 h.fe, tag := tag, lines := BitVec.ofNat 8 h.lines, data := h.data }] ∧
    { t with cps := s.cps, out := s.out } = s) ∧
  (∀ (s : State) (port id : Nat) (tag : BitVec 16) (b : CpCredits), s.up = true → (s.cp port).state = .up →
    (s.cp port).fromChip.spend 2 0 = some b → (s.cp port).invals = [(tag, id)] → (s.cp port).txq = [] → ∃ t,
    exec (.cppInvalAck port { cppZero with tag := tag }) s = .next t ∧ (t.cp port).invals = [] ∧
    (t.cp port).fromChip = (s.cp port).fromChip ∧ (t.cp port).state = .up ∧
    { t with cps := s.cps, out := s.out } = s) ∧
  (∀ (s : State) (port : Nat) (fe : BitVec 8) (tag : BitVec 16) (b : CpCredits), s.up = true → (s.cp port).state = .up →
    (s.cp port).fromChip.spend 2 0 = some b → fe.toNat < 16 → (s.fe_ (16 * port + fe.toNat)).state = 4 →
    (s.fe_ (16 * port + fe.toNat)).quiesceTag = some tag → (s.fe_ (16 * port + fe.toNat)).cmd = none →
    (s.fe_ (16 * port + fe.toNat)).step = none → (s.cp port).held = [] → (s.cp port).txq = [] → ∃ t,
    exec (.cppQuiesceAck port { cppZero with flags := 1, fe := fe, tag := tag }) s = .next t ∧
    (t.fe_ (16 * port + fe.toNat)).state = 1 ∧ (t.fe_ (16 * port + fe.toNat)).quiesceTag = none ∧
    (t.cp port).state = .up ∧ { t with cps := s.cps, out := s.out } = s) ∧
  (∀ (s : State) (port : Nat) (tag : BitVec 16), s.up = true → (s.cp port).state = .up →
    (s.cp port).resetTag = some tag → (∀ f ∈ (s.cp port).fes, f.2.state ≠ 3 ∧ f.2.state ≠ 4) →
    exec (.cppResetAck port { cppZero with flags := 1, tag := tag }) s =
      .next (s.setCp port { s.cp port with resetTag := none }))

/-- Training of a fabric port (R565 to R571, R600, Tables 12-2, 12-3). Each state of the training ends with the next one,
or in DOWN with its cause; the width is 8, 6 or 4 by the common lanes; IDENT passes only where release, size class and
wiring agree, and gives a hub without an ID the one its peer implies; CALIBRATE ends with HOP_NS and a port that is ACTIVE
with all its credits. -/
def Obligations.FabricTraining : Prop :=
  (∀ (s : State) (p : Nat), s.decodes .pf = true → s.mayTrain p = true → (s.fp p).state = .down →
    exec (.fpTrain p) s = .next (s.setFp p { s.fp p with state := .detect, retraining := false })) ∧
  (∀ (s : State) (p : Nat), s.mayTrain p = false ∨ (s.fp p).state ≠ .down → exec (.fpTrain p) s = .next s) ∧
  (∀ (s : State) (p : Nat) (v : BitVec 64), s.decodes .pf = true → p < s.build.fabricPorts → bit v.toNat 1 = false →
    exec (.fpDisable p v) s = .next (s.setFp p { s.fp p with disable := false })) ∧
  (∀ (s : State) (p : Nat) (v : BitVec 64), s.decodes .pf = true → p < s.build.fabricPorts → bit v.toNat 1 = true →
    exec (.fpDisable p v) s = .next ((s.setFp p { s.fp p with disable := true }).portDown p 13)) ∧
  (∀ (s : State) (p : Nat) (lanes : BitVec 8), s.up = true → p < s.build.fabricPorts → (s.fp p).state = .detect →
    4 ≤ (laneList (s.goodLanes p lanes)).length →
    exec (.laneDetect p lanes) s = .next (s.setFp p { s.fp p with state := .equalise })) ∧
  (∀ (s : State) (p : Nat) (lanes : BitVec 8), s.up = true → p < s.build.fabricPorts → (s.fp p).state = .equalise →
    4 ≤ (laneList (s.goodLanes p lanes)).length → exec (.equaliseStable p lanes) s =
      .next (s.setFp p { s.fp p with state := .align, locked := (s.goodLanes p lanes).toNat })) ∧
  (∀ (s : State) (p n w : Nat) (lanes : BitVec 8) (common : List Nat), s.up = true → p < s.build.fabricPorts →
    (s.fp p).state = .align → laneList (BitVec.ofNat 8 (s.fp p).locked &&& lanes) = common → common.length = n →
    (w = 8 ∧ n = 8 ∨ w = 6 ∧ 6 ≤ n ∧ n < 8 ∨ w = 4 ∧ 4 ≤ n ∧ n < 6) →
    ((s.fp p).retraining = true → w ≤ (s.fp p).width) → exec (.alignComplete p lanes) s =
      .next (s.setFp p { s.fp p with state := .ident, width := w, laneMask := bitsMask (common.take w) })) ∧
  (∀ (s : State) (p : Nat), s.up = true → p < s.build.fabricPorts →
    ((s.fp p).state = .detect → exec (.detectTimeout p) s = .next (s.portDown p 1)) ∧
    ((s.fp p).state = .equalise → exec (.equaliseTimeout p) s = .next (s.portDown p 2)) ∧
    ((s.fp p).state = .align → exec (.alignFail p) s = .next (s.portDown p 3)) ∧
    ((s.fp p).state = .ident → exec (.identTimeout p) s = .next (s.portDown p 4)) ∧
    ((s.fp p).state ≠ .active → exec (.trainTimeout p) s = .next (s.portDown p 10))) ∧
  (∀ (s : State) (p : Nat) (h : BitVec 16) (peer : PeerIdent), s.up = true → p < s.build.fabricPorts →
    (s.fp p).state = .ident → s.fab.idValid = true → peer.hub = some h → peer.major = blockRelease / 256 →
    peer.sizeClass = s.build.sizeClass → (s.build.fabricPorts = 8 → hubX h.toNat = 0 ∧ hubY h.toNat = 0) →
    wiredPeer s.build.fabricPorts s.fab.hubId p = some (h.toNat, peer.port) → (s.fp p).retraining = false →
    exec (.identExchange p peer) s = .next (s.setFp p { s.fp p with
      state := .calibrate, peerHub := h.toNat,
      peerPort := peer.port, peerRelease := peer.major % 256 * 256 + peer.minor % 256 })) ∧
  (∀ (s : State) (p id : Nat) (h : BitVec 16) (peer : PeerIdent), s.up = true → p < s.build.fabricPorts →
    (s.fp p).state = .ident → s.fab.idValid = false → peer.hub = some h → peer.major = blockRelease / 256 →
    peer.sizeClass = s.build.sizeClass → (s.build.fabricPorts = 8 → hubX h.toNat = 0 ∧ hubY h.toNat = 0) →
    wiredPeer s.build.fabricPorts h.toNat peer.port = some (id, p) →
    wiredPeer s.build.fabricPorts id p = some (h.toNat, peer.port) → (s.fp p).retraining = false → ∃ t,
    exec (.identExchange p peer) s = .next t ∧ t.fab.idValid = true ∧ t.fab.hubId = id ∧ (t.fp p).state = .calibrate ∧
    (t.fp p).peerHub = h.toNat ∧ (t.fp p).peerPort = peer.port ∧ t.mem = s.mem ∧ t.ctxs = s.ctxs ∧ t.engines = s.engines) ∧
  (∀ (s : State) (p : Nat) (h : BitVec 16) (peer : PeerIdent), s.up = true → p < s.build.fabricPorts →
    (s.fp p).state = .ident → s.fab.idValid = true → peer.hub = some h → peer.major = blockRelease / 256 →
    (peer.sizeClass ≠ s.build.sizeClass → exec (.identExchange p peer) s = .next (s.portDown p 7)) ∧
    (peer.sizeClass = s.build.sizeClass → s.build.fabricPorts ≠ 8 →
      wiredPeer s.build.fabricPorts s.fab.hubId p ≠ some (h.toNat, peer.port) →
      exec (.identExchange p peer) s = .next (s.portDown p 5))) ∧
  (∀ (s : State) (p : Nat) (peer : PeerIdent), s.up = true → p < s.build.fabricPorts → (s.fp p).state = .ident →
    peer.hub = none → exec (.identExchange p peer) s = .next s) ∧
  (∀ (s : State) (p : Nat) (trips : List (Nat × Nat)), s.up = true → p < s.build.fabricPorts →
    (s.fp p).state = .calibrate → trips.length = 64 → 1000 < hopOf trips →
    exec (.calibrateComplete p trips) s = .next (s.portDown p 9)) ∧
  (∀ (s : State) (p : Nat) (trips : List (Nat × Nat)), s.up = true → p < s.build.fabricPorts →
    (s.fp p).state = .calibrate → trips.length = 64 → hopOf trips ≤ 1000 → (s.fp p).retraining = false →
    (s.fp p).txQueue = [] → s.fwRuns = false → s.units.parts = [] → ∃ t,
    exec (.calibrateComplete p trips) s = .next t ∧ t.fp p = { s.fp p with
      state := .active, hopNs := hopOf trips, txSeq := 0, rxSeq := 0, nakSent := false, buffer := [], credits := freshCredits s.build.fabricPorts p } ∧
    (∀ q, q ≠ p → t.fp q = s.fp q) ∧ { t with fps := s.fps, boot := s.boot } = s) ∧
  (∀ (s : State) (p cause : Nat), (s.fp p).state ≠ .down → (s.fp p).state ≠ .active → (s.fp p).retraining = false →
    (s.fp p).buffer = [] → (s.fp p).txQueue = [] → s.units.parts = [] → s.fab.route = [] → s.fab.parked = [] →
    s.fab.out = [] → ∃ t, s.portDown p cause = t ∧ t.fp p = { s.fp p with
      state := .down, cause := cause, laneMask := 0,
      locked := 0, width := 0, admitted := false, refused := false, discarded := bump (s.fp p).discarded 0 } ∧
    (∀ q, q ≠ p → t.fp q = s.fp q) ∧ { t with fps := s.fps, boot := s.boot } = s)

/-- The wiring rule is one relation seen from either end (R592, R593): where it gives port p' of hub h' as the peer of
port p of hub h, it gives port p of hub h as the peer of port p' of hub h'. -/
def Obligations.WiringIsSymmetric : Prop :=
  ∀ ports h p h' p', (ports = 8 ∧ h < 8 ∨ ports = 20 ∧ h < 8192) → wiredPeer ports h p = some (h', p') →
    h' < 8192 ∧ p' < ports ∧ h' ≠ h ∧ wiredPeer ports h' p' = some (h, p)

/-- The link layer (R568, R570, R575 to R580, R588). An ACTIVE port that loses a lane, sees too many uncorrectable
codewords, or hears of its peer's RETRAIN retrains, and says so; the symbols that the FEC corrects are counted, whatever
the flit; a flit with a bad CRC, or out of sequence, is not accepted; an accepted one delivers its messages; what is not
acknowledged in time is sent again, the eighth time with a RETRAIN; a bad message is discarded, counted and reported. -/
def Obligations.FabricLinkLayer : Prop :=
  (∀ (s : State) (p lane : Nat), s.up = true → p < s.build.fabricPorts → bit (s.fp p).laneMask lane = true →
    exec (.laneLockLoss p lane) s = .next (s.portRetrain p 2)) ∧
  (∀ (s : State) (p lane : Nat), bit (s.fp p).laneMask lane = false → exec (.laneLockLoss p lane) s = .next s) ∧
  (∀ (s : State) (p cause : Nat), (s.fp p).state = .active → s.units.parts = [] → cause ≠ 14 → ∃ t,
    s.portRetrain p cause = t ∧ t.fp p = { s.fp p with
      state := .equalise, retraining := true, cause := cause,
      retrains := min ((s.fp p).retrains + 1) 255, locked := 0 } ∧ t.out = s.out ++ [.linkNote p 1] ∧
    (∃ m, t.sage.wire = s.sage.wire ++ [m] ∧ m.source = BitVec.ofNat 12 (0x408 + 16 * p) ∧ m.kind = 6) ∧
    (∀ q, q ≠ p → t.fp q = s.fp q) ∧ t.mem = s.mem ∧ t.ctxs = s.ctxs ∧ t.fab = s.fab ∧ t.thyme = s.thyme) ∧
  (∀ (s : State) (p : Nat), s.up = true → p < s.build.fabricPorts → (s.fp p).state = .active → ∃ n, 17 ≤ n ∧
    exec (.fecErrorRate p) s = .next ((State.setFp { s with freeCtr := s.freeCtr + 1 } p { s.fp p with
      fecUncorrectable := bump (s.fp p).fecUncorrectable n }).portRetrain p 12)) ∧
  (∀ (s : State) (p : Nat) (f : Flit), s.up = true → p < s.build.fabricPorts → (s.fp p).state = .active → f.corrected ≠ 0 →
    exec (.flitReceive p f) s = exec (.flitReceive p { f with corrected := 0 })
      (s.setFp p { s.fp p with fecCorrected := bump (s.fp p).fecCorrected f.corrected })) ∧
  (∀ (s : State) (p : Nat) (f : Flit), s.up = true → p < s.build.fabricPorts → (s.fp p).state = .active →
    f.corrected = 0 → f.lines ≠ 0 →
    (f.crcGood = false → exec (.flitReceive p f) s = .next (s.setFp p { s.fp p with
      crcErrors := bump (s.fp p).crcErrors 1, nakSent := true })) ∧
    (f.crcGood = true → f.seq.toNat ≠ (s.fp p).rxSeq →
      exec (.flitReceive p f) s = .next (s.setFp p { s.fp p with nakSent := true }))) ∧
  (∀ (s : State) (p : Nat) (f : Flit), f.corrected = 0 → f.lines = 0 → f.crcGood = false →
    exec (.flitReceive p f) s = .next s) ∧
  (∀ (s : State) (p : Nat) (f : Flit), s.up = true → p < s.build.fabricPorts → (s.fp p).state = .active →
    f.corrected = 0 → f.lines = 0 → f.crcGood = true → f.nak = false → f.ackValid = true → f.credLines = 0 → f.cred2Lines = 0 →
    (s.fp p).txQueue = [] → exec (.flitReceive p f) s = .next (s.setFp p { s.fp p with
      buffer := (s.fp p).buffer.filter fun g => 2048 ≤ (f.ackSeq.toNat + 4096 - g.seq) % 4096 })) ∧
  (∀ (s : State) (p : Nat) (f : Flit) (m : OfpMsg), s.up = true → p < s.build.fabricPorts → (s.fp p).state = .active →
    f.corrected = 0 → f.lines ≠ 0 → f.crcGood = true → f.seq.toNat = (s.fp p).rxSeq → f.nak = false → f.ackValid = false → f.credLines = 0 →
    f.cred2Lines = 0 → (s.fp p).txQueue = [] → f.msgs = [m] → m.type ≠ 0 → m.type.toNat ≤ 0x0B → m.lines.toNat ≤ 64 →
    msgVc m ≠ 3 → m.sourceRouted = false → (s.fp p).refused = false → s.fwRuns = true → m.dstHub.toNat = s.myHub →
    exec (.flitReceive p f) s = .next (State.setFp { s with fab := { s.fab with inbox := s.fab.inbox ++ [(p, m)] } } p
      { s.fp p with rxSeq := ((s.fp p).rxSeq + 1) % 4096, nakSent := false, rxFlits := bump (s.fp p).rxFlits 1 })) ∧
  (∀ (s : State) (p : Nat), s.up = true → p < s.build.fabricPorts → (s.fp p).state = .active → (s.fp p).buffer ≠ [] →
    (∀ f ∈ (s.fp p).buffer, f.sent < 7) → exec (.replayTimeout p) s = .next ((s.setFp p { s.fp p with
      buffer := (s.fp p).buffer.map fun f => { f with sent := f.sent + 1 },
      replays := bump (s.fp p).replays (s.fp p).buffer.length }).sageFail (0x408 + 16 * p) 5)) ∧
  (∀ (s : State) (p : Nat), s.up = true → p < s.build.fabricPorts → (s.fp p).state = .active →
    (∃ f ∈ (s.fp p).buffer, f.sent = 7) → exec (.replayTimeout p) s = .next (((s.setFp p { s.fp p with
      buffer := (s.fp p).buffer.map fun f => { f with sent := f.sent + 1 },
      replays := bump (s.fp p).replays (s.fp p).buffer.length }).sageFail (0x408 + 16 * p) 5).portRetrain p 11)) ∧
  (∀ (s : State) (p : Nat), s.up = true → p < s.build.fabricPorts → exec (.ofpUndefinedMessage p) s =
    .next ((s.setFp p { s.fp p with discarded := bump (s.fp p).discarded 1 }).sageFail (0x409 + 16 * p) 7)) ∧
  (∀ (s : State) (p : Nat) (m : OfpMsg), s.up = true → p < s.build.fabricPorts → m.type = 0x0B →
    (fld m.f10.toNat 7 0 = 1 → exec (.linkNote p m) s = .next ((s.takeInbox p m).portRetrain p 14)) ∧
    (fld m.f10.toNat 7 0 = 2 → (s.fp p).state = .active →
      exec (.linkNote p m) s = .next ((s.takeInbox p m).portDown p 14)))

/-- Messages between hubs (R335, R336, R423, R590, R591, R597, R605 to R609, R654, R656). A signal that the hub accepts is
signalled and answered, one that it refuses is answered so, and a duplicate gets the recorded answer; answers complete
what waited for them; a partial is kept, refused or put off, and sent again or abandoned; a peer whose manifest differs is
not admitted; a member is a hub heard of, until it is left out. -/
def Obligations.FabricMessages : Prop :=
  (∀ (s : State) (port : Nat) (m : OfpMsg), s.hears port m 1 = true → s.e2eSeen m = none → ∃ t r,
    exec (.fabricSignal port m) s = .next t ∧ t.e2eSeen m = some r ∧ r.type = 2 ∧ r.e2eSeq = m.e2eSeq ∧
    r.dstHub = BitVec.ofNat 16 m.srcHub.toNat ∧ t.mem = s.mem ∧ t.fences = s.fences ∧
    (s.refAccepted m.f10.toNat = true →
      t.fenceWire = s.fenceWire ++ [⟨BitVec.ofNat 32 m.f10.toNat, 0⟩] ∧ r.f10 = 1 ∧ t.sage = s.sage) ∧
    (s.refAccepted m.f10.toNat = false → t.fenceWire = s.fenceWire ∧ r.f10 = 2 ∧
      t.fe.remoteRefused = bump s.fe.remoteRefused 1)) ∧
  (∀ (s : State) (port : Nat) (m r : OfpMsg), s.hears port m 1 = true → s.e2eSeen m = some r →
    exec (.fabricSignal port m) s = .next ((s.takeInbox port m).inject r)) ∧
  (∀ (s : State) (port id : Nat) (m : OfpMsg) (o : E2eOut), s.hears port m 2 = true →
    s.fab.find m.srcHub.toNat m.e2eSeq.toNat = some o → o.msg.type = 1 → o.cmd = some id →
    (fld m.f10.toNat 1 0 = 1 → exec (.fabricSignalAck port m) s =
      .next (((s.takeInbox port m).e2eDone m.srcHub.toNat m.e2eSeq.toNat).finishCmd id)) ∧
    (fld m.f10.toNat 1 0 = 2 → exec (.fabricSignalAck port m) s =
      .next ((((s.takeInbox port m).e2eDone m.srcHub.toNat m.e2eSeq.toNat).cmdFault id 2 15
        (o.msg.f10.toNat % 2 ^ 32)).finishCmd id))) ∧
  (∀ (s : State) (o : E2eOut), s.fab.out = [o] →
    s.e2eDone o.dst o.seq = { s with fab := { s.fab with out := [] } }) ∧
  (∀ (s : State) (port : Nat) (m : OfpMsg), s.hears port m 3 = true → m.sourceRouted = false → s.e2eSeen m = none →
    exec (.partialMsg port m) s = .next (((s.takeInbox port m).partialArrive m).1.e2eAnswer m 4
      ((s.takeInbox port m).partialArrive m).2)) ∧
  (∀ (s : State) (port : Nat) (m : OfpMsg), s.hears port m 3 = true → m.sourceRouted = true →
    exec (.partialMsg port m) s = .next ((s.takeInbox port m).partialArrive m).1) ∧
  (∀ (s : State) (m : OfpMsg) (u : Nat), s.partialAt (fld m.f18.toNat 12 5) = some u →
    (s.tagLive m.ownerTag = false → s.partialArrive m = (s, 2)) ∧
    (s.tagLive m.ownerTag = true → (s.ctx (tagCtx m.ownerTag)).fabric = true → fld m.f28.toNat 15 0 = 0 →
      64 * fld m.f30.toNat 63 48 > (m.data.drop 64).length → m.sourceRouted = true → ∃ rx,
      s.partialArrive m = (s.setCu u { s.cu u with rx := (s.cu u).rx ++ [rx] }, 1) ∧ rx.srcHub = m.srcHub.toNat ∧
      rx.total = fld m.f30.toNat 63 48 ∧ rx.got = m.data.drop 64 ∧ rx.part.owner = m.ownerTag ∧ rx.part.key = m.f10)) ∧
  (∀ (s : State) (port : Nat) (m : OfpMsg) (o : E2eOut), s.hears port m 4 = true →
    s.fab.find m.srcHub.toNat m.e2eSeq.toNat = some o → o.msg.type = 3 → o.answered = false →
    (fld m.f10.toNat 1 0 = 1 → o.rest = [] → exec (.partialAck port m) s =
      .next ((s.takeInbox port m).e2eDone m.srcHub.toNat m.e2eSeq.toNat)) ∧
    (∀ n l, fld m.f10.toNat 1 0 = 1 → o.rest = n :: l → exec (.partialAck port m) s =
      .next (((s.takeInbox port m).e2eDone m.srcHub.toNat m.e2eSeq.toNat).e2eSend
        { o with msg := n, rest := l, retrySince := none })) ∧
    (fld m.f10.toNat 1 0 = 2 → exec (.partialAck port m) s =
      .next (((s.takeInbox port m).e2eDone m.srcHub.toNat m.e2eSeq.toNat).credFault o 2)) ∧
    (fld m.f10.toNat 1 0 = 3 → s.fab.out = [o] → o.held = false → o.retrySince = none → ∃ t, exec (.partialAck port m) s = .next t ∧
      t.fab.out = [{ o with answered := true, retrySince := some s.now }] ∧ t.mem = s.mem ∧ t.ctxs = s.ctxs)) ∧
  (∀ (s : State) (dst : Nat) (seq : BitVec 16) (o : E2eOut), s.up = true → s.fab.find dst seq.toNat = some o →
    (o.answered = true → exec (.partialRetryResend dst seq) s = .next (State.e2eSend { s with fab := { s.fab with
      out := s.fab.out.filter fun u => !(u.dst = dst && u.seq = seq.toNat) } } { o with answered := false, held := false })) ∧
    (o.retrySince.isSome = true → exec (.partialAbandon dst seq) s = .next ((s.e2eDone dst seq.toNat).credFault o 3)) ∧
    (o.held = false → o.answered = false → exec (.e2eResendTimeout dst seq) s =
      .next { s.inject o.msg with ctxs := s.ctxs })) ∧
  (∀ (s : State) (p : Nat) (m : OfpMsg), s.up = true → p < s.build.fabricPorts → (s.fp p).state = .active → m.type = 8 →
    s.fwRuns = true → m.data.take 0x34 ≠ (s.manifest [] 0 0).take 0x34 → s.fab.route = [] → s.fab.parked = [] →
    s.fab.out = [] → ∃ t, exec (.manifest p m) s = .next t ∧ (t.fp p).admitted = false ∧ (t.fp p).refused = true ∧
    (∃ n, t.sage.wire = s.sage.wire ++ [n] ∧ n.source = BitVec.ofNat 12 (0x409 + 16 * p) ∧ n.kind = 7) ∧
    t.mem = s.mem ∧ t.ctxs = s.ctxs ∧ t.units = s.units) ∧
  (∀ (s : State) (p : Nat) (m : OfpMsg), s.up = true → p < s.build.fabricPorts → (s.fp p).state = .active → m.type = 8 →
    s.fwRuns = true → m.data.take 0x34 = (s.manifest [] 0 0).take 0x34 → s.fab.route = [] → s.fab.parked = [] →
    s.fab.out = [] → (s.fp p).peerHub ≠ s.myHub → ∃ t, exec (.manifest p m) s = .next t ∧ (t.fp p).admitted = true ∧
    (t.fp p).refused = false ∧ t.routeState (s.fp p).peerHub ≠ 0 ∧ t.mem = s.mem ∧ t.ctxs = s.ctxs ∧ t.units = s.units) ∧
  (∀ (s : State) (port : Nat) (m : OfpMsg), s.hears port m 0x0A = true → s.fwRuns = true →
    exec (.wmsg port m) s = .next ((s.takeInbox port m).join m.srcHub.toNat)) ∧
  (∀ (s : State) (v : BitVec 64), s.decodes .pf = true → 0 < s.build.fabricPorts →
    (∀ p, p < s.build.fabricPorts → (s.fp p).state = .down) → fld v.toNat 15 0 < 8192 → ∃ t,
    exec (.fabIdWrite v) s = .next t ∧ t.fab.idValid = true ∧ t.fab.hubId = fld v.toNat 15 0 ∧
    (s.thyme.state = 0 → (s.fab.idValid && s.fab.hubId == fld v.toNat 15 0) = false → t.thyme.root = fld v.toNat 15 0) ∧
    t.mem = s.mem ∧ t.ctxs = s.ctxs ∧ t.fps = s.fps) ∧
  (∀ (s : State) (v : BitVec 64), 8192 ≤ fld v.toNat 15 0 → exec (.fabIdWrite v) s = .next s) ∧
  (∀ (s : State) (h : BitVec 16) (p : Nat) (x : Part), s.up = true → s.routeState h.toNat = 2 → s.units.parts = [(p, x)] →
    s.scheduleRuns p = true → s.leads p = true → (s.jobHubs p).contains h.toNat = true → s.fab.out = [] → ∃ t,
    exec (.noRouteTimeout h) s = .next t ∧ t.routeState h.toNat = 0 ∧ h.toNat ∈ (t.sched p).expelled ∧
    (t.sched p).trigger = true ∧ t.mem = s.mem ∧ t.ctxs = s.ctxs ∧ t.units = s.units) ∧
  (∀ (s : State) (h : BitVec 16), s.up = true → s.routeState h.toNat ≠ 2 → exec (.noRouteTimeout h) s = .next s)

/-- Thyme over the fabric (R614 to R620, R622 to R624, Tables 13-1, 13-2). A message of the parent sets the lead to be
removed and the error; in ACQUIRING a lead above 1,000 ns is stepped over once; a lead is removed by one nanosecond in
10,000, and a great lag at half rate; a hub in LOCAL that hears of a root follows it; the timeouts choose a root or a
parent; the states follow the error bound of 40 ns. -/
def Obligations.ThymeExchange : Prop :=
  (∀ (s : State) (p : Nat) (m : OfpMsg) (t4 : BitVec 64) (lead2 : Int), s.up = true → p < s.build.fabricPorts →
    (s.fp p).state = .active → m.type = 9 → s.thyme.state = 1 → s.thyme.parent = p → fld m.f28.toNat 63 48 = s.thyme.root →
    s.thyme.rootEn = false → (s.fab.idValid = true → s.fab.hubId ≠ s.thyme.root) → fld m.f28.toNat 39 37 ≤ 4 → m.f20 ≠ 0 →
    lead2 = ((m.f20.toNat : Int) - m.f18.toNat) - ((t4.toNat : Int) - m.f10.toNat) → lead2.natAbs ≤ 2000 → ∃ t,
    exec (.thymeMsg p m t4) s = .next t ∧ t.thyme = { s.thyme with
      generation := fld m.f28.toNat 47 40, depth := fld m.f28.toNat 39 37 + 1, theta := BitVec.ofInt 32 (lead2 / 2),
      slew := lead2 / 2, rootChanged := false,
      errorNs := min (fld m.f28.toNat 31 16 + 5 + (lead2.natAbs + 1) / 2) 65535 } ∧
    (t.fp p).lastSend = m.f10.toNat ∧ (t.fp p).lastRecv = t4.toNat ∧ t.mem = s.mem ∧ t.units = s.units ∧ t.ctxs = s.ctxs) ∧
  (∀ (s : State) (p : Nat) (m : OfpMsg) (t4 : BitVec 64) (lead2 : Int), s.up = true → p < s.build.fabricPorts →
    (s.fp p).state = .active → m.type = 9 → s.thyme.state = 2 → s.thyme.stepped = false → s.thyme.parent = p →
    fld m.f28.toNat 63 48 = s.thyme.root → s.thyme.rootEn = false → (s.fab.idValid = true → s.fab.hubId ≠ s.thyme.root) →
    fld m.f28.toNat 39 37 ≤ 4 → m.f20 ≠ 0 →
    lead2 = ((m.f20.toNat : Int) - m.f18.toNat) - ((t4.toNat : Int) - m.f10.toNat) → 2002 ≤ lead2 → ∃ t,
    exec (.thymeMsg p m t4) s = .next t ∧ t.thyme.now = (s.thyme.now + (lead2 / 2).toNat) % 2 ^ 64 ∧
    t.thyme.stepped = true ∧ t.thyme.slew = 0 ∧ t.thyme.state = 2 ∧
    t.thyme.errorNs = min (fld m.f28.toNat 31 16 + 5) 65535 ∧ t.mem = s.mem ∧ t.units = s.units) ∧
  (∀ (s : State) (p : Nat) (m : OfpMsg) (t4 : BitVec 64), s.up = true → p < s.build.fabricPorts →
    (s.fp p).state = .active → m.type = 9 → s.thyme.state = 0 → s.thyme.rootEn = false →
    (s.fab.idValid = true → s.fab.hubId ≠ fld m.f28.toNat 63 48) → fld m.f28.toNat 39 37 ≤ 4 → m.f20 = 0 → ∃ t,
    exec (.thymeMsg p m t4) s = .next t ∧ t.thyme = { s.thyme with
      root := fld m.f28.toNat 63 48, generation := fld m.f28.toNat 47 40, depth := fld m.f28.toNat 39 37 + 1, parent := p,
      state := 2, stepped := false } ∧ t.mem = s.mem ∧ t.ctxs = s.ctxs) ∧
  (∀ t : Thyme, (0 < t.slew → t.phase = 0 → t.tick.now = (t.now + 2) % 2 ^ 64 ∧ t.tick.slew = t.slew - 1) ∧
    (t.slew < 0 → t.phase = 0 → t.state ≠ 2 → t.tick.now = t.now % 2 ^ 64 ∧ t.tick.slew = t.slew + 1) ∧
    (t.phase ≠ 0 → t.state ≠ 2 → t.tick.now = (t.now + 1) % 2 ^ 64 ∧ t.tick.slew = t.slew) ∧
    (t.state = 2 → t.slew < -1001 → t.phase % 2 = 0 → t.phase < 9999 →
      t.tick.tick.now = (t.now % 2 ^ 64 + 1) % 2 ^ 64 ∧ t.tick.tick.slew = t.slew + 1)) ∧
  (∀ (s : State) (p : Nat), s.up = true → p < s.build.fabricPorts → (s.fp p).state = .active →
    (∀ q, q ≠ p → (s.fp q).state ≠ .active) →
    exec .thymeSendTick s = .next (s.portSend p (s.thymeMessage (s.fp p)))) ∧
  (∀ (s : State) (x : FpPort), x.lastSend < 2 ^ 64 → x.lastRecv < 2 ^ 64 → s.thyme.now < 2 ^ 64 → s.thyme.root < 65536 →
    s.thyme.generation < 256 → s.thyme.depth < 8 → s.thyme.errorNs < 65536 → s.thyme.state < 4 →
    (s.thymeMessage x).type = 9 ∧ (s.thymeMessage x).f10.toNat = s.thyme.now ∧ (s.thymeMessage x).f18.toNat = x.lastSend ∧
    (s.thymeMessage x).f20.toNat = x.lastRecv ∧ fld (s.thymeMessage x).f28.toNat 63 48 = s.thyme.root ∧
    fld (s.thymeMessage x).f28.toNat 47 40 = s.thyme.generation ∧ fld (s.thymeMessage x).f28.toNat 39 37 = s.thyme.depth ∧
    fld (s.thymeMessage x).f28.toNat 31 16 = s.thyme.errorNs) ∧
  (∀ s : State, s.up = true → s.thyme.state ≠ 0 → s.thyme.rootEn = false → ∃ t,
    exec (.thymeRootTimeout []) s = .next t ∧ t.thyme.state = 0 ∧ t.thyme.parent = 31 ∧ t.thyme.depth = 0 ∧
    t.thyme.errorNs = 0 ∧ t.thyme.now = s.thyme.now ∧ t.thyme.generation = (s.thyme.generation + 1) % 256 ∧
    t.mem = s.mem ∧ t.ctxs = s.ctxs ∧ t.fps = s.fps) ∧
  (∀ (s : State) (r : BitVec 16), s.up = true → s.thyme.state ≠ 0 → s.thyme.rootEn = false →
    (s.fab.idValid = true → s.fab.hubId ≠ r.toNat) → ∃ t, exec (.thymeRootTimeout [r]) s = .next t ∧
    t.thyme = { s.thyme with root := r.toNat, generation := (s.thyme.generation + 1) % 256, parent := 31, rootChanged := true } ∧
    t.mem = s.mem ∧ t.ctxs = s.ctxs ∧ t.fps = s.fps) ∧
  (∀ (s : State) (q depth : Nat), s.up = true → s.thyme.state ≠ 0 → s.thyme.parent ≠ 31 → q < s.build.fabricPorts →
    (s.fp q).state = .active → 1 ≤ depth → depth ≤ 5 → exec (.thymeParentTimeout q depth) s = .next { s with thyme :=
      { s.thyme with parent := q, depth := depth, parentLosses := bump s.thyme.parentLosses 1 } }) ∧
  (∀ s : State, s.up = true → s.thyme.state ≠ 0 → s.thyme.parent = 31 → exec .thymeHoldoverTick s = .next { s with thyme :=
      { s.thyme with errorNs := min (s.thyme.errorNs + 1) 65535 } }) ∧
  (∀ s : State, s.up = true → (s.thyme.state = 2 ∨ s.thyme.state = 3) → s.thyme.errorNs ≤ 40 → ∃ t,
    exec .thymeStateTimer s = .next t ∧ t.thyme = { s.thyme with state := 1 } ∧ t.mem = s.mem ∧ t.ctxs = s.ctxs) ∧
  (∀ s : State, s.up = true → s.thyme.state = 1 → 40 < s.thyme.errorNs → s.units.parts = [] → s.sx = [] →
    exec .thymeStateTimer s = .next { s with thyme := { s.thyme with state := 3 } })

/-- The schedule block and the start of a schedule (R624, R631 to R640, R643, R645, R655, Tables 13-11, 13-12). A command
in a state that does not allow it ends with STATE, and one that comes too soon is lost; ADMIT answers with the code of its
checks, or admits; START arms, with engines pinned, unless it is late or Thyme is not good enough; the leader commits a
start all hubs voted for, or refuses it; SUSPEND, RESUME and UNLOAD change the state as the table says. -/
def Obligations.ScheduleCommands : Prop :=
  (∀ (s : State) (p code : Nat), ∃ t, s.sxDone p code = t ∧ t.sched p = { s.sched p with
    tag := (s.sched p).curTag, code := code, busy := false, done := true, op := 0 } ∧ t.mem = s.mem ∧ t.units = s.units ∧
    t.ctxs = s.ctxs ∧ t.engines = s.engines ∧ t.fenceWire = s.fenceWire) ∧
  (∀ (s : State) (p : Nat) (tag : BitVec 16), s.decodes .pf = true → s.fwRuns = true → p < s.build.partitions →
    (s.sched p).busy = true → exec (.sxStart p tag) s = .next (s.setSched p { s.sched p with lost := true }) ∧
    exec (.sxUnload p tag) s = .next (s.setSched p { s.sched p with lost := true })) ∧
  (∀ (s : State) (p : Nat) (tag : BitVec 16), s.sxFree p = true →
    ((s.sched p).state ≠ 0 → s.adminBusy = false → exec (.sxAdmit p tag) s = .next ((s.sxBegun p 1 tag).sxDone p 2)) ∧
    ((s.sched p).state ≠ 1 → exec (.sxStart p tag) s = .next ((s.sxBegun p 2 tag).sxDone p 2)) ∧
    ((s.sched p).state ≠ 3 → exec (.sxSuspend p tag) s = .next ((s.sxBegun p 3 tag).sxDone p 2)) ∧
    ((s.sched p).state ≠ 6 → exec (.sxResume p tag) s = .next ((s.sxBegun p 4 tag).sxDone p 2)) ∧
    ((s.sched p).state ≠ 1 → (s.sched p).state ≠ 7 → (s.sched p).state ≠ 8 →
      exec (.sxUnload p tag) s = .next ((s.sxBegun p 5 tag).sxDone p 2))) ∧
  (∀ (s : State) (p : Nat) (tag : BitVec 16) (op : BitVec 8), s.sxFree p = true → (op = 0 ∨ 5 < op.toNat) →
    exec (.sxUnknownOp p tag op) s = .next ((s.sxBegun p op.toNat tag).sxDone p 2)) ∧
  (∀ (s : State) (p : Nat) (tag : BitVec 16), s.sxFree p = true → s.adminBusy = false → (s.sched p).state = 0 →
    (s.sxBegun p 1 tag).admitCode p ≠ 0 →
    exec (.sxAdmit p tag) s = .next ((s.sxBegun p 1 tag).sxDone p ((s.sxBegun p 1 tag).admitCode p))) ∧
  (∀ (s : State) (p : Nat) (tag : BitVec 16), s.sxFree p = true → s.adminBusy = false → (s.sched p).state = 0 →
    (s.sxBegun p 1 tag).admitCode p = 0 → ∃ t, exec (.sxAdmit p tag) s = .next t ∧ (t.sched p).state = 1 ∧
    (t.sched p).code = 0 ∧ (t.sched p).busy = false ∧ (t.sched p).ctx = hIndex (s.sched p).imageCtx ∧ (t.sched p).alt = 0 ∧
    t.mem = s.mem ∧ t.units = s.units ∧ t.objs = s.objs ∧ t.fenceWire = s.fenceWire) ∧
  (∀ (s : State) (p : Nat), s.ctxValid (s.sched p).imageCtx = false → s.admitCode p = 7) ∧
  (∀ (s : State) (p : Nat) (tag : BitVec 16), s.sxFree p = true → (s.sched p).state = 1 → (s.sched p).iterations ≠ 0 →
    ((s.sched p).startBeat < s.beat + 4000 → exec (.sxStart p tag) s = .next ((s.sxBegun p 2 tag).sxDone p 6)) ∧
    (s.beat + 4000 ≤ (s.sched p).startBeat → (s.sched p).multi = true → (s.thyme.state = 0 ∨ s.thyme.state = 3) →
      exec (.sxStart p tag) s = .next ((s.sxBegun p 2 tag).sxDone p 5)) ∧
    (s.beat + 4000 ≤ (s.sched p).startBeat → (s.thyme.state = 1 ∨ s.thyme.state = 2 ∨ (s.sched p).multi = false) → ∃ t,
      exec (.sxStart p tag) s = .next t ∧ (t.sched p).state = 2 ∧ (t.sched p).busy = true ∧
      (∀ e ∈ (s.sched p).engines, e < s.build.engines → (t.engine e).pinned = true) ∧ t.mem = s.mem ∧ t.units = s.units)) ∧
  (∀ (s : State) (p : Nat) (tag : BitVec 16) (h : ImgHub), s.sxFree p = true → (s.sched p).state = 1 →
    (s.sched p).iterations = 0 → s.endEntry p = some h → h.endFence ≠ 0 → ∃ t, exec (.sxStart p tag) s = .next t ∧
    (t.sched p).state = 7 ∧ (t.sched p).code = 0 ∧ (t.sched p).busy = false ∧ t.fenceWire = s.fenceWire ++ [⟨h.endFence, 0⟩] ∧
    t.mem = s.mem) ∧
  (∀ (s : State) (p : Nat) (tag : BitVec 16), s.sxFree p = true → (s.sched p).state = 3 → ∃ t,
    exec (.sxSuspend p tag) s = .next t ∧ (t.sched p).state = 5 ∧ (t.sched p).code = 0 ∧ (t.sched p).busy = false ∧
    (t.sched p).suspendAsked = true ∧ t.mem = s.mem ∧ t.engines = s.engines) ∧
  (∀ (s : State) (p : Nat) (tag : BitVec 16), s.sxFree p = true → (s.sched p).state = 6 →
    (s.sxBegun p 4 tag).admitCode p = 0 → s.beat + 4000 ≤ (s.sched p).startBeat →
    (s.thyme.state = 1 ∨ s.thyme.state = 2 ∨ (s.sched p).multi = false) → ∃ t, exec (.sxResume p tag) s = .next t ∧
    (t.sched p).state = 2 ∧ (t.sched p).busy = true ∧ t.mem = s.mem ∧ t.units = s.units) ∧
  (∀ (s : State) (p : Nat) (tag : BitVec 16), s.sxFree p = true →
    ((s.sched p).state = 1 ∨ (s.sched p).state = 7 ∨ (s.sched p).state = 8) → ∃ t, exec (.sxUnload p tag) s = .next t ∧
    (t.sched p).state = 0 ∧ (t.sched p).image = [] ∧ (t.sched p).logs = [] ∧ (t.sched p).ckpts = [] ∧
    (t.sched p).code = 0 ∧ (t.sched p).busy = false ∧ t.mem = s.mem ∧ t.units = s.units) ∧
  (∀ (s : State) (p : Nat), s.up = true → (s.sched p).state = 2 → s.leads p = true →
    (∀ h ∈ imgHubs (s.sched p).image 0, ∃ v ∈ (s.sched p).votes, v.hub = h.hubId ∧ v.epoch = 0 ∧ v.healthy = true ∧
      v.digest = manifestDigest (s.manifest (s.sched p).digest 0 (s.sched p).alt)) →
    exec (.startDecision p) s =
      .next ((s.sendCommit p 0 (s.sched p).startBeat 1 0).startCommitted p 0 (s.sched p).startBeat)) ∧
  (∀ (s : State) (p : Nat), s.up = true → (s.sched p).state = 2 → s.leads p = true → (s.sched p).votes = [] →
    (s.sched p).header.altCount = 1 → imgHubs (s.sched p).image 0 ≠ [] → exec (.startDecision p) s =
      .next ((s.sendCommit p 0 (s.sched p).startBeat 2 (s.sched p).alt).startRefused p)) ∧
  (∀ (s : State) (p b : Nat), (s.myHubEntry (s.sched p).image (s.sched p).alt).isSome = true → ∃ t,
    s.startCommitted p (s.sched p).alt b = t ∧ (t.sched p).state = 3 ∧
    (t.sched p).origin = b - (s.sched p).afterBoundary (s.sched p).epoch ∧ (t.sched p).busy = false ∧ (t.sched p).code = 0 ∧
    t.mem = s.mem ∧ t.units = s.units ∧ t.fenceWire = s.fenceWire) ∧
  (∀ (s : State) (p : Nat), ∃ t, s.startRefused p = t ∧ (t.sched p).state = 1 ∧ (t.sched p).busy = false ∧
    (t.sched p).code = 5 ∧ t.mem = s.mem ∧ t.fenceWire = s.fenceWire) ∧
  (∀ (s : State) (p : Nat), s.up = true → (s.sched p).state = 2 → exec (.startBeatTimeout p) s = .next (s.startRefused p)) ∧
  (∀ (s : State) (port p : Nat) (m : OfpMsg), s.hearsJob port p 1 m = true → s.leads p = true → (s.sched p).state = 2 →
    exec (.schedVote port m) s = .next ((s.takeInbox port m).setSched p { s.sched p with
      votes := ⟨m.srcHub.toNat, m.f10.toNat, m.data.take 48, m.data.getD 48 0 = 1⟩ ::
        (s.sched p).votes.filter fun w => !(w.hub = m.srcHub.toNat && w.epoch = m.f10.toNat) })) ∧
  (∀ (s : State) (port p : Nat) (m : OfpMsg), s.hearsJob port p 2 m = true → m.srcHub.toNat = s.jobLeader p →
    (s.sched p).state = 2 → (m.data.getD 8 0 = 1 → exec (.schedCommit port m) s = .next
      ((s.takeInbox port m).startCommitted p (fld m.f18.toNat 55 48) (leAt m.data 0 8))) ∧
    (m.data.getD 8 0 ≠ 1 → exec (.schedCommit port m) s = .next ((s.takeInbox port m).startRefused p))) ∧
  (∀ (s : State) (port p : Nat) (m : OfpMsg), s.hearsJob port p 2 m = true → m.srcHub.toNat = s.jobLeader p →
    (s.sched p).state = 3 → (s.sched p).voting = some m.f10.toNat → m.data.getD 8 0 = 1 →
    exec (.schedCommit port m) s = .next ((s.takeInbox port m).commitBoundary p m.f10.toNat))

/-- A running schedule (R627, R630, R633, R634, R640, R644 to R650, Table 13-14). Steps and transfers are dispatched on
the job context; an overrun triggers a rollback; at an epoch boundary the allotments are saved and the hub votes; an
agreed boundary is committed; a rollback discards the steps and restores memory from the logs, and the part resumes; the
end signals END_FENCE. -/
def Obligations.ScheduleRuns : Prop :=
  (∀ (s : State) (p k : Nat) (t : ImgStep), s.up = true → ((s.sched p).state = 3 ∨ (s.sched p).state = 5) →
    (s.myPart p).steps[k]? = some t → (∀ r ∈ (s.sched p).running, r.step ≠ k) →
    ((s.ctx (s.sched p).ctx).state = .live → t.kind = 3 →
      exec (.beatStepDispatch p k) s = .next ((s.stepRuns p k t).copyStep p k t)) ∧
    ((s.ctx (s.sched p).ctx).state = .live → t.kind ≠ 3 →
      exec (.beatStepDispatch p k) s = .next ((s.stepRuns p k t).launchStep p k t)) ∧
    ((s.ctx (s.sched p).ctx).state ≠ .live →
      exec (.beatStepDispatch p k) s = .next ((s.stepRuns p k t).stepEnds p k 0x0A))) ∧
  (∀ (s : State) (p k : Nat) (t : ImgStep), (s.stepRuns p k t).sched p = { s.sched p with running := (s.sched p).running ++
    [{ step := k, deadline := s.beat + t.deadline, fence := t.fence }] }) ∧
  (∀ (s : State) (p k code : Nat) (r : StepRun), (s.sched p).running = [r] → r.step = k → r.isXfer = false → r.code = 0 →
    r.fence ≠ 0 → ((s.stepEnds p k code).sched p).running = [] ∧
    (s.stepEnds p k code).fenceWire = s.fenceWire ++ [⟨r.fence, code⟩] ∧ (s.stepEnds p k code).mem = s.mem) ∧
  (∀ (s s1 s2 : State) (p k u : Nat) (t : ImgStep) (a b : ReadRes) (d : Desc) (h : LaunchHeader),
    s.jobRead (s.sched p).ctx t.va 64 = a → a.stop = none → a.viol.lines = 0 →
    s.jobCharge p (s.sched p).ctx a.dev a.host = s1 → (s1.ctx (s.sched p).ctx).state = .live →
    LaunchHeader.ofBytes a.bytes = h → h.ok s1.build.arrays = true →
    s1.jobRead (s.sched p).ctx (h.constVa t.va) h.constLen = b → b.stop = none → b.viol.lines = 0 →
    s1.jobCharge p (s.sched p).ctx b.dev b.host = s2 → (s2.ctx (s.sched p).ctx).state = .live → h.desc b.bytes = d →
    (d.workgroups = 0 → s.launchStep p k t = s2.stepEnds p k 0) ∧
    (1 < d.workgroups → s.launchStep p k t = s2.badStep p k t.va) ∧
    (d.workgroups = 1 → t.kind = 1 → ((s.myPart p).units.find? fun x => x.type = 1 && x.index = t.unit).map (·.amount) = some u →
      d.arrays ≤ u → s.launchStep p k t = s2.startStep p k t d)) ∧
  (∀ (s : State) (p k : Nat) (t : ImgXfer) (a : ReadRes), s.up = true → ((s.sched p).state = 3 ∨ (s.sched p).state = 5) →
    (s.myPart p).xfers[k]? = some t → t.kind = 0 → (s.ctx (s.sched p).ctx).state = .live → 1 ≤ t.lines → t.lines ≤ 64 →
    s.jobRead (s.sched p).ctx t.srcVa (64 * t.lines) = a → a.stop = none → a.viol.lines = 0 →
    exec (.beatXferStart p k) s = .next ((s.jobCharge p (s.sched p).ctx a.dev a.host).schedSend p
      ((s.jobCharge p (s.sched p).ctx a.dev a.host).schedMsg p t 0 ((s.sched p).epochAt s.now) t.dstVa k 0 t.lines
        (a.bytes.take 4096)))) ∧
  (∀ (s u : State) (port p va : Nat) (m : OfpMsg), s.hearsJob port p 0 m = true →
    ((s.sched p).state = 3 ∨ (s.sched p).state = 5) → fld m.f18.toNat 47 0 + 64 * fld m.f20.toNat 31 0 = va → va % 64 = 0 →
    m.data.length = 64 → (s.takeInbox port m).writeJob ⟨(s.sched p).ctx, 5, ⟨0, 0⟩, []⟩ (List.range 16) va m.data =
      .done u false → ∃ t, exec (.schedXferData port m) s = .next t ∧ t.mem = u.mem ∧ t.hostMem = u.hostMem ∧
    t.engines = u.engines ∧ t.units = u.units) ∧
  (∀ (s : State) (p : Nat) (r : StepRun), s.up = true → ((s.sched p).state = 3 ∨ (s.sched p).state = 5) →
    r ∈ (s.sched p).running → r.deadline ≤ s.beat →
    exec (.overrun p) s = .next ((s.setSched p { s.sched p with trigger := true }).sageFail 0x282 5)) ∧
  (∀ (s : State) (p : Nat), (∀ r ∈ (s.sched p).running, s.beat < r.deadline) → (s.sched p).saving = none →
    exec (.overrun p) s = .next s) ∧
  (∀ (s : State) (p : Nat), s.up = true → ((s.sched p).state = 3 ∨ (s.sched p).state = 5) →
    (s.sched p).epoch < (s.sched p).epochAt s.now → exec (.epochBoundary p) s = .next (s.setSched p { s.sched p with
      saving := some ((s.sched p).epochAt s.now), passes := (s.sched p).passesAt s.beat })) ∧
  (∀ (s : State) (p e : Nat), s.up = true → (s.sched p).saving = some e → exec (.saveWindowEnd p) s = .next
    (((s.setSched p { s.sched p with
      saving := none, voting := some e, ckpts := (s.sched p).ckpts.filter (fun c => c.epoch = (s.sched p).epoch) ++
        [⟨e, (s.sched p).engines.zipIdx.map fun r => (r.2, s.allotBytes (s.sched p).ctx r.1)⟩] }).castVote p e).leaderCheck p)) ∧
  (∀ (s : State) (p e : Nat), s.leads p = true → s.jobHubs p = [s.myHub] → (s.sched p).voting = some e →
    (s.sched p).votes = [⟨s.myHub, e, manifestDigest (s.manifest (s.sched p).digest e (s.sched p).alt), true⟩] →
    s.leaderCheck p = (s.sendCommit p e (s.sched p).origin 1 (s.sched p).alt).commitBoundary p e) ∧
  (∀ (s : State) (p e : Nat), (s.sched p).state = 3 → s.commitBoundary p e = s.setSched p { s.sched p with
      epoch := e, voting := none, votes := (s.sched p).votes.filter (fun v => v.epoch > e),
      ckpts := (s.sched p).ckpts.filter (fun c => c.epoch = e), logs := (s.sched p).logs.filter fun b => e ≤ b.epoch }) ∧
  (∀ (s : State) (p e : Nat), (s.sched p).state = 5 → ((s.commitBoundary p e).sched p).state = 6 ∧
    ((s.commitBoundary p e).sched p).epoch = e ∧ (s.commitBoundary p e).mem = s.mem) ∧
  (∀ (s : State) (p e h : Nat), s.up = true → (s.sched p).voting = some e → s.leads p = true → h ∈ s.jobHubs p →
    (∀ v ∈ (s.sched p).votes, v.hub ≠ h ∨ v.epoch ≠ e) → ∃ t, exec (.voteWindowTimeout p) s = .next t ∧
    h ∈ (t.sched p).expelled ∧ (t.sched p).trigger = true ∧ (t.sched p).state = (s.sched p).state ∧
    { t with sx := s.sx } = s) ∧
  (∀ (s : State) (p : Nat), s.up = true → ((s.sched p).state = 3 ∨ (s.sched p).state = 5) → (s.sched p).trigger = true →
    (s.sched p).noRemedy = false → s.launches = [] → s.cps = [] → ∃ t, exec (.rollbackTrigger p) s = .next t ∧
    (t.sched p).state = 4 ∧ (t.sched p).running = [] ∧ (t.sched p).rollbacks = bump (s.sched p).rollbacks 1 ∧
    (t.sched p).stoppedAt = s.beat ∧ (t.sched p).logs = (s.sched p).logs ∧ (t.sched p).epoch = (s.sched p).epoch ∧
    t.mem = s.mem ∧ t.hostMem = s.hostMem ∧ t.fenceWire = s.fenceWire ∧ t.units = s.units) ∧
  (∀ (s : State) (p a n : Nat), s.up = true → (s.sched p).state = 4 → s.leads p = true → s.jobHubs p = [s.myHub] →
    s.pw.emergency = false → (s.sched p).reports = [] → (s.sched p).noRemedy = false →
    State.chooseAlt (s.setSched p { s.sched p with reports := [(s.myHub, (s.sched p).logLive)] }) p = some a → ∃ t,
    exec (.rollbackReport p s.myHub n) s = .next t ∧ (t.sched p).nextAlt = a ∧ (t.sched p).restart = some (State.restartBeat
      (s.setSched p { s.sched p with reports := [(s.myHub, (s.sched p).logLive)] }) p [(s.myHub, (s.sched p).logLive)]) ∧
    { t with sx := s.sx } = s) ∧
  (∀ (s : State) (p n : Nat), s.pw.emergency = true → exec (.rollbackReport p s.myHub n) s = .next s) ∧
  (∀ (s : State) (p b : Nat), s.up = true → (s.sched p).state = 4 → (s.sched p).trigger = false →
    (s.sched p).restart = some b → b ≤ s.beat → (s.sched p).afterExpel = false → (s.sched p).afterSuspend = false →
    (s.sched p).nextAlt = (s.sched p).alt → (s.myHubEntry (s.sched p).image (s.sched p).alt).isSome = true →
    (s.sched p).suspendAsked = false → ∃ t, exec (.restartBeat p) s = .next t ∧ (t.sched p).state = 3 ∧
    (t.sched p).origin = b - (s.sched p).afterBoundary (s.sched p).epoch ∧ (t.sched p).epoch = (s.sched p).epoch ∧
    t.mem = ((s.sched p).logs.reverse.foldl State.restoreLog s).mem ∧
    t.hostMem = ((s.sched p).logs.reverse.foldl State.restoreLog s).hostMem ∧ t.fenceWire = s.fenceWire) ∧
  (∀ (s : State) (b : LogBlock) (a : Nat), b.host = false → b.cells = [] →
    mread (s.restoreLog b).mem a = (if b.base ≤ a ∧ a < b.base + 65536 then 0 else mread s.mem a)) ∧
  (∀ (s : State) (b : LogBlock) (a : Nat) (v : Byte), b.host = false → b.cells = [(a, v)] →
    mread (s.restoreLog b).mem a = v) ∧
  (∀ (s : State) (p : Nat) (h : ImgHub), s.up = true → ((s.sched p).state = 3 ∨ (s.sched p).state = 5) →
    (s.sched p).ending = false → (s.sched p).running = [] → s.lastDeadline p ≤ (s.sched p).epoch * (s.sched p).epochBeats →
    s.endEntry p = some h → h.endFence ≠ 0 → (s.sched p).alt = 0 → ∃ t, exec (.scheduleEnd p) s = .next t ∧
    (t.sched p).state = 7 ∧ (t.sched p).passes = (s.sched p).iterations ∧ t.fenceWire = s.fenceWire ++ [⟨h.endFence, 0⟩] ∧
    t.mem = s.mem) ∧
  (∀ (s : State) (p : Nat) (h : ImgHub), s.up = true → (s.sched p).state = 3 → (s.sched p).ending = true →
    s.launches = [] → s.cps = [] → s.endEntry p = some h → h.endFence ≠ 0 → ∃ t, exec (.scheduleEnd p) s = .next t ∧
    (t.sched p).state = 7 ∧ t.fenceWire = s.fenceWire ++ [⟨h.endFence, 3⟩] ∧ t.mem = s.mem)

/-- Every step keeps the invariant: device memory and host memory keep their canonical form, and the size table stays one
that R49 allows. -/
def Obligations.StepKeepsInvariant : Prop :=
  ∀ s t : State, Inv s → step s = .next t → Inv t

/-- Every command completes, in every state, on everything but the queue of waiting commands: none stops the block, none
touches the queue or the size table, what has been sent stays sent, and no identity, free value or entropy draw of the
model (log 3) is used again. -/
def Obligations.EveryCommandCompletes : Prop :=
  ∀ (i : Instr) (s : State), ∃ t, exec i s = .next t ∧ t.pending = s.pending ∧ t.build = s.build ∧ s.out <+: t.out ∧
    s.nextId ≤ t.nextId ∧ s.freeCtr ≤ t.freeCtr ∧ s.lc.draws ≤ t.lc.draws

/-- In the safe state nothing but a hub reset changes what the hub holds (R45, R724): the safe state and its pin stay, and
so do memory, partitions, contexts, objects, fences, engines, ports, the fabric, Thyme and what is under way. -/
def Obligations.SafeStateHolds : Prop :=
  ∀ (i : Instr) (s : State), s.sage.safe = true → s.pins.por = false → s.pins.sysRst = false → i ≠ .porNAssert →
    i ≠ .sysRstNAssert → ∃ t, exec i s = .next t ∧ t.sage.safe = true ∧ t.sage.pin = s.sage.pin ∧ t.up = false ∧
    t.mem = s.mem ∧ t.hostMem = s.hostMem ∧ t.units = s.units ∧ t.ctxs = s.ctxs ∧ t.objs = s.objs ∧ t.fences = s.fences ∧
    t.engines = s.engines ∧ t.cps = s.cps ∧ t.fps = s.fps ∧ t.fab = s.fab ∧ t.thyme = s.thyme ∧ t.boot = s.boot
end

