-- ==== Sys2Proof/Laws/Table.lean ====
section
/-! SUPPORT. Laws of the finite tables and of byte memories: what a read answers after a write, and that every memory
operation keeps the canonical form. -/

namespace Sys2Proof.Machine

/-! ### Tables -/

@[simp] theorem tget_nil {α : Type} (d : α) (k : Nat) : tget d [] k = d := rfl

@[simp] theorem tfind_nil {α : Type} (k : Nat) : tfind ([] : Table α) k = none := rfl

@[simp] theorem tget_tput {α : Type} (d : α) (t : Table α) (k : Nat) (v : α) : tget d (tput t k v) k = v := by
  induction t with
  | nil => simp [tput, tget]
  | cons e t ih =>
    obtain ⟨k', v'⟩ := e
    unfold tput
    split
    · simp [tget]
    · rename_i h
      split
      · simp [tget]
      · simp [tget, h, ih]

theorem tget_tput_ne {α : Type} (d : α) (t : Table α) {j k : Nat} (v : α) (h : j ≠ k) :
    tget d (tput t k v) j = tget d t j := by
  induction t with
  | nil => simp [tput, tget, h]
  | cons e t ih =>
    obtain ⟨k', v'⟩ := e
    unfold tput
    split
    · rename_i e; subst e; simp [tget, h]
    · split
      · simp [tget, h]
      · simp only [tget]; split <;> simp [ih]

@[simp] theorem tfind_tput {α : Type} (t : Table α) (k : Nat) (v : α) : tfind (tput t k v) k = some v := by
  induction t with
  | nil => simp [tput, tfind]
  | cons e t ih =>
    obtain ⟨k', v'⟩ := e
    unfold tput
    split
    · simp [tfind]
    · rename_i h
      split
      · simp [tfind]
      · simp [tfind, h, ih]

theorem tfind_tput_ne {α : Type} (t : Table α) {j k : Nat} (v : α) (h : j ≠ k) : tfind (tput t k v) j = tfind t j := by
  induction t with
  | nil => simp [tput, tfind, h]
  | cons e t ih =>
    obtain ⟨k', v'⟩ := e
    unfold tput
    split
    · rename_i e; subst e; simp [tfind, h]
    · split
      · simp [tfind, h]
      · simp only [tfind]; split <;> simp [ih]

@[simp] theorem tput_tput {α : Type} (t : Table α) (k : Nat) (v w : α) : tput (tput t k v) k w = tput t k w := by
  induction t with
  | nil => simp [tput]
  | cons e t ih =>
    obtain ⟨k', v'⟩ := e
    by_cases h : k = k'
    · simp [tput, h]
    · by_cases hl : k < k'
      · simp [tput, h, hl]
      · simp [tput, h, hl, ih]

/-- The listed entry is what a read with a default answers. -/
theorem tget_of_tfind {α : Type} (d : α) {t : Table α} {k : Nat} {v : α} (h : tfind t k = some v) : tget d t k = v := by
  induction t with
  | nil => simp at h
  | cons e t ih =>
    obtain ⟨k', v'⟩ := e
    simp only [tfind, tget] at *
    split at h
    · rename_i e; simpa [e] using h
    · rename_i e; simpa [e] using ih h

theorem tget_tdel_ne {α : Type} (d : α) (t : Table α) {j k : Nat} (h : j ≠ k) : tget d (tdel t k) j = tget d t j := by
  induction t with
  | nil => rfl
  | cons e t ih =>
    obtain ⟨k', v'⟩ := e
    by_cases e : k' = k
    · subst e; simp [tdel, tget, h] at *; exact ih
    · simp only [tdel, List.filter, tget, ne_eq, e, not_false_eq_true, decide_true] at ih ⊢
      split
      · rfl
      · exact ih

@[simp] theorem tget_tdel {α : Type} (d : α) (t : Table α) (k : Nat) : tget d (tdel t k) k = d := by
  induction t with
  | nil => rfl
  | cons e t ih =>
    obtain ⟨k', v'⟩ := e
    by_cases e : k' = k
    · subst e; simpa [tdel, tget] using ih
    · simp only [tdel, List.filter, tget, ne_eq, e, not_false_eq_true, decide_true] at ih ⊢
      rw [if_neg (Ne.symm e)]
      exact ih

@[simp] theorem tfind_tdel {α : Type} (t : Table α) (k : Nat) : tfind (tdel t k) k = none := by
  induction t with
  | nil => rfl
  | cons e t ih =>
    obtain ⟨k', v'⟩ := e
    by_cases e : k' = k
    · subst e; simpa [tdel, tfind] using ih
    · simp only [tdel, List.filter, tfind, ne_eq, e, not_false_eq_true, decide_true] at ih ⊢
      rw [if_neg (Ne.symm e)]
      exact ih

theorem tfind_tdel_ne {α : Type} (t : Table α) {j k : Nat} (h : j ≠ k) : tfind (tdel t k) j = tfind t j := by
  induction t with
  | nil => rfl
  | cons e t ih =>
    obtain ⟨k', v'⟩ := e
    by_cases e : k' = k
    · subst e; simp [tdel, tfind, h] at *; exact ih
    · simp only [tdel, List.filter, tfind, ne_eq, e, not_false_eq_true, decide_true] at ih ⊢
      split
      · rfl
      · exact ih

/-! ### Memories -/

theorem memSorted_mono {lo hi : Nat} (h : lo ≤ hi) {m : Mem} (hm : memSorted hi m = true) : memSorted lo m = true := by
  cases m with
  | nil => rfl
  | cons c m =>
    obtain ⟨a, b⟩ := c
    simp only [memSorted, Bool.and_eq_true, decide_eq_true_eq] at *
    exact ⟨⟨by omega, hm.1.2⟩, hm.2⟩

theorem memSorted_filter (f : Host.Cell → Bool) {lo : Nat} {m : Mem} (hm : memSorted lo m = true) :
    memSorted lo (m.filter f) = true := by
  induction m generalizing lo with
  | nil => rfl
  | cons c m ih =>
    obtain ⟨a, b⟩ := c
    simp only [memSorted, Bool.and_eq_true, decide_eq_true_eq] at hm
    rw [List.filter_cons]
    split
    · simp only [memSorted, Bool.and_eq_true, decide_eq_true_eq]
      exact ⟨hm.1, ih hm.2⟩
    · exact ih (memSorted_mono (by omega) hm.2)

theorem memSorted_tput {lo a : Nat} {m : Mem} {b : Byte} (hb : b ≠ 0) (ha : lo ≤ a) (hm : memSorted lo m = true) :
    memSorted lo (tput m a b) = true := by
  have hb' : ¬b = 0#8 := hb
  induction m generalizing lo with
  | nil => simp [tput, memSorted, ha, hb']
  | cons c m ih =>
    obtain ⟨a', b'⟩ := c
    simp only [memSorted, Bool.and_eq_true, decide_eq_true_eq, bne_iff_ne] at hm
    unfold tput
    split
    · rename_i e; subst e; simp [memSorted, ha, hb', hm.2]
    · split
      · rename_i h1 h2
        have h3 : ¬b' = 0#8 := hm.1.2
        have h4 : a + 1 ≤ a' := by omega
        simp [memSorted, ha, hb', h3, h4, hm.2]
      · rename_i h1 h2; simp only [memSorted, Bool.and_eq_true, decide_eq_true_eq, bne_iff_ne]
        exact ⟨hm.1, ih (by omega) hm.2⟩

/-- Dropping bytes keeps the canonical form. -/
theorem wf_filter (f : Host.Cell → Bool) {m : Mem} (hm : Memory.wf m = true) : Memory.wf (m.filter f) = true :=
  memSorted_filter f hm

theorem wf_mwrite {m : Mem} (a : Nat) (b : Byte) (hm : Memory.wf m = true) : Memory.wf (mwrite m a b) = true := by
  unfold mwrite
  split
  · exact wf_filter _ hm
  · exact memSorted_tput ‹_› (Nat.zero_le _) hm

theorem wf_mwriteN {m : Mem} (a : Nat) (bs : List Byte) (hm : Memory.wf m = true) : Memory.wf (mwriteN m a bs) = true := by
  induction bs generalizing m a with
  | nil => exact hm
  | cons b bs ih => exact ih (a + 1) (wf_mwrite a b hm)

theorem wf_mzero {m : Mem} (a n : Nat) (hm : Memory.wf m = true) : Memory.wf (mzero m a n) = true := wf_filter _ hm

/-- Reading a written byte answers it. -/
@[simp] theorem mread_mwrite (m : Mem) (a : Nat) (b : Byte) : mread (mwrite m a b) a = b := by
  unfold mread mwrite
  split
  · rename_i h; rw [tget_tdel, h]
  · exact tget_tput ..

/-- A write of one byte leaves every other byte. -/
theorem mread_mwrite_ne {m : Mem} {a c : Nat} (b : Byte) (h : c ≠ a) : mread (mwrite m a b) c = mread m c := by
  unfold mread mwrite
  split
  · exact tget_tdel_ne _ _ h
  · exact tget_tput_ne _ _ _ h

/-- A write leaves every byte outside the bytes written. -/
theorem mread_mwriteN_out {m : Mem} {a c : Nat} {bs : List Byte} (h : c < a ∨ a + bs.length ≤ c) :
    mread (mwriteN m a bs) c = mread m c := by
  induction bs generalizing m a with
  | nil => rfl
  | cons b bs ih =>
    simp only [List.length_cons] at h
    rw [mwriteN, ih (by omega), mread_mwrite_ne _ (by omega)]

/-- A read inside the bytes written answers the byte written there. -/
theorem mread_mwriteN_in {m : Mem} {a i : Nat} {bs : List Byte} (h : i < bs.length) :
    mread (mwriteN m a bs) (a + i) = bs[i] := by
  induction bs generalizing m a i with
  | nil => simp at h
  | cons b bs ih =>
    cases i with
    | zero => rw [mwriteN, mread_mwriteN_out (by omega)]; simp
    | succ i =>
      have := ih (m := mwrite m a b) (a := a + 1) (i := i) (by simpa using h)
      rw [mwriteN, show a + (i + 1) = a + 1 + i by omega, this]
      simp

end Sys2Proof.Machine
end

