-- ==== Sys2Proof/Laws/Keeps.lean ====
section
/-! SUPPORT. What every operation of the model keeps from the state it is given to the state it answers, and the rules
by which that is shown of one operation from those it is made of. -/

namespace Sys2Proof.Machine

variable {c : Bool}

/-- From `r` to `s` the size table and the queue of waiting commands stay; device memory and host memory keep their
canonical form; what the hub has sent stays sent; no entropy draw, identity or free value is used twice; and, unless
`c` is false, Thyme's count stays, or is 0 as a hub reset leaves it, and the safe state is left by such a reset alone. -/
structure Keeps (c : Bool) (r s : State) : Prop where
  build : s.build = r.build
  pending : s.pending = r.pending
  mem : Memory.wf r.mem = true → Memory.wf s.mem = true
  hostMem : Memory.wf r.hostMem = true → Memory.wf s.hostMem = true
  out : r.out <+: s.out
  now : c = true → s.thyme.now = r.thyme.now ∨ s.thyme.now = 0
  draws : r.lc.draws ≤ s.lc.draws
  nextId : r.nextId ≤ s.nextId
  freeCtr : r.freeCtr ≤ s.freeCtr
  safe : c = true → r.sage.safe = true → s.sage.safe = true ∨ s.thyme.now = 0

/-- `Keeps` of the state that is the first part of a pair. -/
def Keeps1 {α : Type} (c : Bool) (r : State) (p : State × α) : Prop := Keeps c r p.1
/-- `Keeps` of the state that is the second part of a pair. -/
def Keeps2 {α : Type} (c : Bool) (r : State) (p : α × State) : Prop := Keeps c r p.2
/-- `Keeps` of the state of a COPY or FILL as it runs. -/
def KeepsC (c : Bool) (r : State) (p : CopyRun) : Prop := Keeps c r p.s
/-- `Keeps` of the state of a move as it runs. -/
def KeepsM (c : Bool) (r : State) (p : MoveRun) : Prop := Keeps c r p.s
/-- `Keeps` of the state of a BAR4 access as it runs. -/
def KeepsB (c : Bool) (r : State) (p : Bar4Run) : Prop := Keeps c r p.s
/-- A meaning answers a next state, and keeps. -/
def KeepsX (c : Bool) (r : State) (x : Host.Outcome State Fault Refusal) : Prop := ∃ t, x = .next t ∧ Keeps c r t

/-- `Keeps` of the state after a line write. -/
def KeepsW (c : Bool) (r : State) : WriteRes → Prop
  | .done s _ => Keeps c r s
  | _ => True
/-- `Keeps` of the state after a segment fault is raised. -/
def KeepsR (c : Bool) (r : State) : Raised → Prop
  | .waits s => Keeps c r s
  | .refused s => Keeps c r s

theorem Keeps.refl (s : State) : Keeps c s s :=
  ⟨rfl, rfl, id, id, List.prefix_refl _, fun _ => .inl rfl, Nat.le_refl _, Nat.le_refl _, Nat.le_refl _,
    fun _ g => .inl g⟩

theorem Keeps.trans {r s t : State} (h : Keeps c r s) (g : Keeps c s t) : Keeps c r t where
  build := g.build.trans h.build
  pending := g.pending.trans h.pending
  mem := g.mem ∘ h.mem
  hostMem := g.hostMem ∘ h.hostMem
  out := h.out.trans g.out
  now := fun k => (g.now k).elim (fun e => e ▸ h.now k) .inr
  draws := Nat.le_trans h.draws g.draws
  nextId := Nat.le_trans h.nextId g.nextId
  freeCtr := Nat.le_trans h.freeCtr g.freeCtr
  safe := fun k e => (h.safe k e).elim (g.safe k) fun z => .inr ((g.now k).elim (·.trans z) id)

/-- An update of the fields that `Keeps` does not speak of. -/
theorem Keeps.mk_of {r t : State} (h : Keeps c r t) {s : State} (hb : s.build = t.build) (hp : s.pending = t.pending)
    (hm : s.mem = t.mem) (hh : s.hostMem = t.hostMem) (ho : s.out = t.out) (hn : c = true → s.thyme.now = t.thyme.now)
    (hd : s.lc.draws = t.lc.draws) (hi : s.nextId = t.nextId) (hf : s.freeCtr = t.freeCtr)
    (hs : s.sage.safe = t.sage.safe) : Keeps c r s :=
  h.trans ⟨hb, hp, by rw [hm]; exact id, by rw [hh]; exact id, by rw [ho], fun k => .inl (hn k),
    Nat.le_of_eq hd.symm, Nat.le_of_eq hi.symm, Nat.le_of_eq hf.symm, fun _ g => .inl (hs.trans g)⟩

/-- An update of the fields that `Keeps` does not speak of, as a structure instance. -/
theorem keeps_mk {r t : State} (h : Keeps c r t) {pins' units' wmb' ctxs' objs' fences' fenceWire' cmds' launches' engines' blocks' missqs'
    withdrawals' segFaults' caches' sems' holdLimit' schedCtr' fe' peers' freeing' ep' failures'
    spineRetries' rm' pw' boot' cps' fps' fab' sx'}
    {th : Thyme} {lf : LifeCycle} {sg : Sage}
    (hn : c = true → th.now = t.thyme.now) (hd : lf.draws = t.lc.draws) (hs : sg.safe = t.sage.safe) : Keeps c r { t with
      pins := pins', units := units', wmb := wmb', ctxs := ctxs', objs := objs', fences := fences',
      fenceWire := fenceWire', cmds := cmds', launches := launches', engines := engines', blocks := blocks',
      missqs := missqs', withdrawals := withdrawals', segFaults := segFaults', caches := caches',
      sems := sems', holdLimit := holdLimit', schedCtr := schedCtr', fe := fe', peers := peers',
      freeing := freeing', ep := ep', sage := sg, failures := failures', spineRetries := spineRetries',
      rm := rm', pw := pw', boot := boot', cps := cps', fps := fps', fab := fab', sx := sx', thyme := th,
      lc := lf } :=
  h.mk_of rfl rfl rfl rfl rfl hn hd rfl rfl hs

/-- What the hub sends is added to what it has sent. -/
theorem keeps_send {r t : State} (h : Keeps c r t) (o : List Out) : Keeps c r { t with out := t.out ++ o } :=
  h.trans ⟨rfl, rfl, id, id, List.prefix_append _ _, fun _ => .inl rfl, Nat.le_refl _, Nat.le_refl _, Nat.le_refl _,
    fun _ g => .inl g⟩

theorem keeps_next {r t : State} (h : Keeps c r t) : KeepsX c r (.next t) := ⟨t, rfl, h⟩
theorem keeps_pair1 {α : Type} {r s : State} {a : α} (h : Keeps c r s) : Keeps1 c r (s, a) := h
theorem keeps_pair2 {α : Type} {r s : State} {a : α} (h : Keeps c r s) : Keeps2 c r (a, s) := h
theorem keeps_copy {r s : State} {j v p} (h : Keeps c r s) : KeepsC c r ⟨s, j, v, p⟩ := h
theorem keeps_move {r s : State} {j v p} (h : Keeps c r s) : KeepsM c r ⟨s, j, v, p⟩ := h
theorem keeps_bar {r s : State} {x v b m a} (h : Keeps c r s) : KeepsB c r ⟨s, x, v, b, m, a⟩ := h
theorem keeps_fst {α : Type} {r : State} {p : State × α} (h : Keeps1 c r p) : Keeps c r p.1 := h
theorem keeps_snd {α : Type} {r : State} {p : α × State} (h : Keeps2 c r p) : Keeps c r p.2 := h
theorem keeps_copy_s {r : State} {p : CopyRun} (h : KeepsC c r p) : Keeps c r p.s := h
theorem keeps_move_s {r : State} {p : MoveRun} (h : KeepsM c r p) : Keeps c r p.s := h
theorem keeps_bar_s {r : State} {p : Bar4Run} (h : KeepsB c r p) : Keeps c r p.s := h
theorem keeps_eq1 {α : Type} {r s : State} {p : State × α} {a : α} (e : p = (s, a)) (h : Keeps1 c r p) : Keeps c r s := by
  subst e; exact h
theorem keeps_eq2 {α : Type} {r s : State} {p : α × State} {a : α} (e : p = (a, s)) (h : Keeps2 c r p) : Keeps c r s := by
  subst e; exact h

theorem keeps_eqW {r : State} {p q : WriteRes} (e : p = q) (h : KeepsW c r p) : KeepsW c r q := e ▸ h
theorem keeps_eqR {r : State} {p q : Raised} (e : p = q) (h : KeepsR c r p) : KeepsR c r q := e ▸ h
theorem keeps_done {r s : State} {b : Bool} (h : Keeps c r s) : KeepsW c r (.done s b) := h
theorem keeps_dropped {r : State} {k : Nat} : KeepsW c r (.dropped k) := trivial
theorem keeps_stopped {r : State} {k : Nat} : KeepsW c r (.stopped k) := trivial
theorem keeps_waits {r s : State} (h : Keeps c r s) : KeepsR c r (.waits s) := h
theorem keeps_refused {r s : State} (h : Keeps c r s) : KeepsR c r (.refused s) := h

theorem keeps_ite {β : Sort _} {P : β → Prop} {c : Prop} [Decidable c] {a b : β} (ha : P a) (hb : P b) :
    P (if c then a else b) := by split <;> assumption

theorem keeps_foldl {α β : Type} {P : β → Prop} {f : β → α → β} {b : β} {l : List α} (hf : ∀ b a, P b → P (f b a))
    (h : P b) : P (l.foldl f b) := by
  induction l generalizing b with
  | nil => exact h
  | cons a l ih => exact ih (hf b a h)

theorem mzero_all_wf (f : Nat → Nat × Nat) (l : List Nat) {m : Mem} (h : Memory.wf m = true) :
    Memory.wf (l.foldl (fun m c => mzero m (f c).1 (f c).2) m) = true :=
  keeps_foldl (P := fun m => Memory.wf m = true) (fun _ _ h => wf_mzero _ _ h) h

end Sys2Proof.Machine
end

