-- ==== Sys2Proof/Laws/KeepsOps.lean ====
section
/-! SUPPORT. What the shared operations, the scalar unit and the vector unit keep. -/

namespace Sys2Proof.Machine

variable {c : Bool} {r : State}

theorem State.setEngine_keeps {x0 x1 x2} (hx0 : Keeps c r x0) : Keeps c r (State.setEngine x0 x1 x2) := by
  unfold State.setEngine
  exact keeps_mk hx0 (fun _ => rfl) rfl rfl

theorem State.modEngine_keeps {x0 x1 x2} (hx0 : Keeps c r x0) : Keeps c r (State.modEngine x0 x1 x2) := by
  unfold State.modEngine
  exact State.setEngine_keeps hx0

theorem State.setLaunch_keeps {x0 x1 x2} (hx0 : Keeps c r x0) : Keeps c r (State.setLaunch x0 x1 x2) := by
  unfold State.setLaunch
  exact keeps_mk hx0 (fun _ => rfl) rfl rfl

theorem State.modLaunch_keeps {x0 x1 x2} (hx0 : Keeps c r x0) : Keeps c r (State.modLaunch x0 x1 x2) := by
  unfold State.modLaunch
  split <;> [exact hx0; exact (State.setLaunch_keeps hx0)]

theorem State.modExec_keeps {x0 x1 x2} (hx0 : Keeps c r x0) : Keeps c r (State.modExec x0 x1 x2) := by
  unfold State.modExec
  exact State.modLaunch_keeps hx0

theorem State.modRegs_keeps {x0 x1 x2} (hx0 : Keeps c r x0) : Keeps c r (State.modRegs x0 x1 x2) := by
  unfold State.modRegs
  exact State.modExec_keeps hx0

theorem State.addFlush_keeps {x0 x1 x2 x3} (hx0 : Keeps c r x0) : Keeps c r (State.addFlush x0 x1 x2 x3) := by
  unfold State.addFlush
  exact keeps_ite (P := Keeps c r) hx0 (State.modEngine_keeps (State.modRegs_keeps hx0))

theorem State.addSat_keeps {x0 x1 x2 x3} (hx0 : Keeps c r x0) : Keeps c r (State.addSat x0 x1 x2 x3) := by
  unfold State.addSat
  exact keeps_ite (P := Keeps c r) hx0 (State.modEngine_keeps (State.modRegs_keeps hx0))

theorem State.addT2_keeps {x0 x1 x2 x3} (hx0 : Keeps c r x0) : Keeps c r (State.addT2 x0 x1 x2 x3) := by
  unfold State.addT2
  exact keeps_ite (P := Keeps c r) hx0 (State.modEngine_keeps (State.modRegs_keeps hx0))

theorem State.hostWrite_keeps {x0 x1 x2} (hx0 : Keeps c r x0) : Keeps c r (State.hostWrite x0 x1 x2) := by
  unfold State.hostWrite
  exact (Keeps.trans hx0 ⟨rfl, rfl, id, fun g => wf_mwriteN _ _ (g), List.prefix_refl _, fun _ => .inl rfl,
    Nat.le_refl _, Nat.le_refl _, Nat.le_refl _, fun _ g => .inl g⟩)

theorem State.setVf_keeps {x0 x1 x2} (hx0 : Keeps c r x0) : Keeps c r (State.setVf x0 x1 x2) := by
  unfold State.setVf
  exact keeps_mk hx0 (fun _ => rfl) rfl rfl

theorem State.notify_keeps {x0 x1 x2 x3 x4} (hx0 : Keeps c r x0) : Keeps c r (State.notify x0 x1 x2 x3 x4) := by
  unfold State.notify
  extract_lets +onlyGivenNames -merge -lift v0
  exact (keeps_ite (P := Keeps c r) hx0
    (keeps_ite (P := Keeps c r) (State.setVf_keeps hx0) (by
      extract_lets +onlyGivenNames -merge -lift v1 v2
      exact State.setVf_keeps (State.hostWrite_keeps hx0))))

theorem State.raise_keeps {x0 x1 x2} (hx0 : Keeps c r x0) : Keeps c r (State.raise x0 x1 x2) := by
  unfold State.raise
  split
  · extract_lets +onlyGivenNames -merge -lift v0 v1 v2
    have h3 : Keeps c r v2 := keeps_mk hx0 (fun _ => rfl) rfl rfl
    clear_value v2
    exact (keeps_ite (P := Keeps c r)
      (Keeps.trans h3 ⟨rfl, rfl, id, id, List.prefix_append _ _, fun _ => .inl rfl, Nat.le_refl _, Nat.le_refl _,
        Nat.le_refl _, fun _ g => .inl g⟩) h3)
  · exact (keeps_ite (P := Keeps c r) hx0 (by
      extract_lets +onlyGivenNames -merge -lift v4 v5 v6
      have h7 : Keeps c r v6 := State.setVf_keeps hx0
      clear_value v6
      exact (keeps_ite (P := Keeps c r)
        (Keeps.trans h7 ⟨rfl, rfl, id, id, List.prefix_append _ _, fun _ => .inl rfl, Nat.le_refl _,
          Nat.le_refl _, Nat.le_refl _, fun _ g => .inl g⟩) h7)))

theorem State.setFence_keeps {x0 x1 x2} (hx0 : Keeps c r x0) : Keeps c r (State.setFence x0 x1 x2) := by
  unfold State.setFence
  exact keeps_mk hx0 (fun _ => rfl) rfl rfl

theorem State.applySignal_keeps {x0 x1} (hx0 : Keeps c r x0) : Keeps c r (State.applySignal x0 x1) := by
  unfold State.applySignal
  extract_lets +onlyGivenNames -merge -lift v0 v1
  exact (keeps_ite (P := Keeps c r) (by
    extract_lets +onlyGivenNames -merge -lift v2
    have h3 : Keeps c r v2 := State.setFence_keeps hx0
    clear_value v2
    exact (keeps_ite (P := Keeps c r) (by
      extract_lets +onlyGivenNames -merge -lift v4
      exact State.raise_keeps (State.notify_keeps h3)) h3)) hx0)

theorem State.setCtx_keeps {x0 x1 x2} (hx0 : Keeps c r x0) : Keeps c r (State.setCtx x0 x1 x2) := by
  unfold State.setCtx
  exact keeps_mk hx0 (fun _ => rfl) rfl rfl

theorem State.modCtx_keeps {x0 x1 x2} (hx0 : Keeps c r x0) : Keeps c r (State.modCtx x0 x1 x2) := by
  unfold State.modCtx
  exact State.setCtx_keeps hx0

theorem State.progress_keeps {x0 x1} (hx0 : Keeps c r x0) : Keeps c r (State.progress x0 x1) := by
  unfold State.progress
  exact State.modCtx_keeps hx0

theorem State.sendSignal_keeps {x0 x1 x2} (hx0 : Keeps c r x0) : Keeps c r (State.sendSignal x0 x1 x2) := by
  unfold State.sendSignal
  exact keeps_ite (P := Keeps c r) hx0 (keeps_mk hx0 (fun _ => rfl) rfl rfl)

theorem State.completeCmd_keeps {x0 x1 x2} (hx0 : Keeps c r x0) : Keeps c r (State.completeCmd x0 x1 x2) := by
  unfold State.completeCmd
  split
  · exact hx0
  · extract_lets +onlyGivenNames -merge -lift v0 v1
    have h2 : Keeps c r v1 := keeps_mk hx0 (fun _ => rfl) rfl rfl
    clear_value v1
    exact State.progress_keeps (State.sendSignal_keeps h2)

theorem State.checkCmdDone_keeps {x0 x1} (hx0 : Keeps c r x0) : Keeps c r (State.checkCmdDone x0 x1) := by
  unfold State.checkCmdDone
  split
  · exact hx0
  · split
    · exact hx0
    · exact (keeps_ite (P := Keeps c r) hx0
        (keeps_ite (P := Keeps c r) (by
          extract_lets +onlyGivenNames -merge -lift v0
          exact State.completeCmd_keeps hx0) hx0))

theorem State.loseCmd_keeps {x0 x1} (hx0 : Keeps c r x0) : Keeps c r (State.loseCmd x0 x1) := by
  unfold State.loseCmd
  split
  · exact hx0
  · extract_lets +onlyGivenNames -merge -lift v0
    have h1 : Keeps c r v0 := (by unfold v0; split <;> [exact hx0; exact (State.completeCmd_keeps hx0)])
    clear_value v0
    exact keeps_ite (P := Keeps c r) (State.completeCmd_keeps h1) (State.checkCmdDone_keeps h1)

theorem State.chargeTime_keeps {x0 x1 x2 x3} (hx0 : Keeps c r x0) : Keeps c r (State.chargeTime x0 x1 x2 x3) := by
  unfold State.chargeTime
  extract_lets +onlyGivenNames -merge -lift v0
  exact State.modCtx_keeps hx0

theorem State.chargeLaunch_keeps {x0 x1} (hx0 : Keeps c r x0) : Keeps c r (State.chargeLaunch x0 x1) := by
  unfold State.chargeLaunch
  split
  · exact hx0
  · split
    · extract_lets +onlyGivenNames -merge -lift v0 v1 v2
      exact State.chargeTime_keeps (State.setLaunch_keeps hx0)
    · exact hx0

theorem State.clearCaptures_keeps {x0 x1} (hx0 : Keeps c r x0) : Keeps c r (State.clearCaptures x0 x1) := by
  unfold State.clearCaptures
  extract_lets +onlyGivenNames -merge -lift v0
  exact (Keeps.trans hx0 ⟨rfl, rfl,
    fun g => (keeps_foldl (P := fun m => Memory.wf m = true) (fun _ _ h1 => wf_mzero _ _ (h1)) g), id,
    List.prefix_refl _, fun _ => .inl rfl, Nat.le_refl _, Nat.le_refl _, Nat.le_refl _, fun _ g => .inl g⟩)

theorem State.freeFold_keeps {x0 x1} (hx0 : Keeps c r x0) : Keeps c r (State.freeFold x0 x1) := by
  unfold State.freeFold
  split <;> [exact (State.modEngine_keeps hx0); exact hx0]

theorem State.freeSlot_keeps {x0 x1} (hx0 : Keeps c r x0) : Keeps c r (State.freeSlot x0 x1) := by
  unfold State.freeSlot
  split
  · exact State.modEngine_keeps hx0
  · exact State.modEngine_keeps hx0
  · exact State.modEngine_keeps hx0
  · exact hx0

theorem State.semLeave_keeps {x0 x1} (hx0 : Keeps c r x0) : Keeps c r (State.semLeave x0 x1) := by
  unfold State.semLeave
  exact keeps_mk hx0 (fun _ => rfl) rfl rfl

theorem State.setSem_keeps {x0 x1 x2} (hx0 : Keeps c r x0) : Keeps c r (State.setSem x0 x1 x2) := by
  unfold State.setSem
  exact keeps_mk hx0 (fun _ => rfl) rfl rfl

theorem State.semRelease_keeps {x0 x1} (hx0 : Keeps c r x0) : Keeps c r (State.semRelease x0 x1) := by
  unfold State.semRelease
  extract_lets +onlyGivenNames -merge -lift v0
  split
  · exact hx0
  · extract_lets +onlyGivenNames -merge -lift v1
    have h2 : Keeps c r v1 := State.modCtx_keeps hx0
    clear_value v1
    exact State.setSem_keeps h2

theorem State.setCmd_keeps {x0 x1 x2} (hx0 : Keeps c r x0) : Keeps c r (State.setCmd x0 x1 x2) := by
  unfold State.setCmd
  exact keeps_mk hx0 (fun _ => rfl) rfl rfl

theorem State.setQueue_keeps {x0 x1 x2} (hx0 : Keeps c r x0) : Keeps c r (State.setQueue x0 x1 x2) := by
  unfold State.setQueue
  exact State.modCtx_keeps hx0

theorem State.setSched_keeps {x0 x1 x2} (hx0 : Keeps c r x0) : Keeps c r (State.setSched x0 x1 x2) := by
  unfold State.setSched
  exact keeps_mk hx0 (fun _ => rfl) rfl rfl

theorem State.stepEnds_keeps {x0 x1 x2 x3} (hx0 : Keeps c r x0) : Keeps c r (State.stepEnds x0 x1 x2 x3) := by
  unfold State.stepEnds
  extract_lets +onlyGivenNames -merge -lift v0
  split <;> [exact hx0; exact (State.sendSignal_keeps (State.setSched_keeps hx0))]

theorem State.endLaunch_keeps {x0 x1} (hx0 : Keeps c r x0) : Keeps c r (State.endLaunch x0 x1) := by
  unfold State.endLaunch
  split
  · exact hx0
  · extract_lets +onlyGivenNames -merge -lift v0 v1 v2 v3 v4 v5 v6 v7 v8
    have h9 : Keeps c r v0 := State.chargeLaunch_keeps hx0
    clear_value v0
    have h10 : Keeps c r v1 := (keeps_foldl (P := Keeps c r) (fun _ _ h11 => (State.semRelease_keeps h11))
      (State.semLeave_keeps h9))
    clear_value v1
    have h12 : Keeps c r v2 := State.freeSlot_keeps (State.freeFold_keeps (State.clearCaptures_keeps h10))
    clear_value v2
    have h13 : Keeps c r v3 := keeps_mk h12 (fun _ => rfl) rfl rfl
    clear_value v3
    have h14 : Keeps c r v5 := (keeps_ite (P := Keeps c r)
      (keeps_ite (P := Keeps c r) (State.setQueue_keeps h13) h13) h13)
    clear_value v5
    have h15 : Keeps c r v6 := (by unfold v6; split <;> [exact (State.completeCmd_keeps h14); exact h14])
    clear_value v6
    have h16 : Keeps c r v7 := (keeps_ite (P := Keeps c r)
      (keeps_foldl (P := Keeps c r) (fun _ _ h17 => (State.completeCmd_keeps h17)) h15) h15)
    clear_value v7
    have h18 : Keeps c r v8 := (by unfold v8; split <;> [exact (State.stepEnds_keeps h16); exact h16])
    clear_value v8
    split
    · exact h18
    · split <;> [exact h18; exact (State.checkCmdDone_keeps (State.setCmd_keeps h18))]

theorem State.loseLaunch_keeps {x0 x1} (hx0 : Keeps c r x0) : Keeps c r (State.loseLaunch x0 x1) := by
  unfold State.loseLaunch
  split <;> [exact hx0; exact (by split <;> [exact (State.setLaunch_keeps hx0); exact (State.endLaunch_keeps hx0)])]

theorem State.loseCtx_keeps {x0 x1} (hx0 : Keeps c r x0) : Keeps c r (State.loseCtx x0 x1) := by
  unfold State.loseCtx
  extract_lets +onlyGivenNames -merge -lift v0 v1 v2 v3
  have h4 : Keeps c r v0 := State.modCtx_keeps hx0
  clear_value v0
  have h5 : Keeps c r v1 := keeps_foldl (P := Keeps c r) (fun _ _ h6 => (State.loseLaunch_keeps h6)) h4
  clear_value v1
  have h7 : Keeps c r v2 := keeps_foldl (P := Keeps c r) (fun _ _ h8 => (State.loseCmd_keeps h8)) h5
  clear_value v2
  exact State.raise_keeps (State.notify_keeps h7)

theorem State.noteCmdFault_keeps {x0 x1 x2} (hx0 : Keeps c r x0) : Keeps c r (State.noteCmdFault x0 x1 x2) := by
  unfold State.noteCmdFault
  split
  · exact hx0
  · split <;> [exact hx0; exact (keeps_ite (P := Keeps c r) (State.setCmd_keeps hx0) hx0)]

theorem State.noteLaunchFault_keeps {x0 x1 x2} (hx0 : Keeps c r x0) :
    Keeps c r (State.noteLaunchFault x0 x1 x2) := by
  unfold State.noteLaunchFault
  split
  · exact hx0
  · split
    · exact hx0
    · extract_lets +onlyGivenNames -merge -lift v0
      have h1 : Keeps c r v0 := keeps_ite (P := Keeps c r) (State.setLaunch_keeps hx0) hx0
      clear_value v0
      exact State.noteCmdFault_keeps h1

theorem State.sageSend_keeps {x0 x1 x2 x3 x4 x5} (hx0 : Keeps c r x0) :
    Keeps c r (State.sageSend x0 x1 x2 x3 x4 x5) := by
  unfold State.sageSend
  extract_lets +onlyGivenNames -merge -lift v0
  exact keeps_mk hx0 (fun _ => rfl) rfl rfl

theorem State.fault_keeps {x0 x1 x2 x3} (hx0 : Keeps c r x0) : Keeps c r (State.fault x0 x1 x2 x3) := by
  unfold State.fault
  extract_lets +onlyGivenNames -merge -lift v0 v1
  have h2 : Keeps c r v1 := State.sageSend_keeps hx0
  clear_value v1
  split
  · extract_lets +onlyGivenNames -merge -lift v3 v4
    have h5 : Keeps c r v3 := State.setCtx_keeps h2
    clear_value v3
    have h6 : Keeps c r v4 := State.noteLaunchFault_keeps (State.noteCmdFault_keeps h5)
    clear_value v4
    exact keeps_ite (P := Keeps c r) h6 (State.loseCtx_keeps h6)
  · exact State.setCtx_keeps h2
  · exact h2

theorem State.launchFault_keeps {x0 x1 x2 x3 x4 x5} (hx0 : Keeps c r x0) :
    Keeps c r (State.launchFault x0 x1 x2 x3 x4 x5) := by
  unfold State.launchFault
  split <;> [exact hx0; exact (State.fault_keeps hx0)]

theorem State.tokenUp_keeps {x0 x1 x2 x3} (hx0 : Keeps c r x0) : Keeps c r (State.tokenUp x0 x1 x2 x3) := by
  unfold State.tokenUp
  split
  · exact hx0
  · extract_lets +onlyGivenNames -merge -lift v0
    exact keeps_ite (P := Keeps c r) (State.launchFault_keeps hx0) (State.modRegs_keeps hx0)

theorem State.signalWord_keeps {x0 x1 x2 x3} (hx0 : Keeps c r x0) : Keeps c r (State.signalWord x0 x1 x2 x3) := by
  unfold State.signalWord
  exact keeps_ite (P := Keeps c r) (State.tokenUp_keeps hx0) hx0

theorem State.badInstr_keeps {x0 x1 x2 x3} (hx0 : Keeps c r x0) : Keeps c r (State.badInstr x0 x1 x2 x3) := by
  unfold State.badInstr
  exact State.signalWord_keeps (State.launchFault_keeps hx0)

theorem State.bad_keeps {x0 x1} (hx0 : Keeps c r x0) : Keeps c r (State.bad x0 x1) := by
  unfold State.bad
  exact State.badInstr_keeps hx0

theorem State.beginWait_keeps {x0 x1} (hx0 : Keeps c r x0) : Keeps c r (State.beginWait x0 x1) := by
  unfold State.beginWait
  extract_lets +onlyGivenNames -merge -lift v0 v1 v2
  have h3 : Keeps c r v0 := State.chargeLaunch_keeps hx0
  clear_value v0
  have h4 : Keeps c r v1 := (by unfold v1; split <;> [exact (State.completeCmd_keeps h3); exact h3])
  clear_value v1
  have h5 : Keeps c r v2 := State.freeFold_keeps (State.clearCaptures_keeps h4)
  clear_value v2
  exact State.modLaunch_keeps h5

theorem State.captureStore_keeps {x0 x1 x2 x3 x4 x5} (hx0 : Keeps c r x0) :
    Keeps c r (State.captureStore x0 x1 x2 x3 x4 x5) := by
  unfold State.captureStore
  exact (keeps_ite (P := Keeps c r) hx0 (by
    extract_lets +onlyGivenNames -merge -lift v0
    exact State.modLaunch_keeps hx0))

theorem State.chargeAll_keeps {x0} (hx0 : Keeps c r x0) : Keeps c r (State.chargeAll x0) := by
  unfold State.chargeAll
  exact keeps_foldl (P := Keeps c r) (fun _ _ h0 => (State.chargeLaunch_keeps h0)) hx0

theorem State.chargeBytes_keeps {x0 x1 x2 x3} (hx0 : Keeps c r x0) : Keeps c r (State.chargeBytes x0 x1 x2 x3) := by
  unfold State.chargeBytes
  exact keeps_ite (P := Keeps c r) hx0 (State.modCtx_keeps hx0)

theorem State.checkRetry_keeps {x0 x1 x2 x3} (hx0 : Keeps c r x0) : Keeps c r (State.checkRetry x0 x1 x2 x3) := by
  unfold State.checkRetry
  exact State.sageSend_keeps (State.modEngine_keeps hx0)

theorem State.fptChange_keeps {x0 x1 x2} (hx0 : Keeps c r x0) : Keeps c r (State.fptChange x0 x1 x2) := by
  unfold State.fptChange
  extract_lets +onlyGivenNames -merge -lift v0
  exact keeps_ite (P := Keeps c r) hx0 (keeps_mk hx0 (fun _ => rfl) rfl rfl)

theorem State.movePartials_keeps {x0} (hx0 : Keeps c r x0) : Keeps c r (State.movePartials x0) := by
  unfold State.movePartials
  exact (keeps_foldl (P := Keeps c r) (fun _ _ h0 => (by
    extract_lets +onlyGivenNames -merge -lift v1
    exact (keeps_ite (P := Keeps c r) h0
      (keeps_foldl (P := Keeps c r) (fun _ _ h2 => (by
        split
        · exact h2
        · extract_lets +onlyGivenNames -merge -lift v3
          have h4 : Keeps c r v3 := State.modEngine_keeps h2
          clear_value v3
          exact State.modEngine_keeps h4)) h0)))) hx0)

theorem State.setPart_keeps {x0 x1 x2} (hx0 : Keeps c r x0) : Keeps c r (State.setPart x0 x1 x2) := by
  unfold State.setPart
  exact keeps_mk hx0 (fun _ => rfl) rfl rfl

theorem State.partChanged_keeps {x0 x1 x2} (hx0 : Keeps c r x0) : Keeps c r (State.partChanged x0 x1 x2) := by
  unfold State.partChanged
  extract_lets +onlyGivenNames -merge -lift v0 v1
  have h2 : Keeps c r v1 := State.setPart_keeps hx0
  clear_value v1
  exact keeps_foldl (P := Keeps c r) (fun _ _ h3 => (State.raise_keeps (State.setVf_keeps h3))) h2

theorem State.refill_keeps {x0 x1 x2} (hx0 : Keeps c r x0) : Keeps c r (State.refill x0 x1 x2) := by
  unfold State.refill
  extract_lets +onlyGivenNames -merge -lift v0
  split
  · split
    · extract_lets +onlyGivenNames -merge -lift v1 v2
      have h3 : Keeps c r v2 := keeps_mk hx0 (fun _ => rfl) rfl rfl
      clear_value v2
      exact State.movePartials_keeps (State.partChanged_keeps (State.setPart_keeps h3))
    · exact State.movePartials_keeps (State.partChanged_keeps (State.setPart_keeps hx0))
  · split
    · extract_lets +onlyGivenNames -merge -lift v4 v5
      have h6 : Keeps c r v5 := keeps_mk hx0 (fun _ => rfl) rfl rfl
      clear_value v5
      exact State.partChanged_keeps (State.setPart_keeps h6)
    · exact State.partChanged_keeps (State.setPart_keeps hx0)
  · split
    · extract_lets +onlyGivenNames -merge -lift v7 v8
      have h9 : Keeps c r v8 := keeps_mk hx0 (fun _ => rfl) rfl rfl
      clear_value v8
      exact State.partChanged_keeps (State.setPart_keeps h9)
    · exact State.partChanged_keeps (State.setPart_keeps hx0)
  · exact State.partChanged_keeps (State.setPart_keeps hx0)
  · exact State.partChanged_keeps hx0
  · exact hx0

theorem State.rmRecord_keeps {x0 x1 x2 x3 x4 x5} (hx0 : Keeps c r x0) :
    Keeps c r (State.rmRecord x0 x1 x2 x3 x4 x5) := by
  unfold State.rmRecord
  exact keeps_mk hx0 (fun _ => rfl) rfl rfl

theorem State.schedLoses_keeps {x0 x1 x2} (hx0 : Keeps c r x0) : Keeps c r (State.schedLoses x0 x1 x2) := by
  unfold State.schedLoses
  extract_lets +onlyGivenNames -merge -lift v0 v1 v2 v3 v4
  have h5 : ∀ y0, Keeps c r y0 → Keeps c r (v3 y0) := (by unfold v3; exact (fun _ h6 => (State.setSched_keeps h6)))
  clear_value v3
  have h7 : ∀ y0, Keeps c r y0 → Keeps c r (v4 y0) := (by
    unfold v4
    exact (fun _ h8 => (h5 _ (State.setSched_keeps h8))))
  clear_value v4
  split
  · extract_lets +onlyGivenNames -merge -lift v9 v10 v11
    exact (keeps_ite (P := Keeps c r) (keeps_ite (P := Keeps c r) hx0 (State.setPart_keeps hx0))
      (keeps_ite (P := Keeps c r) (h5 _ hx0) (by
        split
        · extract_lets +onlyGivenNames -merge -lift v12 v13 v14
          have h15 : Keeps c r v13 := keeps_mk hx0 (fun _ => rfl) rfl rfl
          clear_value v13
          have h16 : Keeps c r v14 := State.setPart_keeps h15
          clear_value v14
          exact h5 _ (State.rmRecord_keeps (State.setSched_keeps h16))
        · exact h7 _ (State.setPart_keeps hx0))))
  · extract_lets +onlyGivenNames -merge -lift v17 v18 v19
    exact (keeps_ite (P := Keeps c r) (keeps_ite (P := Keeps c r) hx0 (State.setPart_keeps hx0))
      (keeps_ite (P := Keeps c r) (h5 _ hx0) (by
        split
        · extract_lets +onlyGivenNames -merge -lift v20 v21 v22
          have h23 : Keeps c r v21 := keeps_mk hx0 (fun _ => rfl) rfl rfl
          clear_value v21
          have h24 : Keeps c r v22 := State.setPart_keeps h23
          clear_value v22
          exact h5 _ (State.rmRecord_keeps (State.setSched_keeps h24))
        · exact h7 _ (State.setPart_keeps hx0))))
  · extract_lets +onlyGivenNames -merge -lift v25
    exact (keeps_ite (P := Keeps c r) (State.setPart_keeps hx0) (by
      split
      · extract_lets +onlyGivenNames -merge -lift v26 v27 v28
        have h29 : Keeps c r v27 := keeps_mk hx0 (fun _ => rfl) rfl rfl
        clear_value v27
        have h30 : Keeps c r v28 := State.setPart_keeps h29
        clear_value v28
        exact h5 _ (State.rmRecord_keeps (State.setSched_keeps h30))
      · exact h7 _ (State.setPart_keeps hx0)))
  · extract_lets +onlyGivenNames -merge -lift v31
    have h32 : Keeps c r v31 := State.setPart_keeps hx0
    clear_value v31
    exact (keeps_ite (P := Keeps c r) h32 (by
      split
      · extract_lets +onlyGivenNames -merge -lift v33 v34 v35 v36
        have h37 : Keeps c r v34 := keeps_mk h32 (fun _ => rfl) rfl rfl
        clear_value v34
        have h38 : Keeps c r v36 := State.setPart_keeps h37
        clear_value v36
        exact h5 _ (State.rmRecord_keeps (State.setSched_keeps h38))
      · exact h7 _ h32))
  · exact h7 _ (State.setPart_keeps hx0)
  · exact hx0

theorem State.leavePart_keeps {x0 x1} (hx0 : Keeps c r x0) : Keeps c r (State.leavePart x0 x1) := by
  unfold State.leavePart
  split
  · exact (keeps_ite (P := Keeps c r) (by
      extract_lets +onlyGivenNames -merge -lift v0
      have h1 : Keeps c r v0 := State.schedLoses_keeps hx0
      clear_value v0
      exact State.setSched_keeps h1) (State.refill_keeps hx0))
  · extract_lets +onlyGivenNames -merge -lift v2
    split
    · exact keeps_mk hx0 (fun _ => rfl) rfl rfl
    · exact keeps_mk hx0 (fun _ => rfl) rfl rfl
    · exact keeps_mk hx0 (fun _ => rfl) rfl rfl
    · exact keeps_mk hx0 (fun _ => rfl) rfl rfl
    · exact hx0

theorem State.sageFail_keeps {x0 x1 x2} (hx0 : Keeps c r x0) : Keeps c r (State.sageFail x0 x1 x2) := by
  unfold State.sageFail
  exact State.sageSend_keeps hx0

theorem State.failOn_keeps {x0 x1 x2} (hx0 : Keeps c r x0) : Keeps c r (State.failOn x0 x1 x2) := by
  unfold State.failOn
  exact (keeps_foldl (P := Keeps c r) (fun _ _ h0 => (by
    split
    · exact h0
    · exact (keeps_ite (P := Keeps c r) h0 (by
        split <;> [exact (State.setSched_keeps h0); exact (State.setLaunch_keeps h0)])))) hx0)

theorem State.recordAllots_keeps {x0 x1} (hx0 : Keeps c r x0) : Keeps c r (State.recordAllots x0 x1) := by
  unfold State.recordAllots
  extract_lets +onlyGivenNames -merge -lift v0
  exact (keeps_foldl (P := Keeps c r) (fun _ _ h1 => (by
    extract_lets +onlyGivenNames -merge -lift v2 v3 v4 v5 v6
    have h7 : Keeps c r v6 := keeps_foldl (P := Keeps c r) (fun _ _ h8 => (State.modLaunch_keeps h8)) h1
    clear_value v6
    exact State.modCtx_keeps h7)) (State.setEngine_keeps hx0))

theorem State.setCp_keeps {x0 x1 x2} (hx0 : Keeps c r x0) : Keeps c r (State.setCp x0 x1 x2) := by
  unfold State.setCp
  exact keeps_mk hx0 (fun _ => rfl) rfl rfl

theorem State.setCu_keeps {x0 x1 x2} (hx0 : Keeps c r x0) : Keeps c r (State.setCu x0 x1 x2) := by
  unfold State.setCu
  exact keeps_mk hx0 (fun _ => rfl) rfl rfl

theorem State.setFp_keeps {x0 x1 x2} (hx0 : Keeps c r x0) : Keeps c r (State.setFp x0 x1 x2) := by
  unfold State.setFp
  exact keeps_mk hx0 (fun _ => rfl) rfl rfl

theorem State.unitOut_keeps {x0 x1} (hx0 : Keeps c r x0) : Keeps c r (State.unitOut x0 x1) := by
  unfold State.unitOut
  split
  · exact State.recordAllots_keeps (State.modEngine_keeps (State.failOn_keeps hx0))
  · extract_lets +onlyGivenNames -merge -lift v0
    exact State.modEngine_keeps (State.failOn_keeps hx0)
  · extract_lets +onlyGivenNames -merge -lift v1
    exact State.setCp_keeps hx0
  · extract_lets +onlyGivenNames -merge -lift v2 v3
    have h4 : Keeps c r v3 := State.setCu_keeps hx0
    clear_value v3
    split <;> [exact (State.setCu_keeps h4); exact (State.setCu_keeps h4)]
  · exact State.setFp_keeps hx0
  · exact hx0

theorem State.retireUnit_keeps {x0 x1 x2 x3} (hx0 : Keeps c r x0) : Keeps c r (State.retireUnit x0 x1 x2 x3) := by
  unfold State.retireUnit
  extract_lets +onlyGivenNames -merge -lift v0
  exact (keeps_ite (P := Keeps c r) hx0 (by
    extract_lets +onlyGivenNames -merge -lift v1
    exact (keeps_ite (P := Keeps c r) (State.fptChange_keeps hx0) (by
      extract_lets +onlyGivenNames -merge -lift v2 v3 v4 v5 v6
      have h7 : Keeps c r v2 := State.fptChange_keeps (State.unitOut_keeps hx0)
      clear_value v2
      have h8 : Keeps c r v3 := (by unfold v3; split <;> [exact (State.fptChange_keeps h7); exact h7])
      clear_value v3
      have h9 : Keeps c r v4 := State.sageFail_keeps h8
      clear_value v4
      have h10 : Keeps c r v6 := keeps_mk h9 (fun _ => rfl) rfl rfl
      clear_value v6
      exact State.leavePart_keeps (State.rmRecord_keeps h10)))))

theorem State.checked_keeps {x0 x1 x2 x3} (hx0 : Keeps c r x0) (hx3 : ∀ y0, Keeps c r y0 → Keeps c r (x3 y0)) :
    Keeps c r (State.checked x0 x1 x2 x3) := by
  unfold State.checked
  extract_lets +onlyGivenNames -merge -lift v0 v1
  split
  · exact hx3 _ hx0
  · exact hx3 _ (State.checkRetry_keeps hx0)
  · exact State.retireUnit_keeps (State.checkRetry_keeps (State.checkRetry_keeps hx0))

theorem State.doneRegs_keeps {x0 x1 x2} (hx0 : Keeps c r x0) : Keeps c r (State.doneRegs x0 x1 x2) := by
  unfold State.doneRegs
  exact State.signalWord_keeps (State.modRegs_keeps hx0)

theorem State.compare_keeps {x0 x1 x2} (hx0 : Keeps c r x0) : Keeps c r (State.compare x0 x1 x2) := by
  unfold State.compare
  extract_lets +onlyGivenNames -merge -lift v0 v1
  exact keeps_ite (P := Keeps c r) (State.bad_keeps hx0) (State.doneRegs_keeps hx0)

theorem State.doneS_keeps {x0 x1 x2 x3} (hx0 : Keeps c r x0) : Keeps c r (State.doneS x0 x1 x2 x3) := by
  unfold State.doneS
  exact State.doneRegs_keeps hx0

theorem State.drainSignals_keeps {x0} (hx0 : Keeps c r x0) : Keeps c r (State.drainSignals x0) := by
  unfold State.drainSignals
  extract_lets +onlyGivenNames -merge -lift v0
  have h1 : Keeps c r v0 := keeps_foldl (P := Keeps c r) (fun _ _ h2 => (State.applySignal_keeps h2)) hx0
  clear_value v0
  exact keeps_mk h1 (fun _ => rfl) rfl rfl

theorem State.failLaunch_keeps {x0 x1 x2 x3} (hx0 : Keeps c r x0) : Keeps c r (State.failLaunch x0 x1 x2 x3) := by
  unfold State.failLaunch
  split
  · exact hx0
  · split
    · exact State.setSched_keeps hx0
    · extract_lets +onlyGivenNames -merge -lift v0 v1 v2
      have h3 : Keeps c r v1 := State.setLaunch_keeps hx0
      clear_value v1
      have h4 : Keeps c r v2 := keeps_mk h3 (fun _ => rfl) rfl rfl
      clear_value v2
      exact (keeps_ite (P := Keeps c r) (by
        extract_lets +onlyGivenNames -merge -lift v5
        have h6 : Keeps c r v5 := State.modLaunch_keeps h4
        clear_value v5
        split <;> [exact h6; exact (State.retireUnit_keeps h6)]) h4)

theorem State.fly_keeps {x0 x1 x2} (hx0 : Keeps c r x0) : Keeps c r (State.fly x0 x1 x2) := by
  unfold State.fly
  exact State.modExec_keeps hx0

theorem State.free_keeps {x0} (hx0 : Keeps c r x0) : Keeps2 c r (State.free x0) := by
  unfold State.free
  exact (keeps_pair2
    (Keeps.trans hx0 ⟨rfl, rfl, id, id, List.prefix_refl _, fun _ => .inl rfl, Nat.le_refl _, Nat.le_refl _,
      Nat.le_succ _, fun _ g => .inl g⟩))

theorem State.fresh_keeps {x0} (hx0 : Keeps c r x0) : Keeps2 c r (State.fresh x0) := by
  unfold State.fresh
  exact (keeps_pair2
    (Keeps.trans hx0 ⟨rfl, rfl, id, id, List.prefix_refl _, fun _ => .inl rfl, Nat.le_refl _, Nat.le_succ _,
      Nat.le_refl _, fun _ g => .inl g⟩))

theorem State.jobWaits_keeps {x0 x1} (hx0 : Keeps c r x0) : Keeps c r (State.jobWaits x0 x1) := by
  unfold State.jobWaits
  extract_lets +onlyGivenNames -merge -lift v0
  exact keeps_ite (P := Keeps c r) (State.setSched_keeps hx0) hx0

theorem State.jumpTo_keeps {x0 x1 x2} (hx0 : Keeps c r x0) : Keeps c r (State.jumpTo x0 x1 x2) := by
  unfold State.jumpTo
  exact State.signalWord_keeps (State.modExec_keeps hx0)

theorem State.writeLanes_keeps {x0 x1 x2 x3} (hx0 : Keeps c r x0) : Keeps c r (State.writeLanes x0 x1 x2 x3) := by
  unfold State.writeLanes
  exact State.doneRegs_keeps hx0

theorem State.lanes1_keeps {x0 x1 x2} (hx0 : Keeps c r x0) : Keeps c r (State.lanes1 x0 x1 x2) := by
  unfold State.lanes1
  extract_lets +onlyGivenNames -merge -lift v0
  exact State.writeLanes_keeps hx0

theorem State.lanes2_keeps {x0 x1 x2} (hx0 : Keeps c r x0) : Keeps c r (State.lanes2 x0 x1 x2) := by
  unfold State.lanes2
  extract_lets +onlyGivenNames -merge -lift v0
  exact State.writeLanes_keeps hx0

theorem State.logBlock_keeps {x0 x1 x2} (hx0 : Keeps c r x0) : Keeps1 c r (State.logBlock x0 x1 x2) := by
  unfold State.logBlock
  extract_lets +onlyGivenNames -merge -lift v0 v1 v2 v3
  exact (keeps_ite (P := Keeps1 c r) (keeps_pair1 hx0) (by
    split
    · exact keeps_pair1 hx0
    · exact (keeps_ite (P := Keeps1 c r)
        (keeps_ite (P := Keeps1 c r) (keeps_pair1 hx0) (keeps_pair1 (State.fault_keeps (State.setSched_keeps hx0)))) (by
        extract_lets +onlyGivenNames -merge -lift v4 v5
        exact keeps_pair1 (State.setSched_keeps hx0)))))

theorem State.physWrite_keeps {x0 x1 x2 x3} (hx0 : Keeps c r x0) : Keeps c r (State.physWrite x0 x1 x2 x3) := by
  unfold State.physWrite
  exact (keeps_ite (P := Keeps c r)
    (Keeps.trans hx0 ⟨rfl, rfl, id, fun g => wf_mwriteN _ _ (g), List.prefix_refl _, fun _ => .inl rfl,
      Nat.le_refl _, Nat.le_refl _, Nat.le_refl _, fun _ g => .inl g⟩)
    (Keeps.trans hx0 ⟨rfl, rfl, fun g => wf_mwriteN _ _ (g), id, List.prefix_refl _, fun _ => .inl rfl,
      Nat.le_refl _, Nat.le_refl _, Nat.le_refl _, fun _ g => .inl g⟩))

theorem State.portWork_keeps {x0 x1} (hx0 : Keeps c r x0) (hx1 : Keeps c r x1) :
    Keeps c r (State.portWork x0 x1) := by
  unfold State.portWork
  exact keeps_ite (P := Keeps c r) hx0 hx1

theorem State.raiseSegFault_keeps {x0 x1 x2 x3 x4 x5 x6} (hx0 : Keeps c r x0) :
    KeepsR c r (State.raiseSegFault x0 x1 x2 x3 x4 x5 x6) := by
  unfold State.raiseSegFault
  exact (keeps_ite (P := KeepsR c r) (keeps_waits (State.jobWaits_keeps hx0))
    (keeps_ite (P := KeepsR c r) (keeps_refused hx0) (by
      extract_lets +onlyGivenNames -merge -lift v0 v1 v2
      have h3 : Keeps c r v2 := keeps_mk hx0 (fun _ => rfl) rfl rfl
      clear_value v2
      exact (keeps_ite (P := KeepsR c r) (keeps_refused h3)
        (keeps_ite (P := KeepsR c r) (keeps_waits h3) (keeps_waits (keeps_mk h3 (fun _ => rfl) rfl rfl)))))))

theorem State.reduce_keeps {x0 x1 x2 x3} (hx0 : Keeps c r x0) : Keeps c r (State.reduce x0 x1 x2 x3) := by
  unfold State.reduce
  extract_lets +onlyGivenNames -merge -lift v0
  exact State.doneRegs_keeps hx0

theorem State.rmAccessFail_keeps {x0 x1} (hx0 : Keeps c r x0) : Keeps c r (State.rmAccessFail x0 x1) := by
  unfold State.rmAccessFail
  split
  · exact hx0
  · extract_lets +onlyGivenNames -merge -lift v0
    have h1 : Keeps c r v0 := State.sageFail_keeps hx0
    clear_value v0
    exact keeps_ite (P := Keeps c r) (keeps_mk h1 (fun _ => rfl) rfl rfl) (keeps_mk h1 (fun _ => rfl) rfl rfl)

theorem State.rmReady_keeps {x0} (hx0 : Keeps c r x0) : Keeps c r (State.rmReady x0) := by
  unfold State.rmReady
  extract_lets +onlyGivenNames -merge -lift v0 v1 v2 v3 v4 v5
  exact keeps_mk hx0 (fun _ => rfl) rfl rfl

theorem State.rmBringUp_keeps {x0 x1 x2} (hx0 : Keeps c r x0) : Keeps c r (State.rmBringUp x0 x1 x2) := by
  unfold State.rmBringUp
  extract_lets +onlyGivenNames -merge -lift v0
  have h1 : ∀ y0, Keeps c r y0 → Keeps c r (v0 y0) := (by
    unfold v0
    exact (fun _ h2 => (keeps_ite (P := Keeps c r) (State.rmReady_keeps h2) (keeps_mk h2 (fun _ => rfl) rfl rfl))))
  clear_value v0
  exact (keeps_ite (P := Keeps c r)
    (keeps_ite (P := Keeps c r) (h1 _ hx0)
      (keeps_ite (P := Keeps c r) (keeps_mk hx0 (fun _ => rfl) rfl rfl) (by
        extract_lets +onlyGivenNames -merge -lift v3
        have h4 : Keeps c r v3 := State.sageFail_keeps hx0
        clear_value v3
        exact keeps_mk h4 (fun _ => rfl) rfl rfl)))
    (keeps_ite (P := Keeps c r) (by
      extract_lets +onlyGivenNames -merge -lift v5
      exact h1 _ (keeps_ite (P := Keeps c r) (keeps_mk hx0 (fun _ => rfl) rfl rfl) hx0)) (by
      extract_lets +onlyGivenNames -merge -lift v6
      exact (keeps_ite (P := Keeps c r) (h1 _ hx0)
        (keeps_ite (P := Keeps c r) (h1 _ (keeps_mk hx0 (fun _ => rfl) rfl rfl)) (by
          extract_lets +onlyGivenNames -merge -lift v7 v8 v9
          exact h1 _ (keeps_mk hx0 (fun _ => rfl) rfl rfl)))))))

theorem State.rmReadDone_keeps {x0 x1} (hx0 : Keeps c r x0) : Keeps c r (State.rmReadDone x0 x1) := by
  unfold State.rmReadDone
  split
  · exact hx0
  · exact (keeps_ite (P := Keeps c r) hx0 (by
      extract_lets +onlyGivenNames -merge -lift v0 v1
      have h2 : Keeps c r v1 := keeps_mk hx0 (fun _ => rfl) rfl rfl
      clear_value v1
      split
      · exact State.rmBringUp_keeps h2
      · exact keeps_mk h2 (fun _ => rfl) rfl rfl
      · exact keeps_mk h2 (fun _ => rfl) rfl rfl))

theorem State.rmWriteDone_keeps {x0 x1} (hx0 : Keeps c r x0) : Keeps c r (State.rmWriteDone x0 x1) := by
  unfold State.rmWriteDone
  extract_lets +onlyGivenNames -merge -lift v0 v1
  split
  · exact (keeps_ite (P := Keeps c r) (by
      extract_lets +onlyGivenNames -merge -lift v2
      have h3 : Keeps c r v2 := keeps_mk hx0 (fun _ => rfl) rfl rfl
      clear_value v2
      exact State.rmReady_keeps (keeps_mk h3 (fun _ => rfl) rfl rfl)) (by
      extract_lets +onlyGivenNames -merge -lift v4
      exact keeps_mk hx0 (fun _ => rfl) rfl rfl))
  · extract_lets +onlyGivenNames -merge -lift v5 v6
    exact keeps_mk hx0 (fun _ => rfl) rfl rfl
  · extract_lets +onlyGivenNames -merge -lift v7
    exact keeps_mk hx0 (fun _ => rfl) rfl rfl
  · exact keeps_ite (P := Keeps c r) (keeps_mk hx0 (fun _ => rfl) rfl rfl) (keeps_mk hx0 (fun _ => rfl) rfl rfl)
  · exact keeps_mk hx0 (fun _ => rfl) rfl rfl

theorem State.runRow_keeps {x0 x1 x2 x3 x4 x5} (hx0 : Keeps c r x0)
    (hx5 : ∀ y0 y1, Keeps c r y0 → Keeps c r (x5 y0 y1)) :
    Keeps c r (State.runRow x0 x1 x2 x3 x4 x5) := by
  unfold State.runRow
  split
  · exact hx0
  · exact (keeps_ite (P := Keeps c r) hx0 (by
      extract_lets +onlyGivenNames -merge -lift v0 v1 v2
      have h3 : ∀ y0 y1 y2, Keeps c r y0 → Keeps c r (v0 y0 y1 y2) := (by
        unfold v0
        exact (fun _ _ _ h4 => (by
          extract_lets +onlyGivenNames -merge -lift v5
          have h6 : Keeps c r v5 := State.modExec_keeps h4
          clear_value v5
          exact keeps_ite (P := Keeps c r) (hx5 _ _ h6) (State.badInstr_keeps h6))))
      clear_value v0
      have h7 : Keeps c r v2 := (by
        unfold v2
        split
        · exact hx0
        · exact (keeps_ite (P := Keeps c r) hx0 (by
            extract_lets +onlyGivenNames -merge -lift v8 v9
            have h10 : Keeps c r v9 := State.setLaunch_keeps hx0
            clear_value v9
            split <;> [exact (keeps_ite (P := Keeps c r) (h3 _ _ _ h10) h10); exact h10])))
      clear_value v2
      split <;> [exact (keeps_ite (P := Keeps c r) (h3 _ _ _ hx0) h7); exact h7]))

theorem State.runNow_keeps {x0 x1 x2 x3 x4} (hx0 : Keeps c r x0)
    (hx4 : ∀ y0 y1, Keeps c r y0 → Keeps c r (x4 y0 y1)) :
    Keeps c r (State.runNow x0 x1 x2 x3 x4) := by
  unfold State.runNow
  exact State.runRow_keeps hx0 hx4

theorem State.schedRelease_keeps {x0 x1} (hx0 : Keeps c r x0) : Keeps c r (State.schedRelease x0 x1) := by
  unfold State.schedRelease
  extract_lets +onlyGivenNames -merge -lift v0 v1 v2
  have h3 : Keeps c r v1 := keeps_foldl (P := Keeps c r) (fun _ _ h4 => (State.setFp_keeps h4)) hx0
  clear_value v1
  have h5 : Keeps c r v2 := keeps_foldl (P := Keeps c r) (fun _ _ h6 => (State.setCu_keeps h6)) h3
  clear_value v2
  exact State.setSched_keeps h5

theorem State.schedStop_keeps {x0 x1} (hx0 : Keeps c r x0) : Keeps c r (State.schedStop x0 x1) := by
  unfold State.schedStop
  extract_lets +onlyGivenNames -merge -lift v0 v1 v2
  have h3 : Keeps c r v1 := keeps_mk hx0 (fun _ => rfl) rfl rfl
  clear_value v1
  have h4 : Keeps c r v2 := State.setSched_keeps h3
  clear_value v2
  exact keeps_ite (P := Keeps c r) h4 (State.partChanged_keeps h4)

theorem State.sxDone_keeps {x0 x1 x2} (hx0 : Keeps c r x0) : Keeps c r (State.sxDone x0 x1 x2) := by
  unfold State.sxDone
  extract_lets +onlyGivenNames -merge -lift v0
  exact State.raise_keeps (State.setSched_keeps hx0)

theorem State.schedAbort_keeps {x0 x1} (hx0 : Keeps c r x0) : Keeps c r (State.schedAbort x0 x1) := by
  unfold State.schedAbort
  extract_lets +onlyGivenNames -merge -lift v0 v1 v2
  have h3 : Keeps c r v0 := State.schedRelease_keeps (State.schedStop_keeps hx0)
  clear_value v0
  have h4 : Keeps c r v2 := State.setSched_keeps h3
  clear_value v2
  exact keeps_ite (P := Keeps c r) (State.sxDone_keeps h4) h4

theorem State.semTake_keeps {x0 x1 x2 x3} (hx0 : Keeps c r x0) : Keeps c r (State.semTake x0 x1 x2 x3) := by
  unfold State.semTake
  extract_lets +onlyGivenNames -merge -lift v0 v1
  have h2 : Keeps c r v1 := State.setSem_keeps hx0
  clear_value v1
  exact State.modCtx_keeps h2

theorem State.semGrantTo_keeps {x0 x1 x2} (hx0 : Keeps c r x0) : Keeps c r (State.semGrantTo x0 x1 x2) := by
  unfold State.semGrantTo
  split
  · exact hx0
  · extract_lets +onlyGivenNames -merge -lift v0 v1
    have h2 : Keeps c r v1 := State.modLaunch_keeps (State.semTake_keeps hx0)
    clear_value v1
    split <;> [exact (State.signalWord_keeps h2); exact h2]

theorem State.semPass_keeps {x0 x1} (hx0 : Keeps c r x0) : Keeps c r (State.semPass x0 x1) := by
  unfold State.semPass
  extract_lets +onlyGivenNames -merge -lift v0
  split <;> [exact (State.semGrantTo_keeps hx0); exact hx0]

theorem State.setBlock_keeps {x0 x1 x2} (hx0 : Keeps c r x0) : Keeps c r (State.setBlock x0 x1 x2) := by
  unfold State.setBlock
  exact keeps_mk hx0 (fun _ => rfl) rfl rfl

theorem State.setDomain_keeps {x0 x1 x2} (hx0 : Keeps c r x0) : Keeps c r (State.setDomain x0 x1 x2) := by
  unfold State.setDomain
  exact keeps_mk hx0 (fun _ => rfl) rfl rfl

theorem State.setMissq_keeps {x0 x1 x2} (hx0 : Keeps c r x0) : Keeps c r (State.setMissq x0 x1 x2) := by
  unfold State.setMissq
  exact keeps_mk hx0 (fun _ => rfl) rfl rfl

theorem State.setObj_keeps {x0 x1 x2} (hx0 : Keeps c r x0) : Keeps c r (State.setObj x0 x1 x2) := by
  unfold State.setObj
  exact keeps_mk hx0 (fun _ => rfl) rfl rfl

theorem State.settle_keeps {x0 x1 x2 x3} (hx0 : Keeps c r x0) : Keeps c r (State.settle x0 x1 x2 x3) := by
  unfold State.settle
  exact keeps_ite (P := Keeps c r) hx0 (State.launchFault_keeps (State.modRegs_keeps hx0))

theorem State.settleChannels_keeps {x0} (hx0 : Keeps c r x0) : Keeps c r (State.settleChannels x0) := by
  unfold State.settleChannels
  exact (keeps_foldl (P := Keeps c r) (fun _ _ h0 => (by
    split <;> [exact (keeps_ite (P := Keeps c r) h0 (State.retireUnit_keeps h0)); exact (State.retireUnit_keeps h0)]))
    hx0)

theorem State.storeBytes_keeps {x0 x1 x2 x3 x4} (hx0 : Keeps c r x0) :
    Keeps1 c r (State.storeBytes x0 x1 x2 x3 x4) := by
  unfold State.storeBytes
  split
  · extract_lets +onlyGivenNames -merge -lift v0 v1
    have h2 : Keeps c r v1 := keeps_foldl (P := Keeps c r) (fun _ _ h3 => (State.captureStore_keeps h3)) hx0
    clear_value v1
    exact keeps_pair1 (State.modEngine_keeps h2)

theorem State.storeWrite_keeps {x0 x1 x2 x3 x4 x5} (hx0 : Keeps c r x0) :
    Keeps1 c r (State.storeWrite x0 x1 x2 x3 x4 x5) := by
  unfold State.storeWrite
  split
  · extract_lets +onlyGivenNames -merge -lift v0 v1
    have h2 : Keeps c r v1 := State.captureStore_keeps hx0
    clear_value v1
    exact keeps_pair1 (State.modEngine_keeps h2)

theorem State.vrun_keeps {x0 x1 x2 x3} (hx0 : Keeps c r x0) (hx3 : ∀ y0 y1, Keeps c r y0 → Keeps c r (x3 y0 y1)) :
    Keeps c r (State.vrun x0 x1 x2 x3) := by
  unfold State.vrun
  exact State.runNow_keeps hx0 (fun _ _ h0 => (hx3 _ _ (State.modEngine_keeps h0)))

theorem State.work_keeps {x0 x1} (hx0 : Keeps c r x0) (hx1 : Keeps c r x1) : Keeps c r (State.work x0 x1) := by
  unfold State.work
  exact keeps_ite (P := Keeps c r) hx1 hx0

theorem State.writeJob_keeps {x0 x1 x2 x3 x4} (hx0 : Keeps c r x0) :
    KeepsW c r (State.writeJob x0 x1 x2 x3 x4) := by
  unfold State.writeJob
  split
  · exact (keeps_ite (P := KeepsW c r) (by
      split
      · rename_i v0 v1 eh0
        have h0 := keeps_eq1 eh0 (State.logBlock_keeps hx0)
        exact keeps_done (keeps_ite (P := Keeps c r) (State.physWrite_keeps h0) h0))
      (keeps_done (State.physWrite_keeps hx0)))
  · exact keeps_dropped
  · exact keeps_ite (P := KeepsW c r) keeps_dropped keeps_stopped
  · exact keeps_stopped

theorem State.writeLine_keeps {x0 x1 x2 x3 x4} (hx0 : Keeps c r x0) :
    KeepsW c r (State.writeLine x0 x1 x2 x3 x4) := by
  unfold State.writeLine
  split
  · exact (keeps_ite (P := KeepsW c r) (by
      split
      · rename_i v0 v1 eh0
        have h0 := keeps_eq1 eh0 (State.logBlock_keeps hx0)
        exact keeps_done (keeps_ite (P := Keeps c r) (State.physWrite_keeps h0) h0))
      (keeps_done (State.physWrite_keeps hx0)))
  · exact keeps_dropped
  · exact keeps_ite (P := KeepsW c r) keeps_dropped keeps_stopped
  · exact keeps_stopped

theorem execBr_keeps {x0 x1} (hx1 : Keeps c r x1) : KeepsX c r (execBr x0 x1) := by
  unfold execBr
  exact (keeps_next
    (State.work_keeps hx1
      (State.runNow_keeps hx1 (fun _ _ h0 => (by
        extract_lets +onlyGivenNames -merge -lift v1
        split <;> [exact (State.bad_keeps h0); exact (State.jumpTo_keeps h0); exact (State.doneRegs_keeps h0)])))))

theorem execBucketRefill_keeps {x0} (hx0 : Keeps c r x0) : KeepsX c r (execBucketRefill x0) := by
  unfold execBucketRefill
  exact keeps_next (State.portWork_keeps hx0 (keeps_mk hx0 (fun _ => rfl) rfl rfl))

theorem execEUndefinedOpcode_keeps {x0 x1} (hx1 : Keeps c r x1) : KeepsX c r (execEUndefinedOpcode x0 x1) := by
  unfold execEUndefinedOpcode
  exact (keeps_next
    (State.work_keeps hx1 (by
      split <;> [exact hx1; exact (State.runNow_keeps hx1 (fun _ _ h0 => (State.bad_keeps h0)))])))

theorem execEndLaunch_keeps {x0 x1} (hx1 : Keeps c r x1) : KeepsX c r (execEndLaunch x0 x1) := by
  unfold execEndLaunch
  exact (keeps_next
    (State.work_keeps hx1
      (State.runRow_keeps hx1 (fun _ _ h0 => (by
        extract_lets +onlyGivenNames -merge -lift v1
        have h2 : Keeps c r v1 := keeps_ite (P := Keeps c r) h0 (State.launchFault_keeps h0)
        clear_value v1
        exact State.endLaunch_keeps h2)))))

theorem execEnq_keeps {x0 x1} (hx1 : Keeps c r x1) : KeepsX c r (execEnq x0 x1) := by
  unfold execEnq
  exact (keeps_next
    (State.work_keeps hx1
      (State.runNow_keeps hx1 (fun _ _ h0 => (by
        extract_lets +onlyGivenNames -merge -lift v1 v2 v3
        exact keeps_ite (P := Keeps c r) (State.bad_keeps h0) (State.fly_keeps h0))))))

theorem execHoldLimitExpire_keeps {x0 x1 x2} (hx2 : Keeps c r x2) : KeepsX c r (execHoldLimitExpire x0 x1 x2) := by
  unfold execHoldLimitExpire
  exact (keeps_next
    (State.work_keeps hx2 (by
      extract_lets +onlyGivenNames -merge -lift v0
      split
      · exact hx2
      · split
        · exact State.semPass_keeps (State.semRelease_keeps hx2)
        · extract_lets +onlyGivenNames -merge -lift v1 v2 v3
          have h4 : Keeps c r v1 := State.modLaunch_keeps (State.semRelease_keeps hx2)
          clear_value v1
          have h5 : Keeps c r v3 := keeps_mk h4 (fun _ => rfl) rfl rfl
          clear_value v3
          exact State.semPass_keeps (State.launchFault_keeps h5))))

theorem execHoursTick_keeps {x0} (hx0 : Keeps c r x0) : KeepsX c r (execHoursTick x0) := by
  unfold execHoursTick
  exact keeps_next (State.work_keeps hx0 (keeps_mk hx0 (fun _ => rfl) rfl rfl))

theorem execJal_keeps {x0 x1} (hx1 : Keeps c r x1) : KeepsX c r (execJal x0 x1) := by
  unfold execJal
  exact (keeps_next
    (State.work_keeps hx1 (State.runNow_keeps hx1 (fun _ _ h0 => (State.jumpTo_keeps (State.modRegs_keeps h0))))))

theorem execJr_keeps {x0 x1} (hx1 : Keeps c r x1) : KeepsX c r (execJr x0 x1) := by
  unfold execJr
  exact (keeps_next
    (State.work_keeps hx1
      (State.runNow_keeps hx1 (fun _ _ h0 => (by
        extract_lets +onlyGivenNames -merge -lift v1
        exact keeps_ite (P := Keeps c r) (State.bad_keeps h0) (State.jumpTo_keeps h0))))))

theorem execKset_keeps {x0 x1} (hx1 : Keeps c r x1) : KeepsX c r (execKset x0 x1) := by
  unfold execKset
  exact keeps_next (State.work_keeps hx1 (State.runNow_keeps hx1 (fun _ _ h0 => (State.doneRegs_keeps h0))))

theorem execNop_keeps {x0 x1} (hx1 : Keeps c r x1) : KeepsX c r (execNop x0 x1) := by
  unfold execNop
  exact keeps_next (State.work_keeps hx1 (State.runNow_keeps hx1 (fun _ _ h0 => (State.doneRegs_keeps h0))))

theorem execPcnt_keeps {x0 x1} (hx1 : Keeps c r x1) : KeepsX c r (execPcnt x0 x1) := by
  unfold execPcnt
  exact (keeps_next
    (State.work_keeps hx1
      (State.vrun_keeps hx1 (fun _ _ h0 => (by
        extract_lets +onlyGivenNames -merge -lift v1
        exact State.doneRegs_keeps h0)))))

theorem execPfirst_keeps {x0 x1} (hx1 : Keeps c r x1) : KeepsX c r (execPfirst x0 x1) := by
  unfold execPfirst
  exact (keeps_next
    (State.work_keeps hx1
      (State.vrun_keeps hx1 (fun _ _ h0 => (by
        extract_lets +onlyGivenNames -merge -lift v1
        exact State.doneRegs_keeps h0)))))

theorem execPlogic_keeps {x0 x1} (hx1 : Keeps c r x1) : KeepsX c r (execPlogic x0 x1) := by
  unfold execPlogic
  exact (keeps_next
    (State.work_keeps hx1
      (State.vrun_keeps hx1 (fun _ _ h0 => (by
        extract_lets +onlyGivenNames -merge -lift v1
        exact State.doneRegs_keeps h0)))))

theorem execQwait_keeps {x0 x1} (hx1 : Keeps c r x1) : KeepsX c r (execQwait x0 x1) := by
  unfold execQwait
  exact (keeps_next
    (State.work_keeps hx1
      (State.runRow_keeps hx1 (fun _ _ h0 =>
        (keeps_ite (P := Keeps c r) (State.beginWait_keeps h0) (State.bad_keeps h0))))))

theorem execRecAccessFail_keeps {x0} (hx0 : Keeps c r x0) : KeepsX c r (execRecAccessFail x0) := by
  unfold execRecAccessFail
  exact keeps_next (State.portWork_keeps hx0 (State.rmAccessFail_keeps hx0))

theorem execRmClear_keeps {x0} (hx0 : Keeps c r x0) : KeepsX c r (execRmClear x0) := by
  unfold execRmClear
  exact (keeps_next
    (State.work_keeps hx0
      (keeps_ite (P := Keeps c r) (keeps_mk hx0 (fun _ => rfl) rfl rfl) (by
        extract_lets +onlyGivenNames -merge -lift v0 v1 v2 v3
        exact keeps_mk hx0 (fun _ => rfl) rfl rfl))))

theorem execRmSelect_keeps {x0 x1} (hx1 : Keeps c r x1) : KeepsX c r (execRmSelect x0 x1) := by
  unfold execRmSelect
  exact (keeps_next
    (State.work_keeps hx1 (by
      extract_lets +onlyGivenNames -merge -lift v0 v1 v2 v3
      have h4 : ∀ y0, Keeps c r (v3 y0) := (by unfold v3; exact (fun _ => (keeps_mk hx1 (fun _ => rfl) rfl rfl)))
      clear_value v3
      exact (keeps_ite (P := Keeps c r) hx1 (by
        split
        · exact h4 _
        · exact (keeps_ite (P := Keeps c r) (h4 _)
            (keeps_ite (P := Keeps c r) (keeps_mk hx1 (fun _ => rfl) rfl rfl) (by
              extract_lets +onlyGivenNames -merge -lift v5
              exact keeps_mk hx1 (fun _ => rfl) rfl rfl))))))))

theorem execRmShutdown_keeps {x0} (hx0 : Keeps c r x0) : KeepsX c r (execRmShutdown x0) := by
  unfold execRmShutdown
  exact keeps_next (State.work_keeps hx0 (keeps_mk hx0 (fun _ => rfl) rfl rfl))

theorem execRmStoreReadComplete_keeps {x0 x1} (hx1 : Keeps c r x1) :
    KeepsX c r (execRmStoreReadComplete x0 x1) := by
  unfold execRmStoreReadComplete
  exact keeps_next (State.portWork_keeps hx1 (State.rmReadDone_keeps hx1))

theorem execRmStoreWriteComplete_keeps {x0 x1} (hx1 : Keeps c r x1) :
    KeepsX c r (execRmStoreWriteComplete x0 x1) := by
  unfold execRmStoreWriteComplete
  exact (keeps_next
    (State.portWork_keeps hx1 (by
      split
      · exact hx1
      · exact (keeps_ite (P := Keeps c r) hx1
          (keeps_ite (P := Keeps c r) (State.rmWriteDone_keeps hx1) (State.rmAccessFail_keeps hx1))))))

theorem execSacq_keeps {x0 x1} (hx1 : Keeps c r x1) : KeepsX c r (execSacq x0 x1) := by
  unfold execSacq
  exact (keeps_next
    (State.work_keeps hx1
      (State.runNow_keeps hx1 (fun _ _ h0 => (by
        extract_lets +onlyGivenNames -merge -lift v1 v2 v3
        exact (keeps_ite (P := Keeps c r) (State.bad_keeps h0) (by
          extract_lets +onlyGivenNames -merge -lift v4 v5
          have h6 : Keeps c r v4 := State.modLaunch_keeps h0
          clear_value v4
          have h7 : Keeps c r v5 := State.setSem_keeps h6
          clear_value v5
          exact keeps_ite (P := Keeps c r) (State.semGrantTo_keeps h7) h7)))))))

theorem execSalu_keeps {x0 x1} (hx1 : Keeps c r x1) : KeepsX c r (execSalu x0 x1) := by
  unfold execSalu
  exact (keeps_next
    (State.work_keeps hx1
      (State.runNow_keeps hx1 (fun _ _ h0 => (by
        extract_lets +onlyGivenNames -merge -lift v1
        split <;> [exact (State.bad_keeps h0); exact (State.doneS_keeps h0)])))))

theorem execSalui_keeps {x0 x1} (hx1 : Keeps c r x1) : KeepsX c r (execSalui x0 x1) := by
  unfold execSalui
  exact (keeps_next
    (State.work_keeps hx1
      (State.runNow_keeps hx1 (fun _ _ h0 => (by
        extract_lets +onlyGivenNames -merge -lift v1
        split <;> [exact (State.bad_keeps h0); exact (State.doneS_keeps h0)])))))

theorem execSemaphoreGrant_keeps {x0 x1 x2} (hx2 : Keeps c r x2) : KeepsX c r (execSemaphoreGrant x0 x1 x2) := by
  unfold execSemaphoreGrant
  exact keeps_next (State.work_keeps hx2 (State.semPass_keeps hx2))

theorem execSld_keeps {x0 x1} (hx1 : Keeps c r x1) : KeepsX c r (execSld x0 x1) := by
  unfold execSld
  exact (keeps_next
    (State.work_keeps hx1
      (State.runNow_keeps hx1 (fun _ _ h0 => (by
        extract_lets +onlyGivenNames -merge -lift v1
        exact (keeps_ite (P := Keeps c r) (State.bad_keeps h0) (by
          extract_lets +onlyGivenNames -merge -lift v2
          exact State.settle_keeps (State.doneS_keeps h0))))))))

theorem execSli_keeps {x0 x1} (hx1 : Keeps c r x1) : KeepsX c r (execSli x0 x1) := by
  unfold execSli
  exact keeps_next (State.work_keeps hx1 (State.runNow_keeps hx1 (fun _ _ h0 => (State.doneS_keeps h0))))

theorem execSlui_keeps {x0 x1} (hx1 : Keeps c r x1) : KeepsX c r (execSlui x0 x1) := by
  unfold execSlui
  exact (keeps_next
    (State.work_keeps hx1
      (State.runNow_keeps hx1 (fun _ _ h0 => (by
        extract_lets +onlyGivenNames -merge -lift v1
        exact State.doneRegs_keeps h0)))))

theorem execSparam_keeps {x0 x1} (hx1 : Keeps c r x1) : KeepsX c r (execSparam x0 x1) := by
  unfold execSparam
  exact keeps_next (State.work_keeps hx1 (State.runNow_keeps hx1 (fun _ _ h0 => (State.doneS_keeps h0))))

theorem execSrel_keeps {x0 x1} (hx1 : Keeps c r x1) : KeepsX c r (execSrel x0 x1) := by
  unfold execSrel
  exact (keeps_next
    (State.work_keeps hx1
      (State.runNow_keeps hx1 (fun _ _ h0 => (by
        extract_lets +onlyGivenNames -merge -lift v1
        exact (keeps_ite (P := Keeps c r) (State.doneRegs_keeps (State.modLaunch_keeps (State.semRelease_keeps h0)))
          (keeps_ite (P := Keeps c r) (State.doneRegs_keeps (State.modLaunch_keeps h0)) (State.bad_keeps h0))))))))

theorem execSst_keeps {x0 x1} (hx1 : Keeps c r x1) : KeepsX c r (execSst x0 x1) := by
  unfold execSst
  exact (keeps_next
    (State.work_keeps hx1
      (State.runNow_keeps hx1 (fun _ _ h0 => (by
        extract_lets +onlyGivenNames -merge -lift v1
        exact (keeps_ite (P := Keeps c r) (State.bad_keeps h0) (by
          extract_lets +onlyGivenNames -merge -lift v2
          have h3 : Keeps1 c r v2 := State.storeWrite_keeps h0
          clear_value v2
          exact State.settle_keeps (State.doneRegs_keeps (keeps_fst h3)))))))))

theorem execSstat_keeps {x0 x1} (hx1 : Keeps c r x1) : KeepsX c r (execSstat x0 x1) := by
  unfold execSstat
  exact (keeps_next
    (State.work_keeps hx1
      (State.runNow_keeps hx1 (fun _ _ h0 => (by
        extract_lets +onlyGivenNames -merge -lift v1 v2
        exact (keeps_ite (P := Keeps c r) (by
          extract_lets +onlyGivenNames -merge -lift v3
          have h4 : Keeps2 c r v3 := State.free_keeps h0
          clear_value v3
          exact State.doneS_keeps (keeps_snd h4)) (by
          split <;> [exact (State.bad_keeps h0); exact (State.doneS_keeps h0)])))))))

theorem execTdld_keeps {x0 x1} (hx1 : Keeps c r x1) : KeepsX c r (execTdld x0 x1) := by
  unfold execTdld
  exact (keeps_next
    (State.work_keeps hx1
      (State.runNow_keeps hx1 (fun _ _ h0 => (by
        extract_lets +onlyGivenNames -merge -lift v1
        exact (keeps_ite (P := Keeps c r) (State.bad_keeps h0) (by
          extract_lets +onlyGivenNames -merge -lift v2
          exact State.settle_keeps (State.doneRegs_keeps h0))))))))

theorem execTdset_keeps {x0 x1} (hx1 : Keeps c r x1) : KeepsX c r (execTdset x0 x1) := by
  unfold execTdset
  exact (keeps_next
    (State.work_keeps hx1
      (State.runNow_keeps hx1 (fun _ _ h0 => (by
        extract_lets +onlyGivenNames -merge -lift v1
        split <;> [exact (State.bad_keeps h0); exact (State.doneRegs_keeps h0)])))))

theorem execTimeCommit_keeps {x0} (hx0 : Keeps c r x0) : KeepsX c r (execTimeCommit x0) := by
  unfold execTimeCommit
  exact keeps_next (State.work_keeps hx0 (keeps_ite (P := Keeps c r) (keeps_mk hx0 (fun _ => rfl) rfl rfl) hx0))

theorem execVadd_keeps {x0 x1 x2} (hx2 : Keeps c r x2) : KeepsX c r (execVadd x0 x1 x2) := by
  unfold execVadd
  exact (keeps_next
    (State.work_keeps hx2
      (State.vrun_keeps hx2 (fun _ _ h0 => (State.checked_keeps h0 (fun _ h1 => (State.lanes2_keeps h1)))))))

theorem execVand_keeps {x0 x1} (hx1 : Keeps c r x1) : KeepsX c r (execVand x0 x1) := by
  unfold execVand
  exact keeps_next (State.work_keeps hx1 (State.vrun_keeps hx1 (fun _ _ h0 => (State.lanes2_keeps h0))))

theorem execVbcst_keeps {x0 x1} (hx1 : Keeps c r x1) : KeepsX c r (execVbcst x0 x1) := by
  unfold execVbcst
  exact keeps_next (State.work_keeps hx1 (State.vrun_keeps hx1 (fun _ _ h0 => (State.doneRegs_keeps h0))))

theorem execVcmp_keeps {x0 x1} (hx1 : Keeps c r x1) : KeepsX c r (execVcmp x0 x1) := by
  unfold execVcmp
  exact keeps_next (State.work_keeps hx1 (State.vrun_keeps hx1 (fun _ _ h0 => (State.compare_keeps h0))))

theorem execVcvtToFp32_keeps {x0 x1} (hx1 : Keeps c r x1) : KeepsX c r (execVcvtToFp32 x0 x1) := by
  unfold execVcvtToFp32
  exact (keeps_next
    (State.work_keeps hx1
      (State.vrun_keeps hx1 (fun _ _ h0 =>
        (keeps_ite (P := Keeps c r) (State.lanes1_keeps h0) (State.bad_keeps h0))))))

theorem execVcvtToInt32_keeps {x0 x1} (hx1 : Keeps c r x1) : KeepsX c r (execVcvtToInt32 x0 x1) := by
  unfold execVcvtToInt32
  exact (keeps_next
    (State.work_keeps hx1
      (State.vrun_keeps hx1 (fun _ _ h0 => (by
        extract_lets +onlyGivenNames -merge -lift v1 v2 v3 v4
        exact State.lanes1_keeps (State.addSat_keeps h0))))))

theorem execVexp2_keeps {x0 x1 x2} (hx2 : Keeps c r x2) : KeepsX c r (execVexp2 x0 x1 x2) := by
  unfold execVexp2
  exact (keeps_next
    (State.work_keeps hx2
      (State.vrun_keeps hx2 (fun _ _ h0 => (State.checked_keeps h0 (fun _ h1 => (State.lanes1_keeps h1)))))))

theorem execVfma_keeps {x0 x1 x2} (hx2 : Keeps c r x2) : KeepsX c r (execVfma x0 x1 x2) := by
  unfold execVfma
  exact (keeps_next
    (State.work_keeps hx2
      (State.vrun_keeps hx2 (fun _ _ h0 =>
        (State.checked_keeps h0 (fun _ h1 => (by
          extract_lets +onlyGivenNames -merge -lift v2
          exact State.writeLanes_keeps h1)))))))

theorem execViadd_keeps {x0 x1} (hx1 : Keeps c r x1) : KeepsX c r (execViadd x0 x1) := by
  unfold execViadd
  exact keeps_next (State.work_keeps hx1 (State.vrun_keeps hx1 (fun _ _ h0 => (State.lanes2_keeps h0))))

theorem execVicmp_keeps {x0 x1} (hx1 : Keeps c r x1) : KeepsX c r (execVicmp x0 x1) := by
  unfold execVicmp
  exact keeps_next (State.work_keeps hx1 (State.vrun_keeps hx1 (fun _ _ h0 => (State.compare_keeps h0))))

theorem execVimax_keeps {x0 x1} (hx1 : Keeps c r x1) : KeepsX c r (execVimax x0 x1) := by
  unfold execVimax
  exact keeps_next (State.work_keeps hx1 (State.vrun_keeps hx1 (fun _ _ h0 => (State.lanes2_keeps h0))))

theorem execVimin_keeps {x0 x1} (hx1 : Keeps c r x1) : KeepsX c r (execVimin x0 x1) := by
  unfold execVimin
  exact keeps_next (State.work_keeps hx1 (State.vrun_keeps hx1 (fun _ _ h0 => (State.lanes2_keeps h0))))

theorem execVimul_keeps {x0 x1} (hx1 : Keeps c r x1) : KeepsX c r (execVimul x0 x1) := by
  unfold execVimul
  exact keeps_next (State.work_keeps hx1 (State.vrun_keeps hx1 (fun _ _ h0 => (State.lanes2_keeps h0))))

theorem execViota_keeps {x0 x1} (hx1 : Keeps c r x1) : KeepsX c r (execViota x0 x1) := by
  unfold execViota
  exact keeps_next (State.work_keeps hx1 (State.vrun_keeps hx1 (fun _ _ h0 => (State.doneRegs_keeps h0))))

theorem execVirsum_keeps {x0 x1} (hx1 : Keeps c r x1) : KeepsX c r (execVirsum x0 x1) := by
  unfold execVirsum
  exact (keeps_next
    (State.work_keeps hx1
      (State.vrun_keeps hx1 (fun _ _ h0 => (by
        extract_lets +onlyGivenNames -merge -lift v1
        exact State.doneRegs_keeps h0)))))

theorem execVisub_keeps {x0 x1} (hx1 : Keeps c r x1) : KeepsX c r (execVisub x0 x1) := by
  unfold execVisub
  exact keeps_next (State.work_keeps hx1 (State.vrun_keeps hx1 (fun _ _ h0 => (State.lanes2_keeps h0))))

theorem execVld_keeps {x0 x1} (hx1 : Keeps c r x1) : KeepsX c r (execVld x0 x1) := by
  unfold execVld
  exact (keeps_next
    (State.work_keeps hx1
      (State.vrun_keeps hx1 (fun _ _ h0 => (by
        extract_lets +onlyGivenNames -merge -lift v1 v2
        exact (keeps_ite (P := Keeps c r) (State.bad_keeps h0)
          (keeps_ite (P := Keeps c r) (State.doneRegs_keeps h0) (by
            extract_lets +onlyGivenNames -merge -lift v3
            exact State.settle_keeps (State.doneRegs_keeps h0)))))))))

theorem execVldt_keeps {x0 x1} (hx1 : Keeps c r x1) : KeepsX c r (execVldt x0 x1) := by
  unfold execVldt
  exact (keeps_next
    (State.work_keeps hx1
      (State.vrun_keeps hx1 (fun _ _ h0 => (by
        split
        · exact State.bad_keeps h0
        · extract_lets +onlyGivenNames -merge -lift v1 v2 v3 v4 v5
          have h6 : Keeps c r v5 := State.addT2_keeps h0
          clear_value v5
          exact State.settle_keeps (State.doneRegs_keeps h6))))))

theorem execVlog2_keeps {x0 x1 x2} (hx2 : Keeps c r x2) : KeepsX c r (execVlog2 x0 x1 x2) := by
  unfold execVlog2
  exact (keeps_next
    (State.work_keeps hx2
      (State.vrun_keeps hx2 (fun _ _ h0 => (State.checked_keeps h0 (fun _ h1 => (State.lanes1_keeps h1)))))))

theorem execVmax_keeps {x0 x1} (hx1 : Keeps c r x1) : KeepsX c r (execVmax x0 x1) := by
  unfold execVmax
  exact keeps_next (State.work_keeps hx1 (State.vrun_keeps hx1 (fun _ _ h0 => (State.lanes2_keeps h0))))

theorem execVmin_keeps {x0 x1} (hx1 : Keeps c r x1) : KeepsX c r (execVmin x0 x1) := by
  unfold execVmin
  exact keeps_next (State.work_keeps hx1 (State.vrun_keeps hx1 (fun _ _ h0 => (State.lanes2_keeps h0))))

theorem execVmovs_keeps {x0 x1} (hx1 : Keeps c r x1) : KeepsX c r (execVmovs x0 x1) := by
  unfold execVmovs
  exact (keeps_next
    (State.work_keeps hx1
      (State.vrun_keeps hx1 (fun _ _ h0 => (by
        extract_lets +onlyGivenNames -merge -lift v1
        exact State.doneRegs_keeps h0)))))

theorem execVmul_keeps {x0 x1 x2} (hx2 : Keeps c r x2) : KeepsX c r (execVmul x0 x1 x2) := by
  unfold execVmul
  exact (keeps_next
    (State.work_keeps hx2
      (State.vrun_keeps hx2 (fun _ _ h0 => (State.checked_keeps h0 (fun _ h1 => (State.lanes2_keeps h1)))))))

theorem execVmxq_keeps {x0 x1} (hx1 : Keeps c r x1) : KeepsX c r (execVmxq x0 x1) := by
  unfold execVmxq
  exact (keeps_next
    (State.work_keeps hx1
      (State.vrun_keeps hx1 (fun _ _ h0 => (by
        extract_lets +onlyGivenNames -merge -lift v1 v2
        exact keeps_ite (P := Keeps c r) (State.bad_keeps h0) (State.doneRegs_keeps h0))))))

theorem execVor_keeps {x0 x1} (hx1 : Keeps c r x1) : KeepsX c r (execVor x0 x1) := by
  unfold execVor
  exact keeps_next (State.work_keeps hx1 (State.vrun_keeps hx1 (fun _ _ h0 => (State.lanes2_keeps h0))))

theorem execVrcp_keeps {x0 x1 x2} (hx2 : Keeps c r x2) : KeepsX c r (execVrcp x0 x1 x2) := by
  unfold execVrcp
  exact (keeps_next
    (State.work_keeps hx2
      (State.vrun_keeps hx2 (fun _ _ h0 => (State.checked_keeps h0 (fun _ h1 => (State.lanes1_keeps h1)))))))

theorem execVrmax_keeps {x0 x1} (hx1 : Keeps c r x1) : KeepsX c r (execVrmax x0 x1) := by
  unfold execVrmax
  exact keeps_next (State.work_keeps hx1 (State.vrun_keeps hx1 (fun _ _ h0 => (State.reduce_keeps h0))))

theorem execVrmin_keeps {x0 x1} (hx1 : Keeps c r x1) : KeepsX c r (execVrmin x0 x1) := by
  unfold execVrmin
  exact keeps_next (State.work_keeps hx1 (State.vrun_keeps hx1 (fun _ _ h0 => (State.reduce_keeps h0))))

theorem execVrsqrt_keeps {x0 x1 x2} (hx2 : Keeps c r x2) : KeepsX c r (execVrsqrt x0 x1 x2) := by
  unfold execVrsqrt
  exact (keeps_next
    (State.work_keeps hx2
      (State.vrun_keeps hx2 (fun _ _ h0 => (State.checked_keeps h0 (fun _ h1 => (State.lanes1_keeps h1)))))))

theorem execVrsum_keeps {x0 x1} (hx1 : Keeps c r x1) : KeepsX c r (execVrsum x0 x1) := by
  unfold execVrsum
  exact keeps_next (State.work_keeps hx1 (State.vrun_keeps hx1 (fun _ _ h0 => (State.reduce_keeps h0))))

theorem execVsel_keeps {x0 x1} (hx1 : Keeps c r x1) : KeepsX c r (execVsel x0 x1) := by
  unfold execVsel
  exact (keeps_next
    (State.work_keeps hx1
      (State.vrun_keeps hx1 (fun _ _ h0 => (by
        extract_lets +onlyGivenNames -merge -lift v1
        exact State.doneRegs_keeps h0)))))

theorem execVshl_keeps {x0 x1} (hx1 : Keeps c r x1) : KeepsX c r (execVshl x0 x1) := by
  unfold execVshl
  exact keeps_next (State.work_keeps hx1 (State.vrun_keeps hx1 (fun _ _ h0 => (State.lanes2_keeps h0))))

theorem execVshr_keeps {x0 x1} (hx1 : Keeps c r x1) : KeepsX c r (execVshr x0 x1) := by
  unfold execVshr
  exact keeps_next (State.work_keeps hx1 (State.vrun_keeps hx1 (fun _ _ h0 => (State.lanes2_keeps h0))))

theorem execVsqrt_keeps {x0 x1 x2} (hx2 : Keeps c r x2) : KeepsX c r (execVsqrt x0 x1 x2) := by
  unfold execVsqrt
  exact (keeps_next
    (State.work_keeps hx2
      (State.vrun_keeps hx2 (fun _ _ h0 => (State.checked_keeps h0 (fun _ h1 => (State.lanes1_keeps h1)))))))

theorem execVsra_keeps {x0 x1} (hx1 : Keeps c r x1) : KeepsX c r (execVsra x0 x1) := by
  unfold execVsra
  exact keeps_next (State.work_keeps hx1 (State.vrun_keeps hx1 (fun _ _ h0 => (State.lanes2_keeps h0))))

theorem execVst_keeps {x0 x1} (hx1 : Keeps c r x1) : KeepsX c r (execVst x0 x1) := by
  unfold execVst
  exact (keeps_next
    (State.work_keeps hx1
      (State.vrun_keeps hx1 (fun _ _ h0 => (by
        extract_lets +onlyGivenNames -merge -lift v1 v2
        exact (keeps_ite (P := Keeps c r) (State.bad_keeps h0) (by
          extract_lets +onlyGivenNames -merge -lift v3 v4 v5 v6
          have h7 : Keeps1 c r v6 := State.storeBytes_keeps h0
          clear_value v6
          exact State.settle_keeps (State.doneRegs_keeps (keeps_fst h7)))))))))

theorem execVstt_keeps {x0 x1} (hx1 : Keeps c r x1) : KeepsX c r (execVstt x0 x1) := by
  unfold execVstt
  exact (keeps_next
    (State.work_keeps hx1
      (State.vrun_keeps hx1 (fun _ _ h0 => (by
        split
        · exact State.bad_keeps h0
        · extract_lets +onlyGivenNames -merge -lift v1 v2 v3 v4 v5 v6 v7 v8 v9
          have h10 : Keeps1 c r v9 := State.storeBytes_keeps h0
          clear_value v9
          exact State.settle_keeps (State.doneRegs_keeps (State.addSat_keeps (keeps_fst h10))))))))

theorem execVsub_keeps {x0 x1 x2} (hx2 : Keeps c r x2) : KeepsX c r (execVsub x0 x1 x2) := by
  unfold execVsub
  exact (keeps_next
    (State.work_keeps hx2
      (State.vrun_keeps hx2 (fun _ _ h0 => (State.checked_keeps h0 (fun _ h1 => (State.lanes2_keeps h1)))))))

theorem execVtanh_keeps {x0 x1 x2} (hx2 : Keeps c r x2) : KeepsX c r (execVtanh x0 x1 x2) := by
  unfold execVtanh
  exact (keeps_next
    (State.work_keeps hx2
      (State.vrun_keeps hx2 (fun _ _ h0 => (State.checked_keeps h0 (fun _ h1 => (State.lanes1_keeps h1)))))))

theorem execVxor_keeps {x0 x1} (hx1 : Keeps c r x1) : KeepsX c r (execVxor x0 x1) := by
  unfold execVxor
  exact keeps_next (State.work_keeps hx1 (State.vrun_keeps hx1 (fun _ _ h0 => (State.lanes2_keeps h0))))

end Sys2Proof.Machine
end

