-- ==== Sys2Proof/Laws/KeepsEngine.lean ====
section
/-! SUPPORT. What the tensor unit, the collectives, the movers and the life of a launch keep. -/

namespace Sys2Proof.Machine

variable {c : Bool} {r : State}

theorem State.chargeMoved_keeps {x0 x1 x2 x3} (hx0 : Keeps c r x0) : Keeps c r (State.chargeMoved x0 x1 x2 x3) := by
  unfold State.chargeMoved
  split
  · exact hx0
  · extract_lets +onlyGivenNames -merge -lift v0 v1
    exact State.chargeBytes_keeps (State.setLaunch_keeps hx0)

theorem State.countMove_keeps {x0 x1 x2 x3} (hx0 : Keeps c r x0) : Keeps c r (State.countMove x0 x1 x2 x3) := by
  unfold State.countMove
  exact State.modEngine_keeps hx0

theorem MoveRun.line_keeps {x0 x1 x2 x3 x4 x5} (hx0 : KeepsM c r x0) :
    KeepsM c r (MoveRun.line x0 x1 x2 x3 x4 x5) := by
  unfold MoveRun.line
  split
  · exact hx0
  · dsimp only
    split
    · exact hx0
    · split <;> exact hx0
    · exact hx0
    · split
      · exact hx0
      · exact keeps_move (State.chargeMoved_keeps (State.countMove_keeps (State.physWrite_keeps (keeps_move_s hx0))))

theorem MoveRun.row_keeps {x0 x1 x2} (hx0 : KeepsM c r x0) : KeepsM c r (MoveRun.row x0 x1 x2) := by
  unfold MoveRun.row
  split
  · exact hx0
  · exact hx0
  · extract_lets +onlyGivenNames -merge -lift v0 v1 v2
    split
    · exact keeps_move (keeps_move_s hx0)
    · extract_lets +onlyGivenNames -merge -lift v3 v4 v5 v6
      have h7 : KeepsM c r v4 := keeps_ite (P := KeepsM c r) hx0 (keeps_move (keeps_move_s hx0))
      clear_value v4
      have h8 : KeepsM c r v5 := keeps_move (State.countMove_keeps (State.chargeMoved_keeps (keeps_move_s h7)))
      clear_value v5
      have h9 : ∀ y0, KeepsM c r y0 → KeepsM c r (v6 y0) := (by
        unfold v6
        exact (fun _ h10 => (keeps_move (keeps_move_s h10))))
      clear_value v6
      exact (keeps_ite (P := KeepsM c r) (by
        extract_lets +onlyGivenNames -merge -lift v11 v12
        have h13 : KeepsM c r v12 := keeps_foldl (P := KeepsM c r) (fun _ _ h14 => (MoveRun.line_keeps h14)) h8
        clear_value v12
        exact keeps_ite (P := KeepsM c r) h13 (h9 _ h13)) (by
        extract_lets +onlyGivenNames -merge -lift v15
        have h16 : Keeps1 c r v15 := State.storeWrite_keeps (keeps_move_s h8)
        clear_value v15
        exact h9 _ (keeps_move (keeps_fst h16))))

theorem State.acted_keeps {x0 x1} (hx0 : Keeps c r x0) : Keeps c r (State.acted x0 x1) := by
  unfold State.acted
  split <;> [exact hx0; exact (State.setCmd_keeps hx0)]

theorem State.arrayWorked_keeps {x0 x1 x2} (hx0 : Keeps c r x0) : Keeps c r (State.arrayWorked x0 x1 x2) := by
  unfold State.arrayWorked
  extract_lets +onlyGivenNames -merge -lift v0
  have h1 : Keeps2 c r v0 := State.free_keeps hx0
  clear_value v0
  exact State.modEngine_keeps (keeps_snd h1)

theorem State.askCapture_keeps {x0 x1 x2 x3} (hx0 : Keeps c r x0) : Keeps c r (State.askCapture x0 x1 x2 x3) := by
  unfold State.askCapture
  exact State.setLaunch_keeps hx0

theorem State.cmdFault_keeps {x0 x1 x2 x3 x4} (hx0 : Keeps c r x0) : Keeps c r (State.cmdFault x0 x1 x2 x3 x4) := by
  unfold State.cmdFault
  split <;> [exact hx0; exact (State.fault_keeps hx0)]

theorem State.finishCmd_keeps {x0 x1} (hx0 : Keeps c r x0) : Keeps c r (State.finishCmd x0 x1) := by
  unfold State.finishCmd
  split <;> [exact hx0; exact (State.completeCmd_keeps hx0)]

theorem State.badCmd_keeps {x0 x1} (hx0 : Keeps c r x0) : Keeps c r (State.badCmd x0 x1) := by
  unfold State.badCmd
  exact State.finishCmd_keeps (State.cmdFault_keeps hx0)

theorem State.chargeFabric_keeps {x0 x1} (hx0 : Keeps c r x0) : Keeps c r (State.chargeFabric x0 x1) := by
  unfold State.chargeFabric
  exact keeps_ite (P := Keeps c r) hx0 (State.modCtx_keeps hx0)

theorem State.closeCall_keeps {x0 x1} (hx0 : Keeps c r x0) : Keeps c r (State.closeCall x0 x1) := by
  unfold State.closeCall
  exact keeps_ite (P := Keeps c r) hx0 (by split <;> [exact hx0; exact (State.completeCmd_keeps hx0)])

theorem State.cmdStall_keeps {x0 x1 x2 x3 x4 x5} (hx0 : Keeps c r x0) (hx5 : ∀ y0, Keeps c r y0 → Keeps c r (x5 y0))
    :
    Keeps c r (State.cmdStall x0 x1 x2 x3 x4 x5) := by
  unfold State.cmdStall
  split
  · exact hx0
  · split
    · rename_i v0 eh0
      have h0 := keeps_eqR eh0 (State.raiseSegFault_keeps hx0)
      exact State.setCmd_keeps h0
    · rename_i v1 eh1
      have h1 := keeps_eqR eh1 (State.raiseSegFault_keeps hx0)
      exact hx5 _ (State.cmdFault_keeps (State.setCmd_keeps h1))

theorem State.cmdViol_keeps {x0 x1 x2} (hx0 : Keeps c r x0) : Keeps c r (State.cmdViol x0 x1 x2) := by
  unfold State.cmdViol
  exact keeps_ite (P := Keeps c r) hx0 (State.cmdFault_keeps hx0)

theorem State.cmdReadN_keeps {x0 x1 x2 x3 x4 x5} (hx1 : Keeps c r x1)
    (hx5 : ∀ y0 y1, Keeps c r y0 → Keeps c r (x5 y0 y1)) :
    Keeps c r (State.cmdReadN x0 x1 x2 x3 x4 x5) := by
  induction x0 generalizing x1 x2 x3 x4 x5 with
  | zero =>
    exact hx1
  | succ n ih =>
    unfold State.cmdReadN
    split
    · exact hx1
    · extract_lets +onlyGivenNames -merge -lift v0
      split
      · extract_lets +onlyGivenNames -merge -lift v1
        have h2 : Keeps c r v1 := State.cmdViol_keeps (State.chargeBytes_keeps hx1)
        clear_value v1
        exact keeps_ite (P := Keeps c r) (hx5 _ _ h2) h2
      · exact State.cmdStall_keeps hx1 (fun _ h3 => (ih h3 hx5))

theorem State.cmdRead_keeps {x0 x1 x2 x3 x4} (hx0 : Keeps c r x0)
    (hx4 : ∀ y0 y1, Keeps c r y0 → Keeps c r (x4 y0 y1)) :
    Keeps c r (State.cmdRead x0 x1 x2 x3 x4) := by
  unfold State.cmdRead
  exact State.cmdReadN_keeps hx0 hx4

theorem State.cmdWrite_keeps {x0 x1 x2 x3 x4 x5} (hx0 : Keeps c r x0) (hx5 : ∀ y0, Keeps c r y0 → Keeps c r (x5 y0))
    :
    Keeps c r (State.cmdWrite x0 x1 x2 x3 x4 x5) := by
  unfold State.cmdWrite
  split
  · rename_i v0 v1 eh0
    have h0 := keeps_eqW eh0 (State.writeLine_keeps hx0)
    exact hx5 _ (State.chargeBytes_keeps h0)
  · exact hx5 _ (State.cmdViol_keeps hx0)
  · exact State.cmdStall_keeps hx0 (fun _ h2 => (hx5 _ (State.cmdViol_keeps h2)))

theorem State.combinerWrite_keeps {x0 x1 x2 x3 x4} (hx0 : Keeps c r x0) :
    Keeps1 c r (State.combinerWrite x0 x1 x2 x3 x4) := by
  unfold State.combinerWrite
  split <;> [exact (keeps_pair1 (State.modEngine_keeps hx0))]

theorem State.signalPartial_keeps {x0 x1 x2} (hx0 : Keeps c r x0) : Keeps c r (State.signalPartial x0 x1 x2) := by
  unfold State.signalPartial
  extract_lets +onlyGivenNames -merge -lift v0
  exact (keeps_ite (P := Keeps c r) hx0
    (keeps_ite (P := Keeps c r) (State.sendSignal_keeps hx0) (State.fault_keeps hx0)))

theorem State.combinerFinish_keeps {x0 x1 x2} (hx0 : Keeps c r x0) : Keeps c r (State.combinerFinish x0 x1 x2) := by
  unfold State.combinerFinish
  extract_lets +onlyGivenNames -merge -lift v0 v1 v2
  have h3 : Keeps c r v2 := State.modEngine_keeps hx0
  clear_value v2
  exact (keeps_ite (P := Keeps c r) (State.fault_keeps h3) (by
    extract_lets +onlyGivenNames -merge -lift v4 v5 v6 v7
    have h8 : Keeps1 c r v5 := (keeps_foldl (P := Keeps1 c r) (fun _ _ h9 => (by
      extract_lets +onlyGivenNames -merge -lift v10
      have h11 : Keeps1 c r v10 := State.combinerWrite_keeps (keeps_fst h9)
      clear_value v10
      exact keeps_pair1 (keeps_fst h11))) (keeps_pair1 h3))
    clear_value v5
    have h12 : Keeps c r v6 := State.modEngine_keeps (keeps_fst h8)
    clear_value v6
    have h13 : Keeps c r v7 := keeps_ite (P := Keeps c r) h12 (State.fault_keeps h12)
    clear_value v7
    exact State.signalPartial_keeps h13))

theorem State.combinerTake_keeps {x0 x1 x2} (hx0 : Keeps c r x0) : Keeps c r (State.combinerTake x0 x1 x2) := by
  unfold State.combinerTake
  exact (keeps_ite (P := Keeps c r) hx0 (by
    split
    · exact State.fault_keeps (State.modEngine_keeps hx0)
    · extract_lets +onlyGivenNames -merge -lift v0
      have h1 : Keeps c r v0 := State.modEngine_keeps hx0
      clear_value v0
      split <;> [exact (State.combinerFinish_keeps h1); exact h1]))

theorem State.landed_keeps {x0 x1 x2 x3 x4} (hx0 : Keeps c r x0) : Keeps c r (State.landed x0 x1 x2 x3 x4) := by
  unfold State.landed
  extract_lets +onlyGivenNames -merge -lift v0
  have h1 : Keeps c r v0 := State.modExec_keeps hx0
  clear_value v0
  split <;> [exact (State.tokenUp_keeps h1); exact h1]

theorem State.modArr_keeps {x0 x1 x2 x3} (hx0 : Keeps c r x0) : Keeps c r (State.modArr x0 x1 x2 x3) := by
  unfold State.modArr
  exact State.modExec_keeps hx0

theorem State.modBank_keeps {x0 x1 x2 x3 x4} (hx0 : Keeps c r x0) : Keeps c r (State.modBank x0 x1 x2 x3 x4) := by
  unfold State.modBank
  exact State.modArr_keeps hx0

theorem State.modBuf_keeps {x0 x1 x2 x3 x4} (hx0 : Keeps c r x0) : Keeps c r (State.modBuf x0 x1 x2 x3 x4) := by
  unfold State.modBuf
  exact State.modArr_keeps hx0

theorem State.portSend_keeps {x0 x1 x2} (hx0 : Keeps c r x0) : Keeps c r (State.portSend x0 x1 x2) := by
  unfold State.portSend
  extract_lets +onlyGivenNames -merge -lift v0
  exact State.setFp_keeps hx0

theorem State.inject_keeps {x0 x1} (hx0 : Keeps c r x0) : Keeps c r (State.inject x0 x1) := by
  unfold State.inject
  extract_lets +onlyGivenNames -merge -lift v0
  exact (keeps_ite (P := Keeps c r) (keeps_mk hx0 (fun _ => rfl) rfl rfl)
    (keeps_ite (P := Keeps c r) (keeps_mk hx0 (fun _ => rfl) rfl rfl) (by
      extract_lets +onlyGivenNames -merge -lift v1 v2
      split <;> [exact hx0; exact (State.portSend_keeps (State.chargeFabric_keeps hx0))])))

theorem State.launchOut_keeps {x0 x1 x2} (hx0 : Keeps c r x0) : Keeps c r (State.launchOut x0 x1 x2) := by
  unfold State.launchOut
  split <;> [exact (State.inject_keeps hx0); exact (State.portSend_keeps hx0)]

theorem State.e2eSend_keeps {x0 x1} (hx0 : Keeps c r x0) : Keeps c r (State.e2eSend x0 x1) := by
  unfold State.e2eSend
  extract_lets +onlyGivenNames -merge -lift v0 v1 v2 v3 v4 v5 v6
  have h7 : Keeps c r v6 := keeps_mk hx0 (fun _ => rfl) rfl rfl
  clear_value v6
  exact keeps_ite (P := Keeps c r) h7 (State.launchOut_keeps h7)

theorem State.cuWrite_keeps {x0 x1 x2 x3} (hx0 : Keeps c r x0) : Keeps c r (State.cuWrite x0 x1 x2 x3) := by
  unfold State.cuWrite
  extract_lets +onlyGivenNames -merge -lift v0 v1 v2 v3 v4 v5 v6 v7
  have h8 : Keeps c r v3 := State.setCu_keeps hx0
  clear_value v3
  have h9 : Keeps1 c r v4 := (keeps_foldl (P := Keeps1 c r) (fun _ _ h10 => (by
    split
    · rename_i v11 v12 eh11
      have h11 := keeps_eqW eh11 (State.writeJob_keeps (keeps_fst h10))
      exact keeps_pair1 h11
    · exact keeps_pair1 (keeps_fst h10)
    · exact keeps_pair1 (keeps_fst h10))) (keeps_pair1 h8))
  clear_value v4
  have h13 : Keeps c r v5 := State.chargeBytes_keeps (keeps_fst h9)
  clear_value v5
  have h14 : Keeps c r v7 := (keeps_ite (P := Keeps c r) (State.fault_keeps h13)
    (keeps_ite (P := Keeps c r) h13 (State.fault_keeps h13)))
  clear_value v7
  exact State.signalPartial_keeps h14

theorem State.cuFinish_keeps {x0 x1 x2} (hx0 : Keeps c r x0) : Keeps c r (State.cuFinish x0 x1 x2) := by
  unfold State.cuFinish
  extract_lets +onlyGivenNames -merge -lift v0
  exact (keeps_ite (P := Keeps c r) (State.fault_keeps (State.setCu_keeps hx0)) (by
    extract_lets +onlyGivenNames -merge -lift v1
    clear_value v1
    split
    · exact State.cuWrite_keeps hx0
    · split
      · rename_i v2 eh2
        have h2 := keeps_eqR eh2 (State.raiseSegFault_keeps hx0)
        exact h2
      · rename_i v3 eh3
        have h3 := keeps_eqR eh3 (State.raiseSegFault_keeps hx0)
        exact State.cuWrite_keeps h3))

theorem State.cuTake_keeps {x0 x1 x2} (hx0 : Keeps c r x0) : Keeps c r (State.cuTake x0 x1 x2) := by
  unfold State.cuTake
  extract_lets +onlyGivenNames -merge -lift v0
  split
  · exact State.fault_keeps (State.setCu_keeps hx0)
  · extract_lets +onlyGivenNames -merge -lift v1
    have h2 : Keeps c r v1 := State.setCu_keeps hx0
    clear_value v1
    split <;> [exact (State.cuFinish_keeps h2); exact h2]

theorem State.partialDeliver_keeps {x0 x1 x2} (hx0 : Keeps c r x0) : Keeps c r (State.partialDeliver x0 x1 x2) := by
  unfold State.partialDeliver
  exact keeps_ite (P := Keeps c r) (State.modEngine_keeps hx0) (State.cuTake_keeps hx0)

theorem State.partialArrive_keeps {x0 x1} (hx0 : Keeps c r x0) : Keeps1 c r (State.partialArrive x0 x1) := by
  unfold State.partialArrive
  extract_lets +onlyGivenNames -merge -lift v0 v1 v2 v3
  split
  · exact keeps_pair1 hx0
  · exact (keeps_ite (P := Keeps1 c r) (keeps_pair1 hx0) (by
      extract_lets +onlyGivenNames -merge -lift v4 v5
      have h6 : ∀ y0 y1, Keeps c r y0 → Keeps1 c r (v5 y0 y1) := (by
        unfold v5
        exact (fun _ _ h7 =>
          (keeps_ite (P := Keeps1 c r) (keeps_pair1 (State.partialDeliver_keeps h7))
            (keeps_pair1 (State.setCu_keeps h7)))))
      clear_value v5
      exact (keeps_ite (P := Keeps1 c r) (by
        extract_lets +onlyGivenNames -merge -lift v8
        exact keeps_ite (P := Keeps1 c r) (keeps_pair1 (State.setCu_keeps hx0)) (h6 _ _ hx0)) (by
        extract_lets +onlyGivenNames -merge -lift v9
        split <;> [exact (keeps_pair1 hx0); exact (h6 _ _ (State.setCu_keeps hx0))]))))

theorem State.schedLost_keeps {x0 x1} (hx0 : Keeps c r x0) : Keeps c r (State.schedLost x0 x1) := by
  unfold State.schedLost
  extract_lets +onlyGivenNames -merge -lift v0
  exact keeps_ite (P := Keeps c r) (State.setSched_keeps hx0) hx0

theorem State.sourceRoute_keeps {x0 x1} (hx0 : Keeps c r x0) : Keeps c r (State.sourceRoute x0 x1) := by
  unfold State.sourceRoute
  extract_lets +onlyGivenNames -merge -lift v0 v1
  exact keeps_ite (P := Keeps c r) (State.schedLost_keeps (State.setFp_keeps hx0)) (State.portSend_keeps hx0)

theorem State.sendPartial_keeps {x0 x1 x2 x3} (hx0 : Keeps c r x0) : Keeps c r (State.sendPartial x0 x1 x2 x3) := by
  unfold State.sendPartial
  extract_lets +onlyGivenNames -merge -lift v0 v1 v2 v3
  exact (keeps_ite (P := Keeps c r)
    (keeps_foldl (P := Keeps c r) (fun _ _ h4 => (keeps_fst (State.partialArrive_keeps h4))) hx0)
    (keeps_ite (P := Keeps c r) (by
      extract_lets +onlyGivenNames -merge -lift v5
      exact (keeps_foldl (P := Keeps c r) (fun _ _ h6 => (State.sourceRoute_keeps (State.chargeFabric_keeps h6)))
        hx0))
      (keeps_ite (P := Keeps c r)
        (keeps_ite (P := Keeps c r) (State.modEngine_keeps hx0) (by
          split <;> [exact hx0; exact (State.e2eSend_keeps hx0)])) (by
        extract_lets +onlyGivenNames -merge -lift v7
        split <;> [exact hx0; exact (State.e2eSend_keeps hx0)]))))

theorem State.runCred_keeps {x0 x1 x2 x3 x4 x5 x6 x7 x8 x9} (hx0 : Keeps c r x0) :
    Keeps c r (State.runCred x0 x1 x2 x3 x4 x5 x6 x7 x8 x9) := by
  unfold State.runCred
  extract_lets +onlyGivenNames -merge -lift v0
  have h1 : ∀ y0, Keeps c r y0 → Keeps c r (v0 y0) := (by
    unfold v0
    exact (fun _ h2 => (State.landed_keeps (State.modBank_keeps (State.modLaunch_keeps h2)))))
  clear_value v0
  split
  · exact h1 _ (State.modLaunch_keeps hx0)
  · exact keeps_ite (P := Keeps c r) (State.setLaunch_keeps hx0) (State.sendPartial_keeps (h1 _ hx0))

theorem State.enqDone_keeps {x0 x1 x2 x3 x4 x5 x6} (hx0 : Keeps c r x0) :
    Keeps c r (State.enqDone x0 x1 x2 x3 x4 x5 x6) := by
  unfold State.enqDone
  exact State.landed_keeps (State.modRegs_keeps (State.modLaunch_keeps hx0))

theorem State.launchSegStop_keeps {x0 x1 x2 x3 x4 x5} (hx0 : Keeps c r x0) :
    Keeps c r (State.launchSegStop x0 x1 x2 x3 x4 x5) := by
  unfold State.launchSegStop
  split
  · exact hx0
  · split
    · rename_i v0 eh0
      have h0 := keeps_eqR eh0 (State.raiseSegFault_keeps hx0)
      exact State.setLaunch_keeps h0
    · rename_i v1 eh1
      have h1 := keeps_eqR eh1 (State.raiseSegFault_keeps hx0)
      exact State.launchFault_keeps (State.setLaunch_keeps h1)

theorem State.ring_keeps {x0 x1 x2} (hx0 : Keeps c r x0) : Keeps c r (State.ring x0 x1 x2) := by
  unfold State.ring
  extract_lets +onlyGivenNames -merge -lift v0 v1 v2 v3 v4
  have h5 : Keeps c r v4 := keeps_mk hx0 (fun _ => rfl) rfl rfl
  clear_value v4
  exact State.setQueue_keeps h5

theorem State.runEnq_keeps {x0 x1 x2 x3 x4 x5 x6 x7 x8} (hx0 : Keeps c r x0) :
    Keeps c r (State.runEnq x0 x1 x2 x3 x4 x5 x6 x7 x8) := by
  unfold State.runEnq
  extract_lets +onlyGivenNames -merge -lift v0
  split
  · exact State.enqDone_keeps (State.modLaunch_keeps hx0)
  · exact (keeps_ite (P := Keeps c r) (State.setLaunch_keeps hx0) (by
      extract_lets +onlyGivenNames -merge -lift v1 v2 v3 v4
      have h5 : Keeps c r v4 := State.settle_keeps hx0
      clear_value v4
      exact (keeps_ite (P := Keeps c r) (State.enqDone_keeps h5) (by
        split
        · rename_i v6 v7 eh6
          have h6 := keeps_eqW eh6 (State.writeLine_keeps h5)
          exact State.enqDone_keeps (State.ring_keeps (State.chargeMoved_keeps h6))
        · exact State.modLaunch_keeps (State.landed_keeps (State.settle_keeps h5))
        · exact State.launchSegStop_keeps h5))))

theorem State.settleMove_keeps {x0 x1 x2 x3 x4} (hx0 : Keeps c r x0) :
    Keeps1 c r (State.settleMove x0 x1 x2 x3 x4) := by
  unfold State.settleMove
  exact (keeps_ite (P := Keeps1 c r) (keeps_pair1 hx0)
    (keeps_ite (P := Keeps1 c r) (keeps_pair1 (State.modRegs_keeps hx0)) (keeps_pair1 (State.settle_keeps hx0))))

theorem State.runMove_keeps {x0 x1 x2 x3 x4 x5} (hx0 : Keeps c r x0) :
    Keeps c r (State.runMove x0 x1 x2 x3 x4 x5) := by
  unfold State.runMove
  extract_lets +onlyGivenNames -merge -lift v0 v1 v2
  have h3 : KeepsM c r v2 := keeps_foldl (P := KeepsM c r) (fun _ _ h4 => (MoveRun.row_keeps h4)) (keeps_move hx0)
  clear_value v2
  split
  · rename_i v5 v6 eh5
    have h5 := keeps_eq1 eh5 (State.settleMove_keeps (keeps_move_s h3))
    extract_lets +onlyGivenNames -merge -lift v7
    have h8 : ∀ y0, Keeps c r y0 → Keeps c r (v7 y0) := (by unfold v7; exact (fun _ h9 => (State.modExec_keeps h9)))
    clear_value v7
    split
    · exact State.landed_keeps h5
    · exact State.launchSegStop_keeps (h8 _ h5)
    · split <;> [exact (h8 _ h5); exact (State.askCapture_keeps (h8 _ h5))]

theorem State.complete_keeps {x0 x1 x2 x3 x4 x5} (hx0 : Keeps c r x0) :
    Keeps c r (State.complete x0 x1 x2 x3 x4 x5) := by
  unfold State.complete
  extract_lets +onlyGivenNames -merge -lift v0
  have h1 : ∀ y0, Keeps c r y0 → Keeps c r (v0 y0) := (by unfold v0; exact (fun _ h2 => (State.landed_keeps h2)))
  clear_value v0
  split
  · exact hx0
  · extract_lets +onlyGivenNames -merge -lift v3
    exact h1 _ (keeps_ite (P := Keeps c r) (State.modBuf_keeps (State.modBuf_keeps hx0)) (State.modBuf_keeps hx0))
  · exact h1 _ (State.modBank_keeps hx0)
  · extract_lets +onlyGivenNames -merge -lift v4 v5 v6
    exact h1 _ (State.addSat_keeps (State.modBank_keeps (State.modBank_keeps hx0)))
  · exact h1 _ (State.modBank_keeps hx0)
  · exact State.runCred_keeps hx0
  · exact State.runEnq_keeps hx0
  · exact keeps_ite (P := Keeps c r) hx0 (State.runMove_keeps hx0)

theorem State.cuRetry_keeps {x0 x1 x2} (hx0 : Keeps c r x0) : Keeps c r (State.cuRetry x0 x1 x2) := by
  unfold State.cuRetry
  exact (keeps_foldl (P := Keeps c r) (fun _ _ h0 =>
    (keeps_foldl (P := Keeps c r) (fun _ _ h1 =>
      (keeps_ite (P := Keeps c r) (State.cuWrite_keeps h1) (State.cuFinish_keeps h1))) h0)) hx0)

theorem State.deliver_keeps {x0 x1} (hx0 : Keeps c r x0) : Keeps c r (State.deliver x0 x1) := by
  unfold State.deliver
  split
  · exact hx0
  · split
    · exact (keeps_ite (P := Keeps c r) hx0 (by
        split
        · exact hx0
        · extract_lets +onlyGivenNames -merge -lift v0
          have h1 : ∀ y0 y1 y2 y3 y4, Keeps c r y0 → Keeps c r (v0 y0 y1 y2 y3 y4) := (by
            unfold v0
            exact (fun _ _ _ _ _ h2 => (by
              extract_lets +onlyGivenNames -merge -lift v3 v4
              have h5 : Keeps c r v3 := State.modLaunch_keeps h2
              clear_value v3
              have h6 : Keeps c r v4 := (by unfold v4; split <;> [exact (State.tokenUp_keeps h5); exact h5])
              clear_value v4
              exact State.modLaunch_keeps h6)))
          clear_value v0
          exact (keeps_ite (P := Keeps c r) (h1 _ _ _ _ _ (State.chargeLaunch_keeps hx0)) (by
            split
            · exact hx0
            · extract_lets +onlyGivenNames -merge -lift v7
              exact h1 _ _ _ _ _ (State.setCmd_keeps (State.chargeLaunch_keeps hx0))))))
    · exact hx0

theorem State.ringFault_keeps {x0 x1 x2} (hx0 : Keeps c r x0) : Keeps c r (State.ringFault x0 x1 x2) := by
  unfold State.ringFault
  exact State.fault_keeps hx0

theorem State.ringIgnored_keeps {x0} (hx0 : Keeps c r x0) : Keeps c r (State.ringIgnored x0) := by
  unfold State.ringIgnored
  exact keeps_mk hx0 (fun _ => rfl) rfl rfl

theorem State.doorbellValue_keeps {x0 x1 x2} (hx0 : Keeps c r x0) : Keeps c r (State.doorbellValue x0 x1 x2) := by
  unfold State.doorbellValue
  extract_lets +onlyGivenNames -merge -lift v0 v1
  exact (keeps_ite (P := Keeps c r) (State.ringIgnored_keeps hx0)
    (keeps_ite (P := Keeps c r) hx0
      (keeps_ite (P := Keeps c r) (State.ringFault_keeps hx0)
        (keeps_ite (P := Keeps c r) (State.ring_keeps hx0)
          (keeps_ite (P := Keeps c r) (State.ringIgnored_keeps hx0)
            (keeps_ite (P := Keeps c r) (State.ringFault_keeps hx0) (State.ring_keeps hx0)))))))

theorem State.drainRow_keeps {x0 x1 x2 x3 x4 x5 x6 x7} (hx0 : Keeps c r x0) :
    Keeps1 c r (State.drainRow x0 x1 x2 x3 x4 x5 x6 x7) := by
  unfold State.drainRow
  extract_lets +onlyGivenNames -merge -lift v0 v1 v2 v3 v4
  have h5 : Keeps1 c r v4 := State.storeWrite_keeps hx0
  clear_value v4
  exact keeps_pair1 (keeps_fst h5)

theorem State.e2eNote_keeps {x0 x1 x2} (hx0 : Keeps c r x0) : Keeps c r (State.e2eNote x0 x1 x2) := by
  unfold State.e2eNote
  extract_lets +onlyGivenNames -merge -lift v0 v1 v2
  exact keeps_mk hx0 (fun _ => rfl) rfl rfl

theorem State.e2eAnswer_keeps {x0 x1 x2 x3} (hx0 : Keeps c r x0) : Keeps c r (State.e2eAnswer x0 x1 x2 x3) := by
  unfold State.e2eAnswer
  extract_lets +onlyGivenNames -merge -lift v0 v1
  exact State.inject_keeps (State.e2eNote_keeps hx0)

theorem State.e2eRelease_keeps {x0 x1} (hx0 : Keeps c r x0) : Keeps c r (State.e2eRelease x0 x1) := by
  unfold State.e2eRelease
  exact (keeps_foldl (P := Keeps c r) (fun _ _ h0 =>
    (keeps_ite (P := Keeps c r) h0 (State.launchOut_keeps (keeps_mk h0 (fun _ => rfl) rfl rfl)))) hx0)

theorem State.e2eDone_keeps {x0 x1 x2} (hx0 : Keeps c r x0) : Keeps c r (State.e2eDone x0 x1 x2) := by
  unfold State.e2eDone
  exact State.e2eRelease_keeps (keeps_mk hx0 (fun _ => rfl) rfl rfl)

theorem State.schedCount_keeps {x0 x1 x2} (hx0 : Keeps c r x0) : Keeps c r (State.schedCount x0 x1 x2) := by
  unfold State.schedCount
  exact keeps_mk hx0 (fun _ => rfl) rfl rfl

theorem State.storeImage_keeps {x0 x1 x2 x3} (hx0 : Keeps c r x0) : Keeps c r (State.storeImage x0 x1 x2 x3) := by
  unfold State.storeImage
  split
  · extract_lets +onlyGivenNames -merge -lift v0 v1 v2
    have h3 : Keeps c r v1 := State.freeSlot_keeps (State.freeFold_keeps hx0)
    clear_value v1
    have h4 : Keeps c r v2 := (by unfold v2; clear_value v0; split <;> [exact h3; exact (State.modEngine_keeps h3)])
    clear_value v2
    exact State.modLaunch_keeps h4
  · exact hx0

theorem State.preempted_keeps {x0 x1} (hx0 : Keeps c r x0) : Keeps c r (State.preempted x0 x1) := by
  unfold State.preempted
  extract_lets +onlyGivenNames -merge -lift v0
  have h1 : Keeps c r v0 := State.chargeLaunch_keeps hx0
  clear_value v0
  split
  · exact h1
  · extract_lets +onlyGivenNames -merge -lift v2 v3
    have h4 : Keeps c r v2 := State.modCtx_keeps h1
    clear_value v2
    have h5 : Keeps c r v3 := State.schedCount_keeps h4
    clear_value v3
    exact State.storeImage_keeps h5

theorem State.startHead_keeps {x0 x1 x2} (hx0 : Keeps c r x0) : Keeps c r (State.startHead x0 x1 x2) := by
  unfold State.startHead
  split
  · exact hx0
  · exact (keeps_ite (P := Keeps c r) hx0 (by
      extract_lets +onlyGivenNames -merge -lift v0 v1 v2 v3
      split
      · rename_i v4 v5 eh5
        have h5 := keeps_eq2 eh5 (State.fresh_keeps hx0)
        extract_lets +onlyGivenNames -merge -lift v6 v7 v8 v9 v10
        have h11 : Keeps c r v6 := State.setQueue_keeps h5
        clear_value v6
        have h12 : Keeps c r v10 := State.closeCall_keeps (State.setCmd_keeps h11)
        clear_value v10
        exact (keeps_ite (P := Keeps c r) (State.completeCmd_keeps h12) (by
          extract_lets +onlyGivenNames -merge -lift v13
          have h14 : Keeps c r v13 := keeps_ite (P := Keeps c r) (State.cmdFault_keeps h12) h12
          clear_value v13
          exact keeps_ite (P := Keeps c r) (State.badCmd_keeps h14) h14))))

theorem State.qRow_keeps {x0 x1 x2 x3 x4} (hx0 : Keeps c r x0)
    (hx4 : ∀ y0 y1 y2, Keeps c r y0 → Keeps c r (x4 y0 y1 y2)) :
    Keeps c r (State.qRow x0 x1 x2 x3 x4) := by
  unfold State.qRow
  extract_lets +onlyGivenNames -merge -lift v0
  have h1 : Keeps c r v0 := keeps_ite (P := Keeps c r) hx0 (State.startHead_keeps hx0)
  clear_value v0
  split <;> [exact h1; exact (keeps_ite (P := Keeps c r) (hx4 _ _ _ h1) h1)]

theorem State.takeInbox_keeps {x0 x1 x2} (hx0 : Keeps c r x0) : Keeps c r (State.takeInbox x0 x1 x2) := by
  unfold State.takeInbox
  exact keeps_mk hx0 (fun _ => rfl) rfl rfl

theorem State.receive_keeps {x0 x1 x2 x3 x4} (hx0 : Keeps c r x0) (hx4 : ∀ y0, Keeps c r y0 → Keeps c r (x4 y0)) :
    Keeps c r (State.receive x0 x1 x2 x3 x4) := by
  unfold State.receive
  extract_lets +onlyGivenNames -merge -lift v0
  have h1 : Keeps c r v0 := State.takeInbox_keeps hx0
  clear_value v0
  exact keeps_ite (P := Keeps c r) h1 (keeps_ite (P := Keeps c r) (State.setFp_keeps h1) (hx4 _ h1))

theorem State.restoreAllot_keeps {x0 x1 x2} (hx0 : Keeps c r x0) : Keeps c r (State.restoreAllot x0 x1 x2) := by
  unfold State.restoreAllot
  split
  · extract_lets +onlyGivenNames -merge -lift v0
    exact State.modEngine_keeps hx0
  · extract_lets +onlyGivenNames -merge -lift v1
    exact State.modCtx_keeps hx0

theorem State.restoreBlock_keeps {x0 x1 x2} (hx0 : Keeps c r x0) : Keeps c r (State.restoreBlock x0 x1 x2) := by
  unfold State.restoreBlock
  split <;> [exact (State.physWrite_keeps hx0); exact hx0]

theorem State.ringLine_keeps {x0 x1} (hx0 : Keeps c r x0) : Keeps c r (State.ringLine x0 x1) := by
  unfold State.ringLine
  extract_lets +onlyGivenNames -merge -lift v0
  exact (keeps_ite (P := Keeps c r) hx0 (by
    extract_lets +onlyGivenNames -merge -lift v1
    exact (keeps_ite (P := Keeps c r) (State.setQueue_keeps hx0) (by
      split
      · extract_lets +onlyGivenNames -merge -lift v2
        split
        · exact State.setQueue_keeps hx0
        · extract_lets +onlyGivenNames -merge -lift v3
          have h4 : Keeps c r v3 := State.setQueue_keeps hx0
          clear_value v3
          split
          · rename_i v5 eh5
            have h5 := keeps_eqR eh5 (State.raiseSegFault_keeps h4)
            exact h5
          · rename_i v6 eh6
            have h6 := keeps_eqR eh6 (State.raiseSegFault_keeps h4)
            exact State.fault_keeps (State.setQueue_keeps h6)))))

theorem State.startMove_keeps {x0 x1 x2 x3} (hx0 : Keeps c r x0) : Keeps c r (State.startMove x0 x1 x2 x3) := by
  unfold State.startMove
  exact keeps_ite (P := Keeps c r) (State.doneRegs_keeps hx0) (State.fly_keeps hx0)

theorem State.startReady_keeps {x0 x1} (hx0 : Keeps c r x0) : Keeps c r (State.startReady x0 x1) := by
  unfold State.startReady
  split
  · exact hx0
  · split
    · extract_lets +onlyGivenNames -merge -lift v0 v1
      exact keeps_ite (P := Keeps c r) (State.setLaunch_keeps hx0) hx0
    · exact hx0

theorem State.startReplay_keeps {x0 x1} (hx0 : Keeps c r x0) : Keeps c r (State.startReplay x0 x1) := by
  unfold State.startReplay
  extract_lets +onlyGivenNames -merge -lift v0
  have h1 : Keeps c r v0 := State.chargeLaunch_keeps hx0
  clear_value v0
  split
  · exact h1
  · split
    · exact (keeps_ite (P := Keeps c r) (State.endLaunch_keeps h1) (by
        extract_lets +onlyGivenNames -merge -lift v2 v3 v4 v5
        have h6 : Keeps c r v2 := State.freeSlot_keeps (State.freeFold_keeps (State.semLeave_keeps h1))
        clear_value v2
        have h7 : Keeps c r v5 := keeps_mk h6 (fun _ => rfl) rfl rfl
        clear_value v5
        exact State.modLaunch_keeps h7))
    · exact h1

theorem State.tailReread_keeps {x0 x1} (hx0 : Keeps c r x0) : Keeps c r (State.tailReread x0 x1) := by
  unfold State.tailReread
  extract_lets +onlyGivenNames -merge -lift v0
  exact (keeps_ite (P := Keeps c r) hx0
    (keeps_ite (P := Keeps c r) (State.setQueue_keeps hx0)
      (keeps_ite (P := Keeps c r) (State.setQueue_keeps hx0) (State.setQueue_keeps hx0))))

theorem execArrayImageWritten_keeps {x0 x1} (hx1 : Keeps c r x1) : KeepsX c r (execArrayImageWritten x0 x1) := by
  unfold execArrayImageWritten
  exact (keeps_next
    (State.work_keeps hx1 (by
      split <;> [exact hx1; exact (keeps_ite (P := Keeps c r) (State.preempted_keeps hx1) hx1)])))

theorem execCheckPoint_keeps {x0 x1} (hx1 : Keeps c r x1) : KeepsX c r (execCheckPoint x0 x1) := by
  unfold execCheckPoint
  exact (keeps_next
    (State.work_keeps hx1 (by
      split
      · exact hx1
      · extract_lets +onlyGivenNames -merge -lift v0 v1
        have h2 : Keeps c r v0 := keeps_ite (P := Keeps c r) (State.progress_keeps hx1) hx1
        clear_value v0
        have h3 : Keeps c r v1 := State.modLaunch_keeps h2
        clear_value v1
        split
        · exact h3
        · exact h3
        · exact keeps_ite (P := Keeps c r) (State.preempted_keeps h3) (State.modLaunch_keeps h3)
        · exact State.endLaunch_keeps h3)))

theorem execCodeFetch_keeps {x0 x1} (hx1 : Keeps c r x1) : KeepsX c r (execCodeFetch x0 x1) := by
  unfold execCodeFetch
  exact (keeps_next
    (State.work_keeps hx1 (by
      split
      · exact hx1
      · extract_lets +onlyGivenNames -merge -lift v0 v1 v2
        have h3 : ∀ y0 y1, Keeps c r y0 → Keeps c r (v2 y0 y1) := (by
          unfold v2
          exact (fun _ _ h4 => (State.modLaunch_keeps h4)))
        clear_value v2
        exact (keeps_ite (P := Keeps c r) hx1 (by
          extract_lets +onlyGivenNames -merge -lift v5
          split
          · exact State.settle_keeps (h3 _ _ (State.chargeMoved_keeps hx1))
          · exact State.launchSegStop_keeps hx1)))))

theorem execCombinerPartial_keeps {x0 x1} (hx1 : Keeps c r x1) : KeepsX c r (execCombinerPartial x0 x1) := by
  unfold execCombinerPartial
  exact (keeps_next
    (State.work_keeps hx1 (by
      extract_lets +onlyGivenNames -merge -lift v0
      exact (keeps_ite (P := Keeps c r) (State.movePartials_keeps hx1) (by
        split <;> [exact hx1; exact (State.combinerTake_keeps (State.setEngine_keeps hx1))])))))

theorem execCred_keeps {x0 x1} (hx1 : Keeps c r x1) : KeepsX c r (execCred x0 x1) := by
  unfold execCred
  exact (keeps_next
    (State.work_keeps hx1
      (State.runRow_keeps hx1 (fun _ _ h0 => (by
        extract_lets +onlyGivenNames -merge -lift v1 v2 v3 v4 v5 v6 v7 v8 v9
        exact (keeps_ite (P := Keeps c r) (State.bad_keeps h0)
          (keeps_ite (P := Keeps c r) (State.doneRegs_keeps h0) (by
            split
            · exact State.bad_keeps h0
            · exact (keeps_ite (P := Keeps c r) (State.signalWord_keeps (State.launchFault_keeps h0)) (by
                extract_lets +onlyGivenNames -merge -lift v10 v11
                have h12 : Keeps c r v11 := State.modBank_keeps h0
                clear_value v11
                exact State.fly_keeps h12))))))))))

theorem execFoldSwap_keeps {x0 x1 x2} (hx2 : Keeps c r x2) : KeepsX c r (execFoldSwap x0 x1 x2) := by
  unfold execFoldSwap
  exact (keeps_next
    (State.work_keeps hx2 (by
      split
      · exact hx2
      · extract_lets +onlyGivenNames -merge -lift v0 v1
        exact keeps_ite (P := Keeps c r) hx2 (State.modExec_keeps hx2))))

theorem execInstructionCompletionPoint_keeps {x0 x1 x2} (hx2 : Keeps c r x2) :
    KeepsX c r (execInstructionCompletionPoint x0 x1 x2) := by
  unfold execInstructionCompletionPoint
  exact (keeps_next
    (State.work_keeps hx2 (by
      split
      · exact hx2
      · exact keeps_ite (P := Keeps c r) hx2 (by split <;> [exact hx2; exact (State.complete_keeps hx2)]))))

theorem execMcopy_keeps {x0 x1} (hx1 : Keeps c r x1) : KeepsX c r (execMcopy x0 x1) := by
  unfold execMcopy
  exact (keeps_next
    (State.work_keeps hx1
      (State.runNow_keeps hx1 (fun _ _ h0 => (by
        extract_lets +onlyGivenNames -merge -lift v1 v2 v3
        exact keeps_ite (P := Keeps c r) (State.bad_keeps h0) (State.startMove_keeps h0))))))

theorem execMfill_keeps {x0 x1} (hx1 : Keeps c r x1) : KeepsX c r (execMfill x0 x1) := by
  unfold execMfill
  exact (keeps_next
    (State.work_keeps hx1
      (State.runNow_keeps hx1 (fun _ _ h0 => (by
        extract_lets +onlyGivenNames -merge -lift v1 v2
        exact keeps_ite (P := Keeps c r) (State.bad_keeps h0) (State.startMove_keeps h0))))))

theorem execMgath_keeps {x0 x1} (hx1 : Keeps c r x1) : KeepsX c r (execMgath x0 x1) := by
  unfold execMgath
  exact (keeps_next
    (State.work_keeps hx1
      (State.runNow_keeps hx1 (fun _ _ h0 => (by
        extract_lets +onlyGivenNames -merge -lift v1 v2 v3 v4
        exact keeps_ite (P := Keeps c r) (State.bad_keeps h0) (State.startMove_keeps h0))))))

theorem execPark_keeps {x0 x1} (hx1 : Keeps c r x1) : KeepsX c r (execPark x0 x1) := by
  unfold execPark
  exact (keeps_next
    (State.work_keeps hx1 (by
      split
      · exact hx1
      · split
        · exact hx1
        · exact (keeps_ite (P := Keeps c r) hx1 (by
            extract_lets +onlyGivenNames -merge -lift v0
            have h1 : Keeps c r v0 := State.modEngine_keeps (State.chargeLaunch_keeps hx1)
            clear_value v0
            split <;> [exact h1; exact (State.storeImage_keeps h1)])))))

theorem execPassCommit_keeps {x0 x1 x2 x3} (hx3 : Keeps c r x3) : KeepsX c r (execPassCommit x0 x1 x2 x3) := by
  unfold execPassCommit
  exact (keeps_next
    (State.work_keeps hx3 (by
      split
      · exact hx3
      · split
        · exact hx3
        · split
          · extract_lets +onlyGivenNames -merge -lift v0 v1
            have h2 : Keeps c r v1 := State.arrayWorked_keeps hx3
            clear_value v1
            exact (keeps_ite (P := Keeps c r) (by
              extract_lets +onlyGivenNames -merge -lift v3
              exact State.landed_keeps (State.addFlush_keeps (State.addSat_keeps (State.modBank_keeps h2)))) (by
              extract_lets +onlyGivenNames -merge -lift v4
              have h5 : Keeps c r v4 := State.checkRetry_keeps h2
              clear_value v4
              exact (keeps_ite (P := Keeps c r) (State.failLaunch_keeps (State.retireUnit_keeps h5))
                (State.modExec_keeps h5))))
          · exact hx3)))

theorem execRecoveryPoint_keeps {x0 x1} (hx1 : Keeps c r x1) : KeepsX c r (execRecoveryPoint x0 x1) := by
  unfold execRecoveryPoint
  exact (keeps_next
    (State.work_keeps hx1 (by
      split
      · exact hx1
      · extract_lets +onlyGivenNames -merge -lift v0
        exact (keeps_ite (P := Keeps c r) hx1 (by
          extract_lets +onlyGivenNames -merge -lift v1 v2 v3 v4 v5
          have h6 : Keeps c r v1 := State.chargeLaunch_keeps hx1
          clear_value v1
          have h7 : Keeps c r v2 := State.clearCaptures_keeps h6
          clear_value v2
          have h8 : Keeps c r v4 := keeps_mk h7 (fun _ => rfl) rfl rfl
          clear_value v4
          have h9 : Keeps c r v5 := State.modLaunch_keeps h8
          clear_value v5
          split <;> [exact (State.modLaunch_keeps h9); exact h9])))))

theorem execReplay_keeps {x0 x1} (hx1 : Keeps c r x1) : KeepsX c r (execReplay x0 x1) := by
  unfold execReplay
  exact (keeps_next
    (State.work_keeps hx1 (by
      split <;> [exact hx1; exact (keeps_ite (P := Keeps c r) (State.startReplay_keeps hx1) hx1)])))

theorem execReplayRestoreComplete_keeps {x0 x1} (hx1 : Keeps c r x1) :
    KeepsX c r (execReplayRestoreComplete x0 x1) := by
  unfold execReplayRestoreComplete
  exact (keeps_next
    (State.work_keeps hx1 (by
      split
      · exact hx1
      · exact (keeps_ite (P := Keeps c r) hx1 (by
          extract_lets +onlyGivenNames -merge -lift v0 v1 v2
          have h3 : Keeps c r v0 := keeps_foldl (P := Keeps c r) (fun _ _ h4 => (State.restoreBlock_keeps h4)) hx1
          clear_value v0
          have h5 : Keeps c r v1 := State.restoreAllot_keeps h3
          clear_value v1
          have h6 : Keeps c r v2 := (keeps_foldl (P := Keeps c r) (fun _ _ h7 =>
            (State.semPass_keeps (State.semRelease_keeps h7))) h5)
          clear_value v2
          exact State.modLaunch_keeps h6)))))

theorem execScrubComplete_keeps {x0 x1 x2} (hx2 : Keeps c r x2) : KeepsX c r (execScrubComplete x0 x1 x2) := by
  unfold execScrubComplete
  exact (keeps_next
    (State.work_keeps hx2 (by
      extract_lets +onlyGivenNames -merge -lift v0
      split
      · exact hx2
      · extract_lets +onlyGivenNames -merge -lift v1 v2
        have h3 : Keeps c r v2 := State.setEngine_keeps hx2
        clear_value v2
        exact keeps_foldl (P := Keeps c r) (fun _ _ h4 => (State.startReady_keeps h4)) h3)))

theorem execTclr_keeps {x0 x1} (hx1 : Keeps c r x1) : KeepsX c r (execTclr x0 x1) := by
  unfold execTclr
  exact (keeps_next
    (State.work_keeps hx1
      (State.runRow_keeps hx1 (fun _ _ h0 => (by
        extract_lets +onlyGivenNames -merge -lift v1
        exact keeps_ite (P := Keeps c r) (State.bad_keeps h0) (State.doneRegs_keeps (State.modBank_keeps h0)))))))

theorem execTcmb_keeps {x0 x1} (hx1 : Keeps c r x1) : KeepsX c r (execTcmb x0 x1) := by
  unfold execTcmb
  exact (keeps_next
    (State.work_keeps hx1
      (State.runRow_keeps hx1 (fun _ _ h0 => (by
        extract_lets +onlyGivenNames -merge -lift v1 v2 v3 v4 v5 v6
        exact (keeps_ite (P := Keeps c r) (State.bad_keeps h0) (by
          extract_lets +onlyGivenNames -merge -lift v7
          have h8 : Keeps c r v7 := State.modBank_keeps (State.modBank_keeps h0)
          clear_value v7
          exact State.fly_keeps h8)))))))

theorem execTdrn_keeps {x0 x1} (hx1 : Keeps c r x1) : KeepsX c r (execTdrn x0 x1) := by
  unfold execTdrn
  exact (keeps_next
    (State.work_keeps hx1
      (State.runRow_keeps hx1 (fun _ _ h0 => (by
        extract_lets +onlyGivenNames -merge -lift v1 v2 v3 v4 v5 v6 v7
        exact (keeps_ite (P := Keeps c r) (State.bad_keeps h0)
          (keeps_ite (P := Keeps c r) (State.doneRegs_keeps h0)
            (keeps_ite (P := Keeps c r) (State.bad_keeps h0) (by
              extract_lets +onlyGivenNames -merge -lift v8 v9
              have h10 : Keeps1 c r v8 := (keeps_foldl (P := Keeps1 c r) (fun _ _ h11 =>
                (State.drainRow_keeps (keeps_fst h11))) (keeps_pair1 h0))
              clear_value v8
              have h12 : Keeps c r v9 := State.modBank_keeps (State.addSat_keeps (keeps_fst h10))
              clear_value v9
              exact State.settle_keeps (State.fly_keeps h12))))))))))

theorem execTmul_keeps {x0 x1} (hx1 : Keeps c r x1) : KeepsX c r (execTmul x0 x1) := by
  unfold execTmul
  exact (keeps_next
    (State.work_keeps hx1
      (State.runRow_keeps hx1 (fun _ _ h0 => (by
        extract_lets +onlyGivenNames -merge -lift v1 v2 v3 v4 v5
        split
        · exact State.bad_keeps h0
        · extract_lets +onlyGivenNames -merge -lift v6
          exact (keeps_ite (P := Keeps c r) (State.bad_keeps h0)
            (keeps_ite (P := Keeps c r) (State.doneRegs_keeps h0) (by
              split
              · extract_lets +onlyGivenNames -merge -lift v7 v8
                have h9 : Keeps c r v8 := State.modBank_keeps h0
                clear_value v8
                exact State.settle_keeps (State.fly_keeps h9)))))))))

theorem execTokenDeadlock_keeps {x0 x1} (hx1 : Keeps c r x1) : KeepsX c r (execTokenDeadlock x0 x1) := by
  unfold execTokenDeadlock
  exact (keeps_next
    (State.work_keeps hx1 (by
      split
      · exact hx1
      · exact keeps_ite (P := Keeps c r) (State.endLaunch_keeps (State.launchFault_keeps hx1)) hx1)))

theorem execTwin_keeps {x0 x1} (hx1 : Keeps c r x1) : KeepsX c r (execTwin x0 x1) := by
  unfold execTwin
  exact (keeps_next
    (State.work_keeps hx1
      (State.runRow_keeps hx1 (fun _ _ h0 => (by
        extract_lets +onlyGivenNames -merge -lift v1 v2 v3 v4 v5 v6 v7 v8 v9
        exact (keeps_ite (P := Keeps c r) (State.bad_keeps h0)
          (keeps_ite (P := Keeps c r) (State.doneRegs_keeps h0) (by
            extract_lets +onlyGivenNames -merge -lift v10 v11 v12 v13 v14
            have h15 : Keeps c r v14 := State.modBank_keeps h0
            clear_value v14
            exact State.settle_keeps (State.fly_keeps h15)))))))))

theorem execUndoCaptureComplete_keeps {x0 x1 x2} (hx2 : Keeps c r x2) :
    KeepsX c r (execUndoCaptureComplete x0 x1 x2) := by
  unfold execUndoCaptureComplete
  exact (keeps_next
    (State.work_keeps hx2 (by
      split
      · exact hx2
      · exact (keeps_ite (P := Keeps c r) hx2 (by
          split
          · extract_lets +onlyGivenNames -merge -lift v0 v1 v2 v3 v4
            have h5 : Keeps c r v3 := (Keeps.trans hx2 ⟨rfl, rfl, fun g => wf_mwriteN _ _ (wf_mwriteN _ _ (g)),
              id, List.prefix_refl _, fun _ => .inl rfl, Nat.le_refl _, Nat.le_refl _, Nat.le_refl _,
              fun _ g => .inl g⟩)
            clear_value v3
            have h6 : Keeps c r v4 := State.modCtx_keeps h5
            clear_value v4
            exact State.setLaunch_keeps h6
          · exact State.setLaunch_keeps hx2
          · exact State.setLaunch_keeps hx2)))))

theorem execWake_keeps {x0 x1 x2} (hx2 : Keeps c r x2) : KeepsX c r (execWake x0 x1 x2) := by
  unfold execWake
  exact (keeps_next
    (State.work_keeps hx2 (by
      split
      · split
        · exact hx2
        · extract_lets +onlyGivenNames -merge -lift v0
          exact (keeps_ite (P := Keeps c r) hx2 (by
            extract_lets +onlyGivenNames -merge -lift v1
            have h2 : Keeps c r v1 := State.modEngine_keeps hx2
            clear_value v1
            exact State.deliver_keeps (State.setLaunch_keeps h2)))
      · exact hx2)))

theorem execWld_keeps {x0 x1} (hx1 : Keeps c r x1) : KeepsX c r (execWld x0 x1) := by
  unfold execWld
  exact (keeps_next
    (State.work_keeps hx1
      (State.runRow_keeps hx1 (fun _ _ h0 => (by
        extract_lets +onlyGivenNames -merge -lift v1 v2 v3 v4 v5 v6 v7
        exact (keeps_ite (P := Keeps c r) (State.bad_keeps h0) (by
          extract_lets +onlyGivenNames -merge -lift v8 v9 v10 v11 v12 v13
          have h14 : ∀ y0 y1 y2, Keeps c r y0 → Keeps c r (v11 y0 y1 y2) := (by
            unfold v11
            exact (fun _ _ _ h15 => (State.modBuf_keeps h15)))
          clear_value v11
          have h16 : Keeps c r v13 := keeps_ite (P := Keeps c r) (h14 _ _ _ (h14 _ _ _ h0)) (h14 _ _ _ h0)
          clear_value v13
          exact State.settle_keeps (State.fly_keeps (State.addT2_keeps h16)))))))))

theorem execWorkPacketDeliver_keeps {x0 x1} (hx1 : Keeps c r x1) : KeepsX c r (execWorkPacketDeliver x0 x1) := by
  unfold execWorkPacketDeliver
  exact keeps_next (State.work_keeps hx1 (by split <;> [exact hx1; exact (State.deliver_keeps hx1)]))

end Sys2Proof.Machine
end

