-- ==== Sys2Proof/Laws/KeepsFront.lean ====
section
/-! SUPPORT. What the queues, the proxy and the requests of contexts, objects and segments keep. -/

namespace Sys2Proof.Machine

variable {c : Bool} {r : State}

theorem Bar4Run.finish_keeps {x0} (hx0 : KeepsB c r x0) : Keeps c r (Bar4Run.finish x0) := by
  unfold Bar4Run.finish
  extract_lets +onlyGivenNames -merge -lift v0 v1 v2
  have h3 : Keeps c r v0 := keeps_bar_s hx0
  clear_value v0
  have h4 : Keeps c r v2 := keeps_ite (P := Keeps c r) (keeps_mk h3 (fun _ => rfl) rfl rfl) (keeps_bar_s hx0)
  clear_value v2
  split
  · exact h4
  · extract_lets +onlyGivenNames -merge -lift v5
    have h6 : Keeps c r v5 := State.chargeBytes_keeps h4
    clear_value v5
    exact keeps_ite (P := Keeps c r) h6 (State.fault_keeps h6)

theorem Bar4Run.read_keeps {x0 x1 x2 x3} (hx0 : KeepsB c r x0) : KeepsB c r (Bar4Run.read x0 x1 x2 x3) := by
  unfold Bar4Run.read
  extract_lets +onlyGivenNames -merge -lift v0
  split
  · exact keeps_bar (keeps_bar_s hx0)
  · split
    · exact keeps_bar (keeps_bar_s hx0)
    · exact keeps_bar (keeps_bar_s hx0)
    · exact keeps_bar (keeps_bar_s hx0)
    · exact keeps_bar (keeps_bar_s hx0)

theorem Bar4Run.write_keeps {x0 x1 x2 x3} (hx0 : KeepsB c r x0) : KeepsB c r (Bar4Run.write x0 x1 x2 x3) := by
  unfold Bar4Run.write
  split
  · exact hx0
  · split
    · exact keeps_bar (State.physWrite_keeps (keeps_bar_s hx0))
    · exact keeps_bar (keeps_bar_s hx0)
    · exact keeps_bar (keeps_bar_s hx0)
    · exact hx0

theorem CopyRun.readBlock_keeps {x0 x1 x2} (hx0 : KeepsC c r x0) : KeepsC c r (CopyRun.readBlock x0 x1 x2) := by
  unfold CopyRun.readBlock
  extract_lets +onlyGivenNames -merge -lift v0 v1
  exact (keeps_ite (P := KeepsC c r) (by
    extract_lets +onlyGivenNames -merge -lift v2
    exact keeps_copy (keeps_copy_s hx0)) (by
    extract_lets +onlyGivenNames -merge -lift v3 v4 v5
    exact keeps_copy (State.chargeBytes_keeps (keeps_copy_s hx0))))

theorem CopyRun.writeOne_keeps {x0 x1 x2 x3 x4 x5} (hx0 : KeepsC c r x0) :
    KeepsC c r (CopyRun.writeOne x0 x1 x2 x3 x4 x5) := by
  unfold CopyRun.writeOne
  split
  · exact hx0
  · dsimp only
    split
    · rename_i t host e
      have h := keeps_eqW e (keeps_ite (P := KeepsW c r) (State.writeJob_keeps (keeps_copy_s hx0)) (State.writeLine_keeps (keeps_copy_s hx0)))
      exact keeps_copy (State.chargeBytes_keeps h)
    · exact hx0
    · exact hx0

theorem CopyRun.writeBlock_keeps {x0 x1 x2 x3} (hx0 : KeepsC c r x0) :
    KeepsC c r (CopyRun.writeBlock x0 x1 x2 x3) := by
  unfold CopyRun.writeBlock
  extract_lets +onlyGivenNames -merge -lift v0 v1 v2 v3
  have h4 : KeepsC c r v3 := keeps_foldl (P := KeepsC c r) (fun _ _ h5 => (CopyRun.writeOne_keeps h5)) hx0
  clear_value v3
  exact keeps_ite (P := KeepsC c r) h4 (keeps_copy (keeps_copy_s h4))

theorem CopyRun.block_keeps {x0 x1 x2 x3 x4} (hx0 : KeepsC c r x0) : KeepsC c r (CopyRun.block x0 x1 x2 x3 x4) := by
  unfold CopyRun.block
  exact (keeps_ite (P := KeepsC c r) hx0 (by
    extract_lets +onlyGivenNames -merge -lift v0
    have h1 : KeepsC c r v0 := keeps_ite (P := KeepsC c r) (CopyRun.readBlock_keeps hx0) hx0
    clear_value v0
    exact keeps_ite (P := KeepsC c r) h1 (CopyRun.writeBlock_keeps h1)))

theorem State.heldLess_keeps {x0 x1} (hx0 : Keeps c r x0) : Keeps c r (State.heldLess x0 x1) := by
  unfold State.heldLess
  extract_lets +onlyGivenNames -merge -lift v0 v1
  exact State.setCtx_keeps hx0

theorem State.freeFence_keeps {x0 x1} (hx0 : Keeps c r x0) : Keeps c r (State.freeFence x0 x1) := by
  unfold State.freeFence
  extract_lets +onlyGivenNames -merge -lift v0 v1 v2
  have h3 : Keeps c r v2 := State.setFence_keeps hx0
  clear_value v2
  exact keeps_ite (P := Keeps c r) (State.heldLess_keeps h3) (State.modCtx_keeps h3)

theorem State.cppSend_keeps {x0 x1 x2 x3} (hx0 : Keeps c r x0) :
    Keeps c r (State.cppSend x0 x1 x2 x3) := by
  unfold State.cppSend
  dsimp only
  split
  · split
    · exact State.setCp_keeps hx0
    · exact keeps_send (State.setCp_keeps hx0) _
  · exact State.setCp_keeps hx0

theorem State.cppTag_keeps {x0 x1} (hx0 : Keeps c r x0) : Keeps2 c r (State.cppTag x0 x1) := by
  unfold State.cppTag
  extract_lets +onlyGivenNames -merge -lift v0
  exact keeps_pair2 (State.setCp_keeps hx0)

theorem State.broadcast_keeps {x0 x1} (hx0 : Keeps c r x0) : Keeps c r (State.broadcast x0 x1) := by
  unfold State.broadcast
  split
  · exact hx0
  · extract_lets +onlyGivenNames -merge -lift v0
    have h1 : Keeps c r v0 := keeps_mk hx0 (fun _ => rfl) rfl rfl
    clear_value v0
    exact (keeps_foldl (P := Keeps c r) (fun _ _ h2 => (by
      split
      · exact (keeps_ite (P := Keeps c r) h2 (by
          split
          · rename_i v3 v4 eh4
            have h4 := keeps_eq2 eh4 (State.cppTag_keeps h2)
            extract_lets +onlyGivenNames -merge -lift v5 v6
            have h7 : Keeps c r v6 := State.setCp_keeps h4
            clear_value v6
            exact State.cppSend_keeps h7))
      · exact h2)) h1)

theorem State.broadcastNext_keeps {x0} (hx0 : Keeps c r x0) : Keeps c r (State.broadcastNext x0) := by
  unfold State.broadcastNext
  exact (keeps_foldl (P := Keeps c r) (fun _ _ h0 => (keeps_ite (P := Keeps c r) (State.broadcast_keeps h0) h0))
    hx0)

theorem State.withdraw_keeps {x0 x1 x2 x3 x4} (hx0 : Keeps c r x0) :
    Keeps2 c r (State.withdraw x0 x1 x2 x3 x4) := by
  unfold State.withdraw
  split
  · rename_i v0 v1 eh1
    have h1 := keeps_eq2 eh1 (State.fresh_keeps hx0)
    extract_lets +onlyGivenNames -merge -lift v2
    exact keeps_pair2 (State.broadcastNext_keeps (keeps_mk h1 (fun _ => rfl) rfl rfl))

theorem State.staleSegs_keeps {x0 x1 x2 x3} (hx0 : Keeps c r x0) : Keeps c r (State.staleSegs x0 x1 x2 x3) := by
  unfold State.staleSegs
  exact (keeps_foldl (P := Keeps c r) (fun _ _ h0 =>
    (keeps_foldl (P := Keeps c r) (fun _ _ h1 => (by
      extract_lets +onlyGivenNames -merge -lift v2
      exact (keeps_ite (P := Keeps c r) h1 (by
        extract_lets +onlyGivenNames -merge -lift v3
        have h4 : Keeps c r v3 := State.modCtx_keeps h1
        clear_value v3
        exact keeps_snd (State.withdraw_keeps h4))))) h0)) hx0)

theorem State.reqDone_keeps {x0 x1 x2 x3 x4} (hx0 : Keeps c r x0) : Keeps c r (State.reqDone x0 x1 x2 x3 x4) := by
  unfold State.reqDone
  extract_lets +onlyGivenNames -merge -lift v0
  exact State.raise_keeps (State.setBlock_keeps hx0)

theorem State.zeroingStops_keeps {x0 x1} (hx0 : Keeps c r x0) : Keeps c r (State.zeroingStops x0 x1) := by
  unfold State.zeroingStops
  exact keeps_foldl (P := Keeps c r) (fun _ _ h0 => (keeps_ite (P := Keeps c r) (State.reqDone_keeps h0) h0)) hx0

theorem State.freeObj_keeps {x0 x1} (hx0 : Keeps c r x0) : Keeps c r (State.freeObj x0 x1) := by
  unfold State.freeObj
  extract_lets +onlyGivenNames -merge -lift v0 v1 v2 v3 v4 v5 v6 v7 v8
  have h9 : Keeps c r v5 := State.staleSegs_keeps (State.zeroingStops_keeps hx0)
  clear_value v5
  have h10 : Keeps c r v6 := keeps_ite (P := Keeps c r) (keeps_mk h9 (fun _ => rfl) rfl rfl) h9
  clear_value v6
  have h11 : Keeps c r v7 := State.setObj_keeps h10
  clear_value v7
  have h12 : Keeps c r v8 := keeps_ite (P := Keeps c r) (State.heldLess_keeps h11) (State.modCtx_keeps h11)
  clear_value v8
  exact State.settleChannels_keeps h12

theorem State.endImport_keeps {x0 x1 x2} (hx0 : Keeps c r x0) : Keeps c r (State.endImport x0 x1 x2) := by
  unfold State.endImport
  extract_lets +onlyGivenNames -merge -lift v0 v1
  have h2 : Keeps c r v1 := State.modCtx_keeps hx0
  clear_value v1
  exact (keeps_ite (P := Keeps c r) (by
    extract_lets +onlyGivenNames -merge -lift v3 v4 v5
    have h6 : Keeps c r v5 := State.staleSegs_keeps (State.setObj_keeps h2)
    clear_value v5
    exact keeps_ite (P := Keeps c r) (State.freeObj_keeps h6) h6) (by
    extract_lets +onlyGivenNames -merge -lift v7 v8 v9
    have h10 : Keeps c r v9 := State.setFence_keeps h2
    clear_value v9
    exact keeps_ite (P := Keeps c r) (State.freeFence_keeps h10) h10))

theorem State.abortEntries_keeps {x0 x1} (hx0 : Keeps c r x0) : Keeps c r (State.abortEntries x0 x1) := by
  unfold State.abortEntries
  extract_lets +onlyGivenNames -merge -lift v0 v1 v2
  have h3 : Keeps c r v1 := keeps_foldl (P := Keeps c r) (fun _ _ h4 => (State.endImport_keeps h4)) hx0
  clear_value v1
  have h5 : Keeps c r v2 := (keeps_foldl (P := Keeps c r) (fun _ _ h6 =>
    (keeps_ite (P := Keeps c r) (State.freeFence_keeps h6) (State.modCtx_keeps (State.setFence_keeps h6)))) h3)
  clear_value v2
  exact (keeps_foldl (P := Keeps c r) (fun _ _ h7 =>
    (keeps_ite (P := Keeps c r) (State.freeObj_keeps h7)
      (State.modCtx_keeps (State.setObj_keeps (State.zeroingStops_keeps h7))))) h5)

theorem State.abortLaunch_keeps {x0 x1} (hx0 : Keeps c r x0) : Keeps c r (State.abortLaunch x0 x1) := by
  unfold State.abortLaunch
  split <;> [exact hx0; exact (by split <;> [exact (State.setLaunch_keeps hx0); exact (State.endLaunch_keeps hx0)])]

theorem State.abortUnits_keeps {x0 x1} (hx0 : Keeps c r x0) : Keeps c r (State.abortUnits x0 x1) := by
  unfold State.abortUnits
  extract_lets +onlyGivenNames -merge -lift v0 v1 v2 v3
  have h4 : Keeps c r v1 := keeps_mk hx0 (fun _ => rfl) rfl rfl
  clear_value v1
  have h5 : Keeps c r v3 := keeps_mk h4 (fun _ => rfl) rfl rfl
  clear_value v3
  exact State.modCtx_keeps h5

theorem State.ownerGone_keeps {x0 x1} (hx0 : Keeps c r x0) : Keeps c r (State.ownerGone x0 x1) := by
  unfold State.ownerGone
  extract_lets +onlyGivenNames -merge -lift v0 v1
  have h2 : Keeps c r v0 := State.drainSignals_keeps hx0
  clear_value v0
  exact keeps_foldl (P := Keeps c r) (fun _ _ h3 => (State.applySignal_keeps h3)) h2

theorem State.finishAbort_keeps {x0 x1} (hx0 : Keeps c r x0) : Keeps c r (State.finishAbort x0 x1) := by
  unfold State.finishAbort
  extract_lets +onlyGivenNames -merge -lift v0 v1 v2 v3 v4 v5
  have h6 : Keeps c r v0 := State.abortEntries_keeps (State.ownerGone_keeps (State.abortUnits_keeps hx0))
  clear_value v0
  have h7 : Keeps c r v4 := State.setCtx_keeps h6
  clear_value v4
  have h8 : Keeps c r v5 := keeps_mk h7 (fun _ => rfl) rfl rfl
  clear_value v5
  clear_value v2
  split <;> [exact h8; exact (State.reqDone_keeps h8)]

theorem State.abortStep_keeps {x0 x1} (hx0 : Keeps c r x0) : Keeps c r (State.abortStep x0 x1) := by
  unfold State.abortStep
  exact (keeps_ite (P := Keeps c r) hx0 (by
    extract_lets +onlyGivenNames -merge -lift v0 v1
    have h2 : Keeps c r v0 := keeps_mk hx0 (fun _ => rfl) rfl rfl
    clear_value v0
    have h3 : Keeps c r v1 := (keeps_foldl (P := Keeps c r) (fun _ _ h4 => (by
      extract_lets +onlyGivenNames -merge -lift v5
      exact keeps_ite (P := Keeps c r) h4 (keeps_snd (State.withdraw_keeps (State.modCtx_keeps h4))))) h2)
    clear_value v1
    exact keeps_ite (P := Keeps c r) h3 (State.finishAbort_keeps h3)))

theorem State.cacheAck_keeps {x0 x1 x2} (hx0 : Keeps c r x0) : Keeps c r (State.cacheAck x0 x1 x2) := by
  unfold State.cacheAck
  split
  · exact hx0
  · extract_lets +onlyGivenNames -merge -lift v0
    exact keeps_mk hx0 (fun _ => rfl) rfl rfl

theorem State.setFe_keeps {x0 x1 x2} (hx0 : Keeps c r x0) : Keeps c r (State.setFe x0 x1 x2) := by
  unfold State.setFe
  exact State.setCp_keeps hx0

theorem State.feFree_keeps {x0 x1 x2} (hx0 : Keeps c r x0) : Keeps c r (State.feFree x0 x1 x2) := by
  unfold State.feFree
  extract_lets +onlyGivenNames -merge -lift v0
  exact State.setFe_keeps hx0

theorem State.feDiscard_keeps {x0 x1 x2} (hx0 : Keeps c r x0) : Keeps c r (State.feDiscard x0 x1 x2) := by
  unfold State.feDiscard
  extract_lets +onlyGivenNames -merge -lift v0 v1
  have h2 : Keeps c r v1 := State.feFree_keeps hx0
  clear_value v1
  split
  · exact (keeps_ite (P := Keeps c r) (State.stepEnds_keeps h2)
      (keeps_ite (P := Keeps c r) (State.setSched_keeps h2) h2))
  · exact h2
  · split
    · exact h2
    · extract_lets +onlyGivenNames -merge -lift v3
      exact keeps_ite (P := Keeps c r) (State.setCmd_keeps h2) (State.checkCmdDone_keeps (State.setCmd_keeps h2))

theorem State.quarantine_keeps {x0 x1 x2} (hx0 : Keeps c r x0) : Keeps c r (State.quarantine x0 x1 x2) := by
  unfold State.quarantine
  extract_lets +onlyGivenNames -merge -lift v0
  exact (keeps_ite (P := Keeps c r) hx0 (by
    extract_lets +onlyGivenNames -merge -lift v1 v2 v3 v4 v5
    have h6 : Keeps c r v1 := State.setCp_keeps hx0
    clear_value v1
    have h7 : Keeps c r v2 := keeps_mk h6 (fun _ => rfl) rfl rfl
    clear_value v2
    have h8 : Keeps c r v3 := (keeps_foldl (P := Keeps c r) (fun _ _ h9 => (by
      extract_lets +onlyGivenNames -merge -lift v10
      exact (keeps_ite (P := Keeps c r) h9
        (State.leavePart_keeps (State.fptChange_keeps (State.feDiscard_keeps h9)))))) h7)
    clear_value v3
    have h11 : Keeps c r v4 := State.fptChange_keeps h8
    clear_value v4
    exact State.rmRecord_keeps (State.sageFail_keeps h11)))

theorem State.ackLate_keeps {x0 x1 x2} (hx0 : Keeps c r x0) : Keeps c r (State.ackLate x0 x1 x2) := by
  unfold State.ackLate
  extract_lets +onlyGivenNames -merge -lift v0 v1 v2
  have h3 : Keeps c r v1 := keeps_mk hx0 (fun _ => rfl) rfl rfl
  clear_value v1
  have h4 : ∀ y0, Keeps c r y0 → Keeps c r (v2 y0) := (by
    unfold v2
    exact (fun _ h5 => (by
      extract_lets +onlyGivenNames -merge -lift v6
      have h7 : Keeps c r v6 := State.cacheAck_keeps h5
      clear_value v6
      exact keeps_mk h7 (fun _ => rfl) rfl rfl)))
  clear_value v2
  split
  · exact State.cacheAck_keeps (State.quarantine_keeps h3)
  · exact State.retireUnit_keeps (State.sageFail_keeps (h4 _ h3))
  · exact State.sageFail_keeps (h4 _ h3)
  · exact State.sageFail_keeps (h4 _ h3)

theorem State.actCall_keeps {x0 x1 x2} (hx1 : Keeps c r x1) : Keeps c r (State.actCall x0 x1 x2) := by
  induction x0 generalizing x1 x2 with
  | zero =>
    exact hx1
  | succ n ih =>
    unfold State.actCall
    split
    · exact hx1
    · extract_lets +onlyGivenNames -merge -lift v0
      split
      · exact State.cmdStall_keeps hx1 (fun _ h1 => (ih h1))
      · exact (keeps_ite (P := Keeps c r) (State.finishCmd_keeps hx1) (by
          extract_lets +onlyGivenNames -merge -lift v2 v3
          exact State.acted_keeps (State.setQueue_keeps hx1)))

theorem State.actCopy_keeps {x0 x1 x2} (hx0 : Keeps c r x0) : Keeps c r (State.actCopy x0 x1 x2) := by
  unfold State.actCopy
  exact (State.cmdRead_keeps hx0 (fun _ _ h0 => (by
    split
    · exact (keeps_ite (P := Keeps c r) h0
        (keeps_ite (P := Keeps c r) (State.finishCmd_keeps h0) (State.setCmd_keeps h0)))
    · exact State.badCmd_keeps h0)))

theorem State.actJump_keeps {x0 x1 x2} (hx0 : Keeps c r x0) : Keeps c r (State.actJump x0 x1 x2) := by
  unfold State.actJump
  extract_lets +onlyGivenNames -merge -lift v0 v1
  exact (keeps_ite (P := Keeps c r) (by
    extract_lets +onlyGivenNames -merge -lift v2
    exact (keeps_ite (P := Keeps c r) (State.badCmd_keeps hx0)
      (State.closeCall_keeps (State.finishCmd_keeps (State.setQueue_keeps hx0)))))
    (keeps_ite (P := Keeps c r) (State.badCmd_keeps hx0) (by
      extract_lets +onlyGivenNames -merge -lift v3 v4
      exact State.finishCmd_keeps (State.setQueue_keeps hx0))))

theorem State.startLaunch_keeps {x0 x1 x2 x3 x4} (hx0 : Keeps c r x0)
    (hx4 : ∀ y0 y1, Keeps c r y0 → Keeps c r (x4 y0 y1)) :
    Keeps c r (State.startLaunch x0 x1 x2 x3 x4) := by
  unfold State.startLaunch
  exact (keeps_ite (P := Keeps c r) hx0 (by
    extract_lets +onlyGivenNames -merge -lift v0
    have h1 : Keeps c r v0 := (by unfold v0; split <;> [exact hx0; exact (State.cmdFault_keeps hx0)])
    clear_value v0
    split <;> [exact h1; exact (hx4 _ _ h1)]))

theorem State.withDesc_keeps {x0 x1 x2 x3 x4} (hx0 : Keeps c r x0)
    (hx4 : ∀ y0 y1 y2, Keeps c r y0 → Keeps c r (x4 y0 y1 y2)) :
    Keeps c r (State.withDesc x0 x1 x2 x3 x4) := by
  unfold State.withDesc
  exact (State.cmdRead_keeps hx0 (fun _ _ h0 => (by
    extract_lets +onlyGivenNames -merge -lift v1
    exact (keeps_ite (P := Keeps c r) (State.badCmd_keeps h0) (by
      extract_lets +onlyGivenNames -merge -lift v2
      have h3 : ∀ y0 y1, Keeps c r y0 → Keeps c r (v2 y0 y1) := (by
        unfold v2
        exact (fun _ _ h4 => (by split <;> [exact h4; exact (hx4 _ _ _ h4)])))
      clear_value v2
      exact keeps_ite (P := Keeps c r) (h3 _ _ h0) (State.cmdRead_keeps h0 h3))))))

theorem State.actLaunch_keeps {x0 x1 x2} (hx0 : Keeps c r x0) : Keeps c r (State.actLaunch x0 x1 x2) := by
  unfold State.actLaunch
  split
  · exact (keeps_ite (P := Keeps c r) (State.badCmd_keeps hx0)
      (State.withDesc_keeps hx0 (fun _ _ _ h0 => (State.setCmd_keeps h0))))
  · exact (State.withDesc_keeps hx0 (fun _ _ _ h1 =>
      (keeps_ite (P := Keeps c r) (State.badCmd_keeps h1)
        (keeps_ite (P := Keeps c r) (State.finishCmd_keeps h1)
          (State.startLaunch_keeps h1 (fun _ _ h2 => (State.setCmd_keeps h2)))))))

theorem State.actRelease_keeps {x0 x1 x2} (hx0 : Keeps c r x0) : Keeps c r (State.actRelease x0 x1 x2) := by
  unfold State.actRelease
  extract_lets +onlyGivenNames -merge -lift v0 v1 v2
  have h3 : ∀ y0 y1, Keeps c r y0 → Keeps c r (v2 y0 y1) := (by
    unfold v2
    exact (fun _ _ h4 => (by
      extract_lets +onlyGivenNames -merge -lift v5
      exact State.finishCmd_keeps (State.modCtx_keeps h4))))
  clear_value v2
  exact (keeps_ite (P := Keeps c r) (by
    extract_lets +onlyGivenNames -merge -lift v6
    exact (keeps_ite (P := Keeps c r) (State.finishCmd_keeps (State.cmdFault_keeps hx0))
      (keeps_ite (P := Keeps c r) hx0 (keeps_ite (P := Keeps c r) (h3 _ _ (State.setObj_keeps hx0)) (h3 _ _ hx0)))))
    (keeps_ite (P := Keeps c r) (by
      extract_lets +onlyGivenNames -merge -lift v7
      exact (keeps_ite (P := Keeps c r) (State.finishCmd_keeps (State.cmdFault_keeps hx0))
        (keeps_ite (P := Keeps c r) (h3 _ _ (State.setFence_keeps hx0)) (h3 _ _ hx0)))) (State.badCmd_keeps hx0)))

theorem State.signalHere_keeps {x0 x1 x2 x3} (hx0 : Keeps c r x0) : Keeps c r (State.signalHere x0 x1 x2 x3) := by
  unfold State.signalHere
  extract_lets +onlyGivenNames -merge -lift v0
  exact State.finishCmd_keeps (keeps_ite (P := Keeps c r) (State.sendSignal_keeps hx0) (State.cmdFault_keeps hx0))

theorem State.actRemoteFabric_keeps {x0 x1 x2} (hx0 : Keeps c r x0) :
    Keeps c r (State.actRemoteFabric x0 x1 x2) := by
  unfold State.actRemoteFabric
  extract_lets +onlyGivenNames -merge -lift v0
  exact (keeps_ite (P := Keeps c r) (State.signalHere_keeps hx0)
    (keeps_ite (P := Keeps c r) (State.finishCmd_keeps (State.cmdFault_keeps hx0)) (by
      extract_lets +onlyGivenNames -merge -lift v1 v2
      exact State.e2eSend_keeps (State.setCmd_keeps hx0))))

theorem State.actRemotePeer_keeps {x0 x1 x2 x3} (hx0 : Keeps c r x0) :
    Keeps c r (State.actRemotePeer x0 x1 x2 x3) := by
  unfold State.actRemotePeer
  extract_lets +onlyGivenNames -merge -lift v0
  exact (keeps_ite (P := Keeps c r) (State.signalHere_keeps hx0) (by
    split
    · exact State.finishCmd_keeps (State.cmdFault_keeps hx0)
    · extract_lets +onlyGivenNames -merge -lift v1 v2 v3
      have h4 : Keeps c r v3 := (Keeps.trans hx0 ⟨rfl, rfl, id, id, List.prefix_append _ _, fun _ => .inl rfl,
        Nat.le_refl _, Nat.le_refl _, Nat.le_refl _, fun _ g => .inl g⟩)
      clear_value v3
      exact State.finishCmd_keeps (keeps_ite (P := Keeps c r) h4 (State.cmdFault_keeps h4))))

theorem State.actResident_keeps {x0 x1 x2} (hx0 : Keeps c r x0) : Keeps c r (State.actResident x0 x1 x2) := by
  unfold State.actResident
  exact (State.withDesc_keeps hx0 (fun _ _ _ h0 =>
    (keeps_ite (P := Keeps c r) (State.badCmd_keeps h0)
      (keeps_ite (P := Keeps c r) (State.finishCmd_keeps h0)
        (State.startLaunch_keeps h0 (fun _ _ h1 => (by
          extract_lets +onlyGivenNames -merge -lift v2 v3 v4
          have h5 : Keeps2 c r v2 := State.fresh_keeps h1
          clear_value v2
          have h6 : Keeps c r v3 := State.setLaunch_keeps (keeps_snd h5)
          clear_value v3
          have h7 : Keeps c r v4 := State.setCmd_keeps h6
          clear_value v4
          exact State.setQueue_keeps h7)))))))

theorem State.actStop_keeps {x0 x1} (hx0 : Keeps c r x0) : Keeps c r (State.actStop x0 x1) := by
  unfold State.actStop
  split
  · exact hx0
  · extract_lets +onlyGivenNames -merge -lift v0
    have h1 : Keeps c r v0 := State.acted_keeps hx0
    clear_value v0
    exact (keeps_ite (P := Keeps c r) h1 (by
      split
      · exact State.finishCmd_keeps h1
      · exact State.finishCmd_keeps (State.deliver_keeps (State.modLaunch_keeps h1))))

theorem State.waitEnds_keeps {x0 x1 x2 x3} (hx0 : Keeps c r x0) : Keeps c r (State.waitEnds x0 x1 x2 x3) := by
  unfold State.waitEnds
  extract_lets +onlyGivenNames -merge -lift v0 v1 v2
  have h3 : Keeps c r v0 := State.finishCmd_keeps hx0
  clear_value v0
  exact (keeps_ite (P := Keeps c r) (State.setQueue_keeps h3) (by
    extract_lets +onlyGivenNames -merge -lift v4 v5
    have h6 : Keeps c r v4 := State.setQueue_keeps h3
    clear_value v4
    exact State.raise_keeps (State.notify_keeps h6)))

theorem State.actWait_keeps {x0 x1 x2} (hx0 : Keeps c r x0) : Keeps c r (State.actWait x0 x1 x2) := by
  unfold State.actWait
  extract_lets +onlyGivenNames -merge -lift v0
  exact (keeps_ite (P := Keeps c r) (State.finishCmd_keeps (State.cmdFault_keeps hx0))
    (keeps_ite (P := Keeps c r) (State.acted_keeps (State.setQueue_keeps hx0)) (State.waitEnds_keeps hx0)))

theorem State.requestViol_keeps {x0 x1 x2} (hx0 : Keeps c r x0) : Keeps c r (State.requestViol x0 x1 x2) := by
  unfold State.requestViol
  exact keeps_ite (P := Keeps c r) hx0 (State.fault_keeps hx0)

theorem State.certWrite_keeps {x0 x1 x2 x3 x4} (hx0 : Keeps c r x0) :
    Keeps c r (State.certWrite x0 x1 x2 x3 x4) := by
  unfold State.certWrite
  extract_lets +onlyGivenNames -merge -lift v0 v1
  have h2 : Keeps1 c r v1 := (keeps_foldl (P := Keeps1 c r) (fun _ _ h3 => (by
    split
    · rename_i v4 v5 eh4
      have h4 := keeps_eqW eh4 (State.writeLine_keeps (keeps_fst h3))
      exact keeps_pair1 h4
    · exact keeps_pair1 (keeps_fst h3)
    · exact keeps_pair1 (keeps_fst h3))) (keeps_pair1 hx0))
  clear_value v1
  exact State.reqDone_keeps (State.requestViol_keeps (State.chargeBytes_keeps (keeps_fst h2)))

theorem State.cmdResolve_keeps {x0 x1 x2} (hx0 : Keeps c r x0) : Keeps c r (State.cmdResolve x0 x1 x2) := by
  unfold State.cmdResolve
  exact (keeps_foldl (P := Keeps c r) (fun _ _ h0 => (by
    split
    · exact h0
    · extract_lets +onlyGivenNames -merge -lift v1
      have h2 : Keeps c r v1 := State.setCmd_keeps h0
      clear_value v1
      exact keeps_ite (P := Keeps c r) (State.fault_keeps h2) h2)) hx0)

theorem State.cppPump_keeps {x0 x1} (hx0 : Keeps c r x0) : Keeps c r (State.cppPump x0 x1) := by
  unfold State.cppPump
  extract_lets +onlyGivenNames -merge -lift v0
  exact keeps_foldl (P := Keeps c r) (fun _ _ h1 => (State.cppSend_keeps h1)) (State.setCp_keeps hx0)

theorem State.cppReturn_keeps {x0 x1 x2 x3} (hx0 : Keeps c r x0) : Keeps c r (State.cppReturn x0 x1 x2 x3) := by
  unfold State.cppReturn
  exact (keeps_ite (P := Keeps c r) hx0 (by
    extract_lets +onlyGivenNames -merge -lift v0 v1 v2
    exact State.cppSend_keeps (State.setCp_keeps hx0)))

theorem State.entryFree_keeps {x0 x1} (hx0 : Keeps c r x0) : Keeps c r (State.entryFree x0 x1) := by
  unfold State.entryFree
  extract_lets +onlyGivenNames -merge -lift v0 v1 v2 v3
  split
  · exact hx0
  · exact (keeps_ite (P := Keeps c r) hx0 (by
      extract_lets +onlyGivenNames -merge -lift v4
      have h5 : Keeps c r v4 := State.modCtx_keeps hx0
      clear_value v4
      exact keeps_ite (P := Keeps c r) (State.freeObj_keeps h5) (State.freeFence_keeps h5)))

theorem State.feFault_keeps {x0 x1 x2 x3 x4} (hx0 : Keeps c r x0) : Keeps c r (State.feFault x0 x1 x2 x3 x4) := by
  unfold State.feFault
  extract_lets +onlyGivenNames -merge -lift v0 v1
  have h2 : Keeps c r v1 := State.setFe_keeps hx0
  clear_value v1
  exact State.fault_keeps h2

theorem State.feSignal_keeps {x0 x1 x2} (hx0 : Keeps c r x0) : Keeps c r (State.feSignal x0 x1 x2) := by
  unfold State.feSignal
  extract_lets +onlyGivenNames -merge -lift v0 v1
  exact keeps_ite (P := Keeps c r) (State.sendSignal_keeps hx0) (State.feFault_keeps hx0)

theorem State.feFlush_keeps {x0 x1} (hx0 : Keeps c r x0) : Keeps c r (State.feFlush x0 x1) := by
  unfold State.feFlush
  exact (keeps_ite (P := Keeps c r) hx0 (by
    extract_lets +onlyGivenNames -merge -lift v0
    exact keeps_foldl (P := Keeps c r) (fun _ _ h1 => (State.feSignal_keeps h1)) (State.setFe_keeps hx0)))

theorem State.feViol_keeps {x0 x1 x2} (hx0 : Keeps c r x0) : Keeps c r (State.feViol x0 x1 x2) := by
  unfold State.feViol
  exact (keeps_ite (P := Keeps c r) hx0 (by
    extract_lets +onlyGivenNames -merge -lift v0
    exact State.feFault_keeps (State.setCp_keeps hx0)))

theorem State.readData_keeps {x0 x1 x2 x3} (hx0 : Keeps c r x0) : Keeps c r (State.readData x0 x1 x2 x3) := by
  unfold State.readData
  extract_lets +onlyGivenNames -merge -lift v0 v1 v2 v3
  exact keeps_ite (P := Keeps c r) (State.setCp_keeps hx0) (State.cppSend_keeps (State.setCp_keeps hx0))

theorem State.writeAck_keeps {x0 x1 x2} (hx0 : Keeps c r x0) : Keeps c r (State.writeAck x0 x1 x2) := by
  unfold State.writeAck
  exact State.cppSend_keeps (State.setCp_keeps hx0)

theorem feWriteLine_keeps {x0 x1 x2 x3} (hx2 : Keeps1 c r x2) :
    Keeps1 c r (feWriteLine x0 x1 x2 x3) := by
  obtain ⟨s, v, n, stop⟩ := x2
  unfold feWriteLine
  dsimp only
  split
  · exact hx2
  · split
    · rename_i e
      exact keeps_pair1 (State.chargeBytes_keeps (keeps_eqW e (State.writeLine_keeps (keeps_fst hx2))))
    · exact hx2
    · exact hx2

theorem State.fePerform_keeps {x0 x1 x2 x3 x4} (hx1 : Keeps c r x1) :
    Keeps c r (State.fePerform x0 x1 x2 x3 x4) := by
  induction x0 generalizing x1 x4 with
  | zero => exact hx1
  | succ n ih =>
    unfold State.fePerform
    dsimp only
    split
    · split
      · rename_i e
        have g := keeps_eq1 e (keeps_foldl (P := Keeps1 c r) (fun _ _ h => feWriteLine_keeps h) hx1)
        exact State.writeAck_keeps (State.feViol_keeps (State.setCp_keeps g))
      · split
        · have g := keeps_eqR ‹_› (State.raiseSegFault_keeps hx1)
          exact keeps_ite (State.setCp_keeps g) (State.cppSend_keeps (State.setCp_keeps g))
        · have g := keeps_eqR ‹_› (State.raiseSegFault_keeps hx1)
          exact ih (State.feFault_keeps g)
    · split
      · exact State.readData_keeps (State.feViol_keeps (State.chargeBytes_keeps (State.setCp_keeps hx1)))
      · split
        · have g := keeps_eqR ‹_› (State.raiseSegFault_keeps hx1)
          exact keeps_ite (State.setCp_keeps g) (State.cppSend_keeps (State.setCp_keeps g))
        · have g := keeps_eqR ‹_› (State.raiseSegFault_keeps hx1)
          exact ih (State.feFault_keeps g)

theorem State.feRun_keeps {x0 x1 x2 x3} (hx1 : Keeps c r x1) :
    Keeps c r (State.feRun x0 x1 x2 x3) := by
  induction x0 generalizing x1 x3 with
  | zero => exact hx1
  | succ n ih =>
    unfold State.feRun
    dsimp only
    split
    · exact keeps_ite (State.feFlush_keeps hx1) (ih (State.fePerform_keeps hx1))
    · exact State.feFlush_keeps hx1

theorem State.feArrive_keeps {x0 x1 x2} (hx0 : Keeps c r x0) : Keeps c r (State.feArrive x0 x1 x2) := by
  unfold State.feArrive
  extract_lets +onlyGivenNames -merge -lift v0 v1 v2 v3
  have h4 : Keeps c r v2 := State.setCp_keeps hx0
  clear_value v2
  have h5 : Keeps c r v3 := keeps_ite (P := Keeps c r) h4 (State.cppReturn_keeps h4)
  clear_value v3
  exact State.feRun_keeps h5

theorem State.feEnd_keeps {x0 x1 x2} (hx0 : Keeps c r x0) : Keeps c r (State.feEnd x0 x1 x2) := by
  unfold State.feEnd
  extract_lets +onlyGivenNames -merge -lift v0 v1
  have h2 : Keeps c r v1 := State.feFree_keeps hx0
  clear_value v1
  split
  · exact State.stepEnds_keeps h2
  · exact h2
  · split <;> [exact h2; exact (State.checkCmdDone_keeps (State.setCmd_keeps h2))]

theorem State.feOwed_keeps {x0 x1} (hx0 : Keeps c r x0) : Keeps c r (State.feOwed x0 x1) := by
  unfold State.feOwed
  extract_lets +onlyGivenNames -merge -lift v0
  exact (keeps_ite (P := Keeps c r) hx0
    (keeps_foldl (P := Keeps c r) (fun _ _ h1 => (State.cppReturn_keeps h1)) (State.setCp_keeps hx0)))

theorem State.feSquash_keeps {x0 x1} (hx0 : Keeps c r x0) : Keeps c r (State.feSquash x0 x1) := by
  unfold State.feSquash
  extract_lets +onlyGivenNames -merge -lift v0 v1 v2
  have h3 : Keeps c r v2 := (keeps_foldl (P := Keeps c r) (fun _ _ h4 =>
    (keeps_ite (P := Keeps c r) (State.writeAck_keeps h4)
      (keeps_ite (P := Keeps c r) h4 (State.readData_keeps h4)))) hx0)
  clear_value v2
  exact State.feOwed_keeps (State.setFe_keeps h3)

theorem State.feQuiesce_keeps {x0 x1} (hx0 : Keeps c r x0) : Keeps c r (State.feQuiesce x0 x1) := by
  unfold State.feQuiesce
  extract_lets +onlyGivenNames -merge -lift v0
  exact (keeps_ite (P := Keeps c r) hx0 (by
    split
    · rename_i v1 v2 eh2
      have h2 := keeps_eq2 eh2 (State.cppTag_keeps hx0)
      extract_lets +onlyGivenNames -merge -lift v3 v4 v5
      have h6 : Keeps c r v4 := State.setFe_keeps h2
      clear_value v4
      exact State.feSquash_keeps (State.cppSend_keeps (State.setCp_keeps h6))))

theorem State.identCancel_keeps {x0 x1} (hx0 : Keeps c r x0) : Keeps c r (State.identCancel x0 x1) := by
  unfold State.identCancel
  exact keeps_foldl (P := Keeps c r) (fun _ _ h0 => (State.reqDone_keeps h0)) hx0

theorem State.keyRead_keeps {x0 x1 x2 x3 x4} (hx0 : Keeps c r x0) : Keeps c r (State.keyRead x0 x1 x2 x3 x4) := by
  unfold State.keyRead
  extract_lets +onlyGivenNames -merge -lift v0 v1 v2 v3
  have h4 : Keeps c r v1 := State.requestViol_keeps (State.chargeBytes_keeps hx0)
  clear_value v1
  exact State.reqDone_keeps (keeps_ite (P := Keeps c r) h4 (State.setPart_keeps h4))

theorem State.identRun_keeps {x0 x1} (hx0 : Keeps c r x0) : Keeps c r (State.identRun x0 x1) := by
  unfold State.identRun
  extract_lets +onlyGivenNames -merge -lift v0 v1 v2 v3 v4 v5 v6
  have h7 : ∀ y0 y1, Keeps c r y0 → Keeps c r (v5 y0 y1) := (by
    unfold v5
    exact (fun _ _ h8 => (keeps_ite (P := Keeps c r) (State.certWrite_keeps h8) (State.keyRead_keeps h8))))
  clear_value v5
  clear_value v6
  split
  · exact h7 _ _ hx0
  · split
    · rename_i v9 eh9
      have h9 := keeps_eqR eh9 (State.raiseSegFault_keeps hx0)
      exact State.setBlock_keeps h9
    · rename_i v10 eh10
      have h10 := keeps_eqR eh10 (State.raiseSegFault_keeps hx0)
      exact h7 _ _ (State.fault_keeps h10)

theorem State.identResolve_keeps {x0 x1 x2} (hx0 : Keeps c r x0) : Keeps c r (State.identResolve x0 x1 x2) := by
  unfold State.identResolve
  exact (keeps_foldl (P := Keeps c r) (fun _ _ h0 => (by
    extract_lets +onlyGivenNames -merge -lift v1 v2 v3
    have h4 : Keeps c r v3 := State.setBlock_keeps h0
    clear_value v3
    exact State.identRun_keeps (keeps_ite (P := Keeps c r) (State.fault_keeps h4) h4))) hx0)

theorem State.launchResolve_keeps {x0 x1 x2} (hx0 : Keeps c r x0) : Keeps c r (State.launchResolve x0 x1 x2) := by
  unfold State.launchResolve
  exact (keeps_foldl (P := Keeps c r) (fun _ _ h0 => (by
    extract_lets +onlyGivenNames -merge -lift v1
    have h2 : Keeps c r v1 := State.modLaunch_keeps h0
    clear_value v1
    exact (keeps_ite (P := Keeps c r) (by
      extract_lets +onlyGivenNames -merge -lift v3 v4
      exact State.fault_keeps (State.modLaunch_keeps h2)) h2))) hx0)

theorem State.pickFree_keeps {x0 x1 x2} (hx0 : Keeps c r x0) : Keeps2 c r (State.pickFree x0 x1 x2) := by
  unfold State.pickFree
  split <;> [(rename_i v0 v1 eh1; have h1 := keeps_eq2 eh1 (State.free_keeps hx0); exact (keeps_pair2 h1))]

theorem State.newObj_keeps {x0 x1 x2} (hx0 : Keeps c r x0) : Keeps2 c r (State.newObj x0 x1 x2) := by
  unfold State.newObj
  split
  · rename_i v0 eh0
    have h0 := keeps_eq2 eh0 (State.pickFree_keeps hx0)
    exact keeps_pair2 h0
  · rename_i v1 v2 eh2
    have h2 := keeps_eq2 eh2 (State.pickFree_keeps hx0)
    exact keeps_pair2 (State.modCtx_keeps (State.setObj_keeps h2))

theorem State.onCtx_keeps {x0 x1 x2} (hx0 : Keeps c r x0) (hx2 : ∀ y0 y1, Keeps c r y0 → Keeps c r (x2 y0 y1)) :
    Keeps c r (State.onCtx x0 x1 x2) := by
  unfold State.onCtx
  extract_lets +onlyGivenNames -merge -lift v0
  exact keeps_ite (P := Keeps c r) (hx2 _ _ hx0) (State.reqDone_keeps hx0)

theorem State.onLive_keeps {x0 x1 x2} (hx0 : Keeps c r x0) (hx2 : ∀ y0 y1, Keeps c r y0 → Keeps c r (x2 y0 y1)) :
    Keeps c r (State.onLive x0 x1 x2) := by
  unfold State.onLive
  exact State.onCtx_keeps hx0 (fun _ _ h0 => (keeps_ite (P := Keeps c r) (hx2 _ _ h0) (State.reqDone_keeps h0)))

theorem State.onQueue_keeps {x0 x1 x2} (hx0 : Keeps c r x0) (hx2 : ∀ y0 y1, Keeps c r y0 → Keeps c r (x2 y0 y1)) :
    Keeps c r (State.onQueue x0 x1 x2) := by
  unfold State.onQueue
  exact (State.onCtx_keeps hx0 (fun _ _ h0 => (by
    extract_lets +onlyGivenNames -merge -lift v1 v2
    exact keeps_ite (P := Keeps c r) (hx2 _ _ h0) (State.reqDone_keeps h0))))

theorem State.onTable_keeps {x0 x1 x2 x3} (hx0 : Keeps c r x0) (hx3 : ∀ y0 y1, Keeps c r y0 → Keeps c r (x3 y0 y1))
    :
    Keeps c r (State.onTable x0 x1 x2 x3) := by
  unfold State.onTable
  extract_lets +onlyGivenNames -merge -lift v0
  exact (keeps_ite (P := Keeps c r) (State.reqDone_keeps hx0)
    (keeps_ite (P := Keeps c r) (State.reqDone_keeps hx0)
      (keeps_ite (P := Keeps c r) (State.reqDone_keeps hx0) (hx3 _ _ hx0))))

theorem State.refuseRemote_keeps {x0 x1 x2} (hx0 : Keeps c r x0) : Keeps c r (State.refuseRemote x0 x1 x2) := by
  unfold State.refuseRemote
  exact State.sageSend_keeps (keeps_mk hx0 (fun _ => rfl) rfl rfl)

theorem State.peerRecord_keeps {x0 x1 x2} (hx0 : Keeps c r x0) : Keeps c r (State.peerRecord x0 x1 x2) := by
  unfold State.peerRecord
  split
  · exact keeps_mk hx0 (fun _ => rfl) rfl rfl
  · extract_lets +onlyGivenNames -merge -lift v0 v1
    have h2 : Keeps c r v1 := (keeps_ite (P := Keeps c r) (State.sendSignal_keeps hx0)
      (State.refuseRemote_keeps hx0))
    clear_value v1
    exact keeps_mk h2 (fun _ => rfl) rfl rfl

theorem State.portResolve_keeps {x0 x1 x2} (hx0 : Keeps c r x0) : Keeps c r (State.portResolve x0 x1 x2) := by
  unfold State.portResolve
  exact (keeps_foldl (P := Keeps c r) (fun _ _ h0 =>
    (keeps_foldl (P := Keeps c r) (fun _ _ h1 => (by
      extract_lets +onlyGivenNames -merge -lift v2 v3 v4 v5 v6
      have h7 : Keeps c r v4 := State.setCp_keeps h1
      clear_value v4
      have h8 : Keeps c r v6 := keeps_ite (P := Keeps c r) (State.fault_keeps (State.setFe_keeps h7)) h7
      clear_value v6
      exact State.feOwed_keeps (State.feRun_keeps h8))) h0)) hx0)

theorem State.putSeg_keeps {x0 x1 x2 x3 x4} (hx0 : Keeps c r x0) : Keeps c r (State.putSeg x0 x1 x2 x3 x4) := by
  unfold State.putSeg
  extract_lets +onlyGivenNames -merge -lift v0 v1
  have h2 : Keeps c r v1 := State.modCtx_keeps hx0
  clear_value v1
  exact (keeps_ite (P := Keeps c r) (by
    extract_lets +onlyGivenNames -merge -lift v3
    have h4 : Keeps2 c r v3 := State.withdraw_keeps h2
    clear_value v3
    exact State.setBlock_keeps (keeps_snd h4)) (State.reqDone_keeps h2))

theorem State.queueResolve_keeps {x0 x1 x2} (hx0 : Keeps c r x0) : Keeps c r (State.queueResolve x0 x1 x2) := by
  unfold State.queueResolve
  exact (keeps_foldl (P := Keeps c r) (fun _ _ h0 => (by
    extract_lets +onlyGivenNames -merge -lift v1 v2
    exact (keeps_ite (P := Keeps c r) h0
      (keeps_ite (P := Keeps c r) (State.fault_keeps (State.setQueue_keeps h0)) (State.setQueue_keeps h0))))) hx0)

theorem State.reqBegin_keeps {x0 x1 x2 x3} (hx0 : Keeps c r x0) (hx3 : ∀ y0, Keeps c r y0 → Keeps c r (x3 y0)) :
    Keeps c r (State.reqBegin x0 x1 x2 x3) := by
  unfold State.reqBegin
  extract_lets +onlyGivenNames -merge -lift v0 v1
  exact (keeps_ite (P := Keeps c r) (State.reqDone_keeps hx0)
    (keeps_ite (P := Keeps c r) (State.reqDone_keeps hx0) (hx3 _ hx0)))

theorem State.reqCtxCreate_keeps {x0 x1} (hx0 : Keeps c r x0) : Keeps c r (State.reqCtxCreate x0 x1) := by
  unfold State.reqCtxCreate
  extract_lets +onlyGivenNames -merge -lift v0 v1 v2 v3 v4 v5 v6
  have h7 : ∀ y0, Keeps c r (v6 y0) := (by unfold v6; exact (fun _ => (State.reqDone_keeps hx0)))
  clear_value v6
  exact (keeps_ite (P := Keeps c r) (h7 _) (by
    split
    · exact h7 _
    · exact (keeps_ite (P := Keeps c r) (State.setBlock_keeps hx0) (by
        extract_lets +onlyGivenNames -merge -lift v8 v9 v10 v11
        exact (keeps_ite (P := Keeps c r) (h7 _)
          (keeps_ite (P := Keeps c r) (h7 _)
            (keeps_ite (P := Keeps c r) (h7 _)
              (keeps_ite (P := Keeps c r) (h7 _) (by
                split
                · exact h7 _
                · extract_lets +onlyGivenNames -merge -lift v12 v13
                  exact State.reqDone_keeps (State.setCtx_keeps hx0))))))))))

theorem State.startAbort_keeps {x0 x1 x2} (hx0 : Keeps c r x0) : Keeps c r (State.startAbort x0 x1 x2) := by
  unfold State.startAbort
  extract_lets +onlyGivenNames -merge -lift v0 v1 v2 v3 v4
  have h5 : Keeps c r v1 := State.setCtx_keeps hx0
  clear_value v1
  have h6 : Keeps c r v2 := keeps_ite (P := Keeps c r) (State.schedAbort_keeps h5) h5
  clear_value v2
  have h7 : Keeps c r v3 := keeps_mk h6 (fun _ => rfl) rfl rfl
  clear_value v3
  have h8 : Keeps c r v4 := keeps_foldl (P := Keeps c r) (fun _ _ h9 => (State.abortLaunch_keeps h9)) h7
  clear_value v4
  exact State.identCancel_keeps (keeps_foldl (P := Keeps c r) (fun _ _ h10 => (State.feQuiesce_keeps h10)) h8)

theorem State.reqCtxDestroy_keeps {x0 x1} (hx0 : Keeps c r x0) : Keeps c r (State.reqCtxDestroy x0 x1) := by
  unfold State.reqCtxDestroy
  extract_lets +onlyGivenNames -merge -lift v0 v1 v2
  exact (keeps_ite (P := Keeps c r) (State.reqDone_keeps hx0)
    (keeps_ite (P := Keeps c r) (State.reqDone_keeps hx0)
      (keeps_ite (P := Keeps c r) (State.reqDone_keeps hx0)
        (keeps_ite (P := Keeps c r) (State.reqDone_keeps hx0)
          (State.startAbort_keeps (State.setBlock_keeps hx0))))))

theorem State.reqCtxQuery_keeps {x0 x1} (hx0 : Keeps c r x0) : Keeps c r (State.reqCtxQuery x0 x1) := by
  unfold State.reqCtxQuery
  exact State.onCtx_keeps hx0 (fun _ _ h0 => (State.reqDone_keeps h0))

theorem State.reqFenceCreate_keeps {x0 x1} (hx0 : Keeps c r x0) : Keeps c r (State.reqFenceCreate x0 x1) := by
  unfold State.reqFenceCreate
  exact (State.onLive_keeps hx0 (fun _ _ h0 => (by
    extract_lets +onlyGivenNames -merge -lift v1
    exact (keeps_ite (P := Keeps c r) (State.reqDone_keeps h0)
      (keeps_ite (P := Keeps c r) (State.reqDone_keeps h0) (by
        split
        · rename_i v2 eh2
          have h2 := keeps_eq2 eh2 (State.pickFree_keeps h0)
          exact State.reqDone_keeps h2
        · rename_i v3 v4 eh4
          have h4 := keeps_eq2 eh4 (State.pickFree_keeps h0)
          extract_lets +onlyGivenNames -merge -lift v5 v6
          have h7 : Keeps c r v6 := State.modCtx_keeps (State.setFence_keeps h4)
          clear_value v6
          exact State.reqDone_keeps h7))))))

theorem State.reqFenceQuery_keeps {x0 x1} (hx0 : Keeps c r x0) : Keeps c r (State.reqFenceQuery x0 x1) := by
  unfold State.reqFenceQuery
  exact (State.onCtx_keeps hx0 (fun _ _ h0 => (by
    extract_lets +onlyGivenNames -merge -lift v1
    exact (keeps_ite (P := Keeps c r) (State.reqDone_keeps h0) (by
      extract_lets +onlyGivenNames -merge -lift v2
      exact State.reqDone_keeps h0)))))

theorem State.reqImport_keeps {x0 x1} (hx0 : Keeps c r x0) : Keeps c r (State.reqImport x0 x1) := by
  unfold State.reqImport
  exact (State.onLive_keeps hx0 (fun _ _ h0 => (by
    extract_lets +onlyGivenNames -merge -lift v1 v2
    split
    · exact State.reqDone_keeps h0
    · exact (keeps_ite (P := Keeps c r) (State.reqDone_keeps h0)
        (keeps_ite (P := Keeps c r) (State.reqDone_keeps h0)
          (keeps_ite (P := Keeps c r) (State.reqDone_keeps h0) (by
            extract_lets +onlyGivenNames -merge -lift v3 v4 v5 v6
            have h7 : Keeps c r v6 := keeps_ite (P := Keeps c r) (State.setObj_keeps h0) (State.setFence_keeps h0)
            clear_value v6
            exact State.reqDone_keeps (State.modCtx_keeps h7))))))))

theorem State.reqObjCreate_keeps {x0 x1} (hx0 : Keeps c r x0) : Keeps c r (State.reqObjCreate x0 x1) := by
  unfold State.reqObjCreate
  exact (State.onLive_keeps hx0 (fun _ _ h0 => (by
    extract_lets +onlyGivenNames -merge -lift v1 v2
    exact (keeps_ite (P := Keeps c r) (State.reqDone_keeps h0) (by
      split
      · exact State.reqDone_keeps h0
      · split
        · rename_i v3 eh3
          have h3 := keeps_eq2 eh3 (State.newObj_keeps h0)
          exact State.reqDone_keeps h3
        · rename_i v4 v5 eh5
          have h5 := keeps_eq2 eh5 (State.newObj_keeps h0)
          exact State.setBlock_keeps h5)))))

theorem State.reqObjCreateHost_keeps {x0 x1} (hx0 : Keeps c r x0) : Keeps c r (State.reqObjCreateHost x0 x1) := by
  unfold State.reqObjCreateHost
  exact (State.onLive_keeps hx0 (fun _ _ h0 => (by
    extract_lets +onlyGivenNames -merge -lift v1
    exact (keeps_ite (P := Keeps c r) (State.reqDone_keeps h0) (by
      split
      · rename_i v2 eh2
        have h2 := keeps_eq2 eh2 (State.newObj_keeps h0)
        exact State.reqDone_keeps h2
      · rename_i v3 v4 eh4
        have h4 := keeps_eq2 eh4 (State.newObj_keeps h0)
        exact State.reqDone_keeps h4)))))

theorem State.reqQueueCreate_keeps {x0 x1} (hx0 : Keeps c r x0) : Keeps c r (State.reqQueueCreate x0 x1) := by
  unfold State.reqQueueCreate
  exact (State.onCtx_keeps hx0 (fun _ _ h0 => (by
    extract_lets +onlyGivenNames -merge -lift v1 v2 v3 v4
    exact (keeps_ite (P := Keeps c r) (State.reqDone_keeps h0) (by
      extract_lets +onlyGivenNames -merge -lift v5
      exact keeps_ite (P := Keeps c r) (State.reqDone_keeps h0) (State.reqDone_keeps (State.modCtx_keeps h0)))))))

theorem State.reqQueueDestroy_keeps {x0 x1} (hx0 : Keeps c r x0) : Keeps c r (State.reqQueueDestroy x0 x1) := by
  unfold State.reqQueueDestroy
  exact (State.onQueue_keeps hx0 (fun _ _ h0 =>
    (keeps_ite (P := Keeps c r) (State.reqDone_keeps h0) (by
      extract_lets +onlyGivenNames -merge -lift v1 v2
      have h3 : Keeps c r v2 := State.setQueue_keeps h0
      clear_value v2
      exact State.setBlock_keeps h3))))

theorem State.reqQueueResume_keeps {x0 x1} (hx0 : Keeps c r x0) : Keeps c r (State.reqQueueResume x0 x1) := by
  unfold State.reqQueueResume
  exact (State.onQueue_keeps hx0 (fun _ _ h0 => (by
    extract_lets +onlyGivenNames -merge -lift v1
    exact (keeps_ite (P := Keeps c r) (State.reqDone_keeps h0) (by
      extract_lets +onlyGivenNames -merge -lift v2
      exact State.reqDone_keeps (State.setQueue_keeps h0))))))

theorem State.reqQueueTarget_keeps {x0 x1} (hx0 : Keeps c r x0) : Keeps c r (State.reqQueueTarget x0 x1) := by
  unfold State.reqQueueTarget
  exact (State.onQueue_keeps hx0 (fun _ _ h0 => (by
    extract_lets +onlyGivenNames -merge -lift v1 v2 v3
    exact (keeps_ite (P := Keeps c r) (State.reqDone_keeps h0)
      (keeps_ite (P := Keeps c r) (State.reqDone_keeps h0) (State.reqDone_keeps (State.setQueue_keeps h0)))))))

theorem State.segResolve_keeps {x0 x1 x2} (hx0 : Keeps c r x0) : Keeps c r (State.segResolve x0 x1 x2) := by
  unfold State.segResolve
  extract_lets +onlyGivenNames -merge -lift v0 v1
  have h2 : Keeps c r v0 := keeps_mk hx0 (fun _ => rfl) rfl rfl
  clear_value v0
  have h3 : Keeps c r v1 := (State.portResolve_keeps
    (State.queueResolve_keeps (State.cmdResolve_keeps (State.launchResolve_keeps h2))))
  clear_value v1
  exact State.identResolve_keeps (State.cuRetry_keeps h3)

theorem State.segResolveAll_keeps {x0 x1 x2 x3} (hx0 : Keeps c r x0) :
    Keeps c r (State.segResolveAll x0 x1 x2 x3) := by
  unfold State.segResolveAll
  exact keeps_foldl (P := Keeps c r) (fun _ _ h0 => (State.segResolve_keeps h0)) hx0

theorem State.reqSegMap_keeps {x0 x1} (hx0 : Keeps c r x0) : Keeps c r (State.reqSegMap x0 x1) := by
  unfold State.reqSegMap
  exact (State.onTable_keeps hx0 (fun _ _ h0 => (by
    extract_lets +onlyGivenNames -merge -lift v1 v2 v3 v4 v5 v6 v7 v8
    exact (keeps_ite (P := Keeps c r) (State.reqDone_keeps h0)
      (keeps_ite (P := Keeps c r) (State.reqDone_keeps h0)
        (keeps_ite (P := Keeps c r) (State.reqDone_keeps h0)
          (keeps_ite (P := Keeps c r) (State.reqDone_keeps h0)
            (keeps_ite (P := Keeps c r) (State.reqDone_keeps h0) (by
              extract_lets +onlyGivenNames -merge -lift v9
              have h10 : Keeps c r v9 := State.putSeg_keeps h0
              clear_value v9
              exact keeps_ite (P := Keeps c r) (State.segResolveAll_keeps h10) h10)))))))))

theorem State.reqSegRefuse_keeps {x0 x1} (hx0 : Keeps c r x0) : Keeps c r (State.reqSegRefuse x0 x1) := by
  unfold State.reqSegRefuse
  exact (State.onTable_keeps hx0 (fun _ _ h0 => (by
    extract_lets +onlyGivenNames -merge -lift v1
    exact keeps_ite (P := Keeps c r) (State.segResolveAll_keeps (State.reqDone_keeps h0)) (State.reqDone_keeps h0))))

theorem State.reqSegShare_keeps {x0 x1} (hx0 : Keeps c r x0) : Keeps c r (State.reqSegShare x0 x1) := by
  unfold State.reqSegShare
  exact (State.onLive_keeps hx0 (fun _ _ h0 => (by
    extract_lets +onlyGivenNames -merge -lift v1 v2 v3 v4
    exact (keeps_ite (P := Keeps c r) (State.reqDone_keeps h0)
      (keeps_ite (P := Keeps c r) (State.reqDone_keeps h0) (State.reqDone_keeps (State.setCtx_keeps h0)))))))

theorem State.reqSegUnmap_keeps {x0 x1} (hx0 : Keeps c r x0) : Keeps c r (State.reqSegUnmap x0 x1) := by
  unfold State.reqSegUnmap
  exact (State.onTable_keeps hx0 (fun _ _ h0 => (by
    extract_lets +onlyGivenNames -merge -lift v1 v2
    exact (keeps_ite (P := Keeps c r) (State.reqDone_keeps h0)
      (keeps_ite (P := Keeps c r) (State.reqDone_keeps h0) (by
        extract_lets +onlyGivenNames -merge -lift v3 v4
        have h5 : Keeps c r v3 := State.modCtx_keeps h0
        clear_value v3
        have h6 : Keeps2 c r v4 := State.withdraw_keeps h5
        clear_value v4
        exact State.segResolveAll_keeps (State.setBlock_keeps (keeps_snd h6))))))))

theorem State.reqUndoSet_keeps {x0 x1} (hx0 : Keeps c r x0) : Keeps c r (State.reqUndoSet x0 x1) := by
  unfold State.reqUndoSet
  exact (State.onLive_keeps hx0 (fun _ _ h0 => (by
    extract_lets +onlyGivenNames -merge -lift v1 v2 v3 v4
    have h5 : ∀ y0 y1 y2 y3, Keeps c r y0 → Keeps c r (v4 y0 y1 y2 y3) := (by
      unfold v4
      exact (fun _ _ _ _ h6 => (State.reqDone_keeps (State.modCtx_keeps h6))))
    clear_value v4
    exact (keeps_ite (P := Keeps c r) (keeps_ite (P := Keeps c r) (State.reqDone_keeps h0) (h5 _ _ _ _ h0))
      (keeps_ite (P := Keeps c r) (State.reqDone_keeps h0)
        (keeps_ite (P := Keeps c r) (State.reqDone_keeps h0)
          (keeps_ite (P := Keeps c r) (State.reqDone_keeps h0) (h5 _ _ _ _ h0))))))))

theorem State.request_keeps {x0 x1 x2 x3 x4} (hx0 : Keeps c r x0) (hx4 : ∀ y0, Keeps c r y0 → Keeps c r (x4 y0)) :
    Keeps c r (State.request x0 x1 x2 x3 x4) := by
  unfold State.request
  exact (keeps_ite (P := Keeps c r) hx0 (by
    extract_lets +onlyGivenNames -merge -lift v0
    exact (keeps_ite (P := Keeps c r) (State.setBlock_keeps hx0) (by
      extract_lets +onlyGivenNames -merge -lift v1
      have h2 : Keeps c r v1 := State.setBlock_keeps hx0
      clear_value v1
      exact keeps_ite (P := Keeps c r) h2 (State.reqBegin_keeps h2 hx4)))))

theorem State.runCopy_keeps {x0 x1 x2} (hx1 : Keeps c r x1) : Keeps c r (State.runCopy x0 x1 x2) := by
  induction x0 generalizing x1 x2 with
  | zero =>
    exact hx1
  | succ n ih =>
    unfold State.runCopy
    split
    · exact hx1
    · split
      · exact hx1
      · extract_lets +onlyGivenNames -merge -lift v0 v1 v2 v3 v4 v5 v6
        have h7 : KeepsC c r v1 := (keeps_foldl (P := KeepsC c r) (fun _ _ h8 => (CopyRun.block_keeps h8))
          (keeps_copy hx1))
        clear_value v1
        have h9 : Keeps c r v5 := State.setCmd_keeps (keeps_copy_s h7)
        clear_value v5
        have h10 : Keeps c r v6 := keeps_ite (P := Keeps c r) (State.cmdViol_keeps h9) h9
        clear_value v6
        split <;> [exact (State.finishCmd_keeps h10); exact (State.cmdStall_keeps h10 (fun _ h11 => (ih h11)))]

theorem State.stagingPut_keeps {x0 x1 x2} (hx0 : Keeps c r x0) : Keeps c r (State.stagingPut x0 x1 x2) := by
  unfold State.stagingPut
  extract_lets +onlyGivenNames -merge -lift v0 v1
  exact (keeps_ite (P := Keeps c r) (keeps_mk hx0 (fun _ => rfl) rfl rfl)
    (keeps_ite (P := Keeps c r) hx0
      (keeps_ite (P := Keeps c r) (keeps_mk hx0 (fun _ => rfl) rfl rfl)
        (keeps_ite (P := Keeps c r) (keeps_mk hx0 (fun _ => rfl) rfl rfl)
          (keeps_ite (P := Keeps c r) (keeps_mk hx0 (fun _ => rfl) rfl rfl) hx0)))))

theorem State.stagingWrite_keeps {x0 x1 x2} (hx0 : Keeps c r x0) : Keeps c r (State.stagingWrite x0 x1 x2) := by
  unfold State.stagingWrite
  exact (keeps_ite (P := Keeps c r) (keeps_foldl (P := Keeps c r) (fun _ _ h0 => (State.stagingPut_keeps h0)) hx0)
    hx0)

theorem State.waitDone_keeps {x0 x1} (hx0 : Keeps c r x0) : Keeps c r (State.waitDone x0 x1) := by
  unfold State.waitDone
  split
  · extract_lets +onlyGivenNames -merge -lift v0
    exact (keeps_ite (P := Keeps c r) hx0 (by
      extract_lets +onlyGivenNames -merge -lift v1 v2
      have h3 : Keeps c r v1 := State.waitEnds_keeps hx0
      clear_value v1
      exact keeps_ite (P := Keeps c r) (State.setQueue_keeps h3) h3))
  · exact hx0

theorem State.withdrawn_keeps {x0 x1 x2} (hx0 : Keeps c r x0) : Keeps c r (State.withdrawn x0 x1 x2) := by
  unfold State.withdrawn
  split
  · extract_lets +onlyGivenNames -merge -lift v0
    exact (keeps_ite (P := Keeps c r) hx0 (by
      extract_lets +onlyGivenNames -merge -lift v1 v2
      have h3 : Keeps c r v2 := State.setBlock_keeps hx0
      clear_value v2
      exact keeps_ite (P := Keeps c r) (State.reqDone_keeps h3) h3))
  · exact hx0
  · exact keeps_ite (P := Keeps c r) hx0 (keeps_mk hx0 (fun _ => rfl) rfl rfl)

theorem State.withdrawalDone_keeps {x0 x1} (hx0 : Keeps c r x0) : Keeps c r (State.withdrawalDone x0 x1) := by
  unfold State.withdrawalDone
  split
  · exact hx0
  · exact (keeps_ite (P := Keeps c r) hx0 (by
      extract_lets +onlyGivenNames -merge -lift v0 v1
      have h2 : Keeps c r v1 := keeps_mk hx0 (fun _ => rfl) rfl rfl
      clear_value v1
      exact State.broadcastNext_keeps (keeps_foldl (P := Keeps c r) (fun _ _ h3 => (State.withdrawn_keeps h3)) h2)))

theorem execAbortComplete_keeps {x0 x1} (hx1 : Keeps c r x1) : KeepsX c r (execAbortComplete x0 x1) := by
  unfold execAbortComplete
  exact keeps_next (State.work_keeps hx1 (State.abortStep_keeps hx1))

theorem execBar4Read_keeps {x0 x1 x2 x3} (hx3 : Keeps c r x3) : KeepsX c r (execBar4Read x0 x1 x2 x3) := by
  unfold execBar4Read
  exact (keeps_next (by
    extract_lets +onlyGivenNames -merge -lift v0
    have h1 : ∀ y0 y1, Keeps c r y0 → Keeps c r (v0 y0 y1) := (by
      unfold v0
      exact (fun _ _ h2 =>
        (Keeps.trans h2 ⟨rfl, rfl, id, id, List.prefix_append _ _, fun _ => .inl rfl, Nat.le_refl _,
          Nat.le_refl _, Nat.le_refl _, fun _ g => .inl g⟩)))
    clear_value v0
    exact (keeps_ite (P := Keeps c r) (h1 _ _ hx3) (by
      split
      · exact h1 _ _ hx3
      · extract_lets +onlyGivenNames -merge -lift v3
        have h4 : KeepsB c r v3 := (keeps_foldl (P := KeepsB c r) (fun _ _ h5 => (Bar4Run.read_keeps h5))
          (keeps_bar hx3))
        clear_value v3
        exact h1 _ _ (Bar4Run.finish_keeps h4)))))

theorem execBar4Write_keeps {x0 x1 x2 x3} (hx3 : Keeps c r x3) : KeepsX c r (execBar4Write x0 x1 x2 x3) := by
  unfold execBar4Write
  exact (keeps_next
    (keeps_ite (P := Keeps c r) hx3 (by
      split
      · exact State.stagingWrite_keeps hx3
      · exact (Bar4Run.finish_keeps
          (keeps_foldl (P := KeepsB c r) (fun _ _ h0 => (Bar4Run.write_keeps h0)) (keeps_bar hx3))))))

theorem execBarrier_keeps {x0 x1} (hx1 : Keeps c r x1) : KeepsX c r (execBarrier x0 x1) := by
  unfold execBarrier
  exact keeps_next (State.work_keeps hx1 (State.qRow_keeps hx1 (fun _ _ _ h0 => (State.finishCmd_keeps h0))))

theorem execCallRing_keeps {x0 x1} (hx1 : Keeps c r x1) : KeepsX c r (execCallRing x0 x1) := by
  unfold execCallRing
  exact keeps_next (State.work_keeps hx1 (State.qRow_keeps hx1 (fun _ _ _ h0 => (State.actCall_keeps h0))))

theorem execCopy_keeps {x0 x1} (hx1 : Keeps c r x1) : KeepsX c r (execCopy x0 x1) := by
  unfold execCopy
  exact keeps_next (State.work_keeps hx1 (State.qRow_keeps hx1 (fun _ _ _ h0 => (State.actCopy_keeps h0))))

theorem execCopyComplete_keeps {x0 x1} (hx1 : Keeps c r x1) : KeepsX c r (execCopyComplete x0 x1) := by
  unfold execCopyComplete
  exact (keeps_next
    (State.work_keeps hx1 (by
      split
      · exact hx1
      · extract_lets +onlyGivenNames -merge -lift v0
        exact keeps_ite (P := Keeps c r) hx1 (State.runCopy_keeps hx1))))

theorem execCtxCreate_keeps {x0 x1 x2} (hx2 : Keeps c r x2) : KeepsX c r (execCtxCreate x0 x1 x2) := by
  unfold execCtxCreate
  exact keeps_next (State.work_keeps hx2 (State.request_keeps hx2 (fun _ h0 => (State.reqCtxCreate_keeps h0))))

theorem execCtxDestroy_keeps {x0 x1 x2} (hx2 : Keeps c r x2) : KeepsX c r (execCtxDestroy x0 x1 x2) := by
  unfold execCtxDestroy
  exact keeps_next (State.work_keeps hx2 (State.request_keeps hx2 (fun _ h0 => (State.reqCtxDestroy_keeps h0))))

theorem execCtxQuery_keeps {x0 x1 x2} (hx2 : Keeps c r x2) : KeepsX c r (execCtxQuery x0 x1 x2) := by
  unfold execCtxQuery
  exact keeps_next (State.work_keeps hx2 (State.request_keeps hx2 (fun _ h0 => (State.reqCtxQuery_keeps h0))))

theorem execDoorbell_keeps {x0 x1 x2 x3 x4} (hx4 : Keeps c r x4) : KeepsX c r (execDoorbell x0 x1 x2 x3 x4) := by
  unfold execDoorbell
  exact (keeps_next
    (keeps_ite (P := Keeps c r) hx4
      (keeps_ite (P := Keeps c r) (State.ringIgnored_keeps hx4) (State.doorbellValue_keeps hx4))))

theorem execEntryFree_keeps {x0 x1} (hx1 : Keeps c r x1) : KeepsX c r (execEntryFree x0 x1) := by
  unfold execEntryFree
  exact keeps_next (State.work_keeps hx1 (State.entryFree_keeps hx1))

theorem execFenceCreate_keeps {x0 x1 x2} (hx2 : Keeps c r x2) : KeepsX c r (execFenceCreate x0 x1 x2) := by
  unfold execFenceCreate
  exact keeps_next (State.work_keeps hx2 (State.request_keeps hx2 (fun _ h0 => (State.reqFenceCreate_keeps h0))))

theorem execFenceQuery_keeps {x0 x1 x2} (hx2 : Keeps c r x2) : KeepsX c r (execFenceQuery x0 x1 x2) := by
  unfold execFenceQuery
  exact keeps_next (State.work_keeps hx2 (State.request_keeps hx2 (fun _ h0 => (State.reqFenceQuery_keeps h0))))

theorem execFenceSignalApply_keeps {x0} (hx0 : Keeps c r x0) : KeepsX c r (execFenceSignalApply x0) := by
  unfold execFenceSignalApply
  exact (keeps_next
    (State.work_keeps hx0 (by
      split <;> [exact hx0; exact (State.applySignal_keeps (keeps_mk hx0 (fun _ => rfl) rfl rfl))])))

theorem execFill_keeps {x0 x1} (hx1 : Keeps c r x1) : KeepsX c r (execFill x0 x1) := by
  unfold execFill
  exact keeps_next (State.work_keeps hx1 (State.qRow_keeps hx1 (fun _ _ _ h0 => (State.actCopy_keeps h0))))

theorem execImportEnd_keeps {x0 x1 x2} (hx2 : Keeps c r x2) : KeepsX c r (execImportEnd x0 x1 x2) := by
  unfold execImportEnd
  exact (keeps_next
    (State.work_keeps hx2 (by
      split <;> [exact hx2; exact (keeps_ite (P := Keeps c r) (State.endImport_keeps hx2) hx2)])))

theorem execImportEntry_keeps {x0 x1 x2} (hx2 : Keeps c r x2) : KeepsX c r (execImportEntry x0 x1 x2) := by
  unfold execImportEntry
  exact keeps_next (State.work_keeps hx2 (State.request_keeps hx2 (fun _ h0 => (State.reqImport_keeps h0))))

theorem execInvalAckTimeout_keeps {x0 x1 x2} (hx2 : Keeps c r x2) : KeepsX c r (execInvalAckTimeout x0 x1 x2) := by
  unfold execInvalAckTimeout
  exact (keeps_next
    (State.work_keeps hx2 (by
      split <;> [exact hx2; exact (keeps_ite (P := Keeps c r) (State.ackLate_keeps hx2) hx2)])))

theorem execJump_keeps {x0 x1} (hx1 : Keeps c r x1) : KeepsX c r (execJump x0 x1) := by
  unfold execJump
  exact keeps_next (State.work_keeps hx1 (State.qRow_keeps hx1 (fun _ _ _ h0 => (State.actJump_keeps h0))))

theorem execLaunch_keeps {x0 x1} (hx1 : Keeps c r x1) : KeepsX c r (execLaunch x0 x1) := by
  unfold execLaunch
  exact keeps_next (State.work_keeps hx1 (State.qRow_keeps hx1 (fun _ _ _ h0 => (State.actLaunch_keeps h0))))

theorem execLaunchResident_keeps {x0 x1} (hx1 : Keeps c r x1) : KeepsX c r (execLaunchResident x0 x1) := by
  unfold execLaunchResident
  exact keeps_next (State.work_keeps hx1 (State.qRow_keeps hx1 (fun _ _ _ h0 => (State.actResident_keeps h0))))

theorem execLaunchResidentStop_keeps {x0 x1} (hx1 : Keeps c r x1) : KeepsX c r (execLaunchResidentStop x0 x1) := by
  unfold execLaunchResidentStop
  exact (keeps_next
    (State.work_keeps hx1 (by
      extract_lets +onlyGivenNames -merge -lift v0
      have h1 : Keeps c r v0 := keeps_ite (P := Keeps c r) hx1 (State.startHead_keeps hx1)
      clear_value v0
      exact State.actStop_keeps h1)))

theorem execMissqCtrlWrite_keeps {x0 x1 x2} (hx2 : Keeps c r x2) : KeepsX c r (execMissqCtrlWrite x0 x1 x2) := by
  unfold execMissqCtrlWrite
  exact keeps_next (State.work_keeps hx2 (keeps_ite (P := Keeps c r) (State.setMissq_keeps hx2) hx2))

theorem execMissqHeadWrite_keeps {x0 x1 x2} (hx2 : Keeps c r x2) : KeepsX c r (execMissqHeadWrite x0 x1 x2) := by
  unfold execMissqHeadWrite
  exact (keeps_next
    (State.work_keeps hx2 (by
      extract_lets +onlyGivenNames -merge -lift v0 v1
      exact keeps_ite (P := Keeps c r) (State.setMissq_keeps hx2) hx2)))

theorem execObjCreate_keeps {x0 x1 x2} (hx2 : Keeps c r x2) : KeepsX c r (execObjCreate x0 x1 x2) := by
  unfold execObjCreate
  exact keeps_next (State.work_keeps hx2 (State.request_keeps hx2 (fun _ h0 => (State.reqObjCreate_keeps h0))))

theorem execObjCreateHost_keeps {x0 x1 x2} (hx2 : Keeps c r x2) : KeepsX c r (execObjCreateHost x0 x1 x2) := by
  unfold execObjCreateHost
  exact (keeps_next
    (State.work_keeps hx2 (State.request_keeps hx2 (fun _ h0 => (State.reqObjCreateHost_keeps h0)))))

theorem execObjUnknownOp_keeps {x0 x1 x2 x3} (hx3 : Keeps c r x3) : KeepsX c r (execObjUnknownOp x0 x1 x2 x3) := by
  unfold execObjUnknownOp
  exact (keeps_next
    (State.work_keeps hx3
      (keeps_ite (P := Keeps c r) hx3 (by
        extract_lets +onlyGivenNames -merge -lift v0
        exact (keeps_ite (P := Keeps c r) (State.setBlock_keeps hx3) (by
          extract_lets +onlyGivenNames -merge -lift v1
          have h2 : Keeps c r v1 := State.setBlock_keeps hx3
          clear_value v1
          exact keeps_ite (P := Keeps c r) h2 (State.reqDone_keeps h2)))))))

theorem execObjZeroingComplete_keeps {x0 x1} (hx1 : Keeps c r x1) : KeepsX c r (execObjZeroingComplete x0 x1) := by
  unfold execObjZeroingComplete
  exact (keeps_next
    (State.work_keeps hx1 (by
      extract_lets +onlyGivenNames -merge -lift v0 v1 v2
      exact (keeps_ite (P := Keeps c r) hx1 (by
        extract_lets +onlyGivenNames -merge -lift v3
        have h4 : Keeps c r v3 := (Keeps.trans hx1 ⟨rfl, rfl, fun g => wf_mzero _ _ (g), id, List.prefix_refl _,
          fun _ => .inl rfl, Nat.le_refl _, Nat.le_refl _, Nat.le_refl _, fun _ g => .inl g⟩)
        clear_value v3
        exact State.reqDone_keeps (State.setObj_keeps h4))))))

theorem execPeerSignalRecord_keeps {x0 x1 x2} (hx2 : Keeps c r x2) :
    KeepsX c r (execPeerSignalRecord x0 x1 x2) := by
  unfold execPeerSignalRecord
  exact keeps_next (keeps_ite (P := Keeps c r) (State.peerRecord_keeps hx2) hx2)

theorem execQNop_keeps {x0 x1} (hx1 : Keeps c r x1) : KeepsX c r (execQNop x0 x1) := by
  unfold execQNop
  exact keeps_next (State.work_keeps hx1 (State.qRow_keeps hx1 (fun _ _ _ h0 => (State.finishCmd_keeps h0))))

theorem execQUndefinedOpcode_keeps {x0 x1} (hx1 : Keeps c r x1) : KeepsX c r (execQUndefinedOpcode x0 x1) := by
  unfold execQUndefinedOpcode
  exact keeps_next (State.work_keeps hx1 (State.qRow_keeps hx1 (fun _ _ _ h0 => (State.badCmd_keeps h0))))

theorem execQueueCreate_keeps {x0 x1 x2} (hx2 : Keeps c r x2) : KeepsX c r (execQueueCreate x0 x1 x2) := by
  unfold execQueueCreate
  exact keeps_next (State.work_keeps hx2 (State.request_keeps hx2 (fun _ h0 => (State.reqQueueCreate_keeps h0))))

theorem execQueueDestroy_keeps {x0 x1 x2} (hx2 : Keeps c r x2) : KeepsX c r (execQueueDestroy x0 x1 x2) := by
  unfold execQueueDestroy
  exact keeps_next (State.work_keeps hx2 (State.request_keeps hx2 (fun _ h0 => (State.reqQueueDestroy_keeps h0))))

theorem execQueueDestroyComplete_keeps {x0 x1} (hx1 : Keeps c r x1) :
    KeepsX c r (execQueueDestroyComplete x0 x1) := by
  unfold execQueueDestroyComplete
  exact (keeps_next
    (State.work_keeps hx1 (by
      extract_lets +onlyGivenNames -merge -lift v0 v1
      exact (keeps_ite (P := Keeps c r) hx1 (by
        extract_lets +onlyGivenNames -merge -lift v2 v3
        have h4 : Keeps c r v3 := keeps_ite (P := Keeps c r) (State.modCtx_keeps (State.setQueue_keeps hx1)) hx1
        clear_value v3
        exact State.reqDone_keeps h4)))))

theorem execQueueResume_keeps {x0 x1 x2} (hx2 : Keeps c r x2) : KeepsX c r (execQueueResume x0 x1 x2) := by
  unfold execQueueResume
  exact keeps_next (State.work_keeps hx2 (State.request_keeps hx2 (fun _ h0 => (State.reqQueueResume_keeps h0))))

theorem execQueueTarget_keeps {x0 x1 x2} (hx2 : Keeps c r x2) : KeepsX c r (execQueueTarget x0 x1 x2) := by
  unfold execQueueTarget
  exact keeps_next (State.work_keeps hx2 (State.request_keeps hx2 (fun _ h0 => (State.reqQueueTarget_keeps h0))))

theorem execRelease_keeps {x0 x1} (hx1 : Keeps c r x1) : KeepsX c r (execRelease x0 x1) := by
  unfold execRelease
  exact keeps_next (State.work_keeps hx1 (State.qRow_keeps hx1 (fun _ _ _ h0 => (State.actRelease_keeps h0))))

theorem execRingLineReturn_keeps {x0 x1} (hx1 : Keeps c r x1) : KeepsX c r (execRingLineReturn x0 x1) := by
  unfold execRingLineReturn
  exact keeps_next (State.work_keeps hx1 (State.ringLine_keeps hx1))

theorem execSegFaultRecordPost_keeps {x0 x1} (hx1 : Keeps c r x1) : KeepsX c r (execSegFaultRecordPost x0 x1) := by
  unfold execSegFaultRecordPost
  exact (keeps_next
    (State.work_keeps hx1 (by
      extract_lets +onlyGivenNames -merge -lift v0 v1
      split
      · exact hx1
      · extract_lets +onlyGivenNames -merge -lift v2
        exact (keeps_ite (P := Keeps c r) hx1 (by
          extract_lets +onlyGivenNames -merge -lift v3 v4 v5 v6
          have h7 : Keeps c r v4 := State.hostWrite_keeps hx1
          clear_value v4
          have h8 : Keeps c r v5 := State.setMissq_keeps h7
          clear_value v5
          have h9 : Keeps c r v6 := keeps_mk h8 (fun _ => rfl) rfl rfl
          clear_value v6
          exact keeps_ite (P := Keeps c r) (State.raise_keeps h9) h9)))))

theorem execSegFaultTimeout_keeps {x0 x1 x2} (hx2 : Keeps c r x2) : KeepsX c r (execSegFaultTimeout x0 x1 x2) := by
  unfold execSegFaultTimeout
  exact keeps_next (State.work_keeps hx2 (by split <;> [exact hx2; exact (State.segResolve_keeps hx2)]))

theorem execSegMap_keeps {x0 x1 x2} (hx2 : Keeps c r x2) : KeepsX c r (execSegMap x0 x1 x2) := by
  unfold execSegMap
  exact keeps_next (State.work_keeps hx2 (State.request_keeps hx2 (fun _ h0 => (State.reqSegMap_keeps h0))))

theorem execSegMissFill_keeps {x0 x1 x2 x3} (hx3 : Keeps c r x3) : KeepsX c r (execSegMissFill x0 x1 x2 x3) := by
  unfold execSegMissFill
  exact (keeps_next
    (State.work_keeps hx3 (by
      extract_lets +onlyGivenNames -merge -lift v0 v1 v2 v3
      have h4 : Keeps c r v3 := keeps_mk hx3 (fun _ => rfl) rfl rfl
      clear_value v3
      exact (keeps_ite (P := Keeps c r) h4 (by
        extract_lets +onlyGivenNames -merge -lift v5 v6
        exact keeps_mk h4 (fun _ => rfl) rfl rfl)))))

theorem execSegRefuse_keeps {x0 x1 x2} (hx2 : Keeps c r x2) : KeepsX c r (execSegRefuse x0 x1 x2) := by
  unfold execSegRefuse
  exact keeps_next (State.work_keeps hx2 (State.request_keeps hx2 (fun _ h0 => (State.reqSegRefuse_keeps h0))))

theorem execSegShare_keeps {x0 x1 x2} (hx2 : Keeps c r x2) : KeepsX c r (execSegShare x0 x1 x2) := by
  unfold execSegShare
  exact keeps_next (State.work_keeps hx2 (State.request_keeps hx2 (fun _ h0 => (State.reqSegShare_keeps h0))))

theorem execSegUnmap_keeps {x0 x1 x2} (hx2 : Keeps c r x2) : KeepsX c r (execSegUnmap x0 x1 x2) := by
  unfold execSegUnmap
  exact keeps_next (State.work_keeps hx2 (State.request_keeps hx2 (fun _ h0 => (State.reqSegUnmap_keeps h0))))

theorem execSignal_keeps {x0 x1} (hx1 : Keeps c r x1) : KeepsX c r (execSignal x0 x1) := by
  unfold execSignal
  exact keeps_next (State.work_keeps hx1 (State.qRow_keeps hx1 (fun _ _ _ h0 => (State.finishCmd_keeps h0))))

theorem execSignalRemoteFabric_keeps {x0 x1} (hx1 : Keeps c r x1) : KeepsX c r (execSignalRemoteFabric x0 x1) := by
  unfold execSignalRemoteFabric
  exact (keeps_next
    (State.work_keeps hx1 (State.qRow_keeps hx1 (fun _ _ _ h0 => (State.actRemoteFabric_keeps h0)))))

theorem execSignalRemotePeer_keeps {x0 x1 x2} (hx2 : Keeps c r x2) :
    KeepsX c r (execSignalRemotePeer x0 x1 x2) := by
  unfold execSignalRemotePeer
  exact keeps_next (State.work_keeps hx2 (State.qRow_keeps hx2 (fun _ _ _ h0 => (State.actRemotePeer_keeps h0))))

theorem execSignalRemoteWrite_keeps {x0 x1} (hx1 : Keeps c r x1) : KeepsX c r (execSignalRemoteWrite x0 x1) := by
  unfold execSignalRemoteWrite
  exact (keeps_next
    (State.work_keeps hx1
      (State.qRow_keeps hx1 (fun _ _ _ h0 => (State.cmdWrite_keeps h0 (fun _ h1 => (State.finishCmd_keeps h1)))))))

theorem execTailReread_keeps {x0 x1} (hx1 : Keeps c r x1) : KeepsX c r (execTailReread x0 x1) := by
  unfold execTailReread
  exact keeps_next (State.work_keeps hx1 (State.tailReread_keeps hx1))

theorem execTimestamp_keeps {x0 x1} (hx1 : Keeps c r x1) : KeepsX c r (execTimestamp x0 x1) := by
  unfold execTimestamp
  exact (keeps_next
    (State.work_keeps hx1
      (State.qRow_keeps hx1 (fun _ _ _ h0 => (State.cmdWrite_keeps h0 (fun _ h1 => (State.finishCmd_keeps h1)))))))

theorem execUndoSet_keeps {x0 x1 x2} (hx2 : Keeps c r x2) : KeepsX c r (execUndoSet x0 x1 x2) := by
  unfold execUndoSet
  exact keeps_next (State.work_keeps hx2 (State.request_keeps hx2 (fun _ h0 => (State.reqUndoSet_keeps h0))))

theorem execWaitComplete_keeps {x0 x1} (hx1 : Keeps c r x1) : KeepsX c r (execWaitComplete x0 x1) := by
  unfold execWaitComplete
  exact keeps_next (State.work_keeps hx1 (State.waitDone_keeps hx1))

theorem execWaitFence_keeps {x0 x1} (hx1 : Keeps c r x1) : KeepsX c r (execWaitFence x0 x1) := by
  unfold execWaitFence
  exact keeps_next (State.work_keeps hx1 (State.qRow_keeps hx1 (fun _ _ _ h0 => (State.actWait_keeps h0))))

theorem execWaitGraphWalk_keeps {x0 x1} (hx1 : Keeps c r x1) : KeepsX c r (execWaitGraphWalk x0 x1) := by
  unfold execWaitGraphWalk
  exact (keeps_next
    (State.work_keeps hx1 (by
      split
      · exact hx1
      · extract_lets +onlyGivenNames -merge -lift v0 v1
        have h2 : Keeps c r v1 := keeps_mk hx1 (fun _ => rfl) rfl rfl
        clear_value v1
        split
        · exact h2
        · exact (keeps_ite (P := Keeps c r) h2 (by
            extract_lets +onlyGivenNames -merge -lift v3 v4
            have h5 : Keeps c r v4 := keeps_mk h2 (fun _ => rfl) rfl rfl
            clear_value v4
            exact keeps_foldl (P := Keeps c r) (fun _ _ h6 => (State.sendSignal_keeps h6)) h5)))))

theorem execWithdrawalAck_keeps {x0 x1 x2} (hx2 : Keeps c r x2) : KeepsX c r (execWithdrawalAck x0 x1 x2) := by
  unfold execWithdrawalAck
  exact (keeps_next
    (State.work_keeps hx2 (by
      extract_lets +onlyGivenNames -merge -lift v0
      exact keeps_ite (P := Keeps c r) (State.cacheAck_keeps hx2) hx2)))

theorem execWithdrawalComplete_keeps {x0 x1} (hx1 : Keeps c r x1) : KeepsX c r (execWithdrawalComplete x0 x1) := by
  unfold execWithdrawalComplete
  exact keeps_next (State.work_keeps hx1 (State.withdrawalDone_keeps hx1))

end Sys2Proof.Machine
end

