-- ==== Sys2Proof/Laws/KeepsSched.lean ====
section
/-! SUPPORT. What pooled scheduling and static schedules keep. -/

namespace Sys2Proof.Machine

variable {c : Bool} {r : State}

theorem State.requestVid_keeps {x0 x1 x2} (hx0 : Keeps c r x0) :
    Keeps c r (State.requestVid x0 x1 x2) :=
  keeps_send (State.setDomain_keeps hx0) _

theorem State.pointBegin_keeps {x0 x1 x2} (hx0 : Keeps c r x0) : Keeps c r (State.pointBegin x0 x1 x2) := by
  unfold State.pointBegin
  extract_lets +onlyGivenNames -merge -lift v0
  exact (keeps_ite (P := Keeps c r) hx0 (by
    extract_lets +onlyGivenNames -merge -lift v1 v2
    have h3 : Keeps c r v2 := State.setDomain_keeps hx0
    clear_value v2
    exact keeps_ite (P := Keeps c r) h3 (State.requestVid_keeps h3)))

theorem State.setPoint_keeps {x0 x1 x2} (hx0 : Keeps c r x0) : Keeps c r (State.setPoint x0 x1 x2) := by
  unfold State.setPoint
  extract_lets +onlyGivenNames -merge -lift v0
  exact (keeps_ite (P := Keeps c r) (State.setDomain_keeps hx0)
    (keeps_ite (P := Keeps c r) hx0 (State.pointBegin_keeps hx0)))

theorem State.pinAll_keeps {x0 x1 x2} (hx0 : Keeps c r x0) : Keeps c r (State.pinAll x0 x1 x2) := by
  unfold State.pinAll
  exact (keeps_foldl (P := Keeps c r) (fun _ _ h0 => (by
    extract_lets +onlyGivenNames -merge -lift v1
    have h2 : Keeps c r v1 := State.modEngine_keeps h0
    clear_value v1
    exact keeps_ite (P := Keeps c r) h2 (State.setPoint_keeps h2))) hx0)

theorem State.schedSend_keeps {x0 x1 x2} (hx0 : Keeps c r x0) : Keeps c r (State.schedSend x0 x1 x2) := by
  unfold State.schedSend
  exact State.sourceRoute_keeps (keeps_ite (P := Keeps c r) hx0 (State.chargeFabric_keeps hx0))

theorem State.castVote_keeps {x0 x1 x2} (hx0 : Keeps c r x0) : Keeps c r (State.castVote x0 x1 x2) := by
  unfold State.castVote
  extract_lets +onlyGivenNames -merge -lift v0 v1 v2
  exact (keeps_ite (P := Keeps c r) (State.setSched_keeps hx0)
    (keeps_foldl (P := Keeps c r) (fun _ _ h3 => (State.schedSend_keeps h3)) hx0))

theorem State.voteIfPinned_keeps {x0 x1} (hx0 : Keeps c r x0) : Keeps c r (State.voteIfPinned x0 x1) := by
  unfold State.voteIfPinned
  extract_lets +onlyGivenNames -merge -lift v0
  exact keeps_ite (P := Keeps c r) (State.castVote_keeps (State.setSched_keeps hx0)) hx0

theorem State.arm_keeps {x0 x1} (hx0 : Keeps c r x0) : Keeps c r (State.arm x0 x1) := by
  unfold State.arm
  extract_lets +onlyGivenNames -merge -lift v0 v1
  have h2 : Keeps c r v1 := State.setSched_keeps hx0
  clear_value v1
  exact State.voteIfPinned_keeps (State.pinAll_keeps h2)

theorem State.badStep_keeps {x0 x1 x2 x3} (hx0 : Keeps c r x0) : Keeps c r (State.badStep x0 x1 x2 x3) := by
  unfold State.badStep
  exact State.stepEnds_keeps (State.fault_keeps hx0)

theorem State.bindAlt_keeps {x0 x1 x2} (hx0 : Keeps c r x0) : Keeps c r (State.bindAlt x0 x1 x2) := by
  unfold State.bindAlt
  extract_lets +onlyGivenNames -merge -lift v0 v1
  have h2 : Keeps c r v0 := State.schedRelease_keeps hx0
  clear_value v0
  split
  · exact State.setSched_keeps h2
  · extract_lets +onlyGivenNames -merge -lift v3 v4 v5 v6 v7
    have h8 : Keeps c r v6 := State.setSched_keeps h2
    clear_value v6
    have h9 : Keeps c r v7 := keeps_foldl (P := Keeps c r) (fun _ _ h10 => (State.setFp_keeps h10)) h8
    clear_value v7
    exact keeps_foldl (P := Keeps c r) (fun _ _ h11 => (State.setCu_keeps h11)) h9

theorem State.dropAllots_keeps {x0 x1} (hx0 : Keeps c r x0) : Keeps c r (State.dropAllots x0 x1) := by
  unfold State.dropAllots
  extract_lets +onlyGivenNames -merge -lift v0 v1
  exact keeps_mk hx0 (fun _ => rfl) rfl rfl

theorem State.schedSuspend_keeps {x0 x1} (hx0 : Keeps c r x0) : Keeps c r (State.schedSuspend x0 x1) := by
  unfold State.schedSuspend
  extract_lets +onlyGivenNames -merge -lift v0
  have h1 : Keeps c r v0 := State.dropAllots_keeps (State.schedStop_keeps hx0)
  clear_value v0
  exact State.setSched_keeps h1

theorem State.commitBoundary_keeps {x0 x1 x2} (hx0 : Keeps c r x0) : Keeps c r (State.commitBoundary x0 x1 x2) := by
  unfold State.commitBoundary
  extract_lets +onlyGivenNames -merge -lift v0 v1
  have h2 : Keeps c r v1 := State.setSched_keeps hx0
  clear_value v1
  exact keeps_ite (P := Keeps c r) (State.schedSuspend_keeps h2) h2

theorem State.jobCharge_keeps {x0 x1 x2 x3 x4} (hx0 : Keeps c r x0) :
    Keeps c r (State.jobCharge x0 x1 x2 x3 x4) := by
  unfold State.jobCharge
  exact keeps_ite (P := Keeps c r) hx0 (State.chargeBytes_keeps hx0)

theorem State.jobViol_keeps {x0 x1 x2} (hx0 : Keeps c r x0) : Keeps c r (State.jobViol x0 x1 x2) := by
  unfold State.jobViol
  exact keeps_ite (P := Keeps c r) hx0 (State.fault_keeps hx0)

theorem State.schedTrigger_keeps {x0 x1} (hx0 : Keeps c r x0) : Keeps c r (State.schedTrigger x0 x1) := by
  unfold State.schedTrigger
  exact State.setSched_keeps hx0

theorem State.copyStep_keeps {x0 x1 x2 x3} (hx0 : Keeps c r x0) : Keeps c r (State.copyStep x0 x1 x2 x3) := by
  unfold State.copyStep
  extract_lets +onlyGivenNames -merge -lift v0 v1 v2
  have h3 : Keeps c r v2 := State.jobViol_keeps (State.jobCharge_keeps hx0)
  clear_value v2
  exact (keeps_ite (P := Keeps c r) (State.schedTrigger_keeps h3)
    (keeps_ite (P := Keeps c r) (State.stepEnds_keeps h3) (by
      split
      · exact State.badStep_keeps h3
      · extract_lets +onlyGivenNames -merge -lift v4 v5 v6 v7
        have h8 : KeepsC c r v5 := (keeps_foldl (P := KeepsC c r) (fun _ _ h9 => (CopyRun.block_keeps h9))
          (keeps_copy h3))
        clear_value v5
        have h10 : Keeps c r v6 := (keeps_ite (P := Keeps c r) (State.modCtx_keeps (keeps_copy_s h8))
          (keeps_copy_s h8))
        clear_value v6
        have h11 : Keeps c r v7 := State.jobViol_keeps h10
        clear_value v7
        exact keeps_ite (P := Keeps c r) (State.schedTrigger_keeps h11) (State.stepEnds_keeps h11))))

theorem State.credit_keeps {x0 x1} (hx0 : Keeps c r x0) : Keeps c r (State.credit x0 x1) := by
  unfold State.credit
  extract_lets +onlyGivenNames -merge -lift v0 v1
  split <;> [exact hx0; exact (by extract_lets +onlyGivenNames -merge -lift v2 v3; exact (State.modCtx_keeps hx0))]

theorem State.discardSteps_keeps {x0 x1} (hx0 : Keeps c r x0) : Keeps c r (State.discardSteps x0 x1) := by
  unfold State.discardSteps
  extract_lets +onlyGivenNames -merge -lift v0 v1 v2 v3 v4 v5 v6
  have h7 : Keeps c r v2 := State.setSched_keeps hx0
  clear_value v2
  have h8 : Keeps c r v4 := keeps_foldl (P := Keeps c r) (fun _ _ h9 => (State.endLaunch_keeps h9)) h7
  clear_value v4
  have h10 : Keeps c r v6 := keeps_foldl (P := Keeps c r) (fun _ _ h11 => (State.feQuiesce_keeps h11)) h8
  clear_value v6
  exact keeps_mk h10 (fun _ => rfl) rfl rfl

theorem State.look_keeps {x0 x1} (hx0 : Keeps c r x0) : Keeps c r (State.look x0 x1) := by
  unfold State.look
  exact (keeps_foldl (P := Keeps c r) (fun _ _ h0 => (by
    extract_lets +onlyGivenNames -merge -lift v1 v2
    exact (keeps_ite (P := Keeps c r) (State.modCtx_keeps h0)
      (keeps_ite (P := Keeps c r) (State.modCtx_keeps (State.credit_keeps h0)) h0)))) (State.chargeAll_keeps hx0))

theorem State.noteWaiting_keeps {x0 x1} (hx0 : Keeps c r x0) : Keeps c r (State.noteWaiting x0 x1) := by
  unfold State.noteWaiting
  exact (keeps_foldl (P := Keeps c r) (fun _ _ h0 => (by
    extract_lets +onlyGivenNames -merge -lift v1 v2
    exact State.modCtx_keeps h0)) hx0)

theorem State.feDispatch_keeps {x0 x1 x2 x3 x4 x5 x6} (hx0 : Keeps c r x0) :
    Keeps c r (State.feDispatch x0 x1 x2 x3 x4 x5 x6) := by
  unfold State.feDispatch
  extract_lets +onlyGivenNames -merge -lift v0
  split
  · rename_i v1 v2 eh2
    have h2 := keeps_eq2 eh2 (State.cppTag_keeps hx0)
    extract_lets +onlyGivenNames -merge -lift v3 v4 v5
    have h6 : Keeps c r v4 := State.setFe_keeps h2
    clear_value v4
    exact State.cppSend_keeps h6

theorem State.foreignOne_keeps {x0 x1 t} (hx0 : Keeps c r x0) (h : State.foreignOne x0 x1 = some t) :
    Keeps c r t := by
  unfold State.foreignOne at h
  obtain ⟨m, -, h⟩ := List.exists_of_findSome?_eq_some h
  dsimp only at h
  split at h
  · split at h
    · cases h
    · cases h
      exact State.feDispatch_keeps (State.setCmd_keeps hx0)
  · cases h

theorem State.place_keeps {x0 x1 x2} (hx0 : Keeps c r x0) : Keeps c r (State.place x0 x1 x2) := by
  unfold State.place
  split
  · split
    · exact hx0
    · extract_lets +onlyGivenNames -merge -lift v0
      have h1 : Keeps c r v0 := (by unfold v0; split <;> [exact (State.modEngine_keeps hx0); exact hx0])
      clear_value v0
      split
      · rename_i v2 v3 eh3
        have h3 := keeps_eq2 eh3 (State.fresh_keeps h1)
        extract_lets +onlyGivenNames -merge -lift v4 v5 v6 v7
        have h8 : Keeps c r v4 := State.modEngine_keeps h3
        clear_value v4
        have h9 : Keeps c r v6 := State.modLaunch_keeps h8
        clear_value v6
        have h10 : Keeps c r v7 := State.modCtx_keeps h9
        clear_value v7
        exact State.startReady_keeps h10
  · exact hx0

theorem State.provide_keeps {x0 x1 x2 x3} (hx0 : Keeps c r x0) : Keeps c r (State.provide x0 x1 x2 x3) := by
  unfold State.provide
  extract_lets +onlyGivenNames -merge -lift v0
  have h1 : ∀ y0 y1 y2 y3, Keeps c r y0 → Keeps c r (v0 y0 y1 y2 y3) := (by
    unfold v0
    exact (fun _ _ _ _ h2 => (by extract_lets +onlyGivenNames -merge -lift v3; exact (State.modEngine_keeps h2))))
  clear_value v0
  split
  · exact hx0
  · exact h1 _ _ _ _ hx0
  · extract_lets +onlyGivenNames -merge -lift v4 v5
    have h6 : Keeps c r v4 := keeps_ite (P := Keeps c r) hx0 (by split <;> [exact hx0; exact (h1 _ _ _ _ hx0)])
    clear_value v4
    have h7 : Keeps c r v5 := State.modCtx_keeps h6
    clear_value v5
    exact keeps_foldl (P := Keeps c r) (fun _ _ h8 => (State.modLaunch_keeps h8)) h7

theorem State.resumeOn_keeps {x0 x1 x2 x3} (hx0 : Keeps c r x0) : Keeps c r (State.resumeOn x0 x1 x2 x3) := by
  unfold State.resumeOn
  split <;> [exact hx0; exact (State.place_keeps (State.provide_keeps hx0))]

theorem State.startWg_keeps {x0 x1 x2 x3 x4} (hx0 : Keeps c r x0) : Keeps c r (State.startWg x0 x1 x2 x3 x4) := by
  unfold State.startWg
  split
  · exact hx0
  · split
    · split
      · rename_i v0 v1 eh1
        have h1 := keeps_eq2 eh1 (State.fresh_keeps (State.setCmd_keeps hx0))
        extract_lets +onlyGivenNames -merge -lift v2
        exact State.place_keeps (State.provide_keeps (State.setLaunch_keeps h1))

theorem State.rounds_keeps {x0 x1 x2 x3} (hx1 : Keeps c r x1) :
    Keeps c r (State.rounds x0 x1 x2 x3) := by
  induction x0 generalizing x1 x2 x3 with
  | zero => exact hx1
  | succ n ih =>
    unfold State.rounds
    dsimp only
    split
    · exact hx1
    · split
      · exact ih (State.foreignOne_keeps hx1 ‹_›)
      · split
        · exact ih hx1
        · split
          · exact ih hx1
          · exact ih (State.resumeOn_keeps hx1)
        · split
          · exact ih hx1
          · split
            · exact ih hx1
            · exact ih (State.startWg_keeps hx1)

theorem State.dispatch_keeps {x0 x1} (hx0 : Keeps c r x0) : Keeps c r (State.dispatch x0 x1) := by
  unfold State.dispatch
  exact keeps_ite (P := Keeps c r) hx0 (State.noteWaiting_keeps (State.rounds_keeps (State.look_keeps hx0)))

theorem State.expel_keeps {x0 x1 x2} (hx0 : Keeps c r x0) : Keeps c r (State.expel x0 x1 x2) := by
  unfold State.expel
  extract_lets +onlyGivenNames -merge -lift v0
  exact keeps_ite (P := Keeps c r) hx0 (State.setSched_keeps hx0)

theorem State.giveAllot_keeps {x0 x1 x2} (hx0 : Keeps c r x0) : Keeps c r (State.giveAllot x0 x1 x2) := by
  unfold State.giveAllot
  extract_lets +onlyGivenNames -merge -lift v0
  exact keeps_ite (P := Keeps c r) hx0 (by split <;> [exact hx0; exact (State.provide_keeps hx0)])

theorem State.startStep_keeps {x0 x1 x2 x3 x4} (hx0 : Keeps c r x0) :
    Keeps c r (State.startStep x0 x1 x2 x3 x4) := by
  unfold State.startStep
  extract_lets +onlyGivenNames -merge -lift v0 v1
  split
  · rename_i v2 v3 eh3
    have h3 := keeps_eq2 eh3 (State.fresh_keeps hx0)
    extract_lets +onlyGivenNames -merge -lift v4 v5
    exact (keeps_ite (P := Keeps c r) h3
      (State.modLaunch_keeps (State.place_keeps (State.giveAllot_keeps (State.setLaunch_keeps h3)))))

theorem State.launchStep_keeps {x0 x1 x2 x3} (hx0 : Keeps c r x0) : Keeps c r (State.launchStep x0 x1 x2 x3) := by
  unfold State.launchStep
  extract_lets +onlyGivenNames -merge -lift v0 v1 v2 v3 v4 v5 v6
  have h7 : Keeps c r v4 := State.jobViol_keeps (State.jobCharge_keeps hx0)
  clear_value v4
  exact (keeps_ite (P := Keeps c r) (State.schedTrigger_keeps h7)
    (keeps_ite (P := Keeps c r) (State.stepEnds_keeps h7)
      (keeps_ite (P := Keeps c r) (State.badStep_keeps h7) (by
        extract_lets +onlyGivenNames -merge -lift v8 v9 v10
        have h11 : Keeps c r v9 := State.jobViol_keeps (State.jobCharge_keeps h7)
        clear_value v9
        exact (keeps_ite (P := Keeps c r) (State.schedTrigger_keeps h11)
          (keeps_ite (P := Keeps c r) (State.stepEnds_keeps h11)
            (keeps_ite (P := Keeps c r) (State.stepEnds_keeps h11)
              (keeps_ite (P := Keeps c r) (State.badStep_keeps h11)
                (keeps_ite (P := Keeps c r)
                  (keeps_ite (P := Keeps c r) (State.badStep_keeps h11) (State.startStep_keeps h11)) (by
                  extract_lets +onlyGivenNames -merge -lift v12
                  exact (keeps_ite (P := Keeps c r) (State.badStep_keeps h11)
                    (keeps_ite (P := Keeps c r) (State.schedTrigger_keeps h11) (State.feDispatch_keeps h11)))))))))))))

theorem State.sendCommit_keeps {x0 x1 x2 x3 x4 x5} (hx0 : Keeps c r x0) :
    Keeps c r (State.sendCommit x0 x1 x2 x3 x4 x5) := by
  unfold State.sendCommit
  exact (keeps_foldl (P := Keeps c r) (fun _ _ h0 => (by
    extract_lets +onlyGivenNames -merge -lift v1
    exact State.schedSend_keeps h0)) hx0)

theorem State.leaderCheck_keeps {x0 x1} (hx0 : Keeps c r x0) : Keeps c r (State.leaderCheck x0 x1) := by
  unfold State.leaderCheck
  extract_lets +onlyGivenNames -merge -lift v0
  split
  · exact hx0
  · extract_lets +onlyGivenNames -merge -lift v1 v2
    exact (keeps_ite (P := Keeps c r) hx0 (by
      extract_lets +onlyGivenNames -merge -lift v3 v4 v5
      exact (keeps_ite (P := Keeps c r) (State.expel_keeps hx0)
        (keeps_ite (P := Keeps c r) (State.schedTrigger_keeps hx0)
          (State.commitBoundary_keeps (State.sendCommit_keeps hx0))))))

theorem State.releaseSlots_keeps {x0 x1} (hx0 : Keeps c r x0) : Keeps c r (State.releaseSlots x0 x1) := by
  unfold State.releaseSlots
  extract_lets +onlyGivenNames -merge -lift v0 v1 v2 v3 v4
  have h5 : Keeps c r v4 := State.setCtx_keeps hx0
  clear_value v4
  exact State.schedCount_keeps h5

theorem State.outStep_keeps {x0 x1} (hx0 : Keeps c r x0) : Keeps c r (State.outStep x0 x1) := by
  unfold State.outStep
  extract_lets +onlyGivenNames -merge -lift v0
  exact keeps_ite (P := Keeps c r) (State.releaseSlots_keeps hx0) hx0

theorem State.planRestart_keeps {x0 x1} (hx0 : Keeps c r x0) : Keeps c r (State.planRestart x0 x1) := by
  unfold State.planRestart
  extract_lets +onlyGivenNames -merge -lift v0 v1
  split
  · extract_lets +onlyGivenNames -merge -lift v2
    have h3 : Keeps c r v2 := State.setSched_keeps hx0
    clear_value v2
    exact keeps_ite (P := Keeps c r) h3 (State.rmRecord_keeps h3)
  · exact State.setSched_keeps hx0

theorem State.pointDone_keeps {x0 x1} (hx0 : Keeps c r x0) : Keeps c r (State.pointDone x0 x1) := by
  unfold State.pointDone
  extract_lets +onlyGivenNames -merge -lift v0 v1
  have h2 : Keeps c r v1 := State.setDomain_keeps hx0
  clear_value v1
  split <;> [exact h2; exact (State.pointBegin_keeps h2)]

theorem State.preemptLaunch_keeps {x0 x1} (hx0 : Keeps c r x0) : Keeps c r (State.preemptLaunch x0 x1) := by
  unfold State.preemptLaunch
  split
  · exact hx0
  · split
    · exact keeps_ite (P := Keeps c r) (State.preempted_keeps hx0) (State.setLaunch_keeps hx0)
    · exact hx0

theorem State.scrubNow_keeps {x0 x1 x2 x3} (hx0 : Keeps c r x0) : Keeps c r (State.scrubNow x0 x1 x2 x3) := by
  unfold State.scrubNow
  extract_lets +onlyGivenNames -merge -lift v0
  exact State.modEngine_keeps hx0

theorem State.putAllot_keeps {x0 x1 x2 x3} (hx0 : Keeps c r x0) : Keeps c r (State.putAllot x0 x1 x2 x3) := by
  unfold State.putAllot
  extract_lets +onlyGivenNames -merge -lift v0
  have h1 : Keeps c r v0 := State.giveAllot_keeps hx0
  clear_value v0
  split
  · exact h1
  · extract_lets +onlyGivenNames -merge -lift v2
    exact State.modEngine_keeps (State.scrubNow_keeps h1)

theorem State.relocked_keeps {x0 x1} (hx0 : Keeps c r x0) : Keeps c r (State.relocked x0 x1) := by
  unfold State.relocked
  extract_lets +onlyGivenNames -merge -lift v0
  exact (keeps_ite (P := Keeps c r) hx0 (by
    extract_lets +onlyGivenNames -merge -lift v1 v2
    have h3 : Keeps c r v2 := State.modEngine_keeps hx0
    clear_value v2
    exact (keeps_ite (P := Keeps c r) (State.pointDone_keeps h3)
      (State.requestVid_keeps (State.setDomain_keeps h3)))))

theorem State.reqCtxAccount_keeps {x0 x1} (hx0 : Keeps c r x0) : Keeps c r (State.reqCtxAccount x0 x1) := by
  unfold State.reqCtxAccount
  exact (State.onCtx_keeps hx0 (fun _ _ h0 => (by
    extract_lets +onlyGivenNames -merge -lift v1
    exact keeps_ite (P := Keeps c r) (State.reqDone_keeps h0) (State.reqDone_keeps h0))))

theorem State.reqCtxShare_keeps {x0 x1} (hx0 : Keeps c r x0) : Keeps c r (State.reqCtxShare x0 x1) := by
  unfold State.reqCtxShare
  exact (State.onLive_keeps hx0 (fun _ _ h0 => (by
    extract_lets +onlyGivenNames -merge -lift v1
    exact keeps_ite (P := Keeps c r) (State.reqDone_keeps h0) (State.reqDone_keeps (State.modCtx_keeps h0)))))

theorem State.reqSaveSet_keeps {x0 x1} (hx0 : Keeps c r x0) :
    Keeps c r (State.reqSaveSet x0 x1) := by
  unfold State.reqSaveSet
  refine State.onLive_keeps hx0 fun s k h => ?_
  extract_lets +onlyGivenNames x h' o n busy
  dsimp only
  repeat' split
  all_goals first | exact State.reqDone_keeps h | exact State.reqDone_keeps (State.setCtx_keeps h)

theorem State.restoreAllots_keeps {x0 x1} (hx0 : Keeps c r x0) : Keeps c r (State.restoreAllots x0 x1) := by
  unfold State.restoreAllots
  extract_lets +onlyGivenNames -merge -lift v0 v1
  exact keeps_foldl (P := Keeps c r) (fun _ _ h2 => (State.putAllot_keeps h2)) hx0

theorem State.restoreLog_keeps {x0 x1} (hx0 : Keeps c r x0) : Keeps c r (State.restoreLog x0 x1) := by
  have hw : ∀ m : Mem, Memory.wf m = true →
      Memory.wf (x1.cells.foldl (fun m c => mwrite m c.1 c.2) (mzero m x1.base 65536)) = true := fun m h =>
    keeps_foldl (P := fun m => Memory.wf m = true) (fun _ _ h => wf_mwrite _ _ h) (wf_mzero _ _ h)
  unfold State.restoreLog
  extract_lets put
  split
  · exact hx0.trans ⟨rfl, rfl, id, hw _, List.prefix_refl _, fun _ => .inl rfl, Nat.le_refl _, Nat.le_refl _, Nat.le_refl _,
      fun _ g => .inl g⟩
  · exact hx0.trans ⟨rfl, rfl, hw _, id, List.prefix_refl _, fun _ => .inl rfl, Nat.le_refl _, Nat.le_refl _, Nat.le_refl _,
      fun _ g => .inl g⟩

theorem State.resumePart_keeps {x0 x1 x2} (hx0 : Keeps c r x0) : Keeps c r (State.resumePart x0 x1 x2) := by
  unfold State.resumePart
  extract_lets +onlyGivenNames -merge -lift v0
  exact (keeps_ite (P := Keeps c r) (by
    extract_lets +onlyGivenNames -merge -lift v1
    have h2 : Keeps c r v1 := State.schedStop_keeps hx0
    clear_value v1
    exact State.setSched_keeps h2) (by
    extract_lets +onlyGivenNames -merge -lift v3 v4 v5 v6
    have h7 : Keeps c r v4 := keeps_ite (P := Keeps c r) hx0 (State.bindAlt_keeps hx0)
    clear_value v4
    have h8 : Keeps c r v6 := State.setSched_keeps h7
    clear_value v6
    exact State.pinAll_keeps (State.restoreAllots_keeps h8)))

theorem State.runAdmit_keeps {x0 x1} (hx0 : Keeps c r x0) : Keeps c r (State.runAdmit x0 x1) := by
  unfold State.runAdmit
  extract_lets +onlyGivenNames -merge -lift v0
  exact (keeps_ite (P := Keeps c r) (State.sxDone_keeps hx0) (by
    extract_lets +onlyGivenNames -merge -lift v1
    exact (keeps_ite (P := Keeps c r) (State.sxDone_keeps hx0) (by
      extract_lets +onlyGivenNames -merge -lift v2 v3 v4 v5 v6 v7 v8
      have h9 : Keeps c r v6 := State.setSched_keeps hx0
      clear_value v6
      have h10 : Keeps c r v7 := State.bindAlt_keeps h9
      clear_value v7
      exact State.sxDone_keeps (keeps_foldl (P := Keeps c r) (fun _ _ h11 => (State.giveAllot_keeps h11)) h10)))))

theorem State.runAdmits_keeps {x0} (hx0 : Keeps c r x0) : Keeps c r (State.runAdmits x0) := by
  unfold State.runAdmits
  exact (keeps_ite (P := Keeps c r) hx0
    (keeps_foldl (P := Keeps c r) (fun _ _ h0 => (State.runAdmit_keeps h0)) hx0))

theorem State.runResume_keeps {x0 x1} (hx0 : Keeps c r x0) : Keeps c r (State.runResume x0 x1) := by
  unfold State.runResume
  extract_lets +onlyGivenNames -merge -lift v0
  exact (keeps_ite (P := Keeps c r) (State.sxDone_keeps hx0) (by
    extract_lets +onlyGivenNames -merge -lift v1
    exact (keeps_ite (P := Keeps c r) (State.sxDone_keeps hx0) (by
      extract_lets +onlyGivenNames -merge -lift v2
      exact keeps_ite (P := Keeps c r) (State.sxDone_keeps hx0) (State.arm_keeps (State.bindAlt_keeps hx0))))))

theorem State.signalEnd_keeps {x0 x1 x2} (hx0 : Keeps c r x0) : Keeps c r (State.signalEnd x0 x1 x2) := by
  unfold State.signalEnd
  split <;> [exact hx0; exact (State.sendSignal_keeps hx0)]

theorem State.runStart_keeps {x0 x1} (hx0 : Keeps c r x0) : Keeps c r (State.runStart x0 x1) := by
  unfold State.runStart
  extract_lets +onlyGivenNames -merge -lift v0
  exact (keeps_ite (P := Keeps c r) (State.sxDone_keeps hx0)
    (keeps_ite (P := Keeps c r) (State.sxDone_keeps (State.setSched_keeps (State.signalEnd_keeps hx0))) (by
      extract_lets +onlyGivenNames -merge -lift v1
      exact keeps_ite (P := Keeps c r) (State.sxDone_keeps hx0) (State.arm_keeps hx0))))

theorem State.runSuspend_keeps {x0 x1} (hx0 : Keeps c r x0) : Keeps c r (State.runSuspend x0 x1) := by
  unfold State.runSuspend
  extract_lets +onlyGivenNames -merge -lift v0
  exact keeps_ite (P := Keeps c r) (State.sxDone_keeps hx0) (State.sxDone_keeps (State.setSched_keeps hx0))

theorem State.runUnload_keeps {x0 x1} (hx0 : Keeps c r x0) : Keeps c r (State.runUnload x0 x1) := by
  unfold State.runUnload
  extract_lets +onlyGivenNames -merge -lift v0
  exact (keeps_ite (P := Keeps c r) (State.sxDone_keeps hx0) (by
    extract_lets +onlyGivenNames -merge -lift v1
    have h2 : Keeps c r v1 := State.dropAllots_keeps (State.schedRelease_keeps hx0)
    clear_value v1
    exact State.sxDone_keeps (State.setSched_keeps h2)))

theorem State.runSx_keeps {x0 x1} (hx0 : Keeps c r x0) : Keeps c r (State.runSx x0 x1) := by
  unfold State.runSx
  extract_lets +onlyGivenNames -merge -lift v0
  exact (keeps_ite (P := Keeps c r) (State.runAdmit_keeps hx0)
    (keeps_ite (P := Keeps c r) (State.runStart_keeps hx0)
      (keeps_ite (P := Keeps c r) (State.runSuspend_keeps hx0)
        (keeps_ite (P := Keeps c r) (State.runResume_keeps hx0)
          (keeps_ite (P := Keeps c r) (State.runUnload_keeps hx0) (State.sxDone_keeps hx0))))))

theorem State.saveOn_keeps {x0 x1 x2} (hx0 : Keeps c r x0) : Keeps c r (State.saveOn x0 x1 x2) := by
  unfold State.saveOn
  extract_lets +onlyGivenNames -merge -lift v0 v1
  clear_value v1
  split
  · exact hx0
  · extract_lets +onlyGivenNames -merge -lift v2 v3 v4 v5 v6 v7
    have h8 : Keeps c r v6 := (keeps_foldl (P := Keeps c r) (fun _ _ h9 =>
      (State.modLaunch_keeps (State.clearCaptures_keeps h9))) hx0)
    clear_value v6
    have h10 : Keeps c r v7 := State.modEngine_keeps h8
    clear_value v7
    exact State.modCtx_keeps h10

theorem State.signalExpelled_keeps {x0 x1} (hx0 : Keeps c r x0) : Keeps c r (State.signalExpelled x0 x1) := by
  unfold State.signalExpelled
  exact keeps_foldl (P := Keeps c r) (fun _ _ h0 => (State.sendSignal_keeps h0)) (State.signalEnd_keeps hx0)

theorem State.schedExpelled_keeps {x0 x1} (hx0 : Keeps c r x0) : Keeps c r (State.schedExpelled x0 x1) := by
  unfold State.schedExpelled
  extract_lets +onlyGivenNames -merge -lift v0 v1
  have h2 : Keeps c r v0 := keeps_ite (P := Keeps c r) hx0 (State.signalExpelled_keeps hx0)
  clear_value v0
  have h3 : Keeps c r v1 := State.schedStop_keeps h2
  clear_value v1
  exact State.setSched_keeps h3

theorem State.schedWrite_keeps {x0 x1 x2 x3} (hx0 : Keeps c r x0) : Keeps1 c r (State.schedWrite x0 x1 x2 x3) := by
  unfold State.schedWrite
  exact (keeps_foldl (P := Keeps1 c r) (fun _ _ h0 => (by
    split
    · rename_i v1 v2 eh1
      have h1 := keeps_eqW eh1 (State.writeJob_keeps (keeps_fst h0))
      exact keeps_pair1 h1
    · exact keeps_pair1 (keeps_fst h0)
    · exact keeps_pair1 (State.jobWaits_keeps (keeps_fst h0)))) (keeps_pair1 hx0))

theorem State.settled_keeps {x0 x1} (hx0 : Keeps c r x0) : Keeps c r (State.settled x0 x1) := by
  unfold State.settled
  extract_lets +onlyGivenNames -merge -lift v0
  exact (keeps_ite (P := Keeps c r)
    (keeps_ite (P := Keeps c r) hx0 (by
      extract_lets +onlyGivenNames -merge -lift v1
      have h2 : Keeps c r v1 := State.modEngine_keeps hx0
      clear_value v1
      exact keeps_ite (P := Keeps c r) (State.setDomain_keeps h2) (State.pointDone_keeps h2)))
    (State.setDomain_keeps hx0))

theorem State.signalOthers_keeps {x0 x1} (hx0 : Keeps c r x0) : Keeps c r (State.signalOthers x0 x1) := by
  unfold State.signalOthers
  extract_lets +onlyGivenNames -merge -lift v0 v1
  exact (keeps_foldl (P := Keeps c r) (fun _ _ h2 => (by
    extract_lets +onlyGivenNames -merge -lift v3
    exact State.e2eSend_keeps h2)) hx0)

theorem State.startOut_keeps {x0 x1} (hx0 : Keeps c r x0) : Keeps c r (State.startOut x0 x1) := by
  unfold State.startOut
  extract_lets +onlyGivenNames -merge -lift v0
  exact (keeps_ite (P := Keeps c r) hx0 (by
    extract_lets +onlyGivenNames -merge -lift v1 v2 v3
    have h4 : Keeps c r v2 := State.setCtx_keeps hx0
    clear_value v2
    have h5 : Keeps c r v3 := keeps_foldl (P := Keeps c r) (fun _ _ h6 => (State.preemptLaunch_keeps h6)) h4
    clear_value v3
    exact State.outStep_keeps (keeps_foldl (P := Keeps c r) (fun _ _ h7 => (State.feQuiesce_keeps h7)) h5)))

theorem State.takeSlot_keeps {x0 x1 x2} (hx0 : Keeps c r x0) : Keeps c r (State.takeSlot x0 x1 x2) := by
  unfold State.takeSlot
  extract_lets +onlyGivenNames -merge -lift v0
  have h1 : Keeps c r v0 := State.credit_keeps hx0
  clear_value v0
  exact State.modCtx_keeps h1

theorem State.switchIn_keeps {x0 x1} (hx0 : Keeps c r x0) : Keeps c r (State.switchIn x0 x1) := by
  unfold State.switchIn
  exact (keeps_ite (P := Keeps c r) hx0 (by
    split
    · extract_lets +onlyGivenNames -merge -lift v0
      have h1 : Keeps c r v0 := keeps_ite (P := Keeps c r) (State.schedCount_keeps hx0) hx0
      clear_value v0
      exact keeps_ite (P := Keeps c r) h1 (State.takeSlot_keeps h1)
    · exact hx0))

theorem State.slicesOut_keeps {x0 x1 x2 x3} (hx1 : Keeps c r x1) :
    Keeps c r (State.slicesOut x0 x1 x2 x3) := by
  induction x0 generalizing x1 x3 with
  | zero => exact hx1
  | succ n ih =>
    unfold State.slicesOut
    dsimp only
    split
    · exact keeps_ite (ih (State.switchIn_keeps hx1)) (keeps_ite hx1 (ih (keeps_ite
        (State.switchIn_keeps (State.startOut_keeps hx1)) (State.startOut_keeps hx1))))
    · exact hx1

theorem State.slotsFor_keeps {x0 x1} (hx0 : Keeps1 c r x0) : Keeps1 c r (State.slotsFor x0 x1) := by
  obtain ⟨s, used⟩ := x0
  unfold State.slotsFor
  dsimp only
  repeat' split
  all_goals first | exact hx0 | exact keeps_pair1 (State.setLaunch_keeps (keeps_fst hx0))

theorem State.startRefused_keeps {x0 x1} (hx0 : Keeps c r x0) : Keeps c r (State.startRefused x0 x1) := by
  unfold State.startRefused
  extract_lets +onlyGivenNames -merge -lift v0
  have h1 : Keeps c r v0 := State.schedStop_keeps hx0
  clear_value v0
  exact State.sxDone_keeps (State.setSched_keeps h1)

theorem State.startCommitted_keeps {x0 x1 x2 x3} (hx0 : Keeps c r x0) :
    Keeps c r (State.startCommitted x0 x1 x2 x3) := by
  unfold State.startCommitted
  extract_lets +onlyGivenNames -merge -lift v0
  exact (keeps_ite (P := Keeps c r) (State.startRefused_keeps hx0) (by
    extract_lets +onlyGivenNames -merge -lift v1 v2 v3
    have h4 : Keeps c r v1 := keeps_ite (P := Keeps c r) hx0 (State.bindAlt_keeps hx0)
    clear_value v1
    have h5 : Keeps c r v3 := State.setSched_keeps h4
    clear_value v3
    exact State.sxDone_keeps (State.restoreAllots_keeps h5)))

theorem State.startXfer_keeps {x0 x1 x2 x3} (hx0 : Keeps c r x0) : Keeps c r (State.startXfer x0 x1 x2 x3) := by
  unfold State.startXfer
  extract_lets +onlyGivenNames -merge -lift v0 v1 v2 v3
  have h4 : Keeps c r v3 := State.jobViol_keeps (State.jobCharge_keeps hx0)
  clear_value v3
  exact (keeps_ite (P := Keeps c r) (State.schedTrigger_keeps h4)
    (keeps_foldl (P := Keeps c r) (fun _ _ h5 => (State.schedSend_keeps h5)) h4))

theorem State.stepRuns_keeps {x0 x1 x2 x3} (hx0 : Keeps c r x0) : Keeps c r (State.stepRuns x0 x1 x2 x3) := by
  unfold State.stepRuns
  extract_lets +onlyGivenNames -merge -lift v0
  exact State.setSched_keeps hx0

theorem State.sxCommand_keeps {x0 x1 x2 x3} (hx0 : Keeps c r x0) : Keeps c r (State.sxCommand x0 x1 x2 x3) := by
  unfold State.sxCommand
  exact (keeps_ite (P := Keeps c r) hx0 (by
    extract_lets +onlyGivenNames -merge -lift v0
    exact (keeps_ite (P := Keeps c r) (State.setSched_keeps hx0) (by
      extract_lets +onlyGivenNames -merge -lift v1
      have h2 : Keeps c r v1 := State.setSched_keeps hx0
      clear_value v1
      exact keeps_ite (P := Keeps c r) h2 (State.runSx_keeps h2)))))

theorem execAllotWaitTimeout_keeps {x0 x1} (hx1 : Keeps c r x1) : KeepsX c r (execAllotWaitTimeout x0 x1) := by
  unfold execAllotWaitTimeout
  exact (keeps_next
    (State.work_keeps hx1 (by
      extract_lets +onlyGivenNames -merge -lift v0 v1
      split
      · exact hx1
      · extract_lets +onlyGivenNames -merge -lift v2 v3
        split <;> [exact (keeps_ite (P := Keeps c r) (State.startOut_keeps hx1) hx1); exact hx1])))

theorem execBeatStepDispatch_keeps {x0 x1 x2} (hx2 : Keeps c r x2) :
    KeepsX c r (execBeatStepDispatch x0 x1 x2) := by
  unfold execBeatStepDispatch
  exact (keeps_next
    (State.work_keeps hx2 (by
      extract_lets +onlyGivenNames -merge -lift v0
      split
      · exact hx2
      · exact (keeps_ite (P := Keeps c r) hx2 (by
          extract_lets +onlyGivenNames -merge -lift v1
          have h2 : Keeps c r v1 := State.stepRuns_keeps hx2
          clear_value v1
          exact (keeps_ite (P := Keeps c r) (State.stepEnds_keeps h2)
            (keeps_ite (P := Keeps c r) (State.copyStep_keeps h2) (State.launchStep_keeps h2))))))))

theorem execBeatXferStart_keeps {x0 x1 x2} (hx2 : Keeps c r x2) : KeepsX c r (execBeatXferStart x0 x1 x2) := by
  unfold execBeatXferStart
  exact (keeps_next
    (State.work_keeps hx2 (by
      extract_lets +onlyGivenNames -merge -lift v0
      split <;> [exact hx2; exact (keeps_ite (P := Keeps c r) (State.startXfer_keeps hx2) hx2)])))

theorem execCtxAccount_keeps {x0 x1 x2} (hx2 : Keeps c r x2) : KeepsX c r (execCtxAccount x0 x1 x2) := by
  unfold execCtxAccount
  exact (keeps_next
    (State.work_keeps hx2
      (State.request_keeps (State.chargeAll_keeps hx2) (fun _ h0 => (State.reqCtxAccount_keeps h0)))))

theorem execCtxShare_keeps {x0 x1 x2} (hx2 : Keeps c r x2) : KeepsX c r (execCtxShare x0 x1 x2) := by
  unfold execCtxShare
  exact (keeps_next
    (State.work_keeps hx2
      (State.request_keeps (State.chargeAll_keeps hx2) (fun _ h0 => (State.reqCtxShare_keeps h0)))))

theorem execDispatchRound_keeps {x0 x1} (hx1 : Keeps c r x1) : KeepsX c r (execDispatchRound x0 x1) := by
  unfold execDispatchRound
  exact keeps_next (State.work_keeps hx1 (State.dispatch_keeps hx1))

theorem execEpochBoundary_keeps {x0 x1} (hx1 : Keeps c r x1) : KeepsX c r (execEpochBoundary x0 x1) := by
  unfold execEpochBoundary
  exact (keeps_next
    (State.work_keeps hx1 (by
      extract_lets +onlyGivenNames -merge -lift v0 v1
      exact keeps_ite (P := Keeps c r) (State.setSched_keeps hx1) hx1)))

theorem execEvict_keeps {x0 x1} (hx1 : Keeps c r x1) : KeepsX c r (execEvict x0 x1) := by
  unfold execEvict
  exact (keeps_next
    (State.work_keeps hx1 (by
      extract_lets +onlyGivenNames -merge -lift v0 v1 v2 v3
      have h4 : Keeps c r v0 := State.look_keeps hx1
      clear_value v0
      exact (keeps_ite (P := Keeps c r) h4 (by
        split <;> [exact h4; exact (State.startOut_keeps (State.schedCount_keeps h4))])))))

theorem execOverrun_keeps {x0 x1} (hx1 : Keeps c r x1) : KeepsX c r (execOverrun x0 x1) := by
  unfold execOverrun
  exact (keeps_next
    (State.work_keeps hx1 (by
      extract_lets +onlyGivenNames -merge -lift v0 v1
      exact keeps_ite (P := Keeps c r) (State.sageFail_keeps (State.schedTrigger_keeps hx1)) hx1)))

theorem execRecordRestoreComplete_keeps {x0 x1 x2} (hx2 : Keeps c r x2) :
    KeepsX c r (execRecordRestoreComplete x0 x1 x2) := by
  unfold execRecordRestoreComplete
  exact (keeps_next
    (State.work_keeps hx2 (by
      split
      · exact hx2
      · extract_lets +onlyGivenNames -merge -lift v0 v1
        exact (keeps_ite (P := Keeps c r) hx2 (by
          extract_lets +onlyGivenNames -merge -lift v2 v3
          have h4 : Keeps c r v2 := State.modEngine_keeps hx2
          clear_value v2
          have h5 : Keeps c r v3 := State.modCtx_keeps h4
          clear_value v3
          exact keeps_foldl (P := Keeps c r) (fun _ _ h6 => (State.startReady_keeps h6)) h5)))))

theorem execRestartBeat_keeps {x0 x1} (hx1 : Keeps c r x1) : KeepsX c r (execRestartBeat x0 x1) := by
  unfold execRestartBeat
  exact (keeps_next
    (State.work_keeps hx1 (by
      extract_lets +onlyGivenNames -merge -lift v0 v1
      exact (keeps_ite (P := Keeps c r) hx1 (by
        extract_lets +onlyGivenNames -merge -lift v2 v3 v4 v5
        have h6 : Keeps c r v3 := keeps_foldl (P := Keeps c r) (fun _ _ h7 => (State.restoreLog_keeps h7)) hx1
        clear_value v3
        have h8 : Keeps c r v5 := State.setSched_keeps h6
        clear_value v5
        exact (keeps_ite (P := Keeps c r) (State.schedExpelled_keeps h8)
          (keeps_ite (P := Keeps c r) (State.schedSuspend_keeps h8) (State.resumePart_keeps h8))))))))

theorem execRollbackReport_keeps {x0 x1 x2 x3} (hx3 : Keeps c r x3) :
    KeepsX c r (execRollbackReport x0 x1 x2 x3) := by
  unfold execRollbackReport
  exact (keeps_next
    (State.work_keeps hx3 (by
      extract_lets +onlyGivenNames -merge -lift v0 v1
      exact (keeps_ite (P := Keeps c r) hx3 (by
        extract_lets +onlyGivenNames -merge -lift v2 v3
        have h4 : Keeps c r v3 := State.setSched_keeps hx3
        clear_value v3
        exact keeps_ite (P := Keeps c r) (State.planRestart_keeps h4) h4)))))

theorem execRollbackTrigger_keeps {x0 x1} (hx1 : Keeps c r x1) : KeepsX c r (execRollbackTrigger x0 x1) := by
  unfold execRollbackTrigger
  exact (keeps_next
    (State.work_keeps hx1 (by
      extract_lets +onlyGivenNames -merge -lift v0
      exact (keeps_ite (P := Keeps c r) hx1 (by
        extract_lets +onlyGivenNames -merge -lift v1 v2 v3
        have h4 : Keeps c r v1 := State.discardSteps_keeps hx1
        clear_value v1
        have h5 : Keeps c r v3 := State.setSched_keeps h4
        clear_value v3
        exact (keeps_ite (P := Keeps c r) h5
          (keeps_ite (P := Keeps c r) (State.rmRecord_keeps (State.expel_keeps h5))
            (State.rmRecord_keeps (State.setSched_keeps h5)))))))))

theorem execSaveSet_keeps {x0 x1 x2} (hx2 : Keeps c r x2) : KeepsX c r (execSaveSet x0 x1 x2) := by
  unfold execSaveSet
  exact keeps_next (State.work_keeps hx2 (State.request_keeps hx2 (fun _ h0 => (State.reqSaveSet_keeps h0))))

theorem execSaveWindowEnd_keeps {x0 x1} (hx1 : Keeps c r x1) : KeepsX c r (execSaveWindowEnd x0 x1) := by
  unfold execSaveWindowEnd
  exact (keeps_next
    (State.work_keeps hx1 (by
      extract_lets +onlyGivenNames -merge -lift v0
      split
      · exact hx1
      · extract_lets +onlyGivenNames -merge -lift v1 v2
        have h3 : Keeps c r v2 := State.setSched_keeps hx1
        clear_value v2
        exact State.leaderCheck_keeps (State.castVote_keeps h3))))

theorem execSchedCommit_keeps {x0 x1 x2} (hx2 : Keeps c r x2) : KeepsX c r (execSchedCommit x0 x1 x2) := by
  unfold execSchedCommit
  exact (keeps_next
    (State.work_keeps hx2
      (State.receive_keeps hx2 (fun _ h0 => (by
        split
        · exact h0
        · extract_lets +onlyGivenNames -merge -lift v1 v2
          exact (keeps_ite (P := Keeps c r) h0
            (keeps_ite (P := Keeps c r)
              (keeps_ite (P := Keeps c r) (State.startCommitted_keeps h0) (State.startRefused_keeps h0))
              (keeps_ite (P := Keeps c r) (State.commitBoundary_keeps h0) h0))))))))

theorem execSchedCtrlWrite_keeps {x0 x1 x2} (hx2 : Keeps c r x2) : KeepsX c r (execSchedCtrlWrite x0 x1 x2) := by
  unfold execSchedCtrlWrite
  exact (keeps_next
    (State.work_keeps hx2 (by
      extract_lets +onlyGivenNames -merge -lift v0
      exact keeps_ite (P := Keeps c r) (keeps_mk hx2 (fun _ => rfl) rfl rfl) hx2)))

theorem execSchedVote_keeps {x0 x1 x2} (hx2 : Keeps c r x2) : KeepsX c r (execSchedVote x0 x1 x2) := by
  unfold execSchedVote
  exact (keeps_next
    (State.work_keeps hx2
      (State.receive_keeps hx2 (fun _ h0 => (by
        split
        · exact h0
        · exact (keeps_ite (P := Keeps c r) h0 (by
            extract_lets +onlyGivenNames -merge -lift v1 v2 v3
            have h4 : Keeps c r v3 := State.setSched_keeps h0
            clear_value v3
            exact (keeps_ite (P := Keeps c r)
              (keeps_ite (P := Keeps c r) (State.leaderCheck_keeps h4) (State.schedTrigger_keeps h4)) h4))))))))

theorem execSchedXferData_keeps {x0 x1 x2} (hx2 : Keeps c r x2) : KeepsX c r (execSchedXferData x0 x1 x2) := by
  unfold execSchedXferData
  exact (keeps_next
    (State.work_keeps hx2
      (State.receive_keeps hx2 (fun _ h0 => (by
        split
        · exact h0
        · extract_lets +onlyGivenNames -merge -lift v1
          exact (keeps_ite (P := Keeps c r) h0 (by
            extract_lets +onlyGivenNames -merge -lift v2
            have h3 : Keeps1 c r v2 := State.schedWrite_keeps h0
            clear_value v2
            exact (State.jobViol_keeps
              (State.jobCharge_keeps
                (keeps_ite (P := Keeps c r) (keeps_fst h3) (State.chargeFabric_keeps (keeps_fst h3))))))))))))

theorem execScheduleEnd_keeps {x0 x1} (hx1 : Keeps c r x1) : KeepsX c r (execScheduleEnd x0 x1) := by
  unfold execScheduleEnd
  exact (keeps_next
    (State.work_keeps hx1 (by
      extract_lets +onlyGivenNames -merge -lift v0
      exact (keeps_ite (P := Keeps c r) (by
        extract_lets +onlyGivenNames -merge -lift v1
        have h2 : Keeps c r v1 := State.schedStop_keeps (State.signalEnd_keeps (State.discardSteps_keeps hx1))
        clear_value v1
        exact State.setSched_keeps h2)
        (keeps_ite (P := Keeps c r) (by
          extract_lets +onlyGivenNames -merge -lift v3 v4 v5
          have h6 : Keeps c r v3 := State.setSched_keeps hx1
          clear_value v3
          have h7 : Keeps c r v4 := State.signalEnd_keeps h6
          clear_value v4
          have h8 : Keeps c r v5 := (State.schedStop_keeps
            (keeps_ite (P := Keeps c r) (State.signalOthers_keeps h7) h7))
          clear_value v5
          exact State.setSched_keeps h8) hx1)))))

theorem execSliceBoundary_keeps {x0 x1} (hx1 : Keeps c r x1) : KeepsX c r (execSliceBoundary x0 x1) := by
  unfold execSliceBoundary
  exact (keeps_next
    (State.work_keeps hx1
      (keeps_ite (P := Keeps c r) hx1 (by
        extract_lets +onlyGivenNames -merge -lift v0 v1 v2 v3
        have h4 : Keeps c r v0 := State.look_keeps hx1
        clear_value v0
        have h5 : Keeps c r v3 := (keeps_fst
          (keeps_foldl (P := Keeps1 c r) (fun _ _ h6 => (State.slotsFor_keeps h6)) (keeps_pair1 h4)))
        clear_value v3
        exact State.slicesOut_keeps h5))))

theorem execStartBeatTimeout_keeps {x0 x1} (hx1 : Keeps c r x1) : KeepsX c r (execStartBeatTimeout x0 x1) := by
  unfold execStartBeatTimeout
  exact keeps_next (State.work_keeps hx1 (keeps_ite (P := Keeps c r) (State.startRefused_keeps hx1) hx1))

theorem execStartDecision_keeps {x0 x1} (hx1 : Keeps c r x1) : KeepsX c r (execStartDecision x0 x1) := by
  unfold execStartDecision
  exact (keeps_next
    (State.work_keeps hx1 (by
      extract_lets +onlyGivenNames -merge -lift v0
      exact (keeps_ite (P := Keeps c r) hx1 (by
        extract_lets +onlyGivenNames -merge -lift v1 v2 v3 v4
        clear_value v4
        split
        · exact State.startCommitted_keeps (State.sendCommit_keeps hx1)
        · exact State.startRefused_keeps (State.sendCommit_keeps hx1))))))

theorem execSwitchIn_keeps {x0 x1} (hx1 : Keeps c r x1) : KeepsX c r (execSwitchIn x0 x1) := by
  unfold execSwitchIn
  exact keeps_next (State.work_keeps hx1 (State.switchIn_keeps hx1))

theorem execSwitchOut_keeps {x0 x1} (hx1 : Keeps c r x1) : KeepsX c r (execSwitchOut x0 x1) := by
  unfold execSwitchOut
  exact (keeps_next
    (State.work_keeps hx1 (keeps_ite (P := Keeps c r) (State.outStep_keeps (State.startOut_keeps hx1)) hx1)))

theorem execSwitchOutComplete_keeps {x0 x1} (hx1 : Keeps c r x1) : KeepsX c r (execSwitchOutComplete x0 x1) := by
  unfold execSwitchOutComplete
  exact (keeps_next
    (State.work_keeps hx1 (by
      extract_lets +onlyGivenNames -merge -lift v0 v1
      have h2 : Keeps c r v0 := State.outStep_keeps hx1
      clear_value v0
      exact (keeps_ite (P := Keeps c r) h2 (by
        extract_lets +onlyGivenNames -merge -lift v3
        have h4 : Keeps c r v3 := keeps_foldl (P := Keeps c r) (fun _ _ h5 => (State.saveOn_keeps h5)) h2
        clear_value v3
        exact State.modCtx_keeps h4)))))

theorem execSxAdmit_keeps {x0 x1 x2} (hx2 : Keeps c r x2) : KeepsX c r (execSxAdmit x0 x1 x2) := by
  unfold execSxAdmit
  exact keeps_next (State.work_keeps hx2 (State.sxCommand_keeps hx2))

theorem execSxResume_keeps {x0 x1 x2} (hx2 : Keeps c r x2) : KeepsX c r (execSxResume x0 x1 x2) := by
  unfold execSxResume
  exact keeps_next (State.work_keeps hx2 (State.sxCommand_keeps hx2))

theorem execSxStart_keeps {x0 x1 x2} (hx2 : Keeps c r x2) : KeepsX c r (execSxStart x0 x1 x2) := by
  unfold execSxStart
  exact keeps_next (State.work_keeps hx2 (State.sxCommand_keeps hx2))

theorem execSxSuspend_keeps {x0 x1 x2} (hx2 : Keeps c r x2) : KeepsX c r (execSxSuspend x0 x1 x2) := by
  unfold execSxSuspend
  exact keeps_next (State.work_keeps hx2 (State.sxCommand_keeps hx2))

theorem execSxUnknownOp_keeps {x0 x1 x2 x3} (hx3 : Keeps c r x3) : KeepsX c r (execSxUnknownOp x0 x1 x2 x3) := by
  unfold execSxUnknownOp
  exact keeps_next (State.work_keeps hx3 (keeps_ite (P := Keeps c r) hx3 (State.sxCommand_keeps hx3)))

theorem execSxUnload_keeps {x0 x1 x2} (hx2 : Keeps c r x2) : KeepsX c r (execSxUnload x0 x1 x2) := by
  unfold execSxUnload
  exact keeps_next (State.work_keeps hx2 (State.sxCommand_keeps hx2))

theorem execVoteWindowTimeout_keeps {x0 x1} (hx1 : Keeps c r x1) : KeepsX c r (execVoteWindowTimeout x0 x1) := by
  unfold execVoteWindowTimeout
  exact (keeps_next
    (State.work_keeps hx1 (by
      extract_lets +onlyGivenNames -merge -lift v0
      split <;> [exact hx1; exact (keeps_ite (P := Keeps c r) hx1 (State.expel_keeps hx1))])))

end Sys2Proof.Machine
end

