-- ==== Sys2Proof/Laws/KeepsLinks.lean ====
section
/-! SUPPORT. What the chiplet ports, the fabric, Thyme, the partition programs and the life cycle keep. -/

namespace Sys2Proof.Machine

variable {c : Bool} {r : State}

theorem State.admitFe_keeps {x0 x1 x2 x3 x4} (hx0 : Keeps c r x0) : Keeps c r (State.admitFe x0 x1 x2 x3 x4) := by
  unfold State.admitFe
  extract_lets +onlyGivenNames -merge -lift v0 v1
  exact (keeps_ite (P := Keeps c r) hx0
    (keeps_ite (P := Keeps c r) (State.rmRecord_keeps hx0) (by
      extract_lets +onlyGivenNames -merge -lift v2 v3
      have h4 : Keeps c r v2 := State.setFe_keeps hx0
      clear_value v2
      have h5 : Keeps c r v3 := State.fptChange_keeps h4
      clear_value v3
      exact keeps_mk h5 (fun _ => rfl) rfl rfl)))

theorem State.lcDone_keeps {x0 x1} (hx0 : Keeps c r x0) : Keeps c r (State.lcDone x0 x1) := by
  unfold State.lcDone
  extract_lets +onlyGivenNames -merge -lift v0
  exact keeps_mk hx0 (fun _ => rfl) rfl rfl

theorem State.runAttest_keeps {x0} (hx0 : Keeps c r x0) : Keeps c r (State.runAttest x0) := by
  unfold State.runAttest
  split
  · exact State.lcDone_keeps hx0
  · exact (keeps_ite (P := Keeps c r) (State.lcDone_keeps hx0) (by
      extract_lets +onlyGivenNames -merge -lift v0 v1
      exact State.lcDone_keeps (keeps_mk hx0 (fun _ => rfl) rfl rfl)))

theorem State.runChallenge_keeps {x0} (hx0 : Keeps c r x0) : Keeps c r (State.runChallenge x0) := by
  unfold State.runChallenge
  extract_lets +onlyGivenNames -merge -lift v0
  exact (keeps_ite (P := Keeps c r) (State.lcDone_keeps hx0) (by
    extract_lets +onlyGivenNames -merge -lift v1 v2 v3 v4
    have h5 : Keeps c r v4 := keeps_mk hx0 (fun _ => rfl) rfl rfl
    clear_value v4
    exact State.lcDone_keeps h5))

theorem State.otpPut_keeps {x0 x1 x2} (hx0 : Keeps c r x0) : Keeps c r (State.otpPut x0 x1 x2) := by
  unfold State.otpPut
  exact keeps_mk hx0 (fun _ => rfl) rfl rfl

theorem State.certProgram_keeps {x0 x1} (hx0 : Keeps c r x0) : Keeps c r (State.certProgram x0 x1) := by
  unfold State.certProgram
  extract_lets +onlyGivenNames -merge -lift v0
  exact (keeps_ite (P := Keeps c r) (State.lcDone_keeps hx0)
    (keeps_ite (P := Keeps c r) (State.lcDone_keeps hx0)
      (keeps_ite (P := Keeps c r) (State.lcDone_keeps hx0) (by
        extract_lets +onlyGivenNames -merge -lift v1
        have h2 : Keeps c r v1 := keeps_foldl (P := Keeps c r) (fun _ _ h3 => (State.otpPut_keeps h3)) hx0
        clear_value v1
        exact State.lcDone_keeps (State.otpPut_keeps h2)))))

theorem State.lcProgram_keeps {x0} (hx0 : Keeps c r x0) : Keeps c r (State.lcProgram x0) := by
  unfold State.lcProgram
  extract_lets +onlyGivenNames -merge -lift v0
  split
  · exact State.lcDone_keeps hx0
  · extract_lets +onlyGivenNames -merge -lift v1 v2 v3
    have h4 : Keeps c r v1 := State.otpPut_keeps hx0
    clear_value v1
    have h5 : Keeps c r v3 := keeps_mk h4 (fun _ => rfl) rfl rfl
    clear_value v3
    exact State.lcDone_keeps (State.rmRecord_keeps h5)

theorem State.drawSeed_keeps {x0 x1} (hx0 : Keeps c r x0) : Keeps c r (State.drawSeed x0 x1) := by
  unfold State.drawSeed
  extract_lets +onlyGivenNames -merge -lift v0 v1 v2 v3
  have h4 : Keeps c r v2 := (Keeps.trans hx0 ⟨rfl, rfl, id, id, List.prefix_refl _, fun _ => .inl rfl,
    Nat.le_add_right _ _, Nat.le_refl _, Nat.le_refl _, fun _ g => .inl g⟩)
  clear_value v2
  have h5 : Keeps c r v3 := keeps_foldl (P := Keeps c r) (fun _ _ h6 => (State.otpPut_keeps h6)) h4
  clear_value v3
  exact State.otpPut_keeps h5

theorem State.lcSeeds_keeps {x0 x1} (hx0 : Keeps c r x0) : Keeps c r (State.lcSeeds x0 x1) := by
  induction x1 generalizing x0 with
  | nil =>
    unfold State.lcSeeds
    exact State.lcProgram_keeps hx0
  | cons w ws ih =>
    unfold State.lcSeeds
    split
    · exact ih hx0
    · exact State.lcDone_keeps hx0
    · exact keeps_ite (P := Keeps c r) (ih (State.drawSeed_keeps hx0)) (keeps_mk hx0 (fun _ => rfl) rfl rfl)

theorem State.lcGoOn_keeps {x0} (hx0 : Keeps c r x0) : Keeps c r (State.lcGoOn x0) := by
  unfold State.lcGoOn
  exact keeps_ite (P := Keeps c r) (State.lcSeeds_keeps hx0) (State.lcProgram_keeps hx0)

theorem State.tokenMove_keeps {x0 x1 x2} (hx0 : Keeps c r x0) : Keeps c r (State.tokenMove x0 x1 x2) := by
  unfold State.tokenMove
  exact (keeps_ite (P := Keeps c r) (State.lcDone_keeps hx0)
    (keeps_ite (P := Keeps c r) (State.lcDone_keeps hx0)
      (keeps_ite (P := Keeps c r) (State.lcDone_keeps hx0)
        (State.lcGoOn_keeps (keeps_mk hx0 (fun _ => rfl) rfl rfl)))))

theorem State.tokenAct_keeps {x0 x1} (hx0 : Keeps c r x0) : Keeps c r (State.tokenAct x0 x1) := by
  unfold State.tokenAct
  extract_lets +onlyGivenNames -merge -lift v0
  split
  · exact State.tokenMove_keeps hx0
  · exact State.tokenMove_keeps hx0
  · exact State.lcDone_keeps (keeps_ite (P := Keeps c r) hx0 (keeps_mk hx0 (fun _ => rfl) rfl rfl))
  · exact (keeps_ite (P := Keeps c r) (State.lcDone_keeps hx0)
      (keeps_ite (P := Keeps c r) (State.lcDone_keeps hx0)
        (State.lcDone_keeps (State.rmRecord_keeps (keeps_mk hx0 (fun _ => rfl) rfl rfl)))))
  · exact (keeps_ite (P := Keeps c r) (State.lcDone_keeps hx0)
      (State.lcDone_keeps (State.rmRecord_keeps (keeps_mk hx0 (fun _ => rfl) rfl rfl))))
  · exact (keeps_ite (P := Keeps c r) (State.lcDone_keeps hx0)
      (State.lcDone_keeps (State.rmRecord_keeps (keeps_mk hx0 (fun _ => rfl) rfl rfl))))
  · exact State.lcDone_keeps (keeps_mk hx0 (fun _ => rfl) rfl rfl)
  · exact State.certProgram_keeps hx0

theorem State.runSubmit_keeps {x0} (hx0 : Keeps c r x0) : Keeps c r (State.runSubmit x0) := by
  unfold State.runSubmit
  extract_lets +onlyGivenNames -merge -lift v0 v1 v2 v3 v4
  have h5 : Keeps c r v4 := keeps_mk hx0 (fun _ => rfl) rfl rfl
  clear_value v4
  exact (keeps_ite (P := Keeps c r) (State.lcDone_keeps h5) (by
    clear_value v1
    split
    · exact State.lcDone_keeps h5
    · exact (keeps_ite (P := Keeps c r) (State.lcDone_keeps h5)
        (keeps_ite (P := Keeps c r) (State.lcDone_keeps h5) (by
          split
          · exact State.lcDone_keeps h5
          · exact (keeps_ite (P := Keeps c r) (State.lcDone_keeps h5)
              (keeps_ite (P := Keeps c r) (State.lcDone_keeps h5) (State.tokenAct_keeps h5))))))))

theorem State.lcRun_keeps {x0} (hx0 : Keeps c r x0) : Keeps c r (State.lcRun x0) := by
  unfold State.lcRun
  split
  · exact State.runChallenge_keeps hx0
  · exact State.runSubmit_keeps hx0
  · exact State.runAttest_keeps hx0
  · exact State.lcDone_keeps (keeps_mk hx0 (fun _ => rfl) rfl rfl)
  · exact State.lcDone_keeps hx0

theorem State.afterProgram_keeps {x0} (hx0 : Keeps c r x0) : Keeps c r (State.afterProgram x0) := by
  unfold State.afterProgram
  extract_lets +onlyGivenNames -merge -lift v0 v1 v2
  have h3 : Keeps c r v1 := (keeps_ite (P := Keeps c r) hx0
    (keeps_foldl (P := Keeps c r) (fun _ _ h4 => (State.reqCtxCreate_keeps (State.setBlock_keeps h4))) hx0))
  clear_value v1
  have h5 : Keeps c r v2 := keeps_ite (P := Keeps c r) (State.lcRun_keeps h3) h3
  clear_value v2
  exact State.runAdmits_keeps h5

theorem State.wmbEnd_keeps {x0 x1} (hx0 : Keeps c r x0) : Keeps c r (State.wmbEnd x0 x1) := by
  unfold State.wmbEnd
  extract_lets +onlyGivenNames -merge -lift v0 v1 v2
  have h3 : Keeps c r v2 := keeps_mk hx0 (fun _ => rfl) rfl rfl
  clear_value v2
  exact State.afterProgram_keeps (State.raise_keeps h3)

theorem State.wmbScan_keeps {x0} (hx0 : Keeps c r x0) : Keeps c r (State.wmbScan x0) := by
  unfold State.wmbScan
  extract_lets +onlyGivenNames -merge -lift v0
  split
  · exact State.wmbEnd_keeps (keeps_mk hx0 (fun _ => rfl) rfl rfl)
  · exact keeps_mk hx0 (fun _ => rfl) rfl rfl

theorem State.afterLc_keeps {x0} (hx0 : Keeps c r x0) : Keeps c r (State.afterLc x0) := by
  unfold State.afterLc
  exact (keeps_ite (P := Keeps c r) hx0
    (State.runAdmits_keeps (keeps_ite (P := Keeps c r) (State.wmbScan_keeps hx0) hx0)))

theorem State.badMsg_keeps {x0 x1} (hx0 : Keeps c r x0) : Keeps c r (State.badMsg x0 x1) := by
  unfold State.badMsg
  exact State.sageFail_keeps (State.setFp_keeps hx0)

theorem State.fptPort_keeps {x0 x1} (hx0 : Keeps c r x0) : Keeps c r (State.fptPort x0 x1) := by
  unfold State.fptPort
  extract_lets +onlyGivenNames -merge -lift v0 v1 v2 v3
  have h4 : Keeps c r v3 := State.fptChange_keeps hx0
  clear_value v3
  exact (keeps_ite (P := Keeps c r) h4
    (keeps_foldl (P := Keeps c r) (fun _ _ h5 => (State.partChanged_keeps h5)) h4))

theorem State.unpark_keeps {x0} (hx0 : Keeps c r x0) : Keeps c r (State.unpark x0) := by
  unfold State.unpark
  extract_lets +onlyGivenNames -merge -lift v0 v1 v2
  have h3 : Keeps c r v2 := (keeps_foldl (P := Keeps c r) (fun _ _ h4 => (State.inject_keeps h4))
    (keeps_mk hx0 (fun _ => rfl) rfl rfl))
  clear_value v2
  exact keeps_foldl (P := Keeps c r) (fun _ _ h5 => (State.e2eRelease_keeps h5)) h3

theorem State.reroute_keeps {x0} (hx0 : Keeps c r x0) : Keeps c r (State.reroute x0) := by
  unfold State.reroute
  exact (keeps_ite (P := Keeps c r) hx0 (by
    extract_lets +onlyGivenNames -merge -lift v0
    exact State.unpark_keeps (keeps_mk hx0 (fun _ => rfl) rfl rfl)))

theorem State.sendManifest_keeps {x0 x1} (hx0 : Keeps c r x0) : Keeps c r (State.sendManifest x0 x1) := by
  unfold State.sendManifest
  exact State.portSend_keeps hx0

theorem State.calibrated_keeps {x0 x1 x2 x3} (hx0 : Keeps c r x0) : Keeps c r (State.calibrated x0 x1 x2 x3) := by
  unfold State.calibrated
  extract_lets +onlyGivenNames -merge -lift v0 v1 v2 v3
  have h4 : Keeps c r v2 := State.fptPort_keeps (State.setFp_keeps hx0)
  clear_value v2
  have h5 : Keeps c r v3 := keeps_ite (P := Keeps c r) (State.sendManifest_keeps h4) h4
  clear_value v3
  exact State.reroute_keeps h5

theorem State.capsGood_keeps {x0 x1 x2} (hx0 : Keeps c r x0) : Keeps c r (State.capsGood x0 x1 x2) := by
  unfold State.capsGood
  extract_lets +onlyGivenNames -merge -lift v0 v1 v2 v3 v4 v5 v6 v7 v8 v9 v10
  have h11 : Keeps c r v7 := State.setCp_keeps hx0
  clear_value v7
  have h12 : Keeps c r v8 := keeps_ite (P := Keeps c r) (State.rmRecord_keeps h11) h11
  clear_value v8
  have h13 : Keeps c r v9 := keeps_foldl (P := Keeps c r) (fun _ _ h14 => (State.admitFe_keeps h14)) h12
  clear_value v9
  exact State.fptChange_keeps (State.setCp_keeps h13)

theorem State.capsRefused_keeps {x0 x1 x2} (hx0 : Keeps c r x0) : Keeps c r (State.capsRefused x0 x1 x2) := by
  unfold State.capsRefused
  extract_lets +onlyGivenNames -merge -lift v0 v1
  have h2 : Keeps c r v1 := State.setCp_keeps hx0
  clear_value v1
  exact State.rmRecord_keeps (State.fptChange_keeps h2)

theorem State.cppIn_keeps {x0 x1 x2 x3 x4} (hx0 : Keeps c r x0) (hx4 : ∀ y0, Keeps c r y0 → Keeps c r (x4 y0)) :
    Keeps c r (State.cppIn x0 x1 x2 x3 x4) := by
  unfold State.cppIn
  extract_lets +onlyGivenNames -merge -lift v0
  exact (keeps_ite (P := Keeps c r) hx0 (by
    split <;> [exact (State.quarantine_keeps hx0); exact (hx4 _ (State.setCp_keeps hx0))]))

theorem State.credFault_keeps {x0 x1 x2} (hx0 : Keeps c r x0) : Keeps c r (State.credFault x0 x1 x2) := by
  unfold State.credFault
  extract_lets +onlyGivenNames -merge -lift v0 v1
  exact keeps_ite (P := Keeps c r) (State.fault_keeps hx0) hx0

theorem State.dbgDeny_keeps {x0} (hx0 : Keeps c r x0) : Keeps c r (State.dbgDeny x0) := by
  unfold State.dbgDeny
  exact keeps_mk hx0 (fun _ => rfl) rfl rfl

theorem State.discardMsg_keeps {x0 x1 x2} (hx0 : Keeps c r x0) : Keeps c r (State.discardMsg x0 x1 x2) := by
  unfold State.discardMsg
  exact State.schedLost_keeps (State.setFp_keeps hx0)

theorem State.dropMemory_keeps {x0 x1} (hx0 : Keeps c r x0) : Keeps c r (State.dropMemory x0 x1) := by
  unfold State.dropMemory
  exact (keeps_ite (P := Keeps c r)
    (Keeps.trans hx0 ⟨rfl, rfl, fun g => wf_filter _ (g), id, List.prefix_refl _, fun _ => .inl rfl,
      Nat.le_refl _, Nat.le_refl _, Nat.le_refl _, fun _ g => .inl g⟩) hx0)

theorem State.e2eReceive_keeps {x0 x1 x2} (hx0 : Keeps c r x0) (hx2 : ∀ y0, Keeps c r y0 → Keeps c r (x2 y0)) :
    Keeps c r (State.e2eReceive x0 x1 x2) := by
  unfold State.e2eReceive
  split <;> [exact (State.inject_keeps hx0); exact (hx2 _ hx0)]

theorem State.retireAll_keeps {x0 x1} (hx0 : Keeps c r x0) : Keeps c r (State.retireAll x0 x1) := by
  unfold State.retireAll
  extract_lets +onlyGivenNames -merge -lift v0
  exact keeps_ite (P := Keeps c r) (State.quarantine_keeps hx0) hx0

theorem State.feComplete_keeps {x0 x1 x2} (hx0 : Keeps c r x0) : Keeps c r (State.feComplete x0 x1 x2) := by
  unfold State.feComplete
  extract_lets +onlyGivenNames -merge -lift v0
  exact (keeps_ite (P := Keeps c r) (State.feEnd_keeps hx0)
    (keeps_ite (P := Keeps c r) (State.feEnd_keeps (State.feFault_keeps hx0))
      (State.retireAll_keeps (State.retireUnit_keeps (State.feDiscard_keeps hx0)))))

theorem State.feLines_keeps {x0 x1 x2} (hx0 : Keeps c r x0) : Keeps c r (State.feLines x0 x1 x2) := by
  unfold State.feLines
  extract_lets +onlyGivenNames -merge -lift v0
  exact (keeps_ite (P := Keeps c r) (State.quarantine_keeps hx0)
    (keeps_ite (P := Keeps c r) (by
      extract_lets +onlyGivenNames -merge -lift v1
      have h2 : Keeps c r v1 := State.cppReturn_keeps (State.setCp_keeps hx0)
      clear_value v1
      exact keeps_ite (P := Keeps c r) (State.writeAck_keeps h2) (State.readData_keeps h2))
      (State.feArrive_keeps hx0)))

theorem State.feRequest_keeps {x0 x1 x2 x3} (hx0 : Keeps c r x0) (hx3 : ∀ y0, Keeps c r y0 → Keeps c r (x3 y0)) :
    Keeps c r (State.feRequest x0 x1 x2 x3) := by
  unfold State.feRequest
  extract_lets +onlyGivenNames -merge -lift v0
  exact (keeps_ite (P := Keeps c r) (State.quarantine_keeps hx0)
    (keeps_ite (P := Keeps c r) (State.quarantine_keeps hx0) (hx3 _ hx0)))

theorem State.portTriggers_keeps {x0 x1} (hx0 : Keeps c r x0) : Keeps c r (State.portTriggers x0 x1) := by
  unfold State.portTriggers
  exact (keeps_foldl (P := Keeps c r) (fun _ _ h0 => (by
    extract_lets +onlyGivenNames -merge -lift v1
    exact keeps_ite (P := Keeps c r) (State.schedTrigger_keeps h0) h0)) hx0)

theorem State.leftActive_keeps {x0 x1 x2 x3} (hx0 : Keeps c r x0) : Keeps c r (State.leftActive x0 x1 x2 x3) := by
  unfold State.leftActive
  extract_lets +onlyGivenNames -merge -lift v0
  have h1 : Keeps c r v0 := (keeps_ite (P := Keeps c r) hx0
    (Keeps.trans hx0 ⟨rfl, rfl, id, id, List.prefix_append _ _, fun _ => .inl rfl, Nat.le_refl _, Nat.le_refl _,
      Nat.le_refl _, fun _ g => .inl g⟩))
  clear_value v0
  exact State.portTriggers_keeps (State.sageFail_keeps h1)

theorem State.portRetrain_keeps {x0 x1 x2} (hx0 : Keeps c r x0) : Keeps c r (State.portRetrain x0 x1 x2) := by
  unfold State.portRetrain
  extract_lets +onlyGivenNames -merge -lift v0
  exact keeps_ite (P := Keeps c r) hx0 (State.fptPort_keeps (State.leftActive_keeps (State.setFp_keeps hx0)))

theorem State.resend_keeps {x0 x1 x2} (hx0 : Keeps c r x0) : Keeps c r (State.resend x0 x1 x2) := by
  unfold State.resend
  extract_lets +onlyGivenNames -merge -lift v0
  exact (keeps_ite (P := Keeps c r) hx0 (by
    extract_lets +onlyGivenNames -merge -lift v1 v2
    have h3 : Keeps c r v2 := State.sageFail_keeps (State.setFp_keeps hx0)
    clear_value v2
    exact keeps_ite (P := Keeps c r) (State.portRetrain_keeps h3) h3))

theorem State.flitLink_keeps {x0 x1 x2} (hx0 : Keeps c r x0) : Keeps c r (State.flitLink x0 x1 x2) := by
  unfold State.flitLink
  extract_lets +onlyGivenNames -merge -lift v0 v1 v2 v3 v4
  have h5 : Keeps c r v4 := State.setFp_keeps hx0
  clear_value v4
  exact keeps_ite (P := Keeps c r) (State.resend_keeps h5) h5

theorem State.msgArrives_keeps {x0 x1 x2} (hx0 : Keeps c r x0) : Keeps c r (State.msgArrives x0 x1 x2) := by
  unfold State.msgArrives
  extract_lets +onlyGivenNames -merge -lift v0 v1
  have h2 : Keeps c r v1 := keeps_mk hx0 (fun _ => rfl) rfl rfl
  clear_value v1
  exact (keeps_ite (P := Keeps c r) (State.badMsg_keeps hx0)
    (keeps_ite (P := Keeps c r) (State.discardMsg_keeps hx0)
      (keeps_ite (P := Keeps c r) h2
        (keeps_ite (P := Keeps c r)
          (keeps_ite (P := Keeps c r) (State.sourceRoute_keeps hx0)
            (keeps_ite (P := Keeps c r) h2 (State.discardMsg_keeps hx0))) (by
          split <;> [exact h2; exact (State.portSend_keeps hx0)])))))

theorem State.flit_keeps {x0 x1 x2 x3} (hx0 : Keeps c r x0) : Keeps c r (State.flit x0 x1 x2 x3) := by
  unfold State.flit
  exact (keeps_ite (P := Keeps c r) (keeps_ite (P := Keeps c r) (State.flitLink_keeps hx0) hx0)
    (keeps_ite (P := Keeps c r) (State.setFp_keeps hx0)
      (keeps_ite (P := Keeps c r) (State.setFp_keeps hx0) (by
        extract_lets +onlyGivenNames -merge -lift v0
        have h1 : Keeps c r v0 := State.setFp_keeps hx0
        clear_value v0
        exact keeps_foldl (P := Keeps c r) (fun _ _ h2 => (State.msgArrives_keeps h2)) (State.flitLink_keeps h1)))))

theorem State.handUnit_keeps {x0 x1} (hx0 : Keeps c r x0) : Keeps c r (State.handUnit x0 x1) := by
  unfold State.handUnit
  split
  · extract_lets +onlyGivenNames -merge -lift v0
    exact State.modEngine_keeps (keeps_foldl (P := Keeps c r) (fun _ _ h1 => (State.saveOn_keeps h1)) hx0)
  · exact keeps_mk hx0 (fun _ => rfl) rfl rfl
  · exact hx0

theorem State.inState_keeps {x0 x1 x2 x3} (hx0 : Keeps c r x0) (hx3 : ∀ y0, Keeps c r (x3 y0)) :
    Keeps c r (State.inState x0 x1 x2 x3) := by
  unfold State.inState
  exact keeps_ite (P := Keeps c r) (hx3 _) hx0

theorem State.join_keeps {x0 x1} (hx0 : Keeps c r x0) : Keeps c r (State.join x0 x1) := by
  unfold State.join
  exact keeps_ite (P := Keeps c r) hx0 (State.reroute_keeps (keeps_mk hx0 (fun _ => rfl) rfl rfl))

theorem State.lcCommand_keeps {x0 x1 x2 x3} (hx0 : Keeps c r x0) : Keeps c r (State.lcCommand x0 x1 x2 x3) := by
  unfold State.lcCommand
  exact (keeps_ite (P := Keeps c r) hx0
    (keeps_ite (P := Keeps c r) (keeps_mk hx0 (fun _ => rfl) rfl rfl) (by
      extract_lets +onlyGivenNames -merge -lift v0 v1
      have h2 : Keeps c r v1 := keeps_mk hx0 (fun _ => rfl) rfl rfl
      clear_value v1
      exact keeps_ite (P := Keeps c r) h2 (State.afterLc_keeps (State.lcRun_keeps h2)))))

theorem State.lcSubmit_keeps {x0 x1 x2} (hx0 : Keeps c r x0) : Keeps c r (State.lcSubmit x0 x1 x2) := by
  unfold State.lcSubmit
  extract_lets +onlyGivenNames -merge -lift v0
  exact keeps_ite (P := Keeps c r) (State.lcCommand_keeps hx0) hx0

theorem State.leaveFabric_keeps {x0 x1 x2} (hx0 : Keeps c r x0) : Keeps c r (State.leaveFabric x0 x1 x2) := by
  unfold State.leaveFabric
  extract_lets +onlyGivenNames -merge -lift v0 v1 v2
  have h3 : Keeps c r v2 := keeps_mk hx0 (fun _ => rfl) rfl rfl
  clear_value v2
  exact (keeps_foldl (P := Keeps c r) (fun _ _ h4 => (by
    split
    · split
      · exact h4
      · exact (keeps_ite (P := Keeps c r) (State.completeCmd_keeps h4)
          (State.finishCmd_keeps (State.cmdFault_keeps h4)))
    · exact keeps_ite (P := Keeps c r) (State.credFault_keeps h4) h4)) h3)

theorem State.manifestIn_keeps {x0 x1 x2} (hx0 : Keeps c r x0) : Keeps c r (State.manifestIn x0 x1 x2) := by
  unfold State.manifestIn
  extract_lets +onlyGivenNames -merge -lift v0
  exact (keeps_ite (P := Keeps c r) (State.reroute_keeps (State.join_keeps (State.setFp_keeps hx0)))
    (State.reroute_keeps (State.rmRecord_keeps (State.sageFail_keeps (State.setFp_keeps hx0)))))

theorem State.portDown_keeps {x0 x1 x2} (hx0 : Keeps c r x0) : Keeps c r (State.portDown x0 x1 x2) := by
  unfold State.portDown
  extract_lets +onlyGivenNames -merge -lift v0
  exact (keeps_ite (P := Keeps c r) hx0 (by
    extract_lets +onlyGivenNames -merge -lift v1 v2 v3 v4 v5
    have h6 : Keeps c r v3 := State.setFp_keeps hx0
    clear_value v3
    have h7 : Keeps c r v4 := keeps_foldl (P := Keeps c r) (fun _ _ h8 => (State.schedLost_keeps h8)) h6
    clear_value v4
    have h9 : Keeps c r v5 := (keeps_ite (P := Keeps c r) (State.leftActive_keeps h7)
      (keeps_ite (P := Keeps c r) (State.portTriggers_keeps h7) h7))
    clear_value v5
    exact State.reroute_keeps (State.fptPort_keeps h9)))

theorem State.reqCertRead_keeps {x0 x1} (hx0 : Keeps c r x0) : Keeps c r (State.reqCertRead x0 x1) := by
  unfold State.reqCertRead
  exact (State.onLive_keeps hx0 (fun _ _ h0 =>
    (keeps_ite (P := Keeps c r) (State.reqDone_keeps h0) (State.identRun_keeps h0))))

theorem State.reqDbgKeySet_keeps {x0 x1} (hx0 : Keeps c r x0) : Keeps c r (State.reqDbgKeySet x0 x1) := by
  unfold State.reqDbgKeySet
  exact (State.onLive_keeps hx0 (fun _ _ h0 => (by
    extract_lets +onlyGivenNames -merge -lift v1
    exact (keeps_ite (P := Keeps c r) (State.reqDone_keeps h0)
      (keeps_ite (P := Keeps c r) (State.reqDone_keeps h0) (State.identRun_keeps h0))))))

theorem State.sayHello_keeps {x0 x1} (hx0 : Keeps c r x0) :
    Keeps c r (State.sayHello x0 x1) := by
  unfold State.sayHello
  have h : Keeps c r (if (x0.cp x1).recovering then
      { (x0.cppTag x1).2.setCp x1 { (x0.cppTag x1).2.cp x1 with resetTag := some (x0.cppTag x1).1 } with
        out := (x0.cppTag x1).2.out ++ [Out.cpp x1 0x0F { cppZero with tag := (x0.cppTag x1).1 }] } else x0) :=
    keeps_ite (keeps_send (State.setCp_keeps (keeps_snd (State.cppTag_keeps hx0))) _) hx0
  exact keeps_send h _

theorem State.statementsChange_keeps {x0} (hx0 : Keeps c r x0) : Keeps c r (State.statementsChange x0) := by
  unfold State.statementsChange
  exact keeps_foldl (P := Keeps c r) (fun _ _ h0 => (State.partChanged_keeps h0)) hx0

theorem State.setThyme_keeps {x0 x1} (hx0 : Keeps c r x0) (hn : c = true → x1.now = x0.thyme.now) :
    Keeps c r (State.setThyme x0 x1) := by
  unfold State.setThyme
  have h : Keeps c r { x0 with thyme := x1 } := keeps_mk hx0 hn rfl rfl
  exact keeps_ite h (State.statementsChange_keeps h)

theorem State.stmtSet_keeps {x0 x1 x2} (hx0 : Keeps c r x0) : Keeps c r (State.stmtSet x0 x1 x2) := by
  unfold State.stmtSet
  exact State.setVf_keeps hx0

theorem State.stmtRefused_keeps {x0 x1} (hx0 : Keeps c r x0) : Keeps c r (State.stmtRefused x0 x1) := by
  unfold State.stmtRefused
  exact State.raise_keeps (State.stmtSet_keeps hx0)

theorem State.switchPart_keeps {x0 x1} (hx0 : Keeps c r x0) : Keeps c r (State.switchPart x0 x1) := by
  unfold State.switchPart
  extract_lets +onlyGivenNames -merge -lift v0 v1
  exact (keeps_ite (P := Keeps c r)
    (keeps_ite (P := Keeps c r) hx0 (by
      extract_lets +onlyGivenNames -merge -lift v2 v3 v4
      have h5 : Keeps c r v2 := State.dropMemory_keeps (State.setPart_keeps hx0)
      clear_value v2
      have h6 : Keeps c r v4 := keeps_mk h5 (fun _ => rfl) rfl rfl
      clear_value v4
      exact keeps_foldl (P := Keeps c r) (fun _ _ h7 => (State.raise_keeps (State.setVf_keeps h7))) h6))
    (keeps_ite (P := Keeps c r) (by
      extract_lets +onlyGivenNames -merge -lift v8 v9 v10 v11
      have h12 : Keeps c r v9 := keeps_mk hx0 (fun _ => rfl) rfl rfl
      clear_value v9
      have h13 : Keeps c r v10 := State.dropMemory_keeps (State.setPart_keeps h12)
      clear_value v10
      have h14 : Keeps c r v11 := (keeps_foldl (P := Keeps c r) (fun _ _ h15 =>
        (State.raise_keeps (State.setVf_keeps h15))) h13)
      clear_value v11
      exact State.partChanged_keeps h14) (by
      extract_lets +onlyGivenNames -merge -lift v16 v17
      have h18 : Keeps c r v17 := State.setPart_keeps hx0
      clear_value v17
      exact keeps_ite (P := Keeps c r) h18 (State.partChanged_keeps h18))))

theorem State.switchPools_keeps {x0 x1} (hx0 : Keeps c r x0) : Keeps c r (State.switchPools x0 x1) := by
  unfold State.switchPools
  extract_lets +onlyGivenNames -merge -lift v0 v1 v2 v3 v4 v5 v6 v7 v8
  exact keeps_mk hx0 (fun _ => rfl) rfl rfl

theorem State.trimSlots_keeps {x0 x1 x2} (hx1 : Keeps c r x1) : Keeps c r (State.trimSlots x0 x1 x2) := by
  induction x0 generalizing x1 x2 with
  | zero =>
    exact hx1
  | succ n ih =>
    unfold State.trimSlots
    exact keeps_ite (P := Keeps c r) hx1 (by split <;> [exact hx1; exact (ih (State.startOut_keeps hx1))])

theorem State.switch_keeps {x0} (hx0 : Keeps c r x0) : Keeps c r (State.switch x0) := by
  unfold State.switch
  extract_lets +onlyGivenNames -merge -lift v0 v1 v2 v3 v4 v5 v6 v7 v8 v9 v10 v11
  have h12 : Keeps c r v3 := keeps_foldl (P := Keeps c r) (fun _ _ h13 => (State.switchPart_keeps h13)) hx0
  clear_value v3
  have h14 : Keeps c r v6 := State.switchPools_keeps h12
  clear_value v6
  have h15 : Keeps c r v8 := keeps_mk h14 (fun _ => rfl) rfl rfl
  clear_value v8
  have h16 : Keeps c r v9 := (keeps_foldl (P := Keeps c r) (fun _ _ h17 => (by
    split <;> [exact (State.modEngine_keeps h17); exact h17])) h15)
  clear_value v9
  have h18 : Keeps c r v10 := keeps_foldl (P := Keeps c r) (fun _ _ h19 => (State.refill_keeps h19)) h16
  clear_value v10
  have h20 : Keeps c r v11 := keeps_foldl (P := Keeps c r) (fun _ _ h21 => (State.trimSlots_keeps h21)) h18
  clear_value v11
  exact State.movePartials_keeps h20

theorem State.takeId_keeps {x0 x1} (hx0 : Keeps c r x0) : Keeps c r (State.takeId x0 x1) := by
  unfold State.takeId
  split
  · exact hx0
  · exact State.statementsChange_keeps (keeps_mk hx0 (fun _ => by split <;> rfl) rfl rfl)

theorem State.thCtrl_keeps {x0 x1} (hx0 : Keeps c r x0) : Keeps c r (State.thCtrl x0 x1) := by
  unfold State.thCtrl
  extract_lets +onlyGivenNames -merge -lift v0 v1
  exact (keeps_ite (P := Keeps c r) (State.setThyme_keeps hx0 (fun _ => rfl))
    (State.setThyme_keeps hx0 (fun _ => rfl)))

theorem State.thymeExpels_keeps {x0} (hx0 : Keeps c r x0) : Keeps c r (State.thymeExpels x0) := by
  unfold State.thymeExpels
  exact keeps_foldl (P := Keeps c r) (fun _ _ h0 => (keeps_ite (P := Keeps c r) (State.expel_keeps h0) h0)) hx0

theorem State.thymeIn_keeps {x0 x1 x2 x3} (hx0 : Keeps false r x0) :
    Keeps false r (State.thymeIn x0 x1 x2 x3) := by
  unfold State.thymeIn
  dsimp only
  have h := fun t => State.setThyme_keeps (x1 := t)
    (State.setFp_keeps (x1 := x1) (x2 := { x0.fp x1 with lastSend := x2.f10.toNat, lastRecv := x3 }) hx0) (fun e => by cases e)
  exact keeps_ite (h _) (keeps_ite (State.thymeExpels_keeps (State.setThyme_keeps (h _) (fun e => by cases e)))
    (State.setThyme_keeps (h _) (fun e => by cases e)))

theorem State.trainPort_keeps {x0 x1} (hx0 : Keeps c r x0) : Keeps c r (State.trainPort x0 x1) := by
  unfold State.trainPort
  exact keeps_ite (P := Keeps c r) (State.setFp_keeps hx0) hx0

theorem State.wRow_keeps {x0 x1 x2} (hx0 : Keeps c r x0) : Keeps c r (State.wRow x0 x1 x2) := by
  unfold State.wRow
  extract_lets +onlyGivenNames -merge -lift v0 v1
  exact (keeps_ite (P := Keeps c r) hx0 (by
    split <;> [exact (keeps_mk hx0 (fun _ => rfl) rfl rfl); exact (State.wmbEnd_keeps hx0)]))

theorem execAbortProgram_keeps {x0} (hx0 : Keeps c r x0) : KeepsX c r (execAbortProgram x0) := by
  unfold execAbortProgram
  exact keeps_next (State.work_keeps hx0 (State.wRow_keeps hx0))

theorem execAlignComplete_keeps {x0 x1 x2} (hx2 : Keeps c r x2) : KeepsX c r (execAlignComplete x0 x1 x2) := by
  unfold execAlignComplete
  exact (keeps_next
    (State.work_keeps hx2
      (State.inState_keeps hx2 (fun _ => (by
        extract_lets +onlyGivenNames -merge -lift v0 v1 v2
        exact keeps_ite (P := Keeps c r) (State.portDown_keeps hx2) (State.setFp_keeps hx2))))))

theorem execAlignFail_keeps {x0 x1} (hx1 : Keeps c r x1) : KeepsX c r (execAlignFail x0 x1) := by
  unfold execAlignFail
  exact keeps_next (State.work_keeps hx1 (State.inState_keeps hx1 (fun _ => (State.portDown_keeps hx1))))

theorem execAssignChannel_keeps {x0} (hx0 : Keeps c r x0) : KeepsX c r (execAssignChannel x0) := by
  unfold execAssignChannel
  exact keeps_next (State.work_keeps hx0 (State.wRow_keeps hx0))

theorem execAssignEngine_keeps {x0} (hx0 : Keeps c r x0) : KeepsX c r (execAssignEngine x0) := by
  unfold execAssignEngine
  exact keeps_next (State.work_keeps hx0 (State.wRow_keeps hx0))

theorem execAssignForeign_keeps {x0} (hx0 : Keeps c r x0) : KeepsX c r (execAssignForeign x0) := by
  unfold execAssignForeign
  exact keeps_next (State.work_keeps hx0 (State.wRow_keeps hx0))

theorem execAssignVf_keeps {x0} (hx0 : Keeps c r x0) : KeepsX c r (execAssignVf x0) := by
  unfold execAssignVf
  exact keeps_next (State.work_keeps hx0 (State.wRow_keeps hx0))

theorem execAssignWays_keeps {x0} (hx0 : Keeps c r x0) : KeepsX c r (execAssignWays x0) := by
  unfold execAssignWays
  exact keeps_next (State.work_keeps hx0 (State.wRow_keeps hx0))

theorem execCalibrateComplete_keeps {x0 x1 x2} (hx2 : Keeps c r x2) :
    KeepsX c r (execCalibrateComplete x0 x1 x2) := by
  unfold execCalibrateComplete
  exact (keeps_next
    (State.work_keeps hx2
      (State.inState_keeps hx2 (fun _ =>
        (keeps_ite (P := Keeps c r) hx2
          (keeps_ite (P := Keeps c r) (State.portDown_keeps hx2) (State.calibrated_keeps hx2)))))))

theorem execCapsTimeout_keeps {x0 x1} (hx1 : Keeps c r x1) : KeepsX c r (execCapsTimeout x0 x1) := by
  unfold execCapsTimeout
  exact keeps_next (State.work_keeps hx1 (keeps_ite (P := Keeps c r) (State.capsRefused_keeps hx1) hx1))

theorem execCertRead_keeps {x0 x1 x2} (hx2 : Keeps c r x2) : KeepsX c r (execCertRead x0 x1 x2) := by
  unfold execCertRead
  exact keeps_next (State.work_keeps hx2 (State.request_keeps hx2 (fun _ h0 => (State.reqCertRead_keeps h0))))

theorem execChallengeExpire_keeps {x0} (hx0 : Keeps c r x0) : KeepsX c r (execChallengeExpire x0) := by
  unfold execChallengeExpire
  exact keeps_next (State.work_keeps hx0 (keeps_mk hx0 (fun _ => rfl) rfl rfl))

theorem execChipletLinkDown_keeps {x0 x1} (hx1 : Keeps c r x1) : KeepsX c r (execChipletLinkDown x0 x1) := by
  unfold execChipletLinkDown
  exact keeps_next (State.work_keeps hx1 (State.quarantine_keeps hx1))

theorem execChipletLinkUp_keeps {x0 x1 x2 x3} (hx3 : Keeps c r x3) :
    KeepsX c r (execChipletLinkUp x0 x1 x2 x3) := by
  unfold execChipletLinkUp
  exact (keeps_next
    (State.work_keeps hx3 (by
      extract_lets +onlyGivenNames -merge -lift v0 v1
      exact (keeps_ite (P := Keeps c r) hx3
        (keeps_ite (P := Keeps c r) (State.fptChange_keeps (State.setCp_keeps hx3))
          (State.sayHello_keeps (State.setCp_keeps hx3)))))))

theorem execCommitProgram_keeps {x0} (hx0 : Keeps c r x0) : KeepsX c r (execCommitProgram x0) := by
  unfold execCommitProgram
  exact (keeps_next
    (State.work_keeps hx0 (by
      extract_lets +onlyGivenNames -merge -lift v0
      exact (keeps_ite (P := Keeps c r) hx0 (by
        extract_lets +onlyGivenNames -merge -lift v1
        exact keeps_ite (P := Keeps c r) (State.wmbEnd_keeps hx0) (keeps_mk hx0 (fun _ => rfl) rfl rfl))))))

theorem execCpRecover_keeps {x0 x1} (hx1 : Keeps c r x1) : KeepsX c r (execCpRecover x0 x1) := by
  unfold execCpRecover
  exact (keeps_next
    (State.work_keeps hx1 (by
      extract_lets +onlyGivenNames -merge -lift v0
      exact keeps_ite (P := Keeps c r) hx1 (State.setCp_keeps hx1))))

theorem execCppCaps_keeps {x0 x1 x2} (hx2 : Keeps c r x2) : KeepsX c r (execCppCaps x0 x1 x2) := by
  unfold execCppCaps
  exact (keeps_next
    (State.work_keeps hx2
      (keeps_ite (P := Keeps c r) hx2
        (keeps_ite (P := Keeps c r) (State.quarantine_keeps hx2)
          (keeps_ite (P := Keeps c r) (State.capsRefused_keeps hx2) (State.capsGood_keeps hx2))))))

theorem execCppComplete_keeps {x0 x1 x2} (hx2 : Keeps c r x2) : KeepsX c r (execCppComplete x0 x1 x2) := by
  unfold execCppComplete
  exact (keeps_next
    (State.work_keeps hx2
      (State.cppIn_keeps hx2 (fun _ h0 => (by
        extract_lets +onlyGivenNames -merge -lift v1
        exact (keeps_ite (P := Keeps c r) (State.quarantine_keeps h0)
          (State.feRequest_keeps h0 (fun _ h2 => (by
            extract_lets +onlyGivenNames -merge -lift v3 v4
            have h5 : Keeps c r v3 := State.cppReturn_keeps h2
            clear_value v3
            exact (keeps_ite (P := Keeps c r) (State.quarantine_keeps h5)
              (keeps_ite (P := Keeps c r) (State.quarantine_keeps h5)
                (keeps_ite (P := Keeps c r) (State.quarantine_keeps h5) (State.feComplete_keeps h5)))))))))))))

theorem execCppCredit_keeps {x0 x1 x2} (hx2 : Keeps c r x2) : KeepsX c r (execCppCredit x0 x1 x2) := by
  unfold execCppCredit
  exact (keeps_next
    (State.work_keeps hx2
      (State.cppIn_keeps hx2 (fun _ h0 => (by
        extract_lets +onlyGivenNames -merge -lift v1
        exact (keeps_ite (P := Keeps c r) (State.quarantine_keeps h0) (by
          extract_lets +onlyGivenNames -merge -lift v2
          exact State.cppPump_keeps (State.setCp_keeps h0))))))))

theorem execCppInvalAck_keeps {x0 x1 x2} (hx2 : Keeps c r x2) : KeepsX c r (execCppInvalAck x0 x1 x2) := by
  unfold execCppInvalAck
  exact (keeps_next
    (State.work_keeps hx2
      (State.cppIn_keeps hx2 (fun _ h0 =>
        (keeps_ite (P := Keeps c r) (State.quarantine_keeps h0) (by
          extract_lets +onlyGivenNames -merge -lift v1 v2
          have h3 : Keeps c r v1 := State.cppReturn_keeps h0
          clear_value v1
          exact keeps_ite (P := Keeps c r) (State.setCp_keeps h3) (State.quarantine_keeps h3)))))))

theorem execCppQuiesceAck_keeps {x0 x1 x2} (hx2 : Keeps c r x2) : KeepsX c r (execCppQuiesceAck x0 x1 x2) := by
  unfold execCppQuiesceAck
  exact (keeps_next
    (State.work_keeps hx2
      (State.cppIn_keeps hx2 (fun _ h0 => (by
        extract_lets +onlyGivenNames -merge -lift v1
        exact (keeps_ite (P := Keeps c r) (State.quarantine_keeps h0)
          (keeps_ite (P := Keeps c r) (State.quarantine_keeps h0)
            (keeps_ite (P := Keeps c r) (State.quarantine_keeps h0) (by
              extract_lets +onlyGivenNames -merge -lift v2 v3 v4
              have h5 : Keeps c r v2 := State.feSquash_keeps (State.cppReturn_keeps h0)
              clear_value v2
              have h6 : Keeps c r v4 := State.setFe_keeps h5
              clear_value v4
              exact State.feDiscard_keeps h6)))))))))

theorem execCppRead_keeps {x0 x1 x2} (hx2 : Keeps c r x2) : KeepsX c r (execCppRead x0 x1 x2) := by
  unfold execCppRead
  exact (keeps_next
    (State.work_keeps hx2
      (State.cppIn_keeps hx2 (fun _ h0 => (by
        extract_lets +onlyGivenNames -merge -lift v1
        exact (keeps_ite (P := Keeps c r) (State.quarantine_keeps h0)
          (State.feRequest_keeps h0 (fun _ h2 => (State.feLines_keeps h2)))))))))

theorem execCppResetAck_keeps {x0 x1 x2} (hx2 : Keeps c r x2) : KeepsX c r (execCppResetAck x0 x1 x2) := by
  unfold execCppResetAck
  exact (keeps_next
    (State.work_keeps hx2 (by
      extract_lets +onlyGivenNames -merge -lift v0
      exact (keeps_ite (P := Keeps c r) hx2
        (keeps_ite (P := Keeps c r) (State.quarantine_keeps hx2)
          (keeps_ite (P := Keeps c r) (State.quarantine_keeps hx2) (by
            extract_lets +onlyGivenNames -merge -lift v1
            have h2 : Keeps c r v1 := State.setCp_keeps hx2
            clear_value v1
            exact (keeps_foldl (P := Keeps c r) (fun _ _ h3 => (by
              extract_lets +onlyGivenNames -merge -lift v4 v5
              have h6 : Keeps c r v5 := State.feSquash_keeps h3
              clear_value v5
              exact State.feDiscard_keeps (State.setFe_keeps h6))) h2))))))))

theorem execCppSignal_keeps {x0 x1 x2} (hx2 : Keeps c r x2) : KeepsX c r (execCppSignal x0 x1 x2) := by
  unfold execCppSignal
  exact (keeps_next
    (State.work_keeps hx2
      (State.cppIn_keeps hx2 (fun _ h0 => (by
        extract_lets +onlyGivenNames -merge -lift v1
        exact (keeps_ite (P := Keeps c r) (State.quarantine_keeps h0)
          (State.feRequest_keeps h0 (fun _ h2 => (by
            extract_lets +onlyGivenNames -merge -lift v3 v4
            have h5 : Keeps c r v3 := State.cppReturn_keeps h2
            clear_value v3
            exact keeps_ite (P := Keeps c r) h5 (State.feFlush_keeps (State.setFe_keeps h5)))))))))))

theorem execCppUndefinedMessage_keeps {x0 x1} (hx1 : Keeps c r x1) :
    KeepsX c r (execCppUndefinedMessage x0 x1) := by
  unfold execCppUndefinedMessage
  exact keeps_next (State.work_keeps hx1 (keeps_ite (P := Keeps c r) (State.quarantine_keeps hx1) hx1))

theorem execCppWrite_keeps {x0 x1 x2} (hx2 : Keeps c r x2) : KeepsX c r (execCppWrite x0 x1 x2) := by
  unfold execCppWrite
  exact (keeps_next
    (State.work_keeps hx2
      (State.cppIn_keeps hx2 (fun _ h0 => (by
        extract_lets +onlyGivenNames -merge -lift v1
        exact (keeps_ite (P := Keeps c r) (State.quarantine_keeps h0)
          (State.feRequest_keeps h0 (fun _ h2 => (State.feLines_keeps h2)))))))))

theorem execCreditStallTimeout_keeps {x0 x1} (hx1 : Keeps c r x1) : KeepsX c r (execCreditStallTimeout x0 x1) := by
  unfold execCreditStallTimeout
  exact (keeps_next
    (State.work_keeps hx1 (by
      extract_lets +onlyGivenNames -merge -lift v0
      exact keeps_ite (P := Keeps c r) (State.quarantine_keeps hx1) hx1)))

theorem execDbgKeySet_keeps {x0 x1 x2} (hx2 : Keeps c r x2) : KeepsX c r (execDbgKeySet x0 x1 x2) := by
  unfold execDbgKeySet
  exact keeps_next (State.work_keeps hx2 (State.request_keeps hx2 (fun _ h0 => (State.reqDbgKeySet_keeps h0))))

theorem execDebugWindowRead_keeps {x0 x1} (hx1 : Keeps c r x1) :
    KeepsX c r (execDebugWindowRead x0 x1) := by
  unfold execDebugWindowRead
  refine keeps_next (keeps_ite hx1 ?_)
  dsimp only
  split
  · exact keeps_send hx1 _
  · exact keeps_send hx1 _
  · exact keeps_send (State.dbgDeny_keeps hx1) _

theorem execDebugWindowWrite_keeps {x0 x1 x2} (hx2 : Keeps c r x2) :
    KeepsX c r (execDebugWindowWrite x0 x1 x2) := by
  unfold execDebugWindowWrite
  exact (keeps_next
    (keeps_ite (P := Keeps c r) hx2 (by
      extract_lets +onlyGivenNames -merge -lift v0
      split
      · exact (Keeps.trans hx2 ⟨rfl, rfl, fun g => wf_mwriteN _ _ (g), id, List.prefix_refl _, fun _ => .inl rfl,
          Nat.le_refl _, Nat.le_refl _, Nat.le_refl _, fun _ g => .inl g⟩)
      · exact State.modEngine_keeps hx2
      · exact State.dbgDeny_keeps hx2)))

theorem execDetectTimeout_keeps {x0 x1} (hx1 : Keeps c r x1) : KeepsX c r (execDetectTimeout x0 x1) := by
  unfold execDetectTimeout
  exact keeps_next (State.work_keeps hx1 (State.inState_keeps hx1 (fun _ => (State.portDown_keeps hx1))))

theorem execE2eResendTimeout_keeps {x0 x1 x2} (hx2 : Keeps c r x2) :
    KeepsX c r (execE2eResendTimeout x0 x1 x2) := by
  unfold execE2eResendTimeout
  exact (keeps_next
    (State.work_keeps hx2 (by
      split
      · exact hx2
      · exact (keeps_ite (P := Keeps c r) hx2 (by
          extract_lets +onlyGivenNames -merge -lift v0
          have h1 : Keeps c r v0 := State.inject_keeps hx2
          clear_value v0
          exact keeps_mk h1 (fun _ => rfl) rfl rfl)))))

theorem execEntropyHealthFail_keeps {x0} (hx0 : Keeps c r x0) : KeepsX c r (execEntropyHealthFail x0) := by
  unfold execEntropyHealthFail
  exact keeps_next (State.work_keeps hx0 (State.sageFail_keeps (keeps_mk hx0 (fun _ => rfl) rfl rfl)))

theorem execEntropyHealthPass_keeps {x0} (hx0 : Keeps c r x0) : KeepsX c r (execEntropyHealthPass x0) := by
  unfold execEntropyHealthPass
  exact (keeps_next
    (State.work_keeps hx0 (by
      extract_lets +onlyGivenNames -merge -lift v0 v1
      have h2 : Keeps c r v1 := keeps_mk hx0 (fun _ => rfl) rfl rfl
      clear_value v1
      exact (keeps_ite (P := Keeps c r)
        (State.afterLc_keeps (State.lcGoOn_keeps (keeps_mk h2 (fun _ => rfl) rfl rfl))) h2))))

theorem execEqualiseStable_keeps {x0 x1 x2} (hx2 : Keeps c r x2) : KeepsX c r (execEqualiseStable x0 x1 x2) := by
  unfold execEqualiseStable
  exact (keeps_next
    (State.work_keeps hx2
      (State.inState_keeps hx2 (fun _ => (by
        extract_lets +onlyGivenNames -merge -lift v0
        exact keeps_ite (P := Keeps c r) (State.setFp_keeps hx2) hx2)))))

theorem execEqualiseTimeout_keeps {x0 x1} (hx1 : Keeps c r x1) : KeepsX c r (execEqualiseTimeout x0 x1) := by
  unfold execEqualiseTimeout
  exact keeps_next (State.work_keeps hx1 (State.inState_keeps hx1 (fun _ => (State.portDown_keeps hx1))))

theorem execFabIdWrite_keeps {x0 x1} (hx1 : Keeps c r x1) : KeepsX c r (execFabIdWrite x0 x1) := by
  unfold execFabIdWrite
  exact keeps_next (keeps_ite (P := Keeps c r) (State.takeId_keeps hx1) hx1)

theorem execFabricSignal_keeps {x0 x1 x2} (hx2 : Keeps c r x2) : KeepsX c r (execFabricSignal x0 x1 x2) := by
  unfold execFabricSignal
  exact (keeps_next
    (State.work_keeps hx2
      (State.receive_keeps hx2 (fun _ h0 =>
        (State.e2eReceive_keeps h0 (fun _ h1 => (by
          extract_lets +onlyGivenNames -merge -lift v2
          exact (keeps_ite (P := Keeps c r) (State.e2eAnswer_keeps (State.sendSignal_keeps h1))
            (State.e2eAnswer_keeps (State.refuseRemote_keeps h1))))))))))

theorem execFabricSignalAck_keeps {x0 x1 x2} (hx2 : Keeps c r x2) : KeepsX c r (execFabricSignalAck x0 x1 x2) := by
  unfold execFabricSignalAck
  exact (keeps_next
    (State.work_keeps hx2
      (State.receive_keeps hx2 (fun _ h0 => (by
        extract_lets +onlyGivenNames -merge -lift v1 v2 v3
        split
        · exact h0
        · exact (keeps_ite (P := Keeps c r) h0 (by
            extract_lets +onlyGivenNames -merge -lift v4
            have h5 : Keeps c r v4 := State.e2eDone_keeps h0
            clear_value v4
            split
            · exact h5
            · exact State.finishCmd_keeps (keeps_ite (P := Keeps c r) h5 (State.cmdFault_keeps h5)))))))))

theorem execFecErrorRate_keeps {x0 x1} (hx1 : Keeps c r x1) : KeepsX c r (execFecErrorRate x0 x1) := by
  unfold execFecErrorRate
  exact (keeps_next
    (State.work_keeps hx1
      (State.inState_keeps hx1 (fun _ => (by
        extract_lets +onlyGivenNames -merge -lift v0
        have h1 : Keeps2 c r v0 := State.free_keeps hx1
        clear_value v0
        exact State.portRetrain_keeps (State.setFp_keeps (keeps_snd h1)))))))

theorem execFlitReceive_keeps {x0 x1 x2} (hx2 : Keeps c r x2) : KeepsX c r (execFlitReceive x0 x1 x2) := by
  unfold execFlitReceive
  exact (keeps_next
    (State.work_keeps hx2
      (State.inState_keeps hx2 (fun _ =>
        (keeps_ite (P := Keeps c r) (State.flit_keeps hx2) (by
          extract_lets +onlyGivenNames -merge -lift v0
          exact State.flit_keeps (State.setFp_keeps hx2)))))))

theorem execFpDisable_keeps {x0 x1 x2} (hx2 : Keeps c r x2) : KeepsX c r (execFpDisable x0 x1 x2) := by
  unfold execFpDisable
  exact (keeps_next
    (keeps_ite (P := Keeps c r) (by
      extract_lets +onlyGivenNames -merge -lift v0 v1 v2
      have h3 : Keeps c r v2 := State.setFp_keeps hx2
      clear_value v2
      exact keeps_ite (P := Keeps c r) (State.portDown_keeps h3) h3) hx2))

theorem execFpTrain_keeps {x0 x1} (hx1 : Keeps c r x1) : KeepsX c r (execFpTrain x0 x1) := by
  unfold execFpTrain
  exact keeps_next (keeps_ite (P := Keeps c r) (State.trainPort_keeps hx1) hx1)

theorem execGrantExpire_keeps {x0 x1} (hx1 : Keeps c r x1) : KeepsX c r (execGrantExpire x0 x1) := by
  unfold execGrantExpire
  exact keeps_next (State.work_keeps hx1 (keeps_mk hx1 (fun _ => rfl) (by split <;> rfl) rfl))

theorem execHandoverPreemptTimeout_keeps {x0} (hx0 : Keeps c r x0) :
    KeepsX c r (execHandoverPreemptTimeout x0) := by
  unfold execHandoverPreemptTimeout
  exact (keeps_next
    (State.work_keeps hx0
      (keeps_ite (P := Keeps c r) hx0
        (keeps_foldl (P := Keeps c r) (fun _ _ h0 => (by
          split
          · exact keeps_foldl (P := Keeps c r) (fun _ _ h1 => (State.startOut_keeps h1)) h0
          · exact keeps_ite (P := Keeps c r) (State.feQuiesce_keeps h0) h0
          · exact h0)) hx0))))

theorem execHandoverSaveComplete_keeps {x0 x1} (hx1 : Keeps c r x1) :
    KeepsX c r (execHandoverSaveComplete x0 x1) := by
  unfold execHandoverSaveComplete
  exact (keeps_next
    (State.work_keeps hx1
      (keeps_ite (P := Keeps c r) hx1 (by
        extract_lets +onlyGivenNames -merge -lift v0 v1 v2 v3
        have h4 : Keeps c r v0 := State.handUnit_keeps hx1
        clear_value v0
        have h5 : Keeps c r v3 := keeps_mk h4 (fun _ => rfl) rfl rfl
        clear_value v3
        exact keeps_ite (P := Keeps c r) (State.wmbEnd_keeps h5) h5))))

theorem execHandoverSwitch_keeps {x0} (hx0 : Keeps c r x0) : KeepsX c r (execHandoverSwitch x0) := by
  unfold execHandoverSwitch
  exact (keeps_next
    (State.work_keeps hx0
      (keeps_ite (P := Keeps c r) hx0 (by
        extract_lets +onlyGivenNames -merge -lift v0
        have h1 : Keeps c r v0 := State.switch_keeps hx0
        clear_value v0
        exact keeps_ite (P := Keeps c r) (State.wmbEnd_keeps h1) h1))))

theorem execIdentExchange_keeps {x0 x1 x2} (hx2 : Keeps c r x2) : KeepsX c r (execIdentExchange x0 x1 x2) := by
  unfold execIdentExchange
  exact (keeps_next
    (State.work_keeps hx2
      (State.inState_keeps hx2 (fun _ => (by
        split
        · exact hx2
        · extract_lets +onlyGivenNames -merge -lift v0 v1 v2
          have h3 : Keeps c r v1 := (keeps_ite (P := Keeps c r) hx2 (by
            split <;> [exact (keeps_ite (P := Keeps c r) (State.takeId_keeps hx2) hx2); exact hx2]))
          clear_value v1
          exact keeps_ite (P := Keeps c r) (State.portDown_keeps h3) (State.setFp_keeps h3))))))

theorem execIdentTimeout_keeps {x0 x1} (hx1 : Keeps c r x1) : KeepsX c r (execIdentTimeout x0 x1) := by
  unfold execIdentTimeout
  exact keeps_next (State.work_keeps hx1 (State.inState_keeps hx1 (fun _ => (State.portDown_keeps hx1))))

theorem execLaneDetect_keeps {x0 x1 x2} (hx2 : Keeps c r x2) : KeepsX c r (execLaneDetect x0 x1 x2) := by
  unfold execLaneDetect
  exact (keeps_next
    (State.work_keeps hx2
      (State.inState_keeps hx2 (fun _ => (keeps_ite (P := Keeps c r) (State.setFp_keeps hx2) hx2)))))

theorem execLaneLockLoss_keeps {x0 x1 x2} (hx2 : Keeps c r x2) : KeepsX c r (execLaneLockLoss x0 x1 x2) := by
  unfold execLaneLockLoss
  exact keeps_next (State.work_keeps hx2 (keeps_ite (P := Keeps c r) (State.portRetrain_keeps hx2) hx2))

theorem execLcAttest_keeps {x0 x1} (hx1 : Keeps c r x1) : KeepsX c r (execLcAttest x0 x1) := by
  unfold execLcAttest
  exact keeps_next (State.lcCommand_keeps hx1)

theorem execLcCertWrite_keeps {x0 x1} (hx1 : Keeps c r x1) : KeepsX c r (execLcCertWrite x0 x1) := by
  unfold execLcCertWrite
  exact keeps_next (State.lcSubmit_keeps hx1)

theorem execLcChallenge_keeps {x0 x1 x2 x3} (hx3 : Keeps c r x3) : KeepsX c r (execLcChallenge x0 x1 x2 x3) := by
  unfold execLcChallenge
  exact keeps_next (State.lcCommand_keeps hx3)

theorem execLcEndGrants_keeps {x0 x1} (hx1 : Keeps c r x1) : KeepsX c r (execLcEndGrants x0 x1) := by
  unfold execLcEndGrants
  exact keeps_next (State.lcCommand_keeps hx1)

theorem execLcFinish_keeps {x0 x1} (hx1 : Keeps c r x1) : KeepsX c r (execLcFinish x0 x1) := by
  unfold execLcFinish
  exact keeps_next (State.lcSubmit_keeps hx1)

theorem execLcHubDebug_keeps {x0 x1} (hx1 : Keeps c r x1) : KeepsX c r (execLcHubDebug x0 x1) := by
  unfold execLcHubDebug
  exact keeps_next (State.lcSubmit_keeps hx1)

theorem execLcPartitionDebug_keeps {x0 x1} (hx1 : Keeps c r x1) : KeepsX c r (execLcPartitionDebug x0 x1) := by
  unfold execLcPartitionDebug
  exact keeps_next (State.lcSubmit_keeps hx1)

theorem execLcRecorderClear_keeps {x0 x1} (hx1 : Keeps c r x1) : KeepsX c r (execLcRecorderClear x0 x1) := by
  unfold execLcRecorderClear
  exact keeps_next (State.lcSubmit_keeps hx1)

theorem execLcRma_keeps {x0 x1} (hx1 : Keeps c r x1) : KeepsX c r (execLcRma x0 x1) := by
  unfold execLcRma
  exact keeps_next (State.lcSubmit_keeps hx1)

theorem execLcTest_keeps {x0 x1} (hx1 : Keeps c r x1) : KeepsX c r (execLcTest x0 x1) := by
  unfold execLcTest
  exact keeps_next (State.lcSubmit_keeps hx1)

theorem execLcTransition_keeps {x0 x1} (hx1 : Keeps c r x1) : KeepsX c r (execLcTransition x0 x1) := by
  unfold execLcTransition
  exact keeps_next (State.lcSubmit_keeps hx1)

theorem execLcUnknownOp_keeps {x0 x1 x2} (hx2 : Keeps c r x2) : KeepsX c r (execLcUnknownOp x0 x1 x2) := by
  unfold execLcUnknownOp
  exact keeps_next (keeps_ite (P := Keeps c r) hx2 (State.lcCommand_keeps hx2))

theorem execLinkNote_keeps {x0 x1 x2} (hx2 : Keeps c r x2) : KeepsX c r (execLinkNote x0 x1 x2) := by
  unfold execLinkNote
  exact (keeps_next
    (State.work_keeps hx2
      (keeps_ite (P := Keeps c r) hx2 (by
        extract_lets +onlyGivenNames -merge -lift v0 v1
        have h2 : Keeps c r v0 := State.takeInbox_keeps hx2
        clear_value v0
        exact (keeps_ite (P := Keeps c r) (State.portRetrain_keeps h2)
          (keeps_ite (P := Keeps c r) (State.portDown_keeps h2) h2))))))

theorem execManifest_keeps {x0 x1 x2} (hx2 : Keeps c r x2) : KeepsX c r (execManifest x0 x1 x2) := by
  unfold execManifest
  exact (keeps_next
    (State.work_keeps hx2
      (State.inState_keeps hx2 (fun _ =>
        (keeps_ite (P := Keeps c r) hx2
          (keeps_ite (P := Keeps c r) (by
            extract_lets +onlyGivenNames -merge -lift v0
            have h1 : Keeps c r v0 := State.takeInbox_keeps hx2
            clear_value v0
            exact keeps_mk h1 (fun _ => rfl) rfl rfl) (State.manifestIn_keeps (State.takeInbox_keeps hx2))))))))

theorem execNoEntropyTimeout_keeps {x0} (hx0 : Keeps c r x0) : KeepsX c r (execNoEntropyTimeout x0) := by
  unfold execNoEntropyTimeout
  exact (keeps_next
    (State.work_keeps hx0 (keeps_ite (P := Keeps c r) (State.afterLc_keeps (State.lcDone_keeps hx0)) hx0)))

theorem execNoRouteTimeout_keeps {x0 x1} (hx1 : Keeps c r x1) : KeepsX c r (execNoRouteTimeout x0 x1) := by
  unfold execNoRouteTimeout
  exact (keeps_next
    (State.work_keeps hx1 (by
      extract_lets +onlyGivenNames -merge -lift v0 v1
      exact (keeps_ite (P := Keeps c r) hx1
        (State.leaveFabric_keeps (keeps_foldl (P := Keeps c r) (fun _ _ h2 => (State.expel_keeps h2)) hx1))))))

theorem execOfpUndefinedMessage_keeps {x0 x1} (hx1 : Keeps c r x1) :
    KeepsX c r (execOfpUndefinedMessage x0 x1) := by
  unfold execOfpUndefinedMessage
  exact keeps_next (State.work_keeps hx1 (keeps_ite (P := Keeps c r) (State.badMsg_keeps hx1) hx1))

theorem execPartClose_keeps {x0} (hx0 : Keeps c r x0) : KeepsX c r (execPartClose x0) := by
  unfold execPartClose
  exact keeps_next (State.work_keeps hx0 (State.wRow_keeps hx0))

theorem execPartOpen_keeps {x0} (hx0 : Keeps c r x0) : KeepsX c r (execPartOpen x0) := by
  unfold execPartOpen
  exact keeps_next (State.work_keeps hx0 (State.wRow_keeps hx0))

theorem execPartialAbandon_keeps {x0 x1 x2} (hx2 : Keeps c r x2) : KeepsX c r (execPartialAbandon x0 x1 x2) := by
  unfold execPartialAbandon
  exact (keeps_next
    (State.work_keeps hx2 (by
      split
      · exact hx2
      · exact keeps_ite (P := Keeps c r) hx2 (State.credFault_keeps (State.e2eDone_keeps hx2)))))

theorem execPartialAck_keeps {x0 x1 x2} (hx2 : Keeps c r x2) : KeepsX c r (execPartialAck x0 x1 x2) := by
  unfold execPartialAck
  exact (keeps_next
    (State.work_keeps hx2
      (State.receive_keeps hx2 (fun _ h0 => (by
        extract_lets +onlyGivenNames -merge -lift v1 v2 v3
        split
        · exact h0
        · exact (keeps_ite (P := Keeps c r) h0
            (keeps_ite (P := Keeps c r) (by
              extract_lets +onlyGivenNames -merge -lift v4
              have h5 : Keeps c r v4 := State.e2eDone_keeps h0
              clear_value v4
              split <;> [exact h5; exact (State.e2eSend_keeps h5)])
              (keeps_ite (P := Keeps c r) (State.credFault_keeps (State.e2eDone_keeps h0))
                (keeps_ite (P := Keeps c r) (State.e2eRelease_keeps (keeps_mk h0 (fun _ => rfl) rfl rfl)) h0)))))))))

theorem execPartialMsg_keeps {x0 x1 x2} (hx2 : Keeps c r x2) : KeepsX c r (execPartialMsg x0 x1 x2) := by
  unfold execPartialMsg
  exact (keeps_next
    (State.work_keeps hx2
      (State.receive_keeps hx2 (fun _ h0 =>
        (keeps_ite (P := Keeps c r) (keeps_fst (State.partialArrive_keeps h0))
          (State.e2eReceive_keeps h0 (fun _ h1 => (by
            extract_lets +onlyGivenNames -merge -lift v2
            have h3 : Keeps1 c r v2 := State.partialArrive_keeps h1
            clear_value v2
            exact State.e2eAnswer_keeps (keeps_fst h3)))))))))

theorem execPartialRetryResend_keeps {x0 x1 x2} (hx2 : Keeps c r x2) :
    KeepsX c r (execPartialRetryResend x0 x1 x2) := by
  unfold execPartialRetryResend
  exact (keeps_next
    (State.work_keeps hx2 (by
      split
      · exact hx2
      · exact keeps_ite (P := Keeps c r) hx2 (State.e2eSend_keeps (keeps_mk hx2 (fun _ => rfl) rfl rfl)))))

theorem execQuiesceTimeout_keeps {x0 x1 x2} (hx2 : Keeps c r x2) : KeepsX c r (execQuiesceTimeout x0 x1 x2) := by
  unfold execQuiesceTimeout
  exact keeps_next (State.work_keeps hx2 (keeps_ite (P := Keeps c r) (State.quarantine_keeps hx2) hx2))

theorem execReadDataSend_keeps {x0 x1 x2} (hx2 : Keeps c r x2) : KeepsX c r (execReadDataSend x0 x1 x2) := by
  unfold execReadDataSend
  exact (keeps_next
    (State.work_keeps hx2 (by
      extract_lets +onlyGivenNames -merge -lift v0
      split <;> [exact (keeps_ite (P := Keeps c r) (State.readData_keeps hx2) hx2); exact hx2])))

theorem execReplayTimeout_keeps {x0 x1} (hx1 : Keeps c r x1) : KeepsX c r (execReplayTimeout x0 x1) := by
  unfold execReplayTimeout
  exact keeps_next (State.work_keeps hx1 (State.inState_keeps hx1 (fun _ => (State.resend_keeps hx1))))

theorem execResetTimeout_keeps {x0 x1} (hx1 : Keeps c r x1) : KeepsX c r (execResetTimeout x0 x1) := by
  unfold execResetTimeout
  exact keeps_next (State.work_keeps hx1 (keeps_ite (P := Keeps c r) (State.quarantine_keeps hx1) hx1))

theorem execSeal_keeps {x0} (hx0 : Keeps c r x0) : KeepsX c r (execSeal x0) := by
  unfold execSeal
  exact keeps_next (State.work_keeps hx0 (State.wRow_keeps hx0))

theorem execSetContexts_keeps {x0} (hx0 : Keeps c r x0) : KeepsX c r (execSetContexts x0) := by
  unfold execSetContexts
  exact keeps_next (State.work_keeps hx0 (State.wRow_keeps hx0))

theorem execSetIsolation_keeps {x0} (hx0 : Keeps c r x0) : KeepsX c r (execSetIsolation x0) := by
  unfold execSetIsolation
  exact keeps_next (State.work_keeps hx0 (State.wRow_keeps hx0))

theorem execSetMode_keeps {x0} (hx0 : Keeps c r x0) : KeepsX c r (execSetMode x0) := by
  unfold execSetMode
  exact keeps_next (State.work_keeps hx0 (State.wRow_keeps hx0))

theorem execSetPower_keeps {x0} (hx0 : Keeps c r x0) : KeepsX c r (execSetPower x0) := by
  unfold execSetPower
  exact keeps_next (State.work_keeps hx0 (State.wRow_keeps hx0))

theorem execSetReserve_keeps {x0} (hx0 : Keeps c r x0) : KeepsX c r (execSetReserve x0) := by
  unfold execSetReserve
  exact keeps_next (State.work_keeps hx0 (State.wRow_keeps hx0))

theorem execSetShare_keeps {x0} (hx0 : Keeps c r x0) : KeepsX c r (execSetShare x0) := by
  unfold execSetShare
  exact keeps_next (State.work_keeps hx0 (State.wRow_keeps hx0))

theorem execStmtIssue_keeps {x0} (hx0 : Keeps c r x0) : KeepsX c r (execStmtIssue x0) := by
  unfold execStmtIssue
  exact (keeps_next
    (State.work_keeps hx0
      (keeps_ite (P := Keeps c r) hx0 (by
        split
        · exact hx0
        · extract_lets +onlyGivenNames -merge -lift v0 v1
          have h2 : Keeps c r v1 := keeps_mk hx0 (fun _ => rfl) rfl rfl
          clear_value v1
          split
          · extract_lets +onlyGivenNames -merge -lift v3 v4
            exact State.raise_keeps (State.stmtSet_keeps h2)
          · exact State.stmtRefused_keeps h2))))

theorem execStmtRequest_keeps {x0 x1 x2} (hx2 : Keeps c r x2) : KeepsX c r (execStmtRequest x0 x1 x2) := by
  unfold execStmtRequest
  exact (keeps_next
    (keeps_ite (P := Keeps c r) hx2 (by
      extract_lets +onlyGivenNames -merge -lift v0 v1
      have h2 : Keeps c r v1 := State.stmtSet_keeps hx2
      clear_value v1
      exact (keeps_ite (P := Keeps c r) h2
        (keeps_ite (P := Keeps c r) (State.stmtSet_keeps h2)
          (keeps_ite (P := Keeps c r) (State.stmtRefused_keeps h2) (by
            extract_lets +onlyGivenNames -merge -lift v3
            have h4 : Keeps c r v3 := State.stmtSet_keeps h2
            clear_value v3
            exact keeps_mk h4 (fun _ => rfl) rfl rfl)))))))

theorem execThymeHoldoverTick_keeps {x0} (hx0 : Keeps c r x0) : KeepsX c r (execThymeHoldoverTick x0) := by
  unfold execThymeHoldoverTick
  exact (keeps_next
    (State.work_keeps hx0 (keeps_ite (P := Keeps c r) (State.setThyme_keeps hx0 (fun _ => rfl)) hx0)))

theorem execThymeMsg_keeps {x0 x1 x2 x3} (hx3 : Keeps false r x3) :
    KeepsX false r (execThymeMsg x0 x1 x2 x3) := by
  unfold execThymeMsg
  exact keeps_next (State.work_keeps hx3 (State.inState_keeps hx3 fun _ => keeps_ite hx3
    (State.thymeIn_keeps (State.takeInbox_keeps hx3))))

theorem execThymeParentTimeout_keeps {x0 x1 x2} (hx2 : Keeps c r x2) :
    KeepsX c r (execThymeParentTimeout x0 x1 x2) := by
  unfold execThymeParentTimeout
  exact (keeps_next
    (State.work_keeps hx2 (by
      extract_lets +onlyGivenNames -merge -lift v0
      exact (keeps_ite (P := Keeps c r) hx2 (by
        extract_lets +onlyGivenNames -merge -lift v1
        exact State.setThyme_keeps hx2 (fun _ => rfl))))))

theorem execThymeRootTimeout_keeps {x0 x1} (hx1 : Keeps c r x1) : KeepsX c r (execThymeRootTimeout x0 x1) := by
  unfold execThymeRootTimeout
  exact (keeps_next
    (State.work_keeps hx1 (by
      extract_lets +onlyGivenNames -merge -lift v0
      exact (keeps_ite (P := Keeps c r) hx1 (by
        extract_lets +onlyGivenNames -merge -lift v1 v2
        split
        · exact State.setThyme_keeps hx1 (fun _ => rfl)
        · exact (keeps_ite (P := Keeps c r) (State.setThyme_keeps hx1 (fun _ => rfl))
            (State.setThyme_keeps hx1 (fun _ => rfl))))))))

theorem execThymeSendTick_keeps {x0} (hx0 : Keeps c r x0) : KeepsX c r (execThymeSendTick x0) := by
  unfold execThymeSendTick
  exact (keeps_next
    (State.work_keeps hx0
      (keeps_foldl (P := Keeps c r) (fun _ _ h0 => (keeps_ite (P := Keeps c r) (State.portSend_keeps h0) h0)) hx0)))

theorem execThymeStateTimer_keeps {x0} (hx0 : Keeps c r x0) : KeepsX c r (execThymeStateTimer x0) := by
  unfold execThymeStateTimer
  exact (keeps_next
    (State.work_keeps hx0 (by
      extract_lets +onlyGivenNames -merge -lift v0
      exact (keeps_ite (P := Keeps c r) (State.setThyme_keeps hx0 (fun _ => rfl))
        (keeps_ite (P := Keeps c r) (State.thymeExpels_keeps (State.setThyme_keeps hx0 (fun _ => rfl))) hx0)))))

theorem execTrainTimeout_keeps {x0 x1} (hx1 : Keeps c r x1) : KeepsX c r (execTrainTimeout x0 x1) := by
  unfold execTrainTimeout
  exact keeps_next (State.work_keeps hx1 (keeps_ite (P := Keeps c r) (State.portDown_keeps hx1) hx1))

theorem execWmbSubmit_keeps {x0 x1} (hx1 : Keeps c r x1) : KeepsX c r (execWmbSubmit x0 x1) := by
  unfold execWmbSubmit
  exact (keeps_next
    (keeps_ite (P := Keeps c r) hx1
      (keeps_ite (P := Keeps c r) (keeps_mk hx1 (fun _ => rfl) rfl rfl) (by
        extract_lets +onlyGivenNames -merge -lift v0 v1 v2
        have h3 : Keeps c r v2 := keeps_mk hx1 (fun _ => rfl) rfl rfl
        clear_value v2
        exact (keeps_ite (P := Keeps c r) (State.wmbEnd_keeps h3)
          (keeps_ite (P := Keeps c r) (State.wmbEnd_keeps h3) (by
            extract_lets +onlyGivenNames -merge -lift v4 v5
            have h6 : Keeps c r v5 := keeps_mk h3 (fun _ => rfl) rfl rfl
            clear_value v5
            exact keeps_ite (P := Keeps c r) h6 (State.wmbScan_keeps h6))))))))

theorem execWmsg_keeps {x0 x1 x2} (hx2 : Keeps c r x2) : KeepsX c r (execWmsg x0 x1 x2) := by
  unfold execWmsg
  exact (keeps_next
    (State.work_keeps hx2
      (State.receive_keeps hx2 (fun _ h0 => (keeps_ite (P := Keeps c r) (State.join_keeps h0) h0)))))

end Sys2Proof.Machine
end

