-- ==== Sys2Proof/Laws/KeepsHub.lean ====
section
/-! SUPPORT. What the resets, Sage, the endpoint, the registers, power and bring-up keep. -/

namespace Sys2Proof.Machine

variable {c : Bool} {r : State}

theorem Sage.capture_keeps (g : Sage) (m : SageMsg) : (g.capture m).safe = g.safe := by
  unfold Sage.capture
  split <;> rfl

theorem Sage.place_keeps (g : Sage) (m : SageMsg) (f : Bool) : (g.place m f).safe = g.safe := by
  unfold Sage.place
  dsimp only
  repeat' split
  all_goals rfl

theorem State.addEnergy_keeps {x0 x1 x2} (hx0 : Keeps c r x0) : Keeps c r (State.addEnergy x0 x1 x2) := by
  unfold State.addEnergy
  extract_lets +onlyGivenNames -merge -lift v0 v1 v2
  have h3 : Keeps c r v0 := State.modEngine_keeps hx0
  clear_value v0
  exact keeps_foldl (P := Keeps c r) (fun _ _ h4 => (State.modCtx_keeps h4)) h3

theorem State.cppReset_keeps {x0 x1} (hx0 : Keeps c r x0) : Keeps c r (State.cppReset x0 x1) := by
  unfold State.cppReset
  exact (keeps_ite (P := Keeps c r) hx0 (by
    split
    · rename_i v0 v1 eh1
      have h1 := keeps_eq2 eh1 (State.cppTag_keeps hx0)
      exact State.cppSend_keeps (State.setCp_keeps h1)))

theorem State.blockReset_keeps {x0 x1} (hx0 : Keeps c r x0) : Keeps c r (State.blockReset x0 x1) := by
  unfold State.blockReset
  exact (keeps_ite (P := Keeps c r) (State.failOn_keeps hx0)
    (keeps_ite (P := Keeps c r) (State.portRetrain_keeps hx0)
      (keeps_ite (P := Keeps c r) (State.cppReset_keeps hx0) hx0)))

theorem State.hubReset_keeps {x0 x1} (hx0 : Keeps c r x0) : Keeps c r (State.hubReset x0 x1) :=
  hx0.trans ⟨rfl, rfl, fun _ => rfl, id, List.prefix_refl _, fun _ => .inr rfl, Nat.le_refl _, Nat.le_refl _, Nat.le_refl _,
    fun _ _ => .inr rfl⟩

theorem State.released_keeps {x0} (hx0 : Keeps c r x0) : Keeps c r (State.released x0) := by
  unfold State.released
  exact (Keeps.trans hx0 ⟨rfl, rfl, id, id, List.prefix_refl _, fun _ => .inl rfl, Nat.le_add_right _ _,
    Nat.le_refl _, Nat.le_refl _, fun _ g => .inl g⟩)

theorem State.selfReset_keeps {x0} (hx0 : Keeps c r x0) : Keeps c r (State.selfReset x0) := by
  unfold State.selfReset
  exact State.released_keeps (State.hubReset_keeps hx0)

theorem State.reactTo_keeps {x0 x1 x2} (hx0 : Keeps c r x0) : Keeps c r (State.reactTo x0 x1 x2) := by
  unfold State.reactTo
  extract_lets +onlyGivenNames -merge -lift v0 v1 v2 v3 v4 v5
  have h6 : Keeps c r v0 := keeps_ite (P := Keeps c r) (State.raise_keeps hx0) hx0
  clear_value v0
  have h7 : Keeps c r v2 := keeps_ite (P := Keeps c r) (keeps_mk h6 (fun _ => rfl) rfl rfl) h6
  clear_value v2
  have h8 : Keeps c r v3 := keeps_ite (P := Keeps c r) (State.blockReset_keeps h7) h7
  clear_value v3
  have h9 : Keeps c r v5 := keeps_ite (P := Keeps c r) (keeps_mk h8 (fun _ => rfl) rfl rfl) h8
  clear_value v5
  exact keeps_ite (P := Keeps c r) (State.selfReset_keeps h9) h9

theorem State.recordSevere_keeps {x0 x1} (hx0 : Keeps c r x0) : Keeps c r (State.recordSevere x0 x1) := by
  unfold State.recordSevere
  exact State.rmRecord_keeps hx0

theorem State.retireAny_keeps {x0 x1 x2 x3} (hx0 : Keeps c r x0) : Keeps c r (State.retireAny x0 x1 x2 x3) := by
  unfold State.retireAny
  split
  · exact State.retireUnit_keeps (State.portDown_keeps hx0)
  · exact State.retireUnit_keeps (State.retireAll_keeps hx0)
  · exact State.retireUnit_keeps hx0

theorem State.setSrcCfg_keeps {x0 x1 x2} (hx0 : Keeps c r x0) : Keeps c r (State.setSrcCfg x0 x1 x2) := by
  unfold State.setSrcCfg
  exact keeps_mk hx0 (fun _ => rfl) rfl rfl

theorem State.classify_keeps {x0 x1 x2} (hx0 : Keeps c r x0) : Keeps c r (State.classify x0 x1 x2) := by
  unfold State.classify
  extract_lets +onlyGivenNames -merge -lift v0 v1 v2 v3 v4 v5 v6 v7 v8
  have h9 : Keeps c r v6 := State.setSrcCfg_keeps hx0
  clear_value v6
  have h10 : Keeps c r v7 := keeps_ite (P := Keeps c r) (State.recordSevere_keeps h9) h9
  clear_value v7
  have h11 : Keeps c r v8 := (by
    unfold v8
    clear_value v5
    split <;> [exact (State.retireAny_keeps h10); exact h10])
  clear_value v8
  exact State.reactTo_keeps h11

theorem State.clocked_keeps {x0} (hx0 : Keeps c r x0) : Keeps c r (State.clocked x0) := by
  unfold State.clocked
  extract_lets +onlyGivenNames -merge -lift v0 v1
  exact keeps_mk hx0 (fun _ => rfl) rfl rfl

theorem State.disagree_keeps {x0 x1 x2} (hx0 : Keeps c r x0) : Keeps c r (State.disagree x0 x1 x2) := by
  unfold State.disagree
  extract_lets +onlyGivenNames -merge -lift v0 v1 v2
  exact keeps_ite (P := Keeps c r) hx0 (State.rmRecord_keeps hx0)

theorem State.flrBegin_keeps {x0 x1} (hx0 : Keeps c r x0) : Keeps c r (State.flrBegin x0 x1) := by
  unfold State.flrBegin
  exact (keeps_ite (P := Keeps c r) hx0 (by
    extract_lets +onlyGivenNames -merge -lift v0 v1
    have h2 : Keeps c r v1 := State.setVf_keeps hx0
    clear_value v1
    exact keeps_foldl (P := Keeps c r) (fun _ _ h3 => (State.startAbort_keeps h3)) h2))

theorem State.holdLost_keeps {x0 x1} (hx0 : Keeps c r x0) : Keeps c r (State.holdLost x0 x1) := by
  unfold State.holdLost
  exact (keeps_ite (P := Keeps c r) hx0 (by
    extract_lets +onlyGivenNames -merge -lift v0 v1
    have h2 : Keeps c r v0 := State.modCtx_keeps hx0
    clear_value v0
    have h3 : Keeps c r v1 := State.startOut_keeps h2
    clear_value v1
    exact (keeps_foldl (P := Keeps c r) (fun _ _ h4 => (by
      extract_lets +onlyGivenNames -merge -lift v5
      exact (keeps_ite (P := Keeps c r) h4
        (keeps_ite (P := Keeps c r) (State.expel_keeps h4) (State.setSched_keeps h4))))) h3)))

theorem State.hostCacheClear_keeps {x0} (hx0 : Keeps c r x0) : Keeps c r (State.hostCacheClear x0) := by
  unfold State.hostCacheClear
  exact keeps_mk hx0 (fun _ => rfl) rfl rfl

theorem State.hostDown_keeps {x0} (hx0 : Keeps c r x0) : Keeps c r (State.hostDown x0) := by
  unfold State.hostDown
  extract_lets +onlyGivenNames -merge -lift v0 v1
  have h2 : Keeps c r v1 := keeps_foldl (P := Keeps c r) (fun _ _ h3 => (State.failLaunch_keeps h3)) hx0
  clear_value v1
  exact keeps_mk h2 (fun _ => rfl) rfl rfl

theorem State.hostResume_keeps {x0} (hx0 : Keeps c r x0) : Keeps c r (State.hostResume x0) := by
  unfold State.hostResume
  exact (keeps_foldl (P := Keeps c r) (fun _ _ h0 =>
    (keeps_foldl (P := Keeps c r) (fun _ _ h1 => (keeps_ite (P := Keeps c r) h1 (State.segResolve_keeps h1))) h0))
    hx0)

theorem State.lostAtRest_keeps {x0 x1 x2 x3 x4} (hx0 : Keeps c r x0) :
    Keeps c r (State.lostAtRest x0 x1 x2 x3 x4) := by
  unfold State.lostAtRest
  extract_lets +onlyGivenNames -merge -lift v0
  have h1 : Keeps c r v0 := State.rmRecord_keeps (State.sageSend_keeps hx0)
  clear_value v0
  exact keeps_foldl (P := Keeps c r) (fun _ _ h2 => (State.holdLost_keeps h2)) h1

theorem State.lostMemory_keeps {x0 x1 x2} (hx0 : Keeps c r x0) : Keeps c r (State.lostMemory x0 x1 x2) := by
  unfold State.lostMemory
  extract_lets +onlyGivenNames -merge -lift v0 v1 v2 v3
  have h4 : Keeps c r v3 := keeps_mk hx0 (fun _ => rfl) rfl rfl
  clear_value v3
  exact State.lostAtRest_keeps h4

theorem State.missqBase_keeps {x0 x1 x2} (hx0 : Keeps c r x0) : Keeps c r (State.missqBase x0 x1 x2) := by
  unfold State.missqBase
  extract_lets +onlyGivenNames -merge -lift v0
  exact keeps_ite (P := Keeps c r) hx0 (State.setMissq_keeps hx0)

theorem State.moveTo_keeps {x0 x1 x2 x3} (hx0 : Keeps c r x0) : Keeps c r (State.moveTo x0 x1 x2 x3) := by
  unfold State.moveTo
  extract_lets +onlyGivenNames -merge -lift v0 v1
  have h2 : Keeps c r v1 := State.modEngine_keeps hx0
  clear_value v1
  exact (keeps_ite (P := Keeps c r) h2 (by
    extract_lets +onlyGivenNames -merge -lift v3
    exact keeps_ite (P := Keeps c r) h2 (State.setPoint_keeps h2)))

theorem State.setInts_keeps {x0 x1 x2} (hx0 : Keeps c r x0) : Keeps c r (State.setInts x0 x1 x2) := by
  unfold State.setInts
  split <;> [exact (keeps_mk hx0 (fun _ => rfl) rfl rfl); exact (State.setVf_keeps hx0)]

theorem State.unmask_keeps {x0 x1 x2} (hx0 : Keeps c r x0) : Keeps c r (State.unmask x0 x1 x2) := by
  unfold State.unmask
  extract_lets +onlyGivenNames -merge -lift v0 v1 v2
  have h3 : Keeps c r v2 := State.setInts_keeps hx0
  clear_value v2
  exact (keeps_ite (P := Keeps c r)
    (Keeps.trans h3 ⟨rfl, rfl, id, id, List.prefix_append _ _, fun _ => .inl rfl, Nat.le_refl _, Nat.le_refl _,
      Nat.le_refl _, fun _ g => .inl g⟩) h3)

theorem State.msixWrite_keeps {x0 x1 x2 x3} (hx0 : Keeps c r x0) : Keeps c r (State.msixWrite x0 x1 x2 x3) := by
  unfold State.msixWrite
  extract_lets +onlyGivenNames -merge -lift v0 v1 v2
  exact (keeps_ite (P := Keeps c r) (State.setInts_keeps hx0)
    (keeps_ite (P := Keeps c r) (State.setInts_keeps hx0)
      (keeps_ite (P := Keeps c r) (State.setInts_keeps hx0)
        (keeps_ite (P := Keeps c r) (State.setInts_keeps hx0)
          (keeps_ite (P := Keeps c r) (State.unmask_keeps hx0) (State.setInts_keeps hx0))))))

theorem State.msixTable_keeps {x0 x1 x2 x3 x4} (hx0 : Keeps c r x0) :
    Keeps c r (State.msixTable x0 x1 x2 x3 x4) := by
  unfold State.msixTable
  exact (keeps_ite (P := Keeps c r) hx0
    (keeps_ite (P := Keeps c r) (State.msixWrite_keeps hx0) (State.msixWrite_keeps (State.msixWrite_keeps hx0))))

theorem State.objReg_keeps {x0 x1 x2 x3 x4} (hx0 : Keeps c r x0) : Keeps c r (State.objReg x0 x1 x2 x3 x4) := by
  unfold State.objReg
  extract_lets +onlyGivenNames -merge -lift v0
  exact (keeps_ite (P := Keeps c r) (State.setBlock_keeps hx0)
    (keeps_ite (P := Keeps c r) (State.setBlock_keeps hx0)
      (keeps_ite (P := Keeps c r) (State.setBlock_keeps hx0)
        (keeps_ite (P := Keeps c r) (State.setBlock_keeps hx0) hx0))))

theorem State.onBoot_keeps {x0 x1 x2} (hx0 : Keeps c r x0) (hx2 : ∀ y0 y1, Keeps c r (x2 y0 y1)) :
    Keeps c r (State.onBoot x0 x1 x2) := by
  unfold State.onBoot
  split <;> [exact (keeps_ite (P := Keeps c r) (hx2 _ _) hx0); exact hx0]

theorem State.pfClear_keeps {x0} (hx0 : Keeps c r x0) : Keeps c r (State.pfClear x0) := by
  unfold State.pfClear
  extract_lets +onlyGivenNames -merge -lift v0 v1
  have h2 : Keeps c r v1 := keeps_foldl (P := Keeps c r) (fun _ _ h3 => (State.setVf_keeps h3)) hx0
  clear_value v1
  exact keeps_mk h2 (fun _ => rfl) rfl rfl

theorem State.sxReg_keeps {x0 x1 x2 x3 x4} (hx0 : Keeps c r x0) : Keeps c r (State.sxReg x0 x1 x2 x3 x4) := by
  unfold State.sxReg
  extract_lets +onlyGivenNames -merge -lift v0
  exact (keeps_ite (P := Keeps c r) (State.setSched_keeps hx0)
    (keeps_ite (P := Keeps c r) (State.setSched_keeps hx0)
      (keeps_ite (P := Keeps c r) (State.setSched_keeps hx0) hx0)))

theorem State.pfFwReg_keeps {x0 x1 x2 x3} (hx0 : Keeps c r x0) : Keeps c r (State.pfFwReg x0 x1 x2 x3) := by
  unfold State.pfFwReg
  extract_lets +onlyGivenNames -merge -lift v0
  exact (keeps_ite (P := Keeps c r) (keeps_mk hx0 (fun _ => rfl) rfl rfl)
    (keeps_ite (P := Keeps c r) (keeps_ite (P := Keeps c r) hx0 (keeps_mk hx0 (fun _ => rfl) rfl rfl))
      (keeps_ite (P := Keeps c r) (by
        extract_lets +onlyGivenNames -merge -lift v1 v2
        exact keeps_ite (P := Keeps c r) hx0 (State.partChanged_keeps (State.setPart_keeps hx0)))
        (keeps_ite (P := Keeps c r) (State.sxReg_keeps hx0)
          (keeps_ite (P := Keeps c r) (State.objReg_keeps hx0)
            (keeps_ite (P := Keeps c r) (keeps_mk hx0 (fun _ => rfl) rfl rfl)
              (keeps_ite (P := Keeps c r) (State.missqBase_keeps hx0) hx0)))))))

theorem State.pfReg_keeps {x0 x1 x2 x3} (hx0 : Keeps c r x0) : Keeps c r (State.pfReg x0 x1 x2 x3) := by
  unfold State.pfReg
  extract_lets +onlyGivenNames -merge -lift v0 v1
  exact (keeps_ite (P := Keeps c r) (keeps_mk hx0 (fun _ => rfl) rfl rfl)
    (keeps_ite (P := Keeps c r) (keeps_mk hx0 (fun _ => rfl) rfl rfl)
      (keeps_ite (P := Keeps c r) (keeps_mk hx0 (fun _ => rfl) rfl rfl)
        (keeps_ite (P := Keeps c r) (keeps_mk hx0 (fun _ => rfl) rfl rfl)
          (keeps_ite (P := Keeps c r) (State.thCtrl_keeps hx0)
            (keeps_ite (P := Keeps c r) (keeps_mk hx0 (fun _ => rfl) rfl rfl)
              (keeps_ite (P := Keeps c r) (keeps_mk hx0 (fun _ => rfl) rfl rfl)
                (keeps_ite (P := Keeps c r) (keeps_mk hx0 (fun _ => rfl) rfl rfl)
                  (keeps_ite (P := Keeps c r) (keeps_mk hx0 (fun _ => rfl) rfl rfl)
                    (keeps_ite (P := Keeps c r) (by
                      extract_lets +onlyGivenNames -merge -lift v2
                      exact State.setCp_keeps hx0)
                      (keeps_ite (P := Keeps c r) (State.pfFwReg_keeps hx0) hx0)))))))))))

theorem State.pooledPoint_keeps {x0 x1 x2 x3} (hx0 : Keeps c r x0) : Keeps c r (State.pooledPoint x0 x1 x2 x3) := by
  unfold State.pooledPoint
  extract_lets +onlyGivenNames -merge -lift v0 v1 v2 v3 v4 v5
  have h6 : Keeps c r v5 := keeps_mk hx0 (fun _ => rfl) rfl rfl
  clear_value v5
  exact keeps_foldl (P := Keeps c r) (fun _ _ h7 => (State.moveTo_keeps h7)) h6

theorem State.poolsFromFpt_keeps {x0} (hx0 : Keeps c r x0) : Keeps c r (State.poolsFromFpt x0) := by
  unfold State.poolsFromFpt
  extract_lets +onlyGivenNames -merge -lift v0
  exact keeps_mk hx0 (fun _ => rfl) rfl rfl

theorem State.vfReg_keeps {x0 x1 x2 x3 x4} (hx0 : Keeps c r x0) : Keeps c r (State.vfReg x0 x1 x2 x3 x4) := by
  unfold State.vfReg
  extract_lets +onlyGivenNames -merge -lift v0 v1
  exact (keeps_ite (P := Keeps c r) (keeps_ite (P := Keeps c r) hx0 (State.setVf_keeps hx0))
    (keeps_ite (P := Keeps c r) (State.setVf_keeps hx0)
      (keeps_ite (P := Keeps c r) (State.setVf_keeps hx0)
        (keeps_ite (P := Keeps c r) (State.objReg_keeps hx0)
          (keeps_ite (P := Keeps c r) (State.missqBase_keeps hx0)
            (keeps_ite (P := Keeps c r) (State.setVf_keeps hx0) hx0))))))

theorem State.regWrite_keeps {x0 x1 x2 x3 x4 x5} (hx0 : Keeps c r x0) :
    Keeps c r (State.regWrite x0 x1 x2 x3 x4 x5) := by
  unfold State.regWrite
  extract_lets +onlyGivenNames -merge -lift v0
  exact (keeps_ite (P := Keeps c r) (keeps_ite (P := Keeps c r) (State.msixTable_keeps hx0) hx0)
    (keeps_ite (P := Keeps c r) hx0
      (keeps_ite (P := Keeps c r) hx0 (by
        split
        · exact (keeps_ite (P := Keeps c r) (by
            extract_lets +onlyGivenNames -merge -lift v1
            exact keeps_mk hx0 (fun _ => rfl) rfl rfl) (keeps_ite (P := Keeps c r) (State.pfReg_keeps hx0) hx0))
        · exact State.vfReg_keeps hx0))))

theorem State.safeState_keeps {x0 x1} (hx0 : Keeps c r x0) : Keeps c r (State.safeState x0 x1) := by
  unfold State.safeState
  exact (keeps_ite (P := Keeps c r) hx0 (by
    extract_lets +onlyGivenNames -merge -lift v0
    have h1 : Keeps c r v0 := State.rmRecord_keeps (State.chargeAll_keeps hx0)
    clear_value v0
    exact (Keeps.trans h1 ⟨rfl, rfl, id, id, List.prefix_refl _, fun _ => .inl rfl, Nat.le_refl _, Nat.le_refl _,
      Nat.le_refl _, fun _ _ => .inl rfl⟩)))

theorem State.sageTake_keeps {x0 x1} (hx0 : Keeps c r x0) : Keeps c r (State.sageTake x0 x1) := by
  unfold State.sageTake
  extract_lets +onlyGivenNames -merge -lift v0 v1
  have h2 : Keeps c r v1 := keeps_mk hx0 (fun _ => rfl) rfl rfl
  clear_value v1
  exact (keeps_ite (P := Keeps c r) (State.safeState_keeps h2) (by
    split
    · exact h2
    · exact (keeps_ite (P := Keeps c r)
        (Keeps.trans h2 ⟨rfl, rfl, id, id, List.prefix_refl _, fun _ => .inl rfl, Nat.le_refl _, Nat.le_refl _,
          Nat.le_refl _, fun _ g => .inl (by simpa [Sage.place_keeps, Sage.capture_keeps] using g)⟩)
        (keeps_ite (P := Keeps c r)
          (State.classify_keeps
            (Keeps.trans h2 ⟨rfl, rfl, id, id, List.prefix_refl _, fun _ => .inl rfl, Nat.le_refl _,
              Nat.le_refl _, Nat.le_refl _,
              fun _ g => .inl (by simpa [Sage.place_keeps, Sage.capture_keeps] using g)⟩)) h2))))

theorem State.sendChunk_keeps {x0 x1 x2 x3 x4 x5} (hx0 : Keeps c r x0) :
    Keeps c r (State.sendChunk x0 x1 x2 x3 x4 x5) := by
  unfold State.sendChunk
  exact keeps_ite (P := Keeps c r) hx0 (State.e2eSend_keeps hx0)

theorem State.serve_keeps {x0 x1} (hx0 : Keeps c r x0) : Keeps c r (State.serve x0 x1) := by
  unfold State.serve
  extract_lets op go
  clear_value op
  split
  · exact State.reqBegin_keeps hx0 fun _ h => State.reqCtxCreate_keeps h
  · exact State.reqBegin_keeps hx0 fun _ h => State.reqCtxDestroy_keeps h
  · exact State.reqBegin_keeps hx0 fun _ h => State.reqCtxQuery_keeps h
  · exact State.reqBegin_keeps hx0 fun _ h => State.reqObjCreate_keeps h
  · exact State.reqBegin_keeps hx0 fun _ h => State.reqObjCreateHost_keeps h
  · exact State.reqBegin_keeps hx0 fun _ h => State.reqFenceCreate_keeps h
  · exact State.reqBegin_keeps hx0 fun _ h => State.reqFenceQuery_keeps h
  · exact State.reqBegin_keeps hx0 fun _ h => State.reqImport_keeps h
  · exact State.reqBegin_keeps hx0 fun _ h => State.reqQueueCreate_keeps h
  · exact State.reqBegin_keeps hx0 fun _ h => State.reqQueueDestroy_keeps h
  · exact State.reqBegin_keeps hx0 fun _ h => State.reqQueueResume_keeps h
  · exact State.reqBegin_keeps hx0 fun _ h => State.reqSegMap_keeps h
  · exact State.reqBegin_keeps hx0 fun _ h => State.reqSegUnmap_keeps h
  · exact State.reqBegin_keeps hx0 fun _ h => State.reqSegRefuse_keeps h
  · exact State.reqBegin_keeps hx0 fun _ h => State.reqUndoSet_keeps h
  · exact State.reqBegin_keeps hx0 fun _ h => State.reqSegShare_keeps h
  · exact State.reqBegin_keeps hx0 fun _ h => State.reqSaveSet_keeps h
  · exact State.reqBegin_keeps hx0 fun _ h => State.reqCtxShare_keeps h
  · exact State.reqBegin_keeps hx0 fun _ h => State.reqCtxAccount_keeps h
  · exact State.reqBegin_keeps hx0 fun _ h => State.reqQueueTarget_keeps h
  · exact State.reqBegin_keeps hx0 fun _ h => State.reqCertRead_keeps h
  · exact State.reqBegin_keeps hx0 fun _ h => State.reqDbgKeySet_keeps h
  · exact State.reqDone_keeps hx0

theorem State.serveAll_keeps {x0} (hx0 : Keeps c r x0) : Keeps c r (State.serveAll x0) := by
  unfold State.serveAll
  extract_lets +onlyGivenNames -merge -lift v0 v1 v2 v3
  have h4 : Keeps c r v0 := (keeps_foldl (P := Keeps c r) (fun _ _ h5 => (by
    extract_lets +onlyGivenNames -merge -lift v6
    exact State.serve_keeps (State.setBlock_keeps h5))) hx0)
  clear_value v0
  have h7 : Keeps c r v1 := (keeps_foldl (P := Keeps c r) (fun _ _ h8 => (by
    extract_lets +onlyGivenNames -merge -lift v9 v10
    have h11 : Keeps c r v10 := State.setSched_keeps h8
    clear_value v10
    exact keeps_ite (P := Keeps c r) h11 (State.runSx_keeps h11))) h4)
  clear_value v1
  have h12 : Keeps c r v2 := keeps_ite (P := Keeps c r) (State.wmbScan_keeps h7) h7
  clear_value v2
  have h13 : Keeps c r v3 := keeps_ite (P := Keeps c r) (State.afterLc_keeps (State.lcRun_keeps h12)) h12
  clear_value v3
  exact State.runAdmits_keeps h13

theorem State.setD3_keeps {x0 x1 x2} (hx0 : Keeps c r x0) : Keeps c r (State.setD3 x0 x1 x2) := by
  unfold State.setD3
  split <;> [exact (keeps_mk hx0 (fun _ => rfl) rfl rfl); exact (State.setVf_keeps hx0)]

theorem State.staticDraw_keeps {x0 x1 x2} (hx0 : Keeps c r x0) : Keeps c r (State.staticDraw x0 x1 x2) := by
  unfold State.staticDraw
  extract_lets +onlyGivenNames -merge -lift v0 v1 v2 v3 v4
  have h5 : Keeps c r v3 := keeps_mk hx0 (fun _ => rfl) rfl rfl
  clear_value v3
  have h6 : Keeps c r v4 := keeps_foldl (P := Keeps c r) (fun _ _ h7 => (State.modEngine_keeps h7)) h5
  clear_value v4
  exact keeps_ite (P := Keeps c r) (State.sageFail_keeps (keeps_mk h6 (fun _ => rfl) rfl rfl)) h6

theorem State.storeChunk_keeps {x0 x1 x2 x3 x4 x5} (hx0 : Keeps c r x0) :
    Keeps c r (State.storeChunk x0 x1 x2 x3 x4 x5) := by
  unfold State.storeChunk
  extract_lets +onlyGivenNames -merge -lift v0 v1 v2 v3
  exact (keeps_ite (P := Keeps c r) (by
    extract_lets +onlyGivenNames -merge -lift v4
    exact keeps_mk hx0 (fun _ => rfl) rfl rfl) (keeps_mk hx0 (fun _ => rfl) rfl rfl))

theorem State.takeChunk_keeps {x0 x1 x2 x3 x4 x5} (hx0 : Keeps c r x0) :
    Keeps1 c r (State.takeChunk x0 x1 x2 x3 x4 x5) := by
  unfold State.takeChunk
  extract_lets +onlyGivenNames -merge -lift v0 v1 v2
  exact (keeps_ite (P := Keeps1 c r) (keeps_pair1 hx0)
    (keeps_ite (P := Keeps1 c r) (keeps_pair1 hx0)
      (keeps_ite (P := Keeps1 c r) (keeps_pair1 hx0)
        (keeps_ite (P := Keeps1 c r) (keeps_pair1 (keeps_mk hx0 (fun _ => rfl) rfl rfl))
          (keeps_pair1 (State.storeChunk_keeps hx0))))))

theorem State.tick_keeps {x0} (hx0 : Keeps false r x0) : Keeps false r (State.tick x0) := by
  unfold State.tick
  exact keeps_ite hx0 (keeps_mk hx0 (fun e => by cases e) rfl rfl)

theorem State.transferFails_keeps {x0 x1 x2 x3} (hx0 : Keeps c r x0) :
    Keeps c r (State.transferFails x0 x1 x2 x3) := by
  unfold State.transferFails
  split
  · split <;> [exact (State.failLaunch_keeps hx0); exact hx0]
  · exact keeps_ite (P := Keeps c r) (State.schedTrigger_keeps hx0) hx0
  · exact hx0
  · exact hx0

theorem State.trip_keeps {x0 x1} (hx0 : Keeps c r x0) : Keeps c r (State.trip x0 x1) := by
  unfold State.trip
  exact State.safeState_keeps hx0

theorem State.vfClear_keeps {x0 x1} (hx0 : Keeps c r x0) : Keeps c r (State.vfClear x0 x1) := by
  unfold State.vfClear
  extract_lets +onlyGivenNames -merge -lift v0 v1 v2 v3 v4 v5 v6
  have h7 : Keeps c r v3 := State.setVf_keeps hx0
  clear_value v3
  have h8 : Keeps c r v4 := State.setMissq_keeps h7
  clear_value v4
  have h9 : Keeps c r v6 := State.setBlock_keeps h8
  clear_value v6
  exact keeps_mk h9 (fun _ => rfl) rfl rfl

theorem State.vfsOff_keeps {x0} (hx0 : Keeps c r x0) : Keeps c r (State.vfsOff x0) := by
  unfold State.vfsOff
  extract_lets +onlyGivenNames -merge -lift v0
  have h1 : Keeps c r v0 := keeps_foldl (P := Keeps c r) (fun _ _ h2 => (State.flrBegin_keeps h2)) hx0
  clear_value v0
  exact keeps_mk h1 (fun _ => rfl) rfl rfl

theorem State.votesIfPinned_keeps {x0} (hx0 : Keeps c r x0) : Keeps c r (State.votesIfPinned x0) := by
  unfold State.votesIfPinned
  exact keeps_foldl (P := Keeps c r) (fun _ _ h0 => (State.voteIfPinned_keeps h0)) hx0

theorem execBootBroadcast_keeps {x0} (hx0 : Keeps c r x0) : KeepsX c r (execBootBroadcast x0) := by
  unfold execBootBroadcast
  exact (keeps_next
    (State.work_keeps hx0
      (State.onBoot_keeps hx0 (fun _ _ =>
        (keeps_ite (P := Keeps c r) (keeps_mk hx0 (fun _ => rfl) rfl rfl) (by
          extract_lets +onlyGivenNames -merge -lift v0 v1 v2 v3
          have h4 : Keeps c r v3 := keeps_mk hx0 (fun _ => rfl) rfl rfl
          clear_value v3
          exact (keeps_foldl (P := Keeps c r) (fun _ _ h5 =>
            (keeps_foldl (P := Keeps c r) (fun _ _ h6 => (State.sendChunk_keeps h6)) h5)) h4)))))))

theorem execBootLoad_keeps {x0} (hx0 : Keeps c r x0) : KeepsX c r (execBootLoad x0) := by
  unfold execBootLoad
  exact (keeps_next
    (State.work_keeps hx0
      (State.onBoot_keeps hx0 (fun _ _ =>
        (keeps_ite (P := Keeps c r) (keeps_mk hx0 (fun _ => rfl) rfl rfl)
          (keeps_ite (P := Keeps c r) (keeps_mk hx0 (fun _ => rfl) rfl rfl)
            (keeps_mk hx0 (fun _ => rfl) rfl rfl)))))))

theorem execBootReqSample_keeps {x0} (hx0 : Keeps c r x0) : KeepsX c r (execBootReqSample x0) := by
  unfold execBootReqSample
  exact (keeps_next
    (State.work_keeps hx0 (by
      extract_lets +onlyGivenNames -merge -lift v0
      exact keeps_ite (P := Keeps c r) hx0 (keeps_mk hx0 (fun _ => rfl) rfl rfl))))

theorem execBootUnknownOp_keeps {x0} (hx0 : Keeps c r x0) : KeepsX c r (execBootUnknownOp x0) := by
  unfold execBootUnknownOp
  exact (keeps_next
    (State.work_keeps hx0 (State.onBoot_keeps hx0 (fun _ _ => (keeps_mk hx0 (fun _ => rfl) rfl rfl)))))

theorem execClkCtrlWrite_keeps {x0 x1} (hx1 : Keeps c r x1) : KeepsX c r (execClkCtrlWrite x0 x1) := by
  unfold execClkCtrlWrite
  exact (keeps_next
    (keeps_ite (P := Keeps c r) hx1 (by
      extract_lets +onlyGivenNames -merge -lift v0 v1 v2 v3 v4
      exact keeps_ite (P := Keeps c r) (keeps_mk hx1 (fun _ => rfl) rfl rfl) hx1)))

theorem execClockSourceLock_keeps {x0 x1} (hx1 : Keeps c r x1) : KeepsX c r (execClockSourceLock x0 x1) := by
  unfold execClockSourceLock
  exact (keeps_next
    (State.work_keeps hx1 (by
      extract_lets +onlyGivenNames -merge -lift v0 v1
      split
      · exact keeps_mk hx1 (fun _ => rfl) rfl rfl
      · exact keeps_ite (P := Keeps c r) (keeps_mk hx1 (fun _ => rfl) rfl rfl) hx1)))

theorem execCplErrorStatus_keeps {x0 x1 x2 x3} (hx3 : Keeps c r x3) :
    KeepsX c r (execCplErrorStatus x0 x1 x2 x3) := by
  unfold execCplErrorStatus
  exact keeps_next (keeps_ite (P := Keeps c r) hx3 (State.fault_keeps hx3))

theorem execCplFailure_keeps {x0 x1 x2} (hx2 : Keeps c r x2) : KeepsX c r (execCplFailure x0 x1 x2) := by
  unfold execCplFailure
  exact keeps_next (keeps_ite (P := Keeps c r) hx2 (State.sageSend_keeps (keeps_mk hx2 (fun _ => rfl) rfl rfl)))

theorem execCrossingTimeout_keeps {x0 x1} (hx1 : Keeps c r x1) : KeepsX c r (execCrossingTimeout x0 x1) := by
  unfold execCrossingTimeout
  exact keeps_next (State.work_keeps hx1 (State.sageFail_keeps hx1))

theorem execD3hotEntry_keeps {x0 x1} (hx1 : Keeps c r x1) : KeepsX c r (execD3hotEntry x0 x1) := by
  unfold execD3hotEntry
  exact keeps_next (keeps_ite (P := Keeps c r) (State.setD3_keeps hx1) hx1)

theorem execD3hotExit_keeps {x0 x1} (hx1 : Keeps c r x1) : KeepsX c r (execD3hotExit x0 x1) := by
  unfold execD3hotExit
  exact keeps_next (keeps_ite (P := Keeps c r) (State.setD3_keeps hx1) hx1)

theorem execDroop_keeps {x0 x1} (hx1 : Keeps c r x1) : KeepsX c r (execDroop x0 x1) := by
  unfold execDroop
  exact (keeps_next
    (State.work_keeps hx1
      (keeps_ite (P := Keeps c r) hx1 (by
        extract_lets +onlyGivenNames -merge -lift v0 v1
        have h2 : Keeps c r v1 := State.sageFail_keeps (keeps_mk hx1 (fun _ => rfl) rfl rfl)
        clear_value v1
        exact keeps_ite (P := Keeps c r) (State.modEngine_keeps h2) h2))))

theorem execDroopRecovery_keeps {x0 x1} (hx1 : Keeps c r x1) : KeepsX c r (execDroopRecovery x0 x1) := by
  unfold execDroopRecovery
  exact keeps_next (State.work_keeps hx1 (keeps_ite (P := Keeps c r) (State.modEngine_keeps hx1) hx1))

theorem execEngineIdleTimeout_keeps {x0 x1} (hx1 : Keeps c r x1) : KeepsX c r (execEngineIdleTimeout x0 x1) := by
  unfold execEngineIdleTimeout
  exact keeps_next (State.work_keeps hx1 (keeps_ite (P := Keeps c r) (State.setPoint_keeps hx1) hx1))

theorem execFabRecClockSelect_keeps {x0 x1} (hx1 : Keeps c r x1) : KeepsX c r (execFabRecClockSelect x0 x1) := by
  unfold execFabRecClockSelect
  exact (keeps_next
    (State.work_keeps hx1
      (keeps_ite (P := Keeps c r) (State.clocked_keeps (keeps_mk hx1 (fun _ => rfl) rfl rfl)) hx1)))

theorem execFptCompose_keeps {x0 x1 x2} (hx2 : Keeps c r x2) : KeepsX c r (execFptCompose x0 x1 x2) := by
  unfold execFptCompose
  refine keeps_next (State.work_keeps hx2 (keeps_ite hx2 ?_))
  split
  · exact State.safeState_keeps hx2
  have h : ∀ us : List UnitId, Keeps c r (us.foldl (fun t u => t.disagree x0 u) x2) := fun us =>
    keeps_foldl (P := Keeps c r) (fun _ _ h => State.disagree_keeps h) hx2
  exact keeps_foldl (P := Keeps c r) (fun _ _ h => State.trainPort_keeps h)
    (State.poolsFromFpt_keeps (keeps_mk (h _) (fun _ => rfl) rfl rfl))

theorem execFwAck_keeps {x0 x1 x2} (hx2 : Keeps c r x2) : KeepsX c r (execFwAck x0 x1 x2) := by
  unfold execFwAck
  exact (keeps_next
    (State.work_keeps hx2
      (State.receive_keeps hx2 (fun _ h0 => (by
        extract_lets +onlyGivenNames -merge -lift v1
        split
        · exact h0
        · exact (keeps_ite (P := Keeps c r) h0 (by
            extract_lets +onlyGivenNames -merge -lift v2
            have h3 : Keeps c r v2 := State.e2eDone_keeps h0
            clear_value v2
            exact (keeps_ite (P := Keeps c r) h3 (by
              extract_lets +onlyGivenNames -merge -lift v4 v5 v6
              have h7 : Keeps c r v6 := keeps_mk h3 (fun _ => rfl) rfl rfl
              clear_value v6
              exact keeps_mk h7 (fun _ => rfl) rfl rfl)))))))))

theorem execFwChunk_keeps {x0 x1 x2} (hx2 : Keeps c r x2) : KeepsX c r (execFwChunk x0 x1 x2) := by
  unfold execFwChunk
  exact (keeps_next
    (State.work_keeps hx2
      (State.receive_keeps hx2 (fun _ h0 => (by
        split
        · exact State.portSend_keeps h0
        · extract_lets +onlyGivenNames -merge -lift v1 v2 v3 v4 v5 v6 v7 v8 v9 v10
          have h11 : Keeps1 c r v5 := State.takeChunk_keeps h0
          clear_value v5
          have h12 : Keeps c r v6 := keeps_fst h11
          clear_value v6
          have h13 : Keeps c r v7 := keeps_mk h12 (fun _ => rfl) rfl rfl
          clear_value v7
          have h14 : Keeps c r v8 := (keeps_ite (P := Keeps c r) h12
            (keeps_foldl (P := Keeps c r) (fun _ _ h15 =>
              (keeps_ite (P := Keeps c r) h15 (State.sendChunk_keeps h15))) h13))
          clear_value v8
          exact State.portSend_keeps (State.e2eNote_keeps h14))))))

theorem execFwLoadStall_keeps {x0} (hx0 : Keeps c r x0) : KeepsX c r (execFwLoadStall x0) := by
  unfold execFwLoadStall
  exact keeps_next (State.work_keeps hx0 (keeps_ite (P := Keeps c r) (keeps_mk hx0 (fun _ => rfl) rfl rfl) hx0))

theorem execFwRunning_keeps {x0} (hx0 : Keeps c r x0) : KeepsX c r (execFwRunning x0) := by
  unfold execFwRunning
  exact (keeps_next
    (State.work_keeps hx0 (by
      extract_lets +onlyGivenNames -merge -lift v0
      exact (keeps_ite (P := Keeps c r) hx0 (by
        extract_lets +onlyGivenNames -merge -lift v1 v2
        have h3 : Keeps c r v1 := State.poolsFromFpt_keeps (keeps_mk hx0 (fun _ => rfl) rfl rfl)
        clear_value v1
        have h4 : Keeps c r v2 := (keeps_foldl (P := Keeps c r) (fun _ _ h5 =>
          (keeps_ite (P := Keeps c r) (State.sendManifest_keeps h5) h5)) h3)
        clear_value v2
        exact keeps_foldl (P := Keeps c r) (fun _ _ h6 => (State.manifestIn_keeps (State.takeInbox_keeps h6))) h4)))))

theorem execFwVerifyComplete_keeps {x0} (hx0 : Keeps c r x0) : KeepsX c r (execFwVerifyComplete x0) := by
  unfold execFwVerifyComplete
  exact (keeps_next
    (State.work_keeps hx0 (by
      extract_lets +onlyGivenNames -merge -lift v0
      exact (keeps_ite (P := Keeps c r) hx0 (by
        extract_lets +onlyGivenNames -merge -lift v1 v2 v3 v4
        have h5 : Keeps c r v4 := keeps_mk hx0 (fun _ => rfl) rfl rfl
        clear_value v4
        exact State.rmRecord_keeps h5)))))

theorem execHoldoverTimeout_keeps {x0} (hx0 : Keeps c r x0) : KeepsX c r (execHoldoverTimeout x0) := by
  unfold execHoldoverTimeout
  exact keeps_next (State.work_keeps hx0 (keeps_ite (P := Keeps c r) (State.safeState_keeps hx0) hx0))

theorem execHubResetRelease_keeps {x0} (hx0 : Keeps c r x0) : KeepsX c r (execHubResetRelease x0) := by
  unfold execHubResetRelease
  exact keeps_next (keeps_ite (P := Keeps c r) (State.released_keeps hx0) hx0)

theorem execIntStatusClear_keeps {x0 x1 x2 x3} (hx3 : Keeps c r x3) :
    KeepsX c r (execIntStatusClear x0 x1 x2 x3) := by
  unfold execIntStatusClear
  exact (keeps_next
    (keeps_ite (P := Keeps c r) hx3 (by
      extract_lets +onlyGivenNames -merge -lift v0 v1
      have h2 : Keeps c r v1 := State.setInts_keeps hx3
      clear_value v1
      exact keeps_foldl (P := Keeps c r) (fun _ _ h3 => (State.raise_keeps h3)) h2)))

theorem execIvrAck_keeps {x0 x1} (hx1 : Keeps c r x1) : KeepsX c r (execIvrAck x0 x1) := by
  unfold execIvrAck
  exact (keeps_next
    (State.work_keeps hx1 (keeps_ite (P := Keeps c r) (State.votesIfPinned_keeps (State.settled_keeps hx1)) hx1)))

theorem execIvrAckTimeout_keeps {x0 x1} (hx1 : Keeps c r x1) : KeepsX c r (execIvrAckTimeout x0 x1) := by
  unfold execIvrAckTimeout
  exact (keeps_next
    (State.work_keeps hx1 (by
      extract_lets +onlyGivenNames -merge -lift v0
      exact keeps_ite (P := Keeps c r) hx1 (State.sageFail_keeps (State.setDomain_keeps hx1)))))

theorem execIvrOcAssert_keeps {x0 x1} (hx1 : Keeps c r x1) : KeepsX c r (execIvrOcAssert x0 x1) := by
  unfold execIvrOcAssert
  exact (keeps_next
    (State.work_keeps hx1
      (keeps_ite (P := Keeps c r) hx1 (by
        extract_lets +onlyGivenNames -merge -lift v0 v1
        have h2 : Keeps c r v1 := State.sageFail_keeps (State.setDomain_keeps hx1)
        clear_value v1
        exact keeps_ite (P := Keeps c r) (State.setPoint_keeps h2) h2))))

theorem execIvrPgLoss_keeps {x0 x1} (hx1 : Keeps c r x1) : KeepsX c r (execIvrPgLoss x0 x1) := by
  unfold execIvrPgLoss
  exact (keeps_next
    (State.work_keeps hx1
      (keeps_ite (P := Keeps c r) (by
        extract_lets +onlyGivenNames -merge -lift v0 v1
        have h2 : Keeps c r v1 := State.setDomain_keeps hx1
        clear_value v1
        exact State.retireUnit_keeps (State.sageFail_keeps h2))
        (keeps_ite (P := Keeps c r) (State.selfReset_keeps hx1) hx1))))

theorem execMsgPendingClear_keeps {x0 x1 x2} (hx2 : Keeps c r x2) : KeepsX c r (execMsgPendingClear x0 x1 x2) := by
  unfold execMsgPendingClear
  exact (keeps_next (by
    extract_lets +onlyGivenNames -merge -lift v0
    exact (keeps_ite (P := Keeps c r)
      (keeps_ite (P := Keeps c r) hx2 (by
        extract_lets +onlyGivenNames -merge -lift v1 v2
        have h3 : Keeps c r v2 := State.setVf_keeps hx2
        clear_value v2
        exact keeps_mk h3 (fun _ => rfl) rfl rfl))
      (keeps_ite (P := Keeps c r) hx2 (by
        extract_lets +onlyGivenNames -merge -lift v4 v5
        have h6 : Keeps c r v5 := State.setVf_keeps hx2
        clear_value v5
        exact keeps_mk h6 (fun _ => rfl) rfl rfl)))))

theorem execMsgSend_keeps {x0 x1 x2} (hx2 : Keeps c r x2) : KeepsX c r (execMsgSend x0 x1 x2) := by
  unfold execMsgSend
  exact (keeps_next (by
    extract_lets +onlyGivenNames -merge -lift v0 v1
    exact (keeps_ite (P := Keeps c r)
      (keeps_ite (P := Keeps c r) hx2
        (keeps_ite (P := Keeps c r) (State.setVf_keeps hx2) (by
          extract_lets +onlyGivenNames -merge -lift v2 v3
          have h4 : Keeps c r v3 := State.setVf_keeps hx2
          clear_value v3
          exact State.raise_keeps (keeps_mk h4 (fun _ => rfl) rfl rfl))))
      (keeps_ite (P := Keeps c r) hx2
        (keeps_ite (P := Keeps c r) (keeps_mk hx2 (fun _ => rfl) rfl rfl) (by
          extract_lets +onlyGivenNames -merge -lift v5 v6
          have h7 : Keeps c r v6 := keeps_mk hx2 (fun _ => rfl) rfl rfl
          clear_value v6
          exact State.raise_keeps (State.setVf_keeps h7)))))))

theorem execMsixUnmask_keeps {x0 x1 x2} (hx2 : Keeps c r x2) : KeepsX c r (execMsixUnmask x0 x1 x2) := by
  unfold execMsixUnmask
  exact keeps_next (State.work_keeps hx2 (keeps_ite (P := Keeps c r) (State.unmask_keeps hx2) hx2))

theorem execNoReferenceTimeout_keeps {x0} (hx0 : Keeps c r x0) : KeepsX c r (execNoReferenceTimeout x0) := by
  unfold execNoReferenceTimeout
  exact keeps_next (State.work_keeps hx0 (keeps_ite (P := Keeps c r) (State.sageFail_keeps hx0) hx0))

theorem execNotifyCtrlWrite_keeps {x0 x1 x2} (hx2 : Keeps c r x2) : KeepsX c r (execNotifyCtrlWrite x0 x1 x2) := by
  unfold execNotifyCtrlWrite
  exact (keeps_next
    (keeps_ite (P := Keeps c r) hx2 (by
      extract_lets +onlyGivenNames -merge -lift v0 v1 v2
      exact State.setVf_keeps hx2)))

theorem execNotifyHeadWrite_keeps {x0 x1 x2} (hx2 : Keeps c r x2) : KeepsX c r (execNotifyHeadWrite x0 x1 x2) := by
  unfold execNotifyHeadWrite
  exact (keeps_next (by
    extract_lets +onlyGivenNames -merge -lift v0 v1
    exact keeps_ite (P := Keeps c r) (State.setVf_keeps hx2) hx2))

theorem execNumvfsWrite_keeps {x0 x1 x2} (hx2 : Keeps c r x2) : KeepsX c r (execNumvfsWrite x0 x1 x2) := by
  unfold execNumvfsWrite
  exact keeps_next (keeps_ite (P := Keeps c r) (keeps_mk hx2 (fun _ => rfl) rfl rfl) hx2)

theorem execParityError_keeps {x0 x1} (hx1 : Keeps c r x1) : KeepsX c r (execParityError x0 x1) := by
  unfold execParityError
  exact (keeps_next
    (State.work_keeps hx1 (by
      extract_lets +onlyGivenNames -merge -lift v0
      split
      · exact hx1
      · extract_lets +onlyGivenNames -merge -lift v1
        have h2 : Keeps c r v1 := State.sageFail_keeps hx1
        clear_value v1
        exact (keeps_ite (P := Keeps c r) (by
          extract_lets +onlyGivenNames -merge -lift v3 v4 v5
          exact keeps_foldl (P := Keeps c r) (fun _ _ h6 => (State.failLaunch_keeps h6)) h2) h2))))

theorem execPatrolScrub_keeps {x0 x1 x2} (hx2 : Keeps c r x2) : KeepsX c r (execPatrolScrub x0 x1 x2) := by
  unfold execPatrolScrub
  exact (keeps_next
    (State.work_keeps hx2 (by
      extract_lets +onlyGivenNames -merge -lift v0
      split
      · exact hx2
      · extract_lets +onlyGivenNames -merge -lift v1
        have h2 : Keeps c r v1 := (by unfold v1; split <;> [exact (State.modEngine_keeps hx2); exact hx2])
        clear_value v1
        exact State.sageFail_keeps h2
      · exact State.sageFail_keeps hx2
      · split
        · split <;> [exact (State.lostAtRest_keeps hx2); exact (State.sageFail_keeps hx2)]
        · exact State.lostMemory_keeps hx2
        · exact State.lostMemory_keeps hx2
        · split <;> [exact (State.lostAtRest_keeps hx2); exact (State.sageFail_keeps hx2)])))

theorem execPcieLinkDown_keeps {x0} (hx0 : Keeps c r x0) : KeepsX c r (execPcieLinkDown x0) := by
  unfold execPcieLinkDown
  exact keeps_next (State.work_keeps hx0 (State.hostDown_keeps hx0))

theorem execPcieLinkUp_keeps {x0 x1 x2 x3} (hx3 : Keeps c r x3) : KeepsX c r (execPcieLinkUp x0 x1 x2 x3) := by
  unfold execPcieLinkUp
  exact (keeps_next
    (State.work_keeps hx3
      (keeps_ite (P := Keeps c r) (State.hostResume_keeps (keeps_mk hx3 (fun _ => rfl) rfl rfl)) hx3)))

theorem execPcieUnmappedRequest_keeps {x0 x1} (hx1 : Keeps c r x1) :
    KeepsX c r (execPcieUnmappedRequest x0 x1) := by
  unfold execPcieUnmappedRequest
  exact (keeps_next
    (keeps_ite (P := Keeps c r) hx1 (by
      split
      · exact (Keeps.trans hx1 ⟨rfl, rfl, id, id, List.prefix_append _ _, fun _ => .inl rfl, Nat.le_refl _,
          Nat.le_refl _, Nat.le_refl _, fun _ g => .inl g⟩)
      · exact hx1
      · exact (Keeps.trans hx1 ⟨rfl, rfl, id, id, List.prefix_append _ _, fun _ => .inl rfl, Nat.le_refl _,
          Nat.le_refl _, Nat.le_refl _, fun _ g => .inl g⟩)
      · exact (Keeps.trans hx1 ⟨rfl, rfl, id, id, List.prefix_append _ _, fun _ => .inl rfl, Nat.le_refl _,
          Nat.le_refl _, Nat.le_refl _, fun _ g => .inl g⟩))))

theorem execPerstNAssert_keeps {x0} (hx0 : Keeps c r x0) : KeepsX c r (execPerstNAssert x0) := by
  unfold execPerstNAssert
  exact (keeps_next
    (State.portWork_keeps hx0 (by
      extract_lets +onlyGivenNames -merge -lift v0 v1 v2
      have h3 : Keeps c r v0 := State.hostDown_keeps hx0
      clear_value v0
      have h4 : Keeps c r v1 := keeps_foldl (P := Keeps c r) (fun _ _ h5 => (State.vfClear_keeps h5)) h3
      clear_value v1
      have h6 : Keeps c r v2 := State.hostCacheClear_keeps (State.pfClear_keeps h4)
      clear_value v2
      exact keeps_mk h6 (fun _ => rfl) rfl rfl)))

theorem execPfFlr_keeps {x0} (hx0 : Keeps c r x0) : KeepsX c r (execPfFlr x0) := by
  unfold execPfFlr
  exact (keeps_next
    (State.work_keeps hx0 (keeps_ite (P := Keeps c r) (State.pfClear_keeps (State.vfsOff_keeps hx0)) hx0)))

theorem execPinHoldExpire_keeps {x0} (hx0 : Keeps c r x0) : KeepsX c r (execPinHoldExpire x0) := by
  unfold execPinHoldExpire
  exact keeps_next (State.work_keeps hx0 (keeps_ite (P := Keeps c r) (keeps_mk hx0 (fun _ => rfl) rfl rfl) hx0))

theorem execPllRelockComplete_keeps {x0 x1} (hx1 : Keeps c r x1) : KeepsX c r (execPllRelockComplete x0 x1) := by
  unfold execPllRelockComplete
  exact keeps_next (State.work_keeps hx1 (State.votesIfPinned_keeps (State.relocked_keeps hx1)))

theorem execPoisonedWrite_keeps {x0} (hx0 : Keeps c r x0) : KeepsX c r (execPoisonedWrite x0) := by
  unfold execPoisonedWrite
  exact keeps_next (keeps_ite (P := Keeps c r) hx0 (State.sageFail_keeps (keeps_mk hx0 (fun _ => rfl) rfl rfl)))

theorem execPorNAssert_keeps {x0} (hx0 : Keeps c r x0) : KeepsX c r (execPorNAssert x0) := by
  unfold execPorNAssert
  exact keeps_next (State.hubReset_keeps hx0)

theorem execPowerInterval_keeps {x0 x1 x2} (hx2 : Keeps c r x2) : KeepsX c r (execPowerInterval x0 x1 x2) := by
  unfold execPowerInterval
  exact (keeps_next
    (State.work_keeps hx2 (by
      extract_lets +onlyGivenNames -merge -lift v0 v1 v2 v3 v4 v5 v6 v7 v8 v9 v10 v11 v12 v13 v14 v15 v16 v17 v18
      have h19 : Keeps c r v2 := keeps_mk hx2 (fun _ => rfl) rfl rfl
      clear_value v2
      have h20 : Keeps c r v3 := keeps_foldl (P := Keeps c r) (fun _ _ h21 => (State.addEnergy_keeps h21)) h19
      clear_value v3
      have h22 : Keeps c r v6 := keeps_foldl (P := Keeps c r) (fun _ _ h23 => (State.staticDraw_keeps h23)) h20
      clear_value v6
      have h24 : Keeps c r v15 := keeps_foldl (P := Keeps c r) (fun _ _ h25 => (State.pooledPoint_keeps h25)) h22
      clear_value v15
      have h26 : Keeps c r v16 := keeps_foldl (P := Keeps c r) (fun _ _ h27 => (State.pooledPoint_keeps h27)) h24
      clear_value v16
      have h28 : Keeps c r v17 := (keeps_foldl (P := Keeps c r) (fun _ _ h29 =>
        (keeps_ite (P := Keeps c r) h29 (State.setPoint_keeps h29))) h26)
      clear_value v17
      exact keeps_mk h28 (fun _ => rfl) rfl rfl)))

theorem execPwrFmaxWrite_keeps {x0 x1} (hx1 : Keeps c r x1) : KeepsX c r (execPwrFmaxWrite x0 x1) := by
  unfold execPwrFmaxWrite
  exact (keeps_next
    (keeps_ite (P := Keeps c r) hx1 (by
      extract_lets +onlyGivenNames -merge -lift v0
      exact keeps_ite (P := Keeps c r) hx1 (keeps_mk hx1 (fun _ => rfl) rfl rfl))))

theorem execPwrLimitWrite_keeps {x0 x1} (hx1 : Keeps c r x1) : KeepsX c r (execPwrLimitWrite x0 x1) := by
  unfold execPwrLimitWrite
  exact (keeps_next
    (keeps_ite (P := Keeps c r) hx1 (by
      extract_lets +onlyGivenNames -merge -lift v0 v1
      exact (keeps_ite (P := Keeps c r) hx1
        (keeps_ite (P := Keeps c r) (keeps_mk hx1 (fun _ => rfl) rfl rfl) (keeps_mk hx1 (fun _ => rfl) rfl rfl))))))

theorem execRefClockLoss_keeps {x0} (hx0 : Keeps c r x0) : KeepsX c r (execRefClockLoss x0) := by
  unfold execRefClockLoss
  exact (keeps_next
    (State.work_keeps hx0 (by
      extract_lets +onlyGivenNames -merge -lift v0
      exact (keeps_ite (P := Keeps c r) (State.hostDown_keeps (keeps_mk hx0 (fun _ => rfl) rfl rfl))
        (keeps_ite (P := Keeps c r) (keeps_mk hx0 (fun _ => rfl) rfl rfl) hx0)))))

theorem execRefClockSelect_keeps {x0} (hx0 : Keeps c r x0) : KeepsX c r (execRefClockSelect x0) := by
  unfold execRefClockSelect
  exact (keeps_next
    (State.work_keeps hx0
      (keeps_ite (P := Keeps c r) (State.clocked_keeps (keeps_mk hx0 (fun _ => rfl) rfl rfl)) hx0)))

theorem execRegisterWrite_keeps {x0 x1 x2 x3 x4 x5 x6} (hx6 : Keeps c r x6) :
    KeepsX c r (execRegisterWrite x0 x1 x2 x3 x4 x5 x6) := by
  unfold execRegisterWrite
  exact keeps_next (keeps_ite (P := Keeps c r) (State.regWrite_keeps hx6) hx6)

theorem execSageMessage_keeps {x0 x1} (hx1 : Keeps c r x1) : KeepsX c r (execSageMessage x0 x1) := by
  unfold execSageMessage
  exact keeps_next (State.work_keeps hx1 (State.sageTake_keeps hx1))

theorem execSageParityError_keeps {x0} (hx0 : Keeps c r x0) : KeepsX c r (execSageParityError x0) := by
  unfold execSageParityError
  exact keeps_next (State.work_keeps hx0 (State.safeState_keeps hx0))

theorem execSageWindowClose_keeps {x0 x1} (hx1 : Keeps c r x1) : KeepsX c r (execSageWindowClose x0 x1) := by
  unfold execSageWindowClose
  exact (keeps_next
    (State.work_keeps hx1 (by
      split <;> [exact (keeps_ite (P := Keeps c r) (State.setSrcCfg_keeps hx1) hx1); exact hx1])))

theorem execSelftestComplete_keeps {x0 x1 x2} (hx2 : Keeps c r x2) :
    KeepsX c r (execSelftestComplete x0 x1 x2) := by
  unfold execSelftestComplete
  exact (keeps_next
    (State.work_keeps hx2 (by
      extract_lets +onlyGivenNames -merge -lift v0
      have h1 : Keeps c r v0 := (by
        unfold v0
        split
        · exact (keeps_ite (P := Keeps c r) (by
            extract_lets +onlyGivenNames -merge -lift v2
            have h3 : Keeps c r v2 := State.modEngine_keeps hx2
            clear_value v2
            exact keeps_mk h3 (fun _ => rfl) rfl rfl) hx2)
        · exact hx2)
      clear_value v0
      exact keeps_ite (P := Keeps c r) h1 (State.retireAny_keeps (State.sageFail_keeps h1)))))

theorem execSelftestDue_keeps {x0 x1} (hx1 : Keeps c r x1) : KeepsX c r (execSelftestDue x0 x1) := by
  unfold execSelftestDue
  exact (keeps_next
    (State.work_keeps hx1
      (keeps_ite (P := Keeps c r) (by
        extract_lets +onlyGivenNames -merge -lift v0
        have h1 : Keeps c r v0 := State.modEngine_keeps hx1
        clear_value v0
        exact keeps_mk h1 (fun _ => rfl) rfl rfl) hx1)))

theorem execSelftestPreemptTimeout_keeps {x0 x1} (hx1 : Keeps c r x1) :
    KeepsX c r (execSelftestPreemptTimeout x0 x1) := by
  unfold execSelftestPreemptTimeout
  exact (keeps_next
    (State.work_keeps hx1
      (keeps_ite (P := Keeps c r) (keeps_foldl (P := Keeps c r) (fun _ _ h0 => (State.preemptLaunch_keeps h0)) hx1)
        hx1)))

theorem execSgPinResume_keeps {x0 x1} (hx1 : Keeps c r x1) : KeepsX c r (execSgPinResume x0 x1) := by
  unfold execSgPinResume
  exact keeps_next (keeps_ite (P := Keeps c r) (keeps_mk hx1 (fun _ => rfl) rfl rfl) hx1)

theorem execSgPop_keeps {x0 x1} (hx1 : Keeps c r x1) : KeepsX c r (execSgPop x0 x1) := by
  unfold execSgPop
  exact (keeps_next
    (keeps_ite (P := Keeps c r) hx1 (by
      extract_lets +onlyGivenNames -merge -lift v0
      split <;> [exact hx1; exact (keeps_mk hx1 (fun _ => rfl) rfl rfl)])))

theorem execSgSrcCfgWrite_keeps {x0 x1 x2} (hx2 : Keeps c r x2) : KeepsX c r (execSgSrcCfgWrite x0 x1 x2) := by
  unfold execSgSrcCfgWrite
  exact (keeps_next
    (keeps_ite (P := Keeps c r) hx2 (by
      split
      · exact hx2
      · extract_lets +onlyGivenNames -merge -lift v0 v1 v2
        exact State.setSrcCfg_keeps hx2)))

theorem execSpineCrcMismatch_keeps {x0 x1 x2 x3} (hx3 : Keeps c r x3) :
    KeepsX c r (execSpineCrcMismatch x0 x1 x2 x3) := by
  unfold execSpineCrcMismatch
  exact (keeps_next
    (State.work_keeps hx3
      (keeps_ite (P := Keeps c r)
        (State.transferFails_keeps (State.sageFail_keeps (keeps_mk hx3 (fun _ => rfl) rfl rfl)))
        (keeps_mk hx3 (fun _ => rfl) rfl rfl))))

theorem execStoreSecdedError_keeps {x0 x1 x2 x3} (hx3 : Keeps c r x3) :
    KeepsX c r (execStoreSecdedError x0 x1 x2 x3) := by
  unfold execStoreSecdedError
  exact (keeps_next
    (State.work_keeps hx3 (by
      extract_lets +onlyGivenNames -merge -lift v0
      exact (keeps_ite (P := Keeps c r) hx3
        (keeps_ite (P := Keeps c r) (State.sageFail_keeps (State.modEngine_keeps hx3)) (by
          split
          · exact State.sageFail_keeps hx3
          · extract_lets +onlyGivenNames -merge -lift v1 v2
            have h3 : Keeps c r v1 := State.sageSend_keeps hx3
            clear_value v1
            exact keeps_foldl (P := Keeps c r) (fun _ _ h4 => (State.failLaunch_keeps h4)) h3))))))

theorem execSysRstNAssert_keeps {x0} (hx0 : Keeps c r x0) : KeepsX c r (execSysRstNAssert x0) := by
  unfold execSysRstNAssert
  exact keeps_next (State.hubReset_keeps hx0)

theorem execThermLimitsWrite_keeps {x0 x1} (hx1 : Keeps c r x1) : KeepsX c r (execThermLimitsWrite x0 x1) := by
  unfold execThermLimitsWrite
  exact (keeps_next
    (keeps_ite (P := Keeps c r) hx1 (by
      extract_lets +onlyGivenNames -merge -lift v0 v1
      exact keeps_ite (P := Keeps c r) hx1 (keeps_mk hx1 (fun _ => rfl) rfl rfl))))

theorem execThermalEmergency_keeps {x0 x1 x2} (hx2 : Keeps c r x2) :
    KeepsX c r (execThermalEmergency x0 x1 x2) := by
  unfold execThermalEmergency
  exact (keeps_next
    (State.work_keeps hx2
      (keeps_ite (P := Keeps c r) hx2 (by
        extract_lets +onlyGivenNames -merge -lift v0 v1 v2 v3
        have h4 : Keeps c r v1 := keeps_mk hx2 (fun _ => rfl) rfl rfl
        clear_value v1
        have h5 : Keeps c r v2 := (keeps_foldl (P := Keeps c r) (fun _ _ h6 =>
          (State.setPoint_keeps (State.modEngine_keeps h6))) h4)
        clear_value v2
        have h7 : Keeps c r v3 := (keeps_foldl (P := Keeps c r) (fun _ _ h8 =>
          (keeps_ite (P := Keeps c r) (State.setSched_keeps h8) h8)) h5)
        clear_value v3
        exact State.rmRecord_keeps (State.sageFail_keeps h7)))))

theorem execThermalEmergencyEnd_keeps {x0} (hx0 : Keeps c r x0) : KeepsX c r (execThermalEmergencyEnd x0) := by
  unfold execThermalEmergencyEnd
  exact (keeps_next
    (State.work_keeps hx0
      (keeps_ite (P := Keeps c r) hx0 (by
        extract_lets +onlyGivenNames -merge -lift v0 v1
        have h2 : Keeps c r v1 := keeps_mk hx0 (fun _ => rfl) rfl rfl
        clear_value v1
        exact (keeps_foldl (P := Keeps c r) (fun _ _ h3 =>
          (keeps_ite (P := Keeps c r) (by
            extract_lets +onlyGivenNames -merge -lift v4
            exact State.pinAll_keeps (State.setSched_keeps h3)) h3)) h2)))))

theorem execThermalTrip_keeps {x0 x1 x2} (hx2 : Keeps c r x2) : KeepsX c r (execThermalTrip x0 x1 x2) := by
  unfold execThermalTrip
  exact (keeps_next
    (State.work_keeps hx2
      (keeps_ite (P := Keeps c r) (State.trip_keeps (keeps_mk hx2 (fun _ => rfl) rfl rfl)) hx2)))

theorem execTsValidTimeout_keeps {x0 x1} (hx1 : Keeps c r x1) : KeepsX c r (execTsValidTimeout x0 x1) := by
  unfold execTsValidTimeout
  exact (keeps_next
    (State.work_keeps hx1
      (keeps_ite (P := Keeps c r) (State.trip_keeps (keeps_mk hx1 (fun _ => rfl) rfl rfl)) hx1)))

theorem execVfEnableClear_keeps {x0} (hx0 : Keeps c r x0) : KeepsX c r (execVfEnableClear x0) := by
  unfold execVfEnableClear
  exact keeps_next (State.work_keeps hx0 (keeps_ite (P := Keeps c r) (State.vfsOff_keeps hx0) hx0))

theorem execVfFlr_keeps {x0 x1} (hx1 : Keeps c r x1) : KeepsX c r (execVfFlr x0 x1) := by
  unfold execVfFlr
  exact keeps_next (State.work_keeps hx1 (keeps_ite (P := Keeps c r) (State.flrBegin_keeps hx1) hx1))

theorem execVfFlrComplete_keeps {x0 x1} (hx1 : Keeps c r x1) : KeepsX c r (execVfFlrComplete x0 x1) := by
  unfold execVfFlrComplete
  exact (keeps_next
    (State.work_keeps hx1
      (keeps_ite (P := Keeps c r) hx1 (by
        extract_lets +onlyGivenNames -merge -lift v0 v1 v2
        have h3 : Keeps c r v0 := State.vfClear_keeps hx1
        clear_value v0
        have h4 : Keeps c r v2 := State.setVf_keeps h3
        clear_value v2
        exact State.raise_keeps (keeps_mk h4 (fun _ => rfl) rfl rfl)))))

theorem execWardenMismatch_keeps {x0} (hx0 : Keeps c r x0) : KeepsX c r (execWardenMismatch x0) := by
  unfold execWardenMismatch
  exact (keeps_next
    (State.work_keeps hx0 (by
      extract_lets +onlyGivenNames -merge -lift v0 v1 v2
      have h3 : Keeps c r v2 := State.sageFail_keeps hx0
      clear_value v2
      exact (keeps_ite (P := Keeps c r) (State.safeState_keeps h3) (by
        extract_lets +onlyGivenNames -merge -lift v4
        exact keeps_mk h3 (fun _ => rfl) rfl rfl)))))

theorem execWardenRestartComplete_keeps {x0} (hx0 : Keeps c r x0) : KeepsX c r (execWardenRestartComplete x0) := by
  unfold execWardenRestartComplete
  exact (keeps_next
    (State.work_keeps hx0
      (keeps_ite (P := Keeps c r) hx0 (by
        extract_lets +onlyGivenNames -merge -lift v0 v1 v2 v3 v4
        have h5 : Keeps c r v1 := State.rmRecord_keeps (keeps_mk hx0 (fun _ => rfl) rfl rfl)
        clear_value v1
        have h6 : Keeps c r v3 := (keeps_ite (P := Keeps c r)
          (State.lcDone_keeps (keeps_mk h5 (fun _ => rfl) rfl rfl)) h5)
        clear_value v3
        have h7 : Keeps c r v4 := keeps_ite (P := Keeps c r) (State.wmbEnd_keeps h6) h6
        clear_value v4
        exact State.serveAll_keeps h7))))

end Sys2Proof.Machine
end

