-- ==== Sys2Proof/Laws/KeepsStep.lean ====
section
/-! SUPPORT. What every command and every step keeps. -/

namespace Sys2Proof.Machine

variable {c : Bool} {r : State}

/-- Every command answers a next state and keeps; of Thyme's count, every command but THYME. -/
theorem exec_keeps {i : Instr} {s : State} (hi : c = true → ∀ p m t, i ≠ .thymeMsg p m t) (h : Keeps c r s) :
    KeepsX c r (exec i s) := by
  cases i with
  | porNAssert => exact execPorNAssert_keeps h
  | sysRstNAssert => exact execSysRstNAssert_keeps h
  | hubResetRelease => exact execHubResetRelease_keeps h
  | perstNAssert => exact execPerstNAssert_keeps h
  | ivrPgLoss => exact execIvrPgLoss_keeps h
  | ivrAck => exact execIvrAck_keeps h
  | ivrAckTimeout => exact execIvrAckTimeout_keeps h
  | ivrOcAssert => exact execIvrOcAssert_keeps h
  | droop => exact execDroop_keeps h
  | tsValidTimeout => exact execTsValidTimeout_keeps h
  | thermalEmergency => exact execThermalEmergency_keeps h
  | thermalEmergencyEnd => exact execThermalEmergencyEnd_keeps h
  | thermalTrip => exact execThermalTrip_keeps h
  | recAccessFail => exact execRecAccessFail_keeps h
  | crossingTimeout => exact execCrossingTimeout_keeps h
  | spineCrcMismatch => exact execSpineCrcMismatch_keeps h
  | refClockSelect => exact execRefClockSelect_keeps h
  | fabRecClockSelect => exact execFabRecClockSelect_keeps h
  | noReferenceTimeout => exact execNoReferenceTimeout_keeps h
  | refClockLoss => exact execRefClockLoss_keeps h
  | holdoverTimeout => exact execHoldoverTimeout_keeps h
  | clkCtrlWrite => exact execClkCtrlWrite_keeps h
  | registerWrite => exact execRegisterWrite_keeps h
  | dispatchRound => exact execDispatchRound_keeps h
  | foldSwap => exact execFoldSwap_keeps h
  | passCommit => exact execPassCommit_keeps h
  | checkPoint => exact execCheckPoint_keeps h
  | arrayImageWritten => exact execArrayImageWritten_keeps h
  | scrubComplete => exact execScrubComplete_keeps h
  | storeSecdedError => exact execStoreSecdedError_keeps h
  | park => exact execPark_keeps h
  | wake => exact execWake_keeps h
  | tdld => exact execTdld_keeps h
  | tdset => exact execTdset_keeps h
  | wld => exact execWld_keeps h
  | tmul => exact execTmul_keeps h
  | twin => exact execTwin_keeps h
  | tcmb => exact execTcmb_keeps h
  | tdrn => exact execTdrn_keeps h
  | tclr => exact execTclr_keeps h
  | cred => exact execCred_keeps h
  | mcopy => exact execMcopy_keeps h
  | mfill => exact execMfill_keeps h
  | mgath => exact execMgath_keeps h
  | eUndefinedOpcode => exact execEUndefinedOpcode_keeps h
  | combinerPartial => exact execCombinerPartial_keeps h
  | codeFetch => exact execCodeFetch_keeps h
  | nop => exact execNop_keeps h
  | sli => exact execSli_keeps h
  | slui => exact execSlui_keeps h
  | salu => exact execSalu_keeps h
  | salui => exact execSalui_keeps h
  | sld => exact execSld_keeps h
  | sst => exact execSst_keeps h
  | sparam => exact execSparam_keeps h
  | sstat => exact execSstat_keeps h
  | br => exact execBr_keeps h
  | jal => exact execJal_keeps h
  | jr => exact execJr_keeps h
  | kset => exact execKset_keeps h
  | tokenDeadlock => exact execTokenDeadlock_keeps h
  | qwait => exact execQwait_keeps h
  | workPacketDeliver => exact execWorkPacketDeliver_keeps h
  | enq => exact execEnq_keeps h
  | endLaunch => exact execEndLaunch_keeps h
  | sacq => exact execSacq_keeps h
  | semaphoreGrant => exact execSemaphoreGrant_keeps h
  | srel => exact execSrel_keeps h
  | holdLimitExpire => exact execHoldLimitExpire_keeps h
  | vadd => exact execVadd_keeps h
  | vsub => exact execVsub_keeps h
  | vmul => exact execVmul_keeps h
  | vfma => exact execVfma_keeps h
  | vmax => exact execVmax_keeps h
  | vmin => exact execVmin_keeps h
  | vsel => exact execVsel_keeps h
  | viadd => exact execViadd_keeps h
  | visub => exact execVisub_keeps h
  | vimul => exact execVimul_keeps h
  | vimax => exact execVimax_keeps h
  | vimin => exact execVimin_keeps h
  | vand => exact execVand_keeps h
  | vor => exact execVor_keeps h
  | vxor => exact execVxor_keeps h
  | vshl => exact execVshl_keeps h
  | vshr => exact execVshr_keeps h
  | vsra => exact execVsra_keeps h
  | vcmp => exact execVcmp_keeps h
  | vicmp => exact execVicmp_keeps h
  | vcvtToInt32 => exact execVcvtToInt32_keeps h
  | vcvtToFp32 => exact execVcvtToFp32_keeps h
  | vexp2 => exact execVexp2_keeps h
  | vlog2 => exact execVlog2_keeps h
  | vrcp => exact execVrcp_keeps h
  | vrsqrt => exact execVrsqrt_keeps h
  | vsqrt => exact execVsqrt_keeps h
  | vtanh => exact execVtanh_keeps h
  | viota => exact execViota_keeps h
  | vrsum => exact execVrsum_keeps h
  | vrmax => exact execVrmax_keeps h
  | vrmin => exact execVrmin_keeps h
  | virsum => exact execVirsum_keeps h
  | vbcst => exact execVbcst_keeps h
  | vmovs => exact execVmovs_keeps h
  | vld => exact execVld_keeps h
  | vst => exact execVst_keeps h
  | vldt => exact execVldt_keeps h
  | vstt => exact execVstt_keeps h
  | vmxq => exact execVmxq_keeps h
  | plogic => exact execPlogic_keeps h
  | pcnt => exact execPcnt_keeps h
  | pfirst => exact execPfirst_keeps h
  | wmbSubmit => exact execWmbSubmit_keeps h
  | partOpen => exact execPartOpen_keeps h
  | partClose => exact execPartClose_keeps h
  | assignEngine => exact execAssignEngine_keeps h
  | assignForeign => exact execAssignForeign_keeps h
  | assignChannel => exact execAssignChannel_keeps h
  | assignWays => exact execAssignWays_keeps h
  | assignVf => exact execAssignVf_keeps h
  | setShare => exact execSetShare_keeps h
  | setPower => exact execSetPower_keeps h
  | setMode => exact execSetMode_keeps h
  | setIsolation => exact execSetIsolation_keeps h
  | setContexts => exact execSetContexts_keeps h
  | setReserve => exact execSetReserve_keeps h
  | sealPartition => exact execSeal_keeps h
  | commitProgram => exact execCommitProgram_keeps h
  | abortProgram => exact execAbortProgram_keeps h
  | handoverPreemptTimeout => exact execHandoverPreemptTimeout_keeps h
  | handoverSwitch => exact execHandoverSwitch_keeps h
  | handoverSaveComplete => exact execHandoverSaveComplete_keeps h
  | stmtRequest => exact execStmtRequest_keeps h
  | stmtIssue => exact execStmtIssue_keeps h
  | ctxCreate => exact execCtxCreate_keeps h
  | ctxDestroy => exact execCtxDestroy_keeps h
  | abortComplete => exact execAbortComplete_keeps h
  | ctxQuery => exact execCtxQuery_keeps h
  | objCreate => exact execObjCreate_keeps h
  | objZeroingComplete => exact execObjZeroingComplete_keeps h
  | objCreateHost => exact execObjCreateHost_keeps h
  | fenceCreate => exact execFenceCreate_keeps h
  | fenceQuery => exact execFenceQuery_keeps h
  | importEntry => exact execImportEntry_keeps h
  | objUnknownOp => exact execObjUnknownOp_keeps h
  | fenceSignalApply => exact execFenceSignalApply_keeps h
  | waitGraphWalk => exact execWaitGraphWalk_keeps h
  | entryFree => exact execEntryFree_keeps h
  | importEnd => exact execImportEnd_keeps h
  | queueCreate => exact execQueueCreate_keeps h
  | queueDestroy => exact execQueueDestroy_keeps h
  | queueDestroyComplete => exact execQueueDestroyComplete_keeps h
  | queueResume => exact execQueueResume_keeps h
  | doorbell => exact execDoorbell_keeps h
  | ringLineReturn => exact execRingLineReturn_keeps h
  | tailReread => exact execTailReread_keeps h
  | qNop => exact execQNop_keeps h
  | launch => exact execLaunch_keeps h
  | launchResident => exact execLaunchResident_keeps h
  | launchResidentStop => exact execLaunchResidentStop_keeps h
  | waitFence => exact execWaitFence_keeps h
  | waitComplete => exact execWaitComplete_keeps h
  | signal => exact execSignal_keeps h
  | signalRemoteFabric => exact execSignalRemoteFabric_keeps h
  | signalRemotePeer => exact execSignalRemotePeer_keeps h
  | signalRemoteWrite => exact execSignalRemoteWrite_keeps h
  | copy => exact execCopy_keeps h
  | fill => exact execFill_keeps h
  | barrier => exact execBarrier_keeps h
  | jump => exact execJump_keeps h
  | callRing => exact execCallRing_keeps h
  | release => exact execRelease_keeps h
  | timestamp => exact execTimestamp_keeps h
  | qUndefinedOpcode => exact execQUndefinedOpcode_keeps h
  | peerSignalRecord => exact execPeerSignalRecord_keeps h
  | segMap => exact execSegMap_keeps h
  | segUnmap => exact execSegUnmap_keeps h
  | segRefuse => exact execSegRefuse_keeps h
  | undoSet => exact execUndoSet_keeps h
  | segShare => exact execSegShare_keeps h
  | segMissFill => exact execSegMissFill_keeps h
  | withdrawalAck => exact execWithdrawalAck_keeps h
  | withdrawalComplete => exact execWithdrawalComplete_keeps h
  | invalAckTimeout => exact execInvalAckTimeout_keeps h
  | segFaultRecordPost => exact execSegFaultRecordPost_keeps h
  | segFaultTimeout => exact execSegFaultTimeout_keeps h
  | undoCaptureComplete => exact execUndoCaptureComplete_keeps h
  | recoveryPoint => exact execRecoveryPoint_keeps h
  | missqHeadWrite => exact execMissqHeadWrite_keeps h
  | missqCtrlWrite => exact execMissqCtrlWrite_keeps h
  | bar4Read => exact execBar4Read_keeps h
  | bar4Write => exact execBar4Write_keeps h
  | sliceBoundary => exact execSliceBoundary_keeps h
  | allotWaitTimeout => exact execAllotWaitTimeout_keeps h
  | evict => exact execEvict_keeps h
  | switchOut => exact execSwitchOut_keeps h
  | switchOutComplete => exact execSwitchOutComplete_keeps h
  | switchIn => exact execSwitchIn_keeps h
  | recordRestoreComplete => exact execRecordRestoreComplete_keeps h
  | saveSet => exact execSaveSet_keeps h
  | ctxShare => exact execCtxShare_keeps h
  | ctxAccount => exact execCtxAccount_keeps h
  | schedCtrlWrite => exact execSchedCtrlWrite_keeps h
  | queueTarget => exact execQueueTarget_keeps h
  | chipletLinkUp => exact execChipletLinkUp_keeps h
  | cppCaps => exact execCppCaps_keeps h
  | capsTimeout => exact execCapsTimeout_keeps h
  | cppCredit => exact execCppCredit_keeps h
  | cppRead => exact execCppRead_keeps h
  | cppWrite => exact execCppWrite_keeps h
  | cppSignal => exact execCppSignal_keeps h
  | cppComplete => exact execCppComplete_keeps h
  | cppInvalAck => exact execCppInvalAck_keeps h
  | cppQuiesceAck => exact execCppQuiesceAck_keeps h
  | cppResetAck => exact execCppResetAck_keeps h
  | quiesceTimeout => exact execQuiesceTimeout_keeps h
  | resetTimeout => exact execResetTimeout_keeps h
  | creditStallTimeout => exact execCreditStallTimeout_keeps h
  | chipletLinkDown => exact execChipletLinkDown_keeps h
  | readDataSend => exact execReadDataSend_keeps h
  | cpRecover => exact execCpRecover_keeps h
  | fpTrain => exact execFpTrain_keeps h
  | fpDisable => exact execFpDisable_keeps h
  | laneDetect => exact execLaneDetect_keeps h
  | detectTimeout => exact execDetectTimeout_keeps h
  | equaliseStable => exact execEqualiseStable_keeps h
  | equaliseTimeout => exact execEqualiseTimeout_keeps h
  | alignComplete => exact execAlignComplete_keeps h
  | alignFail => exact execAlignFail_keeps h
  | identExchange => exact execIdentExchange_keeps h
  | identTimeout => exact execIdentTimeout_keeps h
  | calibrateComplete => exact execCalibrateComplete_keeps h
  | trainTimeout => exact execTrainTimeout_keeps h
  | laneLockLoss => exact execLaneLockLoss_keeps h
  | fecErrorRate => exact execFecErrorRate_keeps h
  | flitReceive => exact execFlitReceive_keeps h
  | replayTimeout => exact execReplayTimeout_keeps h
  | fabricSignal => exact execFabricSignal_keeps h
  | fabricSignalAck => exact execFabricSignalAck_keeps h
  | partialMsg => exact execPartialMsg_keeps h
  | partialAck => exact execPartialAck_keeps h
  | partialRetryResend => exact execPartialRetryResend_keeps h
  | partialAbandon => exact execPartialAbandon_keeps h
  | schedXferData => exact execSchedXferData_keeps h
  | schedVote => exact execSchedVote_keeps h
  | schedCommit => exact execSchedCommit_keeps h
  | fwChunk => exact execFwChunk_keeps h
  | fwAck => exact execFwAck_keeps h
  | manifest => exact execManifest_keeps h
  | thymeMsg p m t =>
    cases c with
    | false => exact execThymeMsg_keeps h
    | true => exact absurd rfl (hi rfl p m t)
  | wmsg => exact execWmsg_keeps h
  | linkNote => exact execLinkNote_keeps h
  | e2eResendTimeout => exact execE2eResendTimeout_keeps h
  | fabIdWrite => exact execFabIdWrite_keeps h
  | thymeSendTick => exact execThymeSendTick_keeps h
  | thymeRootTimeout => exact execThymeRootTimeout_keeps h
  | thymeParentTimeout => exact execThymeParentTimeout_keeps h
  | thymeHoldoverTick => exact execThymeHoldoverTick_keeps h
  | thymeStateTimer => exact execThymeStateTimer_keeps h
  | sxAdmit => exact execSxAdmit_keeps h
  | sxStart => exact execSxStart_keeps h
  | sxSuspend => exact execSxSuspend_keeps h
  | sxResume => exact execSxResume_keeps h
  | sxUnload => exact execSxUnload_keeps h
  | sxUnknownOp => exact execSxUnknownOp_keeps h
  | startDecision => exact execStartDecision_keeps h
  | startBeatTimeout => exact execStartBeatTimeout_keeps h
  | beatStepDispatch => exact execBeatStepDispatch_keeps h
  | beatXferStart => exact execBeatXferStart_keeps h
  | overrun => exact execOverrun_keeps h
  | epochBoundary => exact execEpochBoundary_keeps h
  | saveWindowEnd => exact execSaveWindowEnd_keeps h
  | voteWindowTimeout => exact execVoteWindowTimeout_keeps h
  | rollbackTrigger => exact execRollbackTrigger_keeps h
  | rollbackReport => exact execRollbackReport_keeps h
  | restartBeat => exact execRestartBeat_keeps h
  | scheduleEnd => exact execScheduleEnd_keeps h
  | pcieUnmappedRequest => exact execPcieUnmappedRequest_keeps h
  | poisonedWrite => exact execPoisonedWrite_keeps h
  | cplFailure => exact execCplFailure_keeps h
  | cplErrorStatus => exact execCplErrorStatus_keeps h
  | vfFlr => exact execVfFlr_keeps h
  | pfFlr => exact execPfFlr_keeps h
  | vfEnableClear => exact execVfEnableClear_keeps h
  | numvfsWrite => exact execNumvfsWrite_keeps h
  | d3hotEntry => exact execD3hotEntry_keeps h
  | msixUnmask => exact execMsixUnmask_keeps h
  | intStatusClear => exact execIntStatusClear_keeps h
  | notifyHeadWrite => exact execNotifyHeadWrite_keeps h
  | notifyCtrlWrite => exact execNotifyCtrlWrite_keeps h
  | msgSend => exact execMsgSend_keeps h
  | msgPendingClear => exact execMsgPendingClear_keeps h
  | sageMessage => exact execSageMessage_keeps h
  | sgPop => exact execSgPop_keeps h
  | sgPinResume => exact execSgPinResume_keeps h
  | pinHoldExpire => exact execPinHoldExpire_keeps h
  | sageWindowClose => exact execSageWindowClose_keeps h
  | sgSrcCfgWrite => exact execSgSrcCfgWrite_keeps h
  | patrolScrub => exact execPatrolScrub_keeps h
  | parityError => exact execParityError_keeps h
  | replay => exact execReplay_keeps h
  | replayRestoreComplete => exact execReplayRestoreComplete_keeps h
  | selftestDue => exact execSelftestDue_keeps h
  | selftestPreemptTimeout => exact execSelftestPreemptTimeout_keeps h
  | selftestComplete => exact execSelftestComplete_keeps h
  | wardenMismatch => exact execWardenMismatch_keeps h
  | wardenRestartComplete => exact execWardenRestartComplete_keeps h
  | sageParityError => exact execSageParityError_keeps h
  | rmStoreWriteComplete => exact execRmStoreWriteComplete_keeps h
  | rmSelect => exact execRmSelect_keeps h
  | rmShutdown => exact execRmShutdown_keeps h
  | rmClear => exact execRmClear_keeps h
  | timeCommit => exact execTimeCommit_keeps h
  | hoursTick => exact execHoursTick_keeps h
  | bucketRefill => exact execBucketRefill_keeps h
  | lcChallenge => exact execLcChallenge_keeps h
  | lcTransition => exact execLcTransition_keeps h
  | lcFinish => exact execLcFinish_keeps h
  | lcTest => exact execLcTest_keeps h
  | lcHubDebug => exact execLcHubDebug_keeps h
  | lcPartitionDebug => exact execLcPartitionDebug_keeps h
  | lcRma => exact execLcRma_keeps h
  | lcRecorderClear => exact execLcRecorderClear_keeps h
  | lcCertWrite => exact execLcCertWrite_keeps h
  | lcAttest => exact execLcAttest_keeps h
  | lcEndGrants => exact execLcEndGrants_keeps h
  | lcUnknownOp => exact execLcUnknownOp_keeps h
  | challengeExpire => exact execChallengeExpire_keeps h
  | grantExpire => exact execGrantExpire_keeps h
  | debugWindowRead => exact execDebugWindowRead_keeps h
  | debugWindowWrite => exact execDebugWindowWrite_keeps h
  | entropyHealthFail => exact execEntropyHealthFail_keeps h
  | certRead => exact execCertRead_keeps h
  | dbgKeySet => exact execDbgKeySet_keeps h
  | powerInterval => exact execPowerInterval_keeps h
  | pllRelockComplete => exact execPllRelockComplete_keeps h
  | engineIdleTimeout => exact execEngineIdleTimeout_keeps h
  | pwrLimitWrite => exact execPwrLimitWrite_keeps h
  | pwrFmaxWrite => exact execPwrFmaxWrite_keeps h
  | thermLimitsWrite => exact execThermLimitsWrite_keeps h
  | fptCompose => exact execFptCompose_keeps h
  | bootReqSample => exact execBootReqSample_keeps h
  | bootLoad => exact execBootLoad_keeps h
  | bootBroadcast => exact execBootBroadcast_keeps h
  | bootUnknownOp => exact execBootUnknownOp_keeps h
  | fwVerifyComplete => exact execFwVerifyComplete_keeps h
  | fwRunning => exact execFwRunning_keeps h
  | fwLoadStall => exact execFwLoadStall_keeps h
  | pcieLinkUp => exact execPcieLinkUp_keeps h
  | pcieLinkDown => exact execPcieLinkDown_keeps h
  | clockSourceLock => exact execClockSourceLock_keeps h
  | droopRecovery => exact execDroopRecovery_keeps h
  | d3hotExit => exact execD3hotExit_keeps h
  | vfFlrComplete => exact execVfFlrComplete_keeps h
  | instructionCompletionPoint => exact execInstructionCompletionPoint_keeps h
  | copyComplete => exact execCopyComplete_keeps h
  | noRouteTimeout => exact execNoRouteTimeout_keeps h
  | entropyHealthPass => exact execEntropyHealthPass_keeps h
  | noEntropyTimeout => exact execNoEntropyTimeout_keeps h
  | rmStoreReadComplete => exact execRmStoreReadComplete_keeps h
  | cppUndefinedMessage => exact execCppUndefinedMessage_keeps h
  | ofpUndefinedMessage => exact execOfpUndefinedMessage_keeps h

/-- A step with a command in front answers a next state; what it keeps is kept from the state with the queue's rest. -/
theorem step_keeps {i : Instr} {rest : List Instr} {s : State} (hp : s.pending = i :: rest) :
    KeepsX false { s with pending := rest } (step s) := by
  unfold step
  rw [hp]
  exact exec_keeps (fun e => by cases e) (Keeps.refl _)

/-- A step on an empty queue answers a next state and keeps. -/
theorem step_keeps_idle {s : State} (hp : s.pending = []) : KeepsX false s (step s) := by
  unfold step
  rw [hp]
  exact keeps_next (State.tick_keeps (Keeps.refl _))

end Sys2Proof.Machine
end

