-- ==== Sys2Proof/Laws/State.lean ====
section
/-! SUPPORT. What each update of the state leaves of every field and of every table's entries, so that no proof unfolds a
record update. -/

namespace Sys2Proof.Machine

theorem fnKey_inj {f g : Fn} : fnKey f = fnKey g ↔ f = g := by
  cases f <;> cases g <;> simp [fnKey]

/-! ### setCtx -/

@[simp] theorem State.setCtx_build (s : State) (c : Nat) (x : Context) : (s.setCtx c x).build = s.build := rfl
@[simp] theorem State.setCtx_pins (s : State) (c : Nat) (x : Context) : (s.setCtx c x).pins = s.pins := rfl
@[simp] theorem State.setCtx_mem (s : State) (c : Nat) (x : Context) : (s.setCtx c x).mem = s.mem := rfl
@[simp] theorem State.setCtx_hostMem (s : State) (c : Nat) (x : Context) : (s.setCtx c x).hostMem = s.hostMem := rfl
@[simp] theorem State.setCtx_units (s : State) (c : Nat) (x : Context) : (s.setCtx c x).units = s.units := rfl
@[simp] theorem State.setCtx_wmb (s : State) (c : Nat) (x : Context) : (s.setCtx c x).wmb = s.wmb := rfl
@[simp] theorem State.setCtx_objs (s : State) (c : Nat) (x : Context) : (s.setCtx c x).objs = s.objs := rfl
@[simp] theorem State.setCtx_fences (s : State) (c : Nat) (x : Context) : (s.setCtx c x).fences = s.fences := rfl
@[simp] theorem State.setCtx_fenceWire (s : State) (c : Nat) (x : Context) : (s.setCtx c x).fenceWire = s.fenceWire := rfl
@[simp] theorem State.setCtx_cmds (s : State) (c : Nat) (x : Context) : (s.setCtx c x).cmds = s.cmds := rfl
@[simp] theorem State.setCtx_launches (s : State) (c : Nat) (x : Context) : (s.setCtx c x).launches = s.launches := rfl
@[simp] theorem State.setCtx_engines (s : State) (c : Nat) (x : Context) : (s.setCtx c x).engines = s.engines := rfl
@[simp] theorem State.setCtx_blocks (s : State) (c : Nat) (x : Context) : (s.setCtx c x).blocks = s.blocks := rfl
@[simp] theorem State.setCtx_missqs (s : State) (c : Nat) (x : Context) : (s.setCtx c x).missqs = s.missqs := rfl
@[simp] theorem State.setCtx_withdrawals (s : State) (c : Nat) (x : Context) : (s.setCtx c x).withdrawals = s.withdrawals := rfl
@[simp] theorem State.setCtx_segFaults (s : State) (c : Nat) (x : Context) : (s.setCtx c x).segFaults = s.segFaults := rfl
@[simp] theorem State.setCtx_caches (s : State) (c : Nat) (x : Context) : (s.setCtx c x).caches = s.caches := rfl
@[simp] theorem State.setCtx_sems (s : State) (c : Nat) (x : Context) : (s.setCtx c x).sems = s.sems := rfl
@[simp] theorem State.setCtx_holdLimit (s : State) (c : Nat) (x : Context) : (s.setCtx c x).holdLimit = s.holdLimit := rfl
@[simp] theorem State.setCtx_schedCtr (s : State) (c : Nat) (x : Context) : (s.setCtx c x).schedCtr = s.schedCtr := rfl
@[simp] theorem State.setCtx_fe (s : State) (c : Nat) (x : Context) : (s.setCtx c x).fe = s.fe := rfl
@[simp] theorem State.setCtx_peers (s : State) (c : Nat) (x : Context) : (s.setCtx c x).peers = s.peers := rfl
@[simp] theorem State.setCtx_freeing (s : State) (c : Nat) (x : Context) : (s.setCtx c x).freeing = s.freeing := rfl
@[simp] theorem State.setCtx_ep (s : State) (c : Nat) (x : Context) : (s.setCtx c x).ep = s.ep := rfl
@[simp] theorem State.setCtx_sage (s : State) (c : Nat) (x : Context) : (s.setCtx c x).sage = s.sage := rfl
@[simp] theorem State.setCtx_failures (s : State) (c : Nat) (x : Context) : (s.setCtx c x).failures = s.failures := rfl
@[simp] theorem State.setCtx_spineRetries (s : State) (c : Nat) (x : Context) : (s.setCtx c x).spineRetries = s.spineRetries := rfl
@[simp] theorem State.setCtx_rm (s : State) (c : Nat) (x : Context) : (s.setCtx c x).rm = s.rm := rfl
@[simp] theorem State.setCtx_lc (s : State) (c : Nat) (x : Context) : (s.setCtx c x).lc = s.lc := rfl
@[simp] theorem State.setCtx_pw (s : State) (c : Nat) (x : Context) : (s.setCtx c x).pw = s.pw := rfl
@[simp] theorem State.setCtx_boot (s : State) (c : Nat) (x : Context) : (s.setCtx c x).boot = s.boot := rfl
@[simp] theorem State.setCtx_cps (s : State) (c : Nat) (x : Context) : (s.setCtx c x).cps = s.cps := rfl
@[simp] theorem State.setCtx_fps (s : State) (c : Nat) (x : Context) : (s.setCtx c x).fps = s.fps := rfl
@[simp] theorem State.setCtx_fab (s : State) (c : Nat) (x : Context) : (s.setCtx c x).fab = s.fab := rfl
@[simp] theorem State.setCtx_thyme (s : State) (c : Nat) (x : Context) : (s.setCtx c x).thyme = s.thyme := rfl
@[simp] theorem State.setCtx_sx (s : State) (c : Nat) (x : Context) : (s.setCtx c x).sx = s.sx := rfl
@[simp] theorem State.setCtx_out (s : State) (c : Nat) (x : Context) : (s.setCtx c x).out = s.out := rfl
@[simp] theorem State.setCtx_nextId (s : State) (c : Nat) (x : Context) : (s.setCtx c x).nextId = s.nextId := rfl
@[simp] theorem State.setCtx_freeCtr (s : State) (c : Nat) (x : Context) : (s.setCtx c x).freeCtr = s.freeCtr := rfl
@[simp] theorem State.setCtx_pending (s : State) (c : Nat) (x : Context) : (s.setCtx c x).pending = s.pending := rfl
@[simp] theorem State.ctx_setCtx (s : State) (c : Nat) (x : Context) : (s.setCtx c x).ctx c = x := tget_tput ..
theorem State.ctx_setCtx_ne (s : State) {j c : Nat} (x : Context) (h : j ≠ c) : (s.setCtx c x).ctx j = s.ctx j :=
  tget_tput_ne _ _ _ (h)
@[simp] theorem State.obj_setCtx (s : State) (c : Nat) (x : Context) (j : Nat) : (s.setCtx c x).obj j = s.obj j := rfl
@[simp] theorem State.fence_setCtx (s : State) (c : Nat) (x : Context) (j : Nat) : (s.setCtx c x).fence j = s.fence j := rfl
@[simp] theorem State.part_setCtx (s : State) (c : Nat) (x : Context) (j : Nat) : (s.setCtx c x).part j = s.part j := rfl
@[simp] theorem State.engine_setCtx (s : State) (c : Nat) (x : Context) (j : Nat) : (s.setCtx c x).engine j = s.engine j := rfl
@[simp] theorem State.block_setCtx (s : State) (c : Nat) (x : Context) (j : Fn) : (s.setCtx c x).block j = s.block j := rfl
@[simp] theorem State.missq_setCtx (s : State) (c : Nat) (x : Context) (j : Fn) : (s.setCtx c x).missq j = s.missq j := rfl
@[simp] theorem State.vf_setCtx (s : State) (c : Nat) (x : Context) (j : Nat) : (s.setCtx c x).vf j = s.vf j := rfl
@[simp] theorem State.cp_setCtx (s : State) (c : Nat) (x : Context) (j : Nat) : (s.setCtx c x).cp j = s.cp j := rfl
@[simp] theorem State.fp_setCtx (s : State) (c : Nat) (x : Context) (j : Nat) : (s.setCtx c x).fp j = s.fp j := rfl
@[simp] theorem State.cu_setCtx (s : State) (c : Nat) (x : Context) (j : Nat) : (s.setCtx c x).cu j = s.cu j := rfl
@[simp] theorem State.sched_setCtx (s : State) (c : Nat) (x : Context) (j : Nat) : (s.setCtx c x).sched j = s.sched j := rfl
@[simp] theorem State.domain_setCtx (s : State) (c : Nat) (x : Context) (j : Nat) : (s.setCtx c x).domain j = s.domain j := rfl
@[simp] theorem State.sem_setCtx (s : State) (c : Nat) (x : Context) (j : Nat) : (s.setCtx c x).sem j = s.sem j := rfl
@[simp] theorem State.setCtx_setCtx (s : State) (c : Nat) (x y : Context) : (s.setCtx c x).setCtx c y = s.setCtx c y := by
  simp [State.setCtx]

/-! ### setObj -/

@[simp] theorem State.setObj_build (s : State) (i : Nat) (x : Obj) : (s.setObj i x).build = s.build := rfl
@[simp] theorem State.setObj_pins (s : State) (i : Nat) (x : Obj) : (s.setObj i x).pins = s.pins := rfl
@[simp] theorem State.setObj_mem (s : State) (i : Nat) (x : Obj) : (s.setObj i x).mem = s.mem := rfl
@[simp] theorem State.setObj_hostMem (s : State) (i : Nat) (x : Obj) : (s.setObj i x).hostMem = s.hostMem := rfl
@[simp] theorem State.setObj_units (s : State) (i : Nat) (x : Obj) : (s.setObj i x).units = s.units := rfl
@[simp] theorem State.setObj_wmb (s : State) (i : Nat) (x : Obj) : (s.setObj i x).wmb = s.wmb := rfl
@[simp] theorem State.setObj_ctxs (s : State) (i : Nat) (x : Obj) : (s.setObj i x).ctxs = s.ctxs := rfl
@[simp] theorem State.setObj_fences (s : State) (i : Nat) (x : Obj) : (s.setObj i x).fences = s.fences := rfl
@[simp] theorem State.setObj_fenceWire (s : State) (i : Nat) (x : Obj) : (s.setObj i x).fenceWire = s.fenceWire := rfl
@[simp] theorem State.setObj_cmds (s : State) (i : Nat) (x : Obj) : (s.setObj i x).cmds = s.cmds := rfl
@[simp] theorem State.setObj_launches (s : State) (i : Nat) (x : Obj) : (s.setObj i x).launches = s.launches := rfl
@[simp] theorem State.setObj_engines (s : State) (i : Nat) (x : Obj) : (s.setObj i x).engines = s.engines := rfl
@[simp] theorem State.setObj_blocks (s : State) (i : Nat) (x : Obj) : (s.setObj i x).blocks = s.blocks := rfl
@[simp] theorem State.setObj_missqs (s : State) (i : Nat) (x : Obj) : (s.setObj i x).missqs = s.missqs := rfl
@[simp] theorem State.setObj_withdrawals (s : State) (i : Nat) (x : Obj) : (s.setObj i x).withdrawals = s.withdrawals := rfl
@[simp] theorem State.setObj_segFaults (s : State) (i : Nat) (x : Obj) : (s.setObj i x).segFaults = s.segFaults := rfl
@[simp] theorem State.setObj_caches (s : State) (i : Nat) (x : Obj) : (s.setObj i x).caches = s.caches := rfl
@[simp] theorem State.setObj_sems (s : State) (i : Nat) (x : Obj) : (s.setObj i x).sems = s.sems := rfl
@[simp] theorem State.setObj_holdLimit (s : State) (i : Nat) (x : Obj) : (s.setObj i x).holdLimit = s.holdLimit := rfl
@[simp] theorem State.setObj_schedCtr (s : State) (i : Nat) (x : Obj) : (s.setObj i x).schedCtr = s.schedCtr := rfl
@[simp] theorem State.setObj_fe (s : State) (i : Nat) (x : Obj) : (s.setObj i x).fe = s.fe := rfl
@[simp] theorem State.setObj_peers (s : State) (i : Nat) (x : Obj) : (s.setObj i x).peers = s.peers := rfl
@[simp] theorem State.setObj_freeing (s : State) (i : Nat) (x : Obj) : (s.setObj i x).freeing = s.freeing := rfl
@[simp] theorem State.setObj_ep (s : State) (i : Nat) (x : Obj) : (s.setObj i x).ep = s.ep := rfl
@[simp] theorem State.setObj_sage (s : State) (i : Nat) (x : Obj) : (s.setObj i x).sage = s.sage := rfl
@[simp] theorem State.setObj_failures (s : State) (i : Nat) (x : Obj) : (s.setObj i x).failures = s.failures := rfl
@[simp] theorem State.setObj_spineRetries (s : State) (i : Nat) (x : Obj) : (s.setObj i x).spineRetries = s.spineRetries := rfl
@[simp] theorem State.setObj_rm (s : State) (i : Nat) (x : Obj) : (s.setObj i x).rm = s.rm := rfl
@[simp] theorem State.setObj_lc (s : State) (i : Nat) (x : Obj) : (s.setObj i x).lc = s.lc := rfl
@[simp] theorem State.setObj_pw (s : State) (i : Nat) (x : Obj) : (s.setObj i x).pw = s.pw := rfl
@[simp] theorem State.setObj_boot (s : State) (i : Nat) (x : Obj) : (s.setObj i x).boot = s.boot := rfl
@[simp] theorem State.setObj_cps (s : State) (i : Nat) (x : Obj) : (s.setObj i x).cps = s.cps := rfl
@[simp] theorem State.setObj_fps (s : State) (i : Nat) (x : Obj) : (s.setObj i x).fps = s.fps := rfl
@[simp] theorem State.setObj_fab (s : State) (i : Nat) (x : Obj) : (s.setObj i x).fab = s.fab := rfl
@[simp] theorem State.setObj_thyme (s : State) (i : Nat) (x : Obj) : (s.setObj i x).thyme = s.thyme := rfl
@[simp] theorem State.setObj_sx (s : State) (i : Nat) (x : Obj) : (s.setObj i x).sx = s.sx := rfl
@[simp] theorem State.setObj_out (s : State) (i : Nat) (x : Obj) : (s.setObj i x).out = s.out := rfl
@[simp] theorem State.setObj_nextId (s : State) (i : Nat) (x : Obj) : (s.setObj i x).nextId = s.nextId := rfl
@[simp] theorem State.setObj_freeCtr (s : State) (i : Nat) (x : Obj) : (s.setObj i x).freeCtr = s.freeCtr := rfl
@[simp] theorem State.setObj_pending (s : State) (i : Nat) (x : Obj) : (s.setObj i x).pending = s.pending := rfl
@[simp] theorem State.obj_setObj (s : State) (i : Nat) (x : Obj) : (s.setObj i x).obj i = x := tget_tput ..
theorem State.obj_setObj_ne (s : State) {j i : Nat} (x : Obj) (h : j ≠ i) : (s.setObj i x).obj j = s.obj j :=
  tget_tput_ne _ _ _ (h)
@[simp] theorem State.ctx_setObj (s : State) (i : Nat) (x : Obj) (j : Nat) : (s.setObj i x).ctx j = s.ctx j := rfl
@[simp] theorem State.fence_setObj (s : State) (i : Nat) (x : Obj) (j : Nat) : (s.setObj i x).fence j = s.fence j := rfl
@[simp] theorem State.part_setObj (s : State) (i : Nat) (x : Obj) (j : Nat) : (s.setObj i x).part j = s.part j := rfl
@[simp] theorem State.engine_setObj (s : State) (i : Nat) (x : Obj) (j : Nat) : (s.setObj i x).engine j = s.engine j := rfl
@[simp] theorem State.block_setObj (s : State) (i : Nat) (x : Obj) (j : Fn) : (s.setObj i x).block j = s.block j := rfl
@[simp] theorem State.missq_setObj (s : State) (i : Nat) (x : Obj) (j : Fn) : (s.setObj i x).missq j = s.missq j := rfl
@[simp] theorem State.vf_setObj (s : State) (i : Nat) (x : Obj) (j : Nat) : (s.setObj i x).vf j = s.vf j := rfl
@[simp] theorem State.cp_setObj (s : State) (i : Nat) (x : Obj) (j : Nat) : (s.setObj i x).cp j = s.cp j := rfl
@[simp] theorem State.fp_setObj (s : State) (i : Nat) (x : Obj) (j : Nat) : (s.setObj i x).fp j = s.fp j := rfl
@[simp] theorem State.cu_setObj (s : State) (i : Nat) (x : Obj) (j : Nat) : (s.setObj i x).cu j = s.cu j := rfl
@[simp] theorem State.sched_setObj (s : State) (i : Nat) (x : Obj) (j : Nat) : (s.setObj i x).sched j = s.sched j := rfl
@[simp] theorem State.domain_setObj (s : State) (i : Nat) (x : Obj) (j : Nat) : (s.setObj i x).domain j = s.domain j := rfl
@[simp] theorem State.sem_setObj (s : State) (i : Nat) (x : Obj) (j : Nat) : (s.setObj i x).sem j = s.sem j := rfl
@[simp] theorem State.setObj_setObj (s : State) (i : Nat) (x y : Obj) : (s.setObj i x).setObj i y = s.setObj i y := by
  simp [State.setObj]

/-! ### setFence -/

@[simp] theorem State.setFence_build (s : State) (i : Nat) (x : Fence) : (s.setFence i x).build = s.build := rfl
@[simp] theorem State.setFence_pins (s : State) (i : Nat) (x : Fence) : (s.setFence i x).pins = s.pins := rfl
@[simp] theorem State.setFence_mem (s : State) (i : Nat) (x : Fence) : (s.setFence i x).mem = s.mem := rfl
@[simp] theorem State.setFence_hostMem (s : State) (i : Nat) (x : Fence) : (s.setFence i x).hostMem = s.hostMem := rfl
@[simp] theorem State.setFence_units (s : State) (i : Nat) (x : Fence) : (s.setFence i x).units = s.units := rfl
@[simp] theorem State.setFence_wmb (s : State) (i : Nat) (x : Fence) : (s.setFence i x).wmb = s.wmb := rfl
@[simp] theorem State.setFence_ctxs (s : State) (i : Nat) (x : Fence) : (s.setFence i x).ctxs = s.ctxs := rfl
@[simp] theorem State.setFence_objs (s : State) (i : Nat) (x : Fence) : (s.setFence i x).objs = s.objs := rfl
@[simp] theorem State.setFence_fenceWire (s : State) (i : Nat) (x : Fence) : (s.setFence i x).fenceWire = s.fenceWire := rfl
@[simp] theorem State.setFence_cmds (s : State) (i : Nat) (x : Fence) : (s.setFence i x).cmds = s.cmds := rfl
@[simp] theorem State.setFence_launches (s : State) (i : Nat) (x : Fence) : (s.setFence i x).launches = s.launches := rfl
@[simp] theorem State.setFence_engines (s : State) (i : Nat) (x : Fence) : (s.setFence i x).engines = s.engines := rfl
@[simp] theorem State.setFence_blocks (s : State) (i : Nat) (x : Fence) : (s.setFence i x).blocks = s.blocks := rfl
@[simp] theorem State.setFence_missqs (s : State) (i : Nat) (x : Fence) : (s.setFence i x).missqs = s.missqs := rfl
@[simp] theorem State.setFence_withdrawals (s : State) (i : Nat) (x : Fence) : (s.setFence i x).withdrawals = s.withdrawals := rfl
@[simp] theorem State.setFence_segFaults (s : State) (i : Nat) (x : Fence) : (s.setFence i x).segFaults = s.segFaults := rfl
@[simp] theorem State.setFence_caches (s : State) (i : Nat) (x : Fence) : (s.setFence i x).caches = s.caches := rfl
@[simp] theorem State.setFence_sems (s : State) (i : Nat) (x : Fence) : (s.setFence i x).sems = s.sems := rfl
@[simp] theorem State.setFence_holdLimit (s : State) (i : Nat) (x : Fence) : (s.setFence i x).holdLimit = s.holdLimit := rfl
@[simp] theorem State.setFence_schedCtr (s : State) (i : Nat) (x : Fence) : (s.setFence i x).schedCtr = s.schedCtr := rfl
@[simp] theorem State.setFence_fe (s : State) (i : Nat) (x : Fence) : (s.setFence i x).fe = s.fe := rfl
@[simp] theorem State.setFence_peers (s : State) (i : Nat) (x : Fence) : (s.setFence i x).peers = s.peers := rfl
@[simp] theorem State.setFence_freeing (s : State) (i : Nat) (x : Fence) : (s.setFence i x).freeing = s.freeing := rfl
@[simp] theorem State.setFence_ep (s : State) (i : Nat) (x : Fence) : (s.setFence i x).ep = s.ep := rfl
@[simp] theorem State.setFence_sage (s : State) (i : Nat) (x : Fence) : (s.setFence i x).sage = s.sage := rfl
@[simp] theorem State.setFence_failures (s : State) (i : Nat) (x : Fence) : (s.setFence i x).failures = s.failures := rfl
@[simp] theorem State.setFence_spineRetries (s : State) (i : Nat) (x : Fence) : (s.setFence i x).spineRetries = s.spineRetries := rfl
@[simp] theorem State.setFence_rm (s : State) (i : Nat) (x : Fence) : (s.setFence i x).rm = s.rm := rfl
@[simp] theorem State.setFence_lc (s : State) (i : Nat) (x : Fence) : (s.setFence i x).lc = s.lc := rfl
@[simp] theorem State.setFence_pw (s : State) (i : Nat) (x : Fence) : (s.setFence i x).pw = s.pw := rfl
@[simp] theorem State.setFence_boot (s : State) (i : Nat) (x : Fence) : (s.setFence i x).boot = s.boot := rfl
@[simp] theorem State.setFence_cps (s : State) (i : Nat) (x : Fence) : (s.setFence i x).cps = s.cps := rfl
@[simp] theorem State.setFence_fps (s : State) (i : Nat) (x : Fence) : (s.setFence i x).fps = s.fps := rfl
@[simp] theorem State.setFence_fab (s : State) (i : Nat) (x : Fence) : (s.setFence i x).fab = s.fab := rfl
@[simp] theorem State.setFence_thyme (s : State) (i : Nat) (x : Fence) : (s.setFence i x).thyme = s.thyme := rfl
@[simp] theorem State.setFence_sx (s : State) (i : Nat) (x : Fence) : (s.setFence i x).sx = s.sx := rfl
@[simp] theorem State.setFence_out (s : State) (i : Nat) (x : Fence) : (s.setFence i x).out = s.out := rfl
@[simp] theorem State.setFence_nextId (s : State) (i : Nat) (x : Fence) : (s.setFence i x).nextId = s.nextId := rfl
@[simp] theorem State.setFence_freeCtr (s : State) (i : Nat) (x : Fence) : (s.setFence i x).freeCtr = s.freeCtr := rfl
@[simp] theorem State.setFence_pending (s : State) (i : Nat) (x : Fence) : (s.setFence i x).pending = s.pending := rfl
@[simp] theorem State.fence_setFence (s : State) (i : Nat) (x : Fence) : (s.setFence i x).fence i = x := tget_tput ..
theorem State.fence_setFence_ne (s : State) {j i : Nat} (x : Fence) (h : j ≠ i) : (s.setFence i x).fence j = s.fence j :=
  tget_tput_ne _ _ _ (h)
@[simp] theorem State.ctx_setFence (s : State) (i : Nat) (x : Fence) (j : Nat) : (s.setFence i x).ctx j = s.ctx j := rfl
@[simp] theorem State.obj_setFence (s : State) (i : Nat) (x : Fence) (j : Nat) : (s.setFence i x).obj j = s.obj j := rfl
@[simp] theorem State.part_setFence (s : State) (i : Nat) (x : Fence) (j : Nat) : (s.setFence i x).part j = s.part j := rfl
@[simp] theorem State.engine_setFence (s : State) (i : Nat) (x : Fence) (j : Nat) : (s.setFence i x).engine j = s.engine j := rfl
@[simp] theorem State.block_setFence (s : State) (i : Nat) (x : Fence) (j : Fn) : (s.setFence i x).block j = s.block j := rfl
@[simp] theorem State.missq_setFence (s : State) (i : Nat) (x : Fence) (j : Fn) : (s.setFence i x).missq j = s.missq j := rfl
@[simp] theorem State.vf_setFence (s : State) (i : Nat) (x : Fence) (j : Nat) : (s.setFence i x).vf j = s.vf j := rfl
@[simp] theorem State.cp_setFence (s : State) (i : Nat) (x : Fence) (j : Nat) : (s.setFence i x).cp j = s.cp j := rfl
@[simp] theorem State.fp_setFence (s : State) (i : Nat) (x : Fence) (j : Nat) : (s.setFence i x).fp j = s.fp j := rfl
@[simp] theorem State.cu_setFence (s : State) (i : Nat) (x : Fence) (j : Nat) : (s.setFence i x).cu j = s.cu j := rfl
@[simp] theorem State.sched_setFence (s : State) (i : Nat) (x : Fence) (j : Nat) : (s.setFence i x).sched j = s.sched j := rfl
@[simp] theorem State.domain_setFence (s : State) (i : Nat) (x : Fence) (j : Nat) : (s.setFence i x).domain j = s.domain j := rfl
@[simp] theorem State.sem_setFence (s : State) (i : Nat) (x : Fence) (j : Nat) : (s.setFence i x).sem j = s.sem j := rfl
@[simp] theorem State.setFence_setFence (s : State) (i : Nat) (x y : Fence) : (s.setFence i x).setFence i y = s.setFence i y := by
  simp [State.setFence]

/-! ### setPart -/

@[simp] theorem State.setPart_build (s : State) (p : Nat) (x : Part) : (s.setPart p x).build = s.build := rfl
@[simp] theorem State.setPart_pins (s : State) (p : Nat) (x : Part) : (s.setPart p x).pins = s.pins := rfl
@[simp] theorem State.setPart_mem (s : State) (p : Nat) (x : Part) : (s.setPart p x).mem = s.mem := rfl
@[simp] theorem State.setPart_hostMem (s : State) (p : Nat) (x : Part) : (s.setPart p x).hostMem = s.hostMem := rfl
@[simp] theorem State.setPart_wmb (s : State) (p : Nat) (x : Part) : (s.setPart p x).wmb = s.wmb := rfl
@[simp] theorem State.setPart_ctxs (s : State) (p : Nat) (x : Part) : (s.setPart p x).ctxs = s.ctxs := rfl
@[simp] theorem State.setPart_objs (s : State) (p : Nat) (x : Part) : (s.setPart p x).objs = s.objs := rfl
@[simp] theorem State.setPart_fences (s : State) (p : Nat) (x : Part) : (s.setPart p x).fences = s.fences := rfl
@[simp] theorem State.setPart_fenceWire (s : State) (p : Nat) (x : Part) : (s.setPart p x).fenceWire = s.fenceWire := rfl
@[simp] theorem State.setPart_cmds (s : State) (p : Nat) (x : Part) : (s.setPart p x).cmds = s.cmds := rfl
@[simp] theorem State.setPart_launches (s : State) (p : Nat) (x : Part) : (s.setPart p x).launches = s.launches := rfl
@[simp] theorem State.setPart_engines (s : State) (p : Nat) (x : Part) : (s.setPart p x).engines = s.engines := rfl
@[simp] theorem State.setPart_blocks (s : State) (p : Nat) (x : Part) : (s.setPart p x).blocks = s.blocks := rfl
@[simp] theorem State.setPart_missqs (s : State) (p : Nat) (x : Part) : (s.setPart p x).missqs = s.missqs := rfl
@[simp] theorem State.setPart_withdrawals (s : State) (p : Nat) (x : Part) : (s.setPart p x).withdrawals = s.withdrawals := rfl
@[simp] theorem State.setPart_segFaults (s : State) (p : Nat) (x : Part) : (s.setPart p x).segFaults = s.segFaults := rfl
@[simp] theorem State.setPart_caches (s : State) (p : Nat) (x : Part) : (s.setPart p x).caches = s.caches := rfl
@[simp] theorem State.setPart_sems (s : State) (p : Nat) (x : Part) : (s.setPart p x).sems = s.sems := rfl
@[simp] theorem State.setPart_holdLimit (s : State) (p : Nat) (x : Part) : (s.setPart p x).holdLimit = s.holdLimit := rfl
@[simp] theorem State.setPart_schedCtr (s : State) (p : Nat) (x : Part) : (s.setPart p x).schedCtr = s.schedCtr := rfl
@[simp] theorem State.setPart_fe (s : State) (p : Nat) (x : Part) : (s.setPart p x).fe = s.fe := rfl
@[simp] theorem State.setPart_peers (s : State) (p : Nat) (x : Part) : (s.setPart p x).peers = s.peers := rfl
@[simp] theorem State.setPart_freeing (s : State) (p : Nat) (x : Part) : (s.setPart p x).freeing = s.freeing := rfl
@[simp] theorem State.setPart_ep (s : State) (p : Nat) (x : Part) : (s.setPart p x).ep = s.ep := rfl
@[simp] theorem State.setPart_sage (s : State) (p : Nat) (x : Part) : (s.setPart p x).sage = s.sage := rfl
@[simp] theorem State.setPart_failures (s : State) (p : Nat) (x : Part) : (s.setPart p x).failures = s.failures := rfl
@[simp] theorem State.setPart_spineRetries (s : State) (p : Nat) (x : Part) : (s.setPart p x).spineRetries = s.spineRetries := rfl
@[simp] theorem State.setPart_rm (s : State) (p : Nat) (x : Part) : (s.setPart p x).rm = s.rm := rfl
@[simp] theorem State.setPart_lc (s : State) (p : Nat) (x : Part) : (s.setPart p x).lc = s.lc := rfl
@[simp] theorem State.setPart_pw (s : State) (p : Nat) (x : Part) : (s.setPart p x).pw = s.pw := rfl
@[simp] theorem State.setPart_boot (s : State) (p : Nat) (x : Part) : (s.setPart p x).boot = s.boot := rfl
@[simp] theorem State.setPart_cps (s : State) (p : Nat) (x : Part) : (s.setPart p x).cps = s.cps := rfl
@[simp] theorem State.setPart_fps (s : State) (p : Nat) (x : Part) : (s.setPart p x).fps = s.fps := rfl
@[simp] theorem State.setPart_fab (s : State) (p : Nat) (x : Part) : (s.setPart p x).fab = s.fab := rfl
@[simp] theorem State.setPart_thyme (s : State) (p : Nat) (x : Part) : (s.setPart p x).thyme = s.thyme := rfl
@[simp] theorem State.setPart_sx (s : State) (p : Nat) (x : Part) : (s.setPart p x).sx = s.sx := rfl
@[simp] theorem State.setPart_out (s : State) (p : Nat) (x : Part) : (s.setPart p x).out = s.out := rfl
@[simp] theorem State.setPart_nextId (s : State) (p : Nat) (x : Part) : (s.setPart p x).nextId = s.nextId := rfl
@[simp] theorem State.setPart_freeCtr (s : State) (p : Nat) (x : Part) : (s.setPart p x).freeCtr = s.freeCtr := rfl
@[simp] theorem State.setPart_pending (s : State) (p : Nat) (x : Part) : (s.setPart p x).pending = s.pending := rfl
@[simp] theorem State.part_setPart (s : State) (p : Nat) (x : Part) : (s.setPart p x).part p = x := tget_tput ..
theorem State.part_setPart_ne (s : State) {j p : Nat} (x : Part) (h : j ≠ p) : (s.setPart p x).part j = s.part j :=
  tget_tput_ne _ _ _ (h)
@[simp] theorem State.ctx_setPart (s : State) (p : Nat) (x : Part) (j : Nat) : (s.setPart p x).ctx j = s.ctx j := rfl
@[simp] theorem State.obj_setPart (s : State) (p : Nat) (x : Part) (j : Nat) : (s.setPart p x).obj j = s.obj j := rfl
@[simp] theorem State.fence_setPart (s : State) (p : Nat) (x : Part) (j : Nat) : (s.setPart p x).fence j = s.fence j := rfl
@[simp] theorem State.engine_setPart (s : State) (p : Nat) (x : Part) (j : Nat) : (s.setPart p x).engine j = s.engine j := rfl
@[simp] theorem State.block_setPart (s : State) (p : Nat) (x : Part) (j : Fn) : (s.setPart p x).block j = s.block j := rfl
@[simp] theorem State.missq_setPart (s : State) (p : Nat) (x : Part) (j : Fn) : (s.setPart p x).missq j = s.missq j := rfl
@[simp] theorem State.vf_setPart (s : State) (p : Nat) (x : Part) (j : Nat) : (s.setPart p x).vf j = s.vf j := rfl
@[simp] theorem State.cp_setPart (s : State) (p : Nat) (x : Part) (j : Nat) : (s.setPart p x).cp j = s.cp j := rfl
@[simp] theorem State.fp_setPart (s : State) (p : Nat) (x : Part) (j : Nat) : (s.setPart p x).fp j = s.fp j := rfl
@[simp] theorem State.cu_setPart (s : State) (p : Nat) (x : Part) (j : Nat) : (s.setPart p x).cu j = s.cu j := rfl
@[simp] theorem State.sched_setPart (s : State) (p : Nat) (x : Part) (j : Nat) : (s.setPart p x).sched j = s.sched j := rfl
@[simp] theorem State.domain_setPart (s : State) (p : Nat) (x : Part) (j : Nat) : (s.setPart p x).domain j = s.domain j := rfl
@[simp] theorem State.sem_setPart (s : State) (p : Nat) (x : Part) (j : Nat) : (s.setPart p x).sem j = s.sem j := rfl
@[simp] theorem State.setPart_setPart (s : State) (p : Nat) (x y : Part) : (s.setPart p x).setPart p y = s.setPart p y := by
  simp [State.setPart]

/-! ### setEngine -/

@[simp] theorem State.setEngine_build (s : State) (e : Nat) (x : Engine) : (s.setEngine e x).build = s.build := rfl
@[simp] theorem State.setEngine_pins (s : State) (e : Nat) (x : Engine) : (s.setEngine e x).pins = s.pins := rfl
@[simp] theorem State.setEngine_mem (s : State) (e : Nat) (x : Engine) : (s.setEngine e x).mem = s.mem := rfl
@[simp] theorem State.setEngine_hostMem (s : State) (e : Nat) (x : Engine) : (s.setEngine e x).hostMem = s.hostMem := rfl
@[simp] theorem State.setEngine_units (s : State) (e : Nat) (x : Engine) : (s.setEngine e x).units = s.units := rfl
@[simp] theorem State.setEngine_wmb (s : State) (e : Nat) (x : Engine) : (s.setEngine e x).wmb = s.wmb := rfl
@[simp] theorem State.setEngine_ctxs (s : State) (e : Nat) (x : Engine) : (s.setEngine e x).ctxs = s.ctxs := rfl
@[simp] theorem State.setEngine_objs (s : State) (e : Nat) (x : Engine) : (s.setEngine e x).objs = s.objs := rfl
@[simp] theorem State.setEngine_fences (s : State) (e : Nat) (x : Engine) : (s.setEngine e x).fences = s.fences := rfl
@[simp] theorem State.setEngine_fenceWire (s : State) (e : Nat) (x : Engine) : (s.setEngine e x).fenceWire = s.fenceWire := rfl
@[simp] theorem State.setEngine_cmds (s : State) (e : Nat) (x : Engine) : (s.setEngine e x).cmds = s.cmds := rfl
@[simp] theorem State.setEngine_launches (s : State) (e : Nat) (x : Engine) : (s.setEngine e x).launches = s.launches := rfl
@[simp] theorem State.setEngine_blocks (s : State) (e : Nat) (x : Engine) : (s.setEngine e x).blocks = s.blocks := rfl
@[simp] theorem State.setEngine_missqs (s : State) (e : Nat) (x : Engine) : (s.setEngine e x).missqs = s.missqs := rfl
@[simp] theorem State.setEngine_withdrawals (s : State) (e : Nat) (x : Engine) : (s.setEngine e x).withdrawals = s.withdrawals := rfl
@[simp] theorem State.setEngine_segFaults (s : State) (e : Nat) (x : Engine) : (s.setEngine e x).segFaults = s.segFaults := rfl
@[simp] theorem State.setEngine_caches (s : State) (e : Nat) (x : Engine) : (s.setEngine e x).caches = s.caches := rfl
@[simp] theorem State.setEngine_sems (s : State) (e : Nat) (x : Engine) : (s.setEngine e x).sems = s.sems := rfl
@[simp] theorem State.setEngine_holdLimit (s : State) (e : Nat) (x : Engine) : (s.setEngine e x).holdLimit = s.holdLimit := rfl
@[simp] theorem State.setEngine_schedCtr (s : State) (e : Nat) (x : Engine) : (s.setEngine e x).schedCtr = s.schedCtr := rfl
@[simp] theorem State.setEngine_fe (s : State) (e : Nat) (x : Engine) : (s.setEngine e x).fe = s.fe := rfl
@[simp] theorem State.setEngine_peers (s : State) (e : Nat) (x : Engine) : (s.setEngine e x).peers = s.peers := rfl
@[simp] theorem State.setEngine_freeing (s : State) (e : Nat) (x : Engine) : (s.setEngine e x).freeing = s.freeing := rfl
@[simp] theorem State.setEngine_ep (s : State) (e : Nat) (x : Engine) : (s.setEngine e x).ep = s.ep := rfl
@[simp] theorem State.setEngine_sage (s : State) (e : Nat) (x : Engine) : (s.setEngine e x).sage = s.sage := rfl
@[simp] theorem State.setEngine_failures (s : State) (e : Nat) (x : Engine) : (s.setEngine e x).failures = s.failures := rfl
@[simp] theorem State.setEngine_spineRetries (s : State) (e : Nat) (x : Engine) : (s.setEngine e x).spineRetries = s.spineRetries := rfl
@[simp] theorem State.setEngine_rm (s : State) (e : Nat) (x : Engine) : (s.setEngine e x).rm = s.rm := rfl
@[simp] theorem State.setEngine_lc (s : State) (e : Nat) (x : Engine) : (s.setEngine e x).lc = s.lc := rfl
@[simp] theorem State.setEngine_pw (s : State) (e : Nat) (x : Engine) : (s.setEngine e x).pw = s.pw := rfl
@[simp] theorem State.setEngine_boot (s : State) (e : Nat) (x : Engine) : (s.setEngine e x).boot = s.boot := rfl
@[simp] theorem State.setEngine_cps (s : State) (e : Nat) (x : Engine) : (s.setEngine e x).cps = s.cps := rfl
@[simp] theorem State.setEngine_fps (s : State) (e : Nat) (x : Engine) : (s.setEngine e x).fps = s.fps := rfl
@[simp] theorem State.setEngine_fab (s : State) (e : Nat) (x : Engine) : (s.setEngine e x).fab = s.fab := rfl
@[simp] theorem State.setEngine_thyme (s : State) (e : Nat) (x : Engine) : (s.setEngine e x).thyme = s.thyme := rfl
@[simp] theorem State.setEngine_sx (s : State) (e : Nat) (x : Engine) : (s.setEngine e x).sx = s.sx := rfl
@[simp] theorem State.setEngine_out (s : State) (e : Nat) (x : Engine) : (s.setEngine e x).out = s.out := rfl
@[simp] theorem State.setEngine_nextId (s : State) (e : Nat) (x : Engine) : (s.setEngine e x).nextId = s.nextId := rfl
@[simp] theorem State.setEngine_freeCtr (s : State) (e : Nat) (x : Engine) : (s.setEngine e x).freeCtr = s.freeCtr := rfl
@[simp] theorem State.setEngine_pending (s : State) (e : Nat) (x : Engine) : (s.setEngine e x).pending = s.pending := rfl
@[simp] theorem State.engine_setEngine (s : State) (e : Nat) (x : Engine) : (s.setEngine e x).engine e = x := tget_tput ..
theorem State.engine_setEngine_ne (s : State) {j e : Nat} (x : Engine) (h : j ≠ e) : (s.setEngine e x).engine j = s.engine j :=
  tget_tput_ne _ _ _ (h)
@[simp] theorem State.ctx_setEngine (s : State) (e : Nat) (x : Engine) (j : Nat) : (s.setEngine e x).ctx j = s.ctx j := rfl
@[simp] theorem State.obj_setEngine (s : State) (e : Nat) (x : Engine) (j : Nat) : (s.setEngine e x).obj j = s.obj j := rfl
@[simp] theorem State.fence_setEngine (s : State) (e : Nat) (x : Engine) (j : Nat) : (s.setEngine e x).fence j = s.fence j := rfl
@[simp] theorem State.part_setEngine (s : State) (e : Nat) (x : Engine) (j : Nat) : (s.setEngine e x).part j = s.part j := rfl
@[simp] theorem State.block_setEngine (s : State) (e : Nat) (x : Engine) (j : Fn) : (s.setEngine e x).block j = s.block j := rfl
@[simp] theorem State.missq_setEngine (s : State) (e : Nat) (x : Engine) (j : Fn) : (s.setEngine e x).missq j = s.missq j := rfl
@[simp] theorem State.vf_setEngine (s : State) (e : Nat) (x : Engine) (j : Nat) : (s.setEngine e x).vf j = s.vf j := rfl
@[simp] theorem State.cp_setEngine (s : State) (e : Nat) (x : Engine) (j : Nat) : (s.setEngine e x).cp j = s.cp j := rfl
@[simp] theorem State.fp_setEngine (s : State) (e : Nat) (x : Engine) (j : Nat) : (s.setEngine e x).fp j = s.fp j := rfl
@[simp] theorem State.cu_setEngine (s : State) (e : Nat) (x : Engine) (j : Nat) : (s.setEngine e x).cu j = s.cu j := rfl
@[simp] theorem State.sched_setEngine (s : State) (e : Nat) (x : Engine) (j : Nat) : (s.setEngine e x).sched j = s.sched j := rfl
@[simp] theorem State.domain_setEngine (s : State) (e : Nat) (x : Engine) (j : Nat) : (s.setEngine e x).domain j = s.domain j := rfl
@[simp] theorem State.sem_setEngine (s : State) (e : Nat) (x : Engine) (j : Nat) : (s.setEngine e x).sem j = s.sem j := rfl
@[simp] theorem State.setEngine_setEngine (s : State) (e : Nat) (x y : Engine) : (s.setEngine e x).setEngine e y = s.setEngine e y := by
  simp [State.setEngine]

/-! ### setLaunch -/

@[simp] theorem State.setLaunch_build (s : State) (i : Nat) (x : Launch) : (s.setLaunch i x).build = s.build := rfl
@[simp] theorem State.setLaunch_pins (s : State) (i : Nat) (x : Launch) : (s.setLaunch i x).pins = s.pins := rfl
@[simp] theorem State.setLaunch_mem (s : State) (i : Nat) (x : Launch) : (s.setLaunch i x).mem = s.mem := rfl
@[simp] theorem State.setLaunch_hostMem (s : State) (i : Nat) (x : Launch) : (s.setLaunch i x).hostMem = s.hostMem := rfl
@[simp] theorem State.setLaunch_units (s : State) (i : Nat) (x : Launch) : (s.setLaunch i x).units = s.units := rfl
@[simp] theorem State.setLaunch_wmb (s : State) (i : Nat) (x : Launch) : (s.setLaunch i x).wmb = s.wmb := rfl
@[simp] theorem State.setLaunch_ctxs (s : State) (i : Nat) (x : Launch) : (s.setLaunch i x).ctxs = s.ctxs := rfl
@[simp] theorem State.setLaunch_objs (s : State) (i : Nat) (x : Launch) : (s.setLaunch i x).objs = s.objs := rfl
@[simp] theorem State.setLaunch_fences (s : State) (i : Nat) (x : Launch) : (s.setLaunch i x).fences = s.fences := rfl
@[simp] theorem State.setLaunch_fenceWire (s : State) (i : Nat) (x : Launch) : (s.setLaunch i x).fenceWire = s.fenceWire := rfl
@[simp] theorem State.setLaunch_cmds (s : State) (i : Nat) (x : Launch) : (s.setLaunch i x).cmds = s.cmds := rfl
@[simp] theorem State.setLaunch_engines (s : State) (i : Nat) (x : Launch) : (s.setLaunch i x).engines = s.engines := rfl
@[simp] theorem State.setLaunch_blocks (s : State) (i : Nat) (x : Launch) : (s.setLaunch i x).blocks = s.blocks := rfl
@[simp] theorem State.setLaunch_missqs (s : State) (i : Nat) (x : Launch) : (s.setLaunch i x).missqs = s.missqs := rfl
@[simp] theorem State.setLaunch_withdrawals (s : State) (i : Nat) (x : Launch) : (s.setLaunch i x).withdrawals = s.withdrawals := rfl
@[simp] theorem State.setLaunch_segFaults (s : State) (i : Nat) (x : Launch) : (s.setLaunch i x).segFaults = s.segFaults := rfl
@[simp] theorem State.setLaunch_caches (s : State) (i : Nat) (x : Launch) : (s.setLaunch i x).caches = s.caches := rfl
@[simp] theorem State.setLaunch_sems (s : State) (i : Nat) (x : Launch) : (s.setLaunch i x).sems = s.sems := rfl
@[simp] theorem State.setLaunch_holdLimit (s : State) (i : Nat) (x : Launch) : (s.setLaunch i x).holdLimit = s.holdLimit := rfl
@[simp] theorem State.setLaunch_schedCtr (s : State) (i : Nat) (x : Launch) : (s.setLaunch i x).schedCtr = s.schedCtr := rfl
@[simp] theorem State.setLaunch_fe (s : State) (i : Nat) (x : Launch) : (s.setLaunch i x).fe = s.fe := rfl
@[simp] theorem State.setLaunch_peers (s : State) (i : Nat) (x : Launch) : (s.setLaunch i x).peers = s.peers := rfl
@[simp] theorem State.setLaunch_freeing (s : State) (i : Nat) (x : Launch) : (s.setLaunch i x).freeing = s.freeing := rfl
@[simp] theorem State.setLaunch_ep (s : State) (i : Nat) (x : Launch) : (s.setLaunch i x).ep = s.ep := rfl
@[simp] theorem State.setLaunch_sage (s : State) (i : Nat) (x : Launch) : (s.setLaunch i x).sage = s.sage := rfl
@[simp] theorem State.setLaunch_failures (s : State) (i : Nat) (x : Launch) : (s.setLaunch i x).failures = s.failures := rfl
@[simp] theorem State.setLaunch_spineRetries (s : State) (i : Nat) (x : Launch) : (s.setLaunch i x).spineRetries = s.spineRetries := rfl
@[simp] theorem State.setLaunch_rm (s : State) (i : Nat) (x : Launch) : (s.setLaunch i x).rm = s.rm := rfl
@[simp] theorem State.setLaunch_lc (s : State) (i : Nat) (x : Launch) : (s.setLaunch i x).lc = s.lc := rfl
@[simp] theorem State.setLaunch_pw (s : State) (i : Nat) (x : Launch) : (s.setLaunch i x).pw = s.pw := rfl
@[simp] theorem State.setLaunch_boot (s : State) (i : Nat) (x : Launch) : (s.setLaunch i x).boot = s.boot := rfl
@[simp] theorem State.setLaunch_cps (s : State) (i : Nat) (x : Launch) : (s.setLaunch i x).cps = s.cps := rfl
@[simp] theorem State.setLaunch_fps (s : State) (i : Nat) (x : Launch) : (s.setLaunch i x).fps = s.fps := rfl
@[simp] theorem State.setLaunch_fab (s : State) (i : Nat) (x : Launch) : (s.setLaunch i x).fab = s.fab := rfl
@[simp] theorem State.setLaunch_thyme (s : State) (i : Nat) (x : Launch) : (s.setLaunch i x).thyme = s.thyme := rfl
@[simp] theorem State.setLaunch_sx (s : State) (i : Nat) (x : Launch) : (s.setLaunch i x).sx = s.sx := rfl
@[simp] theorem State.setLaunch_out (s : State) (i : Nat) (x : Launch) : (s.setLaunch i x).out = s.out := rfl
@[simp] theorem State.setLaunch_nextId (s : State) (i : Nat) (x : Launch) : (s.setLaunch i x).nextId = s.nextId := rfl
@[simp] theorem State.setLaunch_freeCtr (s : State) (i : Nat) (x : Launch) : (s.setLaunch i x).freeCtr = s.freeCtr := rfl
@[simp] theorem State.setLaunch_pending (s : State) (i : Nat) (x : Launch) : (s.setLaunch i x).pending = s.pending := rfl
@[simp] theorem State.ctx_setLaunch (s : State) (i : Nat) (x : Launch) (j : Nat) : (s.setLaunch i x).ctx j = s.ctx j := rfl
@[simp] theorem State.obj_setLaunch (s : State) (i : Nat) (x : Launch) (j : Nat) : (s.setLaunch i x).obj j = s.obj j := rfl
@[simp] theorem State.fence_setLaunch (s : State) (i : Nat) (x : Launch) (j : Nat) : (s.setLaunch i x).fence j = s.fence j := rfl
@[simp] theorem State.part_setLaunch (s : State) (i : Nat) (x : Launch) (j : Nat) : (s.setLaunch i x).part j = s.part j := rfl
@[simp] theorem State.engine_setLaunch (s : State) (i : Nat) (x : Launch) (j : Nat) : (s.setLaunch i x).engine j = s.engine j := rfl
@[simp] theorem State.block_setLaunch (s : State) (i : Nat) (x : Launch) (j : Fn) : (s.setLaunch i x).block j = s.block j := rfl
@[simp] theorem State.missq_setLaunch (s : State) (i : Nat) (x : Launch) (j : Fn) : (s.setLaunch i x).missq j = s.missq j := rfl
@[simp] theorem State.vf_setLaunch (s : State) (i : Nat) (x : Launch) (j : Nat) : (s.setLaunch i x).vf j = s.vf j := rfl
@[simp] theorem State.cp_setLaunch (s : State) (i : Nat) (x : Launch) (j : Nat) : (s.setLaunch i x).cp j = s.cp j := rfl
@[simp] theorem State.fp_setLaunch (s : State) (i : Nat) (x : Launch) (j : Nat) : (s.setLaunch i x).fp j = s.fp j := rfl
@[simp] theorem State.cu_setLaunch (s : State) (i : Nat) (x : Launch) (j : Nat) : (s.setLaunch i x).cu j = s.cu j := rfl
@[simp] theorem State.sched_setLaunch (s : State) (i : Nat) (x : Launch) (j : Nat) : (s.setLaunch i x).sched j = s.sched j := rfl
@[simp] theorem State.domain_setLaunch (s : State) (i : Nat) (x : Launch) (j : Nat) : (s.setLaunch i x).domain j = s.domain j := rfl
@[simp] theorem State.sem_setLaunch (s : State) (i : Nat) (x : Launch) (j : Nat) : (s.setLaunch i x).sem j = s.sem j := rfl
@[simp] theorem State.setLaunch_launches (s : State) (i : Nat) (x : Launch) : (s.setLaunch i x).launches = tput s.launches i x := rfl
@[simp] theorem State.setLaunch_setLaunch (s : State) (i : Nat) (x y : Launch) : (s.setLaunch i x).setLaunch i y = s.setLaunch i y := by
  simp [State.setLaunch]

/-! ### setCmd -/

@[simp] theorem State.setCmd_build (s : State) (i : Nat) (x : Cmd) : (s.setCmd i x).build = s.build := rfl
@[simp] theorem State.setCmd_pins (s : State) (i : Nat) (x : Cmd) : (s.setCmd i x).pins = s.pins := rfl
@[simp] theorem State.setCmd_mem (s : State) (i : Nat) (x : Cmd) : (s.setCmd i x).mem = s.mem := rfl
@[simp] theorem State.setCmd_hostMem (s : State) (i : Nat) (x : Cmd) : (s.setCmd i x).hostMem = s.hostMem := rfl
@[simp] theorem State.setCmd_units (s : State) (i : Nat) (x : Cmd) : (s.setCmd i x).units = s.units := rfl
@[simp] theorem State.setCmd_wmb (s : State) (i : Nat) (x : Cmd) : (s.setCmd i x).wmb = s.wmb := rfl
@[simp] theorem State.setCmd_ctxs (s : State) (i : Nat) (x : Cmd) : (s.setCmd i x).ctxs = s.ctxs := rfl
@[simp] theorem State.setCmd_objs (s : State) (i : Nat) (x : Cmd) : (s.setCmd i x).objs = s.objs := rfl
@[simp] theorem State.setCmd_fences (s : State) (i : Nat) (x : Cmd) : (s.setCmd i x).fences = s.fences := rfl
@[simp] theorem State.setCmd_fenceWire (s : State) (i : Nat) (x : Cmd) : (s.setCmd i x).fenceWire = s.fenceWire := rfl
@[simp] theorem State.setCmd_launches (s : State) (i : Nat) (x : Cmd) : (s.setCmd i x).launches = s.launches := rfl
@[simp] theorem State.setCmd_engines (s : State) (i : Nat) (x : Cmd) : (s.setCmd i x).engines = s.engines := rfl
@[simp] theorem State.setCmd_blocks (s : State) (i : Nat) (x : Cmd) : (s.setCmd i x).blocks = s.blocks := rfl
@[simp] theorem State.setCmd_missqs (s : State) (i : Nat) (x : Cmd) : (s.setCmd i x).missqs = s.missqs := rfl
@[simp] theorem State.setCmd_withdrawals (s : State) (i : Nat) (x : Cmd) : (s.setCmd i x).withdrawals = s.withdrawals := rfl
@[simp] theorem State.setCmd_segFaults (s : State) (i : Nat) (x : Cmd) : (s.setCmd i x).segFaults = s.segFaults := rfl
@[simp] theorem State.setCmd_caches (s : State) (i : Nat) (x : Cmd) : (s.setCmd i x).caches = s.caches := rfl
@[simp] theorem State.setCmd_sems (s : State) (i : Nat) (x : Cmd) : (s.setCmd i x).sems = s.sems := rfl
@[simp] theorem State.setCmd_holdLimit (s : State) (i : Nat) (x : Cmd) : (s.setCmd i x).holdLimit = s.holdLimit := rfl
@[simp] theorem State.setCmd_schedCtr (s : State) (i : Nat) (x : Cmd) : (s.setCmd i x).schedCtr = s.schedCtr := rfl
@[simp] theorem State.setCmd_fe (s : State) (i : Nat) (x : Cmd) : (s.setCmd i x).fe = s.fe := rfl
@[simp] theorem State.setCmd_peers (s : State) (i : Nat) (x : Cmd) : (s.setCmd i x).peers = s.peers := rfl
@[simp] theorem State.setCmd_freeing (s : State) (i : Nat) (x : Cmd) : (s.setCmd i x).freeing = s.freeing := rfl
@[simp] theorem State.setCmd_ep (s : State) (i : Nat) (x : Cmd) : (s.setCmd i x).ep = s.ep := rfl
@[simp] theorem State.setCmd_sage (s : State) (i : Nat) (x : Cmd) : (s.setCmd i x).sage = s.sage := rfl
@[simp] theorem State.setCmd_failures (s : State) (i : Nat) (x : Cmd) : (s.setCmd i x).failures = s.failures := rfl
@[simp] theorem State.setCmd_spineRetries (s : State) (i : Nat) (x : Cmd) : (s.setCmd i x).spineRetries = s.spineRetries := rfl
@[simp] theorem State.setCmd_rm (s : State) (i : Nat) (x : Cmd) : (s.setCmd i x).rm = s.rm := rfl
@[simp] theorem State.setCmd_lc (s : State) (i : Nat) (x : Cmd) : (s.setCmd i x).lc = s.lc := rfl
@[simp] theorem State.setCmd_pw (s : State) (i : Nat) (x : Cmd) : (s.setCmd i x).pw = s.pw := rfl
@[simp] theorem State.setCmd_boot (s : State) (i : Nat) (x : Cmd) : (s.setCmd i x).boot = s.boot := rfl
@[simp] theorem State.setCmd_cps (s : State) (i : Nat) (x : Cmd) : (s.setCmd i x).cps = s.cps := rfl
@[simp] theorem State.setCmd_fps (s : State) (i : Nat) (x : Cmd) : (s.setCmd i x).fps = s.fps := rfl
@[simp] theorem State.setCmd_fab (s : State) (i : Nat) (x : Cmd) : (s.setCmd i x).fab = s.fab := rfl
@[simp] theorem State.setCmd_thyme (s : State) (i : Nat) (x : Cmd) : (s.setCmd i x).thyme = s.thyme := rfl
@[simp] theorem State.setCmd_sx (s : State) (i : Nat) (x : Cmd) : (s.setCmd i x).sx = s.sx := rfl
@[simp] theorem State.setCmd_out (s : State) (i : Nat) (x : Cmd) : (s.setCmd i x).out = s.out := rfl
@[simp] theorem State.setCmd_nextId (s : State) (i : Nat) (x : Cmd) : (s.setCmd i x).nextId = s.nextId := rfl
@[simp] theorem State.setCmd_freeCtr (s : State) (i : Nat) (x : Cmd) : (s.setCmd i x).freeCtr = s.freeCtr := rfl
@[simp] theorem State.setCmd_pending (s : State) (i : Nat) (x : Cmd) : (s.setCmd i x).pending = s.pending := rfl
@[simp] theorem State.ctx_setCmd (s : State) (i : Nat) (x : Cmd) (j : Nat) : (s.setCmd i x).ctx j = s.ctx j := rfl
@[simp] theorem State.obj_setCmd (s : State) (i : Nat) (x : Cmd) (j : Nat) : (s.setCmd i x).obj j = s.obj j := rfl
@[simp] theorem State.fence_setCmd (s : State) (i : Nat) (x : Cmd) (j : Nat) : (s.setCmd i x).fence j = s.fence j := rfl
@[simp] theorem State.part_setCmd (s : State) (i : Nat) (x : Cmd) (j : Nat) : (s.setCmd i x).part j = s.part j := rfl
@[simp] theorem State.engine_setCmd (s : State) (i : Nat) (x : Cmd) (j : Nat) : (s.setCmd i x).engine j = s.engine j := rfl
@[simp] theorem State.block_setCmd (s : State) (i : Nat) (x : Cmd) (j : Fn) : (s.setCmd i x).block j = s.block j := rfl
@[simp] theorem State.missq_setCmd (s : State) (i : Nat) (x : Cmd) (j : Fn) : (s.setCmd i x).missq j = s.missq j := rfl
@[simp] theorem State.vf_setCmd (s : State) (i : Nat) (x : Cmd) (j : Nat) : (s.setCmd i x).vf j = s.vf j := rfl
@[simp] theorem State.cp_setCmd (s : State) (i : Nat) (x : Cmd) (j : Nat) : (s.setCmd i x).cp j = s.cp j := rfl
@[simp] theorem State.fp_setCmd (s : State) (i : Nat) (x : Cmd) (j : Nat) : (s.setCmd i x).fp j = s.fp j := rfl
@[simp] theorem State.cu_setCmd (s : State) (i : Nat) (x : Cmd) (j : Nat) : (s.setCmd i x).cu j = s.cu j := rfl
@[simp] theorem State.sched_setCmd (s : State) (i : Nat) (x : Cmd) (j : Nat) : (s.setCmd i x).sched j = s.sched j := rfl
@[simp] theorem State.domain_setCmd (s : State) (i : Nat) (x : Cmd) (j : Nat) : (s.setCmd i x).domain j = s.domain j := rfl
@[simp] theorem State.sem_setCmd (s : State) (i : Nat) (x : Cmd) (j : Nat) : (s.setCmd i x).sem j = s.sem j := rfl
@[simp] theorem State.setCmd_cmds (s : State) (i : Nat) (x : Cmd) : (s.setCmd i x).cmds = tput s.cmds i x := rfl
@[simp] theorem State.setCmd_setCmd (s : State) (i : Nat) (x y : Cmd) : (s.setCmd i x).setCmd i y = s.setCmd i y := by
  simp [State.setCmd]

/-! ### setBlock -/

@[simp] theorem State.setBlock_build (s : State) (f : Fn) (x : ObjBlock) : (s.setBlock f x).build = s.build := rfl
@[simp] theorem State.setBlock_pins (s : State) (f : Fn) (x : ObjBlock) : (s.setBlock f x).pins = s.pins := rfl
@[simp] theorem State.setBlock_mem (s : State) (f : Fn) (x : ObjBlock) : (s.setBlock f x).mem = s.mem := rfl
@[simp] theorem State.setBlock_hostMem (s : State) (f : Fn) (x : ObjBlock) : (s.setBlock f x).hostMem = s.hostMem := rfl
@[simp] theorem State.setBlock_units (s : State) (f : Fn) (x : ObjBlock) : (s.setBlock f x).units = s.units := rfl
@[simp] theorem State.setBlock_wmb (s : State) (f : Fn) (x : ObjBlock) : (s.setBlock f x).wmb = s.wmb := rfl
@[simp] theorem State.setBlock_ctxs (s : State) (f : Fn) (x : ObjBlock) : (s.setBlock f x).ctxs = s.ctxs := rfl
@[simp] theorem State.setBlock_objs (s : State) (f : Fn) (x : ObjBlock) : (s.setBlock f x).objs = s.objs := rfl
@[simp] theorem State.setBlock_fences (s : State) (f : Fn) (x : ObjBlock) : (s.setBlock f x).fences = s.fences := rfl
@[simp] theorem State.setBlock_fenceWire (s : State) (f : Fn) (x : ObjBlock) : (s.setBlock f x).fenceWire = s.fenceWire := rfl
@[simp] theorem State.setBlock_cmds (s : State) (f : Fn) (x : ObjBlock) : (s.setBlock f x).cmds = s.cmds := rfl
@[simp] theorem State.setBlock_launches (s : State) (f : Fn) (x : ObjBlock) : (s.setBlock f x).launches = s.launches := rfl
@[simp] theorem State.setBlock_engines (s : State) (f : Fn) (x : ObjBlock) : (s.setBlock f x).engines = s.engines := rfl
@[simp] theorem State.setBlock_missqs (s : State) (f : Fn) (x : ObjBlock) : (s.setBlock f x).missqs = s.missqs := rfl
@[simp] theorem State.setBlock_withdrawals (s : State) (f : Fn) (x : ObjBlock) : (s.setBlock f x).withdrawals = s.withdrawals := rfl
@[simp] theorem State.setBlock_segFaults (s : State) (f : Fn) (x : ObjBlock) : (s.setBlock f x).segFaults = s.segFaults := rfl
@[simp] theorem State.setBlock_caches (s : State) (f : Fn) (x : ObjBlock) : (s.setBlock f x).caches = s.caches := rfl
@[simp] theorem State.setBlock_sems (s : State) (f : Fn) (x : ObjBlock) : (s.setBlock f x).sems = s.sems := rfl
@[simp] theorem State.setBlock_holdLimit (s : State) (f : Fn) (x : ObjBlock) : (s.setBlock f x).holdLimit = s.holdLimit := rfl
@[simp] theorem State.setBlock_schedCtr (s : State) (f : Fn) (x : ObjBlock) : (s.setBlock f x).schedCtr = s.schedCtr := rfl
@[simp] theorem State.setBlock_fe (s : State) (f : Fn) (x : ObjBlock) : (s.setBlock f x).fe = s.fe := rfl
@[simp] theorem State.setBlock_peers (s : State) (f : Fn) (x : ObjBlock) : (s.setBlock f x).peers = s.peers := rfl
@[simp] theorem State.setBlock_freeing (s : State) (f : Fn) (x : ObjBlock) : (s.setBlock f x).freeing = s.freeing := rfl
@[simp] theorem State.setBlock_ep (s : State) (f : Fn) (x : ObjBlock) : (s.setBlock f x).ep = s.ep := rfl
@[simp] theorem State.setBlock_sage (s : State) (f : Fn) (x : ObjBlock) : (s.setBlock f x).sage = s.sage := rfl
@[simp] theorem State.setBlock_failures (s : State) (f : Fn) (x : ObjBlock) : (s.setBlock f x).failures = s.failures := rfl
@[simp] theorem State.setBlock_spineRetries (s : State) (f : Fn) (x : ObjBlock) : (s.setBlock f x).spineRetries = s.spineRetries := rfl
@[simp] theorem State.setBlock_rm (s : State) (f : Fn) (x : ObjBlock) : (s.setBlock f x).rm = s.rm := rfl
@[simp] theorem State.setBlock_lc (s : State) (f : Fn) (x : ObjBlock) : (s.setBlock f x).lc = s.lc := rfl
@[simp] theorem State.setBlock_pw (s : State) (f : Fn) (x : ObjBlock) : (s.setBlock f x).pw = s.pw := rfl
@[simp] theorem State.setBlock_boot (s : State) (f : Fn) (x : ObjBlock) : (s.setBlock f x).boot = s.boot := rfl
@[simp] theorem State.setBlock_cps (s : State) (f : Fn) (x : ObjBlock) : (s.setBlock f x).cps = s.cps := rfl
@[simp] theorem State.setBlock_fps (s : State) (f : Fn) (x : ObjBlock) : (s.setBlock f x).fps = s.fps := rfl
@[simp] theorem State.setBlock_fab (s : State) (f : Fn) (x : ObjBlock) : (s.setBlock f x).fab = s.fab := rfl
@[simp] theorem State.setBlock_thyme (s : State) (f : Fn) (x : ObjBlock) : (s.setBlock f x).thyme = s.thyme := rfl
@[simp] theorem State.setBlock_sx (s : State) (f : Fn) (x : ObjBlock) : (s.setBlock f x).sx = s.sx := rfl
@[simp] theorem State.setBlock_out (s : State) (f : Fn) (x : ObjBlock) : (s.setBlock f x).out = s.out := rfl
@[simp] theorem State.setBlock_nextId (s : State) (f : Fn) (x : ObjBlock) : (s.setBlock f x).nextId = s.nextId := rfl
@[simp] theorem State.setBlock_freeCtr (s : State) (f : Fn) (x : ObjBlock) : (s.setBlock f x).freeCtr = s.freeCtr := rfl
@[simp] theorem State.setBlock_pending (s : State) (f : Fn) (x : ObjBlock) : (s.setBlock f x).pending = s.pending := rfl
@[simp] theorem State.block_setBlock (s : State) (f : Fn) (x : ObjBlock) : (s.setBlock f x).block f = x := tget_tput ..
theorem State.block_setBlock_ne (s : State) {j f : Fn} (x : ObjBlock) (h : j ≠ f) : (s.setBlock f x).block j = s.block j :=
  tget_tput_ne _ _ _ (fun e => h (fnKey_inj.1 e))
@[simp] theorem State.ctx_setBlock (s : State) (f : Fn) (x : ObjBlock) (j : Nat) : (s.setBlock f x).ctx j = s.ctx j := rfl
@[simp] theorem State.obj_setBlock (s : State) (f : Fn) (x : ObjBlock) (j : Nat) : (s.setBlock f x).obj j = s.obj j := rfl
@[simp] theorem State.fence_setBlock (s : State) (f : Fn) (x : ObjBlock) (j : Nat) : (s.setBlock f x).fence j = s.fence j := rfl
@[simp] theorem State.part_setBlock (s : State) (f : Fn) (x : ObjBlock) (j : Nat) : (s.setBlock f x).part j = s.part j := rfl
@[simp] theorem State.engine_setBlock (s : State) (f : Fn) (x : ObjBlock) (j : Nat) : (s.setBlock f x).engine j = s.engine j := rfl
@[simp] theorem State.missq_setBlock (s : State) (f : Fn) (x : ObjBlock) (j : Fn) : (s.setBlock f x).missq j = s.missq j := rfl
@[simp] theorem State.vf_setBlock (s : State) (f : Fn) (x : ObjBlock) (j : Nat) : (s.setBlock f x).vf j = s.vf j := rfl
@[simp] theorem State.cp_setBlock (s : State) (f : Fn) (x : ObjBlock) (j : Nat) : (s.setBlock f x).cp j = s.cp j := rfl
@[simp] theorem State.fp_setBlock (s : State) (f : Fn) (x : ObjBlock) (j : Nat) : (s.setBlock f x).fp j = s.fp j := rfl
@[simp] theorem State.cu_setBlock (s : State) (f : Fn) (x : ObjBlock) (j : Nat) : (s.setBlock f x).cu j = s.cu j := rfl
@[simp] theorem State.sched_setBlock (s : State) (f : Fn) (x : ObjBlock) (j : Nat) : (s.setBlock f x).sched j = s.sched j := rfl
@[simp] theorem State.domain_setBlock (s : State) (f : Fn) (x : ObjBlock) (j : Nat) : (s.setBlock f x).domain j = s.domain j := rfl
@[simp] theorem State.sem_setBlock (s : State) (f : Fn) (x : ObjBlock) (j : Nat) : (s.setBlock f x).sem j = s.sem j := rfl
@[simp] theorem State.setBlock_setBlock (s : State) (f : Fn) (x y : ObjBlock) : (s.setBlock f x).setBlock f y = s.setBlock f y := by
  simp [State.setBlock]

/-! ### setMissq -/

@[simp] theorem State.setMissq_build (s : State) (f : Fn) (x : MissQ) : (s.setMissq f x).build = s.build := rfl
@[simp] theorem State.setMissq_pins (s : State) (f : Fn) (x : MissQ) : (s.setMissq f x).pins = s.pins := rfl
@[simp] theorem State.setMissq_mem (s : State) (f : Fn) (x : MissQ) : (s.setMissq f x).mem = s.mem := rfl
@[simp] theorem State.setMissq_hostMem (s : State) (f : Fn) (x : MissQ) : (s.setMissq f x).hostMem = s.hostMem := rfl
@[simp] theorem State.setMissq_units (s : State) (f : Fn) (x : MissQ) : (s.setMissq f x).units = s.units := rfl
@[simp] theorem State.setMissq_wmb (s : State) (f : Fn) (x : MissQ) : (s.setMissq f x).wmb = s.wmb := rfl
@[simp] theorem State.setMissq_ctxs (s : State) (f : Fn) (x : MissQ) : (s.setMissq f x).ctxs = s.ctxs := rfl
@[simp] theorem State.setMissq_objs (s : State) (f : Fn) (x : MissQ) : (s.setMissq f x).objs = s.objs := rfl
@[simp] theorem State.setMissq_fences (s : State) (f : Fn) (x : MissQ) : (s.setMissq f x).fences = s.fences := rfl
@[simp] theorem State.setMissq_fenceWire (s : State) (f : Fn) (x : MissQ) : (s.setMissq f x).fenceWire = s.fenceWire := rfl
@[simp] theorem State.setMissq_cmds (s : State) (f : Fn) (x : MissQ) : (s.setMissq f x).cmds = s.cmds := rfl
@[simp] theorem State.setMissq_launches (s : State) (f : Fn) (x : MissQ) : (s.setMissq f x).launches = s.launches := rfl
@[simp] theorem State.setMissq_engines (s : State) (f : Fn) (x : MissQ) : (s.setMissq f x).engines = s.engines := rfl
@[simp] theorem State.setMissq_blocks (s : State) (f : Fn) (x : MissQ) : (s.setMissq f x).blocks = s.blocks := rfl
@[simp] theorem State.setMissq_withdrawals (s : State) (f : Fn) (x : MissQ) : (s.setMissq f x).withdrawals = s.withdrawals := rfl
@[simp] theorem State.setMissq_segFaults (s : State) (f : Fn) (x : MissQ) : (s.setMissq f x).segFaults = s.segFaults := rfl
@[simp] theorem State.setMissq_caches (s : State) (f : Fn) (x : MissQ) : (s.setMissq f x).caches = s.caches := rfl
@[simp] theorem State.setMissq_sems (s : State) (f : Fn) (x : MissQ) : (s.setMissq f x).sems = s.sems := rfl
@[simp] theorem State.setMissq_holdLimit (s : State) (f : Fn) (x : MissQ) : (s.setMissq f x).holdLimit = s.holdLimit := rfl
@[simp] theorem State.setMissq_schedCtr (s : State) (f : Fn) (x : MissQ) : (s.setMissq f x).schedCtr = s.schedCtr := rfl
@[simp] theorem State.setMissq_fe (s : State) (f : Fn) (x : MissQ) : (s.setMissq f x).fe = s.fe := rfl
@[simp] theorem State.setMissq_peers (s : State) (f : Fn) (x : MissQ) : (s.setMissq f x).peers = s.peers := rfl
@[simp] theorem State.setMissq_freeing (s : State) (f : Fn) (x : MissQ) : (s.setMissq f x).freeing = s.freeing := rfl
@[simp] theorem State.setMissq_ep (s : State) (f : Fn) (x : MissQ) : (s.setMissq f x).ep = s.ep := rfl
@[simp] theorem State.setMissq_sage (s : State) (f : Fn) (x : MissQ) : (s.setMissq f x).sage = s.sage := rfl
@[simp] theorem State.setMissq_failures (s : State) (f : Fn) (x : MissQ) : (s.setMissq f x).failures = s.failures := rfl
@[simp] theorem State.setMissq_spineRetries (s : State) (f : Fn) (x : MissQ) : (s.setMissq f x).spineRetries = s.spineRetries := rfl
@[simp] theorem State.setMissq_rm (s : State) (f : Fn) (x : MissQ) : (s.setMissq f x).rm = s.rm := rfl
@[simp] theorem State.setMissq_lc (s : State) (f : Fn) (x : MissQ) : (s.setMissq f x).lc = s.lc := rfl
@[simp] theorem State.setMissq_pw (s : State) (f : Fn) (x : MissQ) : (s.setMissq f x).pw = s.pw := rfl
@[simp] theorem State.setMissq_boot (s : State) (f : Fn) (x : MissQ) : (s.setMissq f x).boot = s.boot := rfl
@[simp] theorem State.setMissq_cps (s : State) (f : Fn) (x : MissQ) : (s.setMissq f x).cps = s.cps := rfl
@[simp] theorem State.setMissq_fps (s : State) (f : Fn) (x : MissQ) : (s.setMissq f x).fps = s.fps := rfl
@[simp] theorem State.setMissq_fab (s : State) (f : Fn) (x : MissQ) : (s.setMissq f x).fab = s.fab := rfl
@[simp] theorem State.setMissq_thyme (s : State) (f : Fn) (x : MissQ) : (s.setMissq f x).thyme = s.thyme := rfl
@[simp] theorem State.setMissq_sx (s : State) (f : Fn) (x : MissQ) : (s.setMissq f x).sx = s.sx := rfl
@[simp] theorem State.setMissq_out (s : State) (f : Fn) (x : MissQ) : (s.setMissq f x).out = s.out := rfl
@[simp] theorem State.setMissq_nextId (s : State) (f : Fn) (x : MissQ) : (s.setMissq f x).nextId = s.nextId := rfl
@[simp] theorem State.setMissq_freeCtr (s : State) (f : Fn) (x : MissQ) : (s.setMissq f x).freeCtr = s.freeCtr := rfl
@[simp] theorem State.setMissq_pending (s : State) (f : Fn) (x : MissQ) : (s.setMissq f x).pending = s.pending := rfl
@[simp] theorem State.missq_setMissq (s : State) (f : Fn) (x : MissQ) : (s.setMissq f x).missq f = x := tget_tput ..
theorem State.missq_setMissq_ne (s : State) {j f : Fn} (x : MissQ) (h : j ≠ f) : (s.setMissq f x).missq j = s.missq j :=
  tget_tput_ne _ _ _ (fun e => h (fnKey_inj.1 e))
@[simp] theorem State.ctx_setMissq (s : State) (f : Fn) (x : MissQ) (j : Nat) : (s.setMissq f x).ctx j = s.ctx j := rfl
@[simp] theorem State.obj_setMissq (s : State) (f : Fn) (x : MissQ) (j : Nat) : (s.setMissq f x).obj j = s.obj j := rfl
@[simp] theorem State.fence_setMissq (s : State) (f : Fn) (x : MissQ) (j : Nat) : (s.setMissq f x).fence j = s.fence j := rfl
@[simp] theorem State.part_setMissq (s : State) (f : Fn) (x : MissQ) (j : Nat) : (s.setMissq f x).part j = s.part j := rfl
@[simp] theorem State.engine_setMissq (s : State) (f : Fn) (x : MissQ) (j : Nat) : (s.setMissq f x).engine j = s.engine j := rfl
@[simp] theorem State.block_setMissq (s : State) (f : Fn) (x : MissQ) (j : Fn) : (s.setMissq f x).block j = s.block j := rfl
@[simp] theorem State.vf_setMissq (s : State) (f : Fn) (x : MissQ) (j : Nat) : (s.setMissq f x).vf j = s.vf j := rfl
@[simp] theorem State.cp_setMissq (s : State) (f : Fn) (x : MissQ) (j : Nat) : (s.setMissq f x).cp j = s.cp j := rfl
@[simp] theorem State.fp_setMissq (s : State) (f : Fn) (x : MissQ) (j : Nat) : (s.setMissq f x).fp j = s.fp j := rfl
@[simp] theorem State.cu_setMissq (s : State) (f : Fn) (x : MissQ) (j : Nat) : (s.setMissq f x).cu j = s.cu j := rfl
@[simp] theorem State.sched_setMissq (s : State) (f : Fn) (x : MissQ) (j : Nat) : (s.setMissq f x).sched j = s.sched j := rfl
@[simp] theorem State.domain_setMissq (s : State) (f : Fn) (x : MissQ) (j : Nat) : (s.setMissq f x).domain j = s.domain j := rfl
@[simp] theorem State.sem_setMissq (s : State) (f : Fn) (x : MissQ) (j : Nat) : (s.setMissq f x).sem j = s.sem j := rfl
@[simp] theorem State.setMissq_setMissq (s : State) (f : Fn) (x y : MissQ) : (s.setMissq f x).setMissq f y = s.setMissq f y := by
  simp [State.setMissq]

/-! ### setVf -/

@[simp] theorem State.setVf_build (s : State) (v : Nat) (x : Vf) : (s.setVf v x).build = s.build := rfl
@[simp] theorem State.setVf_pins (s : State) (v : Nat) (x : Vf) : (s.setVf v x).pins = s.pins := rfl
@[simp] theorem State.setVf_mem (s : State) (v : Nat) (x : Vf) : (s.setVf v x).mem = s.mem := rfl
@[simp] theorem State.setVf_hostMem (s : State) (v : Nat) (x : Vf) : (s.setVf v x).hostMem = s.hostMem := rfl
@[simp] theorem State.setVf_units (s : State) (v : Nat) (x : Vf) : (s.setVf v x).units = s.units := rfl
@[simp] theorem State.setVf_wmb (s : State) (v : Nat) (x : Vf) : (s.setVf v x).wmb = s.wmb := rfl
@[simp] theorem State.setVf_ctxs (s : State) (v : Nat) (x : Vf) : (s.setVf v x).ctxs = s.ctxs := rfl
@[simp] theorem State.setVf_objs (s : State) (v : Nat) (x : Vf) : (s.setVf v x).objs = s.objs := rfl
@[simp] theorem State.setVf_fences (s : State) (v : Nat) (x : Vf) : (s.setVf v x).fences = s.fences := rfl
@[simp] theorem State.setVf_fenceWire (s : State) (v : Nat) (x : Vf) : (s.setVf v x).fenceWire = s.fenceWire := rfl
@[simp] theorem State.setVf_cmds (s : State) (v : Nat) (x : Vf) : (s.setVf v x).cmds = s.cmds := rfl
@[simp] theorem State.setVf_launches (s : State) (v : Nat) (x : Vf) : (s.setVf v x).launches = s.launches := rfl
@[simp] theorem State.setVf_engines (s : State) (v : Nat) (x : Vf) : (s.setVf v x).engines = s.engines := rfl
@[simp] theorem State.setVf_blocks (s : State) (v : Nat) (x : Vf) : (s.setVf v x).blocks = s.blocks := rfl
@[simp] theorem State.setVf_missqs (s : State) (v : Nat) (x : Vf) : (s.setVf v x).missqs = s.missqs := rfl
@[simp] theorem State.setVf_withdrawals (s : State) (v : Nat) (x : Vf) : (s.setVf v x).withdrawals = s.withdrawals := rfl
@[simp] theorem State.setVf_segFaults (s : State) (v : Nat) (x : Vf) : (s.setVf v x).segFaults = s.segFaults := rfl
@[simp] theorem State.setVf_caches (s : State) (v : Nat) (x : Vf) : (s.setVf v x).caches = s.caches := rfl
@[simp] theorem State.setVf_sems (s : State) (v : Nat) (x : Vf) : (s.setVf v x).sems = s.sems := rfl
@[simp] theorem State.setVf_holdLimit (s : State) (v : Nat) (x : Vf) : (s.setVf v x).holdLimit = s.holdLimit := rfl
@[simp] theorem State.setVf_schedCtr (s : State) (v : Nat) (x : Vf) : (s.setVf v x).schedCtr = s.schedCtr := rfl
@[simp] theorem State.setVf_fe (s : State) (v : Nat) (x : Vf) : (s.setVf v x).fe = s.fe := rfl
@[simp] theorem State.setVf_peers (s : State) (v : Nat) (x : Vf) : (s.setVf v x).peers = s.peers := rfl
@[simp] theorem State.setVf_freeing (s : State) (v : Nat) (x : Vf) : (s.setVf v x).freeing = s.freeing := rfl
@[simp] theorem State.setVf_sage (s : State) (v : Nat) (x : Vf) : (s.setVf v x).sage = s.sage := rfl
@[simp] theorem State.setVf_failures (s : State) (v : Nat) (x : Vf) : (s.setVf v x).failures = s.failures := rfl
@[simp] theorem State.setVf_spineRetries (s : State) (v : Nat) (x : Vf) : (s.setVf v x).spineRetries = s.spineRetries := rfl
@[simp] theorem State.setVf_rm (s : State) (v : Nat) (x : Vf) : (s.setVf v x).rm = s.rm := rfl
@[simp] theorem State.setVf_lc (s : State) (v : Nat) (x : Vf) : (s.setVf v x).lc = s.lc := rfl
@[simp] theorem State.setVf_pw (s : State) (v : Nat) (x : Vf) : (s.setVf v x).pw = s.pw := rfl
@[simp] theorem State.setVf_boot (s : State) (v : Nat) (x : Vf) : (s.setVf v x).boot = s.boot := rfl
@[simp] theorem State.setVf_cps (s : State) (v : Nat) (x : Vf) : (s.setVf v x).cps = s.cps := rfl
@[simp] theorem State.setVf_fps (s : State) (v : Nat) (x : Vf) : (s.setVf v x).fps = s.fps := rfl
@[simp] theorem State.setVf_fab (s : State) (v : Nat) (x : Vf) : (s.setVf v x).fab = s.fab := rfl
@[simp] theorem State.setVf_thyme (s : State) (v : Nat) (x : Vf) : (s.setVf v x).thyme = s.thyme := rfl
@[simp] theorem State.setVf_sx (s : State) (v : Nat) (x : Vf) : (s.setVf v x).sx = s.sx := rfl
@[simp] theorem State.setVf_out (s : State) (v : Nat) (x : Vf) : (s.setVf v x).out = s.out := rfl
@[simp] theorem State.setVf_nextId (s : State) (v : Nat) (x : Vf) : (s.setVf v x).nextId = s.nextId := rfl
@[simp] theorem State.setVf_freeCtr (s : State) (v : Nat) (x : Vf) : (s.setVf v x).freeCtr = s.freeCtr := rfl
@[simp] theorem State.setVf_pending (s : State) (v : Nat) (x : Vf) : (s.setVf v x).pending = s.pending := rfl
@[simp] theorem State.vf_setVf (s : State) (v : Nat) (x : Vf) : (s.setVf v x).vf v = x := tget_tput ..
theorem State.vf_setVf_ne (s : State) {j v : Nat} (x : Vf) (h : j ≠ v) : (s.setVf v x).vf j = s.vf j :=
  tget_tput_ne _ _ _ (h)
@[simp] theorem State.ctx_setVf (s : State) (v : Nat) (x : Vf) (j : Nat) : (s.setVf v x).ctx j = s.ctx j := rfl
@[simp] theorem State.obj_setVf (s : State) (v : Nat) (x : Vf) (j : Nat) : (s.setVf v x).obj j = s.obj j := rfl
@[simp] theorem State.fence_setVf (s : State) (v : Nat) (x : Vf) (j : Nat) : (s.setVf v x).fence j = s.fence j := rfl
@[simp] theorem State.part_setVf (s : State) (v : Nat) (x : Vf) (j : Nat) : (s.setVf v x).part j = s.part j := rfl
@[simp] theorem State.engine_setVf (s : State) (v : Nat) (x : Vf) (j : Nat) : (s.setVf v x).engine j = s.engine j := rfl
@[simp] theorem State.block_setVf (s : State) (v : Nat) (x : Vf) (j : Fn) : (s.setVf v x).block j = s.block j := rfl
@[simp] theorem State.missq_setVf (s : State) (v : Nat) (x : Vf) (j : Fn) : (s.setVf v x).missq j = s.missq j := rfl
@[simp] theorem State.cp_setVf (s : State) (v : Nat) (x : Vf) (j : Nat) : (s.setVf v x).cp j = s.cp j := rfl
@[simp] theorem State.fp_setVf (s : State) (v : Nat) (x : Vf) (j : Nat) : (s.setVf v x).fp j = s.fp j := rfl
@[simp] theorem State.cu_setVf (s : State) (v : Nat) (x : Vf) (j : Nat) : (s.setVf v x).cu j = s.cu j := rfl
@[simp] theorem State.sched_setVf (s : State) (v : Nat) (x : Vf) (j : Nat) : (s.setVf v x).sched j = s.sched j := rfl
@[simp] theorem State.domain_setVf (s : State) (v : Nat) (x : Vf) (j : Nat) : (s.setVf v x).domain j = s.domain j := rfl
@[simp] theorem State.sem_setVf (s : State) (v : Nat) (x : Vf) (j : Nat) : (s.setVf v x).sem j = s.sem j := rfl
@[simp] theorem State.setVf_setVf (s : State) (v : Nat) (x y : Vf) : (s.setVf v x).setVf v y = s.setVf v y := by
  simp [State.setVf]

/-! ### setCp -/

@[simp] theorem State.setCp_build (s : State) (c : Nat) (x : CpPort) : (s.setCp c x).build = s.build := rfl
@[simp] theorem State.setCp_pins (s : State) (c : Nat) (x : CpPort) : (s.setCp c x).pins = s.pins := rfl
@[simp] theorem State.setCp_mem (s : State) (c : Nat) (x : CpPort) : (s.setCp c x).mem = s.mem := rfl
@[simp] theorem State.setCp_hostMem (s : State) (c : Nat) (x : CpPort) : (s.setCp c x).hostMem = s.hostMem := rfl
@[simp] theorem State.setCp_units (s : State) (c : Nat) (x : CpPort) : (s.setCp c x).units = s.units := rfl
@[simp] theorem State.setCp_wmb (s : State) (c : Nat) (x : CpPort) : (s.setCp c x).wmb = s.wmb := rfl
@[simp] theorem State.setCp_ctxs (s : State) (c : Nat) (x : CpPort) : (s.setCp c x).ctxs = s.ctxs := rfl
@[simp] theorem State.setCp_objs (s : State) (c : Nat) (x : CpPort) : (s.setCp c x).objs = s.objs := rfl
@[simp] theorem State.setCp_fences (s : State) (c : Nat) (x : CpPort) : (s.setCp c x).fences = s.fences := rfl
@[simp] theorem State.setCp_fenceWire (s : State) (c : Nat) (x : CpPort) : (s.setCp c x).fenceWire = s.fenceWire := rfl
@[simp] theorem State.setCp_cmds (s : State) (c : Nat) (x : CpPort) : (s.setCp c x).cmds = s.cmds := rfl
@[simp] theorem State.setCp_launches (s : State) (c : Nat) (x : CpPort) : (s.setCp c x).launches = s.launches := rfl
@[simp] theorem State.setCp_engines (s : State) (c : Nat) (x : CpPort) : (s.setCp c x).engines = s.engines := rfl
@[simp] theorem State.setCp_blocks (s : State) (c : Nat) (x : CpPort) : (s.setCp c x).blocks = s.blocks := rfl
@[simp] theorem State.setCp_missqs (s : State) (c : Nat) (x : CpPort) : (s.setCp c x).missqs = s.missqs := rfl
@[simp] theorem State.setCp_withdrawals (s : State) (c : Nat) (x : CpPort) : (s.setCp c x).withdrawals = s.withdrawals := rfl
@[simp] theorem State.setCp_segFaults (s : State) (c : Nat) (x : CpPort) : (s.setCp c x).segFaults = s.segFaults := rfl
@[simp] theorem State.setCp_caches (s : State) (c : Nat) (x : CpPort) : (s.setCp c x).caches = s.caches := rfl
@[simp] theorem State.setCp_sems (s : State) (c : Nat) (x : CpPort) : (s.setCp c x).sems = s.sems := rfl
@[simp] theorem State.setCp_holdLimit (s : State) (c : Nat) (x : CpPort) : (s.setCp c x).holdLimit = s.holdLimit := rfl
@[simp] theorem State.setCp_schedCtr (s : State) (c : Nat) (x : CpPort) : (s.setCp c x).schedCtr = s.schedCtr := rfl
@[simp] theorem State.setCp_fe (s : State) (c : Nat) (x : CpPort) : (s.setCp c x).fe = s.fe := rfl
@[simp] theorem State.setCp_peers (s : State) (c : Nat) (x : CpPort) : (s.setCp c x).peers = s.peers := rfl
@[simp] theorem State.setCp_freeing (s : State) (c : Nat) (x : CpPort) : (s.setCp c x).freeing = s.freeing := rfl
@[simp] theorem State.setCp_ep (s : State) (c : Nat) (x : CpPort) : (s.setCp c x).ep = s.ep := rfl
@[simp] theorem State.setCp_sage (s : State) (c : Nat) (x : CpPort) : (s.setCp c x).sage = s.sage := rfl
@[simp] theorem State.setCp_failures (s : State) (c : Nat) (x : CpPort) : (s.setCp c x).failures = s.failures := rfl
@[simp] theorem State.setCp_spineRetries (s : State) (c : Nat) (x : CpPort) : (s.setCp c x).spineRetries = s.spineRetries := rfl
@[simp] theorem State.setCp_rm (s : State) (c : Nat) (x : CpPort) : (s.setCp c x).rm = s.rm := rfl
@[simp] theorem State.setCp_lc (s : State) (c : Nat) (x : CpPort) : (s.setCp c x).lc = s.lc := rfl
@[simp] theorem State.setCp_pw (s : State) (c : Nat) (x : CpPort) : (s.setCp c x).pw = s.pw := rfl
@[simp] theorem State.setCp_boot (s : State) (c : Nat) (x : CpPort) : (s.setCp c x).boot = s.boot := rfl
@[simp] theorem State.setCp_fps (s : State) (c : Nat) (x : CpPort) : (s.setCp c x).fps = s.fps := rfl
@[simp] theorem State.setCp_fab (s : State) (c : Nat) (x : CpPort) : (s.setCp c x).fab = s.fab := rfl
@[simp] theorem State.setCp_thyme (s : State) (c : Nat) (x : CpPort) : (s.setCp c x).thyme = s.thyme := rfl
@[simp] theorem State.setCp_sx (s : State) (c : Nat) (x : CpPort) : (s.setCp c x).sx = s.sx := rfl
@[simp] theorem State.setCp_out (s : State) (c : Nat) (x : CpPort) : (s.setCp c x).out = s.out := rfl
@[simp] theorem State.setCp_nextId (s : State) (c : Nat) (x : CpPort) : (s.setCp c x).nextId = s.nextId := rfl
@[simp] theorem State.setCp_freeCtr (s : State) (c : Nat) (x : CpPort) : (s.setCp c x).freeCtr = s.freeCtr := rfl
@[simp] theorem State.setCp_pending (s : State) (c : Nat) (x : CpPort) : (s.setCp c x).pending = s.pending := rfl
@[simp] theorem State.cp_setCp (s : State) (c : Nat) (x : CpPort) : (s.setCp c x).cp c = x := tget_tput ..
theorem State.cp_setCp_ne (s : State) {j c : Nat} (x : CpPort) (h : j ≠ c) : (s.setCp c x).cp j = s.cp j :=
  tget_tput_ne _ _ _ (h)
@[simp] theorem State.ctx_setCp (s : State) (c : Nat) (x : CpPort) (j : Nat) : (s.setCp c x).ctx j = s.ctx j := rfl
@[simp] theorem State.obj_setCp (s : State) (c : Nat) (x : CpPort) (j : Nat) : (s.setCp c x).obj j = s.obj j := rfl
@[simp] theorem State.fence_setCp (s : State) (c : Nat) (x : CpPort) (j : Nat) : (s.setCp c x).fence j = s.fence j := rfl
@[simp] theorem State.part_setCp (s : State) (c : Nat) (x : CpPort) (j : Nat) : (s.setCp c x).part j = s.part j := rfl
@[simp] theorem State.engine_setCp (s : State) (c : Nat) (x : CpPort) (j : Nat) : (s.setCp c x).engine j = s.engine j := rfl
@[simp] theorem State.block_setCp (s : State) (c : Nat) (x : CpPort) (j : Fn) : (s.setCp c x).block j = s.block j := rfl
@[simp] theorem State.missq_setCp (s : State) (c : Nat) (x : CpPort) (j : Fn) : (s.setCp c x).missq j = s.missq j := rfl
@[simp] theorem State.vf_setCp (s : State) (c : Nat) (x : CpPort) (j : Nat) : (s.setCp c x).vf j = s.vf j := rfl
@[simp] theorem State.fp_setCp (s : State) (c : Nat) (x : CpPort) (j : Nat) : (s.setCp c x).fp j = s.fp j := rfl
@[simp] theorem State.cu_setCp (s : State) (c : Nat) (x : CpPort) (j : Nat) : (s.setCp c x).cu j = s.cu j := rfl
@[simp] theorem State.sched_setCp (s : State) (c : Nat) (x : CpPort) (j : Nat) : (s.setCp c x).sched j = s.sched j := rfl
@[simp] theorem State.domain_setCp (s : State) (c : Nat) (x : CpPort) (j : Nat) : (s.setCp c x).domain j = s.domain j := rfl
@[simp] theorem State.sem_setCp (s : State) (c : Nat) (x : CpPort) (j : Nat) : (s.setCp c x).sem j = s.sem j := rfl
@[simp] theorem State.setCp_setCp (s : State) (c : Nat) (x y : CpPort) : (s.setCp c x).setCp c y = s.setCp c y := by
  simp [State.setCp]

/-! ### setFp -/

@[simp] theorem State.setFp_build (s : State) (p : Nat) (x : FpPort) : (s.setFp p x).build = s.build := rfl
@[simp] theorem State.setFp_pins (s : State) (p : Nat) (x : FpPort) : (s.setFp p x).pins = s.pins := rfl
@[simp] theorem State.setFp_mem (s : State) (p : Nat) (x : FpPort) : (s.setFp p x).mem = s.mem := rfl
@[simp] theorem State.setFp_hostMem (s : State) (p : Nat) (x : FpPort) : (s.setFp p x).hostMem = s.hostMem := rfl
@[simp] theorem State.setFp_units (s : State) (p : Nat) (x : FpPort) : (s.setFp p x).units = s.units := rfl
@[simp] theorem State.setFp_wmb (s : State) (p : Nat) (x : FpPort) : (s.setFp p x).wmb = s.wmb := rfl
@[simp] theorem State.setFp_ctxs (s : State) (p : Nat) (x : FpPort) : (s.setFp p x).ctxs = s.ctxs := rfl
@[simp] theorem State.setFp_objs (s : State) (p : Nat) (x : FpPort) : (s.setFp p x).objs = s.objs := rfl
@[simp] theorem State.setFp_fences (s : State) (p : Nat) (x : FpPort) : (s.setFp p x).fences = s.fences := rfl
@[simp] theorem State.setFp_fenceWire (s : State) (p : Nat) (x : FpPort) : (s.setFp p x).fenceWire = s.fenceWire := rfl
@[simp] theorem State.setFp_cmds (s : State) (p : Nat) (x : FpPort) : (s.setFp p x).cmds = s.cmds := rfl
@[simp] theorem State.setFp_launches (s : State) (p : Nat) (x : FpPort) : (s.setFp p x).launches = s.launches := rfl
@[simp] theorem State.setFp_engines (s : State) (p : Nat) (x : FpPort) : (s.setFp p x).engines = s.engines := rfl
@[simp] theorem State.setFp_blocks (s : State) (p : Nat) (x : FpPort) : (s.setFp p x).blocks = s.blocks := rfl
@[simp] theorem State.setFp_missqs (s : State) (p : Nat) (x : FpPort) : (s.setFp p x).missqs = s.missqs := rfl
@[simp] theorem State.setFp_withdrawals (s : State) (p : Nat) (x : FpPort) : (s.setFp p x).withdrawals = s.withdrawals := rfl
@[simp] theorem State.setFp_segFaults (s : State) (p : Nat) (x : FpPort) : (s.setFp p x).segFaults = s.segFaults := rfl
@[simp] theorem State.setFp_caches (s : State) (p : Nat) (x : FpPort) : (s.setFp p x).caches = s.caches := rfl
@[simp] theorem State.setFp_sems (s : State) (p : Nat) (x : FpPort) : (s.setFp p x).sems = s.sems := rfl
@[simp] theorem State.setFp_holdLimit (s : State) (p : Nat) (x : FpPort) : (s.setFp p x).holdLimit = s.holdLimit := rfl
@[simp] theorem State.setFp_schedCtr (s : State) (p : Nat) (x : FpPort) : (s.setFp p x).schedCtr = s.schedCtr := rfl
@[simp] theorem State.setFp_fe (s : State) (p : Nat) (x : FpPort) : (s.setFp p x).fe = s.fe := rfl
@[simp] theorem State.setFp_peers (s : State) (p : Nat) (x : FpPort) : (s.setFp p x).peers = s.peers := rfl
@[simp] theorem State.setFp_freeing (s : State) (p : Nat) (x : FpPort) : (s.setFp p x).freeing = s.freeing := rfl
@[simp] theorem State.setFp_ep (s : State) (p : Nat) (x : FpPort) : (s.setFp p x).ep = s.ep := rfl
@[simp] theorem State.setFp_sage (s : State) (p : Nat) (x : FpPort) : (s.setFp p x).sage = s.sage := rfl
@[simp] theorem State.setFp_failures (s : State) (p : Nat) (x : FpPort) : (s.setFp p x).failures = s.failures := rfl
@[simp] theorem State.setFp_spineRetries (s : State) (p : Nat) (x : FpPort) : (s.setFp p x).spineRetries = s.spineRetries := rfl
@[simp] theorem State.setFp_rm (s : State) (p : Nat) (x : FpPort) : (s.setFp p x).rm = s.rm := rfl
@[simp] theorem State.setFp_lc (s : State) (p : Nat) (x : FpPort) : (s.setFp p x).lc = s.lc := rfl
@[simp] theorem State.setFp_pw (s : State) (p : Nat) (x : FpPort) : (s.setFp p x).pw = s.pw := rfl
@[simp] theorem State.setFp_boot (s : State) (p : Nat) (x : FpPort) : (s.setFp p x).boot = s.boot := rfl
@[simp] theorem State.setFp_cps (s : State) (p : Nat) (x : FpPort) : (s.setFp p x).cps = s.cps := rfl
@[simp] theorem State.setFp_fab (s : State) (p : Nat) (x : FpPort) : (s.setFp p x).fab = s.fab := rfl
@[simp] theorem State.setFp_thyme (s : State) (p : Nat) (x : FpPort) : (s.setFp p x).thyme = s.thyme := rfl
@[simp] theorem State.setFp_sx (s : State) (p : Nat) (x : FpPort) : (s.setFp p x).sx = s.sx := rfl
@[simp] theorem State.setFp_out (s : State) (p : Nat) (x : FpPort) : (s.setFp p x).out = s.out := rfl
@[simp] theorem State.setFp_nextId (s : State) (p : Nat) (x : FpPort) : (s.setFp p x).nextId = s.nextId := rfl
@[simp] theorem State.setFp_freeCtr (s : State) (p : Nat) (x : FpPort) : (s.setFp p x).freeCtr = s.freeCtr := rfl
@[simp] theorem State.setFp_pending (s : State) (p : Nat) (x : FpPort) : (s.setFp p x).pending = s.pending := rfl
@[simp] theorem State.fp_setFp (s : State) (p : Nat) (x : FpPort) : (s.setFp p x).fp p = x := tget_tput ..
theorem State.fp_setFp_ne (s : State) {j p : Nat} (x : FpPort) (h : j ≠ p) : (s.setFp p x).fp j = s.fp j :=
  tget_tput_ne _ _ _ (h)
@[simp] theorem State.ctx_setFp (s : State) (p : Nat) (x : FpPort) (j : Nat) : (s.setFp p x).ctx j = s.ctx j := rfl
@[simp] theorem State.obj_setFp (s : State) (p : Nat) (x : FpPort) (j : Nat) : (s.setFp p x).obj j = s.obj j := rfl
@[simp] theorem State.fence_setFp (s : State) (p : Nat) (x : FpPort) (j : Nat) : (s.setFp p x).fence j = s.fence j := rfl
@[simp] theorem State.part_setFp (s : State) (p : Nat) (x : FpPort) (j : Nat) : (s.setFp p x).part j = s.part j := rfl
@[simp] theorem State.engine_setFp (s : State) (p : Nat) (x : FpPort) (j : Nat) : (s.setFp p x).engine j = s.engine j := rfl
@[simp] theorem State.block_setFp (s : State) (p : Nat) (x : FpPort) (j : Fn) : (s.setFp p x).block j = s.block j := rfl
@[simp] theorem State.missq_setFp (s : State) (p : Nat) (x : FpPort) (j : Fn) : (s.setFp p x).missq j = s.missq j := rfl
@[simp] theorem State.vf_setFp (s : State) (p : Nat) (x : FpPort) (j : Nat) : (s.setFp p x).vf j = s.vf j := rfl
@[simp] theorem State.cp_setFp (s : State) (p : Nat) (x : FpPort) (j : Nat) : (s.setFp p x).cp j = s.cp j := rfl
@[simp] theorem State.cu_setFp (s : State) (p : Nat) (x : FpPort) (j : Nat) : (s.setFp p x).cu j = s.cu j := rfl
@[simp] theorem State.sched_setFp (s : State) (p : Nat) (x : FpPort) (j : Nat) : (s.setFp p x).sched j = s.sched j := rfl
@[simp] theorem State.domain_setFp (s : State) (p : Nat) (x : FpPort) (j : Nat) : (s.setFp p x).domain j = s.domain j := rfl
@[simp] theorem State.sem_setFp (s : State) (p : Nat) (x : FpPort) (j : Nat) : (s.setFp p x).sem j = s.sem j := rfl
@[simp] theorem State.setFp_setFp (s : State) (p : Nat) (x y : FpPort) : (s.setFp p x).setFp p y = s.setFp p y := by
  simp [State.setFp]

/-! ### setCu -/

@[simp] theorem State.setCu_build (s : State) (u : Nat) (x : Cu) : (s.setCu u x).build = s.build := rfl
@[simp] theorem State.setCu_pins (s : State) (u : Nat) (x : Cu) : (s.setCu u x).pins = s.pins := rfl
@[simp] theorem State.setCu_mem (s : State) (u : Nat) (x : Cu) : (s.setCu u x).mem = s.mem := rfl
@[simp] theorem State.setCu_hostMem (s : State) (u : Nat) (x : Cu) : (s.setCu u x).hostMem = s.hostMem := rfl
@[simp] theorem State.setCu_units (s : State) (u : Nat) (x : Cu) : (s.setCu u x).units = s.units := rfl
@[simp] theorem State.setCu_wmb (s : State) (u : Nat) (x : Cu) : (s.setCu u x).wmb = s.wmb := rfl
@[simp] theorem State.setCu_ctxs (s : State) (u : Nat) (x : Cu) : (s.setCu u x).ctxs = s.ctxs := rfl
@[simp] theorem State.setCu_objs (s : State) (u : Nat) (x : Cu) : (s.setCu u x).objs = s.objs := rfl
@[simp] theorem State.setCu_fences (s : State) (u : Nat) (x : Cu) : (s.setCu u x).fences = s.fences := rfl
@[simp] theorem State.setCu_fenceWire (s : State) (u : Nat) (x : Cu) : (s.setCu u x).fenceWire = s.fenceWire := rfl
@[simp] theorem State.setCu_cmds (s : State) (u : Nat) (x : Cu) : (s.setCu u x).cmds = s.cmds := rfl
@[simp] theorem State.setCu_launches (s : State) (u : Nat) (x : Cu) : (s.setCu u x).launches = s.launches := rfl
@[simp] theorem State.setCu_engines (s : State) (u : Nat) (x : Cu) : (s.setCu u x).engines = s.engines := rfl
@[simp] theorem State.setCu_blocks (s : State) (u : Nat) (x : Cu) : (s.setCu u x).blocks = s.blocks := rfl
@[simp] theorem State.setCu_missqs (s : State) (u : Nat) (x : Cu) : (s.setCu u x).missqs = s.missqs := rfl
@[simp] theorem State.setCu_withdrawals (s : State) (u : Nat) (x : Cu) : (s.setCu u x).withdrawals = s.withdrawals := rfl
@[simp] theorem State.setCu_segFaults (s : State) (u : Nat) (x : Cu) : (s.setCu u x).segFaults = s.segFaults := rfl
@[simp] theorem State.setCu_caches (s : State) (u : Nat) (x : Cu) : (s.setCu u x).caches = s.caches := rfl
@[simp] theorem State.setCu_sems (s : State) (u : Nat) (x : Cu) : (s.setCu u x).sems = s.sems := rfl
@[simp] theorem State.setCu_holdLimit (s : State) (u : Nat) (x : Cu) : (s.setCu u x).holdLimit = s.holdLimit := rfl
@[simp] theorem State.setCu_schedCtr (s : State) (u : Nat) (x : Cu) : (s.setCu u x).schedCtr = s.schedCtr := rfl
@[simp] theorem State.setCu_fe (s : State) (u : Nat) (x : Cu) : (s.setCu u x).fe = s.fe := rfl
@[simp] theorem State.setCu_peers (s : State) (u : Nat) (x : Cu) : (s.setCu u x).peers = s.peers := rfl
@[simp] theorem State.setCu_freeing (s : State) (u : Nat) (x : Cu) : (s.setCu u x).freeing = s.freeing := rfl
@[simp] theorem State.setCu_ep (s : State) (u : Nat) (x : Cu) : (s.setCu u x).ep = s.ep := rfl
@[simp] theorem State.setCu_sage (s : State) (u : Nat) (x : Cu) : (s.setCu u x).sage = s.sage := rfl
@[simp] theorem State.setCu_failures (s : State) (u : Nat) (x : Cu) : (s.setCu u x).failures = s.failures := rfl
@[simp] theorem State.setCu_spineRetries (s : State) (u : Nat) (x : Cu) : (s.setCu u x).spineRetries = s.spineRetries := rfl
@[simp] theorem State.setCu_rm (s : State) (u : Nat) (x : Cu) : (s.setCu u x).rm = s.rm := rfl
@[simp] theorem State.setCu_lc (s : State) (u : Nat) (x : Cu) : (s.setCu u x).lc = s.lc := rfl
@[simp] theorem State.setCu_pw (s : State) (u : Nat) (x : Cu) : (s.setCu u x).pw = s.pw := rfl
@[simp] theorem State.setCu_boot (s : State) (u : Nat) (x : Cu) : (s.setCu u x).boot = s.boot := rfl
@[simp] theorem State.setCu_cps (s : State) (u : Nat) (x : Cu) : (s.setCu u x).cps = s.cps := rfl
@[simp] theorem State.setCu_fps (s : State) (u : Nat) (x : Cu) : (s.setCu u x).fps = s.fps := rfl
@[simp] theorem State.setCu_thyme (s : State) (u : Nat) (x : Cu) : (s.setCu u x).thyme = s.thyme := rfl
@[simp] theorem State.setCu_sx (s : State) (u : Nat) (x : Cu) : (s.setCu u x).sx = s.sx := rfl
@[simp] theorem State.setCu_out (s : State) (u : Nat) (x : Cu) : (s.setCu u x).out = s.out := rfl
@[simp] theorem State.setCu_nextId (s : State) (u : Nat) (x : Cu) : (s.setCu u x).nextId = s.nextId := rfl
@[simp] theorem State.setCu_freeCtr (s : State) (u : Nat) (x : Cu) : (s.setCu u x).freeCtr = s.freeCtr := rfl
@[simp] theorem State.setCu_pending (s : State) (u : Nat) (x : Cu) : (s.setCu u x).pending = s.pending := rfl
@[simp] theorem State.cu_setCu (s : State) (u : Nat) (x : Cu) : (s.setCu u x).cu u = x := tget_tput ..
theorem State.cu_setCu_ne (s : State) {j u : Nat} (x : Cu) (h : j ≠ u) : (s.setCu u x).cu j = s.cu j :=
  tget_tput_ne _ _ _ (h)
@[simp] theorem State.ctx_setCu (s : State) (u : Nat) (x : Cu) (j : Nat) : (s.setCu u x).ctx j = s.ctx j := rfl
@[simp] theorem State.obj_setCu (s : State) (u : Nat) (x : Cu) (j : Nat) : (s.setCu u x).obj j = s.obj j := rfl
@[simp] theorem State.fence_setCu (s : State) (u : Nat) (x : Cu) (j : Nat) : (s.setCu u x).fence j = s.fence j := rfl
@[simp] theorem State.part_setCu (s : State) (u : Nat) (x : Cu) (j : Nat) : (s.setCu u x).part j = s.part j := rfl
@[simp] theorem State.engine_setCu (s : State) (u : Nat) (x : Cu) (j : Nat) : (s.setCu u x).engine j = s.engine j := rfl
@[simp] theorem State.block_setCu (s : State) (u : Nat) (x : Cu) (j : Fn) : (s.setCu u x).block j = s.block j := rfl
@[simp] theorem State.missq_setCu (s : State) (u : Nat) (x : Cu) (j : Fn) : (s.setCu u x).missq j = s.missq j := rfl
@[simp] theorem State.vf_setCu (s : State) (u : Nat) (x : Cu) (j : Nat) : (s.setCu u x).vf j = s.vf j := rfl
@[simp] theorem State.cp_setCu (s : State) (u : Nat) (x : Cu) (j : Nat) : (s.setCu u x).cp j = s.cp j := rfl
@[simp] theorem State.fp_setCu (s : State) (u : Nat) (x : Cu) (j : Nat) : (s.setCu u x).fp j = s.fp j := rfl
@[simp] theorem State.sched_setCu (s : State) (u : Nat) (x : Cu) (j : Nat) : (s.setCu u x).sched j = s.sched j := rfl
@[simp] theorem State.domain_setCu (s : State) (u : Nat) (x : Cu) (j : Nat) : (s.setCu u x).domain j = s.domain j := rfl
@[simp] theorem State.sem_setCu (s : State) (u : Nat) (x : Cu) (j : Nat) : (s.setCu u x).sem j = s.sem j := rfl
@[simp] theorem State.setCu_setCu (s : State) (u : Nat) (x y : Cu) : (s.setCu u x).setCu u y = s.setCu u y := by
  simp [State.setCu]

/-! ### setSched -/

@[simp] theorem State.setSched_build (s : State) (p : Nat) (x : Sched) : (s.setSched p x).build = s.build := rfl
@[simp] theorem State.setSched_pins (s : State) (p : Nat) (x : Sched) : (s.setSched p x).pins = s.pins := rfl
@[simp] theorem State.setSched_mem (s : State) (p : Nat) (x : Sched) : (s.setSched p x).mem = s.mem := rfl
@[simp] theorem State.setSched_hostMem (s : State) (p : Nat) (x : Sched) : (s.setSched p x).hostMem = s.hostMem := rfl
@[simp] theorem State.setSched_units (s : State) (p : Nat) (x : Sched) : (s.setSched p x).units = s.units := rfl
@[simp] theorem State.setSched_wmb (s : State) (p : Nat) (x : Sched) : (s.setSched p x).wmb = s.wmb := rfl
@[simp] theorem State.setSched_ctxs (s : State) (p : Nat) (x : Sched) : (s.setSched p x).ctxs = s.ctxs := rfl
@[simp] theorem State.setSched_objs (s : State) (p : Nat) (x : Sched) : (s.setSched p x).objs = s.objs := rfl
@[simp] theorem State.setSched_fences (s : State) (p : Nat) (x : Sched) : (s.setSched p x).fences = s.fences := rfl
@[simp] theorem State.setSched_fenceWire (s : State) (p : Nat) (x : Sched) : (s.setSched p x).fenceWire = s.fenceWire := rfl
@[simp] theorem State.setSched_cmds (s : State) (p : Nat) (x : Sched) : (s.setSched p x).cmds = s.cmds := rfl
@[simp] theorem State.setSched_launches (s : State) (p : Nat) (x : Sched) : (s.setSched p x).launches = s.launches := rfl
@[simp] theorem State.setSched_engines (s : State) (p : Nat) (x : Sched) : (s.setSched p x).engines = s.engines := rfl
@[simp] theorem State.setSched_blocks (s : State) (p : Nat) (x : Sched) : (s.setSched p x).blocks = s.blocks := rfl
@[simp] theorem State.setSched_missqs (s : State) (p : Nat) (x : Sched) : (s.setSched p x).missqs = s.missqs := rfl
@[simp] theorem State.setSched_withdrawals (s : State) (p : Nat) (x : Sched) : (s.setSched p x).withdrawals = s.withdrawals := rfl
@[simp] theorem State.setSched_segFaults (s : State) (p : Nat) (x : Sched) : (s.setSched p x).segFaults = s.segFaults := rfl
@[simp] theorem State.setSched_caches (s : State) (p : Nat) (x : Sched) : (s.setSched p x).caches = s.caches := rfl
@[simp] theorem State.setSched_sems (s : State) (p : Nat) (x : Sched) : (s.setSched p x).sems = s.sems := rfl
@[simp] theorem State.setSched_holdLimit (s : State) (p : Nat) (x : Sched) : (s.setSched p x).holdLimit = s.holdLimit := rfl
@[simp] theorem State.setSched_schedCtr (s : State) (p : Nat) (x : Sched) : (s.setSched p x).schedCtr = s.schedCtr := rfl
@[simp] theorem State.setSched_fe (s : State) (p : Nat) (x : Sched) : (s.setSched p x).fe = s.fe := rfl
@[simp] theorem State.setSched_peers (s : State) (p : Nat) (x : Sched) : (s.setSched p x).peers = s.peers := rfl
@[simp] theorem State.setSched_freeing (s : State) (p : Nat) (x : Sched) : (s.setSched p x).freeing = s.freeing := rfl
@[simp] theorem State.setSched_ep (s : State) (p : Nat) (x : Sched) : (s.setSched p x).ep = s.ep := rfl
@[simp] theorem State.setSched_sage (s : State) (p : Nat) (x : Sched) : (s.setSched p x).sage = s.sage := rfl
@[simp] theorem State.setSched_failures (s : State) (p : Nat) (x : Sched) : (s.setSched p x).failures = s.failures := rfl
@[simp] theorem State.setSched_spineRetries (s : State) (p : Nat) (x : Sched) : (s.setSched p x).spineRetries = s.spineRetries := rfl
@[simp] theorem State.setSched_rm (s : State) (p : Nat) (x : Sched) : (s.setSched p x).rm = s.rm := rfl
@[simp] theorem State.setSched_lc (s : State) (p : Nat) (x : Sched) : (s.setSched p x).lc = s.lc := rfl
@[simp] theorem State.setSched_pw (s : State) (p : Nat) (x : Sched) : (s.setSched p x).pw = s.pw := rfl
@[simp] theorem State.setSched_boot (s : State) (p : Nat) (x : Sched) : (s.setSched p x).boot = s.boot := rfl
@[simp] theorem State.setSched_cps (s : State) (p : Nat) (x : Sched) : (s.setSched p x).cps = s.cps := rfl
@[simp] theorem State.setSched_fps (s : State) (p : Nat) (x : Sched) : (s.setSched p x).fps = s.fps := rfl
@[simp] theorem State.setSched_fab (s : State) (p : Nat) (x : Sched) : (s.setSched p x).fab = s.fab := rfl
@[simp] theorem State.setSched_thyme (s : State) (p : Nat) (x : Sched) : (s.setSched p x).thyme = s.thyme := rfl
@[simp] theorem State.setSched_out (s : State) (p : Nat) (x : Sched) : (s.setSched p x).out = s.out := rfl
@[simp] theorem State.setSched_nextId (s : State) (p : Nat) (x : Sched) : (s.setSched p x).nextId = s.nextId := rfl
@[simp] theorem State.setSched_freeCtr (s : State) (p : Nat) (x : Sched) : (s.setSched p x).freeCtr = s.freeCtr := rfl
@[simp] theorem State.setSched_pending (s : State) (p : Nat) (x : Sched) : (s.setSched p x).pending = s.pending := rfl
@[simp] theorem State.sched_setSched (s : State) (p : Nat) (x : Sched) : (s.setSched p x).sched p = x := tget_tput ..
theorem State.sched_setSched_ne (s : State) {j p : Nat} (x : Sched) (h : j ≠ p) : (s.setSched p x).sched j = s.sched j :=
  tget_tput_ne _ _ _ (h)
@[simp] theorem State.ctx_setSched (s : State) (p : Nat) (x : Sched) (j : Nat) : (s.setSched p x).ctx j = s.ctx j := rfl
@[simp] theorem State.obj_setSched (s : State) (p : Nat) (x : Sched) (j : Nat) : (s.setSched p x).obj j = s.obj j := rfl
@[simp] theorem State.fence_setSched (s : State) (p : Nat) (x : Sched) (j : Nat) : (s.setSched p x).fence j = s.fence j := rfl
@[simp] theorem State.part_setSched (s : State) (p : Nat) (x : Sched) (j : Nat) : (s.setSched p x).part j = s.part j := rfl
@[simp] theorem State.engine_setSched (s : State) (p : Nat) (x : Sched) (j : Nat) : (s.setSched p x).engine j = s.engine j := rfl
@[simp] theorem State.block_setSched (s : State) (p : Nat) (x : Sched) (j : Fn) : (s.setSched p x).block j = s.block j := rfl
@[simp] theorem State.missq_setSched (s : State) (p : Nat) (x : Sched) (j : Fn) : (s.setSched p x).missq j = s.missq j := rfl
@[simp] theorem State.vf_setSched (s : State) (p : Nat) (x : Sched) (j : Nat) : (s.setSched p x).vf j = s.vf j := rfl
@[simp] theorem State.cp_setSched (s : State) (p : Nat) (x : Sched) (j : Nat) : (s.setSched p x).cp j = s.cp j := rfl
@[simp] theorem State.fp_setSched (s : State) (p : Nat) (x : Sched) (j : Nat) : (s.setSched p x).fp j = s.fp j := rfl
@[simp] theorem State.cu_setSched (s : State) (p : Nat) (x : Sched) (j : Nat) : (s.setSched p x).cu j = s.cu j := rfl
@[simp] theorem State.domain_setSched (s : State) (p : Nat) (x : Sched) (j : Nat) : (s.setSched p x).domain j = s.domain j := rfl
@[simp] theorem State.sem_setSched (s : State) (p : Nat) (x : Sched) (j : Nat) : (s.setSched p x).sem j = s.sem j := rfl
@[simp] theorem State.setSched_setSched (s : State) (p : Nat) (x y : Sched) : (s.setSched p x).setSched p y = s.setSched p y := by
  simp [State.setSched]

/-! ### setDomain -/

@[simp] theorem State.setDomain_build (s : State) (d : Nat) (x : Domain) : (s.setDomain d x).build = s.build := rfl
@[simp] theorem State.setDomain_pins (s : State) (d : Nat) (x : Domain) : (s.setDomain d x).pins = s.pins := rfl
@[simp] theorem State.setDomain_mem (s : State) (d : Nat) (x : Domain) : (s.setDomain d x).mem = s.mem := rfl
@[simp] theorem State.setDomain_hostMem (s : State) (d : Nat) (x : Domain) : (s.setDomain d x).hostMem = s.hostMem := rfl
@[simp] theorem State.setDomain_units (s : State) (d : Nat) (x : Domain) : (s.setDomain d x).units = s.units := rfl
@[simp] theorem State.setDomain_wmb (s : State) (d : Nat) (x : Domain) : (s.setDomain d x).wmb = s.wmb := rfl
@[simp] theorem State.setDomain_ctxs (s : State) (d : Nat) (x : Domain) : (s.setDomain d x).ctxs = s.ctxs := rfl
@[simp] theorem State.setDomain_objs (s : State) (d : Nat) (x : Domain) : (s.setDomain d x).objs = s.objs := rfl
@[simp] theorem State.setDomain_fences (s : State) (d : Nat) (x : Domain) : (s.setDomain d x).fences = s.fences := rfl
@[simp] theorem State.setDomain_fenceWire (s : State) (d : Nat) (x : Domain) : (s.setDomain d x).fenceWire = s.fenceWire := rfl
@[simp] theorem State.setDomain_cmds (s : State) (d : Nat) (x : Domain) : (s.setDomain d x).cmds = s.cmds := rfl
@[simp] theorem State.setDomain_launches (s : State) (d : Nat) (x : Domain) : (s.setDomain d x).launches = s.launches := rfl
@[simp] theorem State.setDomain_engines (s : State) (d : Nat) (x : Domain) : (s.setDomain d x).engines = s.engines := rfl
@[simp] theorem State.setDomain_blocks (s : State) (d : Nat) (x : Domain) : (s.setDomain d x).blocks = s.blocks := rfl
@[simp] theorem State.setDomain_missqs (s : State) (d : Nat) (x : Domain) : (s.setDomain d x).missqs = s.missqs := rfl
@[simp] theorem State.setDomain_withdrawals (s : State) (d : Nat) (x : Domain) : (s.setDomain d x).withdrawals = s.withdrawals := rfl
@[simp] theorem State.setDomain_segFaults (s : State) (d : Nat) (x : Domain) : (s.setDomain d x).segFaults = s.segFaults := rfl
@[simp] theorem State.setDomain_caches (s : State) (d : Nat) (x : Domain) : (s.setDomain d x).caches = s.caches := rfl
@[simp] theorem State.setDomain_sems (s : State) (d : Nat) (x : Domain) : (s.setDomain d x).sems = s.sems := rfl
@[simp] theorem State.setDomain_holdLimit (s : State) (d : Nat) (x : Domain) : (s.setDomain d x).holdLimit = s.holdLimit := rfl
@[simp] theorem State.setDomain_schedCtr (s : State) (d : Nat) (x : Domain) : (s.setDomain d x).schedCtr = s.schedCtr := rfl
@[simp] theorem State.setDomain_fe (s : State) (d : Nat) (x : Domain) : (s.setDomain d x).fe = s.fe := rfl
@[simp] theorem State.setDomain_peers (s : State) (d : Nat) (x : Domain) : (s.setDomain d x).peers = s.peers := rfl
@[simp] theorem State.setDomain_freeing (s : State) (d : Nat) (x : Domain) : (s.setDomain d x).freeing = s.freeing := rfl
@[simp] theorem State.setDomain_ep (s : State) (d : Nat) (x : Domain) : (s.setDomain d x).ep = s.ep := rfl
@[simp] theorem State.setDomain_sage (s : State) (d : Nat) (x : Domain) : (s.setDomain d x).sage = s.sage := rfl
@[simp] theorem State.setDomain_failures (s : State) (d : Nat) (x : Domain) : (s.setDomain d x).failures = s.failures := rfl
@[simp] theorem State.setDomain_spineRetries (s : State) (d : Nat) (x : Domain) : (s.setDomain d x).spineRetries = s.spineRetries := rfl
@[simp] theorem State.setDomain_rm (s : State) (d : Nat) (x : Domain) : (s.setDomain d x).rm = s.rm := rfl
@[simp] theorem State.setDomain_lc (s : State) (d : Nat) (x : Domain) : (s.setDomain d x).lc = s.lc := rfl
@[simp] theorem State.setDomain_boot (s : State) (d : Nat) (x : Domain) : (s.setDomain d x).boot = s.boot := rfl
@[simp] theorem State.setDomain_cps (s : State) (d : Nat) (x : Domain) : (s.setDomain d x).cps = s.cps := rfl
@[simp] theorem State.setDomain_fps (s : State) (d : Nat) (x : Domain) : (s.setDomain d x).fps = s.fps := rfl
@[simp] theorem State.setDomain_fab (s : State) (d : Nat) (x : Domain) : (s.setDomain d x).fab = s.fab := rfl
@[simp] theorem State.setDomain_thyme (s : State) (d : Nat) (x : Domain) : (s.setDomain d x).thyme = s.thyme := rfl
@[simp] theorem State.setDomain_sx (s : State) (d : Nat) (x : Domain) : (s.setDomain d x).sx = s.sx := rfl
@[simp] theorem State.setDomain_out (s : State) (d : Nat) (x : Domain) : (s.setDomain d x).out = s.out := rfl
@[simp] theorem State.setDomain_nextId (s : State) (d : Nat) (x : Domain) : (s.setDomain d x).nextId = s.nextId := rfl
@[simp] theorem State.setDomain_freeCtr (s : State) (d : Nat) (x : Domain) : (s.setDomain d x).freeCtr = s.freeCtr := rfl
@[simp] theorem State.setDomain_pending (s : State) (d : Nat) (x : Domain) : (s.setDomain d x).pending = s.pending := rfl
@[simp] theorem State.domain_setDomain (s : State) (d : Nat) (x : Domain) : (s.setDomain d x).domain d = x := tget_tput ..
theorem State.domain_setDomain_ne (s : State) {j d : Nat} (x : Domain) (h : j ≠ d) : (s.setDomain d x).domain j = s.domain j :=
  tget_tput_ne _ _ _ (h)
@[simp] theorem State.ctx_setDomain (s : State) (d : Nat) (x : Domain) (j : Nat) : (s.setDomain d x).ctx j = s.ctx j := rfl
@[simp] theorem State.obj_setDomain (s : State) (d : Nat) (x : Domain) (j : Nat) : (s.setDomain d x).obj j = s.obj j := rfl
@[simp] theorem State.fence_setDomain (s : State) (d : Nat) (x : Domain) (j : Nat) : (s.setDomain d x).fence j = s.fence j := rfl
@[simp] theorem State.part_setDomain (s : State) (d : Nat) (x : Domain) (j : Nat) : (s.setDomain d x).part j = s.part j := rfl
@[simp] theorem State.engine_setDomain (s : State) (d : Nat) (x : Domain) (j : Nat) : (s.setDomain d x).engine j = s.engine j := rfl
@[simp] theorem State.block_setDomain (s : State) (d : Nat) (x : Domain) (j : Fn) : (s.setDomain d x).block j = s.block j := rfl
@[simp] theorem State.missq_setDomain (s : State) (d : Nat) (x : Domain) (j : Fn) : (s.setDomain d x).missq j = s.missq j := rfl
@[simp] theorem State.vf_setDomain (s : State) (d : Nat) (x : Domain) (j : Nat) : (s.setDomain d x).vf j = s.vf j := rfl
@[simp] theorem State.cp_setDomain (s : State) (d : Nat) (x : Domain) (j : Nat) : (s.setDomain d x).cp j = s.cp j := rfl
@[simp] theorem State.fp_setDomain (s : State) (d : Nat) (x : Domain) (j : Nat) : (s.setDomain d x).fp j = s.fp j := rfl
@[simp] theorem State.cu_setDomain (s : State) (d : Nat) (x : Domain) (j : Nat) : (s.setDomain d x).cu j = s.cu j := rfl
@[simp] theorem State.sched_setDomain (s : State) (d : Nat) (x : Domain) (j : Nat) : (s.setDomain d x).sched j = s.sched j := rfl
@[simp] theorem State.sem_setDomain (s : State) (d : Nat) (x : Domain) (j : Nat) : (s.setDomain d x).sem j = s.sem j := rfl
@[simp] theorem State.setDomain_setDomain (s : State) (d : Nat) (x y : Domain) : (s.setDomain d x).setDomain d y = s.setDomain d y := by
  simp [State.setDomain]

/-! ### setSem -/

@[simp] theorem State.setSem_build (s : State) (k : Nat) (x : Sem) : (s.setSem k x).build = s.build := rfl
@[simp] theorem State.setSem_pins (s : State) (k : Nat) (x : Sem) : (s.setSem k x).pins = s.pins := rfl
@[simp] theorem State.setSem_mem (s : State) (k : Nat) (x : Sem) : (s.setSem k x).mem = s.mem := rfl
@[simp] theorem State.setSem_hostMem (s : State) (k : Nat) (x : Sem) : (s.setSem k x).hostMem = s.hostMem := rfl
@[simp] theorem State.setSem_units (s : State) (k : Nat) (x : Sem) : (s.setSem k x).units = s.units := rfl
@[simp] theorem State.setSem_wmb (s : State) (k : Nat) (x : Sem) : (s.setSem k x).wmb = s.wmb := rfl
@[simp] theorem State.setSem_ctxs (s : State) (k : Nat) (x : Sem) : (s.setSem k x).ctxs = s.ctxs := rfl
@[simp] theorem State.setSem_objs (s : State) (k : Nat) (x : Sem) : (s.setSem k x).objs = s.objs := rfl
@[simp] theorem State.setSem_fences (s : State) (k : Nat) (x : Sem) : (s.setSem k x).fences = s.fences := rfl
@[simp] theorem State.setSem_fenceWire (s : State) (k : Nat) (x : Sem) : (s.setSem k x).fenceWire = s.fenceWire := rfl
@[simp] theorem State.setSem_cmds (s : State) (k : Nat) (x : Sem) : (s.setSem k x).cmds = s.cmds := rfl
@[simp] theorem State.setSem_launches (s : State) (k : Nat) (x : Sem) : (s.setSem k x).launches = s.launches := rfl
@[simp] theorem State.setSem_engines (s : State) (k : Nat) (x : Sem) : (s.setSem k x).engines = s.engines := rfl
@[simp] theorem State.setSem_blocks (s : State) (k : Nat) (x : Sem) : (s.setSem k x).blocks = s.blocks := rfl
@[simp] theorem State.setSem_missqs (s : State) (k : Nat) (x : Sem) : (s.setSem k x).missqs = s.missqs := rfl
@[simp] theorem State.setSem_withdrawals (s : State) (k : Nat) (x : Sem) : (s.setSem k x).withdrawals = s.withdrawals := rfl
@[simp] theorem State.setSem_segFaults (s : State) (k : Nat) (x : Sem) : (s.setSem k x).segFaults = s.segFaults := rfl
@[simp] theorem State.setSem_caches (s : State) (k : Nat) (x : Sem) : (s.setSem k x).caches = s.caches := rfl
@[simp] theorem State.setSem_holdLimit (s : State) (k : Nat) (x : Sem) : (s.setSem k x).holdLimit = s.holdLimit := rfl
@[simp] theorem State.setSem_schedCtr (s : State) (k : Nat) (x : Sem) : (s.setSem k x).schedCtr = s.schedCtr := rfl
@[simp] theorem State.setSem_fe (s : State) (k : Nat) (x : Sem) : (s.setSem k x).fe = s.fe := rfl
@[simp] theorem State.setSem_peers (s : State) (k : Nat) (x : Sem) : (s.setSem k x).peers = s.peers := rfl
@[simp] theorem State.setSem_freeing (s : State) (k : Nat) (x : Sem) : (s.setSem k x).freeing = s.freeing := rfl
@[simp] theorem State.setSem_ep (s : State) (k : Nat) (x : Sem) : (s.setSem k x).ep = s.ep := rfl
@[simp] theorem State.setSem_sage (s : State) (k : Nat) (x : Sem) : (s.setSem k x).sage = s.sage := rfl
@[simp] theorem State.setSem_failures (s : State) (k : Nat) (x : Sem) : (s.setSem k x).failures = s.failures := rfl
@[simp] theorem State.setSem_spineRetries (s : State) (k : Nat) (x : Sem) : (s.setSem k x).spineRetries = s.spineRetries := rfl
@[simp] theorem State.setSem_rm (s : State) (k : Nat) (x : Sem) : (s.setSem k x).rm = s.rm := rfl
@[simp] theorem State.setSem_lc (s : State) (k : Nat) (x : Sem) : (s.setSem k x).lc = s.lc := rfl
@[simp] theorem State.setSem_pw (s : State) (k : Nat) (x : Sem) : (s.setSem k x).pw = s.pw := rfl
@[simp] theorem State.setSem_boot (s : State) (k : Nat) (x : Sem) : (s.setSem k x).boot = s.boot := rfl
@[simp] theorem State.setSem_cps (s : State) (k : Nat) (x : Sem) : (s.setSem k x).cps = s.cps := rfl
@[simp] theorem State.setSem_fps (s : State) (k : Nat) (x : Sem) : (s.setSem k x).fps = s.fps := rfl
@[simp] theorem State.setSem_fab (s : State) (k : Nat) (x : Sem) : (s.setSem k x).fab = s.fab := rfl
@[simp] theorem State.setSem_thyme (s : State) (k : Nat) (x : Sem) : (s.setSem k x).thyme = s.thyme := rfl
@[simp] theorem State.setSem_sx (s : State) (k : Nat) (x : Sem) : (s.setSem k x).sx = s.sx := rfl
@[simp] theorem State.setSem_out (s : State) (k : Nat) (x : Sem) : (s.setSem k x).out = s.out := rfl
@[simp] theorem State.setSem_nextId (s : State) (k : Nat) (x : Sem) : (s.setSem k x).nextId = s.nextId := rfl
@[simp] theorem State.setSem_freeCtr (s : State) (k : Nat) (x : Sem) : (s.setSem k x).freeCtr = s.freeCtr := rfl
@[simp] theorem State.setSem_pending (s : State) (k : Nat) (x : Sem) : (s.setSem k x).pending = s.pending := rfl
@[simp] theorem State.sem_setSem (s : State) (k : Nat) (x : Sem) : (s.setSem k x).sem k = x := tget_tput ..
theorem State.sem_setSem_ne (s : State) {j k : Nat} (x : Sem) (h : j ≠ k) : (s.setSem k x).sem j = s.sem j :=
  tget_tput_ne _ _ _ (h)
@[simp] theorem State.ctx_setSem (s : State) (k : Nat) (x : Sem) (j : Nat) : (s.setSem k x).ctx j = s.ctx j := rfl
@[simp] theorem State.obj_setSem (s : State) (k : Nat) (x : Sem) (j : Nat) : (s.setSem k x).obj j = s.obj j := rfl
@[simp] theorem State.fence_setSem (s : State) (k : Nat) (x : Sem) (j : Nat) : (s.setSem k x).fence j = s.fence j := rfl
@[simp] theorem State.part_setSem (s : State) (k : Nat) (x : Sem) (j : Nat) : (s.setSem k x).part j = s.part j := rfl
@[simp] theorem State.engine_setSem (s : State) (k : Nat) (x : Sem) (j : Nat) : (s.setSem k x).engine j = s.engine j := rfl
@[simp] theorem State.block_setSem (s : State) (k : Nat) (x : Sem) (j : Fn) : (s.setSem k x).block j = s.block j := rfl
@[simp] theorem State.missq_setSem (s : State) (k : Nat) (x : Sem) (j : Fn) : (s.setSem k x).missq j = s.missq j := rfl
@[simp] theorem State.vf_setSem (s : State) (k : Nat) (x : Sem) (j : Nat) : (s.setSem k x).vf j = s.vf j := rfl
@[simp] theorem State.cp_setSem (s : State) (k : Nat) (x : Sem) (j : Nat) : (s.setSem k x).cp j = s.cp j := rfl
@[simp] theorem State.fp_setSem (s : State) (k : Nat) (x : Sem) (j : Nat) : (s.setSem k x).fp j = s.fp j := rfl
@[simp] theorem State.cu_setSem (s : State) (k : Nat) (x : Sem) (j : Nat) : (s.setSem k x).cu j = s.cu j := rfl
@[simp] theorem State.sched_setSem (s : State) (k : Nat) (x : Sem) (j : Nat) : (s.setSem k x).sched j = s.sched j := rfl
@[simp] theorem State.domain_setSem (s : State) (k : Nat) (x : Sem) (j : Nat) : (s.setSem k x).domain j = s.domain j := rfl
@[simp] theorem State.setSem_setSem (s : State) (k : Nat) (x y : Sem) : (s.setSem k x).setSem k y = s.setSem k y := by
  simp [State.setSem]

end Sys2Proof.Machine
end

