-- ==== Sys2Proof/Machine/ReadUnits.lean ====
section
/-! DEFINITION. What the registers of the units read: engines, chiplet ports, fabric ports, Thyme, Sage, Rosemary, the
life cycle and power. A register read has no effect on the state (Table 0-5), so no command reads one. Every function
answers the 64-bit value of the register at an offset of its window; an offset that is not listed reads zero (R22). -/

namespace Sys2Proof.Machine

/-- Entry `i` of a list of registers that stands from `base` on, 8 bytes each; none outside it. -/
def regIdx (o base n : Nat) : Option Nat :=
  if base ≤ o ∧ o < base + 8 * n ∧ o % 8 = 0 then some ((o - base) / 8) else none

/-- A register of an array of registers, or what an offset outside the array reads. -/
def regAt (o base n : Nat) (f : Nat → Nat) (otherwise : Nat) : Nat :=
  match regIdx o base n with
  | some i => f i
  | none => otherwise

/-! ### Engines (Tables 3-6 to 3-13) -/

/-- SLOT_STATUS of slot `n` of engine `e` (Table 3-11). -/
def State.slotStatus (s : State) (e n : Nat) : Nat :=
  match s.inSlot ⟨e, n⟩ with
  | none => 0
  | some (_, l) =>
    let st := if l.status = .starting ∨ l.restoring then 1
      else if l.status = .parking then 5
      else if l.stop.isSome ∨ l.status = .stopping then 4
      else if l.qwait.isSome then 3 else 2
    (s.tag l.ctx).toNat * 2 ^ 48 + l.desc.arrays % 8 * 2 ^ 12 + st

/-- Physical arrays bound to the launches in the slots of an engine. -/
def State.boundArrays (s : State) (e : Nat) : List Nat :=
  (s.engine e).slots.flatMap fun r => ((tfind s.launches r.2).map (·.bound)).getD []

/-- ENG_STATE (Table 3-8): an engine with a launch in a slot is active. -/
def State.engState (s : State) (e : Nat) : Nat :=
  let x := s.engine e
  let out := s.sage.out && s.sage.engine == e && x.state != 4
  let st := if x.state = 0 then 0 else if x.state = 4 then 4 else if out && x.slots.isEmpty then 3
    else if x.slots.isEmpty then 1 else 2
  bitsMask (x.arrayRetired.filter (· < 4)) * 2 ^ 20 + bitsMask ((s.boundArrays e).filter (· < 4)) * 2 ^ 16
    + bitsMask ((x.slots.map (·.1)).filter (· < 4)) * 2 ^ 12 + flag (!x.scrubs.isEmpty) 8 + st

/-- ALLOT (Table 3-12). -/
def Allot.reg (a : Allot) : Nat :=
  let st := match a.state with
    | .live => 1 | .saving => 2 | .restoring => 3 | .scrubbing => 4
  a.owner.toNat * 2 ^ 48 + a.size % 256 * 2 ^ 32 + a.base % 256 * 2 ^ 16 + st

/-- The register at an offset of an engine's window (Table 3-6). The window of an engine beyond the configured count reads
zero (R150); an absent engine shows its build values, and its counters are zero (R151). (DEDUCED: log 15) -/
def State.engReg (s : State) (e o : Nat) : Nat :=
  let x := s.engine e
  let c := x.ctr
  let b := s.build
  if b.engines ≤ e then 0
  else if o = 0 then b.allotUnits * 2 ^ 32 + b.storeMiB * 2 ^ 24 + 8 * b.storeMiB * 2 ^ 16 + b.arrays * 2 ^ 12 + 4 * 2 ^ 8 + e
  else if o = 8 then s.engState e
  else if o = 0x10 then x.freq * 2 ^ 16 + x.vid * 2 ^ 8 + flag x.pinned 0
  else if o = 0x20 then c.t2Invalid
  else if o = 0x28 then c.intSat
  else if o = 0x30 then c.flush
  else if o = 0x38 then c.checkRetry
  else if o = 0x40 then c.storeCe
  else if o = 0x48 then c.scrubBytes
  else if o = 0x50 then c.park
  else if o = 0x58 then c.wake
  else if o = 0xA0 then c.vectorBusy
  else if o = 0xA8 then c.moverRead
  else if o = 0xB0 then c.moverWrite
  else if o = 0xB8 then c.energyUj
  else
    regAt o 0x80 4 (tget 0 c.arrayBusy ·) <| regAt o 0x100 4 (s.slotStatus e ·) <|
    regAt o 0x200 16 (fun i => ((tfind x.allots i).map Allot.reg).getD 0) <|
    regAt o 0x300 21 (fun j => ((tfind x.parks j).map fun p =>
      p.owner.toNat * 2 ^ 48 + p.queueSlot % 512 * 2 ^ 16 + p.state % 4).getD 0) 0

/-! ### Chiplet ports (Table 11-7) -/

/-- CP_FE_STATE of one foreign engine: an idle engine is free, or idle in a partition. -/
def State.feState (s : State) (c x : Nat) : Nat :=
  let f : Fe := tget {} (s.cp c).fes x
  if f.state = 1 ∧ (s.holderOf (.foreign (16 * c + x))).isSome then 2 else f.state

def CpState.code : CpState → Nat
  | .down => 0 | .training => 1 | .handshake => 2 | .up => 3 | .quarantined => 4

/-- (DEDUCED: log 15) -/
def State.cpReg (s : State) (c o : Nat) : Nat :=
  let p := s.cp c
  if s.build.chipletPorts ≤ c then 0
  else if o = 0 then p.rate * 2 ^ 16 + p.lanes * 2 ^ 8 + p.feCount
  else if o = 8 then p.quarCount * 2 ^ 12 + p.cause * 2 ^ 4 + p.state.code
  else if o = 0x10 then flag p.exclusive 0
  else if o = 0x18 then p.vendor * 2 ^ 48 + p.device * 2 ^ 32 + p.revision * 2 ^ 16 + p.version
  else if o = 0x20 then p.serial
  else if o = 0x48 then ((List.range 16).map fun x => s.feState c x * 16 ^ x).sum
  else if o = 0x80 then p.readLines
  else if o = 0x88 then p.writeLines
  else if o = 0x90 then p.violations
  else if o = 0x98 then p.heldCount
  else if o = 0xA0 then p.quiesces
  else
    regAt o 0x28 4 (fun i => ((List.range 4).map fun k => (tget {} p.fes (4 * i + k)).function * 65536 ^ k).sum) <|
    regAt o 0x100 16 (fun x =>
      let f : Fe := tget {} p.fes x
      min ((if f.cmd.isSome ∨ f.step.isSome then f.busyNs + (s.now - f.since) else f.busyNs) / 1000) ctrMax) 0

/-! ### Fabric (Tables 12-11, 12-12) -/

def FpState.code : FpState → Nat
  | .down => 0 | .detect => 1 | .equalise => 2 | .align => 3 | .ident => 4 | .calibrate => 5 | .active => 6

/-- FP_STATE.STATE: an ACTIVE port that runs states 2 to 5 again is in RETRAIN, state 7 (Table 12-2). (DEDUCED: log 15) -/
def State.fpReg (s : State) (p o : Nat) : Nat :=
  let x := s.fp p
  if s.build.fabricPorts ≤ p then 0
  else if o = 0 then
    x.cause * 2 ^ 24 + min x.retrains 255 * 2 ^ 16 + x.laneMask * 2 ^ 8 + x.width * 2 ^ 4 + (if x.retraining then 7 else x.state.code)
  else if o = 8 then x.peerHub * 2 ^ 48 + x.peerPort * 2 ^ 40 + x.peerRelease * 2 ^ 16 + x.hopNs
  else if o = 0x10 then flag x.disable 1
  else if o = 0x18 then (portSlots x.width).1 * 2 ^ 8 + x.reserved
  else if o = 0x80 then x.txFlits
  else if o = 0x88 then x.rxFlits
  else if o = 0x90 then x.crcErrors
  else if o = 0x98 then x.replays
  else if o = 0xA0 then x.fecCorrected
  else if o = 0xA8 then x.fecUncorrectable
  else if o = 0xB0 then x.discarded
  else regAt o 0x100 16 (fun n => tget 0 (s.part n).shares p) 0

/-- Reductions with partials held, and 64 KiB pages in use, of a collective unit. -/
def Cu.open_ (x : Cu) : Nat := ((x.held ++ x.rx.map (·.part)).map fun q => (q.owner, q.key)).dedup.length
def Cu.pagesInUse (x : Cu) : Nat := ((List.range 16).map x.pagesUsed).sum

/-- Fabric-wide registers, by offset from 0x000D_0000. -/
def State.fabReg (s : State) (o : Nat) : Nat :=
  if o = 0 then flag s.fab.idValid 16 + s.fab.hubId
  else if o = 8 then bitsMask ((List.range s.build.fabricPorts).filter fun p => (s.fp p).state == .active && !(s.fp p).retraining)
  else if 0x1000 ≤ o ∧ o < 0x1000 + 0x40 * 5 then
    let x := s.cu ((o - 0x1000) / 0x40)
    if o % 0x40 = 0 then x.open_ % 65536 * 2 ^ 32 + x.pagesInUse % 65536 * 2 ^ 16 + x.pagesReserved * 2 ^ 8 + x.state
    else if o % 0x40 = 8 then x.combines
    else if o % 0x40 = 0x10 then x.retries else 0
  else regAt o 0x8000 512 (fun i => ((List.range 16).map fun j => tget 0 s.fab.route (16 * i + j) % 16 * 16 ^ j).sum) 0

/-! ### Thyme and schedules (Table 13-17) -/

def State.thymeReg (s : State) (o : Nat) : Nat :=
  let t := s.thyme
  if o = 0 then t.now
  else if o = 8 then
    t.root * 2 ^ 48 + t.generation % 256 * 2 ^ 40 + t.depth % 8 * 2 ^ 37 + t.parent % 32 * 2 ^ 32 + min t.errorNs 65535 * 2 ^ 16 + t.state
  else if o = 0x10 then flag t.rootEn 0
  else if o = 0x18 then t.theta.toNat
  else if o = 0x20 then t.parentLosses else 0

/-- The schedule block of a partition, by offset from 0x0005_1000 + 0x100 × n. -/
def State.sxRead (s : State) (n o : Nat) : Nat :=
  let x := s.sched n
  if s.build.partitions ≤ n then 0
  else if o = 0 then x.imageObj.toNat * 2 ^ 32 + x.imageCtx.toNat
  else if o = 0x10 then x.startBeat
  else if o = 0x18 then
    x.tag * 2 ^ 48 + x.code * 2 ^ 40 + x.alt * 2 ^ 32 + flag x.busy 7 + flag x.lost 6 + flag x.done 5 + x.state
  else if o = 0x20 then x.origin
  else if o = 0x28 then x.epoch
  else if o = 0x30 then x.passes
  else if o = 0x38 then x.rollbacks
  else if o = 0x40 then x.replayBeats
  else if o = 0x48 then x.substitutions else 0

/-! ### Sage (Tables 15-6, 15-10, 15-11) -/

/-- The 128 bits of a message (Table 15-6). -/
def SageMsg.word (m : SageMsg) : Nat :=
  m.source.toNat * 2 ^ 116 + m.kind.toNat * 2 ^ 108 + m.initiator.toNat * 2 ^ 92 + m.access.toNat * 2 ^ 88 + m.address.toNat * 2 ^ 36
    + m.thyme.toNat

/-- SG_SRC_CFG (Table 15-11); that of source 0xF00, and of a source that does not exist, reads zero. -/
def SrcCfg.reg (c : SrcCfg) : Nat :=
  min c.count 255 * 2 ^ 56 + flag c.severe 55 + c.severeReact * 2 ^ 45 + c.minorReact * 2 ^ 40 + c.threshold * 2 ^ 32 + c.windowMs

/-- Sage's registers, by offset from 0x0002_0000. (DEDUCED: log 15) -/
def State.sageReg (s : State) (o : Nat) : Nat :=
  let g := s.sage
  let oldest : Nat := ((g.queue ++ g.ring).head?.map SageMsg.word).getD 0
  let first : Nat := (g.first.map SageMsg.word).getD 0
  if o = 0 then g.ring.length * 2 ^ 33 + g.queue.length * 2 ^ 24 + flag g.safe 1 + flag g.ringReady 0
  else if o = 8 then oldest % 2 ^ 64
  else if o = 0x10 then oldest / 2 ^ 64
  else if o = 0x20 then g.dropped
  else if o = 0x28 then g.faultsDropped
  else if o = 0x30 then g.faults
  else if o = 0x38 then first % 2 ^ 64
  else if o = 0x40 then first / 2 ^ 64
  else if o = 0x48 then flag g.firstMore 1 + flag g.firstValid 0
  else if o = 0x50 then g.pin
  else if o = 0x58 then g.rounds % 2 ^ 32 * 2 ^ 32 + flag g.out 5 + g.engine
  else if o = 0x60 then g.retired
  else if o = 0x68 then g.replays
  else regAt o 0x8000 4096 (fun src => ((s.srcCfg src).map SrcCfg.reg).getD 0) 0

/-! ### Rosemary (Table 16-5) -/

def State.rmReg (s : State) (o : Nat) : Nat :=
  let r := s.rm
  if o = 0 then
    r.forever.length * 2 ^ 54 + r.circ.length * 2 ^ 41 + flag r.clearRefused 6 + flag r.shut 5 + flag (512 ≤ r.forever.length) 4
      + flag r.lastClean 3 + flag r.formatted 2 + flag r.failed 1 + flag r.ready 0
  else if o = 8 then r.seq % 2 ^ 32 * 2 ^ 32 + r.changes % 2 ^ 32
  else if o = 0x10 then r.powerCycles % 2 ^ 24 * 2 ^ 40 + r.hours % 2 ^ 32
  else if o = 0x20 then flag r.readError 1 + flag r.readBusy 0
  else if o = 0x60 then r.dropped
  else regAt o 0x40 4 (fun i => r.recWords.getD i 0) 0

/-! ### Life cycle (Table 17-11) -/

/-- The candidate of a LOCKED pattern (R768); 0 in every other state. -/
def State.lcCandidate (s : State) : Nat :=
  if s.lcState = 15 then ((lcFinishable s.lc.raw).map (·.dst)).getD 0 else 0

/-- The identity public key, X then Y; zeros while the identity-key role is unusable (R799). -/
def State.publicKey (s : State) : List Byte :=
  match s.identityKey with
  | some k => takePad 96 (Config.publicKey k)
  | none => []

/-- The life-cycle block, by offset from 0x0006_0000. -/
def State.lcReg (s : State) (o : Nat) : Nat :=
  let x := s.lc
  if o = 0 then x.raw % 2 ^ 32 * 2 ^ 32 + x.pending * 2 ^ 8 + s.lcCandidate * 2 ^ 4 + s.lcState
  else if o = 8 then lcRoots s.lcState
  else if o = 0x18 then x.tag * 2 ^ 48 + x.code * 2 ^ 40 + flag x.lost 2 + flag x.done 1 + flag x.busy 0
  else if o = 0x20 then
    bitsMask ((x.partDebug.map (·.1)).filter (· < 16)) * 2 ^ 32 + flag x.recClear.isSome 3 + flag x.rma.isSome 2
      + flag x.hubDebug.isSome 1 + flag x.test.isSome 0
  else if o = 0x28 then x.counter
  else if o = 0x10000 then x.dbgSpace * 2 ^ 52 + x.dbgEngine * 2 ^ 48 + x.dbgBase * 2 ^ 15
  else if o = 0x10008 then x.dbgDenied
  else
    regAt o 0x100 12 (fun i => leAt s.publicKey (8 * i) 8) <| regAt o 0x200 8 (fun i => leAt x.block (8 * i) 8) <|
    regAt o 0x400 38 (tget 0 x.token ·) <| regAt o 0x1000 256 (tget 0 x.data ·) 0

/-! ### Power, clocks and thermal control (Table 18-4) -/

/-- The sensor with the highest code among those with ts_valid, and its code; the lowest of equal ones.
(DESIGN CHOICE: log 17) -/
def Power.hottest (p : Power) : Nat × Nat :=
  (List.range 32).foldl (fun m i => if bit p.valid i ∧ m.2 < tget 0 p.codes i then (i, tget 0 p.codes i) else m) (0, 0)

/-- DOM_STATUS: the code and the frequency of an engine domain are those of its engine. -/
def State.domReg (s : State) (d : Nat) : Nat :=
  let x := s.domain d
  let e := s.engine d
  if !s.hasDomain d then 0
  else
    (if d < s.build.engines then e.freq else 0) * 2 ^ 32 + (if d < s.build.engines then e.vid else x.vid) * 2 ^ 24 + x.reqVid * 2 ^ 16
      + flag x.oc 3 + flag x.pg 2 + flag x.pending 1 + flag (decide (d < s.build.engines) && e.pinned) 0

/-- (DEDUCED: log 15) -/
def State.powerReg (s : State) (o : Nat) : Nat :=
  let p := s.pw
  if o = 0 then p.limit
  else if o = 8 then
    min p.estimate 65535 * 2 ^ 48 + s.engineBudget % 65536 * 2 ^ 32 + ((s.openParts true).map fun e => e.2.power).sum % 65536 * 2 ^ 16
      + flag p.limitRefused 2 + flag p.emergency 1 + flag p.throttling 0
  else if o = 0x10 then nonEngine s.build
  else if o = 0x18 then p.fmax
  else if o = 0x20 then p.clkPort * 2 ^ 8 + flag p.clkFallback 1 + p.clkSource
  else if o = 0x28 then flag p.recLocked 9 + flag p.refPresent 8 + p.clkActive
  else if o = 0x30 then p.trip * 2 ^ 32 + p.emerg * 2 ^ 16 + p.warn
  else if o = 0x38 then p.hottest.1 * 2 ^ 59 + p.hottest.2 * 2 ^ 48 + p.valid % 2 ^ 32
  else if o = 0x40 then p.throttleUs
  else if o = 0x48 then p.emergencies
  else if o = 0x50 then p.droops
  else if o = 0x58 then p.staticExcessUs
  else
    regAt o 0x100 32 (fun i => flag (bit p.valid i) 16 + tget 0 p.codes i) <| regAt o 0x200 22 s.domReg <|
    regAt o 0x400 16 (fun n =>
      let x := s.part n
      if s.build.partitions ≤ n then 0
      else
        (if x.static then x.power else tget 0 p.allotted n) % 65536 * 2 ^ 48 + tget 0 p.partEstimate n % 65536 * 2 ^ 32
          + x.power % 65536 * 2 ^ 16 + flag x.static 0) 0

end Sys2Proof.Machine
end

