-- ==== Sys2Proof/Machine/ReadHost.lean ====
section
/-! DEFINITION. What the host reads: the registers of the PF and of the VFs by the maps of Tables 14-3 and 14-6, the
doorbell pages, the signal page, and the Hub Description Table. No read has an effect on the state. -/

namespace Sys2Proof.Machine

/-! ### The Hub Description Table (Tables 14-12, 14-13) -/

/-- One entry: header, value, and zeros up to a multiple of 8 (R695). -/
def hdtEntry (tag : Nat) (v : List Byte) : List Byte :=
  bytesLE 2 tag ++ bytesLE 2 v.length ++ bytesLE 4 0 ++ v ++ List.replicate ((8 - v.length % 8) % 8) 0

/-- A REGION entry: BAR, KIND, offset and size. -/
def hdtRegion (bar kind off size : Nat) : List Byte :=
  hdtEntry 6 (bytesLE 1 bar ++ bytesLE 1 0 ++ bytesLE 2 kind ++ bytesLE 4 0 ++ bytesLE 8 off ++ bytesLE 8 size)

/-- The rows of Table 14-3: KIND, offset and size. -/
def pfRegions : List (Nat × Nat × Nat) :=
  [(1, 0, 0x2000), (2, 0x2000, 0x2000), (3, 0x4000, 0x100), (4, 0x5000, 8), (5, 0x8000, 0x8000), (6, 0x10000, 0x10000),
   (7, 0x20000, 0x10000), (8, 0x30000, 0x10000), (9, 0x40000, 0x10000), (10, 0x50000, 0x10000), (11, 0x60000, 0x20000),
   (12, 0x80000, 0x50000), (13, 0xD0000, 0x10000), (14, 0x100000, 0x100000), (15, 0x200000, 0x200000),
   (16, 0x400000, 0x10000), (17, 0x410000, 0x10000), (18, 0x420000, 0x10000), (19, 0x430000, 0x10000),
   (20, 0x500000, 0x100000), (21, 0xE0000, 0x20000), (21, 0x440000, 0xC0000), (21, 0x600000, 0xA00000)]

/-- The rows of Table 14-6; its last row is the ranges the others leave. -/
def vfRegions : List (Nat × Nat × Nat) :=
  [(0x41, 0, 0x1000), (0x42, 0x1000, 0x1000), (0x43, 0x2000, 0x2000), (0x44, 0x4000, 0x1000), (0x45, 0x5000, 0x1000),
   (0x46, 0x6000, 0x40), (0x47, 0x8000, 0x80), (0x48, 0x9000, 8), (0x49, 0x6040, 0x1FC0), (0x49, 0x8080, 0xF80),
   (0x49, 0x9008, 0x6FF8)]

/-- A region that the build lacks has no entry (R697). -/
def hasRegion (b : Build) (kind : Nat) : Bool :=
  if kind = 12 ∨ kind = 13 then b.fabricPorts != 0
  else if kind = 14 then b.chipletPorts != 0
  else if kind = 15 then b.engines != 0 else true

/-- Table 1-7 scaled by the size table, in 0.25 W, rounded up: the first and the second operating point of each row (R53).
(DESIGN CHOICE: log 17) -/
def powerRows (b : Build) : List (Nat × Nat) :=
  let scale (n d w : Nat) : Nat := (4 * w * n + d - 1) / d
  let row (n d x y : Nat) : Nat × Nat := (scale n d x, scale n d y)
  [row (b.engines * b.arrays) 64 260 350, row b.engines 16 40 46, row b.engines 16 12 12, row b.engines 16 8 8,
   row b.hubStoreMiB 128 18 20, row 1 1 22 24, row b.channels 32 20 20, row b.fabricPorts 20 72 72, row b.chipletPorts 8 30 30,
   row 1 1 8 8, row 1 1 4 4, row 1 1 2 2, row 1 1 24 24]

/-- The format codes of each role (Tables 2-1 and 2-5): stationary, streamed, output, wide-exact. -/
def hdtFormats : List Byte :=
  bytesLE 4 0x0000FFFE ++ bytesLE 4 0x0000FFFA ++ bytesLE 4 0x000703E0 ++ bytesLE 4 0x0000FC60

/-- The entries, END included. (DESIGN CHOICE: log 17) -/
def hdtEntries (b : Build) : List (List Byte) :=
  let regions (bar : Nat) (rows : List (Nat × Nat × Nat)) : List (List Byte) :=
    (rows.filter fun r => hasRegion b r.1).map fun r => hdtRegion bar r.1 r.2.1 r.2.2
  [hdtEntry 1 (bytesLE 1 4 ++ bytesLE 1 1 ++ bytesLE 1 2 ++ bytesLE 1 b.sizeClass ++ bytesLE 4 (flag b.validatedSharing 0)
      ++ bytesLE 8 Config.buildId.toNat),
   hdtEntry 2 ([b.engines, b.arrays, b.storeMiB, b.hubStoreMiB, b.channels, b.fabricPorts, b.chipletPorts, b.foreign, b.partitions,
      b.ctxSlots, b.ways, 0].map (BitVec.ofNat 8)),
   hdtEntry 3 (bytesLE 4 4096 ++ bytesLE 4 262144 ++ bytesLE 4 1048576 ++ bytesLE 4 4096 ++ bytesLE 1 16 ++ bytesLE 1 8
      ++ bytesLE 1 8 ++ bytesLE 1 24 ++ bytesLE 2 1024 ++ bytesLE 1 64 ++ bytesLE 1 b.allotUnits),
   hdtEntry 4 hdtFormats,
   hdtEntry 5 (bytesLE 2 b.dataRate ++ bytesLE 2 0 ++ bytesLE 4 b.channelMiB)]
  ++ regions 0 pfRegions ++ regions 0x80 vfRegions
  ++ [hdtRegion 2 0x81 0 0x8000000, hdtRegion 2 0x82 0x8000000 0x1000, hdtRegion 4 0x83 0 0x2000000, hdtRegion 0x82 0x84 0 0x8000000,
      hdtRegion 0x84 0x85 0 0x100000000, hdtRegion 0xFF 0x86 0 0x10000]
  ++ ((powerRows b).zipIdx.map fun r => hdtEntry 7 (bytesLE 1 (r.2 + 1) ++ bytesLE 3 0 ++ bytesLE 2 r.1.1 ++ bytesLE 2 r.1.2))
  ++ [hdtEntry 8 [6, 4, 4, 4, 5, 6],
      hdtEntry 9 (((List.range 5).flatMap fun i => bytesLE 2 (Config.pcieId i).toNat) ++ bytesLE 1 6 ++ bytesLE 1 16),
      hdtEntry 0 []]

/-- The bytes of the table, with the given value of its CRC field. -/
def hdtWith (b : Build) (crc : Nat) : List Byte :=
  let entries := hdtEntries b
  bytesLE 4 0x44485653 ++ bytesLE 2 1 ++ bytesLE 2 0x20 ++ bytesLE 4 (0x20 + entries.flatten.length) ++ bytesLE 4 crc
    ++ bytesLE 2 0x0401 ++ bytesLE 2 entries.length ++ List.replicate 12 0 ++ entries.flatten

/-- The Hub Description Table (R694). (DEDUCED: log 15; DESIGN CHOICE: log 17) -/
def hdt (b : Build) : List Byte := hdtWith b (Config.crc32c (hdtWith b 0)).toNat

/-! ### Identity and endpoint (Table 14-4) -/

/-- A fuse word; zero until the fuse read. -/
def State.fuse (s : State) (i : Nat) : Nat := if s.boot.step = 0 then 0 else s.otpWord i

def State.identReg (s : State) (o : Nat) : Nat :=
  let e := s.ep
  if o = 0 then 4 * 2 ^ 24 + 1 * 2 ^ 16 + 2 * 2 ^ 8 + s.build.sizeClass
  else if o = 8 then s.fuse 1 * 2 ^ 32 + s.fuse 2 % 2 ^ 24 * 2 ^ 8
  else if o = 0x10 then s.fuse 3
  else if o = 0x18 then min e.perstCount 255 * 2 ^ 24 + flag e.flit 16 + e.width % 256 * 2 ^ 8 + e.speed % 8
  else if o = 0x20 then e.cplFailed
  else if o = 0x28 then e.poisoned
  else if o = 0x1000 then e.int.status % 32
  else if o = 0x1008 then e.msgPending
  else if o = 0x1010 then e.resetDone
  else if o = 0x1018 then bitsMask ((List.range 64).filter fun v => (s.vf v).resetting)
  else 0

/-- One side of a message block (Table 14-10). -/
def MsgSide.reg (m : MsgSide) (o : Nat) : Nat :=
  if o = 0x40 then flag m.fromValid 3 + flag m.lost 2 + flag m.toBusy 1
  else regAt o 0 4 (tget 0 m.out ·) <| regAt o 0x20 4 (tget 0 m.inbox ·) 0

/-- MSI-X table and PBA (PCIe): address, data and mask by vector, and the pending bits. -/
def IntBlock.tableReg (b : IntBlock) (o : Nat) : Nat :=
  let e := tget (0, 0) b.table (o / 16)
  if o % 16 = 0 then e.1 else if o % 16 = 8 then flag (!b.unmasked.contains (o / 16)) 32 + e.2 else 0

def IntBlock.pba (b : IntBlock) : Nat := bitsMask (b.pending.filter (· < 64))

/-! ### Mailbox and partitions (Tables 6-3 to 6-7) -/

def WmbPhase.code : WmbPhase → Nat
  | .idle => 0 | .prescan => 1 | .staging => 2 | .validating => 3 | .handover => 4

/-- A partition's registers, by offset from 0x0001_8000 + 0x40 × n. -/
def State.partReg (s : State) (n o : Nat) : Nat :=
  let x := s.part n
  if s.build.partitions ≤ n then 0
  else if o = 0 then
    x.vfs.length * 2 ^ 32 + x.rslots * 2 ^ 24 + x.quota * 2 ^ 8 + flag (s.scheduleRuns n) 6 + flag x.validated 5 + flag x.static 4 + x.state
  else if o = 8 then bitsMask x.engines
  else if o = 0x10 then bitsMask x.foreign
  else if o = 0x18 then bitsMask x.channels
  else if o = 0x20 then bitsMask x.ways
  else if o = 0x28 then x.seq
  else if o = 0x30 then x.label
  else if o = 0x38 then x.keygen
  else 0

/-- Registers 0x0001_0000 to 0x0001_FFFF, by offset. -/
def State.wmbReg (s : State) (o : Nat) : Nat :=
  let m := s.wmb
  let u := s.units
  if o = 0 then m.phase.code * 2 ^ 4 + flag m.lost 2 + flag m.done 1 + flag m.busy 0
  else if o = 0x10 then m.resTag * 2 ^ 48 + m.resCode * 2 ^ 40 + m.resIndex * 2 ^ 22 + min m.resDuration 0x3FFFFF
  else if o = 0x20 then bitsMask u.reserveEngines * 2 ^ 16 + bitsMask u.freeEngines
  else if o = 0x28 then bitsMask u.freeForeign
  else if o = 0x30 then bitsMask u.reserveForeign
  else if o = 0x38 then bitsMask u.freeChannels
  else if o = 0x40 then bitsMask u.reserveWays * 2 ^ 32 + bitsMask u.freeWays
  else if 0x8000 ≤ o ∧ o < 0x8400 then s.partReg ((o - 0x8000) / 0x40) (o % 0x40)
  else regAt o 0x1000 512 (tget 0 m.program ·) 0

/-! ### Object request blocks, front end, miss queues, schedulers (Tables 7-4, 7-6, 8-4, 8-10, 9-9, 9-10, 10-4, 10-5) -/

def ObjBlock.reg (b : ObjBlock) (o : Nat) : Nat :=
  if o = 0 then b.arg0.toNat
  else if o = 8 then b.arg1.toNat
  else if o = 0x10 then b.arg2.toNat
  else if o = 0x28 then b.tag.toNat * 2 ^ 48 + b.code * 2 ^ 40 + flag b.lost 3 + flag b.done 1 + flag b.busy 0
  else if o = 0x30 then b.result0.toNat
  else if o = 0x38 then b.result1.toNat
  else 0

/-- The context that holds a resident slot. -/
def State.slotCtx (s : State) (r : Nat) : Option Nat := (s.ctxs.find? fun e => e.2.sched.rslot = some r).map (·.1)

/-- The state of a queue slot's sequencer (QSLOT_STATUS.STATE). -/
def State.fetchCode (s : State) (qi : Nat) : Nat :=
  let q := s.queue qi
  if q.state = 2 then 5 else if q.blocked.isSome then 3 else if !q.decoded.isEmpty then 4
  else if q.fetch = .asleep then 1 else 2

/-- QSLOT_STATUS (Table 8-10). -/
def State.qslotStatus (s : State) (n : Nat) : Nat :=
  match s.slotCtx (n / 8) with
  | none => 0
  | some c =>
    let qi := 8 * c + n % 8
    let q := s.queue qi
    if q.state = 0 then 0
    else
      (s.tag c).toNat * 2 ^ 48 + n % 8 * 2 ^ 32 + q.haltCode * 2 ^ 24 + (s.startedCmds qi).length * 2 ^ 16 + flag q.bound.isSome 9
        + flag q.dbPending 8 + flag (q.decoded.isEmpty && q.fetch != .fetching) 3 + s.fetchCode qi

def State.qslotPtrs (s : State) (n : Nat) : Nat :=
  match s.slotCtx (n / 8) with
  | none => 0
  | some c => let q := s.queue (8 * c + n % 8); q.tail * 2 ^ 32 + q.head

/-- Front-end registers, by offset from 0x0041_0000. -/
def State.feReg (s : State) (o : Nat) : Nat :=
  if o = 0x2000 then s.fe.dbAccepted
  else if o = 0x2008 then s.fe.dbIgnored
  else if o = 0x2010 then s.fe.walks
  else if o = 0x2018 then s.fe.cycles
  else if o = 0x2020 then s.fe.remoteRefused
  else if 0x8000 ≤ o ∧ o < 0x8100 then
    let p : Peer := tget {} s.peers ((o - 0x8000) / 16)
    if o % 16 = 8 then p.addr else p.hubId.toNat * 2 ^ 48 + p.slot * 2 ^ 8 + flag p.valid 0
  else regAt o 0 (8 * s.build.ctxSlots) s.qslotStatus <| regAt o 0x1000 (8 * s.build.ctxSlots) s.qslotPtrs 0

/-- A miss-queue block (Table 9-9). -/
def State.missqReg (s : State) (fn : Fn) (o : Nat) : Nat :=
  let q := s.missq fn
  if o = 0 then q.base
  else if o = 8 then q.timeoutMs * 2 ^ 16 + flag q.enable 8 + q.sizeLog2
  else if o = 0x10 then q.head
  else if o = 0x18 then q.tail
  else if o = 0x20 then (s.segFaults.filter fun f => f.fn = fn).length
  else 0

/-- Segment counters (Table 9-10), by offset from 0x0042_1000. -/
def State.segReg (s : State) (o : Nat) : Nat :=
  if o = 0 then (s.withdrawals.filter fun w => w.2.broadcast).length
  else if o = 8 then s.fe.segMiss
  else if o = 0x10 then s.fe.segFault
  else if o = 0x18 then s.fe.inval
  else if o = 0x20 then s.fe.invalLate
  else if o = 0x28 then s.fe.bar4Absent
  else if o = 0x30 then s.fe.undoRecovery
  else 0

/-- The scheduler block of a partition (Table 10-4). -/
def State.schedReg (s : State) (n o : Nat) : Nat :=
  if s.build.partitions ≤ n then 0
  else if o = 0 then s.holdLimitOf n
  else if o = 8 then
    ((s.ctxsOf n).filter fun c => s.schedState c == 1).length * 2 ^ 32 + ((s.ctxsOf n).filter s.resident).length * 2 ^ 16
  else regAt o 0x10 5 (fun i => (tget [] s.schedCtr n).getD i 0) 0

/-- RSLOT_STATUS (Table 10-5). -/
def State.rslotStatus (s : State) (r : Nat) : Nat :=
  match s.slotCtx r with
  | none => 0
  | some c =>
    let st := s.schedState c
    (s.tag c).toNat * 2 ^ 48 + (if st = 6 then 2 else if st = 5 then 3 else 1)

/-! ### The register maps -/

/-- PF BAR0 regions that need firmware (R852). -/
def State.pfFwRead (s : State) (o : Nat) : Nat :=
  if 0x10000 ≤ o ∧ o < 0x20000 then s.wmbReg (o - 0x10000)
  else if 0x51000 ≤ o ∧ o < 0x60000 then s.sxRead ((o - 0x51000) / 0x100) ((o - 0x51000) % 0x100)
  else if 0x400000 ≤ o ∧ o < 0x401000 then (s.block .pf).reg (o - 0x400000)
  else if 0x408000 ≤ o ∧ o < 0x410000 then regAt o 0x408000 4096 s.ctxStatus 0
  else if 0x410000 ≤ o ∧ o < 0x420000 then s.feReg (o - 0x410000)
  else if 0x420000 ≤ o ∧ o < 0x421000 then s.missqReg .pf (o - 0x420000)
  else if 0x421000 ≤ o ∧ o < 0x430000 then s.segReg (o - 0x421000)
  else if 0x430000 ≤ o ∧ o < 0x430400 then s.schedReg ((o - 0x430000) / 0x40) (o % 0x40)
  else if 0x431000 ≤ o ∧ o < 0x440000 then regAt o 0x431000 s.build.ctxSlots s.rslotStatus 0
  else if 0x500000 ≤ o ∧ o < 0x600000 then s.account ((o - 0x500000) / 0x100) (o % 0x100 / 8)
  else 0

/-- The 64-bit register at an aligned offset of PF BAR0 (Table 14-3). In the safe state, and in reset, only the registers
of Table 14-4 and the HDT answer (R674, R724). (DEDUCED: log 15) -/
def State.readPf (s : State) (o : Nat) : Nat :=
  if !s.decodesBase .pf then 0
  else if o < 0x2000 then s.identReg o
  else if 0x8000 ≤ o ∧ o < 0x10000 then leAt (hdt s.build) (o - 0x8000) 8
  else if !s.up then 0
  else if 0x4000 ≤ o ∧ o < 0x4100 then s.ep.int.tableReg (o - 0x4000)
  else if o = 0x5000 then s.ep.int.pba
  else if 0x20000 ≤ o ∧ o < 0x30000 then s.sageReg (o - 0x20000)
  else if 0x30000 ≤ o ∧ o < 0x40000 then s.rmReg (o - 0x30000)
  else if o < 0x4000 then (tget {} s.ep.msgs ((o - 0x2000) / 0x80)).reg (o % 0x80)
  else if 0x40000 ≤ o ∧ o < 0x50000 then s.powerReg (o - 0x40000)
  else if 0x50000 ≤ o ∧ o < 0x51000 then s.thymeReg (o - 0x50000)
  else if 0x60000 ≤ o ∧ o < 0x80000 then s.lcReg (o - 0x60000)
  else if 0x80000 ≤ o ∧ o < 0xD0000 then s.fpReg ((o - 0x80000) / 0x4000) (o % 0x4000)
  else if 0xD0000 ≤ o ∧ o < 0xE0000 then s.fabReg (o - 0xD0000)
  else if 0x100000 ≤ o ∧ o < 0x200000 then s.cpReg ((o - 0x100000) / 0x20000) ((o - 0x100000) % 0x20000)
  else if 0x200000 ≤ o ∧ o < 0x400000 then s.engReg ((o - 0x200000) / 0x20000) ((o - 0x200000) % 0x20000)
  else if s.fwRuns then s.pfFwRead o
  else 0

/-- STMT_CTRL (Table 6-15). -/
def Stmt.ctrl (x : Stmt) : Nat :=
  x.length % 2 ^ 32 * 2 ^ 32 + flag x.busy 5 + flag x.changed 4 + flag x.refused 3 + flag x.lost 2 + flag x.done 1

/-- The 64-bit register at an aligned offset of a VF's BAR0 (Table 14-6). (DEDUCED: log 15) -/
def State.readVf (s : State) (v o : Nat) : Nat :=
  let x := s.vf v
  if !s.decodes (.vf v) then 0
  else if o = 0 then
    (match s.vfPart v with
      | some p => p * 2 ^ 12 + 2 ^ 8
      | none => 0) + v
  else if o = 8 then x.int.status % 64
  else if o = 0x18 then x.notifyBase
  else if o = 0x20 then flag x.notifyOverflow 9 + flag x.notifyEnable 8 + x.notifySize
  else if o = 0x28 then x.notifyHead
  else if o = 0x30 then x.notifyTail
  else if 0x1000 ≤ o ∧ o < 0x1048 then x.msg.reg (o - 0x1000)
  else if 0x2000 ≤ o ∧ o < 0x2020 then tget 0 x.stmt.nonce ((o - 0x2000) / 8)
  else if o = 0x2020 then x.stmt.ctrl
  else if o = 0x2028 then ((s.vfPart v).map fun p => (s.part p).seq).getD 0
  else if 0x3000 ≤ o ∧ o < 0x4000 then leAt x.stmt.buffer (o - 0x3000) 8
  else if 0x4000 ≤ o ∧ o < 0x5000 then (s.block (.vf v)).reg (o - 0x4000)
  else if 0x5000 ≤ o ∧ o < 0x6000 then s.missqReg (.vf v) (o - 0x5000)
  else if 0x6000 ≤ o ∧ o < 0x6040 then
    let a : Aperture := tget {} x.aps ((o - 0x6000) / 16)
    if o % 16 = 0 then a.ctx.toNat else a.vbase
  else if 0x8000 ≤ o ∧ o < 0x8080 then x.int.tableReg (o - 0x8000)
  else if o = 0x9000 then x.int.pba
  else 0

/-- A doorbell page register of a queue (Table 8-4), for a function whose page acts for the queue (R387). -/
def State.readDoorbell (s : State) (fn : Fn) (qi o : Nat) : Nat :=
  let q := s.queue qi
  if !s.decodes fn || !s.fwRuns || !s.pageActs fn qi then 0
  else if o = 8 then q.tail * 2 ^ 32 + q.head
  else if o = 0x10 then q.haltCode * 2 ^ 8 + flag q.dbPending 3 + flag q.bound.isSome 2 + q.state
  else 0

/-- The result word of a peer-table entry on the signal page (Table 8-9). -/
def State.readSignalPage (s : State) (o : Nat) : Nat :=
  if !s.decodes .pf then 0
  else regAt o 0x800 16 (fun j => let p : Peer := tget {} s.peers j; p.resultSeq * 2 ^ 32 + p.result) 0

/-- The 64-bit word at an offset of the expansion ROM. -/
def State.readRom (s : State) (o : Nat) : Nat := leAt (hdt s.build) o 8

end Sys2Proof.Machine
end

