-- ==== Sys2Proof/WellFormed.lean ====
section
/-! DEFINITION. Which commands can be sent: the indices a command carries lie in the ranges of the largest build
(Table 1-6) and the widths it carries are those of its bus. -/

namespace Sys2Proof

def SlotId.wellFormed (a : SlotId) : Bool := a.engine < 16 && a.slot < 4

def Fn.wellFormed : Fn → Bool
  | .pf => true
  | .vf v => v < 64

/-- The checks of one command. A command without a check here carries nothing that could be out of range. -/
def Instr.wellFormed : Instr → Bool
  | .ivrPgLoss d | .ivrAck d | .ivrAckTimeout d | .ivrOcAssert d | .droop d | .droopRecovery d => d < 64
  | .tsValidTimeout n | .thermalEmergency n _ | .thermalTrip n _ => n < 64
  | .fabRecClockSelect p => p < 20
  | .registerWrite fn bar _ width _ _ => fn.wellFormed && bar < 6 && (width == 4 || width == 8)
  | .dispatchRound p | .sliceBoundary p | .allotWaitTimeout p | .evict p => p < 16
  | .foldSwap a arr | .passCommit a arr _ => a.wellFormed && arr < 4
  | .checkPoint a | .arrayImageWritten a | .park a | .tdld a | .tdset a | .wld a | .tmul a | .twin a | .tcmb a
  | .tdrn a | .tclr a | .cred a | .mcopy a | .mfill a | .mgath a | .eUndefinedOpcode a | .codeFetch a | .nop a
  | .sli a | .slui a | .salu a | .salui a | .sld a | .sst a | .sparam a | .sstat a | .br a | .jal a | .jr a | .kset a
  | .tokenDeadlock a | .qwait a | .enq a | .endLaunch a | .sacq a | .srel a | .vmax a | .vmin a | .vsel a | .viadd a
  | .visub a | .vimul a | .vimax a | .vimin a | .vand a | .vor a | .vxor a | .vshl a | .vshr a | .vsra a | .vcmp a
  | .vicmp a | .vcvtToInt32 a | .vcvtToFp32 a | .viota a | .vrsum a | .vrmax a | .vrmin a | .virsum a | .vbcst a
  | .vmovs a | .vld a | .vst a | .vldt a | .vstt a | .vmxq a | .plogic a | .pcnt a | .pfirst a | .recoveryPoint a
  | .replay a => a.wellFormed
  | .vadd a _ | .vsub a _ | .vmul a _ | .vfma a _ | .vexp2 a _ | .vlog2 a _ | .vrcp a _ | .vrsqrt a _ | .vsqrt a _
  | .vtanh a _ => a.wellFormed
  | .scrubComplete e _ | .storeSecdedError e _ _ | .combinerPartial e | .wake e _ | .pllRelockComplete e
  | .engineIdleTimeout e | .selftestDue e | .selftestPreemptTimeout e => e < 16
  | .workPacketDeliver q | .waitGraphWalk q | .ringLineReturn q | .tailReread q | .qNop q | .launch q
  | .launchResident q | .launchResidentStop q | .waitFence q | .waitComplete q | .signal q | .signalRemoteFabric q
  | .signalRemotePeer q _ | .signalRemoteWrite q | .copy q | .fill q | .barrier q | .jump q | .callRing q | .release q
  | .timestamp q | .qUndefinedOpcode q => q < 32768
  | .semaphoreGrant p n | .holdLimitExpire p n => p < 16 && n < 64
  | .stmtRequest v _ | .vfFlr v | .vfFlrComplete v | .notifyHeadWrite v _ | .notifyCtrlWrite v _ | .msgSend _ v
  | .msgPendingClear _ v => v < 64
  | .ctxCreate fn _ | .ctxDestroy fn _ | .ctxQuery fn _ | .objCreate fn _ | .objZeroingComplete fn
  | .objCreateHost fn _ | .fenceCreate fn _ | .fenceQuery fn _ | .importEntry fn _ | .objUnknownOp fn _ _
  | .queueCreate fn _ | .queueDestroy fn _ | .queueDestroyComplete fn | .queueResume fn _ | .segMap fn _
  | .segUnmap fn _ | .segRefuse fn _ | .undoSet fn _ | .segShare fn _ | .segFaultRecordPost fn
  | .missqHeadWrite fn _ | .missqCtrlWrite fn _ | .bar4Read fn _ _ | .bar4Write fn _ _ | .saveSet fn _
  | .ctxShare fn _ | .ctxAccount fn _ | .queueTarget fn _ | .d3hotEntry fn | .d3hotExit fn | .intStatusClear fn _ _
  | .certRead fn _ | .dbgKeySet fn _ => fn.wellFormed
  | .doorbell fn q width _ => fn.wellFormed && q < 32768 && (width == 4 || width == 8)
  | .msixUnmask .pf v => v < 16
  | .msixUnmask (.vf n) v => n < 64 && v < 8
  | .abortComplete c | .switchOut c | .switchOutComplete c | .switchIn c | .importEnd c _ | .cplFailure c _
  | .cplErrorStatus c _ _ => c < 4096
  | .recordRestoreComplete c e => c < 4096 && e < 16
  | .segMissFill _ c seg | .segFaultTimeout c seg => c < 4096 && seg < 64
  | .chipletLinkUp p _ _ | .cppCaps p _ | .capsTimeout p | .cppCredit p _ | .cppRead p _ | .cppWrite p _
  | .cppSignal p _ | .cppComplete p _ | .cppInvalAck p _ | .cppQuiesceAck p _ | .cppResetAck p _ | .resetTimeout p
  | .creditStallTimeout p | .chipletLinkDown p | .readDataSend p _ | .cpRecover p | .cppUndefinedMessage p => p < 8
  | .quiesceTimeout p fe => p < 8 && fe < 16
  | .fpTrain p | .fpDisable p _ | .laneDetect p _ | .detectTimeout p | .equaliseStable p _ | .equaliseTimeout p
  | .alignComplete p _ | .alignFail p | .identExchange p _ | .identTimeout p | .calibrateComplete p _
  | .trainTimeout p | .fecErrorRate p | .flitReceive p _ | .replayTimeout p | .manifest p _ | .thymeMsg p _ _
  | .linkNote p _ | .ofpUndefinedMessage p => p < 20
  | .fabricSignal p _ | .fabricSignalAck p _ | .partialMsg p _ | .partialAck p _ | .schedXferData p _ | .schedVote p _
  | .schedCommit p _ | .fwChunk p _ | .fwAck p _ | .wmsg p _ => p < 32
  | .laneLockLoss p lane => p < 20 && lane < 8
  | .partialRetryResend d _ | .partialAbandon d _ | .e2eResendTimeout d _ => d < 65536
  | .thymeParentTimeout p d => p < 32 && d < 256
  | .schedCtrlWrite p _ | .sxAdmit p _ | .sxStart p _ | .sxSuspend p _ | .sxResume p _ | .sxUnload p _
  | .sxUnknownOp p _ _ | .startDecision p | .startBeatTimeout p | .beatStepDispatch p _ | .beatXferStart p _
  | .overrun p | .epochBoundary p | .saveWindowEnd p | .voteWindowTimeout p | .rollbackTrigger p
  | .rollbackReport p _ _ | .restartBeat p | .scheduleEnd p => p < 16
  | _ => true

end Sys2Proof
end

