-- ==== Sys2Proof/Tests/Slice0.lean ====
section
/-! SUPPORT. The author's own tests: ill-formed commands, a few small runs, and, for every statement with hypotheses, a
state and operands that meet those of each of its clauses. -/

open Sys2Proof Sys2Proof.Machine

namespace Sys2Proof.Tests

/-! ### States of the tests -/

/-- The hub with a reference, its link trained, firmware running and four VFs enabled. -/
def on : State := { State.reset with
  pins := ⟨false, false, false⟩, boot := { step := 6, fwState := 3 }, pw := { refPresent := true },
  ep := { down := false, width := 16, speed := 6, vfEnable := true, numVfs := 4 } }

/-- A fabric message of a type, with nothing else in it. -/
def msg (t : BitVec 8) : OfpMsg :=
  { type := t, lines := 0, phase := 0, order := false, copy := false, sourceRouted := false, hop := 0, srcHub := 9, dstHub := 5,
    ownerTag := 0, e2eSeq := 3, routeLen := 0, route := 0, f10 := 0, f18 := 0, f20 := 0, f28 := 0, f30 := 0, f38 := 0,
    data := [] }

/-- A domain with a change in progress. -/
def changing (s : State) (d : Nat) (relock : Bool) : State :=
  s.setDomain d { reqVid := 0x50, pg := true, pending := true, toFreq := 1100, relocking := relock }

/-- A hub at step 1 of bring-up, without a reference. -/
def early : State := { State.reset with pins := ⟨false, false, false⟩, boot := { step := 1 } }
/-- Every engine at 400 MHz. -/
def slowed : State := { on with engines := (List.range 16).map fun e => (e, { freq := 400 }) }

/-- A Sage message of a source and a kind. -/
def sm (src : BitVec 12) (kind : BitVec 8) : SageMsg :=
  { source := src, kind := kind, initiator := 0xFFFF, access := 0, address := 0, thyme := 0 }

/-- The hub with open partition 0, whose context 1 of VF 0 is LIVE in residency slot 0 and has one segment over the first
pages of channel 0, a queue, a fence of its own (entry 7) and an object (entry 9). -/
def lit : State := { on with
  boot := { step := 6, fwState := 3, fpt := [⟨3, 1, 0, 2048⟩] },
  units := { parts := [(0, { state := 2, timesliceMs := 10, quota := 8, rslots := 2, engines := [0, 1], channels := [0],
                             vfs := [0], keyed := true })] },
  ctxs := [(1, { state := .live, fabric := true, allotUnits := 4, fencesOwned := 1, objectsOwned := 1,
                 queues := [(0, { state := 1, sizeLog2 := 12 })], sched := { rslot := some 0, saveRecords := 4 },
                 segs := [(0, { pages := 16, object := mkHandle 3 1 9, present := true, w := true, rd := true })] })],
  objs := [(9, { state := 2, owner := 1, size := 32 * 65536 })],
  fences := [(7, { state := 1, owner := 1 })],
  engines := [(0, { state := 1, allots := [(0, { owner := 1, base := 0, size := 4, state := .live })] }), (1, { state := 1 })] }

/-- A state in which the request block of a function holds three arguments. -/
def ask (s : State) (fn : Fn) (a0 a1 a2 : Nat) : State :=
  s.setBlock fn { arg0 := BitVec.ofNat 64 a0, arg1 := BitVec.ofNat 64 a1, arg2 := BitVec.ofNat 64 a2 }

/-- The handle of context 1. -/
def h1 : Nat := (mkHandle 1 1 1).toNat

/-- `lit` with another queue 0 of context 1. -/
def withQueue (q : Queue) : State := lit.setQueue 8 q

/-- `lit` with a second LIVE context of partition 0. -/
def two : State := lit.setCtx 2 { state := .live, vf := 0 }

/-- A hub where nothing holds the Warden and the entropy source works, with life-cycle state OPEN. -/
def free : State := { on with lc := { raw := 0 } }

/-- The hub with ID 5, port 0 ACTIVE to hub 9, which is a member with a route. -/
def fab : State := { on with
  fab := { idValid := true, hubId := 5, route := [(9, 4)] }, fps := [(0, { state := .active, width := 8, peerHub := 9 })] }

/-- `lit` with one decoded packet at the front of queue 0 of context 1, and more bytes behind it in the ring. -/
def todo (w0 w1 : Nat) : State :=
  withQueue { state := 1, sizeLog2 := 12, tail := 64, seenTail := 16, fetch := .fetching, decoded := [⟨w0, w1, 0, none⟩] }

/-- The handle of fence 7, also as a packet's HANDLE. -/
def h7 : Nat := (mkHandle 4 1 7).toNat
def held7 : Nat := h7 * 2 ^ 32

/-- Queue 8 after its only packet would be `p`. -/
def pk (w0 w1 : Nat) : Packet := ⟨w0, w1, 0, none⟩

/-- A command of queue 0 of context 1. -/
def cm (op : Nat) : Cmd := { ctx := 1, queue := 8, op := op, flags := 0, handle := 0, arg := 0, origin := 0, pos := 0 }

/-- Where no object is listed, none is being zeroed. -/
theorem no_zeroing {s : State} (h : s.objs = []) (c : Nat) (f : Nat → Seg → Bool) : s.namesZeroing c f = false := by
  simp [State.namesZeroing, State.zeroing, State.obj, h, tget]

/-- A line write that is made to device memory, and the state after it. -/
def written (r : WriteRes) : Option State :=
  match r with
  | .done t false => some t
  | _ => none

theorem wrote_of {r : WriteRes} (h : (written r).isSome = true) : r = .done ((written r).get h) false := by
  match r, h with
  | .done _ false, _ => rfl

/-- An instruction word of an opcode. -/
def wd (op rest : Nat) : Nat := op * 2 ^ 56 + rest

/-- A descriptor of an array in the allotment. -/
def td (fmt dim0 dim1 addr : Nat) : BitVec 256 := BitVec.ofNat 256 (fmt * 2 ^ 192 + 64 * 2 ^ 128 + dim1 * 2 ^ 96 + dim0 * 2 ^ 64 + addr)

/-- A queued word with s1 and t0 as read at its issue. -/
def qe (w : Nat) (s1 : BitVec 64) (t0 : BitVec 256) : QEntry := ⟨w, 0, [(1, s1)], [(0, t0)]⟩

/-- What a launch executes with when `h` is alone in queue `q`. -/
def ex (q : Nat) (h : QEntry) : Exec := ({} : Exec).setQueue q [h]

/-- A running launch of context 1 in slot 0 of engine 0. -/
def la (x : Exec) (d : Desc) : Launch :=
  { ctx := 1, cmd := none, wg := 0, wgs := 1, desc := d, origin := 0, queue := 8, place := .slot 0 0, status := .running, x := x }

/-- `lit` with launch 20 in slot 0 of engine 0. -/
def run (l : Launch) : State := { lit with
  launches := [(20, l)],
  engines := [(0, { state := 1, slots := [(0, 20)], allots := [(0, { owner := 1, base := 0, size := 4, state := .live })] }),
              (1, { state := 1 })] }

/-- The slot of `run`. -/
def a0 : SlotId := ⟨0, 0⟩

/-- A launch of one array and one chunk, running in the slot of `run`. -/
def ta (x : Exec) (a : LArray) (k : Nat) : Launch := la { x with arrs := [a] } { arrays := 1, k := k, workgroups := 1 }

/-- An INT bank that holds one row of one column, with span `n` complete. -/
def bk (n : Nat) : Bank := { state := .opened, a := n, cur := n, fs := 1, fx := 1, n := 1, rows := 1 }

/-- A loaded buffer of one column. -/
def wt : Weight := { loaded := true, fmt := 1, cols := [⟨List.replicate 128 0, List.replicate 4 127⟩] }

/-- A partial of span 0 of two. -/
def par : Partial :=
  { owner := 1, key := 0, a := 0, e := 0, k := 256, spanLog2 := 0, fs := 1, fx := 1, wx := false, n := 1, rows := 1, L := 0,
    data := [[.int 0]], ty := td 0x11 1 1 0, so := 0, sf := 0 }

/-- A launch with something in flight. -/
def fl (e : Effect) : Launch := ta { ({} : Exec) with inflight := [⟨e, none⟩] } {} 128

/-- `lit` long after context 1 was switched in, with a second context of partition 0 and commands. -/
def pair (x1 x2 : Context → Context) (cmds : Table Cmd) : State := { (two.modCtx 1 x1).modCtx 2 x2 with
  thyme := { now := 10 ^ 9 }, cmds := cmds, nextId := 30 }

/-- A LAUNCH of context 2 with a workgroup to place. -/
def open2 : Table Cmd := [(3, { cm 2 with ctx := 2, queue := 16, desc := some { workgroups := 1 } })]

/-- A context with a queue that has been rung, and no residency slot. -/
def rung (x : Context) : Context := { x with queues := [(0, { state := 1, sizeLog2 := 12, tail := 16, pendingBit := true })] }

/-- Context 2 holds residency slot 1. -/
def inSlot1 (x : Context) : Context := { x with sched := { x.sched with rslot := some 1, waitingSince := some 0 } }

/-- A partition program whose next word is `w`; partition 3 is open in its shadow, and some units are free. -/
def prog (w : Nat) : State := { lit with wmb := { phase := .staging, busy := true, program := [(0, w)], len := 1, shadow := {
  freeEngines := [2, 3], freeForeign := [1], freeChannels := [1, 2], freeWays := [4], parts := [(0, lit.part 0), (3, { state := 1 })] } } }

/-- The hand-over of a program that takes engine 0 from partition 0. -/
def handing (switched : Bool) : State := { lit with
  ctxs := [],
  wmb := { phase := .handover, busy := true, named := [0], switched := switched, handing := [.engine 0], shadow := { parts := [(0, { lit.part 0 with engines := [1], channels := [] })] } } }

/-- A chiplet port in a state, with credits both ways and foreign engine 15 running a launch of context 1. -/
def cport (st : CpState) : CpPort :=
  { state := st, toChip := ⟨1, 1, 1, 1⟩, fromChip := ⟨1, 1, 1, 1⟩,
    fes := [(15, { state := 3, function := 1, ctx := 1, tag := 9, desc := { readSegs := 1, writeSegs := 1 } })] }

/-- `lit` with chiplet port 7. -/
def chip (p : CpPort) : State := { lit with
  cps := [(7, p)], boot := { lit.boot with fpt := [⟨unitType (.chipletPort 7), 9, 7, 0⟩] } }

/-- CAPS of a chiplet with one foreign engine. -/
def caps : CppMsg :=
  { cppZero with lines := 1, arg0 := 0x0008001000080001, arg1 := 16, data := (List.range 64).map fun i => if i = 6 ∨ i = 0x10 then 1 else 0 }

/-- `fab` with port 0 of the hub in another condition. -/
def port (p : FpPort) : State := { fab with fps := [(0, p)] }

/-- A flit without messages. -/
def flit : Flit :=
  { seq := 0, ackSeq := 0, ackValid := false, nak := false, vc := 0, lines := 0, credVc := 0, credPhase := 0, credLines := 0,
    cred2Vc := 0, cred2Phase := 0, cred2Lines := 0, turnNs := 0, crcGood := true, corrected := 0, msgs := [] }

/-- A schedule image of one alternative for these hubs, each with one step and one transfer; fence 7 is the end fence. -/
def img (hubs : List Nat) : List Byte :=
  bytesLE 4 0x58535653 ++ bytesLE 2 1 ++ bytesLE 2 hubs.length ++ bytesLE 8 (232 + 16 * hubs.length) ++ bytesLE 4 39063 ++ bytesLE 4 1
    ++ bytesLE 4 64 ++ bytesLE 2 1000 ++ bytesLE 2 1 ++ bytesLE 8 1 ++ bytesLE 8 39063 ++ bytesLE 2 0x401 ++ [2, 1]
    ++ bytesLE 4 64 ++ bytesLE 8 0
    ++ bytesLE 4 232 ++ bytesLE 2 hubs.length ++ bytesLE 10 0 ++ bytesLE 16 0
    ++ bytesLE 4 64 ++ bytesLE 4 0 ++ bytesLE 4 64 ++ bytesLE 4 1 ++ bytesLE 4 96 ++ bytesLE 4 1 ++ bytesLE 8 0 ++ bytesLE 8 65536
    ++ bytesLE 4 (mkHandle 3 1 10).toNat ++ bytesLE 20 0
    ++ bytesLE 8 10 ++ bytesLE 4 100 ++ bytesLE 4 1 ++ bytesLE 8 64 ++ bytesLE 8 0
    ++ bytesLE 8 10 ++ bytesLE 4 100 ++ bytesLE 4 1 ++ bytesLE 6 0 ++ bytesLE 2 9 ++ bytesLE 16 0
    ++ hubs.flatMap fun h => bytesLE 4 h ++ bytesLE 4 h7 ++ bytesLE 4 96 ++ bytesLE 4 136

/-- A static partition 0 whose job context 1 runs a schedule of this hub alone. -/
def job (f : Sched → Sched) : State := { lit with
  mem := (img [0xFFFF]).zipIdx.map fun b => (33 * 65536 + b.2, b.1),
  units := { parts := [(0, { lit.part 0 with static := true })] },
  ctxs := [(1, { lit.ctx 1 with fabric := false })],
  objs := [(9, lit.obj 9), (10, { state := 2, owner := 1, base := 2 ^ 30, size := 2 ^ 20 }),
           (11, { state := 2, owner := 1, base := 33 * 65536, size := 65536 })],
  sx := [(0, f { imageObj := mkHandle 3 1 11, imageCtx := mkHandle 1 1 1, image := img [0xFFFF], ctx := 1, epochBeats := 39063, saveBeats := 1,
                 period := 39063, iterations := 1, logBytes := 65536, startBeat := 4000 })] }

/-- The same in a state of SX_STATUS. -/
def jobAt (n : Nat) : State := job fun x => { x with state := n }

/-- The job's only hub has voted for boundary `e`. -/
def voted (e : Nat) : Vote := ⟨0xFFFF, e, manifestDigest ((jobAt 0).manifest [] e 0), true⟩

/-- A scheduled message of a kind for the job. -/
def jm (kind : Nat) : OfpMsg := { msg 5 with srcHub := 0xFFFF, dstHub := 0xFFFF, ownerTag := 1, f18 := BitVec.ofNat 64 (kind * 2 ^ 56) }

/-! ### Ill-formed commands, one for each check -/

theorem test_ill_formed_are_refused :
    ([.ivrAck 64, .tsValidTimeout 64, .fabRecClockSelect 20, .registerWrite (.vf 64) 0 0 8 0 0, .registerWrite .pf 6 0 8 0 0,
      .registerWrite .pf 0 0 3 0 0, .evict 16, .foldSwap ⟨16, 0⟩ 0, .foldSwap ⟨0, 4⟩ 0, .foldSwap ⟨0, 0⟩ 4, .sli ⟨16, 0⟩, .sli ⟨0, 4⟩,
      .vadd ⟨0, 4⟩ .agree, .combinerPartial 16, .launch 32768, .semaphoreGrant 16 0, .semaphoreGrant 0 64, .vfFlr 64,
      .segMap (.vf 64) 0, .doorbell (.vf 64) 0 8 0, .doorbell .pf 32768 8 0, .doorbell .pf 0 2 0, .msixUnmask .pf 16,
      .msixUnmask (.vf 64) 0, .msixUnmask (.vf 0) 8, .switchOut 4096, .recordRestoreComplete 4096 0, .recordRestoreComplete 0 16,
      .segMissFill .host 4096 0, .segMissFill .host 0 64, .cpRecover 8, .quiesceTimeout 8 0, .quiesceTimeout 0 16, .fpTrain 20,
      .fabricSignal 32 (msg 1), .laneLockLoss 20 0, .laneLockLoss 0 8, .partialAbandon 65536 0, .thymeParentTimeout 32 1,
      .thymeParentTimeout 0 256, .overrun 16] : List Instr).all (fun i => !i.wellFormed) = true := by decide

theorem test_well_formed_at_the_bounds :
    ([.ivrAck 63, .registerWrite (.vf 63) 5 0 4 0 0, .foldSwap ⟨15, 3⟩ 3, .launch 32767, .semaphoreGrant 15 63, .msixUnmask .pf 15,
      .msixUnmask (.vf 63) 7, .segMissFill .host 4095 63, .quiesceTimeout 7 15, .laneLockLoss 19 7, .overrun 15] :
      List Instr).all Instr.wellFormed = true := by decide

/-- The table gives no row bits: no word spells a command (log 5). -/
theorem test_no_word_spells_a_command : decodeTableWord 8 1 = none := by decide

/-! ### Small runs; each expected result is computed by hand from the rule named -/

/-- The state that a command leaves. -/
def after (o : Host.Outcome State Fault Refusal) : State :=
  match o with
  | .next t => t
  | _ => State.reset

/-- Register s5 of launch 20. -/
def s5 (o : Host.Outcome State Fault Refusal) : Option Nat := (tfind (after o).launches 20).map fun l => l.x.regs.getS 5

/-- A launch with a scalar word that reads s1. -/
def scalar (w : Nat) (v : BitVec 64) : State := run (la (ex 3 (qe w v 0)) {})

/-- SLI sign-extends its 32 bits (R226). -/
theorem test_sli_sign_extends : s5 (exec (.sli a0) (scalar (wd 2 (5 * 2 ^ 40 + 0xFFFFFFFF * 2 ^ 8)) 0)) = some (2 ^ 64 - 1) := by decide

/-- A sum wraps at 64 bits (Table 5-2): s1 + s1 with s1 = 2^63 + 1. -/
theorem test_salu_add_wraps :
    s5 (exec (.salu a0) (scalar (wd 4 (5 * 2 ^ 40 + 2 ^ 34 + 2 ^ 28)) (BitVec.ofNat 64 (2 ^ 63 + 1)))) = some 2 := by decide

/-- On an empty queue one nanosecond passes (R614, log 2). -/
theorem test_idle_step_ticks : (after (step on)).thyme.now = 1 := by decide

/-- A doorbell writes TAIL (R387). -/
theorem test_doorbell_writes_tail : ((after (exec (.doorbell (.vf 0) 8 8 32) lit)).queue 8).tail = 32 := by decide

/-- A signal takes an unsignalled fence to signalled, and one with a code to signalled with error (R355). -/
theorem test_fence_signal :
    ((after (exec .fenceSignalApply { lit with fenceWire := [⟨mkHandle 4 1 7, 0⟩] })).fence 7).state = 2 ∧
    ((after (exec .fenceSignalApply { lit with fenceWire := [⟨mkHandle 4 1 7, 9⟩] })).fence 7).state = 3 := by decide

/-- A limit of 250 W is kept from a write of 249.75 W (R818). -/
theorem test_power_limit_out_of_range : (after (exec (.pwrLimitWrite 999) on)).pw.limit = 0x820 := by decide

/-- A lane of VIADD wraps at 32 bits (R242). -/
theorem test_viadd_wraps :
    (tfind (after (exec (.viadd a0) (run (la { ex 1 (qe (wd 0x68 (3 * 2 ^ 41)) 0 0) with
        regs := { v := [(0, [0x80000001])], p := [(0, BitVec.allOnes 256)] } } {})))).launches 20).map
      (fun l => (l.x.regs.getV 3).head?) = some (some 2) := by decide +kernel

/-- A FILL writes its pattern (R406): eight bytes of 0x0807060504030201 at address 128. -/
theorem test_fill_writes_pattern :
    mreadN (after (exec (.copyComplete 3) { lit with
      cmds := [(3, { cm 8 with copy := some { isFill := true, src := 0, dst := 128, len := 8, pattern := 0x0807060504030201 } })] })).mem
      127 10 = [0, 1, 2, 3, 4, 5, 6, 7, 8, 0] := by decide

/-- A semaphore that is free goes to the launch that asks (R272). -/
theorem test_sacq_takes_a_free_semaphore :
    ((after (exec (.sacq a0) (run (la (ex 3 (qe (wd 0x11 (2 ^ 34)) 63 0)) {})))).sem 63).holder = some 20 := by decide

/-- The wiring rule is symmetric on a pair (R592, R593): hub 5's port 0 meets hub 6's port 6. -/
theorem test_wiring_pair : wiredPeer 20 5 0 = some (6, 6) ∧ wiredPeer 20 6 6 = some (5, 0) := by decide

/-! ### What the statements' hypotheses ask can be met -/

theorem test_meets_StepTakesFront :
    ∃ (s : State) (i : Instr) (rest : List Instr),
      s.pending = i :: rest :=
  ⟨{ on with pending := [.droop 0] }, .droop 0, [], by decide⟩

theorem test_meets_ThymeCountsTime :
    (∃ (s : State),
      s.pending = [] ∧
      s.pins.por = false ∧
      s.pins.sysRst = false ∧
      2 ≤ s.boot.step ∧
      s.thyme.slew = 0) ∧
    (∃ (s : State),
      s.pending = [] ∧
      (s.pins.por = true ∨ s.pins.sysRst = true ∨ s.boot.step < 2)) ∧
    (∃ (i : Instr) (s : State) (t : State),
      exec i s = .next t ∧
      (∀ p m a, i ≠ .thymeMsg p m a)) ∧
    (∃ (s : State) (t : State) (p : Nat) (m : OfpMsg) (a : BitVec 64),
      exec (.thymeMsg p m a) s = .next t) :=
  ⟨⟨on, by decide⟩,
   ⟨State.reset, by decide⟩,
   ⟨.droop 0, on, _, rfl, by simp⟩,
   ⟨on, _, 0, msg 9, 0, rfl⟩⟩

theorem test_meets_HubResetAndRelease :
    (∃ (s : State),
      (s.pins.por || s.pins.sysRst) = true) ∧
    (∃ (s : State),
      s.pins.por = false ∧
      s.pins.sysRst = false) :=
  ⟨⟨State.reset, by decide⟩,
   ⟨on, by decide⟩⟩

theorem test_meets_PerstResetsHostIslandOnly :
    ∃ (s : State),
      s.pins.por = false ∧
      s.pins.sysRst = false :=
  ⟨on, by decide⟩

theorem test_meets_RegulatorsAndDroop :
    (∃ (s : State) (d : Nat),
      s.up = true ∧
      d < s.build.engines) ∧
    (∃ (s : State) (d : Nat),
      s.up = true ∧
      s.build.engines ≤ d ∧
      16 ≤ d ∧
      d ≤ 21) ∧
    (∃ (s : State) (d : Nat),
      s.up = true ∧
      s.build.engines ≤ d ∧
      16 ≤ d ∧
      d ≤ 21 ∧
      s.sx = []) ∧
    (∃ (s : State) (d : Nat),
      s.up = true ∧
      (s.domain d).pending = true ∧
      (s.domain d).relocking = false) ∧
    (∃ (s : State) (d : Nat),
      s.up = true ∧
      (s.domain d).pending = false ∧
      s.thyme.now < (s.domain d).holdOff) ∧
    (∃ (s : State) (d : Nat),
      s.up = true ∧
      s.hasDomain d = true ∧
      (s.build.engines ≤ d ∨ (s.engine d).pinned = true)) ∧
    (∃ (s : State) (d : Nat),
      s.up = true ∧
      d < s.build.engines ∧
      (s.engine d).pinned = false) ∧
    (∃ (s : State) (e : Nat),
      s.up = true ∧
      s.sx = [] ∧
      (s.domain e).pending = true ∧
      (s.domain e).relocking = true ∧
      (s.domain e).waiting = none ∧
      (s.engine e).freq < (s.domain e).toFreq) ∧
    (∃ (s : State) (e : Nat),
      s.up = true ∧
      e < s.build.engines ∧
      (s.engine e).slots = [] ∧
      (s.engine e).pinned = false ∧
      (s.domain e).pending = false ∧
      (s.domain e).holdOff ≤ s.thyme.now ∧
      400 < (s.engine e).freq) :=
  ⟨⟨on, 15, by decide⟩,
   ⟨on, 21, by decide⟩,
   ⟨on, 16, by decide⟩,
   ⟨changing on 3 false, 3, by decide⟩,
   ⟨on.setDomain 3 { holdOff := 100 }, 3, by decide⟩,
   ⟨on, 21, by decide⟩,
   ⟨on, 15, by decide⟩,
   ⟨changing on 15 true, 15, by decide⟩,
   ⟨on, 15, by decide⟩⟩

theorem test_meets_ThermalControl :
    (∃ (s : State) (n : Nat),
      s.up = true ∧
      n < 32) ∧
    (∃ (s : State) (n : Nat) (c : BitVec 11),
      s.up = true ∧
      n < 32 ∧
      s.pw.trip ≤ c.toNat) ∧
    (∃ (s : State) (n : Nat) (c : BitVec 11),
      s.up = true ∧
      n < 32 ∧
      s.pw.emerg ≤ c.toNat ∧
      s.pw.emergency = false) ∧
    (∃ (s : State),
      s.up = true ∧
      s.pw.emergency = true ∧
      s.sx = []) :=
  ⟨⟨on, 31, by decide⟩,
   ⟨on, 31, 0x5C0, by decide⟩,
   ⟨on, 31, 0x548, by decide⟩,
   ⟨{ on with pw := { on.pw with emergency := true } }, by decide⟩⟩

theorem test_meets_ReferenceClocks :
    (∃ (s : State),
      s.up = true ∧
      s.boot.step = 1 ∧
      s.build.engines ≤ 16) ∧
    (∃ (s : State) (p : Nat),
      s.up = true ∧
      s.boot.step = 1 ∧
      s.pw.refPresent = false ∧
      p < s.build.fabricPorts) ∧
    (∃ (s : State),
      s.up = true ∧
      s.boot.step = 1) ∧
    (∃ (s : State),
      s.up = true ∧
      s.pw.clkActive = 1) ∧
    (∃ (s : State),
      s.up = true ∧
      s.pw.clkActive = 0) ∧
    (∃ (s : State),
      s.up = true ∧
      s.pw.clkActive = 3) ∧
    (∃ (s : State),
      s.up = true ∧
      s.pw.clkActive = 3 ∧
      s.pw.clkPort < s.build.fabricPorts) ∧
    (∃ (s : State) (v : BitVec 64),
      s.decodes .pf = true ∧
      bit v.toNat 0 = false ∧
      s.pw.refPresent = true) ∧
    (∃ (s : State) (v : BitVec 64),
      s.decodes .pf = true ∧
      bit v.toNat 0 = false ∧
      s.pw.refPresent = false) ∧
    (∃ (s : State) (v : BitVec 64),
      s.decodes .pf = true ∧
      bit v.toNat 0 = true ∧
      (s.pw.recLocked = false ∨ s.pw.recPort ≠ fld v.toNat 12 8)) :=
  ⟨⟨early, by decide⟩,
   ⟨early, 19, by decide⟩,
   ⟨early, by decide⟩,
   ⟨{ on with pw := { on.pw with clkActive := 1 } }, by decide⟩,
   ⟨{ on with pw := { on.pw with clkActive := 0 } }, by decide⟩,
   ⟨{ on with pw := { on.pw with clkActive := 3 } }, by decide⟩,
   ⟨{ on with pw := { on.pw with clkActive := 3, clkPort := 19 } }, by decide⟩,
   ⟨on, 0, by decide⟩,
   ⟨{ on with pw := {} }, 0, by decide⟩,
   ⟨on, 1, by decide⟩⟩

theorem test_meets_BadLimitsKeepThePreviousValue :
    (∃ (v : BitVec 64),
      fld v.toNat 26 16 ≤ fld v.toNat 10 0) ∧
    (∃ (s : State) (v : BitVec 64),
      (s.pw.trip ≤ fld v.toNat 26 16 ∨ s.pw.trip ≤ fld v.toNat 10 0)) ∧
    (∃ (v : BitVec 64),
      (fld v.toNat 10 0 < 400 ∨ 1250 < fld v.toNat 10 0 ∨ fld v.toNat 10 0 % 25 ≠ 0)) :=
  ⟨⟨0x04F804F8, by decide⟩,
   ⟨on, 0x05C00000, by decide⟩,
   ⟨399, by decide⟩⟩

theorem test_meets_PowerBlock :
    (∃ (s : State) (v : BitVec 64),
      s.decodes .pf = true ∧
      1000 ≤ fld v.toNat 15 0 ∧
      fld v.toNat 15 0 ≤ 2480 ∧
      nonEngine s.build + ((s.units.parts.filter fun e => e.2.state != 0).map fun e => e.2.power).sum ≤ fld v.toNat 15 0) ∧
    (∃ (s : State) (v : BitVec 64),
      s.decodes .pf = true ∧
      1000 ≤ fld v.toNat 15 0 ∧
      fld v.toNat 15 0 ≤ 2480 ∧
      fld v.toNat 15 0 < nonEngine s.build + ((s.units.parts.filter fun e => e.2.state != 0).map fun e => e.2.power).sum) ∧
    (∃ (v : BitVec 64),
      (fld v.toNat 15 0 < 1000 ∨ 2480 < fld v.toNat 15 0)) ∧
    (∃ (s : State) (v : BitVec 64),
      s.decodes .pf = true ∧
      400 ≤ fld v.toNat 10 0 ∧
      fld v.toNat 10 0 ≤ 1250 ∧
      fld v.toNat 10 0 % 25 = 0) ∧
    (∃ (s : State) (v : BitVec 64),
      s.decodes .pf = true ∧
      fld v.toNat 10 0 < fld v.toNat 26 16 ∧
      fld v.toNat 26 16 < s.pw.trip) ∧
    (∃ (s : State),
      s.up = true ∧
      s.units.parts = [] ∧
      s.pw.emergency = false ∧
      (∀ e, e < s.build.engines → (s.engine e).freq = 400)) ∧
    (∃ (s : State) (n : Nat) (c : BitVec 11),
      s.up = true ∧
      s.units.parts = [] ∧
      n < 32 ∧
      s.pw.warn < c.toNat ∧
      (∀ e, e < s.build.engines → (s.engine e).freq = 400)) :=
  ⟨⟨on, 2480, by decide⟩,
   ⟨on.setPart 0 { state := 2, power := 1000 }, 1000, by decide⟩,
   ⟨999, by decide⟩,
   ⟨on, 1250, by decide⟩,
   ⟨on, 0x05BF0000, by decide⟩,
   ⟨slowed, by decide⟩,
   ⟨slowed, 31, 0x4F9, by decide⟩⟩

theorem test_meets_PcieLinkAndErrors :
    (∃ (s : State) (sp : Nat) (w : Nat),
      s.up = true ∧
      s.pw.refPresent = true ∧
      1 ≤ sp ∧
      sp ≤ 6 ∧
      w ∈ [1, 2, 4, 8, 16]) ∧
    (∃ (s : State),
      s.up = true) ∧
    (∃ (s : State),
      s.linkUp = true) ∧
    (∃ (s : State) (k : PcieReq),
      s.linkUp = true ∧
      (k = .atomicOp ∨ k = .io)) ∧
    (∃ (s : State),
      s.linkUp = true ∧
      s.sage.safe = false) ∧
    (∃ (s : State),
      s.linkUp = true ∧
      s.sage.safe = false) ∧
    (∃ (s : State),
      s.linkUp = true ∧
      s.sage.safe = false) :=
  ⟨⟨on, 6, 16, by decide⟩,
   ⟨on, by decide⟩,
   ⟨on, by decide⟩,
   ⟨on, .atomicOp, by decide⟩,
   ⟨on, by decide⟩,
   ⟨on, by decide⟩,
   ⟨on, by decide⟩⟩

theorem test_meets_FunctionResets :
    (∃ (s : State) (v : Nat),
      s.up = true ∧
      s.linkUp = true ∧
      s.vfOn v = true ∧
      (s.vf v).resetting = false) ∧
    (∃ (s : State) (v : Nat),
      s.up = true ∧
      (s.vf v).resetting = true ∧
      (∀ e ∈ s.ctxs, e.2.vf = v → e.2.state ≠ .aborting) ∧
      (s.block (.vf v)).busy = false) ∧
    (∃ (s : State),
      s.up = true ∧
      s.linkUp = true) ∧
    (∃ (s : State),
      s.up = true ∧
      s.linkUp = true ∧
      s.ep.numVfs = 0) ∧
    (∃ (s : State) (n : Nat),
      s.linkUp = true ∧
      n ≤ 64) ∧
    (∃ (s : State),
      s.linkUp = true) ∧
    (∃ (s : State),
      s.linkUp = true) :=
  ⟨⟨on, 3, by decide⟩,
   ⟨on.setVf 3 { resetting := true }, 3, by decide⟩,
   ⟨on, by decide⟩,
   ⟨{ on with ep := { on.ep with numVfs := 0 } }, by decide⟩,
   ⟨on, 64, by decide⟩,
   ⟨on, by decide⟩,
   ⟨on, by decide⟩⟩

theorem test_meets_InterruptsAndMessages :
    (∃ (s : State) (v : Nat),
      s.decodes .pf = true ∧
      v < 16) ∧
    (∃ (s : State),
      s.decodesBase .pf = true) ∧
    (∃ (s : State) (v : Nat),
      s.decodesBase (.vf v) = true) ∧
    (∃ (s : State) (v : Nat) (w : BitVec 64),
      s.decodes (.vf v) = true ∧
      ahead32 (w.toNat % 2 ^ 32) (s.vf v).notifyTail ≤ ahead32 (s.vf v).notifyHead (s.vf v).notifyTail) ∧
    (∃ (s : State) (v : Nat),
      s.decodes (.vf v) = true ∧
      (s.vf v).notifyEnable = false) ∧
    (∃ (s : State) (v : Nat),
      s.decodes (.vf v) = true ∧
      (s.vf v).notifyEnable = true) ∧
    (∃ (s : State) (v : Nat),
      s.decodes (.vf v) = true ∧
      (s.vf v).msg.toBusy = false) ∧
    (∃ (s : State) (v : Nat),
      s.decodes (.vf v) = true ∧
      (s.vf v).msg.toBusy = true) ∧
    (∃ (s : State) (v : Nat),
      s.decodes .pf = true ∧
      v < 64 ∧
      (tget {} s.ep.msgs v).toBusy = false ∧
      (s.vf v).resetting = false) ∧
    (∃ (s : State) (v : Nat),
      s.decodes (.vf v) = true ∧
      (s.vf v).msg.fromValid = true) ∧
    (∃ (s : State) (v : Nat),
      s.decodesBase .pf = true ∧
      bit s.ep.msgPending v = true) :=
  ⟨⟨on, 15, by decide⟩,
   ⟨on, by decide⟩,
   ⟨on, 3, by decide⟩,
   ⟨on, 3, 0, by decide⟩,
   ⟨on, 3, by decide⟩,
   ⟨on.setVf 3 { notifyEnable := true }, 3, by decide⟩,
   ⟨on, 3, by decide⟩,
   ⟨on.setVf 3 { msg := { toBusy := true } }, 3, by decide⟩,
   ⟨on, 63, by decide⟩,
   ⟨on.setVf 3 { msg := { fromValid := true } }, 3, by decide⟩,
   ⟨{ on with ep := { on.ep with msgPending := 8 } }, 3, by decide⟩⟩

theorem test_meets_RegisterWrites :
    (∃ (bar : Nat),
      bar ≠ 0) ∧
    (∃ (o : Nat) (w : Nat),
      w ≠ 8 ∧
      (o < 0x4000 ∨ 0x4100 ≤ o)) ∧
    (∃ (s : State),
      s.decodesBase .pf = true) ∧
    (∃ (s : State),
      s.decodesBase .pf = true ∧
      s.up = true) ∧
    (∃ (s : State) (k : Nat),
      s.decodesBase .pf = true ∧
      s.up = true ∧
      s.fwRuns = true ∧
      s.wmb.busy = false ∧
      k < 512) ∧
    (∃ (s : State) (n : Nat),
      s.decodes (.vf n) = true ∧
      (s.vf n).notifyEnable = false) ∧
    (∃ (s : State) (n : Nat),
      s.decodes (.vf n) = true ∧
      (s.vf n).notifyEnable = true) ∧
    (∃ (s : State) (n : Nat),
      s.decodes (.vf n) = true) ∧
    (∃ (s : State) (n : Nat),
      s.decodes (.vf n) = true ∧
      (s.missq (.vf n)).enable = false) :=
  ⟨⟨4, by decide⟩,
   ⟨0x3FFF, 4, by decide⟩,
   ⟨on, by decide⟩,
   ⟨on, by decide⟩,
   ⟨on, 511, by decide⟩,
   ⟨on, 3, by decide⟩,
   ⟨on.setVf 3 { notifyEnable := true }, 3, by decide⟩,
   ⟨on, 3, by decide⟩,
   ⟨on, 3, by decide⟩⟩

theorem test_meets_RosemaryPortAndRecords :
    (∃ (s : State),
      s.up = true) ∧
    (∃ (s : State),
      s.pins.por = false ∧
      s.pins.sysRst = false) ∧
    (∃ (s : State),
      s.up = true ∧
      s.rm.ready = true ∧
      s.rm.failed = false) ∧
    (∃ (s : State),
      s.up = true ∧
      (s.lc.recClear = none ∨ s.rm.failed = true)) ∧
    (∃ (s : State) (g : Nat),
      s.up = true ∧
      s.lc.recClear = some g ∧
      s.rm.failed = false ∧
      s.rm.clearing = false) ∧
    (∃ (s : State) (v : BitVec 64),
      s.up = true ∧
      s.rm.readBusy = false ∧
      bit v.toNat 15 = false ∧
      s.rm.forever.length ≤ fld v.toNat 11 0) ∧
    (∃ (s : State) (v : BitVec 64) (x : Rec),
      s.up = true ∧
      s.rm.readBusy = false ∧
      bit v.toNat 15 = false ∧
      s.rm.forever[fld v.toNat 11 0]? = some x ∧
      x ∈ s.rm.queue) ∧
    (∃ (s : State) (a : RecAccess),
      s.pins.por = false ∧
      s.pins.sysRst = false ∧
      s.rm.access = some a ∧
      a.again = false) ∧
    (∃ (s : State) (a : RecAccess),
      s.pins.por = false ∧
      s.pins.sysRst = false ∧
      s.rm.access = some a ∧
      a.again = true) ∧
    (∃ (s : State) (a : RecAccess) (d : BitVec 256),
      s.pins.por = false ∧
      s.pins.sysRst = false ∧
      s.rm.access = some a ∧
      a.write = true ∧
      a.use = .repeatRec ∧
      d.toNat = a.data % 2 ^ 256) ∧
    (∃ (s : State) (a : RecAccess),
      s.pins.por = false ∧
      s.pins.sysRst = false ∧
      s.rm.access = some a ∧
      a.write = false ∧
      a.use = .select) ∧
    (∃ (r : Rosemary) (code : Nat),
      r.seq < 2 ^ 32 - 1 ∧
      r.queue.length < 48 ∧
      rmForever code = true ∧
      r.forever.length < 512) ∧
    (∃ (r : Rosemary) (code : Nat),
      r.seq < 2 ^ 32 - 1 ∧
      r.queue.length < 48 ∧
      rmForever code = false ∧
      (∀ y, r.circ.head? = some y → y.code ≠ code)) ∧
    (∃ (r : Rosemary) (y : Rec),
      rmForever y.code = false ∧
      r.circ.head? = some y) ∧
    (∃ (r : Rosemary) (code : Nat),
      r.queue.length = 64 ∧
      rmForever code = true) :=
  ⟨⟨on, by decide⟩,
   ⟨on, by decide⟩,
   ⟨{ on with rm := { ready := true } }, by decide⟩,
   ⟨on, by decide⟩,
   ⟨{ on with lc := { recClear := some 7 } }, 7, by decide⟩,
   ⟨on, 0, by decide⟩,
   ⟨{ on with rm := { forever := [{ code := 1 }], queue := [{ code := 1 }] } }, 0, { code := 1 }, by decide⟩,
   ⟨{ on with rm := { access := some { write := true, unit := 0, data := 5, use := .record } } }, { write := true, unit := 0, data := 5, use := .record }, by decide⟩,
   ⟨{ on with rm := { access := some { write := true, unit := 0, data := 5, again := true, use := .record } } }, { write := true, unit := 0, data := 5, again := true, use := .record }, by decide⟩,
   ⟨{ on with rm := { access := some { write := true, unit := 0, data := 5, use := .repeatRec } } }, { write := true, unit := 0, data := 5, use := .repeatRec }, 5, by decide⟩,
   ⟨{ on with rm := { access := some { write := false, unit := 0, data := 0, use := .select } } }, { write := false, unit := 0, data := 0, use := .select }, by decide⟩,
   ⟨{}, 0x20, by decide⟩,
   ⟨{}, 0x40, by decide, by decide, by decide, by simp⟩,
   ⟨{ circ := [{ code := 0x40 }] }, { code := 0x40 }, by decide⟩,
   ⟨{ queue := List.replicate 64 {} }, 0x20, by decide⟩⟩

theorem test_meets_SageQueueAndClassification :
    (∃ (s : State) (m : SageMsg) (c : SrcCfg),
      s.up = true ∧
      s.srcCfg m.source.toNat = some c ∧
      kindFault m.kind.toNat = true) ∧
    (∃ (s : State) (m : SageMsg) (c : SrcCfg),
      s.up = true ∧
      m.source ≠ 0xF00 ∧
      s.srcCfg m.source.toNat = some c ∧
      kindFailure m.kind.toNat = true ∧
      m.kind ≠ 0x0E ∧
      c.window = false ∧
      1 < c.threshold ∧
      c.minorReact = 0) ∧
    (∃ (s : State) (m : SageMsg) (c : SrcCfg),
      s.up = true ∧
      m.source ≠ 0xF00 ∧
      s.srcCfg m.source.toNat = some c ∧
      kindFailure m.kind.toNat = true ∧
      c.window = false ∧
      (c.threshold ≤ 1 ∨ m.kind = 0x0E) ∧
      c.severeReact = 1) ∧
    (∃ (s : State) (m : SageMsg),
      s.up = true ∧
      m.source = 0xF00 ∧
      kindFailure m.kind.toNat = true) ∧
    (∃ (s : State) (v : BitVec 64) (m : SageMsg) (rest : List SageMsg),
      s.decodes .pf = true ∧
      bit v.toNat 0 = true ∧
      s.sage.queue = m :: rest) ∧
    (∃ (s : State) (v : BitVec 64),
      s.decodes .pf = true ∧
      bit v.toNat 8 = true ∧
      s.sage.pin = 3 ∧
      s.sage.firstValid = false) ∧
    (∃ (s : State),
      s.up = true ∧
      s.sage.pin = 2) ∧
    (∃ (s : State) (n : BitVec 12) (c : SrcCfg),
      s.up = true ∧
      s.srcCfg n.toNat = some c ∧
      c.window = true) ∧
    (∃ (s : State) (n : BitVec 12) (v : BitVec 64) (c : SrcCfg),
      s.decodes .pf = true ∧
      s.srcCfg n.toNat = some c ∧
      1 ≤ fld v.toNat 39 32 ∧
      1 ≤ fld v.toNat 21 0 ∧
      fld v.toNat 21 0 ≤ 3600000) ∧
    (∃ (s : State) (n : BitVec 12) (v : BitVec 64) (c : SrcCfg),
      s.decodes .pf = true ∧
      s.srcCfg n.toNat = some c ∧
      fld v.toNat 39 32 = 0 ∧
      3600000 < fld v.toNat 21 0) ∧
    (∃ (s : State) (m : SageMsg),
      s.up = true ∧
      kindFault m.kind.toNat = true) :=
  ⟨⟨on, sm 0x011 0x80, _, by decide, rfl, by decide⟩,
   ⟨on, sm 0x011 2, _, by decide, by decide, rfl, by decide, by decide, by decide, by decide, by decide⟩,
   ⟨on, sm 0x011 0x0E, _, by decide, by decide, rfl, by decide, by decide, by decide, by decide⟩,
   ⟨on, sm 0xF00 1, by decide⟩,
   ⟨{ on with sage := { queue := [sm 0x011 2] } }, 1, sm 0x011 2, [], by decide⟩,
   ⟨{ on with sage := { pin := 3 } }, 0x100, by decide⟩,
   ⟨{ on with sage := { pin := 2 } }, by decide⟩,
   ⟨{ on with sage := { cfg := [(0x011, { window := true, severeReact := 1, minorReact := 0, threshold := 255, windowMs := 1000 })] } }, 0x011, _, by decide, rfl, by decide⟩,
   ⟨on, 0x011, 0x100000001, _, by decide, rfl, by decide, by decide, by decide⟩,
   ⟨on, 0x011, 0x3FFFFF, _, by decide, rfl, by decide, by decide⟩,
   ⟨on, sm 0x011 0x82, by decide⟩⟩

theorem test_meets_StoreAndSpineErrors :
    (∃ (s : State),
      s.up = true) ∧
    (∃ (s : State),
      s.up = true) ∧
    (∃ (s : State),
      s.up = true) ∧
    (∃ (s : State) (a : Nat),
      s.up = true ∧
      s.usersOf a = []) ∧
    (∃ (s : State) (e : Nat),
      s.up = true ∧
      e < s.build.engines) ∧
    (∃ (s : State) (e : Nat) (a : Nat),
      s.up = true ∧
      e < s.build.engines ∧
      s.allotAt e a = none) ∧
    (∃ (s : State) (n : BitVec 12),
      s.up = true ∧
      (s.srcCfg n.toNat).isSome = true ∧
      (n.toNat < 0x100 ∨ 0x200 ≤ n.toNat)) ∧
    (∃ (s : State),
      s.up = true) ∧
    (∃ (s : State) (l : Nat) (x : Nat),
      s.up = true ∧
      (l, x) ∉ s.spineRetries) ∧
    (∃ (s : State) (l : Nat) (x : Nat),
      s.up = true ∧
      (l, x) ∈ s.spineRetries) :=
  ⟨⟨on, by decide⟩,
   ⟨on, by decide⟩,
   ⟨on, by decide⟩,
   ⟨on, 0, by decide⟩,
   ⟨on, 15, by decide⟩,
   ⟨on, 15, 0, by decide⟩,
   ⟨on, 0x011, by decide⟩,
   ⟨on, by decide⟩,
   ⟨on, 0, 5, by decide⟩,
   ⟨{ on with spineRetries := [(0, 5)] }, 0, 5, by decide⟩⟩

theorem test_meets_SelfTestAndWarden :
    (∃ (s : State) (e : Nat),
      s.up = true ∧
      (s.engine e).state = 1 ∧
      s.sage.out = false) ∧
    (∃ (s : State) (e : Nat),
      s.up = true ∧
      (s.engine e).state = 3) ∧
    (∃ (s : State) (w : Nat),
      s.up = true ∧
      s.fptStatus (.way w) ≠ 0) ∧
    (∃ (s : State),
      s.up = true ∧
      s.sage.mismatchAt = none) ∧
    (∃ (s : State) (n : Nat),
      s.up = true ∧
      s.sage.mismatchAt = some n ∧
      s.thyme.now < n + 3600000000000) ∧
    (∃ (s : State),
      s.up = true ∧
      s.sage.wardenDown = true ∧
      s.blocks = [] ∧
      s.sx = [] ∧
      s.wmb.busy = false ∧
      s.lc.busy = false) ∧
    (∃ (s : State),
      s.up = true) :=
  ⟨⟨lit, 1, by decide⟩,
   ⟨on.setEngine 3 { state := 3 }, 3, by decide⟩,
   ⟨{ on with boot := { on.boot with fpt := [⟨4, 1, 31, 0⟩] } }, 31, by decide⟩,
   ⟨on, by decide⟩,
   ⟨{ on with sage := { mismatchAt := some 5 } }, 5, by decide⟩,
   ⟨{ on with sage := { wardenDown := true } }, by decide⟩,
   ⟨on, by decide⟩⟩

theorem test_meets_LifeCycle :
    (∃ (s : State),
      s.lcFree = true ∧
      s.lc.counter < 0xFFFFFFFF) ∧
    (∃ (s : State),
      s.lcFree = true) ∧
    (∃ (s : State) (op : BitVec 8),
      s.lcFree = true ∧
      (op = 0 ∨ 4 < op.toNat)) ∧
    (∃ (s : State) (c : Challenge) (k : Nat),
      s.lcFree = true ∧
      s.lc.challenge = some c ∧
      s.identityKey = some k) ∧
    (∃ (s : State),
      s.decodes .pf = true ∧
      s.lc.busy = true) ∧
    (∃ (s : State),
      s.up = true) ∧
    (∃ (s : State),
      s.up = true) ∧
    (∃ (s : State),
      s.lcFree = true ∧
      s.lc.tokenRead.purpose = 1) ∧
    (∃ (s : State),
      s.lcFree = true ∧
      s.lc.tokenRead.purpose = 2) ∧
    (∃ (s : State),
      s.lcFree = true ∧
      s.lc.tokenRead.purpose = 3) ∧
    (∃ (s : State),
      s.lcFree = true ∧
      s.lc.tokenRead.purpose = 4) ∧
    (∃ (s : State),
      s.lcFree = true ∧
      s.lc.tokenRead.purpose = 5) ∧
    (∃ (s : State),
      s.lcFree = true ∧
      s.lc.tokenRead.purpose = 6) ∧
    (∃ (s : State),
      s.lcFree = true ∧
      s.lc.tokenRead.purpose = 7) ∧
    (∃ (s : State),
      s.lcFree = true ∧
      s.lc.tokenRead.purpose = 8) :=
  ⟨⟨free, by decide⟩,
   ⟨free, by decide⟩,
   ⟨free, 0, by decide⟩,
   ⟨{ free with lc := { free.lc with challenge := some ⟨1, 0, 0⟩, raw := 0 } }, ⟨1, 0, 0⟩, 0, by decide, by decide, by decide⟩,
   ⟨{ free with lc := { free.lc with busy := true } }, by decide⟩,
   ⟨on, by decide⟩,
   ⟨on, by decide⟩,
   ⟨{ free with lc := { free.lc with token := [(0, 1 * 2 ^ 32)] } }, by decide⟩,
   ⟨{ free with lc := { free.lc with token := [(0, 2 * 2 ^ 32)] } }, by decide⟩,
   ⟨{ free with lc := { free.lc with token := [(0, 3 * 2 ^ 32)] } }, by decide⟩,
   ⟨{ free with lc := { free.lc with token := [(0, 4 * 2 ^ 32)] } }, by decide⟩,
   ⟨{ free with lc := { free.lc with token := [(0, 5 * 2 ^ 32)] } }, by decide⟩,
   ⟨{ free with lc := { free.lc with token := [(0, 6 * 2 ^ 32)] } }, by decide⟩,
   ⟨{ free with lc := { free.lc with token := [(0, 7 * 2 ^ 32)] } }, by decide⟩,
   ⟨{ free with lc := { free.lc with token := [(0, 8 * 2 ^ 32)] } }, by decide⟩⟩

theorem test_meets_DebugWindowAndEntropy :
    (∃ (s : State),
      s.decodes .pf = true ∧
      s.lc.hubDebug = none ∧
      s.lc.rma = none ∧
      s.lc.partDebug = []) ∧
    (∃ (s : State),
      s.decodes .pf = true ∧
      s.lc.hubDebug = none ∧
      s.lc.rma = none ∧
      s.lc.partDebug = []) ∧
    (∃ (s : State) (g : Nat),
      s.decodes .pf = true ∧
      s.lc.hubDebug = some g ∧
      s.lc.dbgSpace = 0) ∧
    (∃ (s : State) (g : Nat),
      s.decodes .pf = true ∧
      s.lc.hubDebug = some g ∧
      s.lc.dbgSpace = 0) ∧
    (∃ (s : State),
      s.up = true) ∧
    (∃ (s : State),
      s.up = true ∧
      s.lc.drawWaits = false) ∧
    (∃ (s : State),
      s.up = true ∧
      s.lc.drawWaits = true ∧
      s.wmb.busy = false ∧
      s.sx = []) :=
  ⟨⟨on, by decide⟩,
   ⟨on, by decide⟩,
   ⟨{ free with lc := { free.lc with hubDebug := some 100 } }, 100, by decide⟩,
   ⟨{ free with lc := { free.lc with hubDebug := some 100 } }, 100, by decide⟩,
   ⟨on, by decide⟩,
   ⟨on, by decide⟩,
   ⟨{ free with lc := { free.lc with drawWaits := true } }, by decide⟩⟩

theorem test_meets_RequestProtocol :
    (∃ (s : State) (fn : Fn),
      s.up = true ∧
      s.decodes fn = true ∧
      s.fwRuns = true ∧
      (s.block fn).busy = true) ∧
    (∃ (s : State) (fn : Fn),
      s.up = true ∧
      (s.decodes fn = false ∨ s.fwRuns = false)) ∧
    (∃ (s : State) (fn : Fn) (op : BitVec 8),
      s.up = true ∧
      s.decodes fn = true ∧
      s.fwRuns = true ∧
      (s.block fn).busy = false ∧
      s.sage.wardenDown = false ∧
      (op = 0 ∨ 0x16 < op.toNat)) :=
  ⟨⟨on.setBlock .pf { busy := true }, .pf, by decide⟩,
   ⟨{ on with boot := {} }, .pf, by decide⟩,
   ⟨on, .vf 3, 0x17, by decide⟩⟩

theorem test_meets_ContextRequests :
    (∃ (s : State) (p : Nat) (c : Nat),
      s.up = true ∧
      s.mayAsk .pf 0x01 = true ∧
      fld (s.block .pf).a0 15 8 ≤ s.build.allotUnits ∧
      s.vfPart (fld (s.block .pf).a0 5 0) = some p ∧
      s.wmb.busy = false ∧
      (s.part p).state = 2 ∧
      bit (s.block .pf).a0 16 = false ∧
      bit (s.block .pf).a1 12 = true ∧
      fld (s.block .pf).a1 11 0 = c ∧
      c ≠ 0 ∧
      (s.ctx c).state = .free ∧
      (s.ctxs.filter fun e => e.2.state != .free && e.2.part = p).length < (s.part p).quota) ∧
    (∃ (s : State) (fn : Fn) (c : Nat),
      s.up = true ∧
      s.mayAsk fn 0x02 = true ∧
      s.reqCtx fn (s.block fn).a0 = (0, c) ∧
      ((s.ctx c).state = .live ∨ (s.ctx c).state = .lost) ∧
      (∀ e ∈ s.ctxs, e.2.shareOf ≠ some c)) ∧
    (∃ (s : State) (c : Nat),
      s.up = true ∧
      (s.ctx c).state = .aborting ∧
      (∀ e ∈ s.launches, e.2.ctx ≠ c) ∧
      s.fesOf c = [] ∧
      (s.ctx c).segs = [] ∧
      s.withdrawals = []) ∧
    (∃ (s : State) (fn : Fn) (c : Nat),
      s.up = true ∧
      s.mayAsk fn 0x03 = true ∧
      s.reqCtx fn (s.block fn).a0 = (0, c)) ∧
    (∃ (s : State) (c : Nat),
      s.up = true ∧
      s.launches = [] ∧
      s.mayAsk .pf 0x12 = true ∧
      s.reqCtx .pf (s.block .pf).a0 = (0, c) ∧
      (s.ctx c).state = .live ∧
      1 ≤ (s.block .pf).a1 ∧
      (s.block .pf).a1 ≤ 1000) ∧
    (∃ (s : State) (fn : Fn) (c : Nat),
      s.up = true ∧
      s.launches = [] ∧
      s.mayAsk fn 0x13 = true ∧
      s.reqCtx fn (s.block fn).a0 = (0, c) ∧
      (s.block fn).a1 = 17) ∧
    (∃ (s : State) (fn : Fn) (c : Nat),
      s.up = true ∧
      s.mayAsk fn 0x11 = true ∧
      s.reqCtx fn (s.block fn).a0 = (0, c) ∧
      (s.ctx c).state = .live ∧
      (s.block fn).a1 = 0 ∧
      (s.ctx c).sched.rslot = none ∧
      (s.ctx c).sched.switchingOut = false ∧
      (s.ctx c).sched.saved = []) ∧
    (∃ (s : State) (fn : Fn) (c : Nat),
      s.up = true ∧
      s.mayAsk fn 0x15 = true ∧
      s.reqCtx fn (s.block fn).a0 = (0, c) ∧
      (s.ctx c).state = .live ∧
      (s.block fn).a1 % 64 = 0) ∧
    (∃ (s : State) (v : Nat) (c : Nat),
      s.up = true ∧
      s.mayAsk (.vf v) 0x16 = true ∧
      s.reqCtx (.vf v) (s.block (.vf v)).a0 = (0, c) ∧
      (s.ctx c).state = .live ∧
      (s.block (.vf v)).a1 % 64 = 0 ∧
      (s.part (s.ctx c).part).state = 2 ∧
      (s.part (s.ctx c).part).dbgKey = []) :=
  ⟨⟨ask lit .pf 0x200 0x1002 0, 0, 2, by decide⟩,
   ⟨ask lit (.vf 0) h1 0 0, .vf 0, 1, by decide⟩,
   ⟨{ on with ctxs := [(1, { state := .aborting })] }, 1, by decide⟩,
   ⟨ask lit (.vf 0) h1 0 0, .vf 0, 1, by decide⟩,
   ⟨ask lit .pf h1 1000 0, 1, by decide⟩,
   ⟨ask lit (.vf 0) h1 17 0, .vf 0, 1, by decide⟩,
   ⟨ask (lit.modCtx 1 fun x => { x with sched := {} }) (.vf 0) h1 0 0, .vf 0, 1, by decide⟩,
   ⟨ask lit (.vf 0) h1 64 0, .vf 0, 1, by decide⟩,
   ⟨ask lit (.vf 0) h1 64 0, 0, 1, by decide⟩⟩

theorem test_meets_ObjectRequests :
    (∃ (s : State) (fn : Fn) (tag : BitVec 16) (c : Nat) (b : Nat) (i : Nat) (t : State),
      s.up = true ∧
      s.mayAsk fn 0x04 = true ∧
      s.reqCtx fn (s.block fn).a0 = (0, c) ∧
      (s.ctx c).state = .live ∧
      objSizeOk (s.block fn).a1 = true ∧
      s.fit (s.ctx c).part (s.block fn).a1 = some b ∧
      (s.asked fn 0x04 tag).newObj c { exported := bit (s.block fn).a2 0, state := 1, base := b, size := (s.block fn).a1 } = (some i, t)) ∧
    (∃ (s : State) (c : Nat) (i : Nat) (o : Obj) (t : State),
      s.newObj c o = (some i, t)) ∧
    (∃ (s : State) (fn : Fn),
      s.up = true ∧
      (s.block fn).busy = true ∧
      (s.block fn).queued = false ∧
      (s.block fn).op = 4 ∧
      s.zeroing (s.block fn).subject = true ∧
      (s.ctx (tagCtx (s.obj (hIndex (s.block fn).subject)).owner)).state ≠ .aborting) ∧
    (∃ (s : State) (tag : BitVec 16) (c : Nat) (i : Nat) (t : State),
      s.up = true ∧
      s.mayAsk .pf 0x05 = true ∧
      s.reqCtx .pf (s.block .pf).a0 = (0, c) ∧
      (s.ctx c).state = .live ∧
      (s.block .pf).a1 % 65536 = 0 ∧
      objSizeOk (s.block .pf).a2 = true ∧
      (s.asked .pf 0x05 tag).newObj c { host := true, state := 2, base := (s.block .pf).a1, size := (s.block .pf).a2 } = (some i, t)) ∧
    (∃ (s : State) (fn : Fn) (tag : BitVec 16) (c : Nat) (i : Nat) (t : State),
      s.up = true ∧
      s.mayAsk fn 0x06 = true ∧
      s.reqCtx fn (s.block fn).a0 = (0, c) ∧
      (s.ctx c).state = .live ∧
      (s.block fn).a2 % 4 ≠ 3 ∧
      (s.ctx c).fencesOwned < 65536 ∧
      (s.asked fn 0x06 tag).pickFree 1048576 (fun k => (s.fence k).state == 0) = (some i, t)) ∧
    (∃ (s : State) (fn : Fn) (c : Nat),
      s.up = true ∧
      s.mayAsk fn 0x07 = true ∧
      s.reqCtx fn (s.block fn).a0 = (0, c) ∧
      s.fenceValid c (BitVec.ofNat 32 (s.block fn).a1) none = true) ∧
    (∃ (s : State) (fn : Fn) (c : Nat) (n : Nat) (lim : Nat) (h : BitVec 32) (own : BitVec 16) (orph : Bool),
      s.up = true ∧
      s.mayAsk fn 0x08 = true ∧
      s.reqCtx fn (s.block fn).a0 = (0, c) ∧
      (s.ctx c).state = .live ∧
      BitVec.ofNat 32 (s.block fn).a1 = h ∧
      hType h = 4 ∧
      s.importView h = some (own, orph, true, n, lim) ∧
      n < lim ∧
      h ∉ (s.ctx c).imports ∧
      own ≠ (s.ctx c).tag c ∧
      tagPart own = (s.ctx c).part) ∧
    (∃ (s : State) (h : BitVec 32) (r : Released),
      s.up = true ∧
      hType h = 4 ∧
      (s.ctx (tagCtx (s.fence (hIndex h)).owner)).released.find? (fun r => r.handle = h && !r.isImport) = some r ∧
      hGen h = (s.fence (hIndex h)).gen ∧
      (s.fence (hIndex h)).releasing = true ∧
      (s.fence (hIndex h)).imports = 0 ∧
      s.precedingRetired (tagCtx (s.fence (hIndex h)).owner) r = true) ∧
    (∃ (s : State) (c : Nat) (h : BitVec 32) (r : Released),
      s.up = true ∧
      (s.ctx c).released.find? (fun r => r.handle = h && r.isImport) = some r ∧
      s.precedingRetired c r = true ∧
      (s.ctx c).imports.contains h = true) :=
  ⟨⟨ask { lit with objs := [] } (.vf 0) h1 65536 0, .vf 0, 9, 1, 0, _, _, by decide, by decide, by decide, by decide, by decide, by decide, rfl⟩,
   ⟨{ lit with objs := [] }, 1, _, {}, _, rfl⟩,
   ⟨(ask lit (.vf 0) h1 65536 0).setBlock (.vf 0) { busy := true, op := 4, subject := mkHandle 3 1 9 } |>.setObj 9 { state := 1, owner := 1, size := 65536 }, .vf 0, by decide⟩,
   ⟨ask { lit with objs := [] } .pf h1 0 65536, 9, 1, _, _, by decide, by decide, by decide, by decide, by decide, by decide, rfl⟩,
   ⟨ask { lit with fences := [] } (.vf 0) h1 0 2, .vf 0, 9, 1, _, _, by decide, by decide, by decide, by decide, by decide, by decide, rfl⟩,
   ⟨ask lit (.vf 0) h1 (mkHandle 4 1 7).toNat 0, .vf 0, 1, by decide⟩,
   ⟨ask ((lit.setCtx 2 { state := .live }).setFence 8 { state := 1, owner := 2, exportScope := 1 }) (.vf 0) h1 (mkHandle 4 1 8).toNat 0, .vf 0, 1, 0, _, mkHandle 4 1 8, 2, false, by decide, by decide, by decide, by decide, by decide, by decide, rfl, by decide, by decide, by decide, by decide⟩,
   ⟨((lit.setFence 7 { state := 1, owner := 1, releasing := true }).modCtx 1 fun x => { x with released := [⟨mkHandle 4 1 7, false, [], []⟩] }), mkHandle 4 1 7, ⟨mkHandle 4 1 7, false, [], []⟩, by decide⟩,
   ⟨(lit.modCtx 1 fun x => { x with imports := [mkHandle 4 1 8], released := [⟨mkHandle 4 1 8, true, [], []⟩] }), 1, mkHandle 4 1 8, ⟨mkHandle 4 1 8, true, [], []⟩, by decide⟩⟩

theorem test_meets_QueueRequests :
    (∃ (s : State) (fn : Fn) (c : Nat),
      s.up = true ∧
      s.mayAsk fn 0x09 = true ∧
      s.reqCtx fn (s.block fn).a0 = (0, c) ∧
      8 ≤ fld (s.block fn).a2 4 0 ∧
      fld (s.block fn).a2 4 0 ≤ 24 ∧
      (s.block fn).a1 % 2 ^ fld (s.block fn).a2 4 0 = 0 ∧
      (s.block fn).a1 < 2 ^ 48 ∧
      (s.ctx c).state = .live ∧
      ((s.ctx c).queue (fld (s.block fn).a2 10 8)).state = 0) ∧
    (∃ (s : State) (fn : Fn) (c : Nat) (q : Nat),
      s.up = true ∧
      s.mayAsk fn 0x0A = true ∧
      s.reqCtx fn (s.block fn).a0 = (0, c) ∧
      s.namesQueue fn c q = true ∧
      (s.queue q).bound = none) ∧
    (∃ (s : State) (fn : Fn),
      s.up = true ∧
      (s.block fn).busy = true ∧
      (s.block fn).queued = false ∧
      (s.block fn).op = 0x0A ∧
      s.startedCmds (hIndex (s.block fn).subject) = [] ∧
      (s.queue (hIndex (s.block fn).subject)).gen = hGen (s.block fn).subject) ∧
    (∃ (s : State) (fn : Fn) (c : Nat) (q : Nat),
      s.up = true ∧
      s.mayAsk fn 0x0B = true ∧
      s.reqCtx fn (s.block fn).a0 = (0, c) ∧
      s.namesQueue fn c q = true ∧
      (s.queue q).state = 2 ∧
      (s.queue q).tail = (s.queue q).head) ∧
    (∃ (s : State) (fn : Fn) (c : Nat) (q : Nat),
      s.up = true ∧
      s.mayAsk fn 0x14 = true ∧
      s.reqCtx fn (s.block fn).a0 = (0, c) ∧
      s.namesQueue fn c q = true ∧
      (s.queue q).bound = none ∧
      s.startedCmds q = [] ∧
      fld (s.block fn).a2 47 0 % 8 = 0) :=
  ⟨⟨ask lit (.vf 0) h1 (2 ^ 48 - 2 ^ 24) 0x118, .vf 0, 1, by decide⟩,
   ⟨ask lit (.vf 0) h1 (mkHandle 2 1 8).toNat 0, .vf 0, 1, 8, by decide⟩,
   ⟨lit.setBlock (.vf 0) { busy := true, op := 0x0A, subject := mkHandle 2 1 8 }, .vf 0, by decide⟩,
   ⟨ask (withQueue { state := 2, haltCode := 3, sizeLog2 := 12 }) (.vf 0) h1 (mkHandle 2 1 8).toNat 0, .vf 0, 1, 8, by decide⟩,
   ⟨ask lit (.vf 0) h1 (mkHandle 2 1 8).toNat 8, .vf 0, 1, 8, by decide⟩⟩

theorem test_meets_SegmentCommands :
    (∃ (s : State) (fn : Fn) (c : Nat),
      s.up = true ∧
      s.mayAsk fn 0x0D = true ∧
      s.reqCtx fn (fld (s.block fn).a0 31 0) = (0, c) ∧
      (s.ctx c).shareOf = none ∧
      liveOrLost (s.ctx c).state = true ∧
      ((s.ctx c).seg (s.block fn).seg).pages = 0) ∧
    (∃ (s : State) (fn : Fn) (c : Nat),
      s.up = true ∧
      s.mayAsk fn 0x0D = true ∧
      s.reqCtx fn (fld (s.block fn).a0 31 0) = (0, c) ∧
      (s.ctx c).shareOf = none ∧
      liveOrLost (s.ctx c).state = true ∧
      ((s.ctx c).seg (s.block fn).seg).pages ≠ 0 ∧
      s.scheduleRuns (s.ctx c).part = false) ∧
    (∃ (s : State) (fn : Fn) (c : Nat),
      s.up = true ∧
      s.mayAsk fn 0x0C = true ∧
      s.reqCtx fn (fld (s.block fn).a0 31 0) = (0, c) ∧
      (s.ctx c).shareOf = none ∧
      (s.ctx c).state = .live ∧
      s.objValid c (BitVec.ofNat 32 (fld (s.block fn).a2 31 0)) none = true ∧
      ((s.ctx c).seg (s.block fn).seg).pages = 0 ∧
      (s.newSeg fn c).pages ≠ 0 ∧
      (s.ctx c).mapPlainBad (s.block fn).seg (s.newSeg fn c) = false ∧
      (s.ctx c).mapObjBad (s.block fn).seg (s.newSeg fn c) (fld (s.block fn).a2 55 32) (s.obj (hIndex (BitVec.ofNat 32 (fld (s.block fn).a2 31 0)))).size = false) ∧
    (∃ (s : State) (fn : Fn) (c : Nat) (f : SegFault),
      s.up = true ∧
      s.mayAsk fn 0x0E = true ∧
      s.reqCtx fn (fld (s.block fn).a0 31 0) = (0, c) ∧
      (s.ctx c).shareOf = none ∧
      liveOrLost (s.ctx c).state = true ∧
      f ∈ s.segFaults ∧
      s.tableOwner f.ctx = c ∧
      f.seg = (s.block fn).seg) ∧
    (∃ (s : State) (fn : Fn) (c : Nat),
      s.up = true ∧
      s.mayAsk fn 0x0F = true ∧
      s.reqCtx fn (s.block fn).a0 = (0, c) ∧
      (s.ctx c).state = .live ∧
      (s.block fn).a1 = 0 ∧
      s.launches = []) ∧
    (∃ (s : State) (c : Nat) (d : Nat),
      s.up = true ∧
      s.mayAsk .pf 0x10 = true ∧
      s.reqCtx .pf (s.block .pf).a0 = (0, c) ∧
      (s.ctx c).state = .live ∧
      hIndex (BitVec.ofNat 32 (s.block .pf).a1) = d ∧
      s.ctxValid (BitVec.ofNat 32 (s.block .pf).a1) = true ∧
      c ≠ d ∧
      (s.part (s.ctx c).part).validated = true ∧
      (s.ctx d).state = .live ∧
      (s.ctx c).vf = (s.ctx d).vf ∧
      (s.ctx c).part = (s.ctx d).part ∧
      (s.ctx d).shareOf = none ∧
      (s.ctx c).segs = [] ∧
      (∀ e ∈ s.ctxs, e.2.shareOf ≠ some c)) ∧
    (∃ (s : State) (c : Nat) (i : Nat),
      s.up = true ∧
      ((s.ctx (s.tableOwner c)).seg i).present = false) ∧
    (∃ (s : State) (c : Nat) (i : Nat),
      s.up = true ∧
      ((s.ctx (s.tableOwner c)).seg i).present = true ∧
      ((s.ctx (s.tableOwner c)).seg i).pages ≠ 0) ∧
    (∃ (s : State) (w : Nat) (e : Nat),
      s.up = true ∧
      s.mayAck w (.engine e) = true) ∧
    (∃ (s : State) (w : Nat) (d : Withdrawal),
      s.up = true ∧
      tfind s.withdrawals w = some d ∧
      d.broadcast = true ∧
      d.waiting = [] ∧
      d.why = []) ∧
    (∃ (s : State) (w : Nat) (d : Withdrawal) (k : CacheId),
      s.up = true ∧
      tfind s.withdrawals w = some d ∧
      d.broadcast = true ∧
      k ∈ d.waiting) ∧
    (∃ (s : State) (fn : Fn) (f : SegFault),
      s.up = true ∧
      s.segFaults.find? (fun f => f.fn = fn && !f.posted) = some f ∧
      (s.missq fn).enable = true ∧
      (s.segFaults.filter fun f => f.fn = fn && f.posted).length < 64 ∧
      ahead32 (s.missq fn).head (s.missq fn).tail < 2 ^ (s.missq fn).sizeLog2 ∧
      ahead32 (s.missq fn).head (s.missq fn).tail ≠ 0) ∧
    (∃ (s : State) (c : Nat) (i : Nat) (f : SegFault),
      s.up = true ∧
      s.segFaults.find? (fun f => f.ctx = c && f.seg = i && f.posted) = some f) ∧
    (∃ (s : State) (fn : Fn) (v : BitVec 64),
      s.decodes fn = true ∧
      s.fwRuns = true ∧
      ahead32 (fld v.toNat 31 0) (s.missq fn).tail ≤ ahead32 (s.missq fn).head (s.missq fn).tail) ∧
    (∃ (s : State) (fn : Fn),
      s.decodes fn = true ∧
      s.fwRuns = true ∧
      (s.missq fn).enable = false) :=
  ⟨⟨ask lit (.vf 0) (h1 + 15 * 2 ^ 32) 0 0, .vf 0, 1, by decide⟩,
   ⟨ask lit (.vf 0) h1 0 0, .vf 0, 1, by decide⟩,
   ⟨ask lit (.vf 0) (h1 + 15 * 2 ^ 32 + 2 ^ 39 + 2 ^ 36) (16 + 16 * 2 ^ 32) ((mkHandle 3 1 9).toNat + 16 * 2 ^ 32), .vf 0, 1, by decide⟩,
   ⟨ask { lit with segFaults := [⟨1, 0, .vf 0, 0, 0, 0, false, 0xFFFF, 0⟩] } (.vf 0) h1 0 0, .vf 0, 1, ⟨1, 0, .vf 0, 0, 0, 0, false, 0xFFFF, 0⟩,
     by decide⟩,
   ⟨ask lit (.vf 0) h1 0 0, .vf 0, 1, by decide⟩,
   ⟨ask ((two.setPart 0 { lit.part 0 with validated := true }).modCtx 1 fun x => { x with segs := [] }) .pf h1 (mkHandle 1 1 2).toNat 0, 1, 2,
     by decide⟩,
   ⟨lit, 1, 5, by decide⟩,
   ⟨lit, 1, 0, by decide⟩,
   ⟨{ on with withdrawals := [(4, ⟨1, 0, 0, 16, [.engine 2], true, []⟩)] }.setEngine 2 { state := 1 }, 4, 2, by decide⟩,
   ⟨{ on with withdrawals := [(4, ⟨1, 0, 0, 16, [], true, []⟩)] }, 4, ⟨1, 0, 0, 16, [], true, []⟩, by decide⟩,
   ⟨{ on with withdrawals := [(4, ⟨1, 0, 0, 16, [.proxy 2], true, []⟩)] }, 4, ⟨1, 0, 0, 16, [.proxy 2], true, []⟩, .proxy 2, by decide⟩,
   ⟨{ lit with segFaults := [⟨1, 0, .vf 0, 0, 0, 0, false, 0xFFFF, 0⟩], missqs := [(fnKey (.vf 0), { enable := true, sizeLog2 := 8, tail := 1 })] }, .vf 0, ⟨1, 0, .vf 0, 0, 0, 0, false, 0xFFFF, 0⟩, by decide⟩,
   ⟨{ lit with segFaults := [⟨1, 0, .vf 0, 0, 0, 0, true, 0xFFFF, 0⟩] }, 1, 0, ⟨1, 0, .vf 0, 0, 0, 0, true, 0xFFFF, 0⟩, by decide⟩,
   ⟨on, .vf 3, 0, by decide⟩,
   ⟨on, .vf 3, by decide⟩⟩

theorem test_meets_Bar4Accesses :
    (∃ (s : State) (fn : Fn),
      s.decodes fn = false) ∧
    (∃ (s : State) (fn : Fn),
      s.decodes fn = false) ∧
    (∃ (s : State),
      s.decodes .pf = true) ∧
    (∃ (s : State) (o : Nat),
      s.decodes .pf = true ∧
      s.stagingUp = true ∧
      o < 0x01F00000) ∧
    (∃ (s : State) (v : Nat),
      s.decodes (.vf v) = true ∧
      (∀ k, s.aperture v k = none)) ∧
    (∃ (s : State) (v : Nat) (o : Nat) (n : Nat) (c : Nat) (va : Nat) (a : Nat),
      s.decodes (.vf v) = true ∧
      1 ≤ n ∧
      o % 64 + n ≤ 64 ∧
      s.aperture v o = some (c, va) ∧
      s.access ⟨c, 6, ⟨0, 0⟩, []⟩ va = .ok false a) ∧
    (∃ (s : State) (v : Nat) (o : Nat) (c : Nat) (va : Nat) (a : Nat) (bs : List (BitVec 8)),
      s.decodes (.vf v) = true ∧
      bs ≠ [] ∧
      o % 64 + bs.length ≤ 64 ∧
      s.aperture v o = some (c, va) ∧
      s.access ⟨c, 7, ⟨0, 0⟩, []⟩ va = .ok false a) :=
  ⟨⟨on, .vf 4, by decide⟩,
   ⟨on, .vf 4, by decide⟩,
   ⟨on, by decide⟩,
   ⟨{ on with boot := { on.boot with fpt := [⟨3, 1, 0, 0⟩] } }, 0x01EFFFFF, by decide⟩,
   ⟨on, 3, by decide, fun k => if_neg fun h => absurd (show on.ctxValid 0 = true from h.2.1) (by decide)⟩,
   ⟨lit.setVf 0 { aps := [(0, ⟨mkHandle 1 1 1, 0⟩)] }, 0, 63, 1, _, _, _, by decide, by decide, by decide, rfl, rfl⟩,
   ⟨lit.setVf 0 { aps := [(0, ⟨mkHandle 1 1 1, 0⟩)] }, 0, 63, _, _, _, [1], by decide, by decide, by decide, rfl, rfl⟩⟩

theorem test_meets_FloorPlanComposition :
    (∃ (s : State),
      s.up = true ∧
      s.boot.step = 3) ∧
    (∃ (s : State),
      s.up = true ∧
      s.boot.step = 3) ∧
    (∃ (s : State) (u : UnitId),
      s.fuseBad u = true) ∧
    (∃ (s : State) (failed : List UnitId) (u : UnitId),
      s.fuseBad u = false ∧
      failed.contains u = true) ∧
    (∃ (s : State) (failed : List UnitId) (e : Nat),
      0 < s.build.arrays ∧
      s.unitVerdict failed (.engine e) = 1 ∧
      s.arraysAt failed e = []) :=
  ⟨⟨{ on with boot := { step := 3 } }, by decide⟩,
   ⟨{ on with boot := { step := 3 } }, by decide⟩,
   ⟨{ on with lc := { otp := [(0x100, 1)] } }, .engine 0, by decide⟩,
   ⟨on, [.way 3], .way 3, by decide⟩,
   ⟨on, [.array 0, .array 1, .array 2, .array 3], 0, by decide⟩⟩

theorem test_meets_BootAndFirmware :
    (∃ (s : State),
      s.up = true ∧
      s.stagingUp = true ∧
      s.sage.wardenDown = false ∧
      s.boot.reqSeq ≠ 0 ∧
      s.boot.reqSeq ≠ s.boot.statSeq ∧
      s.boot.taken = none ∧
      s.boot.fwState ≠ 1 ∧
      s.boot.fwState ≠ 2) ∧
    (∃ (s : State) (q : Nat),
      s.up = true ∧
      s.boot.taken = some (q, 1) ∧
      s.boot.fwState = 3) ∧
    (∃ (s : State) (q : Nat),
      s.up = true ∧
      s.boot.taken = some (q, 1) ∧
      s.boot.fwState ≠ 3 ∧
      (s.boot.len % 8 ≠ 0 ∨ s.boot.len < 4096 ∨ 32505856 < s.boot.len)) ∧
    (∃ (s : State) (q : Nat),
      s.up = true ∧
      s.boot.taken = some (q, 1) ∧
      s.boot.fwState ≠ 3 ∧
      s.boot.len % 8 = 0 ∧
      4096 ≤ s.boot.len ∧
      s.boot.len ≤ 32505856) ∧
    (∃ (s : State) (q : Nat),
      s.up = true ∧
      s.boot.taken = some (q, 2) ∧
      s.boot.fwState = 3) ∧
    (∃ (s : State) (q : Nat) (op : Nat),
      s.up = true ∧
      s.boot.taken = some (q, op) ∧
      op ≠ 1 ∧
      op ≠ 2) ∧
    (∃ (s : State),
      s.up = true ∧
      s.boot.fwState = 2 ∧
      s.boot.running = []) ∧
    (∃ (s : State),
      (s.lcState = 6 ∨ s.lcState = 15)) ∧
    (∃ (s : State),
      s.up = true ∧
      s.boot.fwState = 2 ∧
      s.boot.running ≠ []) ∧
    (∃ (s : State),
      s.up = true ∧
      s.boot.fwState = 1) ∧
    (∃ (s : State) (p : Nat) (m : OfpMsg),
      s.hears p m 6 = true ∧
      s.e2eSeen m = none) ∧
    (∃ (s : State) (p : Nat) (m : OfpMsg) (o : E2eOut),
      s.hears p m 7 = true ∧
      s.fab.find m.srcHub.toNat m.e2eSeq.toNat = some o ∧
      o.msg.type = 6 ∧
      fld m.f20.toNat 1 0 ≠ 2) ∧
    (∃ (s : State) (p : Nat) (m : OfpMsg) (o : E2eOut),
      s.hears p m 7 = true ∧
      s.fab.find m.srcHub.toNat m.e2eSeq.toNat = some o ∧
      o.msg.type = 6 ∧
      fld m.f20.toNat 1 0 = 2) :=
  ⟨⟨{ on with boot := { on.boot with fpt := [⟨3, 1, 0, 0⟩], reqSeq := 1 } }, by decide⟩,
   ⟨{ on with boot := { on.boot with taken := some (1, 1) } }, 1, by decide⟩,
   ⟨{ on with boot := { on.boot with fwState := 0, taken := some (1, 1), len := 4095 } }, 1, by decide⟩,
   ⟨{ on with boot := { on.boot with fwState := 0, taken := some (1, 1), len := 4096 } }, 1, by decide⟩,
   ⟨{ on with boot := { on.boot with taken := some (1, 2) } }, 1, by decide⟩,
   ⟨{ on with boot := { on.boot with taken := some (1, 3) } }, 1, 3, by decide⟩,
   ⟨{ on with boot := { on.boot with fwState := 2 } }, by decide⟩,
   ⟨{ on with lc := { raw := 1 } }, by decide⟩,
   ⟨{ on with boot := { on.boot with fwState := 2, running := [1] } }, by decide⟩,
   ⟨{ on with boot := { on.boot with fwState := 1 } }, by decide⟩,
   ⟨fab, 0, { msg 6 with dstHub := 5 }, by decide⟩,
   ⟨{ fab with fab := { fab.fab with out := [{ dst := 9, seq := 3, msg := msg 6 }] } }, 0, msg 7, { dst := 9, seq := 3, msg := msg 6 }, by decide⟩,
   ⟨{ fab with fab := { fab.fab with out := [{ dst := 9, seq := 3, msg := msg 6 }] } }, 0, { msg 7 with f20 := 2 }, { dst := 9, seq := 3, msg := msg 6 }, by decide⟩⟩

theorem test_meets_DoorbellsAndFetch :
    (∃ (s : State) (fn : Fn) (q : Nat) (v : BitVec 64),
      s.decodes fn = true ∧
      s.pageActs fn q = true ∧
      (s.queue q).deviceWritten = false ∧
      (s.ctx (q / 8)).state = .live ∧
      v.toNat % 2 ^ 32 % 16 = 0 ∧
      ahead32 (s.queue q).tail (v.toNat % 2 ^ 32) < 2 ^ 31 ∧
      ahead32 (s.queue q).head (v.toNat % 2 ^ 32) ≤ 2 ^ (s.queue q).sizeLog2) ∧
    (∃ (s : State) (q : Nat) (v : Nat),
      (s.ctx (q / 8)).sched.rslot.isSome = true ∧
      (s.queue q).fetch = .asleep ∧
      (s.queue q).head ≠ v) ∧
    (∃ (s : State) (fn : Fn) (q : Nat) (width : Nat),
      s.decodes fn = true ∧
      (width ≠ 8 ∨ s.pageActs fn q = false ∨ (s.queue q).deviceWritten = true)) ∧
    (∃ (s : State) (fn : Fn) (q : Nat) (v : BitVec 64),
      s.decodes fn = true ∧
      s.pageActs fn q = true ∧
      (s.queue q).deviceWritten = false ∧
      (s.ctx (q / 8)).state = .live ∧
      v.toNat % 2 ^ 32 % 16 ≠ 0) ∧
    (∃ (s : State) (q : Nat) (bs : List Byte),
      s.up = true ∧
      s.fetchOn q = true ∧
      (s.queue q).fetch = .fetching ∧
      (s.queue q).decoded = [] ∧
      (s.queue q).stalled = none ∧
      (s.queue q).seenTail ≠ (s.queue q).head ∧
      s.ringBytes (q / 8) (s.queue q).nextLine.1 (s.queue q).nextLine.2 = (bs, none)) ∧
    (∃ (s : State) (q : Nat),
      s.up = true ∧
      s.fetchOn q = true ∧
      (s.queue q).fetch = .reread ∧
      (s.queue q).tail = (s.queue q).head ∧
      (s.queue q).dbPending = false) ∧
    (∃ (s : State) (q : Nat),
      s.up = true ∧
      s.fetchOn q = true ∧
      (s.queue q).fetch = .reread ∧
      (s.queue q).tail ≠ (s.queue q).head) :=
  ⟨⟨lit, .vf 0, 8, 4096, by decide⟩,
   ⟨lit, 8, 16, by decide⟩,
   ⟨lit, .vf 0, 8, 4, by decide⟩,
   ⟨lit, .vf 0, 8, 8, by decide⟩,
   ⟨withQueue { state := 1, sizeLog2 := 12, tail := 16, seenTail := 16, fetch := .fetching }, 8, _, by decide, by decide, by decide, by decide,
     by decide, by decide, rfl⟩,
   ⟨withQueue { state := 1, sizeLog2 := 12, fetch := .reread }, 8, by decide⟩,
   ⟨withQueue { state := 1, sizeLog2 := 12, fetch := .reread, tail := 16 }, 8, by decide⟩⟩

theorem test_meets_QueueSignals :
    (∃ (s : State) (q : Nat) (p : Packet) (rest : List Packet),
      s.starts q p rest = true ∧
      p.malformed = false ∧
      p.w0 % 256 = 1) ∧
    (∃ (s : State) (q : Nat) (p : Packet) (rest : List Packet),
      s.starts q p rest = true ∧
      p.malformed = false ∧
      s.alone q = true ∧
      p.w0 % 256 = 5) ∧
    (∃ (s : State) (q : Nat) (p : Packet) (rest : List Packet),
      s.starts q p rest = true ∧
      p.malformed = false ∧
      s.alone q = true ∧
      p.w0 % 256 = 9) ∧
    (∃ (s : State) (q : Nat) (p : Packet) (rest : List Packet),
      s.starts q p rest = true ∧
      p.off = none ∧
      s.startedCmds q = [] ∧
      (p.w0 % 256 = 1 ∨ p.w0 % 256 = 5 ∨ p.w0 % 256 = 9)) ∧
    (∃ (s : State) (q : Nat) (p : Packet) (rest : List Packet),
      s.starts q p rest = true ∧
      (p.w0 % 256 = 0 ∨ 0x0D < p.w0 % 256)) :=
  ⟨⟨todo (1 + held7) 0, 8, pk (1 + held7) 0, [], by decide⟩,
   ⟨todo (5 + held7) 0, 8, pk (5 + held7) 0, [], by decide⟩,
   ⟨todo (9 + held7) 0, 8, pk (9 + held7) 0, [], by decide⟩,
   ⟨todo 1 0, 8, pk 1 0, [], by decide⟩,
   ⟨todo 0x0E 0, 8, pk 0x0E 0, [], by decide⟩⟩

theorem test_meets_WaitsAndFences :
    (∃ (s : State) (q : Nat) (p : Packet) (rest : List Packet),
      s.starts q p rest = true ∧
      p.malformed = false ∧
      p.w0 % 256 = 4 ∧
      s.fenceValid (q / 8) p.heldFence (some (q, p.pos, s.nextId)) = true ∧
      (s.fence (hIndex p.heldFence)).state = 1) ∧
    (∃ (s : State) (q : Nat) (p : Packet) (rest : List Packet),
      s.starts q p rest = true ∧
      p.malformed = false ∧
      p.w0 % 256 = 4 ∧
      s.fenceValid (q / 8) p.heldFence (some (q, p.pos, s.nextId)) = true ∧
      (s.fence (hIndex p.heldFence)).state = 2) ∧
    (∃ (s : State) (q : Nat) (p : Packet) (rest : List Packet),
      s.starts q p rest = true ∧
      p.malformed = false ∧
      p.w0 % 256 = 4 ∧
      s.fenceValid (q / 8) p.heldFence (some (q, p.pos, s.nextId)) = true ∧
      (s.fence (hIndex p.heldFence)).state = 3) ∧
    (∃ (code : Nat),
      code ≠ 0) ∧
    (∃ (s : State) (q : Nat) (since : Nat) (id : Nat) (h : BitVec 32) (m : Cmd),
      s.up = true ∧
      (s.queue q).blocked = some (h, since) ∧
      (s.startedCmds q).find? (fun e => e.2.op = 4) = some (id, m) ∧
      (s.fence (hIndex h)).gen = hGen h ∧
      (s.fence (hIndex h)).state = 2 ∧
      (s.ctx (q / 8)).sched.rslot.isSome = true) ∧
    (∃ (s : State) (sig : FenceSig) (rest : List FenceSig),
      s.up = true ∧
      s.fenceWire = sig :: rest ∧
      hType sig.fence = 4 ∧
      hGen sig.fence = (s.fence (hIndex sig.fence)).gen ∧
      (s.fence (hIndex sig.fence)).state = 1 ∧
      (s.fence (hIndex sig.fence)).notify = false) ∧
    (∃ (s : State) (sig : FenceSig) (rest : List FenceSig),
      s.up = true ∧
      s.fenceWire = sig :: rest ∧
      (hType sig.fence ≠ 4 ∨ hGen sig.fence ≠ (s.fence (hIndex sig.fence)).gen ∨ (s.fence (hIndex sig.fence)).state ≠ 1)) ∧
    (∃ (s : State) (q : Nat) (since : Nat) (h : BitVec 32) (cyc : List (BitVec 32)),
      s.up = true ∧
      (s.queue q).blocked = some (h, since) ∧
      s.fenceWire = [] ∧
      (∀ g ∈ cyc, g ≠ 0) ∧
      (State.walk 8192 { s with fe := { s.fe with walks := bump s.fe.walks 1 } } [h] [] 4096).2 = some cyc) ∧
    (∃ (s : State) (q : Nat) (since : Nat) (h : BitVec 32),
      s.up = true ∧
      (s.queue q).blocked = some (h, since) ∧
      (State.walk 8192 { s with fe := { s.fe with walks := bump s.fe.walks 1 } } [h] [] 4096).2 = none) :=
  ⟨⟨todo (4 + held7) 0, 8, pk (4 + held7) 0, [], by decide⟩,
   ⟨(todo (4 + held7) 0).setFence 7 { state := 2, owner := 1 }, 8, pk (4 + held7) 0, [], by decide⟩,
   ⟨(todo (4 + held7) 0).setFence 7 { state := 3, owner := 1 }, 8, pk (4 + held7) 0, [], by decide⟩,
   ⟨1, by decide⟩,
   ⟨{ (withQueue { state := 1, sizeLog2 := 12, blocked := some (mkHandle 4 1 7, 0) }).setFence 7 { state := 2, owner := 1 } with cmds := [(3, cm 4)] }, 8, 0, 3, mkHandle 4 1 7, cm 4, by decide⟩,
   ⟨{ lit with fenceWire := [⟨mkHandle 4 1 7, 0⟩] }, ⟨mkHandle 4 1 7, 0⟩, [], by decide⟩,
   ⟨{ lit with fenceWire := [⟨0, 0⟩] }, ⟨0, 0⟩, [], by decide⟩,
   ⟨withQueue { state := 1, sizeLog2 := 12, tail := 64, blocked := some (mkHandle 4 1 7, 0) }, 8, 0, mkHandle 4 1 7, [mkHandle 4 1 7],
     by decide, by decide, by decide, List.forall_mem_singleton.2 (by decide), rfl⟩,
   ⟨withQueue { state := 1, sizeLog2 := 12, blocked := some (mkHandle 4 1 7, 0) }, 8, 0, mkHandle 4 1 7, by decide⟩⟩

theorem test_meets_RemoteSignals :
    (∃ (s : State) (q : Nat) (p : Packet) (rest : List Packet),
      s.starts q p rest = true ∧
      p.malformed = false ∧
      s.alone q = true ∧
      p.w0 % 256 = 6 ∧
      fld p.w0 9 8 = 0 ∧
      s.refHere p.w1 = false ∧
      s.reachable (refHub p.w1) = true) ∧
    (∃ (s : State) (q : Nat) (p : Packet) (rest : List Packet),
      s.starts q p rest = true ∧
      p.malformed = false ∧
      s.alone q = true ∧
      p.w0 % 256 = 6 ∧
      fld p.w0 9 8 = 0 ∧
      s.refHere p.w1 = false ∧
      s.reachable (refHub p.w1) = false) ∧
    (∃ (s : State) (q : Nat) (p : Packet) (rest : List Packet),
      s.starts q p rest = true ∧
      p.malformed = false ∧
      s.alone q = true ∧
      p.w0 % 256 = 6 ∧
      fld p.w0 9 8 = 0 ∧
      s.refHere p.w1 = true ∧
      s.fenceValid (q / 8) (BitVec.ofNat 32 p.w1) (some (q, p.pos, s.nextId)) = true) ∧
    (∃ (s : State) (q : Nat) (i : Nat) (p : Packet) (rest : List Packet) (result : BitVec 64),
      s.starts q p rest = true ∧
      p.malformed = false ∧
      s.alone q = true ∧
      p.w0 % 256 = 6 ∧
      fld p.w0 9 8 = 1 ∧
      s.refHere p.w1 = false ∧
      (List.range 16).find? (fun i => (tget {} s.peers i).valid && (tget {} s.peers i).hubId.toNat == refHub p.w1) = some i ∧
      fld result.toNat 63 32 = ((tget {} s.peers i).sentSeq + 1) % 2 ^ 32 ∧
      fld result.toNat 1 0 = 1) ∧
    (∃ (s : State) (q : Nat) (p : Packet) (rest : List Packet) (host : Bool) (t : State),
      s.starts q p rest = true ∧
      p.malformed = false ∧
      s.alone q = true ∧
      p.w0 % 256 = 6 ∧
      fld p.w0 9 8 = 2 ∧
      (s.begun q p rest).writeLine ((s.begun q p rest).whoCmd (p.cmd q) s.nextId 5) [] p.w1 (bytesLE 4 p.heldFence.toNat) = .done t host) ∧
    (∃ (s : State) (q : Nat) (p : Packet) (rest : List Packet) (host : Bool) (t : State),
      s.starts q p rest = true ∧
      p.malformed = false ∧
      s.alone q = true ∧
      p.w0 % 256 = 0x0D ∧
      (s.begun q p rest).writeLine ((s.begun q p rest).whoCmd (p.cmd q) s.nextId 5) [] p.w1 (bytesLE 8 s.now) = .done t host) ∧
    (∃ (s : State) (r : BitVec 64) (c : BitVec 64) (i : Nat),
      s.decodes .pf = true ∧
      s.fwRuns = true ∧
      (List.range 16).find? (fun i => (tget {} s.peers i).valid && (tget {} s.peers i).hubId.toNat == fld c.toNat 63 48) = some i ∧
      s.refAccepted r.toNat = true ∧
      BitVec.ofNat 32 r.toNat ≠ 0) ∧
    (∃ (s : State) (c : BitVec 64),
      s.decodes .pf = true ∧
      s.fwRuns = true ∧
      (List.range 16).find? (fun i => (tget {} s.peers i).valid && (tget {} s.peers i).hubId.toNat == fld c.toNat 63 48) = none) :=
  ⟨⟨{ todo 6 (9 * 2 ^ 48) with fab := { idValid := true, hubId := 5, route := [(9, 4)] } }, 8, pk 6 (9 * 2 ^ 48), [], by decide⟩,
   ⟨todo 6 (9 * 2 ^ 48), 8, pk 6 (9 * 2 ^ 48), [], by decide⟩,
   ⟨todo 6 (0xFFFF * 2 ^ 48 + h7), 8, pk 6 (0xFFFF * 2 ^ 48 + h7), [], by decide⟩,
   ⟨{ todo (6 + 256) (9 * 2 ^ 48) with peers := [(2, { valid := true, hubId := 9 })] }, 8, 2, pk (6 + 256) (9 * 2 ^ 48), [], BitVec.ofNat 64 (2 ^ 32 + 1), by decide⟩,
   ⟨todo (6 + 512 + 5 * 2 ^ 32) 64, 8, pk (6 + 512 + 5 * 2 ^ 32) 64, [], false, _, by decide, by decide, by decide, by decide,
     by decide, wrote_of (by decide +kernel)⟩,
   ⟨todo 0x0D 64, 8, pk 0x0D 64, [], false, _, by decide, by decide, by decide, by decide, wrote_of (by decide +kernel)⟩,
   ⟨{ (lit.setFence 7 { state := 1, owner := 1, exportScope := 2 }) with peers := [(2, { valid := true, hubId := 9 })] }, BitVec.ofNat 64 h7, BitVec.ofNat 64 (9 * 2 ^ 48), 2, by decide⟩,
   ⟨lit, BitVec.ofNat 64 (9 * 2 ^ 48), by decide⟩⟩

theorem test_meets_QueueMemoryCommands :
    (∃ (s : State) (q : Nat) (p : Packet) (rest : List Packet) (j : CopyJob),
      s.starts q p rest = true ∧
      p.malformed = false ∧
      (p.w0 % 256 = 7 ∨ p.w0 % 256 = 8) ∧
      ((s.begun q p rest).readVa ((s.begun q p rest).whoCmd (p.cmd q) s.nextId 4) [] p.w1 32).stop = none ∧
      ((s.begun q p rest).readVa ((s.begun q p rest).whoCmd (p.cmd q) s.nextId 4) [] p.w1 32).viol.lines = 0 ∧
      copyBlock (p.w0 % 256 = 8) ((s.begun q p rest).readVa ((s.begun q p rest).whoCmd (p.cmd q) s.nextId 4) [] p.w1 32).bytes = some j ∧
      (∀ f, s.namesZeroing (q / 8) f = false) ∧
      j.len ≠ 0) ∧
    (∃ (s : State) (id : Nat) (a : Nat) (m : Cmd) (j : CopyJob),
      s.up = true ∧
      tfind s.cmds id = some m ∧
      m.copy = some j ∧
      m.stalled = none ∧
      (s.ctx m.ctx).lostHold = false ∧
      s.paused (s.ctx m.ctx).part = false ∧
      j.isFill = true ∧
      j.done = 0 ∧
      j.buf = [] ∧
      j.reading = true ∧
      0 < j.len ∧
      j.len ≤ 64 - j.dst % 64 ∧
      s.access (s.whoCmd m id 5) j.dst = .ok false a) ∧
    (∃ (s : State) (id : Nat) (a : Nat) (b : Nat) (m : Cmd) (j : CopyJob),
      s.up = true ∧
      tfind s.cmds id = some m ∧
      m.copy = some j ∧
      m.stalled = none ∧
      (s.ctx m.ctx).lostHold = false ∧
      s.paused (s.ctx m.ctx).part = false ∧
      j.isFill = false ∧
      j.done = 0 ∧
      j.buf = [] ∧
      j.reading = true ∧
      0 < j.len ∧
      j.len ≤ 64 - j.dst % 64 ∧
      j.len ≤ 64 - j.src % 64 ∧
      s.access (s.whoCmd m id 4) j.src = .ok false a ∧
      s.access (s.whoCmd m id 5) j.dst = .ok false b) ∧
    (∃ (s : State) (q : Nat) (p : Packet) (rest : List Packet),
      s.starts q p rest = true ∧
      p.malformed = false ∧
      p.w0 % 256 = 0x0A ∧
      p.off = none ∧
      p.pos < 2 ^ 32 ∧
      p.w1 ≤ ahead32 ((s.begun q p rest).queue q).head ((s.begun q p rest).queue q).tail) ∧
    (∃ (s : State) (q : Nat) (p : Packet) (rest : List Packet) (bs : List Byte),
      s.starts q p rest = true ∧
      p.malformed = false ∧
      p.w0 % 256 = 0x0B ∧
      p.heldFence.toNat ≠ 0 ∧
      (s.begun q p rest).callBytes (q / 8) p.w1 p.heldFence.toNat [] = (bs, none)) ∧
    (∃ (s : State) (q : Nat) (p : Packet) (rest : List Packet) (h : BitVec 32),
      s.starts q p rest = true ∧
      p.malformed = false ∧
      p.w0 % 256 = 0x0C ∧
      BitVec.ofNat 32 p.w1 = h ∧
      hType h = 4 ∧
      s.fenceValid (q / 8) h (some (q, p.pos, s.nextId)) = true ∧
      (s.fence (hIndex h)).owner = s.tag (q / 8) ∧
      (s.fence (hIndex h)).orphaned = false) ∧
    (∃ (s : State) (q : Nat) (p : Packet) (rest : List Packet) (h : BitVec 32),
      s.starts q p rest = true ∧
      p.malformed = false ∧
      p.w0 % 256 = 0x0C ∧
      BitVec.ofNat 32 p.w1 = h ∧
      hType h = 3 ∧
      s.objValid (q / 8) h (some (q, p.pos, s.nextId)) = true ∧
      s.zeroing h = false ∧
      (s.obj (hIndex h)).owner = s.tag (q / 8) ∧
      (s.obj (hIndex h)).state ≠ 3) :=
  ⟨⟨{ todo 7 64 with objs := [], mem := [(80, 1)] }, 8, pk 7 64, [], _, by decide, by decide, by decide, by decide,
     by decide, rfl, no_zeroing rfl _, by decide⟩,
   ⟨{ lit with cmds := [(3, { cm 8 with copy := some { isFill := true, src := 0, dst := 128, len := 64, pattern := 0 } })] }, 3, 128, { cm 8 with copy := some { isFill := true, src := 0, dst := 128, len := 64, pattern := 0 } }, { isFill := true, src := 0, dst := 128, len := 64, pattern := 0 }, by decide⟩,
   ⟨{ lit with cmds := [(3, { cm 7 with copy := some { isFill := false, src := 0, dst := 128, len := 64, pattern := 0 } })] }, 3, 0, 128, { cm 7 with copy := some { isFill := false, src := 0, dst := 128, len := 64, pattern := 0 } }, { isFill := false, src := 0, dst := 128, len := 64, pattern := 0 }, by decide⟩,
   ⟨todo 0x0A 48, 8, pk 0x0A 48, [], by decide⟩,
   ⟨todo (0x0B + 16 * 2 ^ 32) 64, 8, pk (0x0B + 16 * 2 ^ 32) 64, [], _, by decide, by decide, by decide, by decide, rfl⟩,
   ⟨todo 0x0C h7, 8, pk 0x0C h7, [], mkHandle 4 1 7, by decide⟩,
   ⟨todo 0x0C ((mkHandle 3 1 9).toNat), 8, pk 0x0C ((mkHandle 3 1 9).toNat), [], mkHandle 3 1 9, by decide⟩⟩

theorem test_meets_QueueLaunches :
    (∃ (s : State) (q : Nat) (p : Packet) (rest : List Packet) (b : State) (r : ReadRes),
      s.starts q p rest = true ∧
      p.malformed = false ∧
      p.w0 % 256 = 2 ∧
      s.begun q p rest = b ∧
      (b.queue q).bound = none ∧
      b.readVa (b.whoCmd (p.cmd q) s.nextId 4) [] p.w1 64 = r ∧
      r.stop = none ∧
      r.viol.lines = 0 ∧
      (LaunchHeader.ofBytes r.bytes).ok s.build.arrays = true ∧
      (LaunchHeader.ofBytes r.bytes).constLen = 0 ∧
      s.launchAllowed (p.cmd q) ((LaunchHeader.ofBytes r.bytes).desc []) false = true ∧
      ((LaunchHeader.ofBytes r.bytes).desc []).workgroups ≠ 0 ∧
      (∀ f, s.namesZeroing (q / 8) f = false) ∧
      (s.ctx (q / 8)).released = []) ∧
    (∃ (s : State) (q : Nat) (l : Nat) (p : Packet) (rest : List Packet) (b : State) (r : ReadRes),
      s.starts q p rest = true ∧
      p.malformed = false ∧
      p.w0 % 256 = 2 ∧
      s.begun q p rest = b ∧
      (b.queue q).bound = some l ∧
      s.scheduleRuns (s.ctx (q / 8)).part = false ∧
      b.readVa (b.whoCmd (p.cmd q) s.nextId 4) [] p.w1 64 = r ∧
      r.stop = none ∧
      r.viol.lines = 0 ∧
      (LaunchHeader.ofBytes r.bytes).constOk = true ∧
      (LaunchHeader.ofBytes r.bytes).constLen = 0) ∧
    (∃ (s : State) (q : Nat) (p : Packet) (rest : List Packet) (b : State) (r : ReadRes),
      s.starts q p rest = true ∧
      p.malformed = false ∧
      p.w0 % 256 = 3 ∧
      bit (fld p.w0 15 8) 0 = false ∧
      s.begun q p rest = b ∧
      (b.queue q).bound = none ∧
      b.readVa (b.whoCmd (p.cmd q) s.nextId 4) [] p.w1 64 = r ∧
      r.stop = none ∧
      r.viol.lines = 0 ∧
      (LaunchHeader.ofBytes r.bytes).ok s.build.arrays = true ∧
      (LaunchHeader.ofBytes r.bytes).constLen = 0 ∧
      s.launchAllowed (p.cmd q) ((LaunchHeader.ofBytes r.bytes).desc []) true = true ∧
      ((LaunchHeader.ofBytes r.bytes).desc []).workgroups = 1 ∧
      (∀ f, s.namesZeroing (q / 8) f = false) ∧
      (s.ctx (q / 8)).released = []) ∧
    (∃ (s : State) (q : Nat) (p : Packet) (rest : List Packet),
      s.starts q p rest = true ∧
      p.malformed = false ∧
      p.w0 % 256 = 3 ∧
      bit (fld p.w0 15 8) 0 = true ∧
      s.startedCmds q = [] ∧
      (s.queue q).bound = none) ∧
    (∃ (s : State) (q : Nat) (id : Nat) (e : Nat) (k : Nat) (sd : Nat) (sp : Nat) (n : Nat) (l : Launch) (m : Cmd) (bound : List Nat) (fold : Option (Nat × Nat)),
      s.up = true ∧
      (s.queue q).bound = some id ∧
      l.queue = q ∧
      tfind s.launches id = some l ∧
      l.place = .slot e n ∧
      l.qwait = some (sd, sp, none) ∧
      l.status = .waiting ∧
      l.stopWait = false ∧
      s.nextPacket q = some (k, m) ∧
      s.bindFor e l.desc.arrays = some (bound, fold)) :=
  ⟨⟨{ todo 2 64 with objs := [], mem := [(84, 1)] }, 8, pk 2 64, [], _, _, by decide, by decide, by decide, rfl, by decide, rfl, by decide,
     by decide, by decide, by decide, by decide, by decide, no_zeroing rfl _, by decide⟩,
   ⟨{ (withQueue { state := 1, sizeLog2 := 12, tail := 64, seenTail := 16, fetch := .fetching, bound := some 5, decoded := [pk 2 64] }) with mem := [(84, 1)] }, 8, 5, pk 2 64, [], _, _, by decide, by decide, by decide, rfl, by decide, by decide, rfl, by decide, by decide, by decide, by decide⟩,
   ⟨{ todo 3 64 with objs := [], mem := [(84, 1)] }, 8, pk 3 64, [], _, _, by decide, by decide, by decide, by decide, rfl, by decide, rfl,
     by decide, by decide, by decide, by decide, by decide, by decide, no_zeroing rfl _, by decide⟩,
   ⟨todo (3 + 256) 0, 8, pk (3 + 256) 0, [], by decide⟩,
   ⟨{ (run { la {} {} with status := .waiting, qwait := some (1, 2, none) }) with cmds := [(3, { cm 2 with isPacket := true })] }.setQueue 8 { state := 1, sizeLog2 := 12, bound := some 20 }, 8, 20, 0, 3, 1, 2, 0, { la {} {} with status := .waiting, qwait := some (1, 2, none) }, { cm 2 with isPacket := true }, [], none, by decide⟩⟩

theorem test_meets_ScalarInstructions :
    (∃ (s : State) (a : SlotId) (h : QEntry) (id : Nat) (l : Launch),
      s.leaves a 3 h id l = true ∧
      isOp 0x01 h.word = true) ∧
    (∃ (s : State) (a : SlotId) (h : QEntry) (id : Nat) (l : Launch),
      s.leaves a 3 h id l = true ∧
      isOp 0x02 h.word = true) ∧
    (∃ (s : State) (a : SlotId) (h : QEntry) (id : Nat) (l : Launch),
      s.leaves a 3 h id l = true ∧
      isOp 0x03 h.word = true) ∧
    (∃ (s : State) (a : SlotId) (h : QEntry) (id : Nat) (v : Nat) (l : Launch),
      s.leaves a 3 h id l = true ∧
      isOp 0x04 h.word = true ∧
      scalarFn (fld h.word 27 24) (h.sv (fld h.word 39 34)) (h.sv (fld h.word 33 28)) = some v) ∧
    (∃ (s : State) (a : SlotId) (h : QEntry) (id : Nat) (v : Nat) (l : Launch),
      s.leaves a 3 h id l = true ∧
      isOp 0x05 h.word = true ∧
      scalarFn (fld h.word 27 24) (h.sv (fld h.word 39 34)) (wrap 64 (sext 24 (fld h.word 23 0))) = some v) ∧
    (∃ (s : State) (a : SlotId) (h : QEntry) (id : Nat) (off : Nat) (l : Launch),
      s.leaves a 3 h id l = true ∧
      isOp 0x06 h.word = true ∧
      h.sv (fld h.word 39 34) + 8 * fld h.word 33 14 = off ∧
      off % 8 = 0 ∧
      off + 8 ≤ (s.allotSpan a.engine l.ctx).2) ∧
    (∃ (s : State) (a : SlotId) (h : QEntry) (id : Nat) (off : Nat) (l : Launch),
      s.leaves a 3 h id l = true ∧
      isOp 0x07 h.word = true ∧
      h.sv (fld h.word 39 34) + 8 * fld h.word 33 14 = off ∧
      off % 8 = 0 ∧
      off + 8 ≤ (s.allotSpan a.engine l.ctx).2) ∧
    (∃ (s : State) (a : SlotId) (h : QEntry) (id : Nat) (l : Launch),
      s.leaves a 3 h id l = true ∧
      isOp 0x08 h.word = true) ∧
    (∃ (s : State) (a : SlotId) (h : QEntry) (id : Nat) (v : Nat) (l : Launch),
      s.leaves a 3 h id l = true ∧
      isOp 0x09 h.word = true ∧
      fld h.word 39 35 ≠ 4 ∧
      s.statusValue l (fld h.word 39 35) = some v) ∧
    (∃ (s : State) (a : SlotId) (h : QEntry) (id : Nat) (l : Launch),
      s.leaves a 3 h id l = true ∧
      isOp 0x09 h.word = true ∧
      fld h.word 39 35 = 4) ∧
    (∃ (s : State) (a : SlotId) (h : QEntry) (id : Nat) (l : Launch),
      s.leaves a 3 h id l = true ∧
      isOp 0x0D h.word = true ∧
      (bit h.word 50 = true → fld h.word 49 46 = fld h.word 45 42 → fld h.word 41 34 < 255)) ∧
    (∃ (s : State) (a : SlotId) (h : QEntry) (id : Nat) (off : Nat) (l : Launch),
      s.leaves a 3 h id l = true ∧
      isOp 0x18 h.word = true ∧
      h.sv (fld h.word 41 36) + 32 * fld h.word 35 16 = off ∧
      off % 32 = 0 ∧
      off + 32 ≤ (s.allotSpan a.engine l.ctx).2) ∧
    (∃ (s : State) (a : SlotId) (h : QEntry) (id : Nat) (l : Launch) (v : BitVec 256),
      s.leaves a 3 h id l = true ∧
      isOp 0x19 h.word = true ∧
      tdField (tget 0 l.x.regs.t (fld h.word 45 42)) (fld h.word 41 39) (h.sv (fld h.word 38 33)) = some v) ∧
    (∃ (s : State) (a : SlotId) (h : QEntry) (id : Nat) (l : Launch),
      s.leaves a 3 h id l = true ∧
      isOp 0x0A h.word = true ∧
      brHolds (fld h.word 45 43) (h.sv (fld h.word 42 37)) (h.sv (fld h.word 36 31)) = some true) ∧
    (∃ (s : State) (a : SlotId) (h : QEntry) (id : Nat) (l : Launch),
      s.leaves a 3 h id l = true ∧
      isOp 0x0A h.word = true ∧
      brHolds (fld h.word 45 43) (h.sv (fld h.word 42 37)) (h.sv (fld h.word 36 31)) = some false) ∧
    (∃ (s : State) (a : SlotId) (h : QEntry) (id : Nat) (l : Launch),
      s.leaves a 3 h id l = true ∧
      isOp 0x0B h.word = true) ∧
    (∃ (s : State) (a : SlotId) (h : QEntry) (id : Nat) (l : Launch),
      s.leaves a 3 h id l = true ∧
      isOp 0x0C h.word = true ∧
      h.sv (fld h.word 39 34) % 8 = 0) ∧
    (∃ (s : State) (a : SlotId) (h : QEntry) (id : Nat) (l : Launch),
      s.leaves a 3 h id l = true ∧
      isOp 0x0C h.word = true ∧
      h.sv (fld h.word 39 34) % 8 ≠ 0) ∧
    (∃ (s : State) (a : SlotId) (h : QEntry) (rest : List QEntry) (id : Nat) (l : Launch),
      s.up = true ∧
      s.inSlot a = some (id, l) ∧
      l.status = .running ∧
      undefinedOp h.word = true ∧
      l.x.waitOk h.word = true ∧
      l.x.tq = [] ∧
      l.x.mq = [] ∧
      l.x.vq = [] ∧
      l.x.sq = h :: rest ∧
      l.x.scalarBusy = false ∧
      l.semWait = none) :=
  ⟨⟨run (la (ex 3 (qe (wd 1 0) 0 0)) {}), a0, qe (wd 1 0) 0 0, 20, la (ex 3 (qe (wd 1 0) 0 0)) {}, by decide⟩,
   ⟨run (la (ex 3 (qe (wd 2 (2 ^ 40)) 0 0)) {}), a0, qe (wd 2 (2 ^ 40)) 0 0, 20, la (ex 3 (qe (wd 2 (2 ^ 40)) 0 0)) {}, by decide⟩,
   ⟨run (la (ex 3 (qe (wd 3 (2 ^ 40)) 0 0)) {}), a0, qe (wd 3 (2 ^ 40)) 0 0, 20, la (ex 3 (qe (wd 3 (2 ^ 40)) 0 0)) {}, by decide⟩,
   ⟨run (la (ex 3 (qe (wd 4 (2 ^ 40)) 0 0)) {}), a0, qe (wd 4 (2 ^ 40)) 0 0, 20, 0, la (ex 3 (qe (wd 4 (2 ^ 40)) 0 0)) {}, by decide⟩,
   ⟨run (la (ex 3 (qe (wd 5 (2 ^ 40)) 0 0)) {}), a0, qe (wd 5 (2 ^ 40)) 0 0, 20, 0, la (ex 3 (qe (wd 5 (2 ^ 40)) 0 0)) {}, by decide⟩,
   ⟨run (la (ex 3 (qe (wd 6 (2 ^ 40)) 0 0)) {}), a0, qe (wd 6 (2 ^ 40)) 0 0, 20, 0, la (ex 3 (qe (wd 6 (2 ^ 40)) 0 0)) {}, by decide⟩,
   ⟨run (la (ex 3 (qe (wd 7 (2 ^ 40)) 0 0)) {}), a0, qe (wd 7 (2 ^ 40)) 0 0, 20, 0, la (ex 3 (qe (wd 7 (2 ^ 40)) 0 0)) {}, by decide⟩,
   ⟨run (la (ex 3 (qe (wd 8 (2 ^ 40)) 0 0)) {}), a0, qe (wd 8 (2 ^ 40)) 0 0, 20, la (ex 3 (qe (wd 8 (2 ^ 40)) 0 0)) {}, by decide⟩,
   ⟨run (la (ex 3 (qe (wd 9 0) 0 0)) {}), a0, qe (wd 9 0) 0 0, 20, _, la (ex 3 (qe (wd 9 0) 0 0)) {}, by decide, by decide, by decide, rfl⟩,
   ⟨run (la (ex 3 (qe (wd 9 (4 * 2 ^ 35)) 0 0)) {}), a0, qe (wd 9 (4 * 2 ^ 35)) 0 0, 20, la (ex 3 (qe (wd 9 (4 * 2 ^ 35)) 0 0)) {}, by decide⟩,
   ⟨run (la (ex 3 (qe (wd 0x0D (255 * 2 ^ 34)) 0 0)) {}), a0, qe (wd 0x0D (255 * 2 ^ 34)) 0 0, 20, la (ex 3 (qe (wd 0x0D (255 * 2 ^ 34)) 0 0)) {}, by decide⟩,
   ⟨run (la (ex 3 (qe (wd 0x18 0) 0 0)) {}), a0, qe (wd 0x18 0) 0 0, 20, 0, la (ex 3 (qe (wd 0x18 0) 0 0)) {}, by decide⟩,
   ⟨run (la (ex 3 (qe (wd 0x19 0) 0 0)) {}), a0, qe (wd 0x19 0) 0 0, 20, la (ex 3 (qe (wd 0x19 0) 0 0)) {}, _, by decide, by decide, rfl⟩,
   ⟨run (la (ex 3 (qe (wd 0x0A 0) 0 0)) {}), a0, qe (wd 0x0A 0) 0 0, 20, la (ex 3 (qe (wd 0x0A 0) 0 0)) {}, by decide⟩,
   ⟨run (la (ex 3 (qe (wd 0x0A (2 ^ 43)) 0 0)) {}), a0, qe (wd 0x0A (2 ^ 43)) 0 0, 20, la (ex 3 (qe (wd 0x0A (2 ^ 43)) 0 0)) {}, by decide⟩,
   ⟨run (la (ex 3 (qe (wd 0x0B 0) 0 0)) {}), a0, qe (wd 0x0B 0) 0 0, 20, la (ex 3 (qe (wd 0x0B 0) 0 0)) {}, by decide⟩,
   ⟨run (la (ex 3 (qe (wd 0x0C (2 ^ 34)) 8 0)) {}), a0, qe (wd 0x0C (2 ^ 34)) 8 0, 20, la (ex 3 (qe (wd 0x0C (2 ^ 34)) 8 0)) {}, by decide⟩,
   ⟨run (la (ex 3 (qe (wd 0x0C (2 ^ 34)) 4 0)) {}), a0, qe (wd 0x0C (2 ^ 34)) 4 0, 20, la (ex 3 (qe (wd 0x0C (2 ^ 34)) 4 0)) {}, by decide⟩,
   ⟨run (la (ex 3 (qe (wd 0xFF 0) 0 0)) {}), a0, qe (wd 0xFF 0) 0 0, [], 20, la (ex 3 (qe (wd 0xFF 0) 0 0)) {}, by decide⟩⟩

theorem test_meets_QueueWaitAndSemaphores :
    (∃ (s : State) (a : SlotId) (h : QEntry) (id : Nat) (l : Launch),
      s.leaves a 3 h id l = true ∧
      isOp 0x0E h.word = true ∧
      l.resident = true ∧
      l.x.tq = [] ∧
      l.x.vq = [] ∧
      l.x.mq = [] ∧
      l.x.sq = [h] ∧
      l.x.inflight = []) ∧
    (∃ (s : State) (a : SlotId) (h : QEntry) (id : Nat) (l : Launch),
      s.leaves a 3 h id l = true ∧
      isOp 0x0F h.word = true ∧
      h.sv (fld h.word 39 34) % 16 = 0 ∧
      ((s.ctx l.ctx).queue (fld h.word 33 31)).state ≠ 0 ∧
      ((s.ctx l.ctx).queue (fld h.word 33 31)).deviceWritten = true) ∧
    (∃ (s : State) (a : SlotId) (h : QEntry) (id : Nat) (l : Launch),
      s.leaves a 3 h id l = true ∧
      isOp 0x10 h.word = true ∧
      l.sems = [] ∧
      l.x.tq = [] ∧
      l.x.vq = [] ∧
      l.x.mq = [] ∧
      l.x.sq = [h] ∧
      l.x.inflight = []) ∧
    (∃ (s : State) (id : Nat) (l : Launch),
      tfind s.launches id = some l) ∧
    (∃ (s : State) (a : SlotId) (h : QEntry) (id : Nat) (i : Nat) (l : Launch),
      s.leaves a 3 h id l = true ∧
      isOp 0x11 h.word = true ∧
      h.sv (fld h.word 39 34) = i ∧
      i ≤ 63 ∧
      l.sems.contains i = false ∧
      (s.sem (s.launchSem l i)).holder = none ∧
      (s.sem (s.launchSem l i)).waiters = []) ∧
    (∃ (s : State) (a : SlotId) (h : QEntry) (id : Nat) (i : Nat) (k : Nat) (l : Launch),
      s.leaves a 3 h id l = true ∧
      isOp 0x11 h.word = true ∧
      h.sv (fld h.word 39 34) = i ∧
      i ≤ 63 ∧
      l.sems.contains i = false ∧
      (s.sem (s.launchSem l i)).holder = some k) ∧
    (∃ (s : State) (a : SlotId) (h : QEntry) (id : Nat) (i : Nat) (l : Launch),
      s.leaves a 3 h id l = true ∧
      isOp 0x12 h.word = true ∧
      h.sv (fld h.word 39 34) = i ∧
      l.sems.contains i = true) ∧
    (∃ (s : State) (p : Nat) (i : Nat) (id : Nat) (rest : List Nat) (l : Launch),
      s.up = true ∧
      i < 64 ∧
      (s.sem (semKey p i)).holder = none ∧
      (s.sem (semKey p i)).waiters = id :: rest ∧
      tfind s.launches id = some l ∧
      (∀ w, l.semWait = some w → bit w.2 50 = true → tget 0 l.x.regs.k (fld w.2 49 46) < 255)) ∧
    (∃ (s : State) (p : Nat) (i : Nat) (id : Nat) (l : Launch),
      s.up = true ∧
      i < 64 ∧
      (s.sem (semKey p i)).holder = some id ∧
      (s.sem (semKey p i)).waiters = [] ∧
      tfind s.launches id = some l ∧
      (s.ctx l.ctx).state = .live ∧
      (s.ctx l.ctx).fabric = true ∧
      (s.ctx l.ctx).fault.code = 0) ∧
    (∃ (s : State) (p : Nat) (i : Nat) (id : Nat) (l : Launch),
      s.up = true ∧
      i < 64 ∧
      (s.sem (semKey p i)).holder = some id ∧
      (s.sem (semKey p i)).waiters = [] ∧
      tfind s.launches id = some l ∧
      (s.ctx l.ctx).state = .live ∧
      (s.ctx l.ctx).fabric = false ∧
      (s.ctx l.ctx).fault.code = 0) :=
  ⟨⟨run { la (ex 3 (qe (wd 0x0E 0) 0 0)) {} with resident := true }, a0, qe (wd 0x0E 0) 0 0, 20, { la (ex 3 (qe (wd 0x0E 0) 0 0)) {} with resident := true }, by decide⟩,
   ⟨(run (la (ex 3 (qe (wd 0x0F 0) 0 0)) {})).setQueue 8 { state := 1, sizeLog2 := 12, deviceWritten := true }, a0, qe (wd 0x0F 0) 0 0, 20, la (ex 3 (qe (wd 0x0F 0) 0 0)) {}, by decide⟩,
   ⟨run (la (ex 3 (qe (wd 0x10 0) 0 0)) {}), a0, qe (wd 0x10 0) 0 0, 20, la (ex 3 (qe (wd 0x10 0) 0 0)) {}, by decide⟩,
   ⟨run (la {} {}), 20, la {} {}, by decide⟩,
   ⟨run (la (ex 3 (qe (wd 0x11 (2 ^ 34)) 63 0)) {}), a0, qe (wd 0x11 (2 ^ 34)) 63 0, 20, 63, la (ex 3 (qe (wd 0x11 (2 ^ 34)) 63 0)) {}, by decide⟩,
   ⟨(run (la (ex 3 (qe (wd 0x11 (2 ^ 34)) 63 0)) {})).setSem 63 { holder := some 5 }, a0, qe (wd 0x11 (2 ^ 34)) 63 0, 20, 63, 5, la (ex 3 (qe (wd 0x11 (2 ^ 34)) 63 0)) {}, by decide⟩,
   ⟨run { la (ex 3 (qe (wd 0x12 (2 ^ 34)) 63 0)) {} with sems := [63] }, a0, qe (wd 0x12 (2 ^ 34)) 63 0, 20, 63, { la (ex 3 (qe (wd 0x12 (2 ^ 34)) 63 0)) {} with sems := [63] }, by decide⟩,
   ⟨(run { la {} {} with semWait := some (63, wd 0x11 (2 ^ 34)) }).setSem (semKey 0 63) { waiters := [20] }, 0, 63, 20, [], { la {} {} with semWait := some (63, wd 0x11 (2 ^ 34)) }, by decide, by decide, by decide, by decide, by decide, by rintro w ⟨⟩; decide⟩,
   ⟨(run { la {} {} with sems := [63] }).setSem (semKey 0 63) { holder := some 20 }, 0, 63, 20, { la {} {} with sems := [63] }, by decide⟩,
   ⟨((run { la {} {} with sems := [63] }).setSem (semKey 0 63) { holder := some 20 }).modCtx 1 fun x => { x with fabric := false }, 0, 63, 20, { la {} {} with sems := [63] }, by decide⟩⟩

theorem test_meets_VectorArithmetic :
    (∃ (s : State) (a : SlotId) (h : QEntry) (id : Nat) (l : Launch), ∃ e ∈ intRows a,
      s.leaves a 1 h id l = true ∧
      isOp e.1 h.word = true) ∧
    (∃ (s : State) (a : SlotId) (h : QEntry) (id : Nat) (l : Launch), ∃ e ∈ floatRows a,
      s.leaves a 1 h id l = true ∧
      isOp e.1 h.word = true) ∧
    (∃ (s : State) (a : SlotId) (h : QEntry) (id : Nat) (l : Launch),
      s.leaves a 1 h id l = true ∧
      isOp 0x63 h.word = true) ∧
    (∃ (s : State) (a : SlotId) (h : QEntry) (id : Nat) (l : Launch),
      s.leaves a 1 h id l = true ∧
      isOp 0x64 h.word = true) ∧
    (∃ (s : State) (a : SlotId) (h : QEntry) (id : Nat) (l : Launch),
      s.leaves a 1 h id l = true ∧
      isOp 0x65 h.word = true) ∧
    (∃ (s : State) (a : SlotId) (h : QEntry) (id : Nat) (l : Launch),
      s.leaves a 1 h id l = true ∧
      isOp 0x66 h.word = true) ∧
    (∃ (s : State) (a : SlotId) (h : QEntry) (id : Nat) (l : Launch), ∃ e ∈ specialRows a,
      s.leaves a 1 h id l = true ∧
      isOp e.1 h.word = true) :=
  ⟨⟨run (la (ex 1 (qe (wd 0x68 0) 0 0)) {}), a0, qe (wd 0x68 0) 0 0, 20, la (ex 1 (qe (wd 0x68 0) 0 0)) {}, _, List.mem_cons_self, by decide,
     by decide⟩,
   ⟨run (la (ex 1 (qe (wd 0x60 0) 0 0)) {}), a0, qe (wd 0x60 0) 0 0, 20, la (ex 1 (qe (wd 0x60 0) 0 0)) {}, _, List.mem_cons_self, by decide,
     by decide⟩,
   ⟨run (la (ex 1 (qe (wd 0x63 0) 0 0)) {}), a0, qe (wd 0x63 0) 0 0, 20, la (ex 1 (qe (wd 0x63 0) 0 0)) {}, by decide⟩,
   ⟨run (la (ex 1 (qe (wd 0x64 0) 0 0)) {}), a0, qe (wd 0x64 0) 0 0, 20, la (ex 1 (qe (wd 0x64 0) 0 0)) {}, by decide⟩,
   ⟨run (la (ex 1 (qe (wd 0x65 0) 0 0)) {}), a0, qe (wd 0x65 0) 0 0, 20, la (ex 1 (qe (wd 0x65 0) 0 0)) {}, by decide⟩,
   ⟨run (la (ex 1 (qe (wd 0x66 0) 0 0)) {}), a0, qe (wd 0x66 0) 0 0, 20, la (ex 1 (qe (wd 0x66 0) 0 0)) {}, by decide⟩,
   ⟨run (la (ex 1 (qe (wd 0x79 0) 0 0)) {}), a0, qe (wd 0x79 0) 0 0, 20, la (ex 1 (qe (wd 0x79 0) 0 0)) {}, _, List.mem_cons_self, by decide,
     by decide⟩⟩

theorem test_meets_VectorMovesAndPredicates :
    (∃ (s : State) (a : SlotId) (h : QEntry) (id : Nat) (l : Launch),
      s.leaves a 1 h id l = true ∧
      isOp 0x74 h.word = true ∧
      fld h.word 29 27 < 4) ∧
    (∃ (s : State) (a : SlotId) (h : QEntry) (id : Nat) (l : Launch),
      s.leaves a 1 h id l = true ∧
      isOp 0x75 h.word = true ∧
      fld h.word 29 27 < 4) ∧
    (∃ (s : State) (a : SlotId) (h : QEntry) (id : Nat) (l : Launch),
      s.leaves a 1 h id l = true ∧
      isOp 0x75 h.word = true ∧
      4 ≤ fld h.word 29 27) ∧
    (∃ (s : State) (a : SlotId) (h : QEntry) (id : Nat) (l : Launch),
      s.leaves a 1 h id l = true ∧
      isOp 0x78 h.word = true ∧
      fld h.word 32 30 = 0) ∧
    (∃ (s : State) (a : SlotId) (h : QEntry) (id : Nat) (l : Launch),
      s.leaves a 1 h id l = true ∧
      isOp 0x78 h.word = true ∧
      fld h.word 32 30 = 1) ∧
    (∃ (s : State) (a : SlotId) (h : QEntry) (id : Nat) (l : Launch),
      s.leaves a 1 h id l = true ∧
      isOp 0x7F h.word = true) ∧
    (∃ (s : State) (a : SlotId) (h : QEntry) (id : Nat) (l : Launch), ∃ e ∈ reduceRows a,
      s.leaves a 1 h id l = true ∧
      isOp e.1 h.word = true) ∧
    (∃ (s : State) (a : SlotId) (h : QEntry) (id : Nat) (l : Launch),
      s.leaves a 1 h id l = true ∧
      isOp 0x83 h.word = true) ∧
    (∃ (s : State) (a : SlotId) (h : QEntry) (id : Nat) (l : Launch),
      s.leaves a 1 h id l = true ∧
      isOp 0x84 h.word = true) ∧
    (∃ (s : State) (a : SlotId) (h : QEntry) (id : Nat) (l : Launch),
      s.leaves a 1 h id l = true ∧
      isOp 0x85 h.word = true) ∧
    (∃ (s : State) (a : SlotId) (h : QEntry) (id : Nat) (l : Launch),
      s.leaves a 1 h id l = true ∧
      isOp 0x8C h.word = true ∧
      fmtMX (fld h.word 29 25) = true) ∧
    (∃ (s : State) (a : SlotId) (h : QEntry) (id : Nat) (l : Launch),
      s.leaves a 1 h id l = true ∧
      isOp 0x90 h.word = true) ∧
    (∃ (s : State) (a : SlotId) (h : QEntry) (id : Nat) (l : Launch),
      s.leaves a 1 h id l = true ∧
      isOp 0x91 h.word = true) ∧
    (∃ (s : State) (a : SlotId) (h : QEntry) (id : Nat) (l : Launch),
      s.leaves a 1 h id l = true ∧
      isOp 0x92 h.word = true) :=
  ⟨⟨run (la (ex 1 (qe (wd 0x74 0) 0 0)) {}), a0, qe (wd 0x74 0) 0 0, 20, la (ex 1 (qe (wd 0x74 0) 0 0)) {}, by decide⟩,
   ⟨run (la (ex 1 (qe (wd 0x75 (3 * 2 ^ 27)) 0 0)) {}), a0, qe (wd 0x75 (3 * 2 ^ 27)) 0 0, 20, la (ex 1 (qe (wd 0x75 (3 * 2 ^ 27)) 0 0)) {},
     by decide⟩,
   ⟨run (la (ex 1 (qe (wd 0x75 (4 * 2 ^ 27)) 0 0)) {}), a0, qe (wd 0x75 (4 * 2 ^ 27)) 0 0, 20, la (ex 1 (qe (wd 0x75 (4 * 2 ^ 27)) 0 0)) {},
     by decide⟩,
   ⟨run (la (ex 1 (qe (wd 0x78 0) 0 0)) {}), a0, qe (wd 0x78 0) 0 0, 20, la (ex 1 (qe (wd 0x78 0) 0 0)) {}, by decide⟩,
   ⟨run (la (ex 1 (qe (wd 0x78 (2 ^ 30)) 0 0)) {}), a0, qe (wd 0x78 (2 ^ 30)) 0 0, 20, la (ex 1 (qe (wd 0x78 (2 ^ 30)) 0 0)) {}, by decide⟩,
   ⟨run (la (ex 1 (qe (wd 0x7F 0) 0 0)) {}), a0, qe (wd 0x7F 0) 0 0, 20, la (ex 1 (qe (wd 0x7F 0) 0 0)) {}, by decide⟩,
   ⟨run (la (ex 1 (qe (wd 0x80 0) 0 0)) {}), a0, qe (wd 0x80 0) 0 0, 20, la (ex 1 (qe (wd 0x80 0) 0 0)) {}, _, List.mem_cons_self, by decide,
     by decide⟩,
   ⟨run (la (ex 1 (qe (wd 0x83 0) 0 0)) {}), a0, qe (wd 0x83 0) 0 0, 20, la (ex 1 (qe (wd 0x83 0) 0 0)) {}, by decide⟩,
   ⟨run (la (ex 1 (qe (wd 0x84 0) 0 0)) {}), a0, qe (wd 0x84 0) 0 0, 20, la (ex 1 (qe (wd 0x84 0) 0 0)) {}, by decide⟩,
   ⟨run (la (ex 1 (qe (wd 0x85 0) 0 0)) {}), a0, qe (wd 0x85 0) 0 0, 20, la (ex 1 (qe (wd 0x85 0) 0 0)) {}, by decide⟩,
   ⟨run (la (ex 1 (qe (wd 0x8C (0x0E * 2 ^ 25)) 0 0)) {}), a0, qe (wd 0x8C (0x0E * 2 ^ 25)) 0 0, 20, la (ex 1 (qe (wd 0x8C (0x0E * 2 ^ 25)) 0 0)) {}, by decide⟩,
   ⟨run (la (ex 1 (qe (wd 0x90 0) 0 0)) {}), a0, qe (wd 0x90 0) 0 0, 20, la (ex 1 (qe (wd 0x90 0) 0 0)) {}, by decide⟩,
   ⟨run (la (ex 1 (qe (wd 0x91 0) 0 0)) {}), a0, qe (wd 0x91 0) 0 0, 20, la (ex 1 (qe (wd 0x91 0) 0 0)) {}, by decide⟩,
   ⟨run (la (ex 1 (qe (wd 0x92 0) 0 0)) {}), a0, qe (wd 0x92 0) 0 0, 20, la (ex 1 (qe (wd 0x92 0) 0 0)) {}, by decide⟩⟩

theorem test_meets_VectorStoreAccess :
    (∃ (s : State) (a : SlotId) (h : QEntry) (id : Nat) (n : Nat) (off : Nat) (l : Launch),
      s.leaves a 1 h id l = true ∧
      isOp 0x88 h.word = true ∧
      fld h.word 34 30 = n ∧
      h.sv (fld h.word 40 35) + 64 * fld h.word 29 10 = off ∧
      0 < n ∧
      n ≤ 16 ∧
      off % 64 = 0 ∧
      off + 64 * n ≤ (s.allotSpan a.engine l.ctx).2) ∧
    (∃ (s : State) (a : SlotId) (h : QEntry) (id : Nat) (n : Nat) (off : Nat) (l : Launch),
      s.leaves a 1 h id l = true ∧
      isOp 0x89 h.word = true ∧
      fld h.word 34 30 = n ∧
      h.sv (fld h.word 40 35) + 64 * fld h.word 29 10 = off ∧
      n ≤ 16 ∧
      off % 64 = 0 ∧
      off + 64 * n ≤ (s.allotSpan a.engine l.ctx).2 ∧
      (l.x.regs.getV (fld h.word 45 41)).length = 256) ∧
    (∃ (s : State) (a : SlotId) (h : QEntry) (id : Nat) (l : Launch) (p : RowSpan),
      s.leaves a 1 h id l = true ∧
      isOp 0x8A h.word = true ∧
      rowSpan ⟨a.engine, a.slot, id, l, h⟩ false = some p ∧
      p.offset + (p.n * fmtBits p.d.fmt + 7) / 8 ≤ (s.allotSpan a.engine l.ctx).2) ∧
    (∃ (s : State) (a : SlotId) (h : QEntry) (id : Nat) (l : Launch) (p : RowSpan),
      s.leaves a 1 h id l = true ∧
      isOp 0x8B h.word = true ∧
      rowSpan ⟨a.engine, a.slot, id, l, h⟩ true = some p ∧
      p.offset + (p.n * fmtBits p.d.fmt + 7) / 8 ≤ (s.allotSpan a.engine l.ctx).2 ∧
      (l.x.regs.getV (fld h.word 45 41)).length = 256) :=
  ⟨⟨run (la (ex 1 (qe (wd 0x88 (16 * 2 ^ 30)) 0 0)) {}), a0, qe (wd 0x88 (16 * 2 ^ 30)) 0 0, 20, 16, 0, la (ex 1 (qe (wd 0x88 (16 * 2 ^ 30)) 0 0)) {}, by decide⟩,
   ⟨run (la (ex 1 (qe (wd 0x89 (16 * 2 ^ 30)) 0 0)) {}), a0, qe (wd 0x89 (16 * 2 ^ 30)) 0 0, 20, 16, 0, la (ex 1 (qe (wd 0x89 (16 * 2 ^ 30)) 0 0)) {}, by decide, by decide, by decide, by decide, by decide, by decide, by decide, by decide +kernel⟩,
   ⟨run (la (ex 1 (qe (wd 0x8A 0) 0 (td 7 4 1 0))) {}), a0, qe (wd 0x8A 0) 0 (td 7 4 1 0), 20, la (ex 1 (qe (wd 0x8A 0) 0 (td 7 4 1 0))) {}, _,
     by decide, by decide, rfl, by decide⟩,
   ⟨run (la (ex 1 (qe (wd 0x8B 0) 0 (td 7 4 1 0))) {}), a0, qe (wd 0x8B 0) 0 (td 7 4 1 0), 20, la (ex 1 (qe (wd 0x8B 0) 0 (td 7 4 1 0))) {}, _,
     by decide, by decide, rfl, by decide, by decide +kernel⟩⟩

theorem test_meets_TensorInstructions :
    (∃ (s : State) (a : SlotId) (h : QEntry) (id : Nat) (j : Nat) (b : Nat) (n0 : Nat) (c : Nat) (l : Launch) (d : TDesc) (sd : TDesc) (cols : List (List Nat × List Nat × Viol)),
      s.leaves a 0 h id l = true ∧
      isOp 0x20 h.word = true ∧
      fld h.word 45 44 = j ∧
      fld h.word 43 43 = b ∧
      h.tv (fld h.word 42 39) = d ∧
      h.scaleOf d = sd ∧
      fld (h.sv (fld h.word 38 33)) 63 32 = n0 ∧
      fld (h.sv (fld h.word 38 33)) 31 0 = c ∧
      l.here j = true ∧
      l.x.loadAny j = false ∧
      l.x.passAny j (fun _ u => d.fmt == 9 || u == b) = false ∧
      j < l.desc.arrays ∧
      operandOk l d sd fmtStationary = true ∧
      chunkHeld l d sd c = true ∧
      n0 < d.dim1 ∧
      cols = ((List.range (min (nstat d.fmt) (d.dim1 - n0))).map fun i => s.readChunk a.engine l.ctx l.desc.k d sd (n0 + i) c) ∧
      (∀ r ∈ cols, r.2.2.lines = 0) ∧
      d.fmt ≠ 2 ∧
      d.fmt ≠ 9) ∧
    (∃ (s : State) (a : SlotId) (h : QEntry) (id : Nat) (j : Nat) (b : Nat) (n0 : Nat) (c : Nat) (l : Launch) (d : TDesc) (sd : TDesc) (cols : List (List Nat × List Nat × Viol)),
      s.leaves a 0 h id l = true ∧
      isOp 0x20 h.word = true ∧
      fld h.word 45 44 = j ∧
      fld h.word 43 43 = b ∧
      h.tv (fld h.word 42 39) = d ∧
      h.scaleOf d = sd ∧
      fld (h.sv (fld h.word 38 33)) 63 32 = n0 ∧
      fld (h.sv (fld h.word 38 33)) 31 0 = c ∧
      l.here j = true ∧
      l.x.loadAny j = false ∧
      l.x.passAny j (fun _ u => d.fmt == 9 || u == b) = false ∧
      j < l.desc.arrays ∧
      operandOk l d sd fmtStationary = true ∧
      chunkHeld l d sd c = true ∧
      n0 < d.dim1 ∧
      cols = ((List.range (min (nstat d.fmt) (d.dim1 - n0))).map fun i => s.readChunk a.engine l.ctx l.desc.k d sd (n0 + i) c) ∧
      (∀ r ∈ cols, r.2.2.lines = 0) ∧
      d.fmt ≠ 2 ∧
      d.fmt = 9) ∧
    (∃ (s : State) (a : SlotId) (h : QEntry) (id : Nat) (l : Launch) (p : Pass) (pi : PairInfo),
      s.leaves a 0 h id l = true ∧
      isOp 0x21 h.word = true ∧
      passOf ⟨a.engine, a.slot, id, l, h⟩ = p ∧
      l.here p.j = true ∧
      ((l.x.arr p.j).buf p.buf).loading = false ∧
      ((l.x.arr p.j).bank p.bank).busy = false ∧
      pairInfo ((l.x.arr p.j).buf p.buf).fmt p.d.fmt p.wx = some pi ∧
      p.j < l.desc.arrays ∧
      operandOk l p.d p.sd fmtStreamed = true ∧
      chunkHeld l p.d p.sd p.c = true ∧
      p.c < l.desc.chunks ∧
      p.m0 + p.m ≤ p.d.dim1 ∧
      p.r0 + p.m ≤ pi.rows ∧
      ((l.x.arr p.j).buf p.buf).loaded = true ∧
      p.halves (l.x.arr p.j) = true ∧
      p.accepted l.desc ((l.x.arr p.j).bank p.bank) ((l.x.arr p.j).buf p.buf).fmt (p.cols (l.x.arr p.j) pi) = true ∧
      l.desc.k ≠ 0 ∧
      p.m = 0) ∧
    (∃ (s : State) (a : SlotId) (h : QEntry) (id : Nat) (l : Launch) (p : Pass) (pi : PairInfo),
      s.leaves a 0 h id l = true ∧
      isOp 0x21 h.word = true ∧
      passOf ⟨a.engine, a.slot, id, l, h⟩ = p ∧
      l.here p.j = true ∧
      ((l.x.arr p.j).buf p.buf).loading = false ∧
      ((l.x.arr p.j).bank p.bank).busy = false ∧
      pairInfo ((l.x.arr p.j).buf p.buf).fmt p.d.fmt p.wx = some pi ∧
      p.j < l.desc.arrays ∧
      operandOk l p.d p.sd fmtStreamed = true ∧
      chunkHeld l p.d p.sd p.c = true ∧
      p.c < l.desc.chunks ∧
      p.m0 + p.m ≤ p.d.dim1 ∧
      p.r0 + p.m ≤ pi.rows ∧
      ((l.x.arr p.j).buf p.buf).loaded = true ∧
      p.halves (l.x.arr p.j) = true ∧
      p.accepted l.desc ((l.x.arr p.j).bank p.bank) ((l.x.arr p.j).buf p.buf).fmt (p.cols (l.x.arr p.j) pi) = true ∧
      l.desc.k ≠ 0 ∧
      p.m ≠ 0) ∧
    (∃ (s : State) (a : SlotId) (h : QEntry) (id : Nat) (j : Nat) (b : Nat) (l : Launch) (ds : TDesc) (dx : TDesc),
      s.leaves a 0 h id l = true ∧
      isOp 0x22 h.word = true ∧
      fld h.word 45 44 = j ∧
      fld h.word 43 43 = b ∧
      h.tv (fld h.word 42 39) = ds ∧
      h.tv (fld h.word 38 35) = dx ∧
      l.here j = true ∧
      l.x.bankQuiet j b = true ∧
      j < l.desc.arrays ∧
      operandOk l ds (h.scaleOf ds) fmtStationary = true ∧
      operandOk l dx (h.scaleOf dx) fmtStreamed = true ∧
      pairWide ds.fmt dx.fmt = true ∧
      ((l.x.arr j).bank b).state = .empty ∧
      allScales l ds (h.scaleOf ds) = true ∧
      allScales l dx (h.scaleOf dx) = true ∧
      fld (h.sv (fld h.word 34 29)) 47 32 ≠ 0 ∧
      fld (h.sv (fld h.word 28 23)) 47 32 ≠ 0) ∧
    (∃ (s : State) (a : SlotId) (h : QEntry) (id : Nat) (i : Nat) (j : Nat) (bi : Nat) (bj : Nat) (l : Launch) (u : Nat × Nat) (v : Nat × Nat),
      s.leaves a 0 h id l = true ∧
      isOp 0x23 h.word = true ∧
      fld h.word 45 44 = i ∧
      fld h.word 42 41 = j ∧
      fld h.word 43 43 = bi ∧
      fld h.word 40 40 = bj ∧
      l.here i = true ∧
      l.here j = true ∧
      l.x.bankQuiet i bi = true ∧
      l.x.bankQuiet j bj = true ∧
      i < l.desc.arrays ∧
      j < l.desc.arrays ∧
      ((l.x.arr i).bank bi).whole l.desc = some u ∧
      ((l.x.arr j).bank bj).whole l.desc = some v ∧
      ((l.x.arr i).bank bi).sameAs ((l.x.arr j).bank bj) = true ∧
      siblings l.desc.spans u.1 u.2 v.1 v.2 = true) ∧
    (∃ (s : State) (a : SlotId) (h : QEntry) (id : Nat) (j : Nat) (b : Nat) (l : Launch) (d : TDesc),
      s.leaves a 0 h id l = true ∧
      isOp 0x24 h.word = true ∧
      fld h.word 45 44 = j ∧
      fld h.word 43 43 = b ∧
      h.tv (fld h.word 41 38) = d ∧
      l.here j = true ∧
      l.x.bankQuiet j b = true ∧
      j < l.desc.arrays ∧
      j < l.x.arrs.length ∧
      outputOk d = true ∧
      d.space = false ∧
      ((l.x.arr j).bank b).whole l.desc = some (0, l.desc.spans - 1) ∧
      outAllowed ((l.x.arr j).bank b).fam d.fmt = true ∧
      (bit h.word 42 = true → ((l.x.arr j).bank b).wx = false) ∧
      (∀ p ∈ outRows d (h.sv (fld h.word 37 32)) ((l.x.arr j).bank b).rows ((l.x.arr j).bank b).row, p.1 + p.2.length * (fmtBits d.fmt / 8) ≤ (s.allotSpan a.engine l.ctx).2)) ∧
    (∃ (s : State) (a : SlotId) (h : QEntry) (id : Nat) (j : Nat) (b : Nat) (l : Launch),
      s.leaves a 0 h id l = true ∧
      isOp 0x25 h.word = true ∧
      fld h.word 45 44 = j ∧
      fld h.word 43 43 = b ∧
      l.here j = true ∧
      l.x.bankQuiet j b = true ∧
      j < l.desc.arrays) ∧
    (∃ (s : State) (a : SlotId) (h : QEntry) (id : Nat) (j : Nat) (b : Nat) (u : Nat) (v : Nat) (dst : Nat) (l : Launch),
      s.leaves a 0 h id l = true ∧
      isOp 0x26 h.word = true ∧
      fld h.word 45 44 = j ∧
      fld h.word 43 43 = b ∧
      h.sv (fld h.word 32 27) = dst ∧
      l.here j = true ∧
      l.x.bankQuiet j b = true ∧
      j < l.desc.arrays ∧
      outputOk (h.tv (fld h.word 42 39)) = true ∧
      dst < 2 ^ 32 ∧
      fld dst 15 8 = 0 ∧
      (fld dst 7 0 < 16 → fld dst 7 0 < s.build.engines ∧ (h.tv (fld h.word 42 39)).space = false) ∧
      (16 ≤ fld dst 7 0 → fld dst 7 0 < 16 + s.islands ∧ (h.tv (fld h.word 42 39)).space = true) ∧
      ((l.x.arr j).bank b).whole l.desc = some (u, v) ∧
      s.reachable (fld dst 31 16) = true) :=
  ⟨⟨run (ta (ex 0 (qe (wd 0x20 0) 0 (td 1 128 1 0))) {} 128), a0, qe (wd 0x20 0) 0 (td 1 128 1 0), 20, 0, 0, 0, 0, ta (ex 0 (qe (wd 0x20 0) 0 (td 1 128 1 0))) {} 128, _, _, _, by decide, by decide, by decide, by decide, rfl, rfl, by decide, by decide, by decide, by decide, by decide, by decide, by decide, by decide, by decide, rfl, by decide, by decide, by decide⟩,
   ⟨run (ta (ex 0 (qe (wd 0x20 0) 0 (td 9 128 1 0))) {} 128), a0, qe (wd 0x20 0) 0 (td 9 128 1 0), 20, 0, 0, 0, 0, ta (ex 0 (qe (wd 0x20 0) 0 (td 9 128 1 0))) {} 128, _, _, _, by decide, by decide, by decide, by decide, rfl, rfl, by decide, by decide, by decide, by decide, by decide, by decide, by decide, by decide, by decide, rfl, by decide, by decide, by decide⟩,
   ⟨run (ta (ex 0 (qe (wd 0x21 (2 ^ 31)) 0 (td 1 128 1 0))) { w0 := wt } 128), a0, qe (wd 0x21 (2 ^ 31)) 0 (td 1 128 1 0), 20, ta (ex 0 (qe (wd 0x21 (2 ^ 31)) 0 (td 1 128 1 0))) { w0 := wt } 128, _, _, by decide +kernel, by decide, rfl, by decide, by decide, by decide, rfl, by decide, by decide, by decide, by decide, by decide, by decide, by decide, by decide, by decide, by decide, by decide⟩,
   ⟨run (ta (ex 0 (qe (wd 0x21 (2 ^ 31)) (2 ^ 32) (td 1 128 1 0))) { w0 := wt } 128), a0, qe (wd 0x21 (2 ^ 31)) (2 ^ 32) (td 1 128 1 0), 20, ta (ex 0 (qe (wd 0x21 (2 ^ 31)) (2 ^ 32) (td 1 128 1 0))) { w0 := wt } 128, _, _, by decide +kernel, by decide, rfl, by decide, by decide, by decide, rfl, by decide, by decide, by decide, by decide, by decide, by decide, by decide, by decide, by decide, by decide, by decide⟩,
   ⟨run (ta (ex 0 (qe (wd 0x22 (2 ^ 29 + 2 ^ 23)) (2 ^ 32) (td 5 128 1 0))) {} 128), a0, qe (wd 0x22 (2 ^ 29 + 2 ^ 23)) (2 ^ 32) (td 5 128 1 0), 20, 0, 0, ta (ex 0 (qe (wd 0x22 (2 ^ 29 + 2 ^ 23)) (2 ^ 32) (td 5 128 1 0))) {} 128, _, _, by decide, by decide, by decide, by decide, rfl, rfl, by decide, by decide, by decide, by decide, by decide, by decide, by decide, by decide, by decide, by decide, by decide⟩,
   ⟨run (ta (ex 0 (qe (wd 0x23 (2 ^ 40)) 0 0)) { b0 := bk 0, b1 := bk 1 } 256), a0, qe (wd 0x23 (2 ^ 40)) 0 0, 20, 0, 0, 0, 1, ta (ex 0 (qe (wd 0x23 (2 ^ 40)) 0 0)) { b0 := bk 0, b1 := bk 1 } 256, (0, 0), (1, 1), by decide⟩,
   ⟨run (ta (ex 0 (qe (wd 0x24 0) 0 (td 0x11 1 1 0))) { b0 := bk 0 } 128), a0, qe (wd 0x24 0) 0 (td 0x11 1 1 0), 20, 0, 0, ta (ex 0 (qe (wd 0x24 0) 0 (td 0x11 1 1 0))) { b0 := bk 0 } 128, _, by decide, by decide, by decide, by decide, rfl, by decide, by decide, by decide, by decide, by decide, by decide, by decide, by decide, by decide, by decide⟩,
   ⟨run (ta (ex 0 (qe (wd 0x25 0) 0 0)) {} 128), a0, qe (wd 0x25 0) 0 0, 20, 0, 0, ta (ex 0 (qe (wd 0x25 0) 0 0)) {} 128, by decide⟩,
   ⟨run (ta (ex 0 (qe (wd 0x26 (2 ^ 27)) 0xFFFF0000 (td 0x11 1 1 0))) { b0 := bk 0 } 128), a0, qe (wd 0x26 (2 ^ 27)) 0xFFFF0000 (td 0x11 1 1 0), 20, 0, 0, 0, 0, 0xFFFF0000, ta (ex 0 (qe (wd 0x26 (2 ^ 27)) 0xFFFF0000 (td 0x11 1 1 0))) { b0 := bk 0 } 128, by decide⟩⟩

theorem test_meets_MoveInstructions :
    (∃ (s : State) (a : SlotId) (h : QEntry) (id : Nat) (l : Launch) (d : TDesc) (t : TDesc),
      s.leaves a 2 h id l = true ∧
      isOp 0x40 h.word = true ∧
      h.tv (fld h.word 44 41) = d ∧
      h.tv (fld h.word 40 37) = t ∧
      fmtDefined d.fmt = true ∧
      fmtDefined t.fmt = true ∧
      d.aligned = true ∧
      t.aligned = true ∧
      (d.space && t.space) = false ∧
      d.dim1 = t.dim1 ∧
      d.rowBytes = t.rowBytes ∧
      d.dim1 ≠ 0 ∧
      t.rowBytes ≠ 0) ∧
    (∃ (s : State) (a : SlotId) (h : QEntry) (id : Nat) (l : Launch) (d : TDesc),
      s.leaves a 2 h id l = true ∧
      isOp 0x41 h.word = true ∧
      h.tv (fld h.word 44 41) = d ∧
      fmtDefined d.fmt = true ∧
      d.aligned = true ∧
      d.dim1 ≠ 0 ∧
      d.rowBytes ≠ 0) ∧
    (∃ (s : State) (a : SlotId) (h : QEntry) (id : Nat) (l : Launch) (d : TDesc),
      s.leaves a 2 h id l = true ∧
      isOp 0x41 h.word = true ∧
      h.tv (fld h.word 44 41) = d ∧
      fmtDefined d.fmt = true ∧
      d.aligned = true ∧
      (d.dim1 = 0 ∨ d.rowBytes = 0)) ∧
    (∃ (s : State) (a : SlotId) (h : QEntry) (id : Nat) (l : Launch) (d : TDesc) (t : TDesc) (i : TDesc),
      s.leaves a 2 h id l = true ∧
      isOp 0x42 h.word = true ∧
      h.tv (fld h.word 44 41) = d ∧
      h.tv (fld h.word 40 37) = t ∧
      h.tv (fld h.word 36 33) = i ∧
      fmtDefined d.fmt = true ∧
      fmtDefined t.fmt = true ∧
      d.aligned = true ∧
      t.aligned = true ∧
      (d.space && t.space) = false ∧
      i.fmt = 0x10 ∧
      i.dim1 = 1 ∧
      i.space = false ∧
      i.aligned = true ∧
      d.dim1 = i.dim0 ∧
      d.rowBytes = t.rowBytes ∧
      d.dim1 ≠ 0 ∧
      t.rowBytes ≠ 0) ∧
    (∃ (s : State) (a : SlotId) (id : Nat) (n : Nat) (off : Nat) (k : Nat) (l : Launch) (f : InFlight) (m : MoveJob) (d : TDesc),
      s.up = true ∧
      s.inSlot a = some (id, l) ∧
      l.segStop = none ∧
      l.capWait = none ∧
      l.recovery = false ∧
      l.status ≠ .starting ∧
      l.x.inflight[n]? = some f ∧
      f.eff = .move m ∧
      f.signal = none ∧
      l.x.moverBusy n m.dm = false ∧
      m.kind = 0x41 ∧
      TDesc.ofBits m.dst = d ∧
      d.space = false ∧
      m.rows = 1 ∧
      m.row = 0 ∧
      m.done = 0 ∧
      m.counted = false ∧
      d.addr + m.sod = off ∧
      off < 2 ^ 64 ∧
      d.rowBytes = k ∧
      off + k ≤ (s.allotSpan a.engine l.ctx).2) :=
  ⟨⟨run (la (ex 2 (qe (wd 0x40 0) 0 (td 0x10 1 1 0))) {}), a0, qe (wd 0x40 0) 0 (td 0x10 1 1 0), 20, la (ex 2 (qe (wd 0x40 0) 0 (td 0x10 1 1 0))) {}, _, _, by decide, by decide, rfl, rfl, by decide, by decide, by decide, by decide, by decide, by decide, by decide, by decide, by decide⟩,
   ⟨run (la (ex 2 (qe (wd 0x41 0) 0 (td 0x10 1 1 0))) {}), a0, qe (wd 0x41 0) 0 (td 0x10 1 1 0), 20, la (ex 2 (qe (wd 0x41 0) 0 (td 0x10 1 1 0))) {}, _, by decide, by decide, rfl, by decide, by decide, by decide, by decide⟩,
   ⟨run (la (ex 2 (qe (wd 0x41 0) 0 (td 0x10 1 0 0))) {}), a0, qe (wd 0x41 0) 0 (td 0x10 1 0 0), 20, la (ex 2 (qe (wd 0x41 0) 0 (td 0x10 1 0 0))) {}, _, by decide, by decide, rfl, by decide, by decide, by decide⟩,
   ⟨run (la (ex 2 (qe (wd 0x42 0) 0 (td 0x10 1 1 0))) {}), a0, qe (wd 0x42 0) 0 (td 0x10 1 1 0), 20, la (ex 2 (qe (wd 0x42 0) 0 (td 0x10 1 1 0))) {}, _, _, _, by decide, by decide, rfl, rfl, rfl, by decide, by decide, by decide, by decide, by decide, by decide, by decide, by decide, by decide, by decide, by decide, by decide, by decide⟩,
   ⟨run (fl (.move { kind := 0x41, dm := 0, src := 0, dst := td 0x10 1 1 0, rows := 1 })), a0, 20, 0, 0, 4, fl (.move { kind := 0x41, dm := 0, src := 0, dst := td 0x10 1 1 0, rows := 1 }), ⟨.move { kind := 0x41, dm := 0, src := 0, dst := td 0x10 1 1 0, rows := 1 }, none⟩, { kind := 0x41, dm := 0, src := 0, dst := td 0x10 1 1 0, rows := 1 }, _, by decide, by decide, by decide, by decide, by decide, by decide, by decide, by decide, by decide, by decide, by decide, rfl, by decide, by decide, by decide, by decide, by decide, by decide, by decide, by decide, by decide⟩⟩

theorem test_meets_CompletionPoints :
    (∃ (s : State) (a : SlotId) (id : Nat) (n : Nat) (j : Nat) (b : Nat) (w : Nat) (r0 : Nat) (l : Launch) (f : InFlight) (starts : Bool) (ri : Bool) (sums : List (List AccSt)),
      s.up = true ∧
      s.inSlot a = some (id, l) ∧
      l.x.oldestPass j = some (n, f) ∧
      f.eff = .pass j b w r0 starts sums ri ∧
      f.signal = none ∧
      j < l.x.arrs.length) ∧
    (∃ (s : State) (a : SlotId) (id : Nat) (n : Nat) (j : Nat) (b : Nat) (w : Nat) (r0 : Nat) (l : Launch) (f : InFlight) (starts : Bool) (sums : List (List AccSt)),
      s.up = true ∧
      s.inSlot a = some (id, l) ∧
      l.x.oldestPass j = some (n, f) ∧
      f.eff = .pass j b w r0 starts sums false) ∧
    (∃ (s : State) (a : SlotId) (id : Nat) (n : Nat) (j : Nat) (b : Nat) (l : Launch) (f : InFlight),
      s.up = true ∧
      s.inSlot a = some (id, l) ∧
      l.segStop = none ∧
      l.capWait = none ∧
      l.recovery = false ∧
      l.status ≠ .starting ∧
      l.x.inflight[n]? = some f ∧
      f.signal = none ∧
      f.eff = .load j b false) ∧
    (∃ (s : State) (a : SlotId) (id : Nat) (n : Nat) (j : Nat) (b : Nat) (l : Launch) (f : InFlight),
      s.up = true ∧
      s.inSlot a = some (id, l) ∧
      l.segStop = none ∧
      l.capWait = none ∧
      l.recovery = false ∧
      l.status ≠ .starting ∧
      l.x.inflight[n]? = some f ∧
      f.signal = none ∧
      f.eff = .drain j b) ∧
    (∃ (s : State) (a : SlotId) (id : Nat) (n : Nat) (j : Nat) (b : Nat) (l : Launch) (f : InFlight) (dest : W64) (p : Partial),
      s.up = true ∧
      s.inSlot a = some (id, l) ∧
      l.segStop = none ∧
      l.capWait = none ∧
      l.recovery = false ∧
      l.status ≠ .starting ∧
      l.x.inflight[n]? = some f ∧
      f.signal = none ∧
      f.eff = .send j b dest p ∧
      l.redo = [] ∧
      l.done = [] ∧
      fld dest.toNat 7 0 < 16 ∧
      fld dest.toNat 31 16 = 0xFFFF ∧
      j < l.x.arrs.length) ∧
    (∃ (s : State) (a : SlotId) (id : Nat) (n : Nat) (off : Nat) (q : Nat) (ss : Nat) (l : Launch) (f : InFlight) (t0 : State),
      s.up = true ∧
      s.inSlot a = some (id, l) ∧
      l.segStop = none ∧
      l.capWait = none ∧
      l.recovery = false ∧
      l.status ≠ .starting ∧
      l.x.inflight[n]? = some f ∧
      f.signal = none ∧
      f.eff = .enqueue off q ss ∧
      q < 8 ∧
      l.redo = [] ∧
      l.done = [] ∧
      ss ≠ 0 ∧
      off + 16 ≤ (s.allotSpan a.engine l.ctx).2 ∧
      ahead32 ((s.ctx l.ctx).queue q).head ((s.ctx l.ctx).queue q).tail + 16 ≤ 2 ^ ((s.ctx l.ctx).queue q).sizeLog2 ∧
      s.writeLine ⟨l.ctx, 5, ⟨0, 0⟩, []⟩ l.segRefused (((s.ctx l.ctx).queue q).ringVa + ((s.ctx l.ctx).queue q).tail % 2 ^ ((s.ctx l.ctx).queue q).sizeLog2) (mreadN (s.engine a.engine).store ((s.allotSpan a.engine l.ctx).1 + off) 16) = .done t0 false) ∧
    (∃ (s : State) (e : Nat) (p : Partial) (rest : List Partial),
      s.up = true ∧
      (s.engine e).state ≠ 4 ∧
      (s.engine e).inbox = p :: rest ∧
      s.tagLive p.owner = true ∧
      (∀ q ∈ (s.engine e).held, p.mates q = false) ∧
      p.whole = false ∧
      p.leftOf p = false) :=
  ⟨⟨run (fl (.pass 0 0 0 0 true [] false)), a0, 20, 0, 0, 0, 0, 0, fl (.pass 0 0 0 0 true [] false), ⟨.pass 0 0 0 0 true [] false, none⟩, true, false, [], by decide⟩,
   ⟨run (fl (.pass 0 0 0 0 true [] false)), a0, 20, 0, 0, 0, 0, 0, fl (.pass 0 0 0 0 true [] false), ⟨.pass 0 0 0 0 true [] false, none⟩, true, [], by decide⟩,
   ⟨run (fl (.load 0 0 false)), a0, 20, 0, 0, 0, fl (.load 0 0 false), ⟨.load 0 0 false, none⟩, by decide⟩,
   ⟨run (fl (.drain 0 0)), a0, 20, 0, 0, 0, fl (.drain 0 0), ⟨.drain 0 0, none⟩, by decide⟩,
   ⟨run (fl (.send 0 0 (BitVec.ofNat 64 0xFFFF0000) par)), a0, 20, 0, 0, 0, fl (.send 0 0 (BitVec.ofNat 64 0xFFFF0000) par), ⟨.send 0 0 (BitVec.ofNat 64 0xFFFF0000) par, none⟩, BitVec.ofNat 64 0xFFFF0000, par, by decide⟩,
   ⟨run (fl (.enqueue 0 0 1)), a0, 20, 0, 0, 0, 1, fl (.enqueue 0 0 1), ⟨.enqueue 0 0 1, none⟩, _, by decide, by decide, by decide, by decide,
     by decide, by decide, by decide, by decide, by decide, by decide, by decide, by decide, by decide, by decide,
     by decide, wrote_of (by decide +kernel)⟩,
   ⟨{ lit with engines := [(0, { state := 1, inbox := [par] })] }, 0, par, [], by decide⟩⟩

theorem test_meets_SlotLife :
    (∃ (s : State) (a : SlotId) (id : Nat) (l : Launch) (r : ReadRes),
      s.up = true ∧
      s.inSlot a = some (id, l) ∧
      l.status = .running ∧
      l.x.wordAt = none ∧
      l.x.held = false ∧
      l.qwait = none ∧
      l.segStop = none ∧
      l.owedMem = 0 ∧
      l.owedHost = 0 ∧
      s.readVa (s.whoLaunch l 2) l.segRefused (l.x.pc - l.x.pc % 64) 64 = r ∧
      r.stop = none ∧
      r.viol.lines = 0) ∧
    (∃ (s : State) (a : SlotId) (id : Nat) (j : Nat) (l : Launch),
      s.up = true ∧
      s.inSlot a = some (id, l) ∧
      j < l.x.arrs.length ∧
      (l.x.arr j).resident = false ∧
      (∀ k, k < l.x.arrs.length → l.phys k = l.phys j → l.x.arrayQuiet k = true)) ∧
    (∃ (s : State) (a : SlotId) (id : Nat) (l : Launch),
      s.up = true ∧
      s.inSlot a = some (id, l) ∧
      l.stop = none) ∧
    (∃ (s : State) (a : SlotId) (id : Nat) (n : Nat) (l : Launch),
      s.up = true ∧
      s.inSlot a = some (id, l) ∧
      l.place = .slot a.engine a.slot ∧
      l.stop = some .preempt ∧
      l.x.arrs = [] ∧
      l.x.inflight = [] ∧
      l.qwait = none ∧
      s.freePark a.engine = some n) ∧
    (∃ (s : State) (a : SlotId) (id : Nat) (l : Launch),
      s.up = true ∧
      s.inSlot a = some (id, l) ∧
      (l.stop = some .abort ∨ l.stop = some .lost)) ∧
    (∃ (s : State) (a : SlotId) (id : Nat) (l : Launch),
      s.up = true ∧
      s.inSlot a = some (id, l) ∧
      l.place = .slot a.engine a.slot ∧
      l.status = .stopping ∧
      l.x.inflight = []) ∧
    (∃ (s : State) (a : SlotId) (id : Nat) (n : Nat) (l : Launch),
      s.up = true ∧
      s.inSlot a = some (id, l) ∧
      l.place = .slot a.engine a.slot ∧
      l.status = .waiting ∧
      s.canWake l = false ∧
      s.freePark a.engine = some n) ∧
    (∃ (s : State) (e : Nat) (k : Nat) (n : Nat) (p : Park) (l : Launch) (bound : List Nat) (fold : Option (Nat × Nat)),
      s.up = true ∧
      tfind (s.engine e).parks k = some p ∧
      s.freeSlotOf e = some n ∧
      tfind s.launches p.launch = some l ∧
      l.place = .parked e k ∧
      s.canWake l = true ∧
      s.bindFor e l.desc.arrays = some (bound, fold) ∧
      (s.ctx l.ctx).state = .live ∧
      (s.ctx l.ctx).sched.rslot.isSome = true ∧
      (s.ctx l.ctx).sched.switchingOut = false ∧
      (s.ctx l.ctx).lostHold = false ∧
      s.engineWorks e = true ∧
      (∀ q, l.qwait = some q → q.2.2 = none)) ∧
    (∃ (s : State) (e : Nat) (n : Nat) (r : Scrub),
      s.up = true ∧
      (s.engine e).scrubs[n]? = some r) :=
  ⟨⟨run (la {} { readSegs := 1 }), a0, 20, la {} { readSegs := 1 }, _, by decide, by decide, by decide, by decide, by decide, by decide,
     by decide, by decide, by decide, rfl, by decide, by decide⟩,
   ⟨run { la { ({} : Exec) with arrs := [{}, { resident := false }] } { arrays := 2 } with bound := [0, 0] }, a0, 20, 1, { la { ({} : Exec) with arrs := [{}, { resident := false }] } { arrays := 2 } with bound := [0, 0] }, by decide⟩,
   ⟨run (la {} {}), a0, 20, la {} {}, by decide⟩,
   ⟨run { la {} {} with stop := some .preempt }, a0, 20, 0, { la {} {} with stop := some .preempt }, by decide⟩,
   ⟨run { la {} {} with stop := some .abort }, a0, 20, { la {} {} with stop := some .abort }, by decide⟩,
   ⟨run { la {} {} with status := .stopping }, a0, 20, { la {} {} with status := .stopping }, by decide⟩,
   ⟨run { la {} {} with status := .waiting, qwait := some (1, 2, none) }, a0, 20, 0, { la {} {} with status := .waiting, qwait := some (1, 2, none) }, by decide⟩,
   ⟨{ lit with launches := [(20, { la {} {} with status := .waiting, qwait := some (1, 2, none), place := .parked 0 0, stopWait := true })], engines := [(0, { state := 1, parks := [(0, ⟨1, 0, 1, 20⟩)] })] }, 0, 0, 0, ⟨1, 0, 1, 20⟩, { la {} {} with status := .waiting, qwait := some (1, 2, none), place := .parked 0 0, stopWait := true }, [], none, by decide, by decide, by decide, by decide, by decide, by decide, by decide, by decide, by decide, by decide, by decide, by decide, by simp⟩,
   ⟨lit.setEngine 0 { state := 1, scrubs := [⟨0, 4⟩] }, 0, 0, ⟨0, 4⟩, by decide⟩⟩

theorem test_meets_CaptureAndReplay :
    (∃ (s : State) (a : SlotId) (id : Nat) (b : Nat) (slot : Nat) (at_ : Nat) (host : Bool) (l : Launch),
      s.up = true ∧
      s.inSlot a = some (id, l) ∧
      l.capWait = some b ∧
      l.recovery = false ∧
      s.undoFree l.ctx = some slot ∧
      s.blockPhys l.ctx b = some (host, at_)) ∧
    (∃ (s : State) (a : SlotId) (id : Nat) (b : Nat) (at_ : Nat) (host : Bool) (l : Launch),
      s.up = true ∧
      s.inSlot a = some (id, l) ∧
      l.capWait = some b ∧
      l.recovery = false ∧
      s.undoFree l.ctx = none ∧
      s.blockPhys l.ctx b = some (host, at_)) ∧
    (∃ (s : State) (a : SlotId) (id : Nat) (l : Launch),
      s.up = true ∧
      s.inSlot a = some (id, l) ∧
      l.recovery = true ∧
      l.x.inflight = [] ∧
      l.capWait = none) ∧
    (∃ (s : State) (a : SlotId) (id : Nat) (l : Launch),
      s.up = true ∧
      s.inSlot a = some (id, l) ∧
      l.place = .slot a.engine a.slot ∧
      l.stop = some .failed ∧
      (s.ctx l.ctx).state = .live) ∧
    (∃ (s : State) (id : Nat) (l : Launch),
      s.up = true ∧
      tfind s.launches id = some l ∧
      l.restoring = true ∧
      l.sems = [] ∧
      l.captures = [] ∧
      l.allotCaps = [] ∧
      l.place = .waiting) ∧
    (∃ (s : State) (id : Nat) (b : Nat) (slot : Nat) (at_ : Nat) (l : Launch),
      s.up = true ∧
      tfind s.launches id = some l ∧
      l.restoring = true ∧
      l.sems = [] ∧
      l.captures = [⟨b, some slot⟩] ∧
      s.blockPhys l.ctx b = some (false, at_)) ∧
    (∃ (s : State) (a : SlotId) (id : Nat) (l : Launch),
      s.up = true ∧
      s.inSlot a = some (id, l) ∧
      l.deadlocked = true ∧
      (s.ctx l.ctx).state = .live ∧
      (s.ctx l.ctx).fault.code = 0) :=
  ⟨⟨(run { la {} {} with capWait := some 0 }).modCtx 1 fun x => { x with undo := { object := mkHandle 3 1 9, base := 16 * 65536, slots := 2 } }, a0, 20, 0, 0, 0, false, { la {} {} with capWait := some 0 }, by decide⟩,
   ⟨(run { la {} {} with capWait := some 0 }).modCtx 1 fun x => { x with undo := { object := mkHandle 3 1 9, base := 16 * 65536, slots := 0 } }, a0, 20, 0, 0, false, { la {} {} with capWait := some 0 }, by decide⟩,
   ⟨(run { la {} {} with recovery := true }).modCtx 1 fun x => { x with undo := { object := mkHandle 3 1 9, base := 16 * 65536, slots := 2 } }, a0, 20, { la {} {} with recovery := true }, by decide⟩,
   ⟨(run { la {} {} with stop := some .failed }).modCtx 1 fun x => { x with undo := { object := mkHandle 3 1 9, base := 16 * 65536, slots := 2 } }, a0, 20, { la {} {} with stop := some .failed }, by decide⟩,
   ⟨(run { la {} {} with restoring := true, place := .waiting }).modCtx 1 fun x => { x with undo := { object := mkHandle 3 1 9, base := 16 * 65536, slots := 2 } }, 20, { la {} {} with restoring := true, place := .waiting }, by decide⟩,
   ⟨(run { la {} {} with restoring := true, captures := [⟨0, some 1⟩] }).modCtx 1 fun x => { x with undo := { object := mkHandle 3 1 9, base := 16 * 65536, slots := 2 } }, 20, 0, 1, 0, { la {} {} with restoring := true, captures := [⟨0, some 1⟩] }, by decide⟩,
   ⟨run (la { ex 3 (qe (wd 2 (2 ^ 55 + 5 * 2 ^ 40)) 0 0) with line := some (0, bytesLE 8 (wd 4 (5 * 2 ^ 34)) ++ List.replicate 56 0) } {}), a0, 20, la { ex 3 (qe (wd 2 (2 ^ 55 + 5 * 2 ^ 40)) 0 0) with line := some (0, bytesLE 8 (wd 4 (5 * 2 ^ 34)) ++ List.replicate 56 0) } {}, by decide⟩⟩

theorem test_meets_DispatchAndContextSwitch :
    (∃ (s : State) (p : Nat) (c : Nat) (k : Nat) (e : Nat) (n : Nat) (m : Cmd) (d : Desc) (bound : List Nat) (fold : Option (Nat × Nat)),
      s.up = true ∧
      s.paused p = false ∧
      s.scheduleRuns p = false ∧
      ((s.look p).dispatchable p).filter (fun c => ((s.look p).launchesOf c).any fun e => e.2.replayed && (s.look p).canResume e.2) = [] ∧
      minBy (s.look p).vtime ((s.look p).dispatchable p) = some c ∧
      (s.look p).foreignOne c = none ∧
      (s.look p).choose c = .workgroup k e ∧
      tfind (s.look p).cmds k = some m ∧
      m.ctx = c ∧
      m.desc.bind ((s.look p).nativeDesc m) = some d ∧
      (s.look p).allotPlan c e = some .held ∧
      (s.look p).freeSlotOf e = some n ∧
      (s.look p).bindFor e d.arrays = some (bound, fold) ∧
      (∀ x ∈ (s.look p).launches, x.1 < (s.look p).nextId) ∧
      (∀ x ∈ ((s.look p).engine e).slots, x.2 < (s.look p).nextId)) ∧
    (∃ (s : State) (p : Nat) (c : Nat) (d : Nat) (e : Nat) (n : Nat) (id : Nat) (l : Launch),
      s.up = true ∧
      (s.part p).state ≠ 0 ∧
      (s.part p).static = false ∧
      s.paused p = false ∧
      ((s.look p).ctxsOf p).filter (fun c => (s.look p).resident c && (s.look p).schedState c == 3 && (match ((s.look p).ctx c).sched.waitingSince with | none => false | some t => decide (t + (s.part p).timesliceMs * nsPerMs ≤ s.now))) = [c] ∧
      maxBy (s.look p).vtime (((s.look p).ctxsOf ((s.look p).ctx c).part).filter fun d => d ≠ c && !(s.look p).sheltered d && ((s.look p).fesOf d).isEmpty && ((s.look p).launchesOf d).any fun e => match e.2.place with | .slot .. => true | _ => false) = some d ∧
      (s.look p).vtime c < (s.look p).vtime d ∧
      maxBy (fun e => e.2.startSeq) ((s.look p).runningOn d []) = some (id, l) ∧
      l.place = .slot e n ∧
      (∀ c ∈ ((s.look p).setLaunch id { l with stop := some .preempt }).ctxsOf p, ((s.look p).setLaunch id { l with stop := some .preempt }).schedState c ≠ 1)) ∧
    (∃ (s : State) (p : Nat) (w : Nat) (c : Nat),
      s.up = true ∧
      (s.part p).state ≠ 0 ∧
      (s.part p).static = false ∧
      s.paused p = false ∧
      ((s.look p).ctxsOf p).filter (fun c => (s.look p).resident c && (s.look p).schedState c == 3 && (match ((s.look p).ctx c).sched.waitingSince with | none => false | some t => decide (t + (s.part p).timesliceMs * nsPerMs ≤ s.now))) = [] ∧
      ((s.look p).ctxsOf p).filter (fun c => (s.look p).schedState c == 1) = [w] ∧
      ((s.look p).freeRslot p).isSome = true ∧
      maxBy (s.look p).vtime (((s.look p).ctxsOf p).filter fun c => (s.look p).resident c && (s.look p).schedState c == 3 && !(s.look p).sheltered c && ((s.look p).fesOf c).isEmpty) = some c) ∧
    (∃ (s : State) (p : Nat) (e : Nat) (c : Nat) (rest : List Nat),
      s.up = true ∧
      (s.part p).static = false ∧
      (s.part p).engines = e :: rest ∧
      ((s.dispatchable p).any fun c => s.wantsSlot c && (e :: rest).all fun e => (s.allotPlan c e).isNone) = true ∧
      maxBy (fun c => ((s.allotOf e c).map fun a => a.2.size).getD 0) (((s.ctxsOf p).filter fun c => s.resident c && (s.schedState c == 2 || s.schedState c == 4) && ((s.allotOf e c).map fun a => a.2.size).getD 0 != 0).reverse) = some c) ∧
    (∃ (s : State) (p : Nat) (c : Nat),
      s.up = true ∧
      ((s.look p).ctxsOf p).any (fun c => (s.look p).schedState c == 1) = true ∧
      (s.look p).freeRslot p = none ∧
      minBy (fun c => ((s.look p).ctx c).acct.lastProgress) (((s.look p).ctxsOf p).filter fun c => (s.look p).resident c && (s.look p).schedState c == 2 && !(s.look p).sheltered c) = some c) ∧
    (∃ (s : State) (p : Nat) (v : BitVec 64),
      s.up = true ∧
      s.decodes .pf = true ∧
      s.fwRuns = true ∧
      p < s.build.partitions ∧
      1 ≤ fld v.toNat 15 0 ∧ fld v.toNat 15 0 ≤ 1000) ∧
    (∃ (s : State) (p : Nat) (v : BitVec 64),
      s.up = true ∧
      s.decodes .pf = true ∧
      s.fwRuns = true ∧
      p < s.build.partitions ∧
      (fld v.toNat 15 0 = 0 ∨ 1000 < fld v.toNat 15 0)) ∧
    (∃ (s : State) (c : Nat) (k : Nat),
      s.up = true ∧
      (s.ctx c).state = .live ∧
      (s.ctx c).sched.rslot = some k ∧
      (s.ctx c).sched.switchingOut = false ∧
      (∀ e ∈ s.launches, e.2.ctx ≠ c) ∧
      (∀ e ∈ s.cmds, e.2.ctx ≠ c) ∧
      s.fesOf c = []) ∧
    (∃ (s : State) (c : Nat),
      s.up = true ∧
      (s.ctx c).sched.switchingOut = true ∧
      (s.ctx c).sched.rslot = none) ∧
    (∃ (s : State) (c : Nat) (k : Nat),
      s.up = true ∧
      s.schedState c = 1 ∧
      s.paused (s.ctx c).part = false ∧
      s.standIn c = some (c, false) ∧
      s.freeRslot (s.ctx c).part = some k ∧
      s.resident c = false ∧
      (s.ctx c).lostHold = false) ∧
    (∃ (s : State) (c : Nat) (e : Nat) (i : Nat) (r : SaveRec) (a : Allot),
      s.up = true ∧
      (s.ctx c).sched.saved.find? (fun r => r.into == some e) = some r ∧
      s.allotOf e c = some (i, a) ∧
      (s.engine e).scrubbing a.base r.units = false ∧
      Memory.wf r.cells = true ∧
      (∀ b ∈ r.cells, b.1 < r.units * unitBytes)) :=
  ⟨⟨{ lit with nextId := 30, cmds := [(3, { cm 2 with desc := some { workgroups := 1 } })] }, 0, 1, 3, 0, 0, { cm 2 with desc := some { workgroups := 1 } }, _, [], none, by decide, by decide, by decide, by decide, by decide, by decide, by decide, by decide, by decide, rfl, by decide, by decide, by decide, by decide, by decide⟩,
   ⟨{ (pair (fun x => { x with acct := { x.acct with vtime := 10 ^ 9 } }) inSlot1 open2) with launches := [(20, la {} {})], engines := (run (la {} {})).engines }, 0, 2, 1, 0, 0, 20, _, by decide, by decide, by decide, by decide, by decide, by decide, by decide, rfl, by decide, by decide⟩,
   ⟨{ (pair id rung []) with launches := [(20, la {} {})], engines := (run (la {} {})).engines }, 0, 2, 1, by decide⟩,
   ⟨pair id (fun x => inSlot1 { x with allotUnits := 4 }) open2, 0, 0, 1, [1], by decide⟩,
   ⟨(pair id rung []).setPart 0 { lit.part 0 with rslots := 1 }, 0, 1, by decide⟩,
   ⟨lit, 15, 1000, by decide⟩,
   ⟨lit, 15, 1001, by decide⟩,
   ⟨lit, 1, 0, by decide⟩,
   ⟨lit.modCtx 1 fun x => { x with sched := { x.sched with switchingOut := true, rslot := none } }, 1, by decide⟩,
   ⟨pair id rung [], 2, _, by decide, by decide, by decide, by decide, rfl, by decide, by decide⟩,
   ⟨lit.modCtx 1 fun x => { x with sched := { x.sched with saved := [⟨0, 4, [(5, 1)], [], some 0⟩] } }, 1, 0, 0, ⟨0, 4, [(5, 1)], [], some 0⟩, { owner := 1, base := 0, size := 4, state := .live }, by decide⟩⟩

theorem test_meets_PartitionPrograms :
    (∃ (s : State) (v : BitVec 64),
      s.decodes .pf = true ∧
      s.fwRuns = true ∧
      s.wmb.busy = false ∧
      s.sage.wardenDown = false ∧
      s.lc.busy = false ∧
      fld v.toNat 9 0 ≠ 0 ∧
      fld v.toNat 9 0 ≤ 512 ∧
      s.wmb.prescan (fld v.toNat 9 0) = none) ∧
    (∃ (s : State),
      s.decodes .pf = true ∧
      s.fwRuns = true ∧
      s.wmb.busy = true) ∧
    (∃ (s : State) (w : Nat) (p : Nat),
      s.stages 0xC0 w = true ∧
      wPart w = p ∧
      p < s.build.partitions ∧
      (s.wmb.shadow.part p).state = 0 ∧
      s.scheduleRuns p = false) ∧
    (∃ (s : State) (w : Nat) (p : Nat),
      s.stages 0xC0 w = true ∧
      wPart w = p ∧
      p < s.build.partitions ∧
      (s.wmb.shadow.part p).state ≠ 0) ∧
    (∃ (s : State) (w : Nat) (p : Nat),
      s.stagesPart 0xC1 w p = true ∧
      s.partHasCtx p = false) ∧
    (∃ (s : State) (w : Nat) (p : Nat),
      s.stagesPart 0xC1 w p = true ∧
      s.partHasCtx p = true) ∧
    (∃ (s : State) (w : Nat) (p : Nat) (us : List Nat) (f : List Nat) (h : List Nat),
      s.stagesPart 0xC2 w p = true ∧
      unitMask s.build.engines (fld w 15 0) = some us ∧
      assign (wRelease w) (some us) s.wmb.shadow.freeEngines (s.wmb.shadow.part p).engines = .ok (f, h)) ∧
    (∃ (s : State) (w : Nat) (p : Nat) (us : List Nat),
      s.stagesPart 0xC2 w p = true ∧
      wRelease w = false ∧
      unitMask s.build.engines (fld w 15 0) = some us ∧
      us.all s.wmb.shadow.freeEngines.contains = false) ∧
    (∃ (s : State) (w : Nat) (p : Nat) (us : List Nat) (f : List Nat) (h : List Nat),
      s.stagesPart 0xC3 w p = true ∧
      fld w 18 16 < s.build.chipletPorts ∧
      unitMask 16 (fld w 15 0) = some us ∧
      assign (wRelease w) (some (us.map (16 * fld w 18 16 + ·))) s.wmb.shadow.freeForeign (s.wmb.shadow.part p).foreign = .ok (f, h)) ∧
    (∃ (s : State) (w : Nat) (p : Nat) (us : List Nat) (f : List Nat) (h : List Nat),
      s.stagesPart 0xC4 w p = true ∧
      s.hasObjects p = false ∧
      unitMask s.build.channels (fld w 31 0) = some us ∧
      assign (wRelease w) (some us) s.wmb.shadow.freeChannels (s.wmb.shadow.part p).channels = .ok (f, h)) ∧
    (∃ (s : State) (w : Nat) (p : Nat) (us : List Nat) (f : List Nat) (h : List Nat),
      s.stagesPart 0xC5 w p = true ∧
      unitMask s.build.ways (fld w 31 0) = some us ∧
      assign (wRelease w) (some us) s.wmb.shadow.freeWays (s.wmb.shadow.part p).ways = .ok (f, h)) ∧
    (∃ (s : State) (w : Nat) (p : Nat),
      s.stagesPart 0xC6 w p = true ∧
      wRelease w = false ∧
      (s.wmb.shadow.parts.any fun e => e.1 != p && e.2.vfs.contains (fld w 5 0)) = false ∧
      s.vfHasCtx (fld w 5 0) = false ∧
      (s.wmb.shadow.part p).state = 1) ∧
    (∃ (s : State) (w : Nat) (p : Nat),
      s.stagesPart 0xC7 w p = true ∧
      fld w 8 0 ≤ 256 ∧
      (fld w 47 40 = 0x20 ∨ fld w 47 40 < s.build.fabricPorts)) ∧
    (∃ (s : State) (w : Nat) (p : Nat),
      s.stagesPart 0xC8 w p = true ∧
      fld w 15 0 ≤ 2480) ∧
    (∃ (s : State) (w : Nat) (p : Nat),
      s.stagesPart 0xC9 w p = true ∧
      bit w 0 = false ∧
      1 ≤ fld w 23 16 ∧
      fld w 23 16 ≤ 100 ∧
      (s.wmb.shadow.part p).state = 1) ∧
    (∃ (s : State) (w : Nat) (p : Nat),
      s.stagesPart 0xC9 w p = true ∧
      bit w 0 = true ∧
      fld w 23 16 = 0 ∧
      (s.wmb.shadow.part p).validated = false ∧
      (s.wmb.shadow.part p).state = 1) ∧
    (∃ (s : State) (w : Nat) (p : Nat),
      s.stagesPart 0xCA w p = true ∧
      (bit w 0 = true → s.build.validatedSharing = true ∧ (s.wmb.shadow.part p).static = false) ∧
      (s.wmb.shadow.part p).state = 1) ∧
    (∃ (s : State) (w : Nat) (p : Nat),
      s.stagesPart 0xCB w p = true ∧
      fld w 28 16 ≤ 4096 ∧
      fld w 5 0 ≤ s.build.ctxSlots ∧
      (s.ctxs.filter fun e => e.2.state != .free && e.2.part == p).length ≤ fld w 28 16) ∧
    (∃ (s : State) (w : Nat),
      s.stages 0xCC w = true ∧
      fld w 51 49 = 1 ∧
      wRelease w = false ∧
      (maskBits 32 (fld w 31 0)).all s.wmb.shadow.freeEngines.contains = true) ∧
    (∃ (s : State) (w : Nat) (p : Nat),
      s.stagesPart 0xCD w p = true ∧
      (s.wmb.shadow.part p).state = 1 ∧
      s.maySeal = true) ∧
    (∃ (s : State) (w : Nat) (p : Nat),
      s.stagesPart 0xCD w p = true ∧
      s.maySeal = false) ∧
    (∃ (s : State) (w : Nat),
      s.stages 0xCF w = true) ∧
    (∃ (s : State) (w : Nat),
      s.stages 0xCE w = true ∧
      s.commitCode = 0) ∧
    (∃ (s : State) (w : Nat),
      s.stages 0xCE w = true ∧
      s.commitCode ≠ 0) ∧
    (∃ (s : State),
      s.blocks = [] ∧
      s.lc.busy = false ∧
      s.sx = []) :=
  ⟨⟨{ lit with wmb := { program := [(0, wd 0xCE 0)] } }, 1, by decide⟩,
   ⟨prog 0, by decide⟩,
   ⟨prog (wd 0xC0 (4 * 2 ^ 52)), wd 0xC0 (4 * 2 ^ 52), 4, by decide⟩,
   ⟨prog (wd 0xC0 (3 * 2 ^ 52)), wd 0xC0 (3 * 2 ^ 52), 3, by decide⟩,
   ⟨prog (wd 0xC1 (3 * 2 ^ 52)), wd 0xC1 (3 * 2 ^ 52), 3, by decide⟩,
   ⟨prog (wd 0xC1 (0)), wd 0xC1 (0), 0, by decide⟩,
   ⟨prog (wd 0xC2 (3 * 2 ^ 52 + 4)), wd 0xC2 (3 * 2 ^ 52 + 4), 3, _, _, _, by decide, rfl, rfl⟩,
   ⟨prog (wd 0xC2 (3 * 2 ^ 52 + 32)), wd 0xC2 (3 * 2 ^ 52 + 32), 3, _, by decide, by decide, rfl, by decide⟩,
   ⟨prog (wd 0xC3 (3 * 2 ^ 52 + 2)), wd 0xC3 (3 * 2 ^ 52 + 2), 3, _, _, _, by decide, by decide, rfl, rfl⟩,
   ⟨prog (wd 0xC4 (3 * 2 ^ 52 + 2)), wd 0xC4 (3 * 2 ^ 52 + 2), 3, _, _, _, by decide, by decide, rfl, rfl⟩,
   ⟨prog (wd 0xC5 (3 * 2 ^ 52 + 16)), wd 0xC5 (3 * 2 ^ 52 + 16), 3, _, _, _, by decide, rfl, rfl⟩,
   ⟨prog (wd 0xC6 (3 * 2 ^ 52 + 5)), wd 0xC6 (3 * 2 ^ 52 + 5), 3, by decide⟩,
   ⟨prog (wd 0xC7 (3 * 2 ^ 52 + 32 * 2 ^ 40 + 256)), wd 0xC7 (3 * 2 ^ 52 + 32 * 2 ^ 40 + 256), 3, by decide⟩,
   ⟨prog (wd 0xC8 (3 * 2 ^ 52 + 2480)), wd 0xC8 (3 * 2 ^ 52 + 2480), 3, by decide⟩,
   ⟨prog (wd 0xC9 (3 * 2 ^ 52 + 100 * 2 ^ 16)), wd 0xC9 (3 * 2 ^ 52 + 100 * 2 ^ 16), 3, by decide⟩,
   ⟨prog (wd 0xC9 (3 * 2 ^ 52 + 1)), wd 0xC9 (3 * 2 ^ 52 + 1), 3, by decide⟩,
   ⟨prog (wd 0xCA (3 * 2 ^ 52 + 1)), wd 0xCA (3 * 2 ^ 52 + 1), 3, by decide⟩,
   ⟨prog (wd 0xCB (3 * 2 ^ 52 + 4096 * 2 ^ 16 + 48)), wd 0xCB (3 * 2 ^ 52 + 4096 * 2 ^ 16 + 48), 3, by decide⟩,
   ⟨prog (wd 0xCC (2 ^ 49 + 12)), wd 0xCC (2 ^ 49 + 12), by decide⟩,
   ⟨prog (wd 0xCD (3 * 2 ^ 52)), wd 0xCD (3 * 2 ^ 52), 3, by decide⟩,
   ⟨{ prog (wd 0xCD (3 * 2 ^ 52)) with lc := { raw := 1 } }, wd 0xCD (3 * 2 ^ 52), 3, by decide⟩,
   ⟨prog (wd 0xCF (0)), wd 0xCF (0), by decide⟩,
   ⟨{ lit with units := {}, wmb := { phase := .staging, busy := true, program := [(0, wd 0xCE 0)] } }, wd 0xCE 0, by decide⟩,
   ⟨prog (wd 0xCE (0)), wd 0xCE (0), by decide⟩,
   ⟨on, by decide⟩⟩

theorem test_meets_HandOver :
    (∃ (s : State) (e : Nat),
      s.up = true ∧
      s.wmb.phase = .handover ∧
      s.wmb.switched = false ∧
      s.leaving = [.engine e]) ∧
    (∃ (s : State) (p : Nat),
      s.up = true ∧
      s.wmb.phase = .handover ∧
      s.wmb.switched = false ∧
      s.leaving.all s.leftQuiet = true ∧
      s.wmb.named = [p] ∧
      (s.part p).state = 2 ∧
      (s.wmb.shadow.part p).state = 2 ∧
      (s.wmb.shadow.part p).keyed = true ∧
      (s.wmb.shadow.part p).unitsOf.all s.unitWorks = true ∧
      s.ctxs = [] ∧
      s.blocks = [] ∧
      s.lc.busy = false ∧
      s.sx = []) ∧
    (∃ (s : State) (e : Nat),
      s.up = true ∧
      s.wmb.phase = .handover ∧
      s.wmb.switched = true ∧
      s.wmb.handing = [.engine e] ∧
      s.blocks = [] ∧
      s.lc.busy = false ∧
      s.sx = []) :=
  ⟨⟨{ handing false with wmb := { (handing false).wmb with shadow := { parts := [(0, { lit.part 0 with engines := [1] })] } } }, 0, by decide⟩,
   ⟨handing false |> fun s => { s with units := { s.units with parts := [(0, { lit.part 0 with engines := [] })] }, wmb := { s.wmb with shadow := { parts := [(0, { lit.part 0 with engines := [] })] } } }, 0, by decide⟩,
   ⟨handing true, 0, by decide⟩⟩

theorem test_meets_SliceStatements :
    (∃ (s : State) (v : Nat) (p : Nat) (w : BitVec 64),
      s.decodes (.vf v) = true ∧
      bit w.toNat 0 = true ∧
      (s.vf v).stmt.busy = false ∧
      s.stmtPart v = some p) ∧
    (∃ (s : State) (v : Nat) (w : BitVec 64),
      s.decodes (.vf v) = true ∧
      bit w.toNat 0 = true ∧
      (s.vf v).stmt.busy = false ∧
      s.stmtPart v = none) ∧
    (∃ (s : State) (v : Nat) (p : Nat) (key : Nat),
      s.up = true ∧
      s.sage.wardenDown = false ∧
      s.fwRuns = true ∧
      s.wmb.stmtQueue.find? s.stmtReady = some v ∧
      s.stmtPart v = some p ∧
      s.identityKey = some key) :=
  ⟨⟨lit, 0, 0, 1, by decide⟩,
   ⟨lit, 3, 1, by decide⟩,
   ⟨{ lit with wmb := { stmtQueue := [0] } }, 0, 0, 0, by decide⟩⟩

theorem test_meets_ChipletPorts :
    (∃ (s : State) (port : Nat) (lanes : Nat),
      s.up = true ∧
      port < s.build.chipletPorts ∧
      s.fptStatus (.chipletPort port) = 9 ∧
      ((s.cp port).state = .down ∨ (s.cp port).state = .training) ∧
      (s.cp port).recovering = false ∧
      lanes ≠ 0) ∧
    (∃ (s : State) (port : Nat) (lanes : Nat),
      s.up = true ∧
      port < s.build.chipletPorts ∧
      s.fptStatus (.chipletPort port) = 9 ∧
      (s.cp port).state = .training ∧
      (s.cp port).recovering = true ∧
      lanes ≠ 0) ∧
    (∃ (s : State) (port : Nat) (m : CppMsg),
      s.up = true ∧
      (s.cp port).state = .handshake ∧
      (s.cp port).recovering = false ∧
      capsForm m = true ∧
      capsCase m = 0 ∧
      (m.data.getD 6 0).toNat = 1 ∧
      leAt m.data 0x10 2 ≠ 0 ∧
      (∀ q, q.fes = (s.cp port).fes → (s.setCp port q).feTotal < s.build.foreign) ∧
      (s.fe_ (16 * port)).state = 0) ∧
    (∃ (s : State) (port : Nat) (m : CppMsg),
      s.up = true ∧
      (s.cp port).state = .handshake ∧
      (s.cp port).recovering = false ∧
      capsForm m = true ∧
      capsCase m ≠ 0) ∧
    (∃ (s : State) (port : Nat) (m : CppMsg),
      s.up = true ∧
      (s.cp port).state = .handshake ∧
      capsForm m = false) ∧
    (∃ (s : State) (port : Nat),
      s.up = true ∧
      (s.cp port).state = .handshake ∧
      (s.cp port).recovering = false) ∧
    (∃ (s : State) (port : Nat),
      s.decodes .pf = true ∧
      s.fwRuns = true ∧
      (s.cp port).state = .quarantined ∧
      (s.cp port).quarCount < 4) ∧
    (∃ (s : State) (port : Nat),
      s.decodes .pf = true ∧
      4 ≤ (s.cp port).quarCount) ∧
    (∃ (s : State) (port : Nat) (f : Fe),
      (s.cp port).state = .up ∧
      (s.cp port).fes = [(0, f)] ∧
      f.state = 1 ∧
      f.cmd = none ∧
      f.step = none ∧
      s.units.parts = [] ∧
      port < 8) ∧
    (∃ (s : State),
      s.up = true) ∧
    (∃ (s : State) (port : Nat),
      s.up = true ∧
      ((s.cp port).state = .up ∨ (s.cp port).state = .handshake)) ∧
    (∃ (s : State) (port : Nat) (fe : Nat) (tag : BitVec 16),
      s.up = true ∧
      fe < 16 ∧
      (s.fe_ (16 * port + fe)).quiesceTag = some tag) ∧
    (∃ (s : State) (port : Nat) (tag : BitVec 16),
      s.up = true ∧
      (s.cp port).resetTag = some tag) ∧
    (∃ (s : State) (port : Nat),
      s.up = true ∧
      (s.cp port).state = .up ∧
      (s.cp port).txq ≠ []) ∧
    (∃ (s : State) (port : Nat),
      s.up = true ∧
      (s.cp port).state = .up ∧
      (s.cp port).fromChip.reqHdr = 0) :=
  ⟨⟨chip {}, 7, 1, by decide⟩,
   ⟨chip { state := .training, recovering := true }, 7, 1, by decide⟩,
   ⟨chip { state := .handshake }, 7, caps, by decide, by decide, by decide, by decide, by decide, by decide, by decide, fun q hq => by
      have h : q.fes = [] := hq
      simp [State.feTotal, State.setCp, chip, tput, h, lit, on, State.reset, Build.configA], by decide⟩,
   ⟨chip { state := .handshake }, 7, { caps with arg0 := 0 }, by decide⟩,
   ⟨chip { state := .handshake }, 7, { caps with fe := 1 }, by decide⟩,
   ⟨chip { state := .handshake }, 7, by decide⟩,
   ⟨chip { state := .quarantined, quarCount := 3 }, 7, by decide⟩,
   ⟨chip { quarCount := 4 }, 7, by decide⟩,
   ⟨{ chip { state := .up, fes := [(0, { state := 1 })] } with units := {} }, 7, { state := 1 }, by decide⟩,
   ⟨lit, by decide⟩,
   ⟨chip (cport .up), 7, by decide⟩,
   ⟨chip { fes := [(15, { quiesceTag := some 4 })] }, 7, 15, 4, by decide⟩,
   ⟨chip { resetTag := some 4 }, 7, 4, by decide⟩,
   ⟨chip { cport .up with txq := [(0x21, cppZero)] }, 7, by decide⟩,
   ⟨chip { cport .up with fromChip := ⟨0, 1, 1, 1⟩ }, 7, by decide⟩⟩

theorem test_meets_ChipletRequests :
    (∃ (s : State) (port : Nat),
      s.up = true ∧
      (s.cp port).state = .up ∧
      (s.cp port).txq = []) ∧
    (∃ (s : State) (port : Nat) (n : Nat) (fe : BitVec 8) (va : BitVec 64) (b : CpCredits) (c : CpCredits) (r : ReadRes),
      s.up = true ∧
      (s.cp port).state = .up ∧
      (s.cp port).fromChip.spend 1 0 = some b ∧
      fe.toNat < 16 ∧
      (s.fe_ (16 * port + fe.toNat)).state = 3 ∧
      (s.fe_ (16 * port + fe.toNat)).signals = [] ∧
      (s.cp port).held = [] ∧
      (s.cp port).txq = [] ∧
      n < 2 ^ 64 ∧
      linesOk va.toNat n = true ∧
      (s.cp port).toChip.spend 2 ((n + 3) / 4) = some c ∧
      s.readVa (s.whoFe (s.fe_ (16 * port + fe.toNat)) 8) [] va.toNat (64 * n) = r ∧
      r.stop = none ∧
      r.viol.lines = 0) ∧
    (∃ (s : State) (u : State) (port : Nat) (fe : BitVec 8) (va : BitVec 64) (ds : List Byte) (host : Bool) (b : CpCredits),
      s.up = true ∧
      (s.cp port).state = .up ∧
      (s.cp port).fromChip.spend 1 1 = some b ∧
      fe.toNat < 16 ∧
      (s.fe_ (16 * port + fe.toNat)).state = 3 ∧
      (s.fe_ (16 * port + fe.toNat)).signals = [] ∧
      (s.cp port).held = [] ∧
      (s.cp port).txq = [] ∧
      1 ≤ (s.cp port).toChip.rspHdr ∧
      ds.length = 64 ∧
      va.toNat % 64 = 0 ∧
      s.writeLine (s.whoFe (s.fe_ (16 * port + fe.toNat)) 9) [] va.toNat ds = .done u host ∧
      s.isJob (s.fe_ (16 * port + fe.toNat)).ctx = false) ∧
    (∃ (s : State) (port : Nat) (fe : BitVec 8) (h : BitVec 32) (b : CpCredits),
      s.up = true ∧
      (s.cp port).state = .up ∧
      (s.cp port).fromChip.spend 1 0 = some b ∧
      fe.toNat < 16 ∧
      (s.fe_ (16 * port + fe.toNat)).state = 3 ∧
      (s.fe_ (16 * port + fe.toNat)).signals = [] ∧
      (s.fe_ (16 * port + fe.toNat)).cmd = none ∧
      (s.cp port).held = [] ∧
      (s.cp port).txq = [] ∧
      h ≠ 0 ∧
      s.fenceValid (s.fe_ (16 * port + fe.toNat)).ctx h none = true) ∧
    (∃ (s : State) (port : Nat) (id : Nat) (fe : BitVec 8) (tag : BitVec 16) (b : CpCredits) (m : Cmd) (d : Desc),
      s.up = true ∧
      (s.cp port).state = .up ∧
      (s.cp port).fromChip.spend 1 0 = some b ∧
      fe.toNat < 16 ∧
      (s.fe_ (16 * port + fe.toNat)).state = 3 ∧
      (s.fe_ (16 * port + fe.toNat)).tag = tag ∧
      (s.cp port).held = [] ∧
      (s.fe_ (16 * port + fe.toNat)).cmd = some id ∧
      (s.fe_ (16 * port + fe.toNat)).step = none ∧
      (s.cp port).txq = [] ∧
      tfind s.cmds id = some m ∧
      m.isPacket = false ∧
      m.desc = some d ∧
      m.wgEnded + 1 < d.workgroups ∧
      (s.ctx m.ctx).state = .live) ∧
    (∃ (s : State) (port : Nat) (id : Nat) (fe : BitVec 8) (tag : BitVec 16) (b : CpCredits) (m : Cmd) (d : Desc),
      s.up = true ∧
      (s.cp port).state = .up ∧
      (s.cp port).fromChip.spend 1 0 = some b ∧
      fe.toNat < 16 ∧
      (s.fe_ (16 * port + fe.toNat)).state = 3 ∧
      (s.fe_ (16 * port + fe.toNat)).tag = tag ∧
      (s.cp port).held = [] ∧
      (s.fe_ (16 * port + fe.toNat)).cmd = some id ∧
      (s.fe_ (16 * port + fe.toNat)).step = none ∧
      (s.cp port).txq = [] ∧
      tfind s.cmds id = some m ∧
      m.isPacket = false ∧
      m.desc = some d ∧
      m.wgEnded + 1 = d.workgroups ∧
      m.op = 2 ∧
      m.foreign = [(16 * port + fe.toNat, (s.fe_ (16 * port + fe.toNat)).wg)] ∧
      s.cmdLaunches id = [] ∧
      m.code = 0 ∧
      (s.ctx m.ctx).state = .live) ∧
    (∃ (s : State) (port : Nat) (tag : BitVec 16) (h : CpHeld),
      s.up = true ∧
      (s.cp port).state = .up ∧
      (s.cp port).held = [h] ∧
      h.tag = tag ∧
      h.ready = true ∧
      (s.cp port).txq = [] ∧
      h.lines < 65 ∧
      1 ≤ (s.cp port).toChip.rspHdr ∧
      (h.lines + 3) / 4 ≤ (s.cp port).toChip.rspData) ∧
    (∃ (s : State) (port : Nat) (id : Nat) (tag : BitVec 16) (b : CpCredits),
      s.up = true ∧
      (s.cp port).state = .up ∧
      (s.cp port).fromChip.spend 2 0 = some b ∧
      (s.cp port).invals = [(tag, id)] ∧
      (s.cp port).txq = []) ∧
    (∃ (s : State) (port : Nat) (fe : BitVec 8) (tag : BitVec 16) (b : CpCredits),
      s.up = true ∧
      (s.cp port).state = .up ∧
      (s.cp port).fromChip.spend 2 0 = some b ∧
      fe.toNat < 16 ∧
      (s.fe_ (16 * port + fe.toNat)).state = 4 ∧
      (s.fe_ (16 * port + fe.toNat)).quiesceTag = some tag ∧
      (s.fe_ (16 * port + fe.toNat)).cmd = none ∧
      (s.fe_ (16 * port + fe.toNat)).step = none ∧
      (s.cp port).held = [] ∧
      (s.cp port).txq = []) ∧
    (∃ (s : State) (port : Nat) (tag : BitVec 16),
      s.up = true ∧
      (s.cp port).state = .up ∧
      (s.cp port).resetTag = some tag ∧
      (∀ f ∈ (s.cp port).fes, f.2.state ≠ 3 ∧ f.2.state ≠ 4)) :=
  ⟨⟨chip (cport .up), 7, by decide⟩,
   ⟨chip (cport .up), 7, 1, 15, 64, _, _, _, by decide, by decide, rfl, by decide, by decide, by decide, by decide, by decide, by decide,
     by decide, rfl, rfl, by decide, by decide⟩,
   ⟨chip (cport .up), _, 7, 15, 64, List.replicate 64 0, false, _, by decide, by decide, rfl, by decide, by decide, by decide, by decide,
     by decide, by decide, by decide, by decide, wrote_of (by decide +kernel), by decide⟩,
   ⟨chip (cport .up), 7, 15, mkHandle 4 1 7, _, by decide, by decide, rfl, by decide, by decide, by decide, by decide, by decide, by decide,
     by decide, by decide⟩,
   ⟨{ chip { cport .up with fes := [(15, { state := 3, function := 1, ctx := 1, tag := 9, cmd := some 3 })] } with cmds := [(3, { cm 2 with desc := some { workgroups := 2 } })] }, 7, 3, 15, 9, _, { cm 2 with desc := some { workgroups := 2 } }, _, by decide, by decide, rfl, by decide, by decide, by decide, by decide, by decide, by decide, by decide, by decide, rfl, rfl, by decide, by decide⟩,
   ⟨{ chip { cport .up with fes := [(15, { state := 3, function := 1, ctx := 1, tag := 9, cmd := some 3 })] } with cmds := [(3, { cm 2 with desc := some { workgroups := 1 }, foreign := [(127, 0)] })] }, 7, 3, 15, 9, _, { cm 2 with desc := some { workgroups := 1 }, foreign := [(127, 0)] }, _, by decide, by decide, rfl, by decide, by decide, by decide, by decide, by decide, by decide, by decide, by decide, rfl, rfl, by decide, by decide, by decide, by decide, by decide, by decide⟩,
   ⟨chip { cport .up with held := [{ fe := 15, tag := 9, isWrite := false, va := 64, lines := 1, data := [], ready := true }] }, 7, 9, { fe := 15, tag := 9, isWrite := false, va := 64, lines := 1, data := [], ready := true }, by decide⟩,
   ⟨chip { cport .up with invals := [(4, 5)] }, 7, 5, 4, _, by decide, by decide, rfl, by decide, by decide⟩,
   ⟨chip { cport .up with fes := [(15, { state := 4, quiesceTag := some 4 })] }, 7, 15, 4, _, by decide, by decide, rfl, by decide, by decide,
     by decide, by decide, by decide, by decide, by decide⟩,
   ⟨chip { state := .up, resetTag := some 4 }, 7, 4, by decide⟩⟩

theorem test_meets_FabricTraining :
    (∃ (s : State) (p : Nat),
      s.decodes .pf = true ∧
      s.mayTrain p = true ∧
      (s.fp p).state = .down) ∧
    (∃ (s : State) (p : Nat),
      (s.mayTrain p = false ∨ (s.fp p).state ≠ .down)) ∧
    (∃ (s : State) (p : Nat) (v : BitVec 64),
      s.decodes .pf = true ∧
      p < s.build.fabricPorts ∧
      bit v.toNat 1 = false) ∧
    (∃ (s : State) (p : Nat) (v : BitVec 64),
      s.decodes .pf = true ∧
      p < s.build.fabricPorts ∧
      bit v.toNat 1 = true) ∧
    (∃ (s : State) (p : Nat) (lanes : BitVec 8),
      s.up = true ∧
      p < s.build.fabricPorts ∧
      (s.fp p).state = .detect ∧
      4 ≤ (laneList (s.goodLanes p lanes)).length) ∧
    (∃ (s : State) (p : Nat) (lanes : BitVec 8),
      s.up = true ∧
      p < s.build.fabricPorts ∧
      (s.fp p).state = .equalise ∧
      4 ≤ (laneList (s.goodLanes p lanes)).length) ∧
    (∃ (s : State) (p : Nat) (n : Nat) (w : Nat) (lanes : BitVec 8) (common : List Nat),
      s.up = true ∧
      p < s.build.fabricPorts ∧
      (s.fp p).state = .align ∧
      laneList (BitVec.ofNat 8 (s.fp p).locked &&& lanes) = common ∧
      common.length = n ∧
      (w = 8 ∧ n = 8 ∨ w = 6 ∧ 6 ≤ n ∧ n < 8 ∨ w = 4 ∧ 4 ≤ n ∧ n < 6) ∧
      ((s.fp p).retraining = true → w ≤ (s.fp p).width)) ∧
    (∃ (s : State) (p : Nat),
      s.up = true ∧
      p < s.build.fabricPorts ∧
      (s.fp p).state = .detect) ∧
    (∃ (s : State) (p : Nat),
      s.up = true ∧
      p < s.build.fabricPorts ∧
      (s.fp p).state = .equalise) ∧
    (∃ (s : State) (p : Nat),
      s.up = true ∧
      p < s.build.fabricPorts ∧
      (s.fp p).state = .align) ∧
    (∃ (s : State) (p : Nat),
      s.up = true ∧
      p < s.build.fabricPorts ∧
      (s.fp p).state = .ident) ∧
    (∃ (s : State) (p : Nat),
      s.up = true ∧
      p < s.build.fabricPorts ∧
      (s.fp p).state ≠ .active) ∧
    (∃ (s : State) (p : Nat) (h : BitVec 16) (peer : PeerIdent),
      s.up = true ∧
      p < s.build.fabricPorts ∧
      (s.fp p).state = .ident ∧
      s.fab.idValid = true ∧
      peer.hub = some h ∧
      peer.major = blockRelease / 256 ∧
      peer.sizeClass = s.build.sizeClass ∧
      (s.build.fabricPorts = 8 → hubX h.toNat = 0 ∧ hubY h.toNat = 0) ∧
      wiredPeer s.build.fabricPorts s.fab.hubId p = some (h.toNat, peer.port) ∧
      (s.fp p).retraining = false) ∧
    (∃ (s : State) (p : Nat) (id : Nat) (h : BitVec 16) (peer : PeerIdent),
      s.up = true ∧
      p < s.build.fabricPorts ∧
      (s.fp p).state = .ident ∧
      s.fab.idValid = false ∧
      peer.hub = some h ∧
      peer.major = blockRelease / 256 ∧
      peer.sizeClass = s.build.sizeClass ∧
      (s.build.fabricPorts = 8 → hubX h.toNat = 0 ∧ hubY h.toNat = 0) ∧
      wiredPeer s.build.fabricPorts h.toNat peer.port = some (id, p) ∧
      wiredPeer s.build.fabricPorts id p = some (h.toNat, peer.port) ∧
      (s.fp p).retraining = false) ∧
    (∃ (s : State) (p : Nat) (h : BitVec 16) (peer : PeerIdent),
      s.up = true ∧
      p < s.build.fabricPorts ∧
      (s.fp p).state = .ident ∧
      s.fab.idValid = true ∧
      peer.hub = some h ∧
      peer.major = blockRelease / 256 ∧
      peer.sizeClass ≠ s.build.sizeClass) ∧
    (∃ (s : State) (p : Nat) (h : BitVec 16) (peer : PeerIdent),
      s.up = true ∧
      p < s.build.fabricPorts ∧
      (s.fp p).state = .ident ∧
      s.fab.idValid = true ∧
      peer.hub = some h ∧
      peer.major = blockRelease / 256 ∧
      peer.sizeClass = s.build.sizeClass ∧
      s.build.fabricPorts ≠ 8 ∧
      wiredPeer s.build.fabricPorts s.fab.hubId p ≠ some (h.toNat, peer.port)) ∧
    (∃ (s : State) (p : Nat) (peer : PeerIdent),
      s.up = true ∧
      p < s.build.fabricPorts ∧
      (s.fp p).state = .ident ∧
      peer.hub = none) ∧
    (∃ (s : State) (p : Nat) (trips : List (Nat × Nat)),
      s.up = true ∧
      p < s.build.fabricPorts ∧
      (s.fp p).state = .calibrate ∧
      trips.length = 64 ∧
      1000 < hopOf trips) ∧
    (∃ (s : State) (p : Nat) (trips : List (Nat × Nat)),
      s.up = true ∧
      p < s.build.fabricPorts ∧
      (s.fp p).state = .calibrate ∧
      trips.length = 64 ∧
      hopOf trips ≤ 1000 ∧
      (s.fp p).retraining = false ∧
      (s.fp p).txQueue = [] ∧
      s.fwRuns = false ∧
      s.units.parts = []) ∧
    (∃ (s : State) (p : Nat),
      (s.fp p).state ≠ .down ∧
      (s.fp p).state ≠ .active ∧
      (s.fp p).retraining = false ∧
      (s.fp p).buffer = [] ∧
      (s.fp p).txQueue = [] ∧
      s.units.parts = [] ∧
      s.fab.route = [] ∧
      s.fab.parked = [] ∧
      s.fab.out = []) :=
  ⟨⟨on, 18, by decide⟩,
   ⟨on, 19, by decide⟩,
   ⟨on, 19, 0, by decide⟩,
   ⟨on, 19, 2, by decide⟩,
   ⟨port { state := .detect }, 0, 0x0F, by decide⟩,
   ⟨port { state := .equalise }, 0, 0x0F, by decide⟩,
   ⟨port { state := .align, locked := 0x0F }, 0, 4, 4, 0xFF, _, by decide, by decide, by decide, rfl, by decide, by decide, by decide⟩,
   ⟨port { state := .detect }, 0, by decide⟩,
   ⟨port { state := .equalise }, 0, by decide⟩,
   ⟨port { state := .align }, 0, by decide⟩,
   ⟨port { state := .ident }, 0, by decide⟩,
   ⟨port { state := .calibrate }, 0, by decide⟩,
   ⟨port { state := .ident }, 0, 6, ⟨some 6, 6, 4, 1, 1⟩, by decide⟩,
   ⟨{ port { state := .ident } with fab := {} }, 0, 5, 6, ⟨some 6, 6, 4, 1, 1⟩, by decide⟩,
   ⟨port { state := .ident }, 0, 6, ⟨some 6, 6, 4, 1, 2⟩, by decide⟩,
   ⟨port { state := .ident }, 0, 7, ⟨some 7, 6, 4, 1, 1⟩, by decide⟩,
   ⟨port { state := .ident }, 0, ⟨none, 6, 4, 1, 1⟩, by decide⟩,
   ⟨port { state := .calibrate }, 0, List.replicate 64 (2000, 0), by decide, by decide, by decide, by decide, by decide⟩,
   ⟨{ port { state := .calibrate } with boot := {} }, 0, List.replicate 64 (0, 0), by decide⟩,
   ⟨{ port { state := .detect } with fab := {} }, 0, by decide⟩⟩

theorem test_meets_WiringIsSymmetric :
    ∃ ports h p h' p',
      (ports = 8 ∧ h < 8 ∨ ports = 20 ∧ h < 8192) ∧
      wiredPeer ports h p = some (h', p') :=
  ⟨20, 8191, 15, _, _, by decide, rfl⟩

theorem test_meets_FabricLinkLayer :
    (∃ (s : State) (p : Nat) (lane : Nat),
      s.up = true ∧
      p < s.build.fabricPorts ∧
      bit (s.fp p).laneMask lane = true) ∧
    (∃ (s : State) (p : Nat) (lane : Nat),
      bit (s.fp p).laneMask lane = false) ∧
    (∃ (s : State) (p : Nat) (cause : Nat),
      (s.fp p).state = .active ∧
      s.units.parts = [] ∧
      cause ≠ 14) ∧
    (∃ (s : State) (p : Nat),
      s.up = true ∧
      p < s.build.fabricPorts ∧
      (s.fp p).state = .active) ∧
    (∃ (s : State) (p : Nat) (f : Flit),
      s.up = true ∧
      p < s.build.fabricPorts ∧
      (s.fp p).state = .active ∧
      f.corrected ≠ 0) ∧
    (∃ (s : State) (p : Nat) (f : Flit),
      s.up = true ∧
      p < s.build.fabricPorts ∧
      (s.fp p).state = .active ∧
      f.corrected = 0 ∧
      f.lines ≠ 0 ∧
      f.crcGood = false) ∧
    (∃ (s : State) (p : Nat) (f : Flit),
      s.up = true ∧
      p < s.build.fabricPorts ∧
      (s.fp p).state = .active ∧
      f.corrected = 0 ∧
      f.lines ≠ 0 ∧
      f.crcGood = true ∧
      f.seq.toNat ≠ (s.fp p).rxSeq) ∧
    (∃ (f : Flit),
      f.corrected = 0 ∧
      f.lines = 0 ∧
      f.crcGood = false) ∧
    (∃ (s : State) (p : Nat) (f : Flit),
      s.up = true ∧
      p < s.build.fabricPorts ∧
      (s.fp p).state = .active ∧
      f.corrected = 0 ∧
      f.lines = 0 ∧
      f.crcGood = true ∧
      f.nak = false ∧
      f.ackValid = true ∧
      f.credLines = 0 ∧
      f.cred2Lines = 0 ∧
      (s.fp p).txQueue = []) ∧
    (∃ (s : State) (p : Nat) (f : Flit) (m : OfpMsg),
      s.up = true ∧
      p < s.build.fabricPorts ∧
      (s.fp p).state = .active ∧
      f.corrected = 0 ∧
      f.lines ≠ 0 ∧
      f.crcGood = true ∧
      f.seq.toNat = (s.fp p).rxSeq ∧
      f.nak = false ∧
      f.ackValid = false ∧
      f.credLines = 0 ∧
      f.cred2Lines = 0 ∧
      (s.fp p).txQueue = [] ∧
      f.msgs = [m] ∧
      m.type ≠ 0 ∧
      m.type.toNat ≤ 0x0B ∧
      m.lines.toNat ≤ 64 ∧
      msgVc m ≠ 3 ∧
      m.sourceRouted = false ∧
      (s.fp p).refused = false ∧
      s.fwRuns = true ∧
      m.dstHub.toNat = s.myHub) ∧
    (∃ (s : State) (p : Nat),
      s.up = true ∧
      p < s.build.fabricPorts ∧
      (s.fp p).state = .active ∧
      (s.fp p).buffer ≠ [] ∧
      (∀ f ∈ (s.fp p).buffer, f.sent < 7)) ∧
    (∃ (s : State) (p : Nat),
      s.up = true ∧
      p < s.build.fabricPorts ∧
      (s.fp p).state = .active ∧
      (∃ f ∈ (s.fp p).buffer, f.sent = 7)) ∧
    (∃ (s : State) (p : Nat),
      s.up = true ∧
      p < s.build.fabricPorts) ∧
    (∃ (s : State) (p : Nat) (m : OfpMsg),
      s.up = true ∧
      p < s.build.fabricPorts ∧
      m.type = 0x0B ∧
      fld m.f10.toNat 7 0 = 1) ∧
    (∃ (s : State) (p : Nat) (m : OfpMsg),
      s.up = true ∧
      p < s.build.fabricPorts ∧
      m.type = 0x0B ∧
      fld m.f10.toNat 7 0 = 2 ∧
      (s.fp p).state = .active) :=
  ⟨⟨port { laneMask := 0x80 }, 0, 7, by decide⟩,
   ⟨port {}, 0, 7, by decide⟩,
   ⟨fab, 0, 13, by decide⟩,
   ⟨fab, 0, by decide⟩,
   ⟨fab, 0, { flit with corrected := 3 }, by decide⟩,
   ⟨fab, 0, { flit with lines := 1, crcGood := false }, by decide⟩,
   ⟨fab, 0, { flit with lines := 1, seq := 1 }, by decide⟩,
   ⟨{ flit with crcGood := false }, by decide⟩,
   ⟨fab, 0, { flit with ackValid := true }, by decide⟩,
   ⟨fab, 0, { flit with lines := 16, msgs := [{ msg 1 with lines := 64 }] }, { msg 1 with lines := 64 }, by decide⟩,
   ⟨port { state := .active, width := 8, peerHub := 9, buffer := [⟨0, 0, [], 6⟩] }, 0, by decide⟩,
   ⟨port { state := .active, width := 8, peerHub := 9, buffer := [⟨0, 0, [], 7⟩] }, 0, by decide⟩,
   ⟨fab, 19, by decide⟩,
   ⟨fab, 0, { msg 0x0B with f10 := 1 }, by decide⟩,
   ⟨fab, 0, { msg 0x0B with f10 := 2 }, by decide⟩⟩

theorem test_meets_FabricMessages :
    (∃ (s : State) (port : Nat) (m : OfpMsg),
      s.hears port m 1 = true ∧
      s.e2eSeen m = none ∧
      s.refAccepted m.f10.toNat = true) ∧
    (∃ (s : State) (port : Nat) (m : OfpMsg),
      s.hears port m 1 = true ∧
      s.e2eSeen m = none ∧
      s.refAccepted m.f10.toNat = false) ∧
    (∃ (s : State) (port : Nat) (m : OfpMsg) (r : OfpMsg),
      s.hears port m 1 = true ∧
      s.e2eSeen m = some r) ∧
    (∃ (s : State) (port : Nat) (id : Nat) (m : OfpMsg) (o : E2eOut),
      s.hears port m 2 = true ∧
      s.fab.find m.srcHub.toNat m.e2eSeq.toNat = some o ∧
      o.msg.type = 1 ∧
      o.cmd = some id ∧
      fld m.f10.toNat 1 0 = 1) ∧
    (∃ (s : State) (port : Nat) (id : Nat) (m : OfpMsg) (o : E2eOut),
      s.hears port m 2 = true ∧
      s.fab.find m.srcHub.toNat m.e2eSeq.toNat = some o ∧
      o.msg.type = 1 ∧
      o.cmd = some id ∧
      fld m.f10.toNat 1 0 = 2) ∧
    (∃ (s : State) (o : E2eOut),
      s.fab.out = [o]) ∧
    (∃ (s : State) (port : Nat) (m : OfpMsg),
      s.hears port m 3 = true ∧
      m.sourceRouted = false ∧
      s.e2eSeen m = none) ∧
    (∃ (s : State) (port : Nat) (m : OfpMsg),
      s.hears port m 3 = true ∧
      m.sourceRouted = true) ∧
    (∃ (s : State) (m : OfpMsg) (u : Nat),
      s.partialAt (fld m.f18.toNat 12 5) = some u ∧
      s.tagLive m.ownerTag = false) ∧
    (∃ (s : State) (m : OfpMsg) (u : Nat),
      s.partialAt (fld m.f18.toNat 12 5) = some u ∧
      s.tagLive m.ownerTag = true ∧
      (s.ctx (tagCtx m.ownerTag)).fabric = true ∧
      fld m.f28.toNat 15 0 = 0 ∧
      64 * fld m.f30.toNat 63 48 > (m.data.drop 64).length ∧
      m.sourceRouted = true) ∧
    (∃ (s : State) (port : Nat) (m : OfpMsg) (o : E2eOut),
      s.hears port m 4 = true ∧
      s.fab.find m.srcHub.toNat m.e2eSeq.toNat = some o ∧
      o.msg.type = 3 ∧
      o.answered = false ∧
      fld m.f10.toNat 1 0 = 1 ∧
      o.rest = []) ∧
    (∃ (s : State) (port : Nat) (m : OfpMsg) (o : E2eOut),
      s.hears port m 4 = true ∧
      s.fab.find m.srcHub.toNat m.e2eSeq.toNat = some o ∧
      o.msg.type = 3 ∧
      o.answered = false ∧
      fld m.f10.toNat 1 0 = 2) ∧
    (∃ (s : State) (port : Nat) (m : OfpMsg) (o : E2eOut),
      s.hears port m 4 = true ∧
      s.fab.find m.srcHub.toNat m.e2eSeq.toNat = some o ∧
      o.msg.type = 3 ∧
      o.answered = false ∧
      fld m.f10.toNat 1 0 = 3 ∧
      s.fab.out = [o] ∧
      o.held = false ∧
      o.retrySince = none) ∧
    (∃ (s : State) (dst : Nat) (seq : BitVec 16) (o : E2eOut),
      s.up = true ∧
      s.fab.find dst seq.toNat = some o ∧
      o.answered = true) ∧
    (∃ (s : State) (dst : Nat) (seq : BitVec 16) (o : E2eOut),
      s.up = true ∧
      s.fab.find dst seq.toNat = some o ∧
      o.retrySince.isSome = true) ∧
    (∃ (s : State) (dst : Nat) (seq : BitVec 16) (o : E2eOut),
      s.up = true ∧
      s.fab.find dst seq.toNat = some o ∧
      o.held = false ∧
      o.answered = false) ∧
    (∃ (s : State) (p : Nat) (m : OfpMsg),
      s.up = true ∧
      p < s.build.fabricPorts ∧
      (s.fp p).state = .active ∧
      m.type = 8 ∧
      s.fwRuns = true ∧
      m.data.take 0x34 ≠ (s.manifest [] 0 0).take 0x34 ∧
      s.fab.route = [] ∧
      s.fab.parked = [] ∧
      s.fab.out = []) ∧
    (∃ (s : State) (p : Nat) (m : OfpMsg),
      s.up = true ∧
      p < s.build.fabricPorts ∧
      (s.fp p).state = .active ∧
      m.type = 8 ∧
      s.fwRuns = true ∧
      m.data.take 0x34 = (s.manifest [] 0 0).take 0x34 ∧
      s.fab.route = [] ∧
      s.fab.parked = [] ∧
      s.fab.out = [] ∧
      (s.fp p).peerHub ≠ s.myHub) ∧
    (∃ (s : State) (port : Nat) (m : OfpMsg),
      s.hears port m 0x0A = true ∧
      s.fwRuns = true) ∧
    (∃ (s : State) (v : BitVec 64),
      s.decodes .pf = true ∧
      0 < s.build.fabricPorts ∧
      (∀ p, p < s.build.fabricPorts → (s.fp p).state = .down) ∧
      fld v.toNat 15 0 < 8192) ∧
    (∃ (v : BitVec 64),
      8192 ≤ fld v.toNat 15 0) ∧
    (∃ (s : State) (h : BitVec 16) (p : Nat) (x : Part),
      s.up = true ∧
      s.routeState h.toNat = 2 ∧
      s.units.parts = [(p, x)] ∧
      s.scheduleRuns p = true ∧
      s.leads p = true ∧
      (s.jobHubs p).contains h.toNat = true ∧
      s.fab.out = []) ∧
    (∃ (s : State) (h : BitVec 16),
      s.up = true ∧
      s.routeState h.toNat ≠ 2) :=
  ⟨⟨fab.setFence 7 { state := 1, exportScope := 2 }, 0, { msg 1 with f10 := BitVec.ofNat 64 h7 }, by decide⟩,
   ⟨fab, 0, msg 1, by decide⟩,
   ⟨{ fab with fab := { fab.fab with recv := [⟨9, [(3, msg 2)]⟩] } }, 0, msg 1, msg 2, by decide⟩,
   ⟨{ fab with fab := { fab.fab with out := [{ dst := 9, seq := 3, msg := msg 1, cmd := some 4 }] } }, 0, 4, { msg 2 with f10 := 1 }, { dst := 9, seq := 3, msg := msg 1, cmd := some 4 }, by decide⟩,
   ⟨{ fab with fab := { fab.fab with out := [{ dst := 9, seq := 3, msg := msg 1, cmd := some 4 }] } }, 0, 4, { msg 2 with f10 := 2 }, { dst := 9, seq := 3, msg := msg 1, cmd := some 4 }, by decide⟩,
   ⟨{ fab with fab := { fab.fab with out := [{ dst := 9, seq := 3, msg := msg 1, cmd := some 4 }] } }, { dst := 9, seq := 3, msg := msg 1, cmd := some 4 }, by decide⟩,
   ⟨fab, 0, msg 3, by decide⟩,
   ⟨fab, 0, { msg 3 with sourceRouted := true }, by decide⟩,
   ⟨fab, { msg 3 with ownerTag := 1 }, 32, by decide⟩,
   ⟨lit, { msg 3 with ownerTag := 1, sourceRouted := true, f30 := BitVec.ofNat 64 (2 ^ 48) }, 32, by decide⟩,
   ⟨{ fab with fab := { fab.fab with out := [{ dst := 9, seq := 3, msg := msg 3, cmd := some 4 }] } }, 0, { msg 4 with f10 := 1 }, { dst := 9, seq := 3, msg := msg 3, cmd := some 4 }, by decide⟩,
   ⟨{ fab with fab := { fab.fab with out := [{ dst := 9, seq := 3, msg := msg 3, cmd := some 4 }] } }, 0, { msg 4 with f10 := 2 }, { dst := 9, seq := 3, msg := msg 3, cmd := some 4 }, by decide⟩,
   ⟨{ fab with fab := { fab.fab with out := [{ dst := 9, seq := 3, msg := msg 3, cmd := some 4 }] } }, 0, { msg 4 with f10 := 3 }, { dst := 9, seq := 3, msg := msg 3, cmd := some 4 }, by decide⟩,
   ⟨{ fab with fab := { fab.fab with out := [{ dst := 9, seq := 3, msg := msg 3, cmd := some 4, answered := true }] } }, 9, 3, { dst := 9, seq := 3, msg := msg 3, cmd := some 4, answered := true }, by decide⟩,
   ⟨{ fab with fab := { fab.fab with out := [{ dst := 9, seq := 3, msg := msg 3, cmd := some 4, retrySince := some 5 }] } }, 9, 3, { dst := 9, seq := 3, msg := msg 3, cmd := some 4, retrySince := some 5 }, by decide⟩,
   ⟨{ fab with fab := { fab.fab with out := [{ dst := 9, seq := 3, msg := msg 3, cmd := some 4 }] } }, 9, 3, { dst := 9, seq := 3, msg := msg 3, cmd := some 4 }, by decide⟩,
   ⟨{ fab with fab := { idValid := true, hubId := 5 } }, 0, msg 8, by decide⟩,
   ⟨{ fab with fab := { idValid := true, hubId := 5 } }, 0, { msg 8 with data := fab.manifest [] 0 0 }, by decide⟩,
   ⟨fab, 0, msg 0x0A, by decide⟩,
   ⟨{ on with fps := [] }, 8191, by decide, by decide, by decide, by decide⟩,
   ⟨8192, by decide⟩,
   ⟨{ (job fun x => { x with state := 3, image := img [5, 9] }) with fab := { idValid := true, hubId := 5, route := [(9, 8)] } }, 9, 0, { lit.part 0 with static := true }, by decide⟩,
   ⟨fab, 9, by decide⟩⟩

theorem test_meets_ThymeExchange :
    (∃ (s : State) (p : Nat) (m : OfpMsg) (t4 : BitVec 64) (lead2 : Int),
      s.up = true ∧
      p < s.build.fabricPorts ∧
      (s.fp p).state = .active ∧
      m.type = 9 ∧
      s.thyme.state = 1 ∧
      s.thyme.parent = p ∧
      fld m.f28.toNat 63 48 = s.thyme.root ∧
      s.thyme.rootEn = false ∧
      (s.fab.idValid = true → s.fab.hubId ≠ s.thyme.root) ∧
      fld m.f28.toNat 39 37 ≤ 4 ∧
      m.f20 ≠ 0 ∧
      lead2 = ((m.f20.toNat : Int) - m.f18.toNat) - ((t4.toNat : Int) - m.f10.toNat) ∧
      lead2.natAbs ≤ 2000) ∧
    (∃ (s : State) (p : Nat) (m : OfpMsg) (t4 : BitVec 64) (lead2 : Int),
      s.up = true ∧
      p < s.build.fabricPorts ∧
      (s.fp p).state = .active ∧
      m.type = 9 ∧
      s.thyme.state = 2 ∧
      s.thyme.stepped = false ∧
      s.thyme.parent = p ∧
      fld m.f28.toNat 63 48 = s.thyme.root ∧
      s.thyme.rootEn = false ∧
      (s.fab.idValid = true → s.fab.hubId ≠ s.thyme.root) ∧
      fld m.f28.toNat 39 37 ≤ 4 ∧
      m.f20 ≠ 0 ∧
      lead2 = ((m.f20.toNat : Int) - m.f18.toNat) - ((t4.toNat : Int) - m.f10.toNat) ∧
      2002 ≤ lead2) ∧
    (∃ (s : State) (p : Nat) (m : OfpMsg),
      s.up = true ∧
      p < s.build.fabricPorts ∧
      (s.fp p).state = .active ∧
      m.type = 9 ∧
      s.thyme.state = 0 ∧
      s.thyme.rootEn = false ∧
      (s.fab.idValid = true → s.fab.hubId ≠ fld m.f28.toNat 63 48) ∧
      fld m.f28.toNat 39 37 ≤ 4 ∧
      m.f20 = 0) ∧
    (∃ (t : Thyme),
      0 < t.slew ∧
      t.phase = 0) ∧
    (∃ (t : Thyme),
      t.slew < 0 ∧
      t.phase = 0 ∧
      t.state ≠ 2) ∧
    (∃ (t : Thyme),
      t.phase ≠ 0 ∧
      t.state ≠ 2) ∧
    (∃ (t : Thyme),
      t.state = 2 ∧
      t.slew < -1001 ∧
      t.phase % 2 = 0 ∧
      t.phase < 9999) ∧
    (∃ (s : State) (p : Nat),
      s.up = true ∧
      p < s.build.fabricPorts ∧
      (s.fp p).state = .active ∧
      (∀ q, q ≠ p → (s.fp q).state ≠ .active)) ∧
    (∃ (s : State) (x : FpPort),
      x.lastSend < 2 ^ 64 ∧
      x.lastRecv < 2 ^ 64 ∧
      s.thyme.now < 2 ^ 64 ∧
      s.thyme.root < 65536 ∧
      s.thyme.generation < 256 ∧
      s.thyme.depth < 8 ∧
      s.thyme.errorNs < 65536 ∧
      s.thyme.state < 4) ∧
    (∃ (s : State),
      s.up = true ∧
      s.thyme.state ≠ 0 ∧
      s.thyme.rootEn = false) ∧
    (∃ (s : State) (r : BitVec 16),
      s.up = true ∧
      s.thyme.state ≠ 0 ∧
      s.thyme.rootEn = false ∧
      (s.fab.idValid = true → s.fab.hubId ≠ r.toNat)) ∧
    (∃ (s : State) (q : Nat) (depth : Nat),
      s.up = true ∧
      s.thyme.state ≠ 0 ∧
      s.thyme.parent ≠ 31 ∧
      q < s.build.fabricPorts ∧
      (s.fp q).state = .active ∧
      1 ≤ depth ∧
      depth ≤ 5) ∧
    (∃ (s : State),
      s.up = true ∧
      s.thyme.state ≠ 0 ∧
      s.thyme.parent = 31) ∧
    (∃ (s : State),
      s.up = true ∧
      (s.thyme.state = 2 ∨ s.thyme.state = 3) ∧
      s.thyme.errorNs ≤ 40) ∧
    (∃ (s : State),
      s.up = true ∧
      s.thyme.state = 1 ∧
      40 < s.thyme.errorNs ∧
      s.units.parts = [] ∧
      s.sx = []) :=
  ⟨⟨{ fab with thyme := { state := 1, parent := 0 } }, 0, { msg 9 with f20 := 2000 }, 0, 2000, by decide⟩,
   ⟨{ fab with thyme := { state := 2, parent := 0 } }, 0, { msg 9 with f20 := 2002 }, 0, 2002, by decide⟩,
   ⟨fab, 0, msg 9, by decide⟩,
   ⟨{ slew := 1 }, by decide⟩,
   ⟨{ slew := -1 }, by decide⟩,
   ⟨{ phase := 9999 }, by decide⟩,
   ⟨{ slew := -1002, state := 2, phase := 9998 }, by decide⟩,
   ⟨fab, 0, by decide, by decide, by decide, fun q hq => by simp [fab, State.fp, tget, hq]⟩,
   ⟨fab, {}, by decide⟩,
   ⟨{ fab with thyme := { state := 1, errorNs := 3 } }, by decide⟩,
   ⟨{ fab with thyme := { state := 1 } }, 7, by decide⟩,
   ⟨{ fab with thyme := { state := 1, parent := 3 } }, 0, 5, by decide⟩,
   ⟨{ fab with thyme := { state := 1, parent := 31 } }, by decide⟩,
   ⟨{ fab with thyme := { state := 3, errorNs := 40 } }, by decide⟩,
   ⟨{ fab with thyme := { state := 1, errorNs := 41 } }, by decide⟩⟩

theorem test_meets_ScheduleCommands :
    (∃ (s : State) (p : Nat),
      s.decodes .pf = true ∧
      s.fwRuns = true ∧
      p < s.build.partitions ∧
      (s.sched p).busy = true) ∧
    (∃ (s : State) (p : Nat),
      s.sxFree p = true ∧
      (s.sched p).state ≠ 0 ∧
      s.adminBusy = false) ∧
    (∃ (s : State) (p : Nat),
      s.sxFree p = true ∧
      (s.sched p).state ≠ 1) ∧
    (∃ (s : State) (p : Nat),
      s.sxFree p = true ∧
      (s.sched p).state ≠ 3) ∧
    (∃ (s : State) (p : Nat),
      s.sxFree p = true ∧
      (s.sched p).state ≠ 6) ∧
    (∃ (s : State) (p : Nat),
      s.sxFree p = true ∧
      (s.sched p).state ≠ 1 ∧
      (s.sched p).state ≠ 7 ∧
      (s.sched p).state ≠ 8) ∧
    (∃ (s : State) (p : Nat) (op : BitVec 8),
      s.sxFree p = true ∧
      (op = 0 ∨ 5 < op.toNat)) ∧
    (∃ (s : State) (p : Nat) (tag : BitVec 16),
      s.sxFree p = true ∧
      s.adminBusy = false ∧
      (s.sched p).state = 0 ∧
      (s.sxBegun p 1 tag).admitCode p ≠ 0) ∧
    (∃ (s : State) (p : Nat) (tag : BitVec 16),
      s.sxFree p = true ∧
      s.adminBusy = false ∧
      (s.sched p).state = 0 ∧
      (s.sxBegun p 1 tag).admitCode p = 0) ∧
    (∃ (s : State) (p : Nat),
      s.ctxValid (s.sched p).imageCtx = false) ∧
    (∃ (s : State) (p : Nat),
      s.sxFree p = true ∧
      (s.sched p).state = 1 ∧
      (s.sched p).iterations ≠ 0 ∧
      (s.sched p).startBeat < s.beat + 4000) ∧
    (∃ (s : State) (p : Nat),
      s.sxFree p = true ∧
      (s.sched p).state = 1 ∧
      (s.sched p).iterations ≠ 0 ∧
      s.beat + 4000 ≤ (s.sched p).startBeat ∧
      (s.sched p).multi = true ∧
      (s.thyme.state = 0 ∨ s.thyme.state = 3)) ∧
    (∃ (s : State) (p : Nat),
      s.sxFree p = true ∧
      (s.sched p).state = 1 ∧
      (s.sched p).iterations ≠ 0 ∧
      s.beat + 4000 ≤ (s.sched p).startBeat ∧
      (s.thyme.state = 1 ∨ s.thyme.state = 2 ∨ (s.sched p).multi = false)) ∧
    (∃ (s : State) (p : Nat) (h : ImgHub),
      s.sxFree p = true ∧
      (s.sched p).state = 1 ∧
      (s.sched p).iterations = 0 ∧
      s.endEntry p = some h ∧
      h.endFence ≠ 0) ∧
    (∃ (s : State) (p : Nat),
      s.sxFree p = true ∧
      (s.sched p).state = 3) ∧
    (∃ (s : State) (p : Nat) (tag : BitVec 16),
      s.sxFree p = true ∧
      (s.sched p).state = 6 ∧
      (s.sxBegun p 4 tag).admitCode p = 0 ∧
      s.beat + 4000 ≤ (s.sched p).startBeat ∧
      (s.thyme.state = 1 ∨ s.thyme.state = 2 ∨ (s.sched p).multi = false)) ∧
    (∃ (s : State) (p : Nat),
      s.sxFree p = true ∧
      ((s.sched p).state = 1 ∨ (s.sched p).state = 7 ∨ (s.sched p).state = 8)) ∧
    (∃ (s : State) (p : Nat),
      s.up = true ∧
      (s.sched p).state = 2 ∧
      s.leads p = true ∧
      (∀ h ∈ imgHubs (s.sched p).image 0, ∃ v ∈ (s.sched p).votes, v.hub = h.hubId ∧ v.epoch = 0 ∧ v.healthy = true ∧ v.digest = manifestDigest (s.manifest (s.sched p).digest 0 (s.sched p).alt))) ∧
    (∃ (s : State) (p : Nat),
      s.up = true ∧
      (s.sched p).state = 2 ∧
      s.leads p = true ∧
      (s.sched p).votes = [] ∧
      (s.sched p).header.altCount = 1 ∧
      imgHubs (s.sched p).image 0 ≠ []) ∧
    (∃ (s : State) (p : Nat),
      (s.myHubEntry (s.sched p).image (s.sched p).alt).isSome = true) ∧
    (∃ (s : State) (p : Nat),
      s.up = true ∧
      (s.sched p).state = 2) ∧
    (∃ (s : State) (port : Nat) (p : Nat) (m : OfpMsg),
      s.hearsJob port p 1 m = true ∧
      s.leads p = true ∧
      (s.sched p).state = 2) ∧
    (∃ (s : State) (port : Nat) (p : Nat) (m : OfpMsg),
      s.hearsJob port p 2 m = true ∧
      m.srcHub.toNat = s.jobLeader p ∧
      (s.sched p).state = 2 ∧
      m.data.getD 8 0 = 1) ∧
    (∃ (s : State) (port : Nat) (p : Nat) (m : OfpMsg),
      s.hearsJob port p 2 m = true ∧
      m.srcHub.toNat = s.jobLeader p ∧
      (s.sched p).state = 2 ∧
      m.data.getD 8 0 ≠ 1) ∧
    (∃ (s : State) (port : Nat) (p : Nat) (m : OfpMsg),
      s.hearsJob port p 2 m = true ∧
      m.srcHub.toNat = s.jobLeader p ∧
      (s.sched p).state = 3 ∧
      (s.sched p).voting = some m.f10.toNat ∧
      m.data.getD 8 0 = 1) :=
  ⟨⟨(job fun x => { x with busy := true }), 0, by decide⟩,
   ⟨jobAt 1, 0, by decide⟩,
   ⟨jobAt 2, 0, by decide⟩,
   ⟨jobAt 2, 0, by decide⟩,
   ⟨jobAt 2, 0, by decide⟩,
   ⟨jobAt 6, 0, by decide⟩,
   ⟨jobAt 0, 0, 6, by decide⟩,
   ⟨on, 0, 9, by decide⟩,
   ⟨jobAt 0, 0, 9, by decide +kernel⟩,
   ⟨on, 0, by decide⟩,
   ⟨(job fun x => { x with state := 1, startBeat := 3999 }), 0, by decide⟩,
   ⟨(job fun x => { x with state := 1, image := img [0xFFFF, 9] }), 0, by decide +kernel⟩,
   ⟨jobAt 1, 0, by decide +kernel⟩,
   ⟨(job fun x => { x with state := 1, iterations := 0 }), 0, _, by decide, by decide, by decide, rfl, by decide +kernel⟩,
   ⟨jobAt 3, 0, by decide⟩,
   ⟨jobAt 6, 0, 9, by decide +kernel⟩,
   ⟨jobAt 8, 0, by decide⟩,
   ⟨(job fun x => { x with state := 2, votes := [voted 0] }), 0, by decide, by decide, by decide +kernel, fun h hh => ⟨voted 0, List.mem_cons_self,
      ((by decide +kernel : ∀ h ∈ imgHubs (img [0xFFFF]) 0, h.hubId = 0xFFFF) h hh).symm, rfl, rfl, rfl⟩⟩,
   ⟨jobAt 2, 0, by decide +kernel⟩,
   ⟨jobAt 2, 0, by decide +kernel⟩,
   ⟨jobAt 2, 0, by decide⟩,
   ⟨jobAt 2, 0, 0, jm 1, by decide +kernel⟩,
   ⟨jobAt 2, 0, 0, { jm 2 with data := [0, 0, 0, 0, 0, 0, 0, 0, 1] }, by decide +kernel⟩,
   ⟨jobAt 2, 0, 0, jm 2, by decide +kernel⟩,
   ⟨(job fun x => { x with state := 3, voting := some 0 }), 0, 0, { jm 2 with data := [0, 0, 0, 0, 0, 0, 0, 0, 1] }, by decide +kernel⟩⟩

theorem test_meets_ScheduleRuns :
    (∃ (s : State) (p : Nat) (k : Nat) (t : ImgStep),
      s.up = true ∧
      ((s.sched p).state = 3 ∨ (s.sched p).state = 5) ∧
      (s.myPart p).steps[k]? = some t ∧
      (∀ r ∈ (s.sched p).running, r.step ≠ k) ∧
      (s.ctx (s.sched p).ctx).state = .live ∧
      t.kind = 3) ∧
    (∃ (s : State) (p : Nat) (k : Nat) (t : ImgStep),
      s.up = true ∧
      ((s.sched p).state = 3 ∨ (s.sched p).state = 5) ∧
      (s.myPart p).steps[k]? = some t ∧
      (∀ r ∈ (s.sched p).running, r.step ≠ k) ∧
      (s.ctx (s.sched p).ctx).state = .live ∧
      t.kind ≠ 3) ∧
    (∃ (s : State) (p : Nat) (k : Nat) (t : ImgStep),
      s.up = true ∧
      ((s.sched p).state = 3 ∨ (s.sched p).state = 5) ∧
      (s.myPart p).steps[k]? = some t ∧
      (∀ r ∈ (s.sched p).running, r.step ≠ k) ∧
      (s.ctx (s.sched p).ctx).state ≠ .live) ∧
    (∃ (s : State) (p : Nat) (k : Nat) (r : StepRun),
      (s.sched p).running = [r] ∧
      r.step = k ∧
      r.isXfer = false ∧
      r.code = 0 ∧
      r.fence ≠ 0) ∧
    (∃ (s : State) (s1 : State) (s2 : State) (p : Nat) (t : ImgStep) (a : ReadRes) (b : ReadRes) (d : Desc) (h : LaunchHeader),
      s.jobRead (s.sched p).ctx t.va 64 = a ∧
      a.stop = none ∧
      a.viol.lines = 0 ∧
      s.jobCharge p (s.sched p).ctx a.dev a.host = s1 ∧
      (s1.ctx (s.sched p).ctx).state = .live ∧
      LaunchHeader.ofBytes a.bytes = h ∧
      h.ok s1.build.arrays = true ∧
      s1.jobRead (s.sched p).ctx (h.constVa t.va) h.constLen = b ∧
      b.stop = none ∧
      b.viol.lines = 0 ∧
      s1.jobCharge p (s.sched p).ctx b.dev b.host = s2 ∧
      (s2.ctx (s.sched p).ctx).state = .live ∧
      h.desc b.bytes = d ∧
      d.workgroups = 0) ∧
    (∃ (s : State) (s1 : State) (s2 : State) (p : Nat) (t : ImgStep) (a : ReadRes) (b : ReadRes) (d : Desc) (h : LaunchHeader),
      s.jobRead (s.sched p).ctx t.va 64 = a ∧
      a.stop = none ∧
      a.viol.lines = 0 ∧
      s.jobCharge p (s.sched p).ctx a.dev a.host = s1 ∧
      (s1.ctx (s.sched p).ctx).state = .live ∧
      LaunchHeader.ofBytes a.bytes = h ∧
      h.ok s1.build.arrays = true ∧
      s1.jobRead (s.sched p).ctx (h.constVa t.va) h.constLen = b ∧
      b.stop = none ∧
      b.viol.lines = 0 ∧
      s1.jobCharge p (s.sched p).ctx b.dev b.host = s2 ∧
      (s2.ctx (s.sched p).ctx).state = .live ∧
      h.desc b.bytes = d ∧
      1 < d.workgroups) ∧
    (∃ (s : State) (s1 : State) (s2 : State) (p : Nat) (u : Nat) (t : ImgStep) (a : ReadRes) (b : ReadRes) (d : Desc) (h : LaunchHeader),
      s.jobRead (s.sched p).ctx t.va 64 = a ∧
      a.stop = none ∧
      a.viol.lines = 0 ∧
      s.jobCharge p (s.sched p).ctx a.dev a.host = s1 ∧
      (s1.ctx (s.sched p).ctx).state = .live ∧
      LaunchHeader.ofBytes a.bytes = h ∧
      h.ok s1.build.arrays = true ∧
      s1.jobRead (s.sched p).ctx (h.constVa t.va) h.constLen = b ∧
      b.stop = none ∧
      b.viol.lines = 0 ∧
      s1.jobCharge p (s.sched p).ctx b.dev b.host = s2 ∧
      (s2.ctx (s.sched p).ctx).state = .live ∧
      h.desc b.bytes = d ∧
      d.workgroups = 1 ∧
      t.kind = 1 ∧
      ((s.myPart p).units.find? fun x => x.type = 1 && x.index = t.unit).map (·.amount) = some u ∧
      d.arrays ≤ u) ∧
    (∃ (s : State) (p : Nat) (k : Nat) (t : ImgXfer) (a : ReadRes),
      s.up = true ∧
      ((s.sched p).state = 3 ∨ (s.sched p).state = 5) ∧
      (s.myPart p).xfers[k]? = some t ∧
      t.kind = 0 ∧
      (s.ctx (s.sched p).ctx).state = .live ∧
      1 ≤ t.lines ∧
      t.lines ≤ 64 ∧
      s.jobRead (s.sched p).ctx t.srcVa (64 * t.lines) = a ∧
      a.stop = none ∧
      a.viol.lines = 0) ∧
    (∃ (s : State) (u : State) (port : Nat) (p : Nat) (va : Nat) (m : OfpMsg),
      s.hearsJob port p 0 m = true ∧
      ((s.sched p).state = 3 ∨ (s.sched p).state = 5) ∧
      fld m.f18.toNat 47 0 + 64 * fld m.f20.toNat 31 0 = va ∧
      va % 64 = 0 ∧
      m.data.length = 64 ∧
      (s.takeInbox port m).writeJob ⟨(s.sched p).ctx, 5, ⟨0, 0⟩, []⟩ (List.range 16) va m.data = .done u false) ∧
    (∃ (s : State) (p : Nat) (r : StepRun),
      s.up = true ∧
      ((s.sched p).state = 3 ∨ (s.sched p).state = 5) ∧
      r ∈ (s.sched p).running ∧
      r.deadline ≤ s.beat) ∧
    (∃ (s : State) (p : Nat),
      (∀ r ∈ (s.sched p).running, s.beat < r.deadline) ∧
      (s.sched p).saving = none) ∧
    (∃ (s : State) (p : Nat),
      s.up = true ∧
      ((s.sched p).state = 3 ∨ (s.sched p).state = 5) ∧
      (s.sched p).epoch < (s.sched p).epochAt s.now) ∧
    (∃ (s : State) (p : Nat) (e : Nat),
      s.up = true ∧
      (s.sched p).saving = some e) ∧
    (∃ (s : State) (p : Nat) (e : Nat),
      s.leads p = true ∧
      s.jobHubs p = [s.myHub] ∧
      (s.sched p).voting = some e ∧
      (s.sched p).votes = [⟨s.myHub, e, manifestDigest (s.manifest (s.sched p).digest e (s.sched p).alt), true⟩]) ∧
    (∃ (s : State) (p : Nat),
      (s.sched p).state = 3) ∧
    (∃ (s : State) (p : Nat),
      (s.sched p).state = 5) ∧
    (∃ (s : State) (p : Nat) (e : Nat) (h : Nat),
      s.up = true ∧
      (s.sched p).voting = some e ∧
      s.leads p = true ∧
      h ∈ s.jobHubs p ∧
      (∀ v ∈ (s.sched p).votes, v.hub ≠ h ∨ v.epoch ≠ e)) ∧
    (∃ (s : State) (p : Nat),
      s.up = true ∧
      ((s.sched p).state = 3 ∨ (s.sched p).state = 5) ∧
      (s.sched p).trigger = true ∧
      (s.sched p).noRemedy = false ∧
      s.launches = [] ∧
      s.cps = []) ∧
    (∃ (s : State) (p : Nat) (a : Nat),
      s.up = true ∧
      (s.sched p).state = 4 ∧
      s.leads p = true ∧
      s.jobHubs p = [s.myHub] ∧
      s.pw.emergency = false ∧
      (s.sched p).reports = [] ∧
      (s.sched p).noRemedy = false ∧
      State.chooseAlt (s.setSched p { s.sched p with reports := [(s.myHub, (s.sched p).logLive)] }) p = some a) ∧
    (∃ (s : State),
      s.pw.emergency = true) ∧
    (∃ (s : State) (p : Nat) (b : Nat),
      s.up = true ∧
      (s.sched p).state = 4 ∧
      (s.sched p).trigger = false ∧
      (s.sched p).restart = some b ∧
      b ≤ s.beat ∧
      (s.sched p).afterExpel = false ∧
      (s.sched p).afterSuspend = false ∧
      (s.sched p).nextAlt = (s.sched p).alt ∧
      (s.myHubEntry (s.sched p).image (s.sched p).alt).isSome = true ∧
      (s.sched p).suspendAsked = false) ∧
    (∃ (b : LogBlock),
      b.host = false ∧
      b.cells = []) ∧
    (∃ (b : LogBlock) (a : Nat) (v : Byte),
      b.host = false ∧
      b.cells = [(a, v)]) ∧
    (∃ (s : State) (p : Nat) (h : ImgHub),
      s.up = true ∧
      ((s.sched p).state = 3 ∨ (s.sched p).state = 5) ∧
      (s.sched p).ending = false ∧
      (s.sched p).running = [] ∧
      s.lastDeadline p ≤ (s.sched p).epoch * (s.sched p).epochBeats ∧
      s.endEntry p = some h ∧
      h.endFence ≠ 0 ∧
      (s.sched p).alt = 0) ∧
    (∃ (s : State) (p : Nat) (h : ImgHub),
      s.up = true ∧
      (s.sched p).state = 3 ∧
      (s.sched p).ending = true ∧
      s.launches = [] ∧
      s.cps = [] ∧
      s.endEntry p = some h ∧
      h.endFence ≠ 0) :=
  ⟨⟨(job fun x => { x with state := 3, image := (img [0xFFFF]).set 172 3 }), 0, 0, _, by decide, by decide, rfl, by decide, by decide,
     by decide +kernel⟩,
   ⟨jobAt 3, 0, 0, _, by decide, by decide, rfl, by decide, by decide, by decide +kernel⟩,
   ⟨(jobAt 3).setCtx 1 { state := .lost }, 0, 0, _, by decide, by decide, rfl, by decide, by decide⟩,
   ⟨(job fun x => { x with running := [{ step := 0, deadline := 7, fence := 1 }] }), 0, 0, { step := 0, deadline := 7, fence := 1 }, by decide⟩,
   ⟨{ jobAt 3 with mem := [] }, _, _, 0, { beat := 10, deadline := 100, kind := 1, unit := 0, va := 64, fence := 0 }, _, _, _, _, rfl,
     by decide, by decide, rfl, by decide, rfl, by decide, rfl, by decide, by decide, rfl, by decide, rfl, by decide +kernel⟩,
   ⟨{ jobAt 3 with mem := [(84, 2)] }, _, _, 0, { beat := 10, deadline := 100, kind := 1, unit := 0, va := 64, fence := 0 }, _, _, _, _, rfl,
     by decide, by decide, rfl, by decide, rfl, by decide, rfl, by decide, by decide, rfl, by decide, rfl, by decide +kernel⟩,
   ⟨{ (job fun x => { x with state := 3, image := ((((img [0xFFFF]).set 96 48).set 100 1).set 144 1).set 146 4 }) with mem := [(84, 1)] }, _, _, 0, 4, { beat := 10, deadline := 100, kind := 1, unit := 0, va := 64, fence := 0 }, _, _, _, _, rfl, by decide +kernel, by decide +kernel, rfl, by decide +kernel, rfl, by decide +kernel, rfl, by decide +kernel, by decide +kernel, rfl, by decide +kernel, rfl, by decide +kernel, by decide +kernel, by decide +kernel, by decide +kernel⟩,
   ⟨jobAt 3, 0, 0, _, _, by decide, by decide, rfl, by decide +kernel, by decide, by decide +kernel, by decide +kernel, rfl, by decide +kernel,
     by decide +kernel⟩,
   ⟨jobAt 3, _, 0, 0, 0, { jm 0 with data := List.replicate 64 0 }, by decide +kernel, by decide, by decide, by decide,
     by decide +kernel, wrote_of (by decide +kernel)⟩,
   ⟨{ (job fun x => { x with state := 3, running := [{ step := 0, deadline := 7, fence := 1 }] }) with thyme := { now := 7 * 256 } }, 0, { step := 0, deadline := 7, fence := 1 }, by decide⟩,
   ⟨jobAt 3, 0, by decide⟩,
   ⟨{ jobAt 3 with thyme := { now := 39063 * 256 } }, 0, by decide⟩,
   ⟨(job fun x => { x with saving := some 1 }), 0, 1, by decide⟩,
   ⟨(job fun x => { x with voting := some 1, votes := [voted 1] }), 0, 1, by decide +kernel, by decide +kernel, by decide, rfl⟩,
   ⟨jobAt 3, 0, by decide⟩,
   ⟨jobAt 5, 0, by decide⟩,
   ⟨(job fun x => { x with state := 3, voting := some 1 }), 0, 1, 0xFFFF, by decide +kernel⟩,
   ⟨(job fun x => { x with state := 3, trigger := true }), 0, by decide⟩,
   ⟨jobAt 4, 0, 0, by decide +kernel⟩,
   ⟨{ on with pw := { emergency := true } }, by decide⟩,
   ⟨(job fun x => { x with state := 4, restart := some 0 }), 0, 0, by decide +kernel⟩,
   ⟨⟨0, 0, false, [], 0⟩, by decide⟩,
   ⟨⟨0, 0, false, [(5, 6)], 0⟩, 5, 6, by decide⟩,
   ⟨(job fun x => { x with state := 3, epoch := 1 }), 0, _, by decide, by decide, by decide, by decide, by decide +kernel, rfl,
     by decide +kernel, by decide⟩,
   ⟨(job fun x => { x with state := 3, ending := true }), 0, _, by decide, by decide, by decide, by decide, by decide, rfl, by decide +kernel⟩⟩

theorem test_meets_StepKeepsInvariant :
    ∃ (s : State) (t : State),
      Inv s ∧
      step s = .next t :=
  ⟨on, _, ⟨by decide, by decide, by decide⟩, rfl⟩

theorem test_meets_SafeStateHolds :
    ∃ (i : Instr) (s : State),
      s.sage.safe = true ∧
      s.pins.por = false ∧
      s.pins.sysRst = false ∧
      i ≠ .porNAssert ∧
      i ≠ .sysRstNAssert :=
  ⟨.hubResetRelease, { on with sage := { safe := true } }, by decide⟩

end Sys2Proof.Tests
end

section
/-! The scope family (chapter 0): every command completes (R6, R31), and writes of registers that have no command of their
own (R17, R18, R22, R666). -/

namespace Sys2Proof.Machine

/-! ### Every command completes -/

/-- Settles O59: `exec_keeps` without its claim on Thyme's count holds of every command, THYME included. -/
theorem everyCommandCompletes : Obligations.EveryCommandCompletes := by
  intro i s
  obtain ⟨t, ht, hk⟩ := exec_keeps (c := false) (i := i) nofun (Keeps.refl s)
  exact ⟨t, ht, hk.pending, hk.build, hk.out, hk.nextId, hk.freeCtr, hk.draws⟩

/-! ### Where a write of BAR0 goes -/

/-- The registers with no command of their own lie in BAR0. -/
theorem exec_registerWrite (s : State) (fn : Fn) (bar o w : Nat) (v h : BitVec 64) :
    exec (.registerWrite fn bar o w v h) s = .next (if bar = 0 then s.regWrite fn o w v h else s) := rfl

theorem exec_registerWrite_bar0 (s : State) (fn : Fn) (o w : Nat) (v h : BitVec 64) :
    exec (.registerWrite fn 0 o w v h) s = .next (s.regWrite fn o w v h) := by
  rw [exec_registerWrite, if_pos rfl]

/-- Fewer than 8 bytes outside the MSI-X table change nothing (R666). -/
theorem State.regWrite_pf_narrow (s : State) {o w : Nat} (v h : BitVec 64) (hw : w ≠ 8)
    (ho : o < 0x4000 ∨ 0x4100 ≤ o) : s.regWrite .pf o w v h = s := by
  have hx : ¬(0x4000 ≤ o ∧ o < 0x4000 + 16 * vectors .pf) := by simp only [vectors]; omega
  simp only [State.regWrite, if_neg hx, hw, ne_eq, not_false_eq_true, true_or, if_true]

/-- Eight aligned bytes of the PF outside the MSI-X table. -/
theorem State.regWrite_pf (s : State) {o : Nat} (v h : BitVec 64) (hd : s.decodesBase .pf = true)
    (ho : o < 0x4000 ∨ 0x4100 ≤ o) (ha : o % 8 = 0) : s.regWrite .pf o 8 v h =
      if o = 0x1010 then
        { s with ep := { s.ep with resetDone := (s.ep.resetDone - (s.ep.resetDone &&& v.toNat)) ||| h.toNat } }
      else if s.up then s.pfReg o v h else s := by
  have hx : ¬(0x4000 ≤ o ∧ o < 0x4000 + 16 * vectors .pf) := by simp only [vectors]; omega
  simp [State.regWrite, hx, ha, hd]

/-- Eight aligned bytes of a VF outside the MSI-X table. -/
theorem State.regWrite_vf (s : State) (n : Nat) {o : Nat} (v h : BitVec 64) (hd : s.decodes (.vf n) = true)
    (ho : o < 0x8000) (ha : o % 8 = 0) : s.regWrite (.vf n) o 8 v h = s.vfReg n o v h := by
  have hx : ¬(0x8000 ≤ o ∧ o < 0x8000 + 16 * vectors (.vf n)) := by omega
  simp [State.regWrite, hx, ha, State.decodesBase, hd]

/-! ### What the registers hold afterwards -/

/-- Between the message blocks and Sage's registers, every register of the PF needs firmware (R852). -/
theorem State.pfReg_fwRegion (s : State) {o : Nat} (v h : BitVec 64) (hf : s.fwRuns = true) (hl : 0x4000 ≤ o)
    (hu : o < 0x20000) : s.pfReg o v h = s.pfFwReg o v h := by
  unfold State.pfReg
  extract_lets n m
  rw [if_neg (by omega), if_neg (by omega), if_neg (by omega), if_neg (by omega), if_neg (by omega), if_neg (by omega),
    if_neg (by omega), if_neg (by omega), if_neg (by omega), if_neg (by omega), if_pos hf]

/-- The words of WMB_PROGRAM are locked while a program is in progress. -/
theorem State.pfFwReg_wmbProgram (s : State) {k : Nat} (v h : BitVec 64) (hk : k < 512) :
    s.pfFwReg (0x11000 + 8 * k) v h =
      if s.wmb.busy then s else { s with wmb := { s.wmb with program := tput s.wmb.program k v.toNat } } := by
  have hi : (0x11000 + 8 * k - 0x11000) / 8 = k := by omega
  unfold State.pfFwReg
  extract_lets n
  rw [if_neg (by omega), if_pos (by omega), hi]

theorem State.objReg_arg0 (s : State) (fn : Fn) (v h : BitVec 64) :
    s.objReg fn 0 v h = s.setBlock fn { s.block fn with arg0 := v } := rfl

theorem State.vfReg_notifyBase (s : State) (n : Nat) (v h : BitVec 64) : s.vfReg n 0x18 v h =
    if (s.vf n).notifyEnable then s else s.setVf n { s.vf n with notifyBase := v.toNat / 4096 * 4096 } := rfl

theorem State.vfReg_objBlock (s : State) (n : Nat) {o : Nat} (v h : BitVec 64) (ho : o < 0x1000) :
    s.vfReg n (0x4000 + o) v h = s.objReg (.vf n) o v h := by
  unfold State.vfReg
  extract_lets m x
  rw [if_neg (by omega), if_neg (by omega), if_neg (by omega), if_pos (by omega), Nat.add_sub_cancel_left]

theorem State.vfReg_missqBase (s : State) (n : Nat) (v h : BitVec 64) : s.vfReg n 0x5000 v h =
    if (s.missq (.vf n)).enable then s
    else s.setMissq (.vf n) { s.missq (.vf n) with base := v.toNat / 4096 * 4096 } := rfl

theorem State.pfReg_pwrLimit (s : State) (v h : BitVec 64) : s.pfReg 0x40008 v h =
    { s with pw := { s.pw with limitRefused := w1c s.pw.limitRefused v.toNat h.toNat 2 } } := rfl

/-- Settles O14: `State.regWrite_pf` and `State.regWrite_vf` lead each write to its register. -/
theorem registerWrites : Obligations.RegisterWrites := by
  refine ⟨?otherBar, ?narrow, ?resetDone, ?pwrLimit, ?wmbProgram, ?notifyBase, ?notifyLocked,
    ?objArg0, ?missqBase⟩
  case otherBar =>
    intro s fn bar o w v h hb
    rw [exec_registerWrite, if_neg hb]
  case narrow =>
    intro s o w v h hw ho
    rw [exec_registerWrite_bar0, s.regWrite_pf_narrow v h hw ho]
  case resetDone =>
    intro s v h hd
    rw [exec_registerWrite_bar0, s.regWrite_pf v h hd (by decide) (by decide), if_pos rfl]
  case pwrLimit =>
    intro s v h hd hup
    rw [exec_registerWrite_bar0, s.regWrite_pf v h hd (by decide) (by decide), if_neg (by decide), if_pos hup,
      State.pfReg_pwrLimit, w1c]
  case wmbProgram =>
    intro s v h k hd hup hf hbusy hk
    rw [exec_registerWrite_bar0, s.regWrite_pf v h hd (by omega) (by omega), if_neg (by omega), if_pos hup,
      s.pfReg_fwRegion v h hf (by omega) (by omega), s.pfFwReg_wmbProgram v h hk, if_neg (by simp [hbusy])]
  case notifyBase =>
    intro s v h n hd he
    rw [exec_registerWrite_bar0, s.regWrite_vf n v h hd (by decide) (by decide), State.vfReg_notifyBase,
      if_neg (by simp [he])]
  case notifyLocked =>
    intro s v h n hd he
    rw [exec_registerWrite_bar0, s.regWrite_vf n v h hd (by decide) (by decide), State.vfReg_notifyBase, if_pos he]
  case objArg0 =>
    intro s v h n hd
    rw [exec_registerWrite_bar0, s.regWrite_vf n v h hd (by decide) (by decide),
      s.vfReg_objBlock n (o := 0) v h (by decide), State.objReg_arg0]
  case missqBase =>
    intro s v h n hd he
    rw [exec_registerWrite_bar0, s.regWrite_vf n v h hd (by decide) (by decide), State.vfReg_missqBase,
      if_neg (by simp [he])]

end Sys2Proof.Machine
end

section
/-! The hub family (chapter 1): steps and their invariant (R49), hub reset and release (R41), perst_n (R42), regulators and
droop (R43, R44), and the PCIe link (R665 to R669). -/

namespace Sys2Proof.Machine

/-! ### When commands act -/

theorem State.work_of_up {s : State} (h : s.up = true) (t : State) : s.work t = t := if_pos h

theorem State.portWork_of_noReset {s : State} (hpor : s.pins.por = false) (hsys : s.pins.sysRst = false) (t : State) :
    s.portWork t = t := by
  rw [State.portWork, hpor, hsys, Bool.or_self, if_neg Bool.false_ne_true]

/-! ### A step and the invariant -/

theorem step_of_pending {s : State} {i : Instr} {rest : List Instr} (hp : s.pending = i :: rest) :
    step s = exec i { s with pending := rest } := by
  unfold step
  rw [hp]

/-- Settles O1: `step` matches on the queue. -/
theorem stepTakesFront : Obligations.StepTakesFront := fun _ _ _ => step_of_pending

/-- `Keeps` speaks of each of the three parts of `Inv`. -/
theorem Keeps.inv {c : Bool} {s t : State} (hk : Keeps c s t) (hi : Inv s) : Inv t := by
  obtain ⟨hmem, hhost, hbuild⟩ := hi
  exact ⟨hk.mem hmem, hk.hostMem hhost, hk.build ▸ hbuild⟩

theorem KeepsX.inv {c : Bool} {s t : State} {x : Host.Outcome State Fault Refusal} (hx : KeepsX c s x) (ht : x = .next t)
    (hi : Inv s) : Inv t := by
  obtain ⟨u, hu, hk⟩ := hx
  obtain rfl : u = t := Host.Outcome.next.inj (hu.symm.trans ht)
  exact hk.inv hi

/-- Settles O58: a step is a command on the state without it in its queue, or a tick on an empty queue. -/
theorem stepKeepsInvariant : Obligations.StepKeepsInvariant := by
  intro s t hi ht
  cases hp : s.pending with
  | nil => exact (step_keeps_idle hp).inv ht hi
  | cons i rest =>
    have hi' : Inv { s with pending := rest } := hi
    exact (step_keeps hp).inv ht hi'

/-! ### Hub reset and its release (R41, R766, R782) -/

theorem exec_porNAssert (s : State) : exec .porNAssert s = .next (s.hubReset ⟨true, s.pins.sysRst, true⟩) := rfl

theorem exec_sysRstNAssert (s : State) : exec .sysRstNAssert s =
    .next (s.hubReset ⟨s.pins.por, true, (s.pins.por || s.pins.sysRst) && s.pins.powerCycle⟩) := rfl

theorem exec_hubResetRelease {s : State} (h : (s.pins.por || s.pins.sysRst) = true) :
    exec .hubResetRelease s = .next s.released := congrArg Host.Outcome.next (if_pos h)

theorem length_takePad (n : Nat) (bs : List Byte) : (takePad n bs).length = n := by
  rw [takePad, List.length_append, List.length_take, List.length_replicate]
  omega

/-- Settles O3: `State.hubReset` builds on `State.reset`, so every field it does not name is at its reset value. -/
theorem hubResetAndRelease : Obligations.HubResetAndRelease := by
  refine ⟨?por, ?sysRst, ?release, ?porThenSysRst, ?sysRstThenPor, ?sysRstAlone⟩
  case por => exact exec_porNAssert
  case sysRst => exact exec_sysRstNAssert
  case release =>
    intro s h
    exact ⟨_, exec_hubResetRelease h, rfl, rfl, rfl, rfl, rfl, length_takePad .., rfl⟩
  case porThenSysRst =>
    intro s
    exact ⟨_, _, exec_porNAssert s, exec_sysRstNAssert _, rfl, rfl, rfl, rfl, rfl, rfl, rfl, rfl, rfl⟩
  case sysRstThenPor =>
    intro s
    exact ⟨_, _, exec_sysRstNAssert s, exec_porNAssert _, rfl⟩
  case sysRstAlone =>
    intro s hpor hsys
    have hpins : (⟨s.pins.por, true, (s.pins.por || s.pins.sysRst) && s.pins.powerCycle⟩ : Pins) = ⟨false, true, false⟩ := by
      rw [hpor, hsys]; rfl
    exact ⟨_, exec_sysRstNAssert s, hpins, rfl, rfl, rfl, rfl, rfl, rfl, rfl, rfl⟩

/-! ### Tables changed entry by entry -/

/-- A function that keeps the default acts on every read of a table, listed or not. -/
theorem tget_tmap {α : Type} {d : α} {f : Nat → α → α} (hd : ∀ k, f k d = d) (t : Table α) (k : Nat) :
    tget d (tmap t f) k = f k (tget d t k) := by
  induction t with
  | nil => exact (hd k).symm
  | cons e t ih =>
    simp only [tmap, List.map_cons, tget] at ih ⊢
    split
    next h => rw [h]
    next => exact ih

/-! ### The host island alone (R42) -/

/-- From `s` to `t` only launches, the failures counted of them, and their schedules' triggers have changed. -/
def State.OnlyLaunches (s t : State) : Prop :=
  t = { s with launches := t.launches, failures := t.failures, sx := t.sx }

theorem State.OnlyLaunches.trans {s t u : State} (h : s.OnlyLaunches t) (g : t.OnlyLaunches u) : s.OnlyLaunches u :=
  Eq.trans g (congrArg (fun z : State => { z with launches := u.launches, failures := u.failures, sx := u.sx }) h)

theorem State.modLaunch_onlyLaunches (s : State) (id : Nat) (f : Launch → Launch) : s.OnlyLaunches (s.modLaunch id f) := by
  unfold State.modLaunch
  split <;> rfl

/-- A launch that fails through a source of no unit retires nothing. -/
theorem State.failLaunch_onlyLaunches (s : State) (id kind : Nat) {src : Nat} (hsrc : srcUnit src = none) :
    s.OnlyLaunches (s.failLaunch id src kind) := by
  unfold State.failLaunch
  split
  · rfl
  · split
    · rfl
    · extract_lets recent t u
      have hu : s.OnlyLaunches u := rfl
      split
      · rw [hsrc]
        exact hu.trans (u.modLaunch_onlyLaunches ..)
      · exact hu

/-- R42, Table 15-2: the launches with a host move in flight fail, and the endpoint is down. -/
theorem State.hostDown_spec (s : State) : ∃ launches failures sx, s.hostDown =
    { s with launches := launches, failures := failures, sx := sx,
             ep := { s.ep with down := true, width := 0, speed := 0, flit := false } } := by
  unfold State.hostDown
  extract_lets hit t
  have h : s.OnlyLaunches t := keeps_foldl (P := s.OnlyLaunches)
    (fun u e hu => hu.trans (u.failLaunch_onlyLaunches e.1 6 rfl)) rfl
  exact ⟨_, _, _, congrArg (fun z : State =>
    { z with ep := { z.ep with down := true, width := 0, speed := 0, flit := false } }) h⟩

/-- From `s` to `t` only what the host island holds of its VFs has changed: their registers and messages, miss queues,
request blocks and statement requests. -/
def State.OnlyVfs (s t : State) : Prop :=
  t = { s with ep := { s.ep with vfs := t.ep.vfs, msgs := t.ep.msgs }, missqs := t.missqs, blocks := t.blocks,
               wmb := { s.wmb with stmtQueue := t.wmb.stmtQueue } }

theorem State.OnlyVfs.trans {s t u : State} (h : s.OnlyVfs t) (g : t.OnlyVfs u) : s.OnlyVfs u :=
  Eq.trans g (congrArg (fun z : State =>
    { z with ep := { z.ep with vfs := u.ep.vfs, msgs := u.ep.msgs }, missqs := u.missqs, blocks := u.blocks,
             wmb := { z.wmb with stmtQueue := u.wmb.stmtQueue } }) h)

theorem State.OnlyVfs.spec {s t : State} (h : s.OnlyVfs t) : ∃ vfs msgs missqs blocks stmts, t =
    { s with ep := { s.ep with vfs := vfs, msgs := msgs }, missqs := missqs, blocks := blocks,
             wmb := { s.wmb with stmtQueue := stmts } } := ⟨_, _, _, _, _, h⟩

theorem State.vfClear_onlyVfs (s : State) (v : Nat) : s.OnlyVfs (s.vfClear v) := rfl

theorem State.setVf_onlyVfs (s : State) (v : Nat) (x : Vf) : s.OnlyVfs (s.setVf v x) := rfl

/-- The interrupt state of a VF that is cleared is the reset one, and that of every other VF stays. -/
theorem State.vfClear_int (s : State) (v j : Nat) :
    ((s.vfClear v).vf j).int = if j = v then {} else (s.vf j).int := by
  split
  next h =>
    have hv : (s.vfClear v).vf v = { ({} : Vf) with bar4MiB := (s.vf v).bar4MiB, resetting := (s.vf v).resetting } :=
      tget_tput ..
    rw [h, hv]
  next h => exact congrArg Vf.int (tget_tput_ne _ _ _ h)

theorem State.foldl_vfClear_int (vs : List Nat) (s : State) (j : Nat) :
    ((vs.foldl State.vfClear s).vf j).int = if j ∈ vs then {} else (s.vf j).int := by
  induction vs generalizing s with
  | nil => rfl
  | cons v vs ih =>
    rw [List.foldl_cons, ih, State.vfClear_int]
    by_cases hj : j ∈ vs <;> simp [hj]

theorem State.foldl_vfClear_onlyVfs (vs : List Nat) (s : State) : s.OnlyVfs (vs.foldl State.vfClear s) :=
  keeps_foldl (P := s.OnlyVfs) (fun t v ht => ht.trans (t.vfClear_onlyVfs v)) rfl

/-- The senders are freed, which leaves the VFs' interrupts, and the PF's own interrupts are cleared. -/
theorem State.pfClear_spec (s : State) : ∃ t, s.OnlyVfs t ∧ (∀ v, (t.vf v).int = (s.vf v).int) ∧
    s.pfClear = { t with ep := { t.ep with int := {}, msgPending := 0, resetDone := 0, d3hot := false } } := by
  refine ⟨_, ?_, ?_, rfl⟩
  · exact keeps_foldl (P := s.OnlyVfs) (fun t v ht => ht.trans (t.setVf_onlyVfs v _)) rfl
  · refine keeps_foldl (P := fun t : State => ∀ v, (t.vf v).int = (s.vf v).int) (fun t w ht v => ?_) fun _ => rfl
    rw [← ht v]
    by_cases h : v = w
    · rw [h, State.vf_setVf]
    · rw [State.vf_setVf_ne _ _ h]

/-- R42: the endpoint is down, a state `t` of the host's functions is reached in which every VF is cleared, and the rest of
the host island's registers are reset. -/
theorem exec_perstNAssert {s : State} (hpor : s.pins.por = false) (hsys : s.pins.sysRst = false) :
    ∃ t : State, ∃ launches failures sx, (∀ v, v < 64 → (t.vf v).int = {}) ∧
      { s with launches := launches, failures := failures, sx := sx,
               ep := { s.ep with down := true, width := 0, speed := 0, flit := false } }.OnlyVfs t ∧
      exec .perstNAssert s = .next { t.hostCacheClear with ep := { t.ep with
        int := {}, msgPending := 0, resetDone := 0, d3hot := false, perstCount := min (t.ep.perstCount + 1) 255,
        vfEnable := false, numVfs := 0, vfs := tmap t.ep.vfs fun _ x => { x with resetting := false } } } := by
  obtain ⟨launches, failures, sx, hdown⟩ := s.hostDown_spec
  obtain ⟨t, hvfs, hint, hpf⟩ := ((List.range 64).foldl State.vfClear s.hostDown).pfClear_spec
  refine ⟨t, launches, failures, sx, fun v hv => ?_, ?_, ?_⟩
  · rw [hint, State.foldl_vfClear_int, if_pos (List.mem_range.mpr hv)]
  · exact hdown ▸ (State.foldl_vfClear_onlyVfs _ _).trans hvfs
  · refine congrArg Host.Outcome.next ((State.portWork_of_noReset hpor hsys _).trans ?_)
    simp only [hpf]
    rfl

/-- Settles O5: `exec_perstNAssert` writes the next state out of the state before, the fields of the host island aside. -/
theorem perstResetsHostIslandOnly : Obligations.PerstResetsHostIslandOnly := by
  intro s hpor hsys
  obtain ⟨t, launches, failures, sx, hint, ht, he⟩ := exec_perstNAssert hpor hsys
  have hvf (v : Nat) : tget {} (tmap t.ep.vfs fun _ x => { x with resetting := false }) v =
      { t.vf v with resetting := false } := tget_tmap (fun _ => rfl) ..
  obtain ⟨vfs, msgs, missqs, blocks, stmts, rfl⟩ := ht.spec
  refine ⟨_, he, rfl, rfl, rfl, rfl, rfl, rfl, fun v hv => ?_,
    rfl, rfl, rfl, rfl, rfl, rfl, rfl, rfl, rfl, rfl, rfl, rfl, rfl, rfl, rfl⟩
  rw [State.vf, hvf v]
  exact ⟨hint v hv, rfl⟩

/-! ### Regulators and droop (R43, R44, R810, R813, R827 to R830) -/

theorem State.hasDomain_iff (s : State) (d : Nat) : s.hasDomain d = true ↔ d < s.build.engines ∨ (16 ≤ d ∧ d ≤ 21) := by
  simp [State.hasDomain]

theorem State.votesIfPinned_of_noSched {s : State} (h : s.sx = []) : s.votesIfPinned = s := by
  rw [State.votesIfPinned, h]
  rfl

/-- A domain that is no engine's has no clock to relock: it takes the code it asked for. -/
theorem State.settled_hub {s : State} {d : Nat} (h : s.build.engines ≤ d) :
    s.settled d = s.setDomain d { s.domain d with vid := (s.domain d).reqVid, pending := false } :=
  if_neg (Nat.not_lt.mpr h)

/-- R44, R812: within 10 ms of a withdrawn change none is asked of the domain. -/
theorem State.setPoint_heldOff {s : State} {d : Nat} (f : Nat) (hp : (s.domain d).pending = false)
    (hh : s.thyme.now < (s.domain d).holdOff) : s.setPoint d f = s :=
  (if_neg (by simp [hp])).trans (if_pos hh)

/-- R811: with no change in progress, and none withdrawn lately, a change begins at once. -/
theorem State.setPoint_free {s : State} {d : Nat} (f : Nat) (hp : (s.domain d).pending = false)
    (hh : (s.domain d).holdOff ≤ s.thyme.now) : s.setPoint d f = s.pointBegin d f :=
  (if_neg (by simp [hp])).trans (if_neg (Nat.not_lt.mpr hh))

/-- R810: a change that lowers the clock relocks the PLL first. -/
theorem State.pointBegin_lower {s : State} {e f : Nat} (h : f < (s.engine e).freq) :
    s.pointBegin e f = s.setDomain e { s.domain e with pending := true, toFreq := f, relocking := true } := by
  unfold State.pointBegin
  extract_lets now d t
  rw [if_neg (Nat.ne_of_lt h), if_pos h]
  simp only [t, d, now, h, decide_true]

theorem State.pointDone_noneWaiting {s : State} {e : Nat} (h : (s.domain e).waiting = none) :
    s.pointDone e = s.setDomain e { s.domain e with pending := false, relocking := false, waiting := none } := by
  unfold State.pointDone
  extract_lets d t
  rw [show d.waiting = none from h]

/-- R810: the relocking of the PLL is the last step of a raise. -/
theorem State.relocked_raise {s : State} {e : Nat} (hp : (s.domain e).pending = true)
    (hr : (s.domain e).relocking = true) (hf : (s.engine e).freq < (s.domain e).toFreq) :
    s.relocked e = (s.setEngine e { s.engine e with freq := (s.domain e).toFreq }).pointDone e := by
  unfold State.relocked
  extract_lets d raised t
  rw [if_neg (by simp [d, hp, hr]), if_pos (decide_eq_true hf)]
  rfl

theorem exec_ivrPgLoss_engine {s : State} {d : Nat} (hup : s.up = true) (hd : d < s.build.engines) :
    exec (.ivrPgLoss d) s = .next
      (((s.setDomain d { s.domain d with pg := false }).sageFail (0x020 + d) 0x0A).retireUnit (.engine d) (0x020 + d) 0x0A) :=
  congrArg Host.Outcome.next ((State.work_of_up hup _).trans (if_pos hd))

theorem exec_ivrPgLoss_hub {s : State} {d : Nat} (hup : s.up = true) (hd : s.build.engines ≤ d) (hdom : s.hasDomain d = true) :
    exec (.ivrPgLoss d) s = .next s.selfReset :=
  congrArg Host.Outcome.next ((State.work_of_up hup _).trans ((if_neg (Nat.not_lt.mpr hd)).trans (if_pos hdom)))

theorem exec_ivrAck {s : State} {d : Nat} (hup : s.up = true) (hdom : s.hasDomain d = true) :
    exec (.ivrAck d) s = .next (s.settled d).votesIfPinned :=
  congrArg Host.Outcome.next ((State.work_of_up hup _).trans (if_pos hdom))

theorem exec_ivrAckTimeout {s : State} {d : Nat} (hup : s.up = true) (hp : (s.domain d).pending = true)
    (hr : (s.domain d).relocking = false) : exec (.ivrAckTimeout d) s =
      .next ((s.setDomain d { s.domain d with pending := false, waiting := none, reqVid := (s.engine d).vid,
                                              holdOff := s.thyme.now + 10000000 }).sageFail (0x020 + d) 0x0A) :=
  congrArg Host.Outcome.next ((State.work_of_up hup _).trans (if_neg (by simp [hp, hr])))

/-- Over-current is recorded and reported; an engine's clock is lowered unless it is pinned (R830). -/
theorem exec_ivrOcAssert {s : State} {d : Nat} (hup : s.up = true) (hdom : s.hasDomain d = true) :
    exec (.ivrOcAssert d) s = .next
      (let t := (s.setDomain d { s.domain d with oc := true }).sageFail (0x020 + d) 0x0A
       if d < s.build.engines ∧ !(s.engine d).pinned then t.setPoint d (max 400 ((s.engine d).freq - 100)) else t) :=
  congrArg Host.Outcome.next ((State.work_of_up hup _).trans (if_neg (by simp [hdom])))

theorem exec_droop_engine {s : State} {d : Nat} (hup : s.up = true) (hd : d < s.build.engines) :
    exec (.droop d) s = .next (({ s with pw := { s.pw with droops := bump s.pw.droops 1 } }.sageFail (0x020 + d) 0x0A).setEngine d
      { s.engine d with halved := true }) :=
  congrArg Host.Outcome.next ((State.work_of_up hup _).trans
    ((if_neg (by simp [s.hasDomain_iff, hd])).trans (if_pos hd)))

theorem exec_droopRecovery {s : State} {d : Nat} (hup : s.up = true) (hd : d < s.build.engines) :
    exec (.droopRecovery d) s = .next (s.setEngine d { s.engine d with halved := false }) :=
  congrArg Host.Outcome.next ((State.work_of_up hup _).trans (if_pos hd))

theorem exec_pllRelockComplete {s : State} (e : Nat) (hup : s.up = true) :
    exec (.pllRelockComplete e) s = .next (s.relocked e).votesIfPinned :=
  congrArg Host.Outcome.next (State.work_of_up hup _)

theorem exec_engineIdleTimeout {s : State} {e : Nat} (hup : s.up = true) (hs : (s.engine e).slots = [])
    (hp : (s.engine e).pinned = false) (he : e < s.build.engines) :
    exec (.engineIdleTimeout e) s = .next (s.setPoint e 400) :=
  congrArg Host.Outcome.next ((State.work_of_up hup _).trans (if_pos (by simp [hs, hp, he])))

/-- Settles O6: each clause is the branch of its command that its hypotheses choose; `State.relocked_raise` and
`State.pointBegin_lower` follow R810's order of clock and voltage. -/
theorem regulatorsAndDroop : Obligations.RegulatorsAndDroop := by
  refine ⟨?pgLossEngine, ?pgLossHub, ?ack, ?ackTimeout, ?heldOff, ?overCurrentKeeps, ?overCurrentLowers, ?droop, ?recovery,
    ?relock, ?idle⟩
  case pgLossEngine =>
    intro s d hup hd
    exact exec_ivrPgLoss_engine hup hd
  case pgLossHub =>
    intro s d hup hd h16 h21
    exact ⟨_, exec_ivrPgLoss_hub hup hd ((s.hasDomain_iff d).mpr (.inr ⟨h16, h21⟩)),
      rfl, rfl, rfl, rfl, rfl, rfl, rfl, rfl⟩
  case ack =>
    intro s d hup hd h16 h21 hsx
    rw [exec_ivrAck hup ((s.hasDomain_iff d).mpr (.inr ⟨h16, h21⟩)), State.settled_hub hd,
      State.votesIfPinned_of_noSched (by rw [State.setDomain_sx, hsx])]
  case ackTimeout =>
    intro s d hup hp hr
    exact exec_ivrAckTimeout hup hp hr
  case heldOff =>
    intro s d f _ hp hh
    exact State.setPoint_heldOff f hp hh
  case overCurrentKeeps =>
    intro s d hup hdom hkeep
    rw [exec_ivrOcAssert hup hdom, if_neg]
    rintro ⟨hd, hpin⟩
    rcases hkeep with hhub | hpinned
    · omega
    · simp [hpinned] at hpin
  case overCurrentLowers =>
    intro s d hup hd hpin
    rw [exec_ivrOcAssert hup ((s.hasDomain_iff d).mpr (.inl hd)), if_pos ⟨hd, by simp [hpin]⟩]
  case droop =>
    intro s d hup hd
    exact ⟨_, exec_droop_engine hup hd, rfl, State.engine_setEngine .., ⟨_, rfl, rfl, rfl⟩, rfl⟩
  case recovery =>
    intro s d hup hd
    exact exec_droopRecovery hup hd
  case relock =>
    intro s e hup hsx hp hr hw hf
    rw [exec_pllRelockComplete e hup, State.relocked_raise hp hr hf, State.pointDone_noneWaiting (by simpa using hw),
      State.votesIfPinned_of_noSched (by simpa using hsx), State.domain_setEngine]
  case idle =>
    intro s e hup he hs hp hd hh hf
    rw [exec_engineIdleTimeout hup hs hp he, State.setPoint_free 400 hd hh, State.pointBegin_lower hf]

/-! ### The PCIe link (R42, R665 to R669, R698, R699, R839) -/

theorem exec_pcieLinkUp {s : State} {speed width : Nat} (flit : Bool) (hup : s.up = true) (href : s.pw.refPresent = true)
    (h1 : 1 ≤ speed) (h6 : speed ≤ 6) (hw : width ∈ [1, 2, 4, 8, 16]) : exec (.pcieLinkUp speed width flit) s = .next
      { s with ep := { s.ep with down := false, speed := speed, width := width, flit := flit } }.hostResume :=
  congrArg Host.Outcome.next ((State.work_of_up hup _).trans (if_pos (by
    rw [href, decide_eq_true h1, decide_eq_true h6, List.contains_iff_mem.mpr hw]; rfl)))

theorem exec_pcieLinkDown {s : State} (hup : s.up = true) : exec .pcieLinkDown s = .next s.hostDown :=
  congrArg Host.Outcome.next (State.work_of_up hup _)

theorem exec_pcieUnmappedRequest_memRead {s : State} (h : s.linkUp = true) : exec (.pcieUnmappedRequest .memRead) s =
    .next { s with out := s.out ++ [Out.completion .pf [0, 0, 0, 0]] } :=
  congrArg Host.Outcome.next (if_neg (by simp [h]))

theorem exec_pcieUnmappedRequest_memWrite {s : State} (h : s.linkUp = true) :
    exec (.pcieUnmappedRequest .memWrite) s = .next s :=
  congrArg Host.Outcome.next (if_neg (by simp [h]))

theorem exec_pcieUnmappedRequest_unsupported {s : State} {k : PcieReq} (h : s.linkUp = true)
    (hk : k = .atomicOp ∨ k = .io) :
    exec (.pcieUnmappedRequest k) s = .next { s with out := s.out ++ [Out.attentionUr] } := by
  rcases hk with rfl | rfl
  · exact congrArg Host.Outcome.next (if_neg (by simp [h]))
  · exact congrArg Host.Outcome.next (if_neg (by simp [h]))

theorem exec_poisonedWrite {s : State} (h : s.linkUp = true) (hs : s.sage.safe = false) : exec .poisonedWrite s =
    .next ({ s with ep := { s.ep with poisoned := bump s.ep.poisoned 1 } }.sageFail 0x700 2) :=
  congrArg Host.Outcome.next (if_neg (by simp [h, hs]))

theorem exec_cplFailure {s : State} (c : Nat) (a : BitVec 64) (h : s.linkUp = true) (hs : s.sage.safe = false) :
    exec (.cplFailure c a) s =
      .next ({ s with ep := { s.ep with cplFailed := bump s.ep.cplFailed 1 } }.sageSend 0x700 5 (s.tag c) 15 a.toNat) :=
  congrArg Host.Outcome.next (if_neg (by simp [h, hs]))

theorem exec_cplErrorStatus {s : State} (c : Nat) (a : BitVec 64) (w : Bool) (h : s.linkUp = true)
    (hs : s.sage.safe = false) : exec (.cplErrorStatus c a w) s =
      .next (s.fault c 1 { source := 0x701, access := if w then 1 else 0, address := a.toNat }) :=
  congrArg Host.Outcome.next (if_neg (by simp [h, hs]))

/-- Settles O11: `State.hostDown_spec` gives what a lost link leaves; a request's kind decides how it completes. -/
theorem pcieLinkAndErrors : Obligations.PcieLinkAndErrors := by
  refine ⟨?linkUp, ?linkDown, ?unmappedRead, ?unmappedWrite, ?unsupported, ?poisoned, ?failed, ?errorStatus⟩
  case linkUp =>
    intro s sp w fl hup href h1 h6 hw
    exact exec_pcieLinkUp fl hup href h1 h6 hw
  case linkDown =>
    intro s hup
    obtain ⟨launches, failures, sx, hdown⟩ := s.hostDown_spec
    exact ⟨_, (exec_pcieLinkDown hup).trans (congrArg _ hdown), rfl, rfl, rfl, rfl, rfl, rfl, rfl, rfl, rfl⟩
  case unmappedRead =>
    intro s h
    exact exec_pcieUnmappedRequest_memRead h
  case unmappedWrite =>
    intro s h
    exact exec_pcieUnmappedRequest_memWrite h
  case unsupported =>
    intro s k h hk
    exact exec_pcieUnmappedRequest_unsupported h hk
  case poisoned =>
    intro s h hs
    exact exec_poisonedWrite h hs
  case failed =>
    intro s c a h hs
    exact exec_cplFailure c a h hs
  case errorStatus =>
    intro s c a w h hs
    exact exec_cplErrorStatus c a w h hs

end Sys2Proof.Machine
end

section
/-! The arithmetic family (chapter 2): completion points of the tensor instructions and the checks of a pass (R99 to R103,
R119, R159, R178, R185, Table 4-12). -/

namespace Sys2Proof.Machine

/-! ### One launch changed after another -/

theorem State.tfind_of_inSlot {s : State} {a : SlotId} {id : Nat} {l : Launch} (h : s.inSlot a = some (id, l)) :
    tfind s.launches id = some l := by
  unfold State.inSlot at h
  split at h
  · cases h
  · obtain ⟨x, hx, hp⟩ := Option.map_eq_some_iff.mp h
    obtain ⟨rfl, rfl⟩ := Prod.mk.inj hp
    exact hx

theorem State.modLaunch_of_tfind {s : State} {id : Nat} {l : Launch} (h : tfind s.launches id = some l)
    (f : Launch → Launch) : s.modLaunch id f = s.setLaunch id (f l) := by
  unfold State.modLaunch
  rw [h]

theorem State.modExec_of_tfind {s : State} {id : Nat} {l : Launch} (h : tfind s.launches id = some l) (f : Exec → Exec) :
    s.modExec id f = s.setLaunch id { l with x := f l.x } :=
  State.modLaunch_of_tfind h _

/-- What a bank becomes, written as what the launch becomes. -/
theorem State.modBank_of_tfind {s : State} {id : Nat} {l : Launch} (h : tfind s.launches id = some l) (j b : Nat)
    (f : Bank → Bank) :
    s.modBank id j b f = s.setLaunch id { l with x := l.x.modArr j fun A => A.setBank b (f (A.bank b)) } :=
  State.modLaunch_of_tfind h _

/-- What a weight buffer becomes, written as what the launch becomes. -/
theorem State.modBuf_of_tfind {s : State} {id : Nat} {l : Launch} (h : tfind s.launches id = some l) (j b : Nat)
    (f : Weight → Weight) :
    s.modBuf id j b f = s.setLaunch id { l with x := l.x.modArr j fun A => A.setBuf b (f (A.buf b)) } :=
  State.modLaunch_of_tfind h _

@[simp] theorem State.tfind_setLaunch (s : State) (id : Nat) (l : Launch) : tfind (s.setLaunch id l).launches id = some l :=
  tfind_tput ..

@[simp] theorem State.modLaunch_setLaunch (s : State) (id : Nat) (l : Launch) (f : Launch → Launch) :
    (s.setLaunch id l).modLaunch id f = s.setLaunch id (f l) := by
  rw [State.modLaunch_of_tfind (s.tfind_setLaunch id l), State.setLaunch_setLaunch]

@[simp] theorem State.modExec_setLaunch (s : State) (id : Nat) (l : Launch) (f : Exec → Exec) :
    (s.setLaunch id l).modExec id f = s.setLaunch id { l with x := f l.x } :=
  s.modLaunch_setLaunch id l _

@[simp] theorem State.modRegs_setLaunch (s : State) (id : Nat) (l : Launch) (f : Regs → Regs) :
    (s.setLaunch id l).modRegs id f = s.setLaunch id { l with x := { l.x with regs := f l.x.regs } } :=
  s.modLaunch_setLaunch id l _

@[simp] theorem State.modBank_setLaunch (s : State) (id : Nat) (l : Launch) (j b : Nat) (f : Bank → Bank) :
    (s.setLaunch id l).modBank id j b f =
      s.setLaunch id { l with x := l.x.modArr j fun A => A.setBank b (f (A.bank b)) } :=
  s.modLaunch_setLaunch id l _

@[simp] theorem State.engine_modEngine (s : State) (e : Nat) (f : Engine → Engine) :
    (s.modEngine e f).engine e = f (s.engine e) :=
  s.engine_setEngine e _

theorem State.engine_modEngine_ne (s : State) {k e : Nat} (f : Engine → Engine) (h : k ≠ e) :
    (s.modEngine e f).engine k = s.engine k :=
  s.engine_setEngine_ne _ h

/-! ### Arrays and banks of a launch -/

theorem getD_lmod {α : Type} {xs : List α} {i : Nat} (f : α → α) (d : α) (h : i < xs.length) :
    (lmod xs i f).getD i d = f (xs.getD i d) := by
  induction xs generalizing i with
  | nil => exact absurd h (Nat.not_lt_zero i)
  | cons x xs ih =>
    cases i with
    | zero => rfl
    | succ i => exact ih (Nat.lt_of_succ_lt_succ h)

theorem Exec.arr_modArr {x : Exec} {j : Nat} (f : LArray → LArray) (h : j < x.arrs.length) :
    (x.modArr j f).arr j = f (x.arr j) :=
  getD_lmod f _ h

@[simp] theorem LArray.bank_setBank (a : LArray) (b : Nat) (w : Bank) : (a.setBank b w).bank b = w := by
  unfold LArray.bank LArray.setBank
  split <;> rfl

theorem Exec.bank_modArr_setBank {x : Exec} {j : Nat} (b : Nat) (w : Bank) (h : j < x.arrs.length) :
    ((x.modArr j fun A => A.setBank b w).arr j).bank b = w := by
  rw [Exec.arr_modArr _ h, LArray.bank_setBank]

/-! ### Saturations and flushes -/

/-- Saturations reach a count of the slot and one of the engine, and nothing else (R73, R93). -/
theorem State.addSat_setLaunch (s : State) (id : Nat) (l : Launch) (e n : Nat) : ∃ engines count,
    (s.setLaunch id l).addSat id e n = { s with engines := engines }.setLaunch id
      { l with x := { l.x with regs := { l.x.regs with intSat := count } } } := by
  unfold State.addSat
  split
  · exact ⟨s.engines, l.x.regs.intSat, rfl⟩
  · rw [State.modRegs_setLaunch]
    exact ⟨tput s.engines e _, bump l.x.regs.intSat n, rfl⟩

/-- Flushed products reach a count of the slot and one of the engine, and nothing else (R79). -/
theorem State.addFlush_setLaunch (s : State) (id : Nat) (l : Launch) (e n : Nat) : ∃ engines count,
    (s.setLaunch id l).addFlush id e n = { s with engines := engines }.setLaunch id
      { l with x := { l.x with regs := { l.x.regs with flush := count } } } := by
  unfold State.addFlush
  split
  · exact ⟨s.engines, l.x.regs.flush, rfl⟩
  · rw [State.modRegs_setLaunch]
    exact ⟨tput s.engines e _, bump l.x.regs.flush n, rfl⟩

/-! ### Landing and completion points (R159) -/

/-- An instruction without a signal only leaves the list of those in flight. -/
theorem State.landed_of_noSignal {f : InFlight} (hf : f.signal = none) (s : State) (id n src : Nat) :
    s.landed id n src f = s.modExec id fun x => { x with inflight := x.inflight.eraseIdx n } := by
  unfold State.landed
  rw [hf]

theorem State.landed_setLaunch {f : InFlight} (hf : f.signal = none) (s : State) (id n src : Nat) (l : Launch) :
    (s.setLaunch id l).landed id n src f =
      s.setLaunch id { l with x := { l.x with inflight := l.x.inflight.eraseIdx n } } := by
  rw [State.landed_of_noSignal hf, State.modExec_setLaunch]

/-- A launch that has stopped on nothing and is not starting lets its instructions go on. -/
theorem exec_instructionCompletionPoint {s : State} {a : SlotId} {id n : Nat} {l : Launch} {f : InFlight}
    (hup : s.up = true) (hslot : s.inSlot a = some (id, l)) (hseg : l.segStop = none) (hcap : l.capWait = none)
    (hrec : l.recovery = false) (hst : l.status ≠ .starting) (hf : l.x.inflight[n]? = some f) :
    exec (.instructionCompletionPoint a n) s = .next (s.complete id n a.engine l f) := by
  refine congrArg Host.Outcome.next ((State.work_of_up hup _).trans ?_)
  simp [hslot, hseg, hcap, hrec, hst, hf]

section
variable {s : State} {id n e j b : Nat} {l : Launch} {f : InFlight}

theorem State.complete_load (h : f.eff = .load j b false) : s.complete id n e l f =
    (s.modBuf id j b fun w => { w with loaded := true, loading := false }).landed id n (queueSrc e 0) f := by
  rw [State.complete, h]
  rfl

theorem State.complete_window {L : Int} (h : f.eff = .window j b L) : s.complete id n e l f =
    (s.modBank id j b fun _ => { state := .windowed, L := L, wx := true }).landed id n (queueSrc e 0) f := by
  rw [State.complete, h]

theorem State.complete_drain (h : f.eff = .drain j b) : s.complete id n e l f =
    (s.modBank id j b fun _ => emptyBank).landed id n (queueSrc e 0) f := by
  rw [State.complete, h]

theorem State.complete_send {dest : W64} {p : Partial} (h : f.eff = .send j b dest p) :
    s.complete id n e l f = s.runCred id n e l f j b dest p := by
  rw [State.complete, h]

theorem State.complete_enqueue {off q ss : Nat} (h : f.eff = .enqueue off q ss) :
    s.complete id n e l f = s.runEnq id n e l f off q ss := by
  rw [State.complete, h]

end

/-! ### The commit of a pass (R99 to R102, R119) -/

theorem exec_passCommit {s : State} {a : SlotId} {id n j b w r0 : Nat} {l : Launch} {f : InFlight} {starts ri : Bool}
    {sums : List (List AccSt)} (hup : s.up = true) (hslot : s.inSlot a = some (id, l))
    (hold : l.x.oldestPass j = some (n, f)) (heff : f.eff = .pass j b w r0 starts sums ri) :
    exec (.passCommit a j true) s = .next
      (let r := ((l.x.arr j).bank b).commit r0 starts sums
       ((((s.arrayWorked a.engine (l.phys j)).modBank id j b fun _ => r.1).addSat id a.engine r.2.1).addFlush
         id a.engine r.2.2).landed id n (queueSrc a.engine 0) f) := by
  refine congrArg Host.Outcome.next ((State.work_of_up hup _).trans ?_)
  simp [hslot, hold, heff]

@[simp] theorem State.arrayWorked_launches (s : State) (e p : Nat) : (s.arrayWorked e p).launches = s.launches := rfl
@[simp] theorem State.arrayWorked_mem (s : State) (e p : Nat) : (s.arrayWorked e p).mem = s.mem := rfl
@[simp] theorem State.arrayWorked_ctxs (s : State) (e p : Nat) : (s.arrayWorked e p).ctxs = s.ctxs := rfl

@[simp] theorem State.checkRetry_launches (s : State) (e src : Nat) (tag : BitVec 16) :
    (s.checkRetry e src tag).launches = s.launches := rfl
@[simp] theorem State.checkRetry_mem (s : State) (e src : Nat) (tag : BitVec 16) :
    (s.checkRetry e src tag).mem = s.mem := rfl
@[simp] theorem State.checkRetry_ctxs (s : State) (e src : Nat) (tag : BitVec 16) :
    (s.checkRetry e src tag).ctxs = s.ctxs := rfl

@[simp] theorem State.checkRetry_counted (s : State) (e src : Nat) (tag : BitVec 16) :
    ((s.checkRetry e src tag).engine e).ctr.checkRetry = bump (s.engine e).ctr.checkRetry 1 :=
  congrArg (·.ctr.checkRetry) (s.engine_modEngine e fun x =>
    { x with ctr := { x.ctr with checkRetry := bump x.ctr.checkRetry 1 } })

@[simp] theorem State.arrayWorked_checkRetry (s : State) (e p : Nat) :
    ((s.arrayWorked e p).engine e).ctr.checkRetry = (s.engine e).ctr.checkRetry :=
  congrArg (·.ctr.checkRetry) (s.free.2.engine_modEngine e _)

/-- The first disagreement counts and reports a retry, and marks the pass as reissued (R100, R102). -/
theorem exec_passCommit_firstDisagreement {s : State} {a : SlotId} {id n j b w r0 : Nat} {l : Launch} {f : InFlight}
    {starts : Bool} {sums : List (List AccSt)} (hup : s.up = true) (hslot : s.inSlot a = some (id, l))
    (hold : l.x.oldestPass j = some (n, f)) (heff : f.eff = .pass j b w r0 starts sums false) :
    exec (.passCommit a j false) s = .next
      (((s.arrayWorked a.engine (l.phys j)).checkRetry a.engine (engSrc a.engine (l.phys j))
          ((s.arrayWorked a.engine (l.phys j)).tag l.ctx)).setLaunch id { l with x := { l.x with
        inflight := lmod l.x.inflight n fun g => { g with eff := .pass j b w r0 starts sums true } } }) := by
  have hl : tfind ((s.arrayWorked a.engine (l.phys j)).checkRetry a.engine (engSrc a.engine (l.phys j))
      ((s.arrayWorked a.engine (l.phys j)).tag l.ctx)).launches id = some l := by
    rw [State.checkRetry_launches, State.arrayWorked_launches, State.tfind_of_inSlot hslot]
  refine congrArg Host.Outcome.next ((State.work_of_up hup _).trans ?_)
  simp only [hslot, hold, heff, Bool.false_eq_true, if_false]
  exact State.modExec_of_tfind hl _

/-- The state of a pass that commits: its bank, the slot's two counts of arithmetic, the engine's counters and the free
value that stands for its cycles have changed. -/
theorem State.passCommit_eq {s : State} {id n j b e p : Nat} {l : Launch} {f : InFlight} (hl : tfind s.launches id = some l)
    (hf : f.signal = none) (new : Bank) (sat flush src : Nat) : ∃ engines sats flushes,
    ((((s.arrayWorked e p).modBank id j b fun _ => new).addSat id e sat).addFlush id e flush).landed id n src f =
      { s with freeCtr := s.freeCtr + 1, engines := engines }.setLaunch id
        { l with x := { l.x.modArr j (fun A => A.setBank b new) with
          regs := { l.x.regs with intSat := sats, flush := flushes }, inflight := l.x.inflight.eraseIdx n } } := by
  have hw : tfind (s.arrayWorked e p).launches id = some l := hl
  rw [State.modBank_of_tfind hw]
  obtain ⟨engines, sats, hsat⟩ := (s.arrayWorked e p).addSat_setLaunch id
    { l with x := l.x.modArr j fun A => A.setBank b new } e sat
  rw [hsat]
  obtain ⟨engines', flushes, hflush⟩ := State.addFlush_setLaunch { s.arrayWorked e p with engines := engines } id
    { l with x := { l.x.modArr j (fun A => A.setBank b new) with regs := { l.x.regs with intSat := sats } } } e flush
  refine ⟨engines', sats, flushes, ?_⟩
  refine (congrArg (fun t : State => t.landed id n src f) hflush).trans ?_
  rw [State.landed_setLaunch hf]
  rfl

/-! ### CRED: the partial leaves and the bank is empty (R192 to R194) -/

theorem Launch.redoOf_nil {l : Launch} (h : l.redo = []) (enq : Bool) : l.redoOf enq = none := by
  unfold Launch.redoOf
  rw [h]
  rfl

theorem Launch.doneCount_nil {l : Launch} (h : l.done = []) (enq : Bool) : l.doneCount enq = 0 := by
  unfold Launch.doneCount
  rw [h]
  rfl

/-- A partial for an engine combiner of this hub goes straight to its input. -/
theorem State.sendPartial_combiner {dest : W64} (s : State) (id : Nat) (p : Partial) (hu : fld dest.toNat 7 0 < 16)
    (hh : fld dest.toNat 31 16 = 0xFFFF) :
    s.sendPartial id dest p = s.modEngine (fld dest.toNat 7 0) fun x => { x with inbox := x.inbox ++ [p] } := by
  have hn : ¬16 ≤ fld dest.toNat 7 0 := Nat.not_le.mpr hu
  simp [State.sendPartial, hu, hn, hh]

/-- A CRED that no replay has to pass over is recorded, lands, and sends its partial. -/
theorem State.runCred_first {s : State} {id n e j b : Nat} {l : Launch} {f : InFlight} (dest : W64) (p : Partial)
    (hl : tfind s.launches id = some l) (hf : f.signal = none) (hredo : l.redo = []) (hdone : l.done = []) :
    s.runCred id n e l f j b dest p = (s.setLaunch id { l with
      done := [.cred],
      x := { l.x.modArr j (fun A => A.setBank b {}) with inflight := l.x.inflight.eraseIdx n } }).sendPartial id dest p := by
  simp only [State.runCred, Launch.redoOf_nil hredo, Launch.doneCount_nil hdone, State.modLaunch_of_tfind hl,
    State.modBank_setLaunch, State.landed_setLaunch hf, hdone]
  rfl

/-! ### ENQ: the packet, the doorbell and the answer (R259 to R263) -/

theorem State.storeRead_inside {s : State} {e c off n : Nat} (h : off + n ≤ (s.allotSpan e c).2) :
    s.storeRead e c off n = (mreadN (s.engine e).store ((s.allotSpan e c).1 + off) n, {}) := by
  have hin : min n ((s.allotSpan e c).2 - off) = n := by omega
  have hv : violStore (s.allotSpan e c).2 off n 0 = {} := if_pos (.inr h)
  simp [State.storeRead, hin, hv]

/-- A line written with access code 5 reaches memory and nothing else. -/
theorem State.writeLine_done {s t : State} {w : Who} {refused : List Nat} {va : Nat} {bs : List Byte} {host : Bool}
    (hw : w.acc = 5) (h : s.writeLine w refused va bs = .done t host) :
    ∃ mem hostMem, t = { s with mem := mem, hostMem := hostMem } := by
  unfold State.writeLine at h
  split at h
  next toHost addr _ =>
    rw [if_neg (by simp [hw])] at h
    obtain ⟨rfl, rfl⟩ := WriteRes.done.inj h
    cases toHost
    · exact ⟨_, _, rfl⟩
    · exact ⟨_, _, rfl⟩
  next => cases h
  next => split at h <;> cases h
  next => cases h

theorem State.chargeBytes_onlyCtxs (s : State) (c dev host : Nat) :
    ∃ ctxs, s.chargeBytes c dev host = { s with ctxs := ctxs } := by
  unfold State.chargeBytes
  split
  · exact ⟨_, rfl⟩
  · exact ⟨_, rfl⟩

/-- Charging a launch changes its own counts and those of its context. -/
theorem State.chargeMoved_of_tfind {s : State} {id : Nat} {l : Launch} (h : tfind s.launches id = some l) (dev host : Nat) :
    ∃ ctxs om oh cm ch, s.chargeMoved id dev host = { s with ctxs := ctxs }.setLaunch id
      { l with owedMem := om, owedHost := oh, chMem := cm, chHost := ch } := by
  unfold State.chargeMoved
  rw [h]
  obtain ⟨ctxs, hc⟩ := State.chargeBytes_onlyCtxs (s.setLaunch id
    { l with owedMem := l.owedMem - dev, owedHost := l.owedHost - host, chMem := l.chMem + (dev - l.owedMem),
             chHost := l.chHost + (host - l.owedHost) }) l.ctx (dev - l.owedMem) (host - l.owedHost)
  exact ⟨ctxs, _, _, _, _, hc⟩

@[simp] theorem Queue.wake_tail (q : Queue) : q.wake.tail = q.tail := by
  unfold Queue.wake
  split <;> rfl

@[simp] theorem Queue.wake_dbPending (q : Queue) : q.wake.dbPending = q.dbPending := by
  unfold Queue.wake
  split <;> rfl

@[simp] theorem State.queue_setQueue (s : State) (qi : Nat) (y : Queue) : (s.setQueue qi y).queue qi = y := by
  simp [State.queue, State.setQueue, State.modCtx, Context.queue, Context.setQueue]

/-- An accepted doorbell writes TAIL and sets DB_PENDING; it touches the front end's counters and the contexts only. -/
theorem State.ring_spec (s : State) (qi v : Nat) : ∃ fe ctxs, s.ring qi v = { s with fe := fe, ctxs := ctxs } ∧
    ((s.ring qi v).queue qi).tail = v ∧ ((s.ring qi v).queue qi).dbPending = true := by
  refine ⟨_, _, rfl, ?_⟩
  rw [State.ring, State.queue_setQueue]
  split
  · exact ⟨Queue.wake_tail _, Queue.wake_dbPending _⟩
  · exact ⟨rfl, rfl⟩

/-- After a charge and a doorbell the launch has only other counts of bytes, and memory stays. -/
theorem State.chargeMoved_ring {s : State} {id : Nat} {l : Launch} (h : tfind s.launches id = some l)
    (dev host qi v : Nat) : ∃ om oh cm ch,
      tfind ((s.chargeMoved id dev host).ring qi v).launches id =
        some { l with owedMem := om, owedHost := oh, chMem := cm, chHost := ch } ∧
      ((s.chargeMoved id dev host).ring qi v).mem = s.mem := by
  obtain ⟨ctxs, om, oh, cm, ch, hcharge⟩ := State.chargeMoved_of_tfind h dev host
  obtain ⟨fe, ctxs', hring, -⟩ := (s.chargeMoved id dev host).ring_spec qi v
  rw [hring, hcharge]
  exact ⟨om, oh, cm, ch, State.tfind_setLaunch .., rfl⟩

theorem State.queue_eq {s : State} {c q : Nat} (hq : q < 8) : s.queue (8 * c + q) = (s.ctx c).queue q := by
  have hc : (8 * c + q) / 8 = c := by omega
  have hm : (8 * c + q) % 8 = q := by omega
  rw [State.queue, hc, hm]

theorem Regs.getS_setS {ss : Nat} (r : Regs) (v : Nat) (h : ss ≠ 0) : (r.setS ss v).getS ss = v % 2 ^ 64 := by
  simp [Regs.getS, Regs.setS, h]

theorem State.enqDone_of_tfind {s : State} {id : Nat} {l : Launch} {f : InFlight} (h : tfind s.launches id = some l)
    (hf : f.signal = none) (n e ss v : Nat) : s.enqDone id n e ss f v = s.setLaunch id
      { l with done := l.done ++ [.enq v],
               x := { l.x with regs := l.x.regs.setS ss v, inflight := l.x.inflight.eraseIdx n } } := by
  rw [State.enqDone, State.modLaunch_of_tfind h, State.modRegs_setLaunch, State.landed_setLaunch hf]

/-- An ENQ whose packet lies in the allotment, fits the ring, and is written to device memory: it is charged, the
doorbell rings, and the answer is 0. -/
theorem State.runEnq_accepted {s t : State} {id n e off q ss : Nat} {l : Launch} {f : InFlight} (hq : q < 8)
    (hredo : l.redo = []) (hdone : l.done = []) (hoff : off + 16 ≤ (s.allotSpan e l.ctx).2)
    (hfit : ahead32 ((s.ctx l.ctx).queue q).head ((s.ctx l.ctx).queue q).tail + 16 ≤ 2 ^ ((s.ctx l.ctx).queue q).sizeLog2)
    (hw : s.writeLine ⟨l.ctx, 5, ⟨0, 0⟩, []⟩ l.segRefused
      (((s.ctx l.ctx).queue q).ringVa + ((s.ctx l.ctx).queue q).tail % 2 ^ ((s.ctx l.ctx).queue q).sizeLog2)
      (mreadN (s.engine e).store ((s.allotSpan e l.ctx).1 + off) 16) = .done t false) :
    s.runEnq id n e l f off q ss = ((t.chargeMoved id 16 0).ring (8 * l.ctx + q)
      ((((s.ctx l.ctx).queue q).tail + 16) % 2 ^ 32)).enqDone id n e ss f 0 := by
  have hsettle : s.settle id (queueSrc e 3) {} = s := if_pos rfl
  have hcount : ¬4096 ≤ l.doneCount true := by rw [Launch.doneCount_nil hdone]; decide
  simp only [State.runEnq, Launch.redoOf_nil hredo, if_neg hcount, State.storeRead_inside hoff, hsettle, State.queue_eq hq,
    if_neg (Nat.not_lt.mpr hfit), hw]
  rfl

/-! ### A combiner takes a partial (R195) -/

theorem exec_combinerPartial {s : State} {e : Nat} {p : Partial} {rest : List Partial} (hup : s.up = true)
    (hst : (s.engine e).state ≠ 4) (hin : (s.engine e).inbox = p :: rest) : exec (.combinerPartial e) s =
      .next ((s.setEngine e { s.engine e with inbox := rest }).combinerTake e p) := by
  refine congrArg Host.Outcome.next ((State.work_of_up hup _).trans ((if_neg hst).trans ?_))
  simp only [hin]

/-- Two partials are combined only when one lies left of the other; a single one stays as it is. -/
theorem combineAll_single {p : Partial} (n : Nat) (h : p.leftOf p = false) : combineAll n [p] = ([p], 0, 0) := by
  cases n with
  | zero => rfl
  | succ n => simp [combineAll, h]

theorem joinPartial_noMate {held : List Partial} {p : Partial} (hm : ∀ q ∈ held, p.mates q = false)
    (hl : p.leftOf p = false) : joinPartial held p = some (held ++ [p], 0, 0) := by
  have hmates : held.filter p.mates = [] := List.filter_eq_nil_iff.mpr fun q hq => by simp [hm q hq]
  have hothers : (held.filter fun q => !p.mates q) = held := List.filter_eq_self.mpr fun q hq => by simp [hm q hq]
  simp [joinPartial, hmates, hothers, combineAll_single 64 hl]

/-- A partial of a LIVE context that has no mate and is not the whole range is held. -/
theorem State.combinerTake_noMate {s : State} {e : Nat} {p : Partial} (hlive : s.tagLive p.owner = true)
    (hm : ∀ q ∈ (s.engine e).held, p.mates q = false) (hwhole : p.whole = false) (hl : p.leftOf p = false) :
    s.combinerTake e p = s.modEngine e fun x =>
      { x with held := (s.engine e).held ++ [p], ctr := { x.ctr with intSat := bump x.ctr.intSat 0 } } := by
  have hfind : (((s.engine e).held ++ [p]).find? fun q => p.mates q && q.whole) = none := by
    refine List.find?_eq_none.mpr fun q hq => ?_
    rcases List.mem_append.mp hq with hq | hq
    · simp [hm q hq]
    · simp [List.mem_singleton.mp hq, hwhole]
  simp only [State.combinerTake, hlive, joinPartial_noMate hm hl, hfind]
  rfl

/-! ### The obligation -/

/-- Settles O42: each clause follows the one launch, bank, queue or combiner that its completion point changes. -/
theorem completionPoints : Obligations.CompletionPoints := by
  refine ⟨?agree, ?disagree, ?landing, ?send, ?enqueue, ?combiner⟩
  case agree =>
    intro s a id n j b w r0 l f starts ri sums hup hslot hold heff hsig hj
    obtain ⟨engines, sats, flushes, ht⟩ := State.passCommit_eq (n := n) (j := j) (b := b) (e := a.engine) (p := l.phys j)
      (State.tfind_of_inSlot hslot) hsig (((l.x.arr j).bank b).commit r0 starts sums).1
      (((l.x.arr j).bank b).commit r0 starts sums).2.1 (((l.x.arr j).bank b).commit r0 starts sums).2.2 (queueSrc a.engine 0)
    refine ⟨_, _, (exec_passCommit hup hslot hold heff).trans (congrArg _ ht), State.tfind_setLaunch ..,
      Exec.bank_modArr_setBank b _ hj, rfl, rfl, rfl, rfl, rfl, rfl⟩
  case disagree =>
    intro s a id n j b w r0 l f starts sums hup hslot hold heff
    refine ⟨_, _, exec_passCommit_firstDisagreement hup hslot hold heff, State.tfind_setLaunch .., rfl, rfl,
      ?_, ?_, ?_⟩
    · rw [State.engine_setLaunch, State.checkRetry_counted, State.arrayWorked_checkRetry]
    · rw [State.setLaunch_mem, State.checkRetry_mem, State.arrayWorked_mem]
    · rw [State.setLaunch_ctxs, State.checkRetry_ctxs, State.arrayWorked_ctxs]
  case landing =>
    intro s a id n j b l f hup hslot hseg hcap hrec hst hf hsig
    have hl := State.tfind_of_inSlot hslot
    rw [exec_instructionCompletionPoint hup hslot hseg hcap hrec hst hf]
    refine ⟨fun heff => ?_, fun L heff => ?_, fun heff => ?_⟩
    · rw [State.complete_load heff, State.modBuf_of_tfind hl, State.landed_setLaunch hsig]
      rfl
    · rw [State.complete_window heff, State.modBank_of_tfind hl, State.landed_setLaunch hsig]
      rfl
    · rw [State.complete_drain heff, State.modBank_of_tfind hl, State.landed_setLaunch hsig]
      rfl
  case send =>
    intro s a id n j b l f dest p hup hslot hseg hcap hrec hst hf hsig heff hredo hdone hu hh hj
    have hcred := State.runCred_first (n := n) (e := a.engine) (j := j) (b := b) dest p (State.tfind_of_inSlot hslot) hsig
      hredo hdone
    refine ⟨_, _, (exec_instructionCompletionPoint hup hslot hseg hcap hrec hst hf).trans (congrArg _
      ((State.complete_send heff).trans (hcred.trans (State.sendPartial_combiner _ id p hu hh)))),
      congrArg (·.inbox) (State.engine_modEngine ..), State.tfind_setLaunch ..,
      Exec.bank_modArr_setBank b _ hj, rfl, rfl, rfl, rfl⟩
  case enqueue =>
    intro s a id n off q ss l f t0 hup hslot hseg hcap hrec hst hf hsig heff hq hredo hdone hss hoff hfit hw
    obtain ⟨mem, hostMem, ht⟩ := State.writeLine_done rfl hw
    have hl : tfind t0.launches id = some l := ht ▸ State.tfind_of_inSlot hslot
    obtain ⟨om, oh, cm, ch, hlaunch, hmem⟩ := State.chargeMoved_ring hl 16 0 (8 * l.ctx + q)
      ((((s.ctx l.ctx).queue q).tail + 16) % 2 ^ 32)
    obtain ⟨-, -, -, htail, hpending⟩ := (t0.chargeMoved id 16 0).ring_spec (8 * l.ctx + q)
      ((((s.ctx l.ctx).queue q).tail + 16) % 2 ^ 32)
    rw [State.queue_eq hq] at htail hpending
    refine ⟨_, _, (exec_instructionCompletionPoint hup hslot hseg hcap hrec hst hf).trans (congrArg _
      ((State.complete_enqueue heff).trans ((State.runEnq_accepted hq hredo hdone hoff hfit hw).trans
        (State.enqDone_of_tfind hlaunch hsig n a.engine ss 0)))), hmem, htail, hpending, State.tfind_setLaunch ..,
      Regs.getS_setS _ 0 hss, rfl, congrArg (· ++ [DoneOnce.enq 0]) hdone⟩
  case combiner =>
    intro s e p rest hup hst hin hlive hm hwhole hl
    have hheld : ((s.setEngine e { s.engine e with inbox := rest }).engine e).held = (s.engine e).held := by
      rw [State.engine_setEngine]
    have htake := State.combinerTake_noMate (s := s.setEngine e { s.engine e with inbox := rest }) hlive (hheld ▸ hm)
      hwhole hl
    refine ⟨_, (exec_combinerPartial hup hst hin).trans (congrArg _ htake), ?_, ?_, ?_, fun k hk => ?_, rfl⟩
    · rw [State.engine_modEngine, State.engine_setEngine]
    · rw [State.engine_modEngine, hheld]
    · rw [State.engine_modEngine, State.engine_setEngine]
    · rw [State.engine_modEngine_ne _ _ hk, State.engine_setEngine_ne _ _ hk]

end Sys2Proof.Machine
end

section
/-! The tensor engine family (chapter 3): the life of a launch in its slot (R111, R125, R136 to R149, R218, R866). -/

namespace Sys2Proof.Machine

/-! ### Code fetch (R218) -/

/-- A launch that owes nothing from a failed attempt is charged all that it moves (R510, R513). -/
theorem State.chargeMoved_owesNothing {s : State} {id : Nat} {l : Launch} (hl : tfind s.launches id = some l)
    (hm : l.owedMem = 0) (hh : l.owedHost = 0) (dev host : Nat) : ∃ ctxs, s.chargeMoved id dev host =
      { s with ctxs := ctxs }.setLaunch id { l with chMem := l.chMem + dev, chHost := l.chHost + host } := by
  obtain ⟨ctxs, hbytes⟩ := (s.setLaunch id { l with chMem := l.chMem + dev, chHost := l.chHost + host
    }).chargeBytes_onlyCtxs l.ctx dev host
  refine ⟨ctxs, Eq.trans ?_ hbytes⟩
  obtain ⟨⟩ := l
  subst hm hh
  simp [State.chargeMoved, hl]

theorem State.settle_noViolation {v : Viol} (hv : v.lines = 0) (s : State) (id src : Nat) : s.settle id src v = s :=
  if_pos hv

theorem exec_codeFetch {s : State} {a : SlotId} {id : Nat} {l : Launch} {r : ReadRes} (hup : s.up = true)
    (hslot : s.inSlot a = some (id, l)) (hrun : l.status = .running) (hword : l.x.wordAt = none) (hheld : l.x.held = false)
    (hq : l.qwait = none) (hseg : l.segStop = none)
    (hr : s.readVa (s.whoLaunch l 2) l.segRefused (l.x.pc - l.x.pc % 64) 64 = r) (hstop : r.stop = none)
    (hv : r.viol.lines = 0) : exec (.codeFetch a) s = .next ((s.chargeMoved id r.dev r.host).modLaunch id fun l' =>
      { l' with x := { l'.x with line := some (l.x.pc - l.x.pc % 64, r.bytes) }, segRefused := [] }) := by
  subst hr
  refine congrArg Host.Outcome.next ((State.work_of_up hup _).trans ?_)
  simp only [hslot, hrun, hword, hheld, hq, hseg, hstop, State.settle_noViolation hv]
  rfl

/-! ### Folding (R111) -/

theorem getD_map_zipIdx {α β : Type} {xs : List α} {k : Nat} (g : α × Nat → β) (d : α) (d' : β) (h : k < xs.length) :
    (xs.zipIdx.map g).getD k d' = g (xs.getD k d, k) := by
  simp [h]

/-- The logical arrays of a launch once array `j` is resident in its physical array and its mates are not. -/
def Launch.swapIn (l : Launch) (j : Nat) (x : Exec) : Exec :=
  { x with arrs := x.arrs.zipIdx.map fun p =>
      if l.phys p.2 == l.phys j then { p.1 with resident := p.2 == j } else p.1 }

theorem Launch.swapIn_length (l : Launch) (j : Nat) (x : Exec) : (l.swapIn j x).arrs.length = x.arrs.length := by
  simp [Launch.swapIn]

theorem Launch.arr_swapIn (l : Launch) (j : Nat) {x : Exec} {k : Nat} (hk : k < x.arrs.length) :
    (l.swapIn j x).arr k =
      { (x.arr k) with resident := if l.phys k = l.phys j then decide (k = j) else (x.arr k).resident } := by
  simp only [Exec.arr, Launch.swapIn, getD_map_zipIdx _ ({} : LArray) _ hk]
  by_cases hmate : l.phys k = l.phys j
  · simp [hmate, beq_eq_decide]
  · simp [hmate]

theorem exec_foldSwap {s : State} {a : SlotId} {id j : Nat} {l : Launch} (hup : s.up = true)
    (hslot : s.inSlot a = some (id, l)) (hj : j < l.x.arrs.length) (hres : (l.x.arr j).resident = false)
    (hquiet : ∀ k, k < l.x.arrs.length → l.phys k = l.phys j → l.x.arrayQuiet k = true) :
    exec (.foldSwap a j) s = .next (s.setLaunch id { l with x := l.swapIn j l.x }) := by
  have hmates : (((List.range l.x.arrs.length).filter fun k => l.phys k == l.phys j).all l.x.arrayQuiet) = true := by
    simp only [List.all_eq_true, List.mem_filter, List.mem_range, beq_iff_eq]
    exact fun k hk => hquiet k hk.1 hk.2
  refine congrArg Host.Outcome.next ((State.work_of_up hup _).trans ?_)
  simp only [hslot, hres, hmates, decide_eq_false (Nat.not_le.mpr hj), Bool.or_self, Bool.not_true, Bool.false_eq_true,
    if_false]
  exact State.modExec_of_tfind (State.tfind_of_inSlot hslot) _

/-! ### A launch leaves its slot (R113, R125, R144, R493) -/

/-- A launch charged for its engine time up to `now` (R471). -/
def Launch.charged (l : Launch) (now owed ch : Nat) : Launch :=
  { l with chargedAt := now, owedTime := owed, chTime := ch }

/-- A launch out of its slot: it holds no array and no fold region, and its fetched line is dropped (R113). -/
def Launch.moved (l : Launch) (p : Place) : Launch :=
  { l with place := p, stop := none, bound := [], fold := none, x := { l.x with line := none } }

/-- Charging a launch in a slot changes its own counts of time and its context's account (R471). -/
theorem State.chargeLaunch_inSlot {s : State} {id e n : Nat} {l : Launch} (hl : tfind s.launches id = some l)
    (hp : l.place = .slot e n) : ∃ ctxs owed ch, s.chargeLaunch id =
      { s with ctxs := ctxs }.setLaunch id (l.charged s.now owed ch) := by
  simp only [State.chargeLaunch, hl, hp, Launch.charged]
  exact ⟨_, _, _, rfl⟩

/-- The slot is free; of the rest of its engine only a scrub of the fold region is new. -/
theorem State.freeSlot_freeFold {l : Launch} {e n : Nat} (hp : l.place = .slot e n) (s : State) : ∃ y,
    (s.freeFold l).freeSlot l = s.setEngine e y ∧ tfind y.slots n = none ∧ y.ctr = (s.engine e).ctr := by
  simp only [State.freeSlot, State.freeFold, hp]
  cases l.fold with
  | none => exact ⟨_, rfl, tfind_tdel .., rfl⟩
  | some f =>
    refine ⟨_, State.setEngine_setEngine .., tfind_tdel .., ?_⟩
    rw [State.engine_modEngine]

/-- The image of a launch goes to the lowest free place of the park store, where there is one, and its slot, arrays and
fold region are released. -/
theorem State.storeImage_setLaunch {l : Launch} {e n : Nat} (hp : l.place = .slot e n) (s : State) (id : Nat)
    (place : Nat → Option Nat → Place) : ∃ y,
      (s.setLaunch id l).storeImage id l place = (s.setEngine e y).setLaunch id (l.moved (place e (s.freePark e))) ∧
      tfind y.slots n = none ∧ y.ctr = (s.engine e).ctr ∧
      ∀ k, s.freePark e = some k → (tfind y.parks k).map (·.launch) = some id := by
  obtain ⟨y, hfree, hslots, hctr⟩ := State.freeSlot_freeFold hp (s.setLaunch id l)
  have hpark : (s.setLaunch id l).freePark e = s.freePark e := rfl
  simp only [State.storeImage, hp, hfree, hpark]
  cases s.freePark e with
  | none => exact ⟨y, State.modLaunch_setLaunch (s.setEngine e y) id l _, hslots, hctr, by simp⟩
  | some k =>
    simp only [State.modEngine, State.engine_setEngine, State.setEngine_setEngine]
    refine ⟨_, State.modLaunch_setLaunch (s.setEngine e _) id l _, hslots, hctr, ?_⟩
    rintro _ ⟨⟩
    rw [tfind_tput]
    rfl

/-- The place of a launch that has been pre-empted: one that waits on its queue parks where there is room (R144, R493). -/
def Launch.preemptedTo (l : Launch) (e : Nat) (park : Option Nat) : Place :=
  match park with
  | some n => if l.qwait.isSome then .parked e n else .preempted e park
  | none => .preempted e none

theorem Launch.preemptedTo_notWaiting {l : Launch} (h : l.qwait = none) (e n : Nat) :
    l.preemptedTo e (some n) = .preempted e (some n) := by
  simp [Launch.preemptedTo, h]

/-- A pre-emption is counted for its context and for its partition (Table 10-4). -/
def State.countPreemption (s : State) (c : Nat) : State :=
  let s := s.modCtx c fun x => { x with acct := { x.acct with preemptCount := bump x.acct.preemptCount 1 } }
  s.schedCount (s.ctx c).part 2

theorem State.countPreemption_setLaunch (s : State) (id : Nat) (l : Launch) : ∃ ctxs schedCtr,
    (s.setLaunch id l).countPreemption l.ctx = { s with ctxs := ctxs, schedCtr := schedCtr }.setLaunch id l :=
  ⟨_, _, rfl⟩

theorem State.preempted_of_charged {s t : State} {id : Nat} {l : Launch} (h : s.chargeLaunch id = t.setLaunch id l) :
    s.preempted id = ((t.setLaunch id l).countPreemption l.ctx).storeImage id l l.preemptedTo := by
  rw [State.preempted, h, State.tfind_setLaunch]
  rfl

/-- A pre-empted launch is charged and counted, and leaves its slot with its execution state as it is but for the
fetched line. -/
theorem State.preempted_inSlot {s : State} {id e n : Nat} {l : Launch} (hl : tfind s.launches id = some l)
    (hp : l.place = .slot e n) : ∃ ctxs schedCtr y owed ch,
      s.preempted id = ({ s with ctxs := ctxs, schedCtr := schedCtr }.setEngine e y).setLaunch id
        ((l.charged s.now owed ch).moved (l.preemptedTo e (s.freePark e))) ∧
      tfind y.slots n = none := by
  obtain ⟨ctxs, owed, ch, hcharge⟩ := State.chargeLaunch_inSlot hl hp
  have hpre := State.preempted_of_charged hcharge
  obtain ⟨ctxs', schedCtr, hcount⟩ := State.countPreemption_setLaunch { s with ctxs := ctxs } id
    (l.charged s.now owed ch)
  rw [hcount] at hpre
  obtain ⟨y, himage, hslots, -⟩ := State.storeImage_setLaunch (l := l.charged s.now owed ch) hp
    { s with ctxs := ctxs', schedCtr := schedCtr } id l.preemptedTo
  exact ⟨ctxs', schedCtr, y, owed, ch, hpre.trans himage, hslots⟩

/-! ### Check points and array images (R125, R368, R866) -/

/-- The state in which a check point decides what becomes of a launch: its progress since the last one is noted
(R500). -/
def State.atCheckPoint (s : State) (id : Nat) (l : Launch) : State :=
  (if l.issued then s.progress l.ctx else s).setLaunch id { l with issued := false }

theorem State.atCheckPoint_eq (s : State) (id : Nat) (l : Launch) : ∃ ctxs,
    s.atCheckPoint id l = { s with ctxs := ctxs }.setLaunch id { l with issued := false } := by
  unfold State.atCheckPoint
  split
  · exact ⟨_, rfl⟩
  · exact ⟨s.ctxs, rfl⟩

theorem State.atCheckPoint_progress {l : Launch} (h : l.issued = true) (s : State) (id : Nat) :
    ((s.atCheckPoint id l).ctx l.ctx).acct.lastProgress = s.now := by
  simp [State.atCheckPoint, h, State.progress, State.modCtx]

theorem State.modLaunch_atCheckPoint {s : State} {id : Nat} {l : Launch} (hl : tfind s.launches id = some l) :
    (if l.issued then s.progress l.ctx else s).modLaunch id (fun l => { l with issued := false }) =
      s.atCheckPoint id l := by
  refine State.modLaunch_of_tfind ?_ _
  split
  · exact hl
  · exact hl

section
variable {s : State} {a : SlotId} {id : Nat} {l : Launch} (hup : s.up = true) (hslot : s.inSlot a = some (id, l))
include hup hslot

theorem exec_checkPoint_goesOn (h : l.stop = none) : exec (.checkPoint a) s = .next (s.atCheckPoint id l) := by
  refine congrArg Host.Outcome.next ((State.work_of_up hup _).trans ?_)
  simp only [hslot, h, State.modLaunch_atCheckPoint (State.tfind_of_inSlot hslot)]

theorem exec_checkPoint_preempt (h : l.stop = some .preempt) (harrs : l.x.arrs = []) (hfl : l.x.inflight = []) :
    exec (.checkPoint a) s = .next ((s.atCheckPoint id l).preempted id) := by
  refine congrArg Host.Outcome.next ((State.work_of_up hup _).trans ?_)
  simp only [hslot, h, State.modLaunch_atCheckPoint (State.tfind_of_inSlot hslot)]
  exact if_pos (by simp [Exec.settled, harrs, hfl])

theorem exec_checkPoint_ends (h : l.stop = some .abort ∨ l.stop = some .lost) :
    exec (.checkPoint a) s = .next ((s.atCheckPoint id l).endLaunch id) := by
  refine congrArg Host.Outcome.next ((State.work_of_up hup _).trans ?_)
  rcases h with h | h
  · simp only [hslot, h, State.modLaunch_atCheckPoint (State.tfind_of_inSlot hslot)]
  · simp only [hslot, h, State.modLaunch_atCheckPoint (State.tfind_of_inSlot hslot)]

theorem exec_arrayImageWritten (h : l.status = .stopping) (hfl : l.x.inflight = []) :
    exec (.arrayImageWritten a) s = .next (s.preempted id) := by
  refine congrArg Host.Outcome.next ((State.work_of_up hup _).trans ?_)
  simp [hslot, h, Exec.settled, hfl]

end

/-! ### The end of a launch (R113, R368) -/

@[simp] theorem State.progress_launches (s : State) (c : Nat) : (s.progress c).launches = s.launches := rfl

@[simp] theorem State.sendSignal_launches (s : State) (h : BitVec 32) (code : Nat) :
    (s.sendSignal h code).launches = s.launches := by
  unfold State.sendSignal
  split <;> rfl

@[simp] theorem State.completeCmd_launches (s : State) (id code : Nat) : (s.completeCmd id code).launches = s.launches := by
  unfold State.completeCmd
  split
  · rfl
  · simp

@[simp] theorem State.checkCmdDone_launches (s : State) (id : Nat) : (s.checkCmdDone id).launches = s.launches := by
  unfold State.checkCmdDone
  split
  · rfl
  · split
    · rfl
    · simp only [apply_ite State.launches, State.completeCmd_launches, ite_self]

@[simp] theorem State.stepEnds_launches (s : State) (p k code : Nat) : (s.stepEnds p k code).launches = s.launches := by
  simp only [State.stepEnds]
  split
  · rfl
  · simp

theorem State.foldl_completeCmd_launches (cs : List (Nat × Cmd)) (s : State) :
    (cs.foldl (fun s e => s.completeCmd e.1 e.2.code) s).launches = s.launches := by
  induction cs generalizing s with
  | nil => rfl
  | cons c cs ih => rw [List.foldl_cons, ih, State.completeCmd_launches]

/-- What follows once a launch is off the list changes no launch, so it is off the list at the end. -/
theorem State.tfind_endLaunch (s : State) (id : Nat) : tfind (s.endLaunch id).launches id = none := by
  unfold State.endLaunch
  split
  next h => exact h
  next l _ =>
    extract_lets charged unheld freed gone queue unbound completed emptied ended
    have hgone : tfind gone.launches id = none := tfind_tdel ..
    have hunbound : unbound.launches = gone.launches := by
      simp only [unbound]
      split
      · split <;> rfl
      · rfl
    have hcompleted : completed.launches = unbound.launches := by
      simp only [completed]
      split
      · exact State.completeCmd_launches ..
      · rfl
    have hemptied : emptied.launches = completed.launches := by
      simp only [emptied]
      split
      · exact State.foldl_completeCmd_launches ..
      · rfl
    have hended : ended.launches = emptied.launches := by
      simp only [ended]
      split
      · exact State.stepEnds_launches ..
      · rfl
    have hlast : tfind ended.launches id = none := by
      rw [hended, hemptied, hcompleted, hunbound, hgone]
    split
    · exact hlast
    · split
      · exact hlast
      · rw [State.checkCmdDone_launches]
        exact hlast

/-! ### Parking and waking (R143 to R149) -/

/-- An engine whose count of parks has risen (Table 3-6). -/
def Engine.countPark (x : Engine) : Engine := { x with ctr := { x.ctr with park := bump x.ctr.park 1 } }

theorem exec_park {s : State} {a : SlotId} {id n : Nat} {l : Launch} (hup : s.up = true)
    (hslot : s.inSlot a = some (id, l)) (hst : l.status = .waiting) (hwake : s.canWake l = false)
    (hpark : s.freePark a.engine = some n) {t : State} {l' : Launch} (hcharge : s.chargeLaunch id = t.setLaunch id l') :
    exec (.park a) s = .next (((t.setEngine a.engine (t.engine a.engine).countPark).setLaunch id l').storeImage id l'
      fun e _ => .parked e n) := by
  refine congrArg Host.Outcome.next ((State.work_of_up hup _).trans ?_)
  simp only [hslot, hpark, hst, hwake, hcharge, State.modEngine, State.setEngine_launches, State.tfind_setLaunch]
  rfl

theorem State.chargeLaunch_setLaunch {l : Launch} {e n : Nat} (hp : l.place = .slot e n) (s : State) (id : Nat) :
    ∃ ctxs owed ch, (s.setLaunch id l).chargeLaunch id =
      { s with ctxs := ctxs }.setLaunch id (l.charged s.now owed ch) := by
  obtain ⟨ctxs, owed, ch, h⟩ := State.chargeLaunch_inSlot (s.tfind_setLaunch id l) hp
  exact ⟨ctxs, owed, ch, h.trans (State.setLaunch_setLaunch { s with ctxs := ctxs } id l _)⟩

theorem State.setCmd_setLaunch (s : State) (id : Nat) (l : Launch) (k : Nat) (m : Cmd) :
    (s.setLaunch id l).setCmd k m = (s.setCmd k m).setLaunch id l :=
  rfl

/-- Whether its packet is delivered to it or not, a launch stays in its slot; where its QWAIT has no signal, nothing but
accounts and commands changes with it (R268). -/
theorem State.deliver_setLaunch {l : Launch} (hsig : ∀ q, l.qwait = some q → q.2.2 = none) (s : State) (id : Nat) :
    ∃ ctxs cmds x, (s.setLaunch id l).deliver id = { s with ctxs := ctxs, cmds := cmds }.setLaunch id x ∧
      x.place = l.place := by
  simp only [State.deliver, State.tfind_setLaunch]
  split
  next e n sd sp sig hp hq =>
    obtain rfl : sig = none := hsig _ hq
    split
    next => exact ⟨s.ctxs, s.cmds, l, rfl, rfl⟩
    next =>
      split
      next => exact ⟨s.ctxs, s.cmds, l, rfl, rfl⟩
      next =>
        obtain ⟨ctxs, owed, ch, hcharge⟩ := State.chargeLaunch_setLaunch hp s id
        split
        next =>
          simp only [hcharge, State.modLaunch_setLaunch]
          exact ⟨ctxs, s.cmds, _, rfl, rfl⟩
        next =>
          split
          next => exact ⟨s.ctxs, s.cmds, l, rfl, rfl⟩
          next k m _ =>
            simp only [hcharge, State.setCmd_setLaunch, State.modLaunch_setLaunch]
            exact ⟨ctxs, _, _, rfl, rfl⟩
  next => exact ⟨s.ctxs, s.cmds, l, rfl, rfl⟩

/-- An engine whose place `k` of the park store has been emptied into slot `n` (R148). -/
def Engine.unpark (y : Engine) (k n id : Nat) : Engine :=
  { y with parks := tdel y.parks k, slots := tput y.slots n id, ctr := { y.ctr with wake := bump y.ctr.wake 1 } }

/-- The state in which a parked launch has come to slot `n` of its engine and its packet is to be delivered (R148). -/
def State.woken (s : State) (e k n id : Nat) (l : Launch) : State :=
  (s.setEngine e ((s.engine e).unpark k n id)).setLaunch id
    { l with place := .slot e n, status := .waiting, chargedAt := s.now, startSeq := s.nextId }

theorem State.deliver_woken {l : Launch} (hsig : ∀ q, l.qwait = some q → q.2.2 = none) (s : State) (e k n id : Nat) :
    ∃ ctxs cmds x, (s.woken e k n id l).deliver id =
        ({ s with ctxs := ctxs, cmds := cmds }.setEngine e ((s.engine e).unpark k n id)).setLaunch id x ∧
      x.place = .slot e n :=
  State.deliver_setLaunch (l := { l with place := .slot e n, status := .waiting, chargedAt := s.now, startSeq := s.nextId })
    hsig (s.setEngine e ((s.engine e).unpark k n id)) id

theorem exec_wake {s : State} {e k n : Nat} {p : Park} {l : Launch} (hup : s.up = true)
    (hk : tfind (s.engine e).parks k = some p) (hn : s.freeSlotOf e = some n) (hl : tfind s.launches p.launch = some l)
    (hp : l.place = .parked e k) (hwake : s.canWake l = true) (hbind : (s.bindFor e l.desc.arrays).isSome = true)
    (hlive : (s.ctx l.ctx).state = .live) (hres : (s.ctx l.ctx).sched.rslot.isSome = true)
    (hout : (s.ctx l.ctx).sched.switchingOut = false) (hhold : (s.ctx l.ctx).lostHold = false)
    (hworks : s.engineWorks e = true) :
    exec (.wake e k) s = .next ((s.woken e k n p.launch l).deliver p.launch) := by
  refine congrArg Host.Outcome.next ((State.work_of_up hup _).trans ?_)
  simp only [hk, hn, hl]
  refine (if_neg ?_).trans rfl
  obtain ⟨bound, hbind⟩ := Option.isSome_iff_exists.mp hbind
  obtain ⟨slot, hres⟩ := Option.isSome_iff_exists.mp hres
  simp [hp, hwake, hbind, hlive, hres, hout, hhold, hworks]

/-! ### Scrubs (R136 to R139) -/

theorem State.startReady_onlyLaunches (s : State) (id : Nat) : ∃ launches, s.startReady id = { s with launches := launches } := by
  unfold State.startReady
  split
  · exact ⟨_, rfl⟩
  · split
    · extract_lets
      split
      · exact ⟨_, rfl⟩
      · exact ⟨_, rfl⟩
    · exact ⟨_, rfl⟩

theorem State.foldl_startReady_onlyLaunches (ids : List Nat) (s : State) :
    ∃ launches, ids.foldl State.startReady s = { s with launches := launches } := by
  induction ids generalizing s with
  | nil => exact ⟨s.launches, rfl⟩
  | cons id ids ih =>
    obtain ⟨launches, h⟩ := s.startReady_onlyLaunches id
    obtain ⟨launches', h'⟩ := ih (s.startReady id)
    exact ⟨launches', h'.trans (by rw [h])⟩

/-- An engine whose n-th scrub, of the units `r`, is done (R136). -/
def Engine.scrubbed (x : Engine) (n : Nat) (r : Scrub) : Engine :=
  { x with scrubs := x.scrubs.eraseIdx n, store := mzero x.store (r.base * unitBytes) (r.units * unitBytes),
           ctr := { x.ctr with scrubBytes := bump x.ctr.scrubBytes (r.units * unitBytes) } }

/-- A finished scrub zeroes its units; launches that waited for it start. -/
theorem exec_scrubComplete {s : State} {e n : Nat} {r : Scrub} (hup : s.up = true)
    (hr : (s.engine e).scrubs[n]? = some r) : ∃ launches, exec (.scrubComplete e n) s = .next
      ({ s with launches := launches }.setEngine e ((s.engine e).scrubbed n r)) := by
  obtain ⟨launches, h⟩ := State.foldl_startReady_onlyLaunches ((s.engine e).slots.map (·.2))
    (s.setEngine e ((s.engine e).scrubbed n r))
  refine ⟨launches, congrArg Host.Outcome.next ((State.work_of_up hup _).trans (Eq.trans ?_ h))⟩
  simp only [hr, State.engine_setEngine]
  rfl

/-! ### The obligation -/

/-- Settles O43: each clause follows the one launch, engine or scrub that its command changes. -/
theorem slotLife : Obligations.SlotLife := by
  refine ⟨?fetch, ?fold, ?goesOn, ?preempt, ?ends, ?image, ?park, ?wake, ?scrub⟩
  case fetch =>
    intro s a id l r hup hslot hrun hword hheld hq hseg hm hh hr hstop hv
    obtain ⟨ctxs, hmoved⟩ := State.chargeMoved_owesNothing (State.tfind_of_inSlot hslot) hm hh r.dev r.host
    have hexec := exec_codeFetch hup hslot hrun hword hheld hq hseg hr hstop hv
    rw [hmoved, State.modLaunch_setLaunch] at hexec
    exact ⟨_, _, hexec, State.tfind_setLaunch .., rfl, rfl, rfl, rfl, rfl, rfl, rfl⟩
  case fold =>
    intro s a id j l hup hslot hj hres hquiet
    exact ⟨_, _, exec_foldSwap hup hslot hj hres hquiet, State.tfind_setLaunch .., l.swapIn_length j l.x,
      fun k hk => l.arr_swapIn j hk, rfl⟩
  case goesOn =>
    intro s a id l hup hslot hstop
    obtain ⟨ctxs, hat⟩ := s.atCheckPoint_eq id l
    refine ⟨_, exec_checkPoint_goesOn hup hslot hstop, ?_, fun h => State.atCheckPoint_progress h s id, ?_, ?_⟩
    · rw [hat, State.tfind_setLaunch]
    · rw [hat, State.setLaunch_engines]
    · rw [hat, State.setLaunch_mem]
  case preempt =>
    intro s a id n l hup hslot hp hstop harrs hfl hq hpark
    obtain ⟨ctxs, hat⟩ := s.atCheckPoint_eq id l
    have hexec := exec_checkPoint_preempt hup hslot hstop harrs hfl
    rw [hat] at hexec
    obtain ⟨ctxs', schedCtr, y, owed, ch, hpre, hslots⟩ := State.preempted_inSlot
      (l := { l with issued := false }) (State.tfind_setLaunch { s with ctxs := ctxs } id _) hp
    have hplace : Launch.preemptedTo { l with issued := false } a.engine (s.freePark a.engine) =
        .preempted a.engine (some n) := by
      rw [hpark]
      exact Launch.preemptedTo_notWaiting hq a.engine n
    refine ⟨_, _, hexec.trans (congrArg _ hpre), State.tfind_setLaunch .., hplace, rfl, rfl, rfl, ?_, rfl⟩
    rw [State.engine_setLaunch, State.engine_setEngine, hslots]
  case ends =>
    intro s a id l hup hslot hstop
    exact ⟨_, exec_checkPoint_ends hup hslot hstop, State.tfind_endLaunch ..⟩
  case image =>
    intro s a id l hup hslot hp hst hfl
    obtain ⟨ctxs, schedCtr, y, owed, ch, hpre, hslots⟩ := State.preempted_inSlot (State.tfind_of_inSlot hslot) hp
    refine ⟨_, _, (exec_arrayImageWritten hup hslot hst hfl).trans (congrArg _ hpre), State.tfind_setLaunch .., rfl, rfl, ?_,
      rfl, rfl⟩
    rw [State.engine_setLaunch, State.engine_setEngine, hslots]
  case park =>
    intro s a id n l hup hslot hp hst hwake hpark
    obtain ⟨ctxs, owed, ch, hcharge⟩ := State.chargeLaunch_inSlot (State.tfind_of_inSlot hslot) hp
    obtain ⟨y, himage, hslots, hctr, hparks⟩ := State.storeImage_setLaunch (l := l.charged s.now owed ch) hp
      ({ s with ctxs := ctxs }.setEngine a.engine (s.engine a.engine).countPark) id fun e _ => .parked e n
    have hfree : ({ s with ctxs := ctxs }.setEngine a.engine (s.engine a.engine).countPark).freePark a.engine = some n := by
      rw [← hpark, State.freePark, State.engine_setEngine]
      rfl
    refine ⟨_, _, (exec_park hup hslot hst hwake hpark hcharge).trans (congrArg _ himage), State.tfind_setLaunch .., rfl,
      ?_, ?_, ?_, rfl⟩
    · rw [State.engine_setLaunch, State.engine_setEngine, hslots]
    · rw [State.engine_setLaunch, State.engine_setEngine, hparks n hfree]
    · rw [State.engine_setLaunch, State.engine_setEngine, hctr, State.engine_setEngine]
      rfl
  case wake =>
    intro s e k n p l bound fold hup hk hn hl hp hwake hbind hlive hres hout hhold hworks hsig
    obtain ⟨ctxs, cmds, x, hdeliver, hplace⟩ := State.deliver_woken hsig s e k n p.launch
    refine ⟨_, x, (exec_wake hup hk hn hl hp hwake (Option.isSome_of_eq_some hbind) hlive hres hout hhold hworks).trans
      (congrArg _ hdeliver), State.tfind_setLaunch .., hplace, ?_, ?_, ?_, rfl⟩
    · rw [State.engine_setLaunch, State.engine_setEngine]
      exact tfind_tput ..
    · rw [State.engine_setLaunch, State.engine_setEngine]
      exact tfind_tdel ..
    · rw [State.engine_setLaunch, State.engine_setEngine]
      rfl
  case scrub =>
    intro s e n r hup hr
    obtain ⟨launches, hexec⟩ := exec_scrubComplete hup hr
    refine ⟨_, hexec, ?_, ?_, ?_, fun k hk => State.engine_setEngine_ne _ _ hk, rfl⟩
    · rw [State.engine_setEngine]
      rfl
    · rw [State.engine_setEngine]
      rfl
    · rw [State.engine_setEngine]
      rfl

end Sys2Proof.Machine
end

section
/-! The Yusum tensor and memory family (chapter 4): the move instructions, and a fill as it runs (R197 to R205). -/

namespace Sys2Proof.Machine

/-! ### An instruction leaves its queue (R107, R158) -/

section
variable {s : State} {a : SlotId} {q id : Nat} {h : QEntry} {l : Launch}

/-- What `State.leaves` says, part by part. -/
theorem State.leaves_iff : s.leaves a q h id l = true ↔ s.up = true ∧ s.inSlot a = some (id, l) ∧ l.status = .running ∧
    (l.x.queue q).head? = some h ∧ wordOk h.word = true ∧ l.x.waitOk h.word = true ∧
    (q = 3 → l.x.scalarBusy = false ∧ l.semWait = none) ∧
    (bit h.word 50 = true → tget 0 (l.x.dropHead q h.word).regs.k (fld h.word 49 46) < 255) := by
  simp [State.leaves, and_assoc, or_iff_not_imp_left]

/-- The state in which a launch has lost the head `h` of its queue `q`, which decrements the counter it waited on
(R158). -/
def State.headGone (s : State) (q id : Nat) (l : Launch) (h : QEntry) : State :=
  s.setLaunch id { l with x := l.x.dropHead q h.word }

/-- An instruction that leaves its queue acts on the state in which it is gone from there. -/
theorem State.runRow_of_leaves {row : Nat → Bool} {ready : State → Leaving → Bool} (act : State → Leaving → State)
    (hl : s.leaves a q h id l = true) (hrow : row h.word = true)
    (hready : ready s ⟨a.engine, a.slot, id, l, h⟩ = true) :
    s.runRow a q row ready act = act (s.headGone q id l h) ⟨a.engine, a.slot, id, l, h⟩ := by
  obtain ⟨-, hslot, hrun, hhead, hok, hwait, hscalar, -⟩ := State.leaves_iff.mp hl
  obtain ⟨rest, hqueue⟩ := List.head?_eq_some_iff.mp hhead
  have hfree : (decide (q = 3) && (l.x.scalarBusy || l.semWait.isSome)) = false := by
    by_cases hq : q = 3
    · obtain ⟨hbusy, hsem⟩ := hscalar hq
      simp [hbusy, hsem]
    · simp [hq]
  simp [State.runRow, hslot, hrun, hqueue, hrow, hwait, hfree, hready, hok, State.headGone,
    State.modExec_of_tfind (State.tfind_of_inSlot hslot)]

/-- The command of an instruction that needs no resource. -/
theorem State.next_runNow_of_leaves {row : Nat → Bool} (act : State → Leaving → State)
    (hl : s.leaves a q h id l = true) (hrow : row h.word = true) :
    (.next (s.work (s.runNow a q row act)) : Host.Outcome State Fault Refusal) =
      .next (act (s.headGone q id l h) ⟨a.engine, a.slot, id, l, h⟩) := by
  obtain ⟨hup, -⟩ := State.leaves_iff.mp hl
  rw [State.work_of_up hup, State.runNow, State.runRow_of_leaves act hl hrow rfl]

/-- An instruction that goes on is in flight. -/
theorem State.fly_headGone (s : State) (e slot q id : Nat) (l : Launch) (h : QEntry) (eff : Effect) :
    (s.headGone q id l h).fly ⟨e, slot, id, l, h⟩ eff = s.flew q id l h (fun x => x) eff :=
  State.modExec_setLaunch ..

/-- An instruction that completes as it leaves has written its registers and signalled; its token counter is not at 255
(R221). -/
theorem State.doneRegs_headGone {f : Regs → Regs} (hl : s.leaves a q h id l = true) (hk : ∀ r, (f r).k = r.k) :
    (s.headGone q id l h).doneRegs ⟨a.engine, a.slot, id, l, h⟩ f = s.wrote q id l h f := by
  obtain ⟨-, -, -, -, -, -, -, htoken⟩ := State.leaves_iff.mp hl
  simp only [State.doneRegs, State.headGone, State.modRegs_setLaunch, State.signalWord, State.wrote, State.ran,
    Exec.signalled]
  split
  next hsignal =>
    have hroom := Nat.not_le.mpr (htoken hsignal)
    simp [State.tokenUp, hk, hroom]
  next => rfl

/-! ### Moves leave for their mover (R197 to R204) -/

theorem State.startMove_of_leaves {m : MoveJob} {k : Nat} (hrows : m.rows ≠ 0) (hbytes : k ≠ 0) :
    (s.headGone q id l h).startMove ⟨a.engine, a.slot, id, l, h⟩ m k = s.flew q id l h (fun x => x) (.move m) :=
  (if_neg (not_or.mpr ⟨hrows, hbytes⟩)).trans (State.fly_headGone ..)

/-- A move with nothing to move only signals (R24). -/
theorem State.startMove_nothing {m : MoveJob} {k : Nat} (hl : s.leaves a q h id l = true) (hnone : m.rows = 0 ∨ k = 0) :
    (s.headGone q id l h).startMove ⟨a.engine, a.slot, id, l, h⟩ m k = s.wrote q id l h fun r => r :=
  (if_pos hnone).trans (State.doneRegs_headGone hl fun _ => rfl)

end

/-! ### A row of a fill (R201, R205) -/

/-- The bytes of a row of `n` bytes filled with a pattern of 8 bytes (R201). -/
def fillBytes (pattern n : Nat) : List Byte := (List.range n).map fun i => BitVec.ofNat 8 (pattern >>> (8 * (i % 8)))

@[simp] theorem length_fillBytes (pattern n : Nat) : (fillBytes pattern n).length = n := by
  simp [fillBytes]

/-- A fill reads nothing: its row is its pattern. -/
theorem State.moveRead_fill {m : MoveJob} (hk : m.kind = 0x41) (s : State) (e : Nat) (l : Launch) :
    s.moveRead e l m = { bytes := fillBytes m.pattern m.rowBytes } :=
  if_pos hk

/-- A launch that has moved nothing is charged nothing. -/
theorem State.chargeMoved_zero {s : State} {id : Nat} {l : Launch} (hl : tfind s.launches id = some l) :
    s.chargeMoved id 0 0 = s.setLaunch id l := by
  simp [State.chargeMoved, hl, State.chargeBytes]

/-- A change of an engine that keeps its allotments keeps where they lie. -/
theorem State.allotSpan_modEngine (s : State) {e : Nat} {f : Engine → Engine} (hf : ∀ x, (f x).allots = x.allots) (c : Nat) :
    (s.modEngine e f).allotSpan e c = s.allotSpan e c := by
  have htag : (s.modEngine e f).tag c = s.tag c := rfl
  simp only [State.allotSpan, State.allotOf, State.engine_modEngine, hf, htag]

theorem State.allotSpan_countMove (s : State) (e r w c : Nat) : (s.countMove e r w).allotSpan e c = s.allotSpan e c := by
  unfold State.countMove
  exact s.allotSpan_modEngine (by intro x; rfl) c

@[simp] theorem State.countMove_store (s : State) (e r w : Nat) :
    ((s.countMove e r w).engine e).store = (s.engine e).store :=
  congrArg (·.store) (s.engine_setEngine e _)

/-- The state with bytes written in the store of an engine, from an address of the store on. -/
def State.storePut (s : State) (e addr : Nat) (bs : List Byte) : State :=
  s.modEngine e fun x => { x with store := mwriteN x.store addr bs }

theorem State.storePut_store (s : State) (e addr : Nat) (bs : List Byte) :
    ((s.storePut e addr bs).engine e).store = mwriteN (s.engine e).store addr bs :=
  congrArg (·.store) (s.engine_modEngine e _)

/-- Capturing blocks of the allotment changes nothing but the launch's captures (R712). -/
theorem State.captureStore_setLaunch (s : State) (id : Nat) (l : Launch) (e base off n : Nat) : ∃ caps,
    (s.setLaunch id l).captureStore id e base off n = s.setLaunch id { l with allotCaps := caps } := by
  unfold State.captureStore
  split
  · exact ⟨l.allotCaps, rfl⟩
  · exact ⟨_, State.modLaunch_setLaunch ..⟩

/-- A write that lies in the allotment is written whole and violates nothing (R133). -/
theorem State.storeWrite_inside {s : State} {id e c off : Nat} {l : Launch} {bs : List Byte}
    (h : off + bs.length ≤ (s.allotSpan e c).2) : ∃ caps, (s.setLaunch id l).storeWrite id e c off bs =
      ((s.storePut e ((s.allotSpan e c).1 + off) bs).setLaunch id { l with allotCaps := caps }, {}) := by
  have hspan : (s.setLaunch id l).allotSpan e c = s.allotSpan e c := rfl
  have hin : min bs.length ((s.allotSpan e c).2 - off) = bs.length := by omega
  have hviol : violStore (s.allotSpan e c).2 off bs.length 1 = {} := if_pos (.inr h)
  obtain ⟨caps, hcaps⟩ := s.captureStore_setLaunch id l e (s.allotSpan e c).1 off bs.length
  refine ⟨caps, ?_⟩
  simp only [State.storeWrite, hspan, hin, hviol, hcaps, List.take_length]
  rfl

/-- A row of a fill that lies in the allotment is written there, and the next row is up. -/
theorem MoveRun.row_fill {s : State} {id e off : Nat} {l : Launch} {m : MoveJob} (hl : tfind s.launches id = some l)
    (hk : m.kind = 0x41) (hsp : (TDesc.ofBits m.dst).space = false)
    (hoff : (TDesc.ofBits m.dst).rowFrom m.sod m.row = off)
    (hin : off + m.rowBytes ≤ (s.allotSpan e l.ctx).2) : ∃ caps, MoveRun.row { s := s, m := m } e id =
      { s := ((s.countMove e 0 0).storePut e ((s.allotSpan e l.ctx).1 + off) (fillBytes m.pattern m.rowBytes)).setLaunch id
          { l with allotCaps := caps },
        m := { m with row := m.row + 1, done := 0, counted := false } } := by
  have hspan : (s.countMove e 0 0).allotSpan e l.ctx = s.allotSpan e l.ctx := s.allotSpan_countMove e 0 0 l.ctx
  have hcount : (s.setLaunch id l).countMove e 0 0 = (s.countMove e 0 0).setLaunch id l := rfl
  obtain ⟨caps, hwrite⟩ := State.storeWrite_inside (s := s.countMove e 0 0) (id := id) (e := e) (c := l.ctx) (l := l)
    (off := off) (bs := fillBytes m.pattern m.rowBytes) (by rw [hspan, length_fillBytes]; exact hin)
  refine ⟨caps, ?_⟩
  cases hc : m.counted <;>
    simp [MoveRun.row, hl, State.moveRead_fill hk, hc, State.chargeMoved_zero hl, hcount, hsp, hoff, hwrite, hspan, Viol.join]

/-- A fill of one row of the allotment writes it and lands. -/
theorem State.runMove_fillRow {s : State} {id n e off : Nat} {l : Launch} {f : InFlight} {m : MoveJob}
    (hl : tfind s.launches id = some l) (hf : f.signal = none) (hk : m.kind = 0x41) (hrows : m.rows - m.row = 1)
    (hsp : (TDesc.ofBits m.dst).space = false) (hoff : (TDesc.ofBits m.dst).rowFrom m.sod m.row = off)
    (hin : off + m.rowBytes ≤ (s.allotSpan e l.ctx).2) : ∃ caps, s.runMove id n e f m =
      ((s.countMove e 0 0).storePut e ((s.allotSpan e l.ctx).1 + off) (fillBytes m.pattern m.rowBytes)).setLaunch id
        { l with allotCaps := caps, x := { l.x with inflight := l.x.inflight.eraseIdx n } } := by
  obtain ⟨caps, hrow⟩ := MoveRun.row_fill hl hk hsp hoff hin
  refine ⟨caps, ?_⟩
  simp [State.runMove, hl, hk, hrows, hrow, State.settleMove, State.landed_setLaunch hf]

theorem State.complete_move {s : State} {id n e : Nat} {l : Launch} {f : InFlight} {m : MoveJob} (h : f.eff = .move m)
    (hbusy : l.x.moverBusy n m.dm = false) : s.complete id n e l f = s.runMove id n e f m := by
  simp [State.complete, h, hbusy]

/-! ### The obligation -/

/-- Settles O41: each move leaves through `State.next_runNow_of_leaves`; `State.runMove_fillRow` is the fill as it runs. -/
theorem moveInstructions : Obligations.MoveInstructions := by
  refine ⟨?copy, ?fill, ?gather, ?fillRuns⟩
  case copy =>
    intro s a h id l d t hl hop hd ht hfd hft had hat hspaces hrows hbytes hdim hne
    subst hd ht
    refine (State.next_runNow_of_leaves _ hl hop).trans (congrArg _ ((if_neg ?_).trans
      (State.startMove_of_leaves hdim hne)))
    simp [hfd, hft, had, hat, hspaces, hrows, hbytes]
  case fill =>
    intro s a h id l d hl hop hd hfd had
    subst hd
    have hok : ¬(!fmtDefined (h.tv (fld h.word 44 41)).fmt || !(h.tv (fld h.word 44 41)).aligned) = true := by
      simp [hfd, had]
    refine ⟨fun hdim hne => ?_, fun hnone => ?_⟩
    · exact (State.next_runNow_of_leaves _ hl hop).trans (congrArg _ ((if_neg hok).trans
        (State.startMove_of_leaves hdim hne)))
    · exact (State.next_runNow_of_leaves _ hl hop).trans (congrArg _ ((if_neg hok).trans
        (State.startMove_nothing hl hnone)))
  case gather =>
    intro s a h id l d t i hl hop hd ht hi hfd hft had hat hspaces hfi hi1 hisp hia hrows hbytes hdim hne
    subst hd ht hi
    refine (State.next_runNow_of_leaves _ hl hop).trans (congrArg _ ((if_neg ?_).trans
      (State.startMove_of_leaves hdim hne)))
    simp [hfd, hft, had, hat, hspaces, hfi, hi1, hisp, hia, hrows, hbytes]
  case fillRuns =>
    intro s a id n off k l f m d hup hslot hseg hcap hrec hst hf heff hsig hbusy hkind hd hsp hrows hrow _ _ hoff hlt hk hin
    subst hd
    have hbytes : m.rowBytes = k := by rw [MoveJob.rowBytes, if_pos hkind, hk]
    have hfrom : (TDesc.ofBits m.dst).rowFrom m.sod m.row = off := by
      rw [TDesc.rowFrom, hoff, hrow, Nat.zero_mul, Nat.add_zero, Nat.mod_eq_of_lt hlt]
    obtain ⟨caps, hrun⟩ := State.runMove_fillRow (n := n) (State.tfind_of_inSlot hslot) hsig hkind (by omega) hsp hfrom
      (hbytes.symm ▸ hin)
    rw [hbytes] at hrun
    refine ⟨_, _, (exec_instructionCompletionPoint hup hslot hseg hcap hrec hst hf).trans (congrArg _
      ((State.complete_move heff hbusy).trans hrun)), ?_, State.tfind_setLaunch .., rfl, rfl, rfl, rfl, fun e he => ?_⟩
    · rw [State.engine_setLaunch, State.storePut_store, State.countMove_store]
      rfl
    · rw [State.engine_setLaunch, State.storePut, State.engine_modEngine_ne _ _ he, State.countMove,
        State.engine_modEngine_ne _ _ he]

end Sys2Proof.Machine
end

section
/-! The Yusum vector and control family (chapter 5): vector lane arithmetic and its checks (R102, R103, R217, R238 to
R242, R246, R247). -/

namespace Sys2Proof.Machine

/-! ### What keeps an instruction at the head of its queue -/

/-- A change of an engine that keeps its slots keeps which launch is in which slot. -/
theorem State.inSlot_modEngine (s : State) {e : Nat} {f : Engine → Engine} (hf : ∀ x, (f x).slots = x.slots) (a : SlotId) :
    (s.modEngine e f).inSlot a = s.inSlot a := by
  have hslots : ((s.modEngine e f).engine a.engine).slots = (s.engine a.engine).slots := by
    by_cases h : a.engine = e
    · rw [h, State.engine_modEngine, hf]
    · rw [State.engine_modEngine_ne _ _ h]
  simp only [State.inSlot, hslots]
  rfl

section
variable {s : State} {a : SlotId} {q id : Nat} {h : QEntry} {l : Launch}

/-- Whether an instruction leaves depends on the hub being up and on the launch in the slot. -/
theorem State.leaves_of_inSlot {t : State} (hl : s.leaves a q h id l = true) (hup : t.up = s.up)
    (hslot : t.inSlot a = s.inSlot a) : t.leaves a q h id l = true := by
  rw [← hl, State.leaves, State.leaves, hup, hslot]

theorem State.leaves_vectorIssued (hl : s.leaves a q h id l = true) (e : Nat) :
    (s.vectorIssued e).leaves a q h id l = true :=
  State.leaves_of_inSlot hl rfl (s.inSlot_modEngine (by intro x; rfl) a)

theorem State.leaves_checkRetry (hl : s.leaves a q h id l = true) (e src : Nat) (tag : BitVec 16) :
    (s.checkRetry e src tag).leaves a q h id l = true :=
  State.leaves_of_inSlot hl rfl (State.inSlot_modEngine s (e := e)
    (f := fun x => { x with ctr := { x.ctr with checkRetry := bump x.ctr.checkRetry 1 } }) (by intro x; rfl) a)

/-! ### A vector instruction leaves (R158, R217, Table 3-6) -/

/-- The command of a vector instruction acts once the vector unit has issued and the instruction is off its queue. -/
theorem State.next_vrun_of_leaves {row : Nat → Bool} (act : State → Leaving → State)
    (hl : s.leaves a 1 h id l = true) (hrow : row h.word = true) :
    (.next (s.work (s.vrun a row act)) : Host.Outcome State Fault Refusal) =
      .next (act ((s.vectorIssued a.engine).headGone 1 id l h) ⟨a.engine, a.slot, id, l, h⟩) :=
  State.next_runNow_of_leaves _ hl hrow

/-- One that completes as it leaves writes its registers, none of them a token counter, and signals. -/
theorem State.next_vrun_doneRegs {row : Nat → Bool} {act : State → Leaving → State} {f : Regs → Regs}
    (hl : s.leaves a 1 h id l = true) (hrow : row h.word = true)
    (hact : ∀ t, act t ⟨a.engine, a.slot, id, l, h⟩ = t.doneRegs ⟨a.engine, a.slot, id, l, h⟩ f)
    (hk : ∀ r, (f r).k = r.k := by intro r; rfl) :
    (.next (s.work (s.vrun a row act)) : Host.Outcome State Fault Refusal) = .next (s.vwrote a id l h f) :=
  (State.next_vrun_of_leaves act hl hrow).trans
    (congrArg _ ((hact _).trans (State.doneRegs_headGone (State.leaves_vectorIssued hl a.engine) hk)))

/-! ### Checked results (R102, R103, R247) -/

/-- A checked instruction that the comparison lets complete, at once or reissued, has written what it computes; a second
disagreement discards it and retires the engine. -/
theorem State.next_vrun_checked {row : Nat → Bool} {act : State → Leaving → State} {f : Regs → Regs}
    (chk : Check) (hl : s.leaves a 1 h id l = true) (hrow : row h.word = true)
    (hact : ∀ t, act t ⟨a.engine, a.slot, id, l, h⟩ = t.doneRegs ⟨a.engine, a.slot, id, l, h⟩ f)
    (hk : ∀ r, (f r).k = r.k := by intro r; rfl) :
    (.next (s.work (s.vrun a row fun s x => s.checked x chk fun s => act s x)) : Host.Outcome State Fault Refusal) =
      .next (match chk with
        | .agree => s.vwrote a id l h f
        | .retried => ((s.vectorIssued a.engine).checkRetry a.engine (engSrc a.engine 4) (s.tag l.ctx)).wrote 1 id l h f
        | .failed => ((((s.vectorIssued a.engine).setLaunch id { l with x := l.x.dropHead 1 h.word }).checkRetry
            a.engine (engSrc a.engine 4) (s.tag l.ctx)).checkRetry a.engine (engSrc a.engine 4) (s.tag l.ctx)).retireUnit
              (.engine a.engine) (engSrc a.engine 4) 3) := by
  have hv := State.leaves_vectorIssued hl a.engine
  refine (State.next_vrun_of_leaves _ hl hrow).trans (congrArg _ ?_)
  cases chk with
  | agree => exact (hact _).trans (State.doneRegs_headGone hv hk)
  | retried => exact (hact _).trans (State.doneRegs_headGone (State.leaves_checkRetry hv ..) hk)
  | failed => rfl

end

/-! ### The rows -/

theorem State.lanes2_eq_doneRegs (s : State) (x : Leaving) (f : W32 → W32 → W32) :
    s.lanes2 x f = s.doneRegs x fun r => r.lanes2 x.h.word f := rfl

theorem State.lanes1_eq_doneRegs (s : State) (x : Leaving) (f : W32 → W32) :
    s.lanes1 x f = s.doneRegs x fun r => r.lanes1 x.h.word f := rfl

/-- Every integer row works lane by lane on VA and VB (R242). -/
theorem exec_intRows (a : SlotId) (s : State) : ∀ e ∈ intRows a, exec e.2.1 s =
    .next (s.work (s.vrun a (isOp e.1) fun s x => s.lanes2 x e.2.2)) := by
  simp only [intRows, List.forall_mem_cons]
  exact ⟨rfl, rfl, rfl, rfl, rfl, rfl, rfl, rfl, rfl, rfl, rfl, nofun⟩

/-- Every float row of two operands works lane by lane on VA and VB, and its result is checked (R238, R247). -/
theorem exec_floatRows (a : SlotId) (s : State) (chk : Check) : ∀ e ∈ floatRows a, exec (e.2.1 chk) s =
    .next (s.work (s.vrun a (isOp e.1) fun s x => s.checked x chk fun s => s.lanes2 x (fop2 (bfBit x) e.2.2))) := by
  simp only [floatRows, List.forall_mem_cons]
  exact ⟨rfl, rfl, rfl, nofun⟩

/-- Every special function works lane by lane on VA, and its result is checked (R246, R247). -/
theorem exec_specialRows (a : SlotId) (s : State) (chk : Check) : ∀ e ∈ specialRows a, exec (e.2.1 chk) s =
    .next (s.work (s.vrun a (isOp e.1) fun s x => s.checked x chk fun s => s.lanes1 x e.2.2)) := by
  simp only [specialRows, List.forall_mem_cons]
  exact ⟨rfl, rfl, rfl, rfl, rfl, rfl, nofun⟩

/-! ### The obligation -/

/-- Settles O37: `State.next_vrun_doneRegs` and `State.next_vrun_checked` say once how a row without and with a check
completes; each row gives the lanes it writes. -/
theorem vectorArithmetic : Obligations.VectorArithmetic := by
  refine ⟨?integer, ?float, ?fma, ?max, ?min, ?select, ?special⟩
  case integer =>
    intro s a h id l e he hl hop
    exact (exec_intRows a s e he).trans (State.next_vrun_doneRegs hl hop fun t => t.lanes2_eq_doneRegs _ _)
  case float =>
    intro s a h id l e he hl hop
    have hrow (chk : Check) := (exec_floatRows a s chk e he).trans
      (State.next_vrun_checked chk hl hop fun t => t.lanes2_eq_doneRegs _ _)
    exact ⟨hrow .agree, hrow .retried, hrow .failed⟩
  case fma =>
    intro s a h id l hl hop
    exact State.next_vrun_doneRegs hl hop fun _ => rfl
  case max =>
    intro s a h id l hl hop
    exact State.next_vrun_doneRegs hl hop fun t => t.lanes2_eq_doneRegs _ _
  case min =>
    intro s a h id l hl hop
    exact State.next_vrun_doneRegs hl hop fun t => t.lanes2_eq_doneRegs _ _
  case select =>
    intro s a h id l hl hop
    exact State.next_vrun_doneRegs hl hop fun _ => rfl
  case special =>
    intro s a h id l e he hl hop
    exact (exec_specialRows a s .agree e he).trans
      (State.next_vrun_checked .agree hl hop fun t => t.lanes1_eq_doneRegs _ _)

end Sys2Proof.Machine
end

section
/-! The Yusum vector and control family (chapter 5): undo captures, recovery points, replay and token deadlock (R225, R460
to R462, R710 to R713). -/

namespace Sys2Proof.Machine

/-! ### Undo captures (R460, R461) -/

/-- The state with a capture written to device memory, which is `m` now, and counted for the context (Table 9-7). -/
def State.captureStored (s : State) (c : Nat) (m : Mem) : State :=
  { s with mem := m }.modCtx c fun x => { x with undo := { x.undo with captures := bump x.undo.captures 1 } }

@[simp] theorem State.captureStored_mem (s : State) (c : Nat) (m : Mem) : (s.captureStored c m).mem = m := rfl

@[simp] theorem State.captureStored_captures (s : State) (c : Nat) (m : Mem) :
    ((s.captureStored c m).ctx c).undo.captures = bump (s.ctx c).undo.captures 1 := by
  rw [State.captureStored, State.modCtx, State.ctx_setCtx]
  rfl

/-- A capture, and what its launch becomes, touch device memory, contexts and launches alone. -/
theorem State.captureStored_frame (s : State) (c : Nat) (m : Mem) (id : Nat) (l : Launch) :
    { (s.captureStored c m).setLaunch id l with mem := s.mem, ctxs := s.ctxs, launches := s.launches } = s := rfl

section
variable {s : State} {a : SlotId} {id : Nat} {l : Launch} (hup : s.up = true) (hslot : s.inSlot a = some (id, l))
include hup hslot

/-- The block's bytes go to the free undo slot and its entry to the directory; the launch need not wait for it any more. -/
theorem exec_undoCaptureComplete {b slot at_ : Nat} {host : Bool} (hwait : l.capWait = some b) (hrec : l.recovery = false)
    (hfree : s.undoFree l.ctx = some slot) (hphys : s.blockPhys l.ctx b = some (host, at_)) :
    exec (.undoCaptureComplete a b) s = .next
      ((s.captureStored l.ctx (mwriteN
        (mwriteN s.mem ((s.ctx l.ctx).undo.base + 65536 * (slot + 1)) (s.physRead host at_ 65536))
        ((s.ctx l.ctx).undo.base + 8 * slot) (bytesLE 8 (s.undoEntry l b)))).setLaunch id
        { l with capWait := none, captures := l.captures ++ [⟨b, some slot⟩] }) := by
  refine congrArg Host.Outcome.next ((State.work_of_up hup _).trans ?_)
  simp only [hslot, hwait, hrec, hfree, hphys]
  exact if_neg (by simp)

theorem exec_undoCaptureComplete_full {b at_ : Nat} {host : Bool} (hwait : l.capWait = some b)
    (hrec : l.recovery = false) (hfull : s.undoFree l.ctx = none) (hphys : s.blockPhys l.ctx b = some (host, at_)) :
    exec (.undoCaptureComplete a b) s = .next (s.setLaunch id { l with recovery := true }) := by
  refine congrArg Host.Outcome.next ((State.work_of_up hup _).trans ?_)
  simp [hslot, hwait, hrec, hfull, hphys]

end

/-! ### Charging before a launch moves on (R471) -/

/-- Wherever a launch is, charging it changes its own counts of time, and nothing of the hub but accounts. -/
theorem State.chargeLaunch_spec {s : State} {id : Nat} {l : Launch} (hl : tfind s.launches id = some l) :
    ∃ now owed ch, tfind (s.chargeLaunch id).launches id = some (l.charged now owed ch) ∧
      (s.chargeLaunch id).fe = s.fe := by
  cases hp : l.place with
  | slot e n =>
    obtain ⟨ctxs, owed, ch, hcharge⟩ := State.chargeLaunch_inSlot hl hp
    rw [hcharge]
    exact ⟨s.now, owed, ch, State.tfind_setLaunch .., rfl⟩
  | _ =>
    have hcharge : s.chargeLaunch id = s := by simp [State.chargeLaunch, hl, hp]
    rw [hcharge]
    exact ⟨_, _, _, hl, rfl⟩

/-- What a context holds besides its account stays as its launches are charged. -/
theorem State.chargeLaunch_ctx {α : Type} {g : Context → α} (hg : ∀ x y, g { x with acct := y } = g x) (s : State)
    (id c : Nat) : g ((s.chargeLaunch id).ctx c) = g (s.ctx c) := by
  unfold State.chargeLaunch
  split
  · rfl
  next l _ =>
    split
    · by_cases h : c = l.ctx
      · subst h
        simp [State.chargeTime, State.modCtx, hg]
      · simp [State.chargeTime, State.modCtx, State.ctx_setCtx_ne _ _ h]
    · rfl

/-! ### Recovery points (R462, R710) -/

/-- The launch at the start of a new replay unit, with no capture and nothing recorded. -/
def Launch.newUnit (l : Launch) : Launch :=
  { l with recovery := false, captures := [], allotCaps := [], done := [], unit := l.x, unitSems := l.sems, chMem := 0,
           chHost := 0, chTime := 0 }

def State.countRecovery (s : State) : State := { s with fe := { s.fe with undoRecovery := bump s.fe.undoRecovery 1 } }

theorem exec_recoveryPoint {s : State} {a : SlotId} {id : Nat} {l : Launch} (hup : s.up = true)
    (hslot : s.inSlot a = some (id, l)) (hrec : l.recovery = true) (hfl : l.x.inflight = []) (hwait : l.capWait = none) :
    exec (.recoveryPoint a) s =
      .next (((s.chargeLaunch id).clearCaptures l).countRecovery.modLaunch id Launch.newUnit) := by
  refine congrArg Host.Outcome.next ((State.work_of_up hup _).trans ?_)
  simp only [hslot, hrec, hfl, hwait]
  rfl

/-! ### A failed launch leaves its slot (R713, Table 15-3 step 1) -/

theorem State.engineWorks_modEngine (s : State) {e : Nat} {f : Engine → Engine} (hf : ∀ x, (f x).state = x.state) :
    (s.modEngine e f).engineWorks e = s.engineWorks e := by
  simp [State.engineWorks, hf]

theorem State.engineWorks_freeSlot_freeFold {l : Launch} {e n : Nat} (hp : l.place = .slot e n) (s : State) :
    ((s.freeFold l).freeSlot l).engineWorks e = s.engineWorks e := by
  have hslot (t : State) : (t.freeSlot l).engineWorks e = t.engineWorks e := by
    simp only [State.freeSlot, hp]
    exact t.engineWorks_modEngine (by intro x; rfl)
  rw [hslot]
  unfold State.freeFold
  split
  next hp' =>
    obtain ⟨rfl, rfl⟩ := Place.slot.inj (hp.symm.trans hp')
    exact s.engineWorks_modEngine (by intro x; rfl)
  next => rfl

/-- The launch out of its slot with its effects in flight discarded, at a place where its restores begin. -/
def Launch.failedTo (l : Launch) (p : Place) : Launch :=
  { l with place := p, stop := none, bound := [], fold := none, restoring := true, segStop := none, segRefused := [],
           capWait := none, recovery := false, semWait := none, qwait := none, owedMem := l.owedMem + l.chMem,
           owedHost := l.owedHost + l.chHost, owedTime := l.owedTime + l.chTime, chMem := 0, chHost := 0, chTime := 0,
           x := { l.x with inflight := [] } }

/-- Where a failed launch waits for its restores: at its engine's allotment while that engine works and it need not
avoid it (R718). -/
def State.replayPlace (s : State) (l : Launch) (e : Nat) : Place :=
  if s.engineWorks e && l.avoid != some e then .preempted e none else .waiting

/-- Sage counts a replay (Table 15-3 step 1). -/
def State.countReplay (s : State) : State := { s with sage := { s.sage with replays := bump s.sage.replays 1 } }

/-- A failed launch of a LIVE context, once charged, gives up its slot; the replay is counted. -/
theorem State.startReplay_of_charged {s t : State} {id e n : Nat} {l : Launch} (h : s.chargeLaunch id = t.setLaunch id l)
    (hp : l.place = .slot e n) (hlive : (t.ctx l.ctx).state = .live) : ∃ y,
      s.startReplay id = ((t.semLeave id).countReplay.setEngine e y).setLaunch id (l.failedTo (t.replayPlace l e)) ∧
      tfind y.slots n = none := by
  obtain ⟨y, hfree, hslots, -⟩ := State.freeSlot_freeFold hp ((t.setLaunch id l).semLeave id)
  have hworks : (((t.setLaunch id l).semLeave id).setEngine e y).engineWorks e = t.engineWorks e :=
    hfree ▸ State.engineWorks_freeSlot_freeFold hp ((t.setLaunch id l).semLeave id)
  refine ⟨y, ?_, hslots⟩
  simp only [State.startReplay, h, State.tfind_setLaunch, hp]
  rw [if_neg (by simp [hlive]), hfree, hworks]
  exact State.modLaunch_setLaunch ((t.semLeave id).countReplay.setEngine e y) id l _

theorem exec_replay {s : State} {a : SlotId} {id : Nat} {l : Launch} (hup : s.up = true)
    (hslot : s.inSlot a = some (id, l)) (hstop : l.stop = some .failed) : exec (.replay a) s = .next (s.startReplay id) := by
  refine congrArg Host.Outcome.next ((State.work_of_up hup _).trans ?_)
  simp only [hslot, hstop, if_true]

/-! ### Restores are complete (R711, Table 15-3 steps 2 and 3) -/

/-- The launch back at the start of its unit, to pass over what it has done once (R715). -/
def Launch.rewound (l : Launch) : Launch :=
  { l with restoring := false, replayed := true, x := l.unit, sems := [], semLost := l.unitSems, redo := l.done,
           done := [], status := .running, issued := false }

@[simp] theorem State.restoreAllot_launches (s : State) (id : Nat) (l : Launch) :
    (s.restoreAllot id l).launches = s.launches := by
  unfold State.restoreAllot
  split <;> rfl

@[simp] theorem State.restoreAllot_mem (s : State) (id : Nat) (l : Launch) : (s.restoreAllot id l).mem = s.mem := by
  unfold State.restoreAllot
  split <;> rfl

@[simp] theorem State.restoreBlock_launches (s : State) (c : Nat) (k : Capture) :
    (s.restoreBlock c k).launches = s.launches := by
  unfold State.restoreBlock
  split
  · unfold State.physWrite
    split <;> rfl
  · rfl

theorem State.foldl_restoreBlock_launches (ks : List Capture) (s : State) (c : Nat) :
    (ks.foldl (fun s k => s.restoreBlock c k) s).launches = s.launches :=
  keeps_foldl (P := fun t : State => t.launches = s.launches) (fun t k ht => (t.restoreBlock_launches c k).trans ht) rfl

/-- A block of device memory is copied back from its undo slot. -/
theorem State.restoreBlock_device_mem {s : State} {c b slot at_ : Nat} (hphys : s.blockPhys c b = some (false, at_)) :
    (s.restoreBlock c ⟨b, some slot⟩).mem =
      mwriteN s.mem at_ (mreadN s.mem ((s.ctx c).undo.base + 65536 * (slot + 1)) 65536) := by
  simp [State.restoreBlock, hphys, State.physWrite]

/-- A launch that holds no semaphore rewinds once its blocks are restored. -/
theorem exec_replayRestoreComplete {s : State} {id : Nat} {l : Launch} (hup : s.up = true)
    (hl : tfind s.launches id = some l) (hrest : l.restoring = true) (hsems : l.sems = []) :
    exec (.replayRestoreComplete id) s = .next
      (((l.captures.foldl (fun s k => s.restoreBlock l.ctx k) s).restoreAllot id l).setLaunch id l.rewound) := by
  have hkept : tfind ((l.captures.foldl (fun s k => s.restoreBlock l.ctx k) s).restoreAllot id l).launches id = some l := by
    rw [State.restoreAllot_launches, State.foldl_restoreBlock_launches, hl]
  refine congrArg Host.Outcome.next ((State.work_of_up hup _).trans (Eq.trans ?_ (State.modLaunch_of_tfind hkept _)))
  simp only [hl, hrest, hsems]
  rfl

/-! ### What leaves the fault records (Table 7-9) -/

/-- From `s` to `t` no context's fault record has changed. -/
def State.SameFaults (s t : State) : Prop := ∀ c, (t.ctx c).fault = (s.ctx c).fault

theorem State.SameFaults.refl (s : State) : s.SameFaults s := fun _ => rfl

theorem State.SameFaults.trans {s t u : State} (h : s.SameFaults t) (g : t.SameFaults u) : s.SameFaults u :=
  fun c => (g c).trans (h c)

theorem State.SameFaults.of_ctxs {s t : State} (h : t.ctxs = s.ctxs) : s.SameFaults t := fun c => by
  rw [State.ctx, State.ctx, h]

theorem State.modCtx_sameFaults (s : State) (c : Nat) {f : Context → Context}
    (hf : ∀ x, (f x).fault = x.fault := by intro x; rfl) : s.SameFaults (s.modCtx c f) := fun d => by
  by_cases h : d = c
  · rw [h, State.modCtx, State.ctx_setCtx, hf]
  · rw [State.modCtx, State.ctx_setCtx_ne _ _ h]

theorem State.foldl_sameFaults {α : Type} {f : State → α → State} (hf : ∀ (t : State) x, t.SameFaults (f t x)) (xs : List α)
    (s : State) : s.SameFaults (xs.foldl f s) :=
  keeps_foldl (P := s.SameFaults) (fun t x ht => ht.trans (hf t x)) (.refl s)

@[simp] theorem State.sendSignal_ctxs (s : State) (h : BitVec 32) (code : Nat) : (s.sendSignal h code).ctxs = s.ctxs := by
  unfold State.sendSignal
  split <;> rfl

@[simp] theorem State.freeFold_ctxs (s : State) (l : Launch) : (s.freeFold l).ctxs = s.ctxs := by
  unfold State.freeFold
  split <;> rfl

@[simp] theorem State.freeSlot_ctxs (s : State) (l : Launch) : (s.freeSlot l).ctxs = s.ctxs := by
  unfold State.freeSlot
  split <;> rfl

@[simp] theorem State.stepEnds_ctxs (s : State) (p k code : Nat) : (s.stepEnds p k code).ctxs = s.ctxs := by
  simp only [State.stepEnds]
  split
  · rfl
  · simp

@[simp] theorem State.hostWrite_ctxs (s : State) (addr : Nat) (bs : List Byte) : (s.hostWrite addr bs).ctxs = s.ctxs := rfl

@[simp] theorem State.notify_ctxs (s : State) (v kind : Nat) (h : BitVec 32) (code : Nat) :
    (s.notify v kind h code).ctxs = s.ctxs := by
  simp only [State.notify]
  split
  · rfl
  · split
    · rfl
    · exact (State.setVf_ctxs ..).trans (State.hostWrite_ctxs ..)

@[simp] theorem State.raise_vf_ctxs (s : State) (v cause : Nat) : (s.raise (.vf v) cause).ctxs = s.ctxs := by
  simp only [State.raise]
  split
  · rfl
  · split <;> rfl

@[simp] theorem State.noteCmdFault_ctxs (s : State) (id : Option Nat) (code : Nat) :
    (s.noteCmdFault id code).ctxs = s.ctxs := by
  unfold State.noteCmdFault
  split
  · rfl
  · split
    · rfl
    · split <;> rfl

@[simp] theorem State.noteLaunchFault_ctxs (s : State) (id : Option Nat) (code : Nat) :
    (s.noteLaunchFault id code).ctxs = s.ctxs := by
  unfold State.noteLaunchFault
  split
  · rfl
  · split
    · rfl
    · rw [State.noteCmdFault_ctxs]
      split <;> rfl

theorem State.semRelease_sameFaults (s : State) (key : Nat) : s.SameFaults (s.semRelease key) := by
  unfold State.semRelease
  extract_lets m
  split
  · exact .refl s
  · exact (s.modCtx_sameFaults m.holderCtx).trans (.of_ctxs (State.setSem_ctxs ..))

theorem State.completeCmd_sameFaults (s : State) (id code : Nat) : s.SameFaults (s.completeCmd id code) := by
  unfold State.completeCmd
  split
  · exact .refl s
  · refine .trans ?_ (State.modCtx_sameFaults _ _)
    exact .of_ctxs (State.sendSignal_ctxs ..)

theorem State.checkCmdDone_sameFaults (s : State) (id : Nat) : s.SameFaults (s.checkCmdDone id) := by
  unfold State.checkCmdDone
  split
  · exact .refl s
  · split
    · exact .refl s
    · split
      · exact .refl s
      · split
        · exact s.completeCmd_sameFaults _ _
        · exact .refl s

/-- What the end of a launch releases and completes leaves every fault record. -/
theorem State.endLaunch_sameFaults (s : State) (id : Nat) : s.SameFaults (s.endLaunch id) := by
  unfold State.endLaunch
  split
  next => exact .refl s
  next l _ =>
    extract_lets charged unheld freed gone queue unbound completed emptied ended
    have hcharged : s.SameFaults charged := s.chargeLaunch_ctx (g := (·.fault)) (fun _ _ => rfl) id
    have hunheld : charged.SameFaults unheld :=
      .trans (.of_ctxs (t := charged.semLeave id) rfl)
        (State.foldl_sameFaults (fun t i => t.semRelease_sameFaults _) l.sems _)
    have hgone : unheld.SameFaults gone :=
      .of_ctxs ((State.freeSlot_ctxs ..).trans (State.freeFold_ctxs ..))
    have hunbound : gone.SameFaults unbound := by
      simp only [unbound]
      split
      · split
        · exact gone.modCtx_sameFaults _
        · exact .refl gone
      · exact .refl gone
    have hcompleted : unbound.SameFaults completed := by
      simp only [completed]
      split
      · exact unbound.completeCmd_sameFaults _ _
      · exact .refl unbound
    have hemptied : completed.SameFaults emptied := by
      simp only [emptied]
      split
      · exact State.foldl_sameFaults (fun t e => t.completeCmd_sameFaults _ _) _ completed
      · exact .refl completed
    have hended : emptied.SameFaults ended := by
      simp only [ended]
      split
      · exact .of_ctxs (State.stepEnds_ctxs ..)
      · exact .refl emptied
    have hall : s.SameFaults ended :=
      hcharged.trans (hunheld.trans (hgone.trans (hunbound.trans (hcompleted.trans (hemptied.trans hended)))))
    split
    · exact hall
    · split
      · exact hall
      · exact hall.trans (.trans (.of_ctxs rfl) (State.checkCmdDone_sameFaults _ _))

theorem State.loseLaunch_sameFaults (s : State) (id : Nat) : s.SameFaults (s.loseLaunch id) := by
  unfold State.loseLaunch
  split
  · exact .refl s
  · split
    · exact .of_ctxs rfl
    · exact s.endLaunch_sameFaults id

theorem State.loseCmd_sameFaults (s : State) (id : Nat) : s.SameFaults (s.loseCmd id) := by
  unfold State.loseCmd
  split
  next => exact .refl s
  next m _ =>
    extract_lets t
    have ht : s.SameFaults t := by
      simp only [t]
      split
      · exact .refl s
      · exact s.completeCmd_sameFaults _ _
    split
    · exact ht.trans (t.completeCmd_sameFaults _ _)
    · exact ht.trans (t.checkCmdDone_sameFaults id)

/-- R368: a context that becomes LOST keeps the record of the fault that made it so. -/
theorem State.loseCtx_sameFaults (s : State) (c : Nat) : s.SameFaults (s.loseCtx c) := by
  unfold State.loseCtx
  extract_lets lost discarded completed v
  have hlost : s.SameFaults lost := s.modCtx_sameFaults c
  have hdiscarded : lost.SameFaults discarded := State.foldl_sameFaults State.loseLaunch_sameFaults _ lost
  have hcompleted : discarded.SameFaults completed := State.foldl_sameFaults State.loseCmd_sameFaults _ discarded
  exact hlost.trans (hdiscarded.trans (hcompleted.trans (.of_ctxs (by simp))))

/-! ### The first fault of a context (R368 to R370) -/

theorem FaultRec.note_first {f : FaultRec} (h : f.code = 0) (code : Nat) (o : Origin) (thyme : Nat) :
    (f.note code o thyme).code = code := by
  simp [FaultRec.note, h]

/-- The state in which a fault of a LIVE context is reported and noted of the context, its command and its launch. -/
def State.faultNoted (s : State) (c code : Nat) (o : Origin) : State :=
  (((s.sageSend o.source (faultKind code) (s.tag c) o.access o.address).setCtx c
    { s.ctx c with fault := (s.ctx c).fault.note code o s.now }).noteCmdFault o.cmd code).noteLaunchFault o.launch code

theorem State.faultNoted_ctx (s : State) (c code : Nat) (o : Origin) :
    (s.faultNoted c code o).ctx c = { s.ctx c with fault := (s.ctx c).fault.note code o s.now } := by
  rw [State.faultNoted, State.ctx, State.noteLaunchFault_ctxs, State.noteCmdFault_ctxs]
  exact State.ctx_setCtx ..

theorem State.fault_of_live {s : State} {c : Nat} (h : (s.ctx c).state = .live) (code : Nat) (o : Origin) :
    s.fault c code o = if (s.ctx c).fabric then s.faultNoted c code o else (s.faultNoted c code o).loseCtx c := by
  simp only [State.fault, State.faultNoted, h]
  rfl

/-- A LIVE context without a fault records the code of the one it takes, whether it becomes LOST or not. -/
theorem State.fault_code {s : State} {c : Nat} (hlive : (s.ctx c).state = .live) (hfree : (s.ctx c).fault.code = 0)
    (code : Nat) (o : Origin) : ((s.fault c code o).ctx c).fault.code = code := by
  have hnoted : ((s.faultNoted c code o).ctx c).fault.code = code := by
    rw [State.faultNoted_ctx]
    exact FaultRec.note_first hfree ..
  rw [State.fault_of_live hlive]
  split
  · exact hnoted
  · rw [State.loseCtx_sameFaults, hnoted]

/-! ### Token deadlock (R225) -/

theorem State.launchFault_of_tfind {s : State} {id : Nat} {l : Launch} (hl : tfind s.launches id = some l)
    (code src acc addr : Nat) :
    s.launchFault id code src acc addr = s.fault l.ctx code (launchOrigin id l src acc addr) := by
  unfold State.launchFault
  rw [hl]

theorem exec_tokenDeadlock {s : State} {a : SlotId} {id : Nat} {l : Launch} (hup : s.up = true)
    (hslot : s.inSlot a = some (id, l)) (hdead : l.deadlocked = true) : exec (.tokenDeadlock a) s =
      .next ((s.fault l.ctx 4 (launchOrigin id l (engSrc a.engine 6) 15 0)).endLaunch id) := by
  refine congrArg Host.Outcome.next ((State.work_of_up hup _).trans ?_)
  simp only [hslot, hdead, if_true, State.launchFault_of_tfind (State.tfind_of_inSlot hslot)]

/-! ### The obligation -/

/-- Settles O44: each clause follows the one launch that its command changes; the fault of a launch in token deadlock
outlasts its end. -/
theorem captureAndReplay : Obligations.CaptureAndReplay := by
  refine ⟨?captured, ?full, ?newUnit, ?failed, ?rewound, ?restored, ?deadlock⟩
  case captured =>
    intro s a id b slot at_ host l hup hslot hwait hrec hfree hphys
    refine ⟨_, exec_undoCaptureComplete hup hslot hwait hrec hfree hphys, ?_, State.tfind_setLaunch .., ?_,
      State.captureStored_frame ..⟩
    · rw [State.setLaunch_mem, State.captureStored_mem]
    · rw [State.ctx_setLaunch, State.captureStored_captures]
  case full =>
    intro s a id b at_ host l hup hslot hwait hrec hfull hphys
    exact exec_undoCaptureComplete_full hup hslot hwait hrec hfull hphys
  case newUnit =>
    intro s a id l hup hslot hrec hfl hwait
    obtain ⟨now, owed, ch, hl, hfe⟩ := State.chargeLaunch_spec (State.tfind_of_inSlot hslot)
    have hunit := State.modLaunch_of_tfind (s := ((s.chargeLaunch id).clearCaptures l).countRecovery) hl Launch.newUnit
    exact ⟨_, _, (exec_recoveryPoint hup hslot hrec hfl hwait).trans (congrArg _ hunit), State.tfind_setLaunch .., rfl, rfl,
      rfl, rfl, rfl, rfl, rfl, congrArg (fun y : FeCounters => bump y.undoRecovery 1) hfe⟩
  case failed =>
    intro s a id l hup hslot hp hstop hlive
    have hstate := s.chargeLaunch_ctx (g := (·.state)) (fun _ _ => rfl) id l.ctx
    obtain ⟨ctxs, owed, ch, hcharge⟩ := State.chargeLaunch_inSlot (State.tfind_of_inSlot hslot) hp
    obtain ⟨y, hreplay, hslots⟩ := State.startReplay_of_charged hcharge hp ((hcharge ▸ hstate).trans hlive)
    refine ⟨_, _, (exec_replay hup hslot hstop).trans (congrArg _ hreplay), State.tfind_setLaunch .., rfl, rfl, rfl, rfl,
      rfl, ?_, rfl, rfl⟩
    rw [State.engine_setLaunch, State.engine_setEngine, hslots]
  case rewound =>
    intro s id l hup hl hrest hsems hcaps _ _
    refine ⟨_, _, exec_replayRestoreComplete hup hl hrest hsems, State.tfind_setLaunch .., rfl, ?_⟩
    rw [hcaps, State.setLaunch_mem, State.restoreAllot_mem]
    rfl
  case restored =>
    intro s id b slot at_ l hup hl hrest hsems hcaps hphys
    refine ⟨_, exec_replayRestoreComplete hup hl hrest hsems, ?_⟩
    rw [hcaps, State.setLaunch_mem, State.restoreAllot_mem]
    exact State.restoreBlock_device_mem hphys
  case deadlock =>
    intro s a id l hup hslot hdead hlive hfree
    refine ⟨_, exec_tokenDeadlock hup hslot hdead, ?_, State.tfind_endLaunch ..⟩
    rw [State.endLaunch_sameFaults]
    exact State.fault_code hlive hfree ..

end Sys2Proof.Machine
end

section
/-! The partition family (chapter 6): the hand-over of a partition program (R304, R308 to R317) and slice statements (R318 to
R325). -/

namespace Sys2Proof.Machine

/-! ### What the endpoint is told (R322, R678) -/

/-- From `s` to `t` only the host endpoint's registers and the hub's outputs have changed. -/
def State.OnlyEndpoint (s t : State) : Prop := t = { s with ep := t.ep, out := t.out }

theorem State.OnlyEndpoint.trans {s t u : State} (h : s.OnlyEndpoint t) (g : t.OnlyEndpoint u) : s.OnlyEndpoint u :=
  Eq.trans g (congrArg (fun z : State => { z with ep := u.ep, out := u.out }) h)

theorem State.raise_onlyEndpoint (s : State) (fn : Fn) (cause : Nat) : s.OnlyEndpoint (s.raise fn cause) := by
  cases fn with
  | pf =>
    simp only [State.raise]
    split <;> rfl
  | vf v =>
    simp only [State.raise]
    split
    · rfl
    · split <;> rfl

/-- A cause raised changes the interrupts of its function, not the statement registers. -/
theorem State.raise_vf_stmt (s : State) (v cause : Nat) : ((s.raise (.vf v) cause).vf v).stmt = (s.vf v).stmt := by
  have hset (x : IntBlock) : ((s.setVf v { s.vf v with int := x }).vf v).stmt = (s.vf v).stmt := by rw [State.vf_setVf]
  simp only [State.raise]
  split
  · rfl
  · split
    · exact hset _
    · exact hset _

/-! ### The end of a program that nothing waited for (R296) -/

/-- The registers of a program that has ended with a code, after so many microseconds of hand-over. -/
def Wmb.ended (m : Wmb) (code us : Nat) : Wmb :=
  { m with phase := .idle, busy := false, done := true, resTag := m.tag, resCode := code, resIndex := m.idx,
           resDuration := us, shadow := {}, named := [], switched := false, began := 0, handing := [], len := 0, idx := 0 }

theorem State.runAdmits_of_noSched {s : State} (h : s.sx = []) : s.runAdmits = s := by
  unfold State.runAdmits
  rw [h]
  exact ite_self s

section
variable {s : State} (hblocks : s.blocks = []) (hlc : s.lc.busy = false) (hsx : s.sx = [])
include hblocks hlc hsx

theorem State.afterProgram_of_noneWaiting : s.afterProgram = s := by
  simp [State.afterProgram, hblocks, hlc, State.runAdmits_of_noSched hsx]

theorem State.wmbEnd_spec (code : Nat) :
    ∃ us ep out, s.wmbEnd code = { s with wmb := s.wmb.ended code us, ep := ep, out := out } := by
  have hend (m : Wmb) : ∃ ep out, ({ s with wmb := m }.raise .pf 0).afterProgram =
      { s with wmb := m, ep := ep, out := out } := by
    refine ⟨_, _, Eq.trans ?_ (State.raise_onlyEndpoint { s with wmb := m } .pf 0)⟩
    rw [State.raise_onlyEndpoint { s with wmb := m } .pf 0]
    exact State.afterProgram_of_noneWaiting hblocks hlc hsx
  exact ⟨_, hend _⟩

end

/-! ### What the switch leaves alone (R310, R316, R317) -/

/-- From `s` to `t` the partitions stay; only the pools, the engines, the program and what the host is told have changed. -/
def State.SameParts (s t : State) : Prop :=
  t = { s with units := { t.units with parts := s.units.parts }, engines := t.engines, wmb := t.wmb, ep := t.ep,
               out := t.out }

theorem State.SameParts.refl (s : State) : s.SameParts s := rfl

theorem State.SameParts.trans {s t u : State} (h : s.SameParts t) (g : t.SameParts u) : s.SameParts u :=
  Eq.trans g (congrArg (fun z : State =>
    { z with units := { u.units with parts := z.units.parts }, engines := u.engines, wmb := u.wmb, ep := u.ep,
             out := u.out }) h)

theorem State.SameParts.part {s t : State} (h : s.SameParts t) (q : Nat) : t.part q = s.part q :=
  (congrArg (fun z : State => z.part q) h :)

theorem State.SameParts.mem {s t : State} (h : s.SameParts t) : t.mem = s.mem := (congrArg State.mem h :)

theorem State.SameParts.ctxs {s t : State} (h : s.SameParts t) : t.ctxs = s.ctxs := (congrArg State.ctxs h :)

theorem State.SameParts.blocks {s t : State} (h : s.SameParts t) : t.blocks = s.blocks := (congrArg State.blocks h :)

theorem State.SameParts.lc {s t : State} (h : s.SameParts t) : t.lc = s.lc := (congrArg State.lc h :)

theorem State.SameParts.sx {s t : State} (h : s.SameParts t) : t.sx = s.sx := (congrArg State.sx h :)

theorem State.SameParts.unitWorks {s t : State} (h : s.SameParts t) : t.unitWorks = s.unitWorks :=
  (congrArg (fun z : State => z.unitWorks) h :)

theorem State.OnlyEndpoint.sameParts {s t : State} (h : s.OnlyEndpoint t) : s.SameParts t := by
  rw [h]
  rfl

theorem State.modEngine_sameParts (s : State) (e : Nat) (f : Engine → Engine) : s.SameParts (s.modEngine e f) := rfl

theorem State.switchPools_sameParts (s : State) (before : Units) : s.SameParts (s.switchPools before) := rfl

theorem State.foldl_sameParts {α : Type} {f : State → α → State} (hf : ∀ (t : State) x, t.SameParts (f t x))
    (xs : List α) (s : State) : s.SameParts (xs.foldl f s) :=
  keeps_foldl (P := s.SameParts) (fun t x ht => ht.trans (hf t x)) (.refl s)

theorem State.movePartials_sameParts (s : State) : s.SameParts s.movePartials := by
  refine State.foldl_sameParts (fun t ent => ?_) _ s
  extract_lets e
  split
  · exact .refl t
  · refine State.foldl_sameParts (fun u q => ?_) _ t
    split
    · exact .refl u
    · exact (u.modEngine_sameParts _ _).trans (State.modEngine_sameParts _ _ _)

/-- A hub without contexts has none to switch out. -/
theorem State.trimSlots_of_noCtx {s : State} (h : s.ctxs = []) (n p : Nat) : State.trimSlots n s p = s := by
  cases n with
  | zero => rfl
  | succ n => simp [State.trimSlots, h]

/-- R316, R322: a changed statement is counted with its reason, and the VFs are told. -/
theorem State.partChanged_sameParts (s : State) (p reason : Nat) :
    (s.setPart p { s.part p with changes := (s.part p).changes + 1, reason := reason }).SameParts (s.partChanged p reason) :=
  State.foldl_sameParts (fun t v =>
    State.SameParts.trans (t := t.setVf v _) rfl (State.raise_onlyEndpoint _ (.vf v) 1).sameParts) _ _

/-! ### A partition that stays takes its new configuration (R305, Table 6-13) -/

/-- The partition `old` with the configuration of `new`: its key generation, statement and debug key stay. -/
def Part.reconfigured (old new : Part) (now : Nat) : Part :=
  { old with
    state := new.state, static := new.static, validated := new.validated, timesliceMs := new.timesliceMs, quota := new.quota,
    rslots := new.rslots, engines := new.engines, foreign := new.foreign, channels := new.channels, ways := new.ways,
    shares := new.shares, power := new.power, vfs := new.vfs,
    sliceFrom := if new.timesliceMs = old.timesliceMs then old.sliceFrom else now,
    refilled := old.refilled.filter fun r => (r.1 = 1 && new.engines.contains r.2) || (r.1 = 2 && new.foreign.contains r.2)
      || (r.1 = 4 && new.ways.contains r.2) }

section
variable {s : State} {p : Nat} (hstate : (s.wmb.shadow.part p).state ≠ 0) (hkeyed : (s.wmb.shadow.part p).keyed = true)
include hstate hkeyed

theorem State.switchPart_of_stays : s.switchPart p =
    if ((s.part p).reconfigured (s.wmb.shadow.part p) s.now).content = (s.part p).content then
      s.setPart p ((s.part p).reconfigured (s.wmb.shadow.part p) s.now)
    else (s.setPart p ((s.part p).reconfigured (s.wmb.shadow.part p) s.now)).partChanged p 0 :=
  (if_neg hstate).trans (if_neg (by simp [Part.opening, hkeyed]))

/-- Whether the statement changes or not, the partition is the reconfigured one, its count and reason of changes aside. -/
theorem State.switchPart_sameParts : ∃ changes reason,
    (s.setPart p { (s.part p).reconfigured (s.wmb.shadow.part p) s.now with changes := changes, reason := reason }).SameParts
      (s.switchPart p) := by
  rw [State.switchPart_of_stays hstate hkeyed]
  split
  · exact ⟨_, _, rfl⟩
  · have h := (s.setPart p ((s.part p).reconfigured (s.wmb.shadow.part p) s.now)).partChanged_sameParts p 0
    simp only [State.part_setPart, State.setPart_setPart] at h
    exact ⟨_, _, h⟩

end

/-! ### The switch of one named partition -/

/-- When every unit of the named partition works, the rest of the switch leaves every partition as `State.switchPart`
made it. -/
theorem State.switch_sameParts {s t : State} {p : Nat} (hnamed : s.wmb.named = [p]) (ht : t.SameParts (s.switchPart p))
    (hworks : (t.part p).unitsOf.all t.unitWorks = true) (hctxs : t.ctxs = []) : t.SameParts s.switch := by
  unfold State.switch
  extract_lets left before named parted dead handing pools program pooled marked refilled trimmed
  have hparted : t.SameParts parted := by
    simpa only [parted, named, hnamed, List.foldl_cons, List.foldl_nil] using ht
  have hdead : dead = [] := by
    have hall : ((parted.part p).unitsOf.filter fun u => !parted.unitWorks u) = [] := by
      rw [hparted.part, hparted.unitWorks]
      simpa using hworks
    simp [dead, named, hnamed, hall]
  have hpooled : t.SameParts pooled := hparted.trans (.trans (parted.switchPools_sameParts before) rfl)
  have hmarked : t.SameParts marked := by
    refine hpooled.trans (State.foldl_sameParts (fun u x => ?_) handing pooled)
    split
    · exact u.modEngine_sameParts _ _
    · exact .refl u
  have hrefilled : refilled = marked := by simp only [refilled, hdead, List.foldl_nil]
  have htrimmed : trimmed = marked := by
    simp only [trimmed, named, hnamed, List.foldl_cons, List.foldl_nil, hrefilled]
    exact State.trimSlots_of_noCtx (hmarked.ctxs.trans hctxs) 64 p
  rw [htrimmed]
  exact hmarked.trans marked.movePartials_sameParts

theorem State.wmbEnd_sameParts {s : State} (hblocks : s.blocks = []) (hlc : s.lc.busy = false) (hsx : s.sx = [])
    (code : Nat) : s.SameParts (s.wmbEnd code) := by
  obtain ⟨us, ep, out, h⟩ := State.wmbEnd_spec hblocks hlc hsx code
  rw [h]
  rfl

/-! ### Saves and scrubs (R314) -/

/-- From `s` to `t` only contexts, launches, engines and device memory have changed. -/
def State.OnlySaves (s t : State) : Prop :=
  t = { s with mem := t.mem, ctxs := t.ctxs, launches := t.launches, engines := t.engines }

theorem State.OnlySaves.refl (s : State) : s.OnlySaves s := rfl

theorem State.OnlySaves.trans {s t u : State} (h : s.OnlySaves t) (g : t.OnlySaves u) : s.OnlySaves u :=
  Eq.trans g (congrArg (fun z : State =>
    { z with mem := u.mem, ctxs := u.ctxs, launches := u.launches, engines := u.engines }) h)

theorem State.OnlySaves.spec {s t : State} (h : s.OnlySaves t) : ∃ mem ctxs launches engines, t =
    { s with mem := mem, ctxs := ctxs, launches := launches, engines := engines } := ⟨_, _, _, _, h⟩

theorem State.modLaunch_onlySaves (s : State) (id : Nat) (f : Launch → Launch) : s.OnlySaves (s.modLaunch id f) := by
  unfold State.modLaunch
  split <;> rfl

theorem State.foldl_onlySaves {α : Type} {f : State → α → State} (hf : ∀ (t : State) x, t.OnlySaves (f t x))
    (xs : List α) (s : State) : s.OnlySaves (xs.foldl f s) :=
  keeps_foldl (P := s.OnlySaves) (fun t x ht => ht.trans (hf t x)) (.refl s)

theorem State.clearCaptures_onlySaves (s : State) (l : Launch) : s.OnlySaves (s.clearCaptures l) := rfl

theorem State.modEngine_onlySaves (s : State) (e : Nat) (f : Engine → Engine) : s.OnlySaves (s.modEngine e f) := rfl

theorem State.modCtx_onlySaves (s : State) (c : Nat) (f : Context → Context) : s.OnlySaves (s.modCtx c f) := rfl

theorem State.saveOn_onlySaves (s : State) (c e : Nat) : s.OnlySaves (s.saveOn c e) := by
  unfold State.saveOn
  extract_lets +onlyGivenNames x here
  split
  · exact .refl s
  · extract_lets units base cells r cleared scrubbed
    have hcleared : s.OnlySaves cleared := by
      refine State.foldl_onlySaves (fun t l => ?_) here s
      exact (t.clearCaptures_onlySaves l.2).trans (State.modLaunch_onlySaves _ _ _)
    clear_value cleared
    have hscrubbed : cleared.OnlySaves scrubbed := cleared.modEngine_onlySaves e _
    clear_value scrubbed
    exact hcleared.trans (hscrubbed.trans (scrubbed.modCtx_onlySaves c _))

/-- An engine whose old owner is gone: nothing is left in its store, nor to be scrubbed. -/
def Engine.handed (x : Engine) : Engine :=
  { x with handover := false, scrubs := [], store := [],
           ctr := { x.ctr with scrubBytes := bump x.ctr.scrubBytes ((x.scrubs.map fun r => r.units * unitBytes).sum) } }

/-- R314: the allotments of a leaving engine are saved, and then its store is overwritten. -/
theorem State.handUnit_engine (s : State) (e : Nat) : ∃ t, s.OnlySaves t ∧
    s.handUnit (.engine e) = t.modEngine e Engine.handed :=
  ⟨_, State.foldl_onlySaves (fun t c => t.saveOn_onlySaves c e) _ s, rfl⟩

/-! ### The commands of the hand-over -/

section
variable {s : State} (hup : s.up = true) (hphase : s.wmb.phase = .handover)
include hup hphase

theorem exec_handoverPreemptTimeout_engine {e : Nat} (hswitched : s.wmb.switched = false)
    (hleaving : s.leaving = [.engine e]) : exec .handoverPreemptTimeout s = .next (((s.engine e).slots.filterMap fun r =>
      (tfind s.launches r.2).map (·.ctx)).eraseDups.foldl State.startOut s) := by
  refine congrArg Host.Outcome.next ((State.work_of_up hup _).trans ?_)
  rw [if_neg (by simp [hphase, hswitched]), hleaving]
  rfl

theorem exec_handoverSwitch (hswitched : s.wmb.switched = false) (hquiet : s.leaving.all s.leftQuiet = true) :
    exec .handoverSwitch s = .next (if s.switch.wmb.handing = [] then s.switch.wmbEnd 0 else s.switch) :=
  congrArg Host.Outcome.next ((State.work_of_up hup _).trans (if_neg (by simp only [hphase, hswitched, hquiet]; simp)))

theorem exec_handoverSaveComplete_last {u : UnitId} (hswitched : s.wmb.switched = true) (hhanding : s.wmb.handing = [u])
    (hkept : (s.handUnit u).wmb = s.wmb) : exec (.handoverSaveComplete u) s =
      .next ({ s.handUnit u with wmb := { s.wmb with handing := [] } }.wmbEnd 0) := by
  refine congrArg Host.Outcome.next ((State.work_of_up hup _).trans ?_)
  simp [hphase, hswitched, hhanding, hkept]

end

/-- Settles O47: `State.switchPart_sameParts` gives the named partition as the switch leaves it, and `State.SameParts`
carries it to the end of the command; the last save is that of `State.handUnit_engine`. -/
theorem handOver : Obligations.HandOver := by
  refine ⟨?timeout, ?switch, ?lastSave⟩
  case timeout =>
    intro s e hup hphase hswitched hleaving
    exact exec_handoverPreemptTimeout_engine hup hphase hswitched hleaving
  case switch =>
    intro s p hup hphase hswitched hquiet hnamed _ hsealed hkeyed hworks hctxs hblocks hlc hsx
    obtain ⟨changes, reason, hparted⟩ := State.switchPart_sameParts (by simp [hsealed]) hkeyed
    have hswitch := State.switch_sameParts hnamed hparted (by rw [State.part_setPart]; exact hworks) hctxs
    have hend : s.switch.SameParts (if s.switch.wmb.handing = [] then s.switch.wmbEnd 0 else s.switch) := by
      split
      · exact State.wmbEnd_sameParts (hswitch.blocks.trans hblocks) ((congrArg (·.busy) hswitch.lc).trans hlc)
          (hswitch.sx.trans hsx) 0
      · exact .refl _
    have hparts := hswitch.trans hend
    refine ⟨_, exec_handoverSwitch hup hphase hswitched hquiet, ?_⟩
    rw [hparts.part p, State.part_setPart]
    exact ⟨rfl, rfl, rfl, rfl, rfl, rfl, rfl, fun q hq => (hparts.part q).trans (State.part_setPart_ne _ _ hq), hparts.mem⟩
  case lastSave =>
    intro s e hup hphase hswitched hhanding hblocks hlc hsx
    obtain ⟨t, hsaves, hunit⟩ := s.handUnit_engine e
    have hkept : s.OnlySaves (s.handUnit (.engine e)) := hunit ▸ hsaves.trans (t.modEngine_onlySaves e _)
    obtain ⟨us, ep, out, hend⟩ := State.wmbEnd_spec
      (s := { s.handUnit (.engine e) with wmb := { s.wmb with handing := [] } })
      ((congrArg State.blocks hkept :).trans hblocks) ((congrArg (·.lc.busy) hkept :).trans hlc)
      ((congrArg State.sx hkept :).trans hsx) 0
    have hexec := exec_handoverSaveComplete_last hup hphase hswitched hhanding (congrArg State.wmb hkept :)
    have hengine : (s.handUnit (.engine e)).engine e = (t.engine e).handed := by rw [hunit, State.engine_modEngine]
    exact ⟨_, hexec.trans (congrArg _ hend), (congrArg Engine.store hengine :), (congrArg Engine.handover hengine :),
      (congrArg Engine.scrubs hengine :), rfl, rfl, rfl⟩

/-! ### Slice statements -/

@[simp] theorem State.stmt_stmtSet (s : State) (v : Nat) (f : Stmt → Stmt) :
    ((s.stmtSet v f).vf v).stmt = f (s.vf v).stmt := by
  rw [State.stmtSet, State.vf_setVf]

/-- The requester reads a refusal in its own registers, and in nothing else of the hub. -/
theorem State.stmtRefused_spec (s : State) (v : Nat) : s.OnlyEndpoint (s.stmtRefused v) ∧
    ((s.stmtRefused v).vf v).stmt = { (s.vf v).stmt with busy := false, refused := true, done := true } := by
  refine ⟨State.OnlyEndpoint.trans (t := s.stmtSet v _) rfl (State.raise_onlyEndpoint _ _ _), ?_⟩
  rw [State.stmtRefused, State.raise_vf_stmt, State.stmt_stmtSet]

/-- The statement registers after a write of `w` has cleared the flags it names (Table 6-15). -/
def Stmt.cleared (x : Stmt) (w : Nat) : Stmt :=
  { x with changed := x.changed && !bit w 4, refused := x.refused && !bit w 3, lost := x.lost && !bit w 2,
           done := x.done && !bit w 1 }

section
variable {s : State} {v : Nat} {w : BitVec 64} (hdec : s.decodes (.vf v) = true) (hreq : bit w.toNat 0 = true)
  (hfree : (s.vf v).stmt.busy = false)
include hdec hreq hfree

theorem exec_stmtRequest_asked : exec (.stmtRequest v w) s = .next
    (if (s.stmtPart v).isNone then (s.stmtSet v (Stmt.cleared · w.toNat)).stmtRefused v
     else { (s.stmtSet v (Stmt.cleared · w.toNat)).stmtSet v (fun x => { x with busy := true }) with
            wmb := { s.wmb with stmtQueue := s.wmb.stmtQueue ++ [v] } }) := by
  have hidle : ((s.stmtSet v (Stmt.cleared · w.toNat)).vf v).stmt.busy = false := by rw [State.stmt_stmtSet]; exact hfree
  refine congrArg Host.Outcome.next ((if_neg (by simp [hdec])).trans ((if_neg (by simp [hreq])).trans (if_neg ?_)))
  exact Bool.eq_false_iff.mp hidle

end

/-- The statement registers with a statement to be read (R320, R324). -/
def Stmt.filled (x : Stmt) (bytes : List Byte) : Stmt :=
  { x with busy := false, done := true, length := bytes.length, buffer := bytes }

theorem exec_stmtIssue {s : State} {v p key : Nat} (hup : s.up = true) (hwarden : s.sage.wardenDown = false)
    (hfw : s.fwRuns = true) (hnext : s.wmb.stmtQueue.find? s.stmtReady = some v) (hpart : s.stmtPart v = some p)
    (hkey : s.identityKey = some key) : exec .stmtIssue s = .next
      (({ s with wmb := { s.wmb with stmtQueue := s.wmb.stmtQueue.erase v } }.stmtSet v
        (Stmt.filled · (s.statementBody v p ++ signBytes key (s.statementBody v p)))).raise (.vf v) 1) := by
  refine congrArg Host.Outcome.next ((State.work_of_up hup _).trans ((if_neg (by simp [hwarden, hfw])).trans ?_))
  have hpart' (m : Wmb) : { s with wmb := m }.stmtPart v = some p := hpart
  have hkey' (m : Wmb) : { s with wmb := m }.identityKey = some key := hkey
  simp only [hnext, hpart', hkey']
  rfl

/-- The fixed head of every statement (Table 6-16). -/
theorem State.statementBody_head (s : State) (v p : Nat) : ∃ len validated provisioned rest, s.statementBody v p =
    bytesLE 4 0x53535653 ++ (bytesLE 2 1 ++ (bytesLE 2 0xB0 ++ (bytesLE 4 len ++ (bytesLE 1 p ++
      (bytesLE 1 (flag (s.part p).static 0) ++ (bytesLE 1 validated ++ (bytesLE 1 provisioned ++
        (bytesLE 8 (s.part p).seq ++ rest)))))))) := by
  generalize h : s.statementBody v p = body
  unfold State.statementBody at h
  extract_lets x units claims len nonce memory w at h
  clear_value units claims len nonce memory w
  simp only [List.append_assoc] at h
  exact ⟨_, _, _, _, h.symm⟩

/-- Settles O48: a request ends in the queue or in `State.stmtRefused`; `exec_stmtIssue` gives the statement that the one
served gets, and `State.statementBody_head` where its first fields stand. -/
theorem sliceStatements : Obligations.SliceStatements := by
  refine ⟨?queued, ?refused, ?issued, ?head⟩
  case queued =>
    intro s v p w hdec hreq hfree hpart
    have hexec := (exec_stmtRequest_asked hdec hreq hfree).trans (congrArg _ (if_neg (by simp [hpart])))
    have hstmt : (((s.stmtSet v (Stmt.cleared · w.toNat)).stmtSet v (fun x => { x with busy := true })).vf v).stmt =
        { (s.vf v).stmt.cleared w.toNat with busy := true } := by rw [State.stmt_stmtSet, State.stmt_stmtSet]
    exact ⟨_, hexec, congrArg Stmt.busy hstmt, rfl, (congrArg Stmt.nonce hstmt :), rfl, rfl, rfl⟩
  case refused =>
    intro s v w hdec hreq hfree hpart
    have hexec := (exec_stmtRequest_asked hdec hreq hfree).trans (congrArg _ (if_pos (by simp [hpart])))
    obtain ⟨hframe, hstmt⟩ := (s.stmtSet v (Stmt.cleared · w.toNat)).stmtRefused_spec v
    exact ⟨_, hexec, congrArg Stmt.busy hstmt, congrArg Stmt.refused hstmt, congrArg Stmt.done hstmt,
      (congrArg State.wmb hframe :), (congrArg State.units hframe :), (congrArg State.mem hframe :)⟩
  case issued =>
    intro s v p key hup hwarden hfw hnext hpart hkey
    refine ⟨_, exec_stmtIssue hup hwarden hfw hnext hpart hkey, ?_⟩
    have hframe := State.raise_onlyEndpoint ({ s with wmb := { s.wmb with stmtQueue := s.wmb.stmtQueue.erase v } }.stmtSet v
      (Stmt.filled · (s.statementBody v p ++ signBytes key (s.statementBody v p)))) (.vf v) 1
    rw [State.raise_vf_stmt, State.stmt_stmtSet]
    exact ⟨(congrArg (·.wmb.stmtQueue) hframe :), rfl, rfl, rfl, (congrArg State.units hframe :),
      (congrArg State.mem hframe :), (congrArg State.lc hframe :)⟩
  case head =>
    intro s v p
    obtain ⟨len, validated, provisioned, rest, h⟩ := s.statementBody_head v p
    rw [h]
    exact ⟨rfl, rfl, rfl, rfl⟩

end Sys2Proof.Machine
end

section
/-! The object family (chapters 7 and 8): requests on memory objects, fences and imports, and what frees an entry (R345, R349
to R353, R363 to R367). -/

namespace Sys2Proof.Machine

/-! ### A request that is taken (R340 to R342) -/

theorem State.mayAsk_iff {s : State} {fn : Fn} {op : Nat} : s.mayAsk fn op = true ↔
    s.decodes fn = true ∧ s.fwRuns = true ∧ (s.block fn).busy = false ∧ s.sage.wardenDown = false ∧ reqFrom op fn = true ∧
      (s.block fn).a0 &&& (reqMask op).1 = (s.block fn).a0 ∧ (s.block fn).a1 &&& (reqMask op).2.1 = (s.block fn).a1 ∧
      (s.block fn).a2 &&& (reqMask op).2.2 = (s.block fn).a2 := by
  simp [State.mayAsk, and_assoc]

section
variable (s : State) (fn : Fn) (op : Nat) (tag : BitVec 16)

@[simp] theorem State.asked_a0 : ((s.asked fn op tag).block fn).a0 = (s.block fn).a0 := by
  rw [State.asked, State.block_setBlock]; rfl
@[simp] theorem State.asked_a1 : ((s.asked fn op tag).block fn).a1 = (s.block fn).a1 := by
  rw [State.asked, State.block_setBlock]; rfl
@[simp] theorem State.asked_a2 : ((s.asked fn op tag).block fn).a2 = (s.block fn).a2 := by
  rw [State.asked, State.block_setBlock]; rfl
@[simp] theorem State.ctx_asked (c : Nat) : (s.asked fn op tag).ctx c = s.ctx c := rfl
@[simp] theorem State.fence_asked (i : Nat) : (s.asked fn op tag).fence i = s.fence i := rfl
@[simp] theorem State.fit_asked (p n : Nat) : (s.asked fn op tag).fit p n = s.fit p n := rfl
@[simp] theorem State.tag_asked (c : Nat) : (s.asked fn op tag).tag c = s.tag c := rfl
@[simp] theorem State.reqCtx_asked (g : Fn) (h : Nat) : (s.asked fn op tag).reqCtx g h = s.reqCtx g h := rfl
@[simp] theorem State.fenceValid_asked (c : Nat) (h : BitVec 32) (at_ : QPos) :
    (s.asked fn op tag).fenceValid c h at_ = s.fenceValid c h at_ := rfl
@[simp] theorem State.importView_asked (h : BitVec 32) : (s.asked fn op tag).importView h = s.importView h := rfl

end

section
variable {s : State} {fn : Fn} {op c : Nat} (hask : s.mayAsk fn op = true)
include hask

/-- A request that the function may make passes the checks of R340 to R342 on its block, and is carried out. -/
theorem State.request_of_mayAsk (tag : BitVec 16) (run : State → State) :
    s.request fn tag op run = run (s.asked fn op tag) := by
  obtain ⟨hdec, hfw, hbusy, hwarden, hfrom, h0, h1, h2⟩ := State.mayAsk_iff.mp hask
  have hbegin : (s.asked fn op tag).reqBegin fn op run = run (s.asked fn op tag) := by
    simp [State.reqBegin, hfrom, h0, h1, h2]
  simp only [State.request, hdec, hfw, hbusy, State.setBlock_sage, hwarden]
  exact hbegin

theorem State.work_request_of_mayAsk (hup : s.up = true) (tag : BitVec 16) (run : State → State) :
    Host.Outcome.next (s.work (s.request fn tag op run)) =
      (.next (run (s.asked fn op tag)) : Host.Outcome State Fault Refusal) :=
  congrArg Host.Outcome.next ((State.work_of_up hup _).trans (State.request_of_mayAsk hask tag run))

end

section
variable {s : State} {fn : Fn} {c : Nat} (hctx : s.reqCtx fn (s.block fn).a0 = (0, c))
include hctx

theorem State.onCtx_asked (op : Nat) (tag : BitVec 16) (run : State → Nat → State) :
    (s.asked fn op tag).onCtx fn run = run (s.asked fn op tag) c := by
  simp [State.onCtx, hctx]

theorem State.onLive_asked (hlive : (s.ctx c).state = .live) (op : Nat) (tag : BitVec 16) (run : State → Nat → State) :
    (s.asked fn op tag).onLive fn run = run (s.asked fn op tag) c := by
  rw [State.onLive, State.onCtx_asked hctx, State.ctx_asked, if_pos hlive]

end

/-! ### The free index of a new entry (R345) -/

theorem firstFrom_some {test : Nat → Bool} {n i k : Nat} (h : firstFrom test n i = some k) : test k = true := by
  induction n generalizing i with
  | zero => cases h
  | succ n ih =>
    unfold firstFrom at h
    split at h
    next hi => exact Option.some.inj h ▸ hi
    next => exact ih h

/-- The index taken is free and lies in the table; a free value has been used. -/
theorem State.pickFree_some {s t : State} {n i : Nat} {free : Nat → Bool} (hn : 0 < n)
    (h : s.pickFree n free = (some i, t)) : free i = true ∧ i < n ∧ t = { s with freeCtr := s.freeCtr + 1 } := by
  obtain ⟨hi, rfl⟩ := Prod.mk.inj h
  obtain ⟨k, hk, rfl⟩ := Option.map_eq_some_iff.mp hi
  have hfree := firstFrom_some hk
  exact ⟨hfree, Nat.mod_lt k hn, rfl⟩

/-- A new object stands at an index that was free, and its context owns one object more. -/
theorem State.newObj_some {s t : State} {c i : Nat} {o : Obj} (h : s.newObj c o = (some i, t)) :
    (s.obj i).state = 0 ∧ i < 262144 ∧
      t = ({ s with freeCtr := s.freeCtr + 1 }.setObj i { o with gen := (s.obj i).gen, owner := s.tag c }).setCtx c
        { s.ctx c with objectsOwned := (s.ctx c).objectsOwned + 1 } := by
  unfold State.newObj at h
  split at h
  next => cases h
  next k u hpick =>
    obtain ⟨hfree, hk, rfl⟩ := State.pickFree_some (by decide) hpick
    obtain ⟨hi, rfl⟩ := Prod.mk.inj h
    obtain rfl := Option.some.inj hi
    exact ⟨beq_iff_eq.mp hfree, hk, rfl⟩

/-! ### The requests -/

section
variable {s t : State} {fn : Fn} {tag : BitVec 16} {c i : Nat} (hup : s.up = true)
  (hctx : s.reqCtx fn (s.block fn).a0 = (0, c))
include hup hctx

section
variable (hlive : (s.ctx c).state = .live)
include hlive

theorem exec_objCreate {b : Nat} (hask : s.mayAsk fn 0x04 = true) (hsize : objSizeOk (s.block fn).a1 = true)
    (hfit : s.fit (s.ctx c).part (s.block fn).a1 = some b)
    (hnew : (s.asked fn 0x04 tag).newObj c
      { exported := bit (s.block fn).a2 0, state := 1, base := b, size := (s.block fn).a1 } = (some i, t)) :
    exec (.objCreate fn tag) s = .next (t.setBlock fn { t.block fn with subject := mkHandle 3 (t.obj i).gen i }) := by
  refine (State.work_request_of_mayAsk hask hup tag _).trans (congrArg Host.Outcome.next ?_)
  rw [State.reqObjCreate, State.onLive_asked hctx hlive]
  simp only [State.asked_a1, State.asked_a2, State.ctx_asked, State.fit_asked, hsize, hfit, hnew]
  rfl

theorem exec_objCreateHost (hask : s.mayAsk fn 0x05 = true) (hbase : (s.block fn).a1 % 65536 = 0)
    (hsize : objSizeOk (s.block fn).a2 = true) (hnew : (s.asked fn 0x05 tag).newObj c
      { host := true, state := 2, base := (s.block fn).a1, size := (s.block fn).a2 } = (some i, t)) :
    exec (.objCreateHost fn tag) s = .next (t.reqDone fn 0 (mkHandle 3 (t.obj i).gen i).toNat 0) := by
  refine (State.work_request_of_mayAsk hask hup tag _).trans (congrArg Host.Outcome.next ?_)
  rw [State.reqObjCreateHost, State.onLive_asked hctx hlive]
  simp only [State.asked_a1, State.asked_a2, hbase, hsize, hnew]
  rfl

theorem exec_fenceCreate (hask : s.mayAsk fn 0x06 = true) (hscope : (s.block fn).a2 % 4 ≠ 3)
    (hquota : (s.ctx c).fencesOwned < 65536)
    (hpick : (s.asked fn 0x06 tag).pickFree 1048576 (fun k => (s.fence k).state == 0) = (some i, t)) :
    exec (.fenceCreate fn tag) s = .next (((t.setFence i
      { gen := (s.fence i).gen, exportScope := (s.block fn).a2 % 4, notify := bit (s.block fn).a2 2, state := 1,
        owner := s.tag c, key := BitVec.ofNat 16 (fld (s.block fn).a2 31 16) }).setCtx c
        { s.ctx c with fencesOwned := (s.ctx c).fencesOwned + 1 }).reqDone fn 0 (mkHandle 4 (s.fence i).gen i).toNat 0) := by
  obtain ⟨-, -, rfl⟩ := State.pickFree_some (by decide) hpick
  refine (State.work_request_of_mayAsk hask hup tag _).trans (congrArg Host.Outcome.next ?_)
  rw [State.reqFenceCreate, State.onLive_asked hctx hlive]
  simp only [State.asked_a2, State.ctx_asked, State.fence_asked, if_neg hscope, if_neg (Nat.not_le.mpr hquota), hpick]
  rfl

/-- An import of a fence of the same partition raises the count of the fence, and the context notes it. -/
theorem exec_importEntry_fence {n lim : Nat} {h : BitVec 32} {own : BitVec 16} {orph : Bool}
    (hask : s.mayAsk fn 0x08 = true) (harg : BitVec.ofNat 32 (s.block fn).a1 = h) (htype : hType h = 4)
    (hview : s.importView h = some (own, orph, true, n, lim)) (hroom : n < lim) (hnew : h ∉ (s.ctx c).imports)
    (hown : own ≠ (s.ctx c).tag c) (hpart : tagPart own = (s.ctx c).part) :
    exec (.importEntry fn tag) s = .next ((((s.asked fn 0x08 tag).setFence (hIndex h)
      { s.fence (hIndex h) with imports := n + 1 }).setCtx c
        { s.ctx c with imports := (s.ctx c).imports ++ [h] }).reqDone fn 0 h.toNat 0) := by
  refine (State.work_request_of_mayAsk hask hup tag _).trans (congrArg Host.Outcome.next ?_)
  rw [State.reqImport, State.onLive_asked hctx hlive]
  simp [harg, htype, hview, hnew, hown, hpart, Nat.not_le.mpr hroom, State.modCtx]

end

theorem exec_fenceQuery (hask : s.mayAsk fn 0x07 = true)
    (hvalid : s.fenceValid c (BitVec.ofNat 32 (s.block fn).a1) none = true) :
    exec (.fenceQuery fn tag) s = .next ((s.asked fn 0x07 tag).reqDone fn 0
      (s.fence (hIndex (BitVec.ofNat 32 (s.block fn).a1))).word
      (s.fence (hIndex (BitVec.ofNat 32 (s.block fn).a1))).signalThyme) := by
  refine (State.work_request_of_mayAsk hask hup tag _).trans (congrArg Host.Outcome.next ?_)
  rw [State.reqFenceQuery, State.onCtx_asked hctx]
  simp [hvalid]

end

/-- The zeroing of an object of a context that is not in ABORTING ends with its OBJ_CREATE (R349). -/
theorem exec_objZeroingComplete {s : State} {fn : Fn} (hup : s.up = true) (hbusy : (s.block fn).busy = true)
    (hqueued : (s.block fn).queued = false) (hop : (s.block fn).op = 4) (hzero : s.zeroing (s.block fn).subject = true)
    (hstate : (s.ctx (tagCtx (s.obj (hIndex (s.block fn).subject)).owner)).state ≠ .aborting) :
    exec (.objZeroingComplete fn) s = .next ((State.setObj { s with
      mem := mzero s.mem (s.obj (hIndex (s.block fn).subject)).base (s.obj (hIndex (s.block fn).subject)).size }
      (hIndex (s.block fn).subject) { s.obj (hIndex (s.block fn).subject) with state := 2 }).reqDone fn 0
        (s.block fn).subject.toNat (s.obj (hIndex (s.block fn).subject)).base) :=
  congrArg Host.Outcome.next ((State.work_of_up hup _).trans
    (if_neg (by simp [hbusy, hqueued, hop, hzero, hstate])))

/-! ### What frees an entry (R363 to R367) -/

theorem State.heldLess_onlyCtxs (s : State) (c : Nat) : ∃ ctxs, s.heldLess c = { s with ctxs := ctxs } := ⟨_, rfl⟩

/-- A freed fence keeps only its next generation; but for it, only its owner's counts change. -/
theorem State.freeFence_spec (s : State) (i : Nat) : ∃ ctxs,
    s.freeFence i = { s.setFence i { gen := nextGen (s.fence i).gen } with ctxs := ctxs } := by
  unfold State.freeFence
  extract_lets f c t
  split
  · exact t.heldLess_onlyCtxs c
  · exact ⟨_, rfl⟩

/-- A released fence that nothing imports is freed when every command before its RELEASE has retired. -/
theorem exec_entryFree_fence {s : State} {h : BitVec 32} {r : Released} (hup : s.up = true) (htype : hType h = 4)
    (hrel : (s.ctx (tagCtx (s.fence (hIndex h)).owner)).released.find? (fun r => r.handle = h && !r.isImport) = some r)
    (hgen : hGen h = (s.fence (hIndex h)).gen) (hreleasing : (s.fence (hIndex h)).releasing = true)
    (himports : (s.fence (hIndex h)).imports = 0)
    (hretired : s.precedingRetired (tagCtx (s.fence (hIndex h)).owner) r = true) :
    exec (.entryFree h) s = .next ((s.modCtx (tagCtx (s.fence (hIndex h)).owner) fun x =>
      { x with released := x.released.erase r }).freeFence (hIndex h)) := by
  refine congrArg Host.Outcome.next ((State.work_of_up hup _).trans ?_)
  simp [State.entryFree, htype, hrel, hgen, hreleasing, himports, hretired]

theorem exec_importEnd {s : State} {c : Nat} {h : BitVec 32} {r : Released} (hup : s.up = true)
    (hrel : (s.ctx c).released.find? (fun r => r.handle = h && r.isImport) = some r)
    (hretired : s.precedingRetired c r = true) (himport : (s.ctx c).imports.contains h = true) :
    exec (.importEnd c h) s = .next (s.endImport c h) := by
  refine congrArg Host.Outcome.next ((State.work_of_up hup _).trans ?_)
  simp only [hrel, hretired, himport, Bool.and_self, if_true]

/-- Settles O23: `State.request_of_mayAsk` leads each request to its row; `State.pickFree_some` gives the index of a new
entry, and `State.freeFence_spec` what is left of a freed one. -/
theorem objectRequests : Obligations.ObjectRequests := by
  refine ⟨?create, ?newObj, ?zeroed, ?createHost, ?fenceCreate, ?fenceQuery, ?importFence, ?entryFree, ?importEnd⟩
  case create =>
    intro s fn tag c b i t hup hask hctx hlive hsize hfit hnew
    exact exec_objCreate hup hctx hlive hask hsize hfit hnew
  case newObj =>
    intro s c i o t hnew
    obtain ⟨hfree, hi, rfl⟩ := State.newObj_some hnew
    have hctx (u : State) : (u.setCtx c { s.ctx c with objectsOwned := (s.ctx c).objectsOwned + 1 }).ctx c =
        { s.ctx c with objectsOwned := (s.ctx c).objectsOwned + 1 } := u.ctx_setCtx c _
    refine ⟨rfl, ?_, ?_, ?_, ?_, ?_, hfree, hi, ?_, fun j hj => ?_, rfl⟩
    · rw [State.obj_setCtx, State.obj_setObj]
    · rw [State.obj_setCtx, State.obj_setObj]
    · rw [State.obj_setCtx, State.obj_setObj]
    · rw [State.obj_setCtx, State.obj_setObj]
    · rw [State.obj_setCtx, State.obj_setObj]
    · rw [hctx]
    · rw [State.obj_setCtx, State.obj_setObj_ne _ _ hj]; rfl
  case zeroed =>
    intro s fn hup hbusy hqueued hop hzero hstate
    exact exec_objZeroingComplete hup hbusy hqueued hop hzero hstate
  case createHost =>
    intro s tag c i t hup hask hctx hlive hbase hsize hnew
    exact exec_objCreateHost hup hctx hlive hask hbase hsize hnew
  case fenceCreate =>
    intro s fn tag c i t hup hask hctx hlive hscope hquota hpick
    exact exec_fenceCreate hup hctx hlive hask hscope hquota hpick
  case fenceQuery =>
    intro s fn tag c hup hask hctx hvalid
    exact exec_fenceQuery hup hctx hask hvalid
  case importFence =>
    intro s fn tag c n lim h own orph hup hask hctx hlive harg htype hview hroom hnew hown hpart
    exact exec_importEntry_fence hup hctx hlive hask harg htype hview hroom hnew hown hpart
  case entryFree =>
    intro s h r hup htype hrel hgen hreleasing himports hretired
    obtain ⟨ctxs, hfreed⟩ := (s.modCtx (tagCtx (s.fence (hIndex h)).owner) fun x =>
      { x with released := x.released.erase r }).freeFence_spec (hIndex h)
    have hentry : (s.setFence (hIndex h) { gen := nextGen (s.fence (hIndex h)).gen }).fence (hIndex h) =
        { gen := nextGen (s.fence (hIndex h)).gen } := s.fence_setFence ..
    exact ⟨_, (exec_entryFree_fence hup htype hrel hgen hreleasing himports hretired).trans (congrArg _ hfreed),
      (congrArg Fence.state hentry :), (congrArg Fence.gen hentry :), rfl⟩
  case importEnd =>
    intro s c h r hup hrel hretired himport
    exact exec_importEnd hup hrel hretired himport

end Sys2Proof.Machine
end

section
/-! The command front end (chapter 8): what the start of a packet and the end of a command change, WAIT and the fence unit
(R354 to R358, R372, R373, R403), signals to other hubs (R335, R336, R420 to R426), TIMESTAMP (R409), COPY, FILL, JUMP,
CALL_RING and RELEASE (R362 to R366, R405 to R408). -/

namespace Sys2Proof.Machine

/-! ### Members of a table -/

theorem mem_tput_self {α : Type} (t : Table α) (k : Nat) (v : α) : (k, v) ∈ tput t k v := by
  induction t with
  | nil => exact List.mem_singleton.mpr rfl
  | cons e t ih =>
    unfold tput
    split
    · exact List.mem_cons_self
    · split
      · exact List.mem_cons_self
      · exact List.mem_cons_of_mem _ ih

theorem mem_of_mem_tput {α : Type} {t : Table α} {k : Nat} {v : α} {e : Nat × α} (h : e ∈ tput t k v) :
    e = (k, v) ∨ e ∈ t := by
  induction t with
  | nil => exact .inl (List.mem_singleton.mp h)
  | cons f t ih =>
    unfold tput at h
    split at h
    · exact (List.mem_cons.mp h).imp_right (List.mem_cons_of_mem _)
    · split at h
      · exact List.mem_cons.mp h
      · rcases List.mem_cons.mp h with rfl | ht
        · exact .inr List.mem_cons_self
        · exact (ih ht).imp_right (List.mem_cons_of_mem _)

theorem ne_of_tfind_none {α : Type} {t : Table α} {k : Nat} (h : tfind t k = none) : ∀ e ∈ t, e.1 ≠ k := by
  induction t with
  | nil => exact fun e he => absurd he List.not_mem_nil
  | cons f t ih =>
    unfold tfind at h
    split at h
    · cases h
    next hk =>
      intro e he
      rcases List.mem_cons.mp he with rfl | ht
      · exact fun h' => hk h'.symm
      · exact ih h e ht

theorem tdel_of_tfind_none {α : Type} {t : Table α} {k : Nat} (h : tfind t k = none) : tdel t k = t :=
  List.filter_eq_self.mpr fun e he => decide_eq_true (ne_of_tfind_none h e he)

/-- An update of an entry that a test rejects does not show among those that the test lets through. -/
theorem filter_tput {α : Type} {p : Nat × α → Bool} {k : Nat} (hp : ∀ v, p (k, v) = false) (t : Table α) (v : α) :
    (tput t k v).filter p = t.filter p := by
  induction t with
  | nil => simp [tput, hp]
  | cons e t ih =>
    obtain ⟨k', v'⟩ := e
    unfold tput
    split
    next h => subst h; simp [hp]
    next =>
      split
      · simp [hp]
      · rw [List.filter_cons, List.filter_cons, ih]

/-- The one element that meets a test is the one found. -/
theorem find?_eq_some_of_unique {α : Type} {p : α → Bool} {l : List α} {a : α} (ha : a ∈ l) (hp : p a = true)
    (huniq : ∀ b ∈ l, p b = true → b = a) : l.find? p = some a := by
  obtain ⟨b, hb⟩ := Option.isSome_iff_exists.mp (List.find?_isSome.mpr ⟨a, ha, hp⟩)
  rw [hb, huniq b (List.mem_of_find?_eq_some hb) (List.find?_some hb)]

/-! ### What the end of a command leaves -/

/-- From `s` to `t` only the list of commands, the signals on their way and the accounts of contexts have changed. -/
structure State.OnlyCmds (s t : State) : Prop where
  frame : t = { s with ctxs := t.ctxs, cmds := t.cmds, fenceWire := t.fenceWire }
  ctx : ∀ c, t.ctx c = { s.ctx c with acct := (t.ctx c).acct }

theorem State.OnlyCmds.refl (s : State) : s.OnlyCmds s := ⟨rfl, fun _ => rfl⟩

theorem State.OnlyCmds.trans {s t u : State} (h : s.OnlyCmds t) (g : t.OnlyCmds u) : s.OnlyCmds u where
  frame := g.frame.trans
    (congrArg (fun z : State => { z with ctxs := u.ctxs, cmds := u.cmds, fenceWire := u.fenceWire }) h.frame)
  ctx c := (g.ctx c).trans (congrArg (fun x : Context => { x with acct := (u.ctx c).acct }) (h.ctx c))

/-- An update that leaves the contexts. -/
theorem State.OnlyCmds.of_frame {s t : State} (h : t = { s with cmds := t.cmds, fenceWire := t.fenceWire }) :
    s.OnlyCmds t := by
  have hctxs : t.ctxs = s.ctxs := (congrArg State.ctxs h :)
  refine ⟨h.trans ?_, fun c => ?_⟩
  · rw [hctxs]
  · have hc : t.ctx c = s.ctx c := by rw [State.ctx, hctxs]; rfl
    rw [hc]

theorem State.modCtx_acct_onlyCmds (s : State) (c : Nat) (f : Context → Account) :
    s.OnlyCmds (s.modCtx c fun x => { x with acct := f x }) := by
  refine ⟨rfl, fun k => ?_⟩
  by_cases hk : k = c
  · subst hk
    rw [State.modCtx, State.ctx_setCtx]
  · rw [State.modCtx, State.ctx_setCtx_ne _ _ hk]

theorem State.sendSignal_onlyCmds (s : State) (h : BitVec 32) (code : Nat) : s.OnlyCmds (s.sendSignal h code) := by
  unfold State.sendSignal
  split
  · exact .refl s
  · exact .of_frame rfl

theorem State.progress_onlyCmds (s : State) (c : Nat) : s.OnlyCmds (s.progress c) :=
  s.modCtx_acct_onlyCmds c fun x => { x.acct with lastProgress := s.now }

theorem State.chargeBytes_onlyCmds (s : State) (c dev host : Nat) : s.OnlyCmds (s.chargeBytes c dev host) := by
  unfold State.chargeBytes
  split
  · exact .refl s
  · exact s.modCtx_acct_onlyCmds c fun x =>
      { x.acct with memBytes := bump x.acct.memBytes dev, hostBytes := bump x.acct.hostBytes host }

theorem State.setCmd_onlyCmds (s : State) (id : Nat) (m : Cmd) : s.OnlyCmds (s.setCmd id m) := .of_frame rfl

@[simp] theorem State.sendSignal_cmds (s : State) (h : BitVec 32) (code : Nat) : (s.sendSignal h code).cmds = s.cmds := by
  unfold State.sendSignal
  split <;> rfl

@[simp] theorem State.chargeBytes_cmds (s : State) (c dev host : Nat) : (s.chargeBytes c dev host).cmds = s.cmds := by
  obtain ⟨ctxs, h⟩ := s.chargeBytes_onlyCtxs c dev host
  rw [h]

theorem State.completeCmd_onlyCmds (s : State) (id code : Nat) : s.OnlyCmds (s.completeCmd id code) := by
  unfold State.completeCmd
  split
  · exact .refl s
  · extract_lets sig t
    have ht : s.OnlyCmds t := .of_frame rfl
    exact (ht.trans (t.sendSignal_onlyCmds sig code)).trans (State.progress_onlyCmds _ _)

theorem State.completeCmd_cmds (s : State) (id code : Nat) : (s.completeCmd id code).cmds = tdel s.cmds id := by
  unfold State.completeCmd
  split
  next h => exact (tdel_of_tfind_none h).symm
  next =>
    extract_lets sig t
    exact t.sendSignal_cmds sig code

theorem State.finishCmd_of_tfind {s : State} {id : Nat} {m : Cmd} (h : tfind s.cmds id = some m) :
    s.finishCmd id = s.completeCmd id m.code := by
  simp only [State.finishCmd, h]

theorem State.finishCmd_onlyCmds (s : State) (id : Nat) : s.OnlyCmds (s.finishCmd id) := by
  unfold State.finishCmd
  split
  · exact .refl s
  · exact s.completeCmd_onlyCmds _ _

theorem State.finishCmd_cmds (s : State) (id : Nat) : (s.finishCmd id).cmds = tdel s.cmds id := by
  unfold State.finishCmd
  split
  next h => exact (tdel_of_tfind_none h).symm
  next => exact s.completeCmd_cmds _ _

@[simp] theorem State.tfind_finishCmd (s : State) (id : Nat) : tfind (s.finishCmd id).cmds id = none := by
  rw [State.finishCmd_cmds, tfind_tdel]

theorem State.acted_of_tfind {s : State} {id : Nat} {m : Cmd} (h : tfind s.cmds id = some m) :
    s.acted id = s.setCmd id { m with acted := true } := by
  simp only [State.acted, h]

/-- A CALL_RING whose buffer has been read was a command of the queue that had acted. -/
theorem State.closeCall_cases (s : State) (q : Nat) : s.closeCall q = s ∨ ∃ id m, (id, m) ∈ s.cmds ∧ m.acted = true ∧
    s.closeCall q = s.completeCmd id m.code := by
  unfold State.closeCall
  split
  · exact .inl rfl
  · split
    next => exact .inl rfl
    next id m hfind =>
      have hm := List.find?_some hfind
      simp only [Bool.and_eq_true] at hm
      exact .inr ⟨id, m, List.mem_of_mem_filter (List.mem_of_find?_eq_some hfind), hm.2, rfl⟩

theorem State.closeCall_onlyCmds (s : State) (q : Nat) : s.OnlyCmds (s.closeCall q) := by
  rcases s.closeCall_cases q with h | ⟨id, m, -, -, h⟩
  · rw [h]; exact .refl s
  · rw [h]; exact s.completeCmd_onlyCmds _ _

/-! ### What a command of the front end leaves -/

/-- From `s` to `t` only the list of commands, the signals on their way, the next identity, and the queues and accounts of
contexts have changed. -/
structure State.OnlyFront (s t : State) : Prop where
  frame : t = { s with ctxs := t.ctxs, cmds := t.cmds, fenceWire := t.fenceWire, nextId := t.nextId }
  ctx : ∀ c, t.ctx c = { s.ctx c with acct := (t.ctx c).acct, queues := (t.ctx c).queues }

theorem State.OnlyFront.trans {s t u : State} (h : s.OnlyFront t) (g : t.OnlyFront u) : s.OnlyFront u where
  frame := g.frame.trans (congrArg (fun z : State =>
    { z with ctxs := u.ctxs, cmds := u.cmds, fenceWire := u.fenceWire, nextId := u.nextId }) h.frame)
  ctx c := (g.ctx c).trans
    (congrArg (fun x : Context => { x with acct := (u.ctx c).acct, queues := (u.ctx c).queues }) (h.ctx c))

theorem State.OnlyCmds.onlyFront {s t : State} (h : s.OnlyCmds t) : s.OnlyFront t where
  frame := h.frame.trans (by rw [(congrArg State.nextId h.frame :)])
  ctx c := (h.ctx c).trans (by rw [(congrArg Context.queues (h.ctx c) :)])

theorem State.setQueue_onlyFront (s : State) (q : Nat) (y : Queue) : s.OnlyFront (s.setQueue q y) := by
  refine ⟨rfl, fun c => ?_⟩
  by_cases hc : c = q / 8
  · subst hc
    rw [State.setQueue, State.modCtx, State.ctx_setCtx]
    rfl
  · rw [State.setQueue, State.modCtx, State.ctx_setCtx_ne _ _ hc]

theorem State.OnlyCmds.queue {s t : State} (h : s.OnlyCmds t) (q : Nat) : t.queue q = s.queue q := by
  rw [State.queue, h.ctx]
  rfl

namespace State.OnlyFront
variable {s t : State} (h : s.OnlyFront t)
include h

theorem mem : t.mem = s.mem := (congrArg State.mem h.frame :)
theorem hostMem : t.hostMem = s.hostMem := (congrArg State.hostMem h.frame :)
theorem objs : t.objs = s.objs := (congrArg State.objs h.frame :)
theorem fences : t.fences = s.fences := (congrArg State.fences h.frame :)
theorem fab : t.fab = s.fab := (congrArg State.fab h.frame :)
theorem build : t.build = s.build := (congrArg State.build h.frame :)
theorem now : t.now = s.now := congrArg Thyme.now (congrArg State.thyme h.frame :)
theorem fence (i : Nat) : t.fence i = s.fence i := by rw [State.fence, h.fences]; rfl
theorem obj (i : Nat) : t.obj i = s.obj i := by rw [State.obj, h.objs]; rfl
theorem state (c : Nat) : (t.ctx c).state = (s.ctx c).state := (congrArg Context.state (h.ctx c) :)
theorem sched (c : Nat) : (t.ctx c).sched = (s.ctx c).sched := (congrArg Context.sched (h.ctx c) :)
theorem lostHold (c : Nat) : (t.ctx c).lostHold = (s.ctx c).lostHold := (congrArg Context.lostHold (h.ctx c) :)
theorem released (c : Nat) : (t.ctx c).released = (s.ctx c).released := (congrArg Context.released (h.ctx c) :)
theorem tag (c : Nat) : t.tag c = s.tag c := by
  rw [State.tag, h.ctx]
  rfl

theorem fenceValid (c : Nat) (g : BitVec 32) (at_ : QPos) : t.fenceValid c g at_ = s.fenceValid c g at_ := by
  rw [State.fenceValid, h.fence, h.ctx]
  rfl

theorem objValid (c : Nat) (g : BitVec 32) (at_ : QPos) : t.objValid c g at_ = s.objValid c g at_ := by
  rw [State.objValid, h.obj, h.ctx]
  rfl

theorem zeroing (g : BitVec 32) : t.zeroing g = s.zeroing g := by
  rw [State.zeroing, h.obj]
  rfl

theorem tableOwner (c : Nat) : t.tableOwner c = s.tableOwner c := by
  rw [State.tableOwner, h.ctx]
  rfl

theorem namesZeroing (c : Nat) (f : Nat → Seg → Bool) : t.namesZeroing c f = s.namesZeroing c f := by
  simp only [State.namesZeroing, h.tableOwner, h.zeroing]
  rw [h.ctx]
  rfl

theorem access (w : Who) (va : Nat) : t.access w va = s.access w va := by
  have hep : t.ep = s.ep := (congrArg State.ep h.frame :)
  simp only [State.access, h.tableOwner, hep]
  rw [h.ctx]
  rfl

theorem refHere (r : Nat) : t.refHere r = s.refHere r := by
  rw [State.refHere, h.fab]
  rfl

theorem reachable (hub : Nat) : t.reachable hub = s.reachable hub := by
  simp only [State.reachable, State.routeState, h.fab, h.build]

end State.OnlyFront

/-! ### The start of a packet (R396 to R399) -/

theorem State.starts_iff {s : State} {q : Nat} {p : Packet} {rest : List Packet} : s.starts q p rest = true ↔
    s.up = true ∧ (s.queue q).decoded = p :: rest ∧ s.canStart q = true ∧ (s.ctx (q / 8)).state = .live ∧
      tfind s.cmds s.nextId = none ∧
      (signalsHandle (p.w0 % 256) (fld p.w0 15 8) = true → fld p.w0 63 32 / 2 ^ 28 ≠ 0 →
        s.fenceValid (q / 8) (BitVec.ofNat 32 (fld p.w0 63 32)) (some (q, p.pos, s.nextId)) = true) := by
  simp only [State.starts, Bool.and_eq_true, decide_eq_true_eq, beq_iff_eq, Option.isNone_iff_eq_none, Bool.or_eq_true,
    Bool.not_eq_true', and_assoc, or_assoc, ne_eq]
  grind

/-- A SIGNAL names a fence (Table 8-6). -/
theorem Packet.fence_of_signal {p : Packet} (hm : p.malformed = false) (hop : p.w0 % 256 = 5) :
    fld p.w0 63 32 / 2 ^ 28 ≠ 0 := by
  intro h
  simp [Packet.malformed, hop] at hm
  omega

/-- Its opcode and flags are the low 16 bits of a packet. -/
theorem Packet.cmd_word (p : Packet) (q : Nat) : (p.cmd q).op + 256 * (p.cmd q).flags = p.w0 % 65536 := by
  have hflags : fld p.w0 15 8 = p.w0 / 256 % 256 := by rw [fld, Nat.shiftRight_eq_div_pow]; rfl
  show p.w0 % 256 + 256 * fld p.w0 15 8 = p.w0 % 65536
  rw [hflags]
  omega

/-- The state in which a packet has been read and its command listed. -/
def State.listed (s : State) (q : Nat) (p : Packet) (rest : List Packet) : State :=
  (s.fresh.2.setQueue q ((s.queue q).take p rest)).setCmd s.nextId (p.cmd q)

theorem State.begun_eq (s : State) (q : Nat) (p : Packet) (rest : List Packet) :
    s.begun q p rest = (s.listed q p rest).closeCall q := rfl

theorem State.fresh_onlyFront (s : State) : s.OnlyFront s.fresh.2 := ⟨rfl, fun _ => rfl⟩

theorem State.listed_onlyFront (s : State) (q : Nat) (p : Packet) (rest : List Packet) : s.OnlyFront (s.listed q p rest) :=
  (s.fresh_onlyFront.trans (State.setQueue_onlyFront _ _ _)).trans (State.setCmd_onlyCmds _ _ _).onlyFront

theorem State.begun_onlyFront (s : State) (q : Nat) (p : Packet) (rest : List Packet) : s.OnlyFront (s.begun q p rest) :=
  (s.listed_onlyFront q p rest).trans (State.closeCall_onlyCmds _ q).onlyFront

theorem State.queue_begun (s : State) (q : Nat) (p : Packet) (rest : List Packet) :
    (s.begun q p rest).queue q = (s.queue q).take p rest := by
  rw [State.begun_eq, (State.closeCall_onlyCmds _ q).queue]
  exact State.queue_setQueue ..

theorem Queue.take_decoded (y : Queue) (p : Packet) (rest : List Packet) : (y.take p rest).decoded = rest := by
  unfold Queue.take
  extract_lets z
  split <;> rfl

theorem Queue.take_tail (y : Queue) (p : Packet) (rest : List Packet) : (y.take p rest).tail = y.tail := by
  unfold Queue.take
  extract_lets z
  split <;> rfl

section
variable {s : State} {q : Nat} {p : Packet} {rest : List Packet} (hs : s.starts q p rest = true)
include hs

/-- The commands of the state in which a packet has started: its own, and of those before it all but the CALL_RING it may
have ended. -/
theorem State.begun_cmds : tfind (s.begun q p rest).cmds s.nextId = some (p.cmd q) ∧
    (s.nextId, p.cmd q) ∈ (s.begun q p rest).cmds ∧
    ∀ e ∈ (s.begun q p rest).cmds, e = (s.nextId, p.cmd q) ∨ e ∈ s.cmds := by
  obtain ⟨-, -, -, -, hnew, -⟩ := State.starts_iff.mp hs
  have hlisted : (s.listed q p rest).cmds = tput s.cmds s.nextId (p.cmd q) := rfl
  rw [State.begun_eq]
  rcases (s.listed q p rest).closeCall_cases q with h | ⟨id, m, hmem, hacted, h⟩
  · rw [h, hlisted]
    exact ⟨tfind_tput .., mem_tput_self .., fun e he => mem_of_mem_tput he⟩
  · have hne : s.nextId ≠ id := by
      rcases mem_of_mem_tput (hlisted ▸ hmem) with he | he
      · rw [(Prod.mk.inj he).2] at hacted
        cases hacted
      · exact (ne_of_tfind_none hnew _ he).symm
    rw [h, State.completeCmd_cmds, hlisted]
    refine ⟨?_, ?_, fun e he => mem_of_mem_tput (List.mem_of_mem_filter he)⟩
    · rw [tfind_tdel_ne _ hne, tfind_tput]
    · exact List.mem_filter.mpr ⟨mem_tput_self .., decide_eq_true hne⟩

theorem State.tfind_begun : tfind (s.begun q p rest).cmds s.nextId = some (p.cmd q) := (State.begun_cmds hs).1

theorem State.openCmd_of_starts : s.openCmd q = none := by
  obtain ⟨-, -, hcan, -, -, -⟩ := State.starts_iff.mp hs
  simp only [State.canStart, Bool.and_eq_true, Option.isNone_iff_eq_none] at hcan
  exact hcan.1.2

theorem State.lostHold_of_starts : (s.ctx (q / 8)).lostHold = false := by
  obtain ⟨-, -, hcan, -, -, -⟩ := State.starts_iff.mp hs
  simp only [State.canStart, State.fetchOn, Bool.and_eq_true, Bool.not_eq_true'] at hcan
  exact hcan.1.1.1.1.2

/-- The packet's command is the one of its queue that has not acted. -/
theorem State.openCmd_begun : (s.begun q p rest).openCmd q = some (s.nextId, p.cmd q) := by
  obtain ⟨-, hmem, hall⟩ := State.begun_cmds hs
  refine find?_eq_some_of_unique (List.mem_filter.mpr ⟨hmem, decide_eq_true rfl⟩) rfl fun e he hopen => ?_
  obtain ⟨hin, hqueue⟩ := List.mem_filter.mp he
  rcases hall e hin with rfl | hold
  · rfl
  · have hacted := List.find?_eq_none.mp (State.openCmd_of_starts hs) e (List.mem_filter.mpr ⟨hold, hqueue⟩)
    exact absurd hopen hacted

theorem State.alone_begun (h : s.alone q = true) :
    ((s.begun q p rest).startedCmds q).all (fun e => e.1 = s.nextId || e.2.op = 0x0B) = true := by
  obtain ⟨-, -, hall⟩ := State.begun_cmds hs
  refine List.all_eq_true.mpr fun e he => ?_
  obtain ⟨hin, hqueue⟩ := List.mem_filter.mp he
  rcases hall e hin with rfl | hold
  · simp
  · have hcall := List.all_eq_true.mp h e (List.mem_filter.mpr ⟨hold, hqueue⟩)
    simp [beq_iff_eq.mp hcall]

/-- A packet of the row whose fields are good starts: its command is listed with the fence it names (R396 to R398). -/
theorem State.startHead_of_starts {row : Nat → Bool} (hrow : row p.w0 = true) (hm : p.malformed = false) :
    s.startHead q row = s.begun q p rest := by
  obtain ⟨-, hdec, hcan, hlive, -, hfence⟩ := State.starts_iff.mp hs
  have hnat : (BitVec.ofNat 32 (fld p.w0 63 32)).toNat = fld p.w0 63 32 :=
    (BitVec.toNat_ofNat ..).trans (Nat.mod_eq_of_lt (Nat.mod_lt _ (by decide)))
  unfold State.startHead
  rw [hdec]
  dsimp -zeta only
  rw [if_neg (by simp [hrow, hcan])]
  extract_lets c op flags h u fenced ok m t checked
  have hread : s.OnlyFront u := s.fresh_onlyFront.trans (State.setQueue_onlyFront _ _ _)
  have hfenced : fenced = (signalsHandle op flags && !(fld p.w0 63 32 / 2 ^ 28 == 0)) := by
    have hsignal : op = 5 → fld p.w0 63 32 / 2 ^ 28 ≠ 0 := Packet.fence_of_signal hm
    simp only [fenced, h, hnat]
    generalize fld p.w0 63 32 / 2 ^ 28 = kind at hsignal
    by_cases hop : op = 5
    · simp [hop, hsignal hop]
    · rw [bne_iff_ne.mpr hop, Bool.and_true]
      rfl
  have hok : (fenced && !ok) = false := by
    by_cases hnamed : fenced = true
    · rw [hfenced] at hnamed
      simp only [Bool.and_eq_true, Bool.not_eq_true', beq_eq_false_iff_ne] at hnamed
      have hvalid : ok = true := (hread.fenceValid _ _ _).trans (hfence hnamed.1 hnamed.2)
      rw [hvalid, Bool.not_true, Bool.and_false]
    · rw [Bool.not_eq_true] at hnamed
      rw [hnamed, Bool.false_and]
  have hhandle : (if (fenced && !ok || signalsHandle op flags && !fenced) = true then 0 else h) = p.heldFence := by
    rw [hok, hfenced, Packet.heldFence, Bool.false_or]
    cases hsig : signalsHandle op flags <;> simp [h, op, flags] at hsig ⊢
  have ht : t = s.begun q p rest := by
    simp only [t, m, hhandle]
    rfl
  have hchecked : checked = t := if_neg (by simp [hok])
  have hstate : (t.ctx c).state = .live := ht ▸ ((s.begun_onlyFront q p rest).state _).trans hlive
  rw [if_neg (not_not.mpr hstate), if_neg (by simp [hm]), hchecked, ht]

/-- A command whose packet starts acts at once, where its row does not wait for those before it (R396, R399). -/
theorem State.next_qRow_of_starts {row : Nat → Bool} (hm : p.malformed = false) (hrow : row p.w0 = true)
    (hword : row (p.w0 % 65536) = true) {alone : Bool} (halone : alone = true → s.alone q = true)
    (act : State → Nat → Cmd → State) : Host.Outcome.next (s.work (s.qRow q row alone act)) =
      (.next (act (s.begun q p rest) s.nextId (p.cmd q)) : Host.Outcome State Fault Refusal) := by
  obtain ⟨hup, -, -, -, -, -⟩ := State.starts_iff.mp hs
  have hhold : ((s.begun q p rest).ctx (p.cmd q).ctx).lostHold = false :=
    ((s.begun_onlyFront q p rest).lostHold _).trans (State.lostHold_of_starts hs)
  have hfirst : (!alone || ((s.begun q p rest).startedCmds q).all fun e => e.1 = s.nextId || e.2.op = 0x0B) = true := by
    cases alone with
    | false => rfl
    | true => exact State.alone_begun hs (halone rfl)
  have hstalled : (p.cmd q).stalled = none := rfl
  refine congrArg Host.Outcome.next ((State.work_of_up hup _).trans ?_)
  simp only [State.qRow, State.openCmd_of_starts hs, Option.isSome_none, Bool.false_eq_true, if_false,
    State.startHead_of_starts hs hrow hm, State.openCmd_begun hs, Packet.cmd_word, hword, hstalled, hhold, hfirst,
    Option.isNone_none, Bool.not_false, Bool.and_self, if_true]

omit hs in
/-- The fence that a packet names is as valid for its command as it was before. -/
theorem State.fenceValid_begun (hvalid : s.fenceValid (q / 8) p.heldFence (some (q, p.pos, s.nextId)) = true) :
    (s.begun q p rest).fenceValid (p.cmd q).ctx (p.cmd q).handle ((p.cmd q).at_ s.nextId) = true :=
  ((s.begun_onlyFront q p rest).fenceValid _ _ _).trans hvalid

end

/-! ### WAIT and the fence unit (R354 to R358, R372, R373, R403) -/

@[simp] theorem isQ_word (op w : Nat) : isQ op (w % 65536) = isQ op w := by
  rw [isQ, isQ, Nat.mod_mod_of_dvd w (by decide)]

theorem isQ_of_op {op w : Nat} (h : w % 256 = op) : isQ op w = true := beq_iff_eq.mpr h

section
variable {s : State} {id : Nat} {m : Cmd} (hvalid : s.fenceValid m.ctx m.handle (m.at_ id) = true)
include hvalid

theorem State.actWait_unsignalled (h : (s.fence (hIndex m.handle)).state = 1) : s.actWait id m =
    (s.setQueue m.queue { s.queue m.queue with blocked := some (m.handle, s.now) }).acted id :=
  (if_neg (by simp [hvalid])).trans (if_pos h)

theorem State.actWait_signalled (h : (s.fence (hIndex m.handle)).state ≠ 1) : s.actWait id m =
    s.waitEnds m.queue id
      (if (s.fence (hIndex m.handle)).state = 3 then (s.fence (hIndex m.handle)).error else 0) :=
  (if_neg (by simp [hvalid])).trans (if_neg h)

end

theorem State.waitEnds_zero (s : State) (q id : Nat) : s.waitEnds q id 0 =
    (s.finishCmd id).setQueue q { (s.finishCmd id).queue q with blocked := none } := rfl

theorem State.waitEnds_zero_onlyFront (s : State) (q id : Nat) : s.OnlyFront (s.waitEnds q id 0) := by
  rw [State.waitEnds_zero]
  exact (s.finishCmd_onlyCmds id).onlyFront.trans (State.setQueue_onlyFront _ _ _)

theorem State.queue_of_ctxs {s t : State} (h : t.ctxs = s.ctxs) (q : Nat) : t.queue q = s.queue q := by
  rw [State.queue, State.ctx, h]
  rfl

/-- R403: a WAIT that ends without an error leaves its queue as it was, not blocked. -/
theorem State.queue_waitEnds_zero (s : State) (q id : Nat) :
    (s.waitEnds q id 0).queue q = { s.queue q with blocked := none } := by
  rw [State.waitEnds_zero, State.queue_setQueue, (s.finishCmd_onlyCmds id).queue]

/-- R403: a WAIT that ends with an error halts its queue with the code. -/
theorem State.queue_waitEnds_error (s : State) (q id : Nat) {code : Nat} (h : code ≠ 0) :
    (s.waitEnds q id code).queue q = { s.queue q with blocked := none, state := 2, haltCode := code } := by
  unfold State.waitEnds
  extract_lets t src y u x
  have hctxs : ((u.notify x.vf 3 (mkHandle 2 y.gen q) code).raise (.vf x.vf) 4).ctxs = u.ctxs := by
    rw [State.raise_vf_ctxs, State.notify_ctxs]
  have hsrc : src = s.queue q := (s.finishCmd_onlyCmds id).queue q
  rw [if_neg h, State.queue_of_ctxs hctxs, State.queue_setQueue]
  exact congrArg (fun z : Queue => { z with blocked := none, state := 2, haltCode := code }) hsrc

theorem exec_waitComplete_signalled {s : State} {q since id : Nat} {h : BitVec 32} {m : Cmd} (hup : s.up = true)
    (hblocked : (s.queue q).blocked = some (h, since))
    (hwait : (s.startedCmds q).find? (fun e => e.2.op = 4) = some (id, m))
    (hstate : (s.fence (hIndex h)).state = 2) (hresident : (s.ctx (q / 8)).sched.rslot.isSome = true) :
    exec (.waitComplete q) s = .next (s.waitEnds q id 0) := by
  have hsched := (s.waitEnds_zero_onlyFront q id).sched (q / 8)
  refine congrArg Host.Outcome.next ((State.work_of_up hup _).trans ?_)
  have hcode : (if hGen h = (s.fence (hIndex h)).gen ∧ (s.fence (hIndex h)).state = 3 then (s.fence (hIndex h)).error
      else 0) = 0 := if_neg (by simp [hstate])
  simp only [State.waitDone, hblocked, hwait]
  rw [if_neg (by simp [hstate]), hcode, hsched]
  refine if_neg fun haway => ?_
  rw [Option.isNone_iff_eq_none.mp haway.1] at hresident
  cases hresident

theorem exec_fenceSignalApply {s : State} {sig : FenceSig} {rest : List FenceSig} (hup : s.up = true)
    (hwire : s.fenceWire = sig :: rest) :
    exec .fenceSignalApply s = .next (State.applySignal { s with fenceWire := rest } sig) := by
  refine congrArg Host.Outcome.next ((State.work_of_up hup _).trans ?_)
  simp only [hwire]

/-- Signals to fences join those on their way, in order. -/
theorem State.foldl_sendSignal {code : Nat} {fs : List (BitVec 32)} (h : ∀ g ∈ fs, g ≠ 0) (s : State) :
    fs.foldl (fun s g => s.sendSignal g code) s = { s with fenceWire := s.fenceWire ++ fs.map (⟨·, code⟩) } := by
  induction fs generalizing s with
  | nil => rw [List.foldl_nil, List.map_nil, List.append_nil]
  | cons f fs ih =>
    obtain ⟨hf, hfs⟩ := List.forall_mem_cons.mp h
    have hsent : s.sendSignal f code = { s with fenceWire := s.fenceWire ++ [⟨f, code⟩] } := if_neg hf
    rw [List.foldl_cons, ih hfs, hsent, List.map_cons, List.append_assoc]
    rfl

/-- Settles O31: a packet that starts acts in `State.begun`, whose fences are those before; `State.queue_waitEnds_error`
gives the queue that a failed fence halts, and `State.foldl_sendSignal` the signals that break a cycle. -/
theorem waitsAndFences : Obligations.WaitsAndFences := by
  have hwait {s : State} {q : Nat} {p : Packet} {rest : List Packet} (hs : s.starts q p rest = true)
      (hm : p.malformed = false) (hop : p.w0 % 256 = 4) :
      exec (.waitFence q) s = .next ((s.begun q p rest).actWait s.nextId (p.cmd q)) :=
    State.next_qRow_of_starts hs hm (isQ_of_op hop) (by rw [isQ_word, isQ_of_op hop]) (alone := false) nofun _
  refine ⟨?blocks, ?signalled, ?failed, ?halted, ?goesOn, ?complete, ?applied, ?ignored, ?cycle, ?noCycle⟩
  case blocks =>
    intro s q p rest hs hm hop hvalid hstate
    have hb := s.begun_onlyFront q p rest
    have hfence : ((s.begun q p rest).fence (hIndex (p.cmd q).handle)).state = 1 :=
      (congrArg Fence.state (hb.fence _)).trans hstate
    rw [hwait hs hm hop, State.actWait_unsignalled (State.fenceValid_begun hvalid) hfence, hb.now]
    rfl
  case signalled =>
    intro s q p rest hs hm hop hvalid hstate
    have hb := s.begun_onlyFront q p rest
    have hfence : ((s.begun q p rest).fence (hIndex (p.cmd q).handle)).state = 2 :=
      (congrArg Fence.state (hb.fence _)).trans hstate
    rw [hwait hs hm hop, State.actWait_signalled (State.fenceValid_begun hvalid) (by rw [hfence]; decide), hfence]
    rfl
  case failed =>
    intro s q p rest hs hm hop hvalid hstate
    have hb := s.begun_onlyFront q p rest
    have hfence : ((s.begun q p rest).fence (hIndex (p.cmd q).handle)).state = 3 :=
      (congrArg Fence.state (hb.fence _)).trans hstate
    rw [hwait hs hm hop, State.actWait_signalled (State.fenceValid_begun hvalid) (by rw [hfence]; decide), if_pos hfence,
      hb.fence]
    rfl
  case halted =>
    intro s q id code hcode
    rw [State.queue_waitEnds_error s q id hcode]
    exact ⟨rfl, rfl, rfl⟩
  case goesOn =>
    intro s q id
    rw [State.queue_waitEnds_zero]
    exact ⟨rfl, rfl⟩
  case complete =>
    intro s q since id h m hup hblocked hfind _ hstate hresident
    exact exec_waitComplete_signalled hup hblocked hfind hstate hresident
  case applied =>
    intro s sig rest hup hwire htype hgen hstate hnotify
    rw [exec_fenceSignalApply hup hwire]
    exact congrArg Host.Outcome.next ((if_pos ⟨htype, hgen, hstate⟩).trans (if_neg (ne_true_of_eq_false hnotify)))
  case ignored =>
    intro s sig rest hup hwire hno
    rw [exec_fenceSignalApply hup hwire]
    refine congrArg Host.Outcome.next (if_neg ?_)
    rintro ⟨htype, hgen, hstate⟩
    rcases hno with h | h | h
    · exact h htype
    · exact h hgen
    · exact h hstate
  case cycle =>
    intro s q since h cyc hup hblocked hwire hcyc hwalk
    refine congrArg Host.Outcome.next ((State.work_of_up hup _).trans ?_)
    simp only [hblocked, hwalk]
    rw [if_neg (by simp [hwire]), State.foldl_sendSignal hcyc]
    simp only [hwire, List.nil_append]
  case noCycle =>
    intro s q since h hup hblocked hwalk
    refine congrArg Host.Outcome.next ((State.work_of_up hup _).trans ?_)
    simp only [hblocked, hwalk]

end Sys2Proof.Machine
end

section
/-! The command front end (chapter 8), continued: signals to other hubs (R335, R336, R420 to R426) and TIMESTAMP
(R409). -/

namespace Sys2Proof.Machine

/-! ### SIGNAL_REMOTE and TIMESTAMP (R409, R420 to R426) -/

@[simp] theorem fld_path_word (w : Nat) : fld (w % 65536) 9 8 = fld w 9 8 := by
  have hfld (x : Nat) : fld x 9 8 = x / 256 % 4 := by rw [fld, Nat.shiftRight_eq_div_pow]; rfl
  rw [hfld, hfld]
  omega

@[simp] theorem length_bytesLE (n x : Nat) : (bytesLE n x).length = n := by
  induction n generalizing x with
  | zero => rfl
  | succ n ih => rw [bytesLE, List.length_cons, ih]

section
variable {s : State} {id : Nat} {m : Cmd}

theorem State.actRemoteFabric_here (h : s.refHere m.arg = true) : s.actRemoteFabric id m = s.signalHere id m m.arg :=
  if_pos h

theorem State.actRemoteFabric_unreachable (h : s.refHere m.arg = false) (hr : s.reachable (refHub m.arg) = false) :
    s.actRemoteFabric id m = (s.cmdFault id 7 15 m.arg).finishCmd id :=
  (if_neg (by simp [h])).trans (if_pos (by simp [hr]))

theorem State.actRemoteFabric_sends (h : s.refHere m.arg = false) (hr : s.reachable (refHub m.arg) = true) :
    s.actRemoteFabric id m = (s.setCmd id { m with acted := true }).e2eSend
      { dst := refHub m.arg, seq := 0, cmd := some id,
        msg := { s.ofp 1 (refHub m.arg) (s.tag m.ctx) with f10 := BitVec.ofNat 64 m.arg } } :=
  (if_neg (by simp [h])).trans (if_neg (by simp [hr]))

theorem State.signalHere_valid {r : Nat} (h : s.fenceValid m.ctx (BitVec.ofNat 32 r) (m.at_ id) = true) :
    s.signalHere id m r = (s.sendSignal (BitVec.ofNat 32 r) 0).finishCmd id := by
  rw [State.signalHere, if_pos h]

/-- A record that the peer accepts is posted to its signal page, under the next number (R424, R425). -/
theorem State.actRemotePeer_accepted {i result : Nat} (h : s.refHere m.arg = false)
    (hpeer : (List.range 16).find? (fun i => (tget {} s.peers i).valid && (tget {} s.peers i).hubId.toNat == refHub m.arg) =
      some i) (hseq : fld result 63 32 = ((tget {} s.peers i).sentSeq + 1) % 2 ^ 32) (hcode : fld result 1 0 = 1) :
    s.actRemotePeer id m result = State.finishCmd { s with
      peers := tput s.peers i { tget {} s.peers i with sentSeq := ((tget {} s.peers i).sentSeq + 1) % 2 ^ 32 },
      out := s.out ++ [Out.peerWrite (tget {} s.peers i).addr (bytesLE 8 m.arg ++
        bytesLE 8 (s.myHub * 2 ^ 48 + ((tget {} s.peers i).sentSeq + 1) % 2 ^ 32))] } id := by
  simp only [State.actRemotePeer, h, Bool.false_eq_true, if_false, hpeer]
  rw [if_pos ⟨hseq, hcode⟩]

theorem State.cmdWrite_done {t : State} {va : Nat} {bs : List Byte} {host : Bool}
    (h : s.writeLine (s.whoCmd m id 5) m.refusedSegs va bs = .done t host) (cont : State → State) :
    s.cmdWrite id m va bs cont =
      cont (t.chargeBytes m.ctx (if host then 0 else bs.length) (if host then bs.length else 0)) := by
  simp only [State.cmdWrite, h]

end

section
variable {s : State} {r c : BitVec 64} (hdec : s.decodes .pf = true) (hfw : s.fwRuns = true)
include hdec hfw

theorem exec_peerSignalRecord : exec (.peerSignalRecord r c) s = .next (s.peerRecord r.toNat c.toNat) :=
  congrArg Host.Outcome.next (if_pos (by rw [hdec, hfw]; rfl))

end

section
variable {s : State} {q : Nat} {p : Packet} {rest : List Packet} (hs : s.starts q p rest = true)
  (hm : p.malformed = false) (ha : s.alone q = true)
include hs hm ha

theorem exec_signalRemoteFabric (hop : p.w0 % 256 = 6) (hpath : fld p.w0 9 8 = 0) : exec (.signalRemoteFabric q) s =
    .next ((s.begun q p rest).actRemoteFabric s.nextId (p.cmd q)) :=
  State.next_qRow_of_starts hs hm (row := fun w => isQ 6 w && (fld w 9 8 == 0 || fld w 9 8 == 3)) (alone := true)
    (by simp [isQ_of_op hop, hpath]) (by simp [isQ_of_op hop, hpath]) (fun _ => ha)
    fun s id m => s.actRemoteFabric id m

theorem exec_signalRemotePeer (hop : p.w0 % 256 = 6) (hpath : fld p.w0 9 8 = 1) (result : BitVec 64) :
    exec (.signalRemotePeer q result) s = .next ((s.begun q p rest).actRemotePeer s.nextId (p.cmd q) result.toNat) :=
  State.next_qRow_of_starts hs hm (row := fun w => isQ 6 w && fld w 9 8 == 1) (alone := true)
    (by simp [isQ_of_op hop, hpath]) (by simp [isQ_of_op hop, hpath]) (fun _ => ha)
    fun s id m => s.actRemotePeer id m result.toNat

theorem exec_signalRemoteWrite (hop : p.w0 % 256 = 6) (hpath : fld p.w0 9 8 = 2) : exec (.signalRemoteWrite q) s =
    .next ((s.begun q p rest).cmdWrite s.nextId (p.cmd q) p.w1 (bytesLE 4 p.heldFence.toNat)
      fun t => t.finishCmd s.nextId) :=
  State.next_qRow_of_starts hs hm (row := fun w => isQ 6 w && fld w 9 8 == 2) (alone := true)
    (by simp [isQ_of_op hop, hpath]) (by simp [isQ_of_op hop, hpath]) (fun _ => ha)
    fun s id m => s.cmdWrite id m m.arg (bytesLE 4 m.handle.toNat) fun s => s.finishCmd id

theorem exec_timestamp (hop : p.w0 % 256 = 0x0D) : exec (.timestamp q) s =
    .next ((s.begun q p rest).cmdWrite s.nextId (p.cmd q) p.w1 (bytesLE 8 (s.begun q p rest).now)
      fun t => t.finishCmd s.nextId) :=
  State.next_qRow_of_starts hs hm (row := isQ 0x0D) (alone := true) (isQ_of_op hop) (by rw [isQ_word, isQ_of_op hop])
    (fun _ => ha) fun s id m => s.cmdWrite id m m.arg (bytesLE 8 s.now) fun s => s.finishCmd id

end

/-- Settles O32: a packet that starts acts in `State.begun`, which has the peers, the fabric and the fences of the state
before; each path is one branch of its row. -/
theorem remoteSignals : Obligations.RemoteSignals := by
  refine ⟨?sent, ?unreachable, ?here, ?posted, ?written, ?timestamp, ?accepted, ?unknown⟩
  case sent =>
    intro s q p rest hs hm ha hop hpath hhere hreach
    have hb := s.begun_onlyFront q p rest
    have haway : (s.begun q p rest).refHere (p.cmd q).arg = false := (hb.refHere _).trans hhere
    have hmember : (s.begun q p rest).reachable (refHub (p.cmd q).arg) = true := (hb.reachable _).trans hreach
    rw [exec_signalRemoteFabric hs hm ha hop hpath, State.actRemoteFabric_sends haway hmember]
    rfl
  case unreachable =>
    intro s q p rest hs hm ha hop hpath hhere hreach
    have hb := s.begun_onlyFront q p rest
    have haway : (s.begun q p rest).refHere (p.cmd q).arg = false := (hb.refHere _).trans hhere
    have hmember : (s.begun q p rest).reachable (refHub (p.cmd q).arg) = false := (hb.reachable _).trans hreach
    rw [exec_signalRemoteFabric hs hm ha hop hpath, State.actRemoteFabric_unreachable haway hmember]
    rfl
  case here =>
    intro s q p rest hs hm ha hop hpath hhere hvalid
    have hb := s.begun_onlyFront q p rest
    have hfence : (s.begun q p rest).fenceValid (p.cmd q).ctx (BitVec.ofNat 32 p.w1) ((p.cmd q).at_ s.nextId) = true :=
      (hb.fenceValid ..).trans hvalid
    have hhere' : (s.begun q p rest).refHere (p.cmd q).arg = true := (hb.refHere _).trans hhere
    rw [exec_signalRemoteFabric hs hm ha hop hpath, State.actRemoteFabric_here hhere']
    exact congrArg Host.Outcome.next (State.signalHere_valid hfence)
  case posted =>
    intro s q i p rest result hs hm ha hop hpath hhere hfind hseq hcode
    have hb := s.begun_onlyFront q p rest
    have hpeers : (s.begun q p rest).peers = s.peers := (congrArg State.peers hb.frame :)
    have hout : (s.begun q p rest).out = s.out := (congrArg State.out hb.frame :)
    have haway : (s.begun q p rest).refHere (p.cmd q).arg = false := (hb.refHere _).trans hhere
    rw [← hpeers] at hfind hseq ⊢
    rw [exec_signalRemotePeer hs hm ha hop hpath, State.actRemotePeer_accepted haway hfind hseq hcode, hout]
    rfl
  case written =>
    intro s q p rest host t hs hm ha hop hpath hline
    rw [exec_signalRemoteWrite hs hm ha hop hpath, State.cmdWrite_done (m := p.cmd q) hline, length_bytesLE]
    rfl
  case timestamp =>
    intro s q p rest host t hs hm ha hop hline
    rw [exec_timestamp hs hm ha hop, (s.begun_onlyFront q p rest).now, State.cmdWrite_done (m := p.cmd q) hline,
      length_bytesLE]
    rfl
  case accepted =>
    intro s r c i hdec hfw hfind hok hne
    rw [exec_peerSignalRecord hdec hfw]
    have hsent : s.sendSignal (BitVec.ofNat 32 r.toNat) 0 =
        { s with fenceWire := s.fenceWire ++ [⟨BitVec.ofNat 32 r.toNat, 0⟩] } := if_neg hne
    simp only [State.peerRecord, hfind, hok, if_true, hsent]
  case unknown =>
    intro s r c hdec hfw hfind
    rw [exec_peerSignalRecord hdec hfw]
    simp only [State.peerRecord, hfind]

end Sys2Proof.Machine
end

section
/-! The command front end (chapter 8), continued: COPY, FILL, JUMP, CALL_RING and RELEASE (R362 to R366, R405 to R408). -/

namespace Sys2Proof.Machine

/-! ### COPY and FILL (R405, R406) -/

/-- A few bytes of one line are one piece. -/
theorem lineList_single {va n : Nat} (hn : 0 < n) (h : n ≤ 64 - va % 64) : lineList va n = [(va, n)] := by
  have hrest (fuel : Nat) : linesOf fuel (va + n) (n - n) = [] := by
    cases fuel with
    | zero => rfl
    | succ fuel => exact if_pos (Nat.sub_self n)
  show linesOf (n / 64 + 1 + 1) va n = [(va, n)]
  rw [linesOf, if_neg (by omega), Nat.min_eq_left h]
  exact congrArg (List.cons (va, n)) (hrest _)

@[simp] theorem length_mreadN (m : Mem) (a n : Nat) : (mreadN m a n).length = n := by simp [mreadN]

/-- A read inside one line of device memory that the access reaches. -/
theorem State.readVa_line {s : State} {w : Who} {va n a : Nat} (refused : List Nat) (hn : 0 < n) (h : n ≤ 64 - va % 64)
    (hacc : s.access w va = .ok false a) : s.readVa w refused va n = { bytes := mreadN s.mem a n, dev := n } := by
  simp [State.readVa, lineList_single hn h, State.readLine, hacc, State.physRead]

section
variable {s : State} {id : Nat} {m : Cmd} (hcmd : tfind s.cmds id = some m)
include hcmd

/-- A command that reads its bytes without a violation goes on with them, charged for them. -/
theorem State.cmdRead_of_readVa {va n : Nat} {r : ReadRes} (hr : s.readVa (s.whoCmd m id 4) m.refusedSegs va n = r)
    (hstop : r.stop = none) (hviol : r.viol.lines = 0) (cont : State → List Byte → State) :
    s.cmdRead id va n cont = cont (s.chargeBytes m.ctx r.dev r.host) r.bytes := by
  have hclean : (s.chargeBytes m.ctx r.dev r.host).cmdViol id r.viol = s.chargeBytes m.ctx r.dev r.host := if_pos hviol
  simp only [State.cmdRead, State.cmdReadN, hcmd, hr, hstop, hclean, State.chargeBytes_cmds, Option.isSome_some, if_true]

/-- A transfer whose block is good starts, where none of its segments names an object being zeroed. -/
theorem State.actCopy_starts {r : ReadRes} {j : CopyJob}
    (hr : s.readVa (s.whoCmd m id 4) m.refusedSegs m.arg 32 = r) (hstop : r.stop = none) (hviol : r.viol.lines = 0)
    (hblock : copyBlock (m.op = 8) r.bytes = some j) (hzero : ∀ f, s.namesZeroing m.ctx f = false) (hlen : j.len ≠ 0) :
    s.actCopy id m = (s.chargeBytes m.ctx r.dev r.host).setCmd id { m with copy := some j, acted := true } := by
  have hcharged := (s.chargeBytes_onlyCmds m.ctx r.dev r.host).onlyFront
  rw [State.actCopy, State.cmdRead_of_readVa hcmd hr hstop hviol]
  simp only [hblock, State.chargeBytes_cmds, hcmd, hcharged.namesZeroing, hzero, hlen, Bool.false_eq_true, if_false]

/-- A transfer of one block that has been moved without a violation ends: its command completes. -/
theorem State.runCopy_oneBlock {fuel : Nat} {j : CopyJob} {r : CopyRun} (hcopy : m.copy = some j)
    (hblocks : ceilDiv j.len 65536 - j.done / 65536 = 1)
    (hr : CopyRun.block { s := s, j := j } (s.whoCmd m id 4) (s.whoCmd m id 5) m.refusedSegs false = r)
    (hstop : r.stop = none) (hviol : r.v.lines = 0) : ∃ k : CopyJob, State.runCopy (fuel + 1) s id =
      (r.s.setCmd id { m with copy := some k }).finishCmd id := by
  refine ⟨{ r.j with reported := r.j.reported || r.v.lines ≠ 0 }, ?_⟩
  simp only [State.runCopy, hcmd, hcopy, hblocks, List.range_one, List.foldl_cons, List.foldl_nil, hr, hstop, hviol]
  rfl

end

/-- The bytes of a block that lie in one line of device memory are written, and the block is done. -/
theorem CopyRun.writeBlock_line {r : CopyRun} {w : Who} {a : Nat} (refused : List Nat) (hstop : r.stop = none)
    (hdone : r.j.done = 0) (hpos : 0 < r.j.buf.length) (hfit : r.j.buf.length ≤ 64 - r.j.dst % 64) (hw : w.acc = 5)
    (hacc : r.s.access w r.j.dst = .ok false a) : r.writeBlock w refused false =
      { r with s := (r.s.physWrite false a r.j.buf).chargeBytes w.ctx r.j.buf.length 0,
               j := { r.j with done := r.j.buf.length, buf := [], reading := true } } := by
  have hline : r.s.writeLine w refused r.j.dst r.j.buf = .done (r.s.physWrite false a r.j.buf) false := by
    rw [State.writeLine, hacc]
    exact if_neg (by simp [hw])
  simp [CopyRun.writeBlock, CopyRun.writeOne, hdone, lineList_single hpos hfit, hstop, hline]

section
variable {s : State} {j : CopyJob} (hdone : j.done = 0) (hreading : j.reading = true) (hpos : 0 < j.len)
include hdone hreading hpos

/-- The first block of a transfer is read, and where that stops on no segment it is written. -/
theorem CopyRun.block_first {rd : Who} {refused : List Nat} {r : CopyRun}
    (hread : CopyRun.readBlock { s := s, j := j } rd refused = r) (hstop : r.stop = none) (wr : Who) (job : Bool) :
    CopyRun.block { s := s, j := j } rd wr refused job = r.writeBlock wr refused job := by
  simp [CopyRun.block, hdone, hreading, Nat.not_le.mpr hpos, hread, hstop]

variable {wr : Who} (hw : wr.acc = 5) (hdst : j.len ≤ 64 - j.dst % 64)
include hw hdst

/-- A FILL of a few bytes of one line. -/
theorem CopyRun.block_fill {a : Nat} (rd : Who) (refused : List Nat) (hfill : j.isFill = true)
    (hacc : s.access wr j.dst = .ok false a) : ∃ k : CopyJob, CopyRun.block { s := s, j := j } rd wr refused false =
      { s := (s.physWrite false a (fillBytes j.pattern j.len)).chargeBytes wr.ctx j.len 0, j := k } := by
  have hlen : j.blockLen = j.len := by simp only [CopyJob.blockLen, hdone]; omega
  have hread : CopyRun.readBlock { s := s, j := j } rd refused =
      { s := s, j := { j with buf := fillBytes j.pattern j.len, reading := false } } := by
    simp [CopyRun.readBlock, hfill, hdone, hlen, fillBytes]
  have hwrite := CopyRun.writeBlock_line
    (r := { s := s, j := { j with buf := fillBytes j.pattern j.len, reading := false } }) refused rfl hdone
    (by rw [length_fillBytes]; exact hpos) (by rw [length_fillBytes]; exact hdst) hw hacc
  rw [length_fillBytes] at hwrite
  exact ⟨_, (CopyRun.block_first hdone hreading hpos hread rfl wr false).trans hwrite⟩

/-- A COPY of a few bytes from one line of device memory to one line of it. -/
theorem CopyRun.block_copy {a b : Nat} (rd : Who) (refused : List Nat) (hfill : j.isFill = false)
    (hbuf : j.buf = []) (hsrc : j.len ≤ 64 - j.src % 64) (hrd : s.access rd j.src = .ok false a)
    (hacc : s.access wr j.dst = .ok false b) :
    ∃ k : CopyJob, CopyRun.block { s := s, j := j } rd wr refused false =
      { s := ((s.chargeBytes rd.ctx j.len 0).physWrite false b (mreadN s.mem a j.len)).chargeBytes wr.ctx j.len 0, j := k } := by
  have hlen : j.blockLen = j.len := by simp only [CopyJob.blockLen, hdone]; omega
  have hread : CopyRun.readBlock { s := s, j := j } rd refused =
      { s := s.chargeBytes rd.ctx j.len 0, j := { j with buf := mreadN s.mem a j.len, reading := false } } := by
    simp [CopyRun.readBlock, hfill, hdone, hbuf, hlen, State.readVa_line refused hpos hsrc hrd, Viol.join]
  have hacc' : (s.chargeBytes rd.ctx j.len 0).access wr j.dst = .ok false b :=
    ((s.chargeBytes_onlyCmds ..).onlyFront.access _ _).trans hacc
  have hwrite := CopyRun.writeBlock_line
    (r := { s := s.chargeBytes rd.ctx j.len 0, j := { j with buf := mreadN s.mem a j.len, reading := false } }) refused rfl
    hdone (by rw [length_mreadN]; exact hpos) (by rw [length_mreadN]; exact hdst) hw hacc'
  rw [length_mreadN] at hwrite
  exact ⟨_, (CopyRun.block_first hdone hreading hpos hread rfl wr false).trans hwrite⟩

end

theorem oneBlock_of_line {j : CopyJob} (hdone : j.done = 0) (hpos : 0 < j.len) (hlen : j.len ≤ 64) :
    ceilDiv j.len 65536 - j.done / 65536 = 1 := by
  have hdiv : j.len / 65536 = 0 := by omega
  have hmod : j.len % 65536 ≠ 0 := by omega
  rw [ceilDiv, hdiv, if_neg hmod, hdone]

/-- A transfer is charged for its last line, its progress is noted, and its command completes. -/
theorem State.transferEnd_onlyFront (s : State) (c dev id : Nat) (m : Cmd) :
    s.OnlyFront (((s.chargeBytes c dev 0).setCmd id m).finishCmd id) :=
  (((s.chargeBytes_onlyCmds c dev 0).trans (State.setCmd_onlyCmds _ _ _)).trans (State.finishCmd_onlyCmds _ _)).onlyFront

theorem exec_copyComplete {s : State} {id : Nat} {m : Cmd} (hup : s.up = true) (hcmd : tfind s.cmds id = some m)
    (hstalled : m.stalled = none) (hhold : (s.ctx m.ctx).lostHold = false) (hpaused : s.paused (s.ctx m.ctx).part = false) :
    exec (.copyComplete id) s = .next (s.runCopy 33 id) := by
  refine congrArg Host.Outcome.next ((State.work_of_up hup _).trans ?_)
  simp only [hcmd, hstalled, hhold, hpaused]
  rfl

/-! ### JUMP and CALL_RING (R407, R408) -/

/-- The queue with the packets of a buffer of these bytes, called at ring counter `pos`, before those of the ring. -/
def Queue.called (y : Queue) (bs : List Byte) (pos : Nat) : Queue :=
  { y with decoded := ((packetsOf 0 bs).zipIdx.map fun k => { k.1 with pos := pos, off := some (16 * k.2) }) ++ y.decoded,
           fetch := .fetching }

theorem Queue.called_decoded (y : Queue) (bs : List Byte) (pos : Nat) : (y.called bs pos).decoded =
    ((packetsOf 0 bs).zipIdx.map fun k => { k.1 with pos := pos, off := some (16 * k.2) }) ++ y.decoded := rfl

section
variable {s : State} {id : Nat} {m : Cmd} (hcmd : tfind s.cmds id = some m)
include hcmd

/-- A command without a fence of its own sends no signal (Table 8-6). -/
theorem State.completeCmd_jump (hop : m.op = 0x0A) (code : Nat) : (s.completeCmd id code).fenceWire = s.fenceWire := by
  simp only [State.completeCmd, hcmd, hop]
  rfl

/-- CALL_RING puts the packets of its buffer before those of the ring (R408). -/
theorem State.actCall_reads {fuel : Nat} {bs : List Byte} (hn : m.handle.toNat ≠ 0)
    (hbytes : s.callBytes m.ctx m.arg m.handle.toNat m.refusedSegs = (bs, none)) : State.actCall (fuel + 1) s id =
      (s.setQueue m.queue ((s.queue m.queue).called bs m.pos)).setCmd id { m with acted := true } := by
  have hacted : (s.setQueue m.queue ((s.queue m.queue).called bs m.pos)).acted id =
      (s.setQueue m.queue ((s.queue m.queue).called bs m.pos)).setCmd id { m with acted := true } :=
    State.acted_of_tfind hcmd
  simp only [State.actCall, hcmd, hbytes, if_neg hn]
  exact hacted

end

/-- The queue after a JUMP of `n` bytes in the ring (R407). -/
def Queue.jumped (y : Queue) (n : Nat) : Queue :=
  { y with head := (y.head + n) % 2 ^ 32, decoded := y.decoded.drop (n / 16),
           seenTail := if ahead32 y.head y.seenTail < n then y.tail else y.seenTail,
           dbPending := y.dbPending && !decide (ahead32 y.head y.seenTail < n) }

theorem State.actJump_ring {s : State} {id : Nat} {m : Cmd} (horigin : fld m.origin 57 56 ≠ 1)
    (hn : m.arg ≤ ahead32 (s.queue m.queue).head (s.queue m.queue).tail) : s.actJump id m =
      (s.setQueue m.queue ((s.queue m.queue).jumped m.arg).settleFetch).finishCmd id := by
  rw [State.actJump]
  simp only [if_neg horigin, if_neg (Nat.not_lt.mpr hn), decide_eq_true_eq]
  rfl

theorem Queue.settleFetch_fields (y : Queue) : y.settleFetch.head = y.head ∧ y.settleFetch.decoded = y.decoded ∧
    y.settleFetch.tail = y.tail := by
  unfold Queue.settleFetch
  split
  · exact ⟨rfl, rfl, rfl⟩
  · split
    · exact ⟨rfl, rfl, rfl⟩
    · exact ⟨rfl, rfl, rfl⟩

/-- A packet of the ring stands in the ring's part of FAULT_RING_OFFSET (R865). -/
theorem Packet.origin_ring {p : Packet} (hoff : p.off = none) (hpos : p.pos < 2 ^ 32) : fld p.origin 57 56 ≠ 1 := by
  have horigin : p.origin = p.pos := by rw [Packet.origin, hoff]
  have hfld : fld p.pos 57 56 = p.pos / 2 ^ 56 % 4 := by rw [fld, Nat.shiftRight_eq_div_pow]; rfl
  rw [horigin, hfld]
  omega

/-! ### RELEASE (R362 to R366) -/

/-- The context notes a RELEASE with what precedes it, and the RELEASE completes (R363). -/
def State.noteRelease (s : State) (id : Nat) (m : Cmd) (isImport : Bool) : State :=
  (s.modCtx m.ctx fun x => { x with released := x.released ++ [⟨BitVec.ofNat 32 m.arg, isImport, s.tails m.ctx m.queue,
    (s.cmds.filter fun e => e.2.ctx = m.ctx && e.1 != id).map (·.1)⟩] }).finishCmd id

section
variable {s : State} {id : Nat} {m : Cmd} {h : BitVec 32} (harg : BitVec.ofNat 32 m.arg = h)
include harg

/-- RELEASE of a fence by its owner. -/
theorem State.actRelease_fence (htype : hType h = 4) (hvalid : s.fenceValid m.ctx h (m.at_ id) = true)
    (howner : (s.fence (hIndex h)).owner = s.tag m.ctx) (horphan : (s.fence (hIndex h)).orphaned = false) :
    s.actRelease id m =
      (s.setFence (hIndex h) { s.fence (hIndex h) with releasing := true }).noteRelease id m false := by
  subst harg
  simp [State.actRelease, htype, hvalid, howner, horphan]
  rfl

/-- RELEASE of an object by its owner. -/
theorem State.actRelease_obj (htype : hType h = 3) (hvalid : s.objValid m.ctx h (m.at_ id) = true)
    (hzero : s.zeroing h = false) (howner : (s.obj (hIndex h)).owner = s.tag m.ctx)
    (hstate : (s.obj (hIndex h)).state ≠ 3) : s.actRelease id m =
      (s.setObj (hIndex h) { s.obj (hIndex h) with releasing := true }).noteRelease id m false := by
  subst harg
  simp [State.actRelease, htype, hvalid, hzero, howner, hstate]
  rfl

end

theorem State.noteRelease_onlyReleased (s : State) (id : Nat) (m : Cmd) (isImport : Bool) :
    (s.modCtx m.ctx fun x => { x with released := x.released ++ [⟨BitVec.ofNat 32 m.arg, isImport, s.tails m.ctx m.queue,
      (s.cmds.filter fun e => e.2.ctx = m.ctx && e.1 != id).map (·.1)⟩] }).OnlyFront (s.noteRelease id m isImport) :=
  (State.finishCmd_onlyCmds _ id).onlyFront

/-- A RELEASE that is noted leaves memory and the entries. -/
theorem State.noteRelease_leaves (s : State) (id : Nat) (m : Cmd) (isImport : Bool) :
    (s.noteRelease id m isImport).mem = s.mem ∧ (s.noteRelease id m isImport).hostMem = s.hostMem ∧
    (s.noteRelease id m isImport).objs = s.objs ∧ (s.noteRelease id m isImport).fences = s.fences := by
  have h := s.noteRelease_onlyReleased id m isImport
  exact ⟨h.mem, h.hostMem, h.objs, h.fences⟩

theorem State.noteRelease_released (s : State) (id : Nat) (m : Cmd) (isImport : Bool) :
    ((s.noteRelease id m isImport).ctx m.ctx).released = (s.ctx m.ctx).released ++
      [⟨BitVec.ofNat 32 m.arg, isImport, s.tails m.ctx m.queue,
        (s.cmds.filter fun e => e.2.ctx = m.ctx && e.1 != id).map (·.1)⟩] := by
  rw [(s.noteRelease_onlyReleased id m isImport).released, State.modCtx, State.ctx_setCtx]

/-- A packet's start moves HEAD of its own queue, and the marks of a RELEASE are of the others. -/
theorem State.tails_begun (s : State) (q : Nat) (p : Packet) (rest : List Packet) :
    (s.begun q p rest).tails (q / 8) q = s.tails (q / 8) q := by
  have hown (y : Queue) : (y.state != 0 && 8 * (q / 8) + q % 8 != q) = false := by
    rw [Nat.div_add_mod, bne_self_eq_false, Bool.and_false]
  have hqueues : ((s.begun q p rest).ctx (q / 8)).queues =
      tput (s.ctx (q / 8)).queues (q % 8) ((s.queue q).take p rest) := by
    rw [State.begun_eq, (State.closeCall_onlyCmds _ q).ctx]
    exact congrArg Context.queues (State.ctx_setCtx ..)
  rw [State.tails, hqueues, filter_tput hown]
  rfl

/-! ### The obligation -/

section
variable {s : State} {q : Nat} {p : Packet} {rest : List Packet} (hs : s.starts q p rest = true)
  (hm : p.malformed = false)
include hs hm

theorem exec_transfer (hop : p.w0 % 256 = 7 ∨ p.w0 % 256 = 8) : exec (if p.w0 % 256 = 7 then .copy q else .fill q) s =
    .next ((s.begun q p rest).actCopy s.nextId (p.cmd q)) := by
  rcases hop with h | h
  · rw [if_pos h]
    exact State.next_qRow_of_starts hs hm (row := isQ 7) (alone := false) (isQ_of_op h) (by rw [isQ_word, isQ_of_op h]) nofun
      fun s id m => s.actCopy id m
  · rw [if_neg (by omega)]
    exact State.next_qRow_of_starts hs hm (row := isQ 8) (alone := false) (isQ_of_op h) (by rw [isQ_word, isQ_of_op h]) nofun
      fun s id m => s.actCopy id m

theorem exec_jump (hop : p.w0 % 256 = 0x0A) :
    exec (.jump q) s = .next ((s.begun q p rest).actJump s.nextId (p.cmd q)) :=
  State.next_qRow_of_starts hs hm (row := isQ 0x0A) (alone := false) (isQ_of_op hop) (by rw [isQ_word, isQ_of_op hop]) nofun
    fun s id m => s.actJump id m

theorem exec_callRing (hop : p.w0 % 256 = 0x0B) :
    exec (.callRing q) s = .next (State.actCall 17 (s.begun q p rest) s.nextId) :=
  State.next_qRow_of_starts hs hm (row := isQ 0x0B) (alone := false) (isQ_of_op hop) (by rw [isQ_word, isQ_of_op hop]) nofun
    fun s id _ => State.actCall 17 s id

theorem exec_release (hop : p.w0 % 256 = 0x0C) :
    exec (.release q) s = .next ((s.begun q p rest).actRelease s.nextId (p.cmd q)) :=
  State.next_qRow_of_starts hs hm (row := isQ 0x0C) (alone := false) (isQ_of_op hop) (by rw [isQ_word, isQ_of_op hop]) nofun
    fun s id m => s.actRelease id m

end

/-- Settles O33: a packet that starts acts in `State.begun`; `CopyRun.block_fill` and `CopyRun.block_copy` give the bytes
that a transfer of one line writes, and `State.OnlyFront` what its end leaves. -/
theorem queueMemoryCommands : Obligations.QueueMemoryCommands := by
  refine ⟨?starts, ?fill, ?copy, ?jump, ?call, ?releaseFence, ?releaseObj⟩
  case starts =>
    intro s q p rest j hs hm hop hstop hviol hblock hzero hlen
    have hb := s.begun_onlyFront q p rest
    have hact := State.actCopy_starts (State.tfind_begun hs) rfl hstop hviol hblock
      (fun f => (hb.namesZeroing _ f).trans (hzero f)) hlen
    have hcharged := (s.begun q p rest).chargeBytes_onlyCmds (p.cmd q).ctx
      ((s.begun q p rest).readVa ((s.begun q p rest).whoCmd (p.cmd q) s.nextId 4) [] p.w1 32).dev
      ((s.begun q p rest).readVa ((s.begun q p rest).whoCmd (p.cmd q) s.nextId 4) [] p.w1 32).host
    have hset := hcharged.trans (State.setCmd_onlyCmds _ s.nextId { (p.cmd q) with copy := some j, acted := true })
    have hall := hb.trans hset.onlyFront
    refine ⟨_, (exec_transfer hs hm hop).trans (congrArg Host.Outcome.next hact), tfind_tput .., ?_, hall.mem, hall.hostMem,
      hall.objs, hall.fences⟩
    exact (congrArg Queue.decoded ((hset.queue q).trans (s.queue_begun q p rest))).trans (Queue.take_decoded ..)
  case fill =>
    intro s id a m j hup hcmd hcopy hstalled hhold hpaused hfill hdone hbuf hreading hpos hdst hacc
    obtain ⟨k, hblock⟩ := CopyRun.block_fill hdone hreading hpos rfl hdst (s.whoCmd m id 4) m.refusedSegs hfill hacc
    obtain ⟨k', hrun⟩ := State.runCopy_oneBlock (fuel := 32) hcmd hcopy (oneBlock_of_line hdone hpos (by omega)) hblock rfl rfl
    have hend := State.transferEnd_onlyFront (s.physWrite false a (fillBytes j.pattern j.len)) m.ctx j.len id
      { m with copy := some k' }
    exact ⟨_, (exec_copyComplete hup hcmd hstalled hhold hpaused).trans (congrArg Host.Outcome.next hrun), hend.mem,
      State.tfind_finishCmd .., hend.hostMem, hend.objs, hend.fences⟩
  case copy =>
    intro s id a b m j hup hcmd hcopy hstalled hhold hpaused hfill hdone hbuf hreading hpos hdst hsrc hrd hwr
    obtain ⟨k, hblock⟩ := CopyRun.block_copy (rd := s.whoCmd m id 4) hdone hreading hpos rfl hdst m.refusedSegs hfill hbuf
      hsrc hrd hwr
    obtain ⟨k', hrun⟩ := State.runCopy_oneBlock (fuel := 32) hcmd hcopy (oneBlock_of_line hdone hpos (by omega)) hblock rfl rfl
    have hcharged := (s.chargeBytes_onlyCmds m.ctx j.len 0).onlyFront
    have hend := State.transferEnd_onlyFront ((s.chargeBytes m.ctx j.len 0).physWrite false b (mreadN s.mem a j.len)) m.ctx
      j.len id { m with copy := some k' }
    refine ⟨_, (exec_copyComplete hup hcmd hstalled hhold hpaused).trans (congrArg Host.Outcome.next hrun), hend.mem.trans ?_,
      State.tfind_finishCmd .., hend.hostMem.trans hcharged.hostMem, hend.objs.trans hcharged.objs,
      hend.fences.trans hcharged.fences⟩
    exact congrArg (mwriteN · b (mreadN s.mem a j.len)) hcharged.mem
  case jump =>
    intro s q p rest hs hm hop hoff hpos hn
    have hb := s.begun_onlyFront q p rest
    have hcmd (y : Queue) : tfind ((s.begun q p rest).setQueue q y).cmds s.nextId = some (p.cmd q) := State.tfind_begun hs
    have hjump := State.actJump_ring (id := s.nextId) (m := p.cmd q) (Packet.origin_ring hoff hpos) hn
    have hdone := State.finishCmd_onlyCmds ((s.begun q p rest).setQueue q
      (((s.begun q p rest).queue q).jumped p.w1).settleFetch) s.nextId
    have hall := (hb.trans (State.setQueue_onlyFront ..)).trans hdone.onlyFront
    obtain ⟨hhead, hdecoded, htail⟩ := (((s.begun q p rest).queue q).jumped p.w1).settleFetch_fields
    have hqueue := (hdone.queue q).trans (State.queue_setQueue ..)
    refine ⟨_, (exec_jump hs hm hop).trans (congrArg Host.Outcome.next hjump), ?_, ?_, ?_, State.tfind_finishCmd .., ?_,
      hall.mem, hall.hostMem, hall.objs, hall.fences⟩
    · exact (congrArg Queue.head hqueue).trans hhead
    · refine ((congrArg Queue.decoded hqueue).trans hdecoded).trans (congrArg (List.drop (p.w1 / 16)) ?_)
      rw [State.queue_begun, Queue.take_decoded]
    · refine ((congrArg Queue.tail hqueue).trans htail).trans (?_ : ((s.begun q p rest).queue q).tail = _)
      rw [State.queue_begun, Queue.take_tail]
    · exact (congrArg State.fenceWire (State.finishCmd_of_tfind (hcmd _))).trans (State.completeCmd_jump (hcmd _) hop _)
  case call =>
    intro s q p rest bs hs hm hop hn hbytes
    have hcmd := State.tfind_begun hs
    have hb := s.begun_onlyFront q p rest
    have hread := State.actCall_reads (fuel := 16) hcmd hn hbytes
    have hset := State.setCmd_onlyCmds ((s.begun q p rest).setQueue q (((s.begun q p rest).queue q).called bs p.pos)) s.nextId
      { (p.cmd q) with acted := true }
    have hall := (hb.trans (State.setQueue_onlyFront ..)).trans hset.onlyFront
    refine ⟨_, (exec_callRing hs hm hop).trans (congrArg Host.Outcome.next hread), ?_, tfind_tput .., hall.mem, hall.hostMem,
      hall.objs, hall.fences⟩
    refine (congrArg Queue.decoded ((hset.queue q).trans (State.queue_setQueue ..))).trans ?_
    rw [Queue.called_decoded, State.queue_begun, Queue.take_decoded]
  case releaseFence =>
    intro s q p rest h hs hm hop harg htype hvalid howner horphan
    have hb := s.begun_onlyFront q p rest
    have hact := State.actRelease_fence (id := s.nextId) (m := p.cmd q) harg htype ((hb.fenceValid ..).trans hvalid)
      ((congrArg Fence.owner (hb.fence _)).trans (howner.trans (hb.tag _).symm))
      ((congrArg Fence.orphaned (hb.fence _)).trans horphan)
    rw [hb.fence] at hact
    obtain ⟨hmem, hhost, hobjs, hfences⟩ := State.noteRelease_leaves ((s.begun q p rest).setFence (hIndex h)
      { s.fence (hIndex h) with releasing := true }) s.nextId (p.cmd q) false
    refine ⟨_, (exec_release hs hm hop).trans (congrArg Host.Outcome.next hact), ?_, ?_, State.tfind_finishCmd ..,
      hmem.trans ((State.setFence_mem ..).trans hb.mem), hhost.trans ((State.setFence_hostMem ..).trans hb.hostMem),
      hobjs.trans ((State.setFence_objs ..).trans hb.objs)⟩
    · exact (congrArg (tget ({} : Fence) · (hIndex h)) hfences).trans (State.fence_setFence ..)
    · refine (State.noteRelease_released ..).trans (congrArg₂ _ (hb.released (q / 8)) ?_)
      rw [← harg, ← s.tails_begun q p rest]
      rfl
  case releaseObj =>
    intro s q p rest h hs hm hop harg htype hvalid hzero howner hstate
    have hb := s.begun_onlyFront q p rest
    have hact := State.actRelease_obj (id := s.nextId) (m := p.cmd q) harg htype ((hb.objValid ..).trans hvalid)
      ((hb.zeroing h).trans hzero) ((congrArg Obj.owner (hb.obj _)).trans (howner.trans (hb.tag _).symm))
      (by rw [hb.obj]; exact hstate)
    rw [hb.obj] at hact
    obtain ⟨hmem, hhost, hobjs, hfences⟩ := State.noteRelease_leaves ((s.begun q p rest).setObj (hIndex h)
      { s.obj (hIndex h) with releasing := true }) s.nextId (p.cmd q) false
    refine ⟨_, (exec_release hs hm hop).trans (congrArg Host.Outcome.next hact), ?_, ?_, State.tfind_finishCmd ..,
      hmem.trans ((State.setObj_mem ..).trans hb.mem), hhost.trans ((State.setObj_hostMem ..).trans hb.hostMem),
      hfences.trans ((State.setObj_fences ..).trans hb.fences)⟩
    · exact (congrArg (tget ({} : Obj) · (hIndex h)) hobjs).trans (State.obj_setObj ..)
    · refine (State.noteRelease_released ..).trans (congrArg₂ _ (hb.released (q / 8)) ?_)
      rw [← harg, ← s.tails_begun q p rest]
      rfl

end Sys2Proof.Machine
end

section
/-! The Osash fabric (chapter 12), continued: messages between hubs (R335, R336, R423, R590, R591, R597, R605 to R609, R654,
R656). -/

namespace Sys2Proof.Machine

/-! ### A message that is handled here (R588, R589) -/

@[simp] theorem State.takeInbox_find (s : State) (port : Nat) (m : OfpMsg) : (s.takeInbox port m).fab.find = s.fab.find := rfl

/-- A message that is heard leaves the list of those to be handled, and is acted on. -/
theorem State.work_receive_of_hears {s : State} {port type : Nat} {m : OfpMsg} (h : s.hears port m type = true)
    (act : State → State) : s.work (s.receive port m type act) = act (s.takeInbox port m) := by
  simp only [State.hears, Bool.and_eq_true, Bool.or_eq_true, bne_iff_ne, beq_iff_eq] at h
  obtain ⟨⟨⟨⟨hup, hport⟩, htype⟩, hdst⟩, howner⟩ := h
  rw [State.work_of_up hup]
  have hmine : ¬((s.takeInbox port m).build.fabricPorts = 0 ∧ port ≠ 31 ∨ m.type.toNat ≠ type ∨
      m.dstHub.toNat ≠ (s.takeInbox port m).myHub) := by
    rintro (⟨hports, hne⟩ | hne | hne)
    · exact hport.elim (· hports) hne
    · exact hne htype
    · exact hne hdst
  have hopen : ¬(m.ownerTag ≠ 0 ∧ ((s.takeInbox port m).part (tagPart m.ownerTag)).state = 0) := by
    rintro ⟨htag, hclosed⟩
    exact howner.elim htag (· hclosed)
  exact (if_neg hmine).trans (if_neg hopen)

/-! ### A message goes on its way (R590, R597, R598) -/

/-- From `s` to `t` only ports, accounts, and the messages to be handled or waiting for a route have changed. -/
def State.OnlySent (s t : State) : Prop :=
  t = { s with ctxs := t.ctxs, fps := t.fps, fab := { s.fab with inbox := t.fab.inbox, parked := t.fab.parked } }

theorem State.OnlySent.refl (s : State) : s.OnlySent s := rfl

theorem State.OnlySent.trans {s t u : State} (h : s.OnlySent t) (g : t.OnlySent u) : s.OnlySent u :=
  Eq.trans g (congrArg (fun z : State =>
    { z with ctxs := u.ctxs, fps := u.fps, fab := { z.fab with inbox := u.fab.inbox, parked := u.fab.parked } }) h)

section
variable {s t : State} (h : s.OnlySent t)
include h

theorem State.OnlySent.mem : t.mem = s.mem := (congrArg State.mem h :)
theorem State.OnlySent.fences : t.fences = s.fences := (congrArg State.fences h :)
theorem State.OnlySent.fenceWire : t.fenceWire = s.fenceWire := (congrArg State.fenceWire h :)
theorem State.OnlySent.sage : t.sage = s.sage := (congrArg State.sage h :)
theorem State.OnlySent.fe : t.fe = s.fe := (congrArg State.fe h :)
theorem State.OnlySent.e2eSeen (m : OfpMsg) : t.e2eSeen m = s.e2eSeen m := (congrArg (fun z : State => z.e2eSeen m) h :)

end

theorem State.portSend_onlySent (s : State) (p : Nat) (m : OfpMsg) : s.OnlySent (s.portSend p m) := rfl

theorem State.chargeFabric_onlySent (s : State) (m : OfpMsg) : s.OnlySent (s.chargeFabric m) := by
  unfold State.chargeFabric
  split <;> rfl

theorem State.inject_onlySent (s : State) (m : OfpMsg) : s.OnlySent (s.inject m) := by
  unfold State.inject
  extract_lets dst fab entry routed
  split
  · rfl
  · split
    · rfl
    · split
      · exact .refl s
      · exact (s.chargeFabric_onlySent routed).trans (State.portSend_onlySent _ _ _)

/-! ### Answers (R590, R591) -/

/-- The answer to a message: its sender, E2E_SEQ and owner tag, with a code. -/
def State.answer (s : State) (m : OfpMsg) (type code : Nat) : OfpMsg :=
  { s.ofp type m.srcHub.toNat m.ownerTag with e2eSeq := m.e2eSeq, f10 := BitVec.ofNat 64 code }

/-- A recorded answer is the one that a duplicate gets. -/
theorem State.e2eSeen_e2eNote (s : State) (m r : OfpMsg) : (s.e2eNote m r).e2eSeen m = some r := by
  simp [State.e2eNote, State.e2eSeen]

/-- An answer is recorded, and changes nothing but what is sent and recorded. -/
theorem State.e2eAnswer_spec (s : State) (m : OfpMsg) (type code : Nat) :
    (s.e2eAnswer m type code).e2eSeen m = some (s.answer m type code) ∧ (s.e2eAnswer m type code).mem = s.mem ∧
    (s.e2eAnswer m type code).fences = s.fences ∧ (s.e2eAnswer m type code).fenceWire = s.fenceWire ∧
    (s.e2eAnswer m type code).sage = s.sage ∧ (s.e2eAnswer m type code).fe = s.fe := by
  have h : (s.e2eNote m (s.answer m type code)).OnlySent (s.e2eAnswer m type code) := State.inject_onlySent _ _
  exact ⟨(h.e2eSeen m).trans (s.e2eSeen_e2eNote ..), h.mem, h.fences, h.fenceWire, h.sage, h.fe⟩

section
variable {s : State} {m : OfpMsg}

theorem State.e2eReceive_new (h : s.e2eSeen m = none) (act : State → State) : s.e2eReceive m act = act s := by
  rw [State.e2eReceive, h]

theorem State.e2eReceive_duplicate {r : OfpMsg} (h : s.e2eSeen m = some r) (act : State → State) :
    s.e2eReceive m act = s.inject r := by
  rw [State.e2eReceive, h]

end

/-- When no other message is under way, an answered one leaves none. -/
theorem State.e2eDone_single {s : State} {o : E2eOut} (h : s.fab.out = [o]) :
    s.e2eDone o.dst o.seq = { s with fab := { s.fab with out := [] } } := by
  simp [State.e2eDone, State.e2eRelease, h]

/-- With no message held back, none is released. -/
theorem State.e2eRelease_of_noneHeld {s : State} (h : ∀ o ∈ s.fab.out, o.held = false) (dst : Nat) : s.e2eRelease dst = s := by
  have hnone : (s.fab.out.filter fun o => o.dst = dst && o.held) = [] := by
    refine List.filter_eq_nil_iff.mpr fun o ho => ?_
    simp [h o ho]
  rw [State.e2eRelease, hnone]
  rfl

/-! ### SIGNAL and SIGNAL_ACK (R335, R336, R423) -/

/-- The handle of a reference that this hub accepts is a fence's, and not null. -/
theorem ne_zero_of_refAccepted {s : State} {r : Nat} (h : s.refAccepted r = true) : BitVec.ofNat 32 r ≠ 0 := by
  intro hz
  simp only [State.refAccepted, Bool.and_eq_true, beq_iff_eq] at h
  obtain ⟨⟨⟨⟨htype, -⟩, -⟩, -⟩, -⟩ := h
  rw [hz] at htype
  exact absurd htype (by decide)

/-- What the first message of a partial brings of it (Table 12-9). -/
def firstPart (m : OfpMsg) : CuRx :=
  { part := { partialFields m with ty := BitVec.ofNat 256 (leAt m.data 0 32), so := BitVec.ofNat 64 (leAt m.data 32 8),
                                   sf := BitVec.ofNat 32 (leAt m.data 40 4) },
    srcHub := m.srcHub.toNat, total := fld m.f30.toNat 63 48, got := m.data.drop 64 }

section
variable {s : State} {port : Nat} {m : OfpMsg}

theorem exec_fabricSignal_accepted (h : s.hears port m 1 = true) (hnew : s.e2eSeen m = none)
    (hok : s.refAccepted m.f10.toNat = true) : exec (.fabricSignal port m) s =
      .next (((s.takeInbox port m).sendSignal (BitVec.ofNat 32 m.f10.toNat) 0).e2eAnswer m 2 1) := by
  refine congrArg Host.Outcome.next ((State.work_receive_of_hears h _).trans ?_)
  exact (State.e2eReceive_new (s := s.takeInbox port m) hnew _).trans (if_pos hok)

theorem exec_fabricSignal_refused (h : s.hears port m 1 = true) (hnew : s.e2eSeen m = none)
    (hok : s.refAccepted m.f10.toNat = false) : exec (.fabricSignal port m) s =
      .next (((s.takeInbox port m).refuseRemote m.ownerTag m.f10.toNat).e2eAnswer m 2 2) := by
  refine congrArg Host.Outcome.next ((State.work_receive_of_hears h _).trans ?_)
  exact (State.e2eReceive_new (s := s.takeInbox port m) hnew _).trans (if_neg (Bool.eq_false_iff.mp hok))

theorem exec_fabricSignal_duplicate {r : OfpMsg} (h : s.hears port m 1 = true) (hseen : s.e2eSeen m = some r) :
    exec (.fabricSignal port m) s = .next ((s.takeInbox port m).inject r) :=
  congrArg Host.Outcome.next ((State.work_receive_of_hears h _).trans
    (State.e2eReceive_duplicate (s := s.takeInbox port m) hseen _))

/-- The answer to a SIGNAL ends its command, with BAD_HANDLE when it was refused. -/
theorem exec_fabricSignalAck {o : E2eOut} {id : Nat} (h : s.hears port m 2 = true)
    (hfind : s.fab.find m.srcHub.toNat m.e2eSeq.toNat = some o) (htype : o.msg.type = 1) (hcmd : o.cmd = some id)
    (hcode : fld m.f10.toNat 1 0 = 1 ∨ fld m.f10.toNat 1 0 = 2) : exec (.fabricSignalAck port m) s = .next
      ((if fld m.f10.toNat 1 0 = 1 then (s.takeInbox port m).e2eDone m.srcHub.toNat m.e2eSeq.toNat
        else ((s.takeInbox port m).e2eDone m.srcHub.toNat m.e2eSeq.toNat).cmdFault id 2 15 (o.msg.f10.toNat % 2 ^ 32)).finishCmd
          id) := by
  refine congrArg Host.Outcome.next ((State.work_receive_of_hears h _).trans ?_)
  have hgood : ¬(o.msg.type ≠ 1 ∨ fld m.f10.toNat 1 0 = 0 ∨ fld m.f10.toNat 1 0 = 3) := by
    rintro (hne | hzero | hthree)
    · exact hne htype
    · omega
    · omega
  simp only [State.takeInbox_find, hfind, if_neg hgood, hcmd]

/-! ### PARTIAL and PARTIAL_ACK (R605 to R609) -/

theorem exec_partialMsg_new (h : s.hears port m 3 = true) (hroute : m.sourceRouted = false) (hnew : s.e2eSeen m = none) :
    exec (.partialMsg port m) s = .next (((s.takeInbox port m).partialArrive m).1.e2eAnswer m 4
      ((s.takeInbox port m).partialArrive m).2) := by
  refine congrArg Host.Outcome.next ((State.work_receive_of_hears h _).trans ?_)
  exact (if_neg (Bool.eq_false_iff.mp hroute)).trans (State.e2eReceive_new (s := s.takeInbox port m) hnew _)

theorem exec_partialMsg_scheduled (h : s.hears port m 3 = true) (hroute : m.sourceRouted = true) :
    exec (.partialMsg port m) s = .next ((s.takeInbox port m).partialArrive m).1 :=
  congrArg Host.Outcome.next ((State.work_receive_of_hears h _).trans (if_pos hroute))

/-- A partial whose owner is no live context is refused (R606). -/
theorem State.partialArrive_refused {u : Nat} (hat : s.partialAt (fld m.f18.toNat 12 5) = some u)
    (hlive : s.tagLive m.ownerTag = false) : s.partialArrive m = (s, 2) := by
  simp [State.partialArrive, hat, hlive]

/-- The first message of a partial of several is kept until the rest has come (R605). -/
theorem State.partialArrive_kept {u : Nat} (hat : s.partialAt (fld m.f18.toNat 12 5) = some u)
    (hlive : s.tagLive m.ownerTag = true) (hfab : (s.ctx (tagCtx m.ownerTag)).fabric = true)
    (hfirst : fld m.f28.toNat 15 0 = 0) (hmore : 64 * fld m.f30.toNat 63 48 > (m.data.drop 64).length)
    (hroute : m.sourceRouted = true) :
    s.partialArrive m = (s.setCu u { s.cu u with rx := (s.cu u).rx ++ [firstPart m] }, 1) := by
  have hpart : ¬64 * fld m.f30.toNat 63 48 ≤ (m.data.drop 64).length := by omega
  simp only [State.partialArrive, hat, hlive, hfab, hfirst, hroute, Bool.and_true, Bool.not_true, Bool.false_and, if_true,
    Bool.false_eq_true, if_false, if_neg hpart]
  rfl

section
variable {o : E2eOut} (h : s.hears port m 4 = true) (hfind : s.fab.find m.srcHub.toNat m.e2eSeq.toNat = some o)
  (htype : o.msg.type = 3) (hans : o.answered = false)
include h hfind htype hans

/-- The last message of a partial is accepted. -/
theorem exec_partialAck_last (hcode : fld m.f10.toNat 1 0 = 1) (hrest : o.rest = []) : exec (.partialAck port m) s =
    .next ((s.takeInbox port m).e2eDone m.srcHub.toNat m.e2eSeq.toNat) := by
  refine congrArg Host.Outcome.next ((State.work_receive_of_hears h _).trans ?_)
  simp [hfind, htype, hans, hcode, hrest]

/-- A message of a partial is accepted, and the next one goes out. -/
theorem exec_partialAck_next {n : OfpMsg} {l : List OfpMsg} (hcode : fld m.f10.toNat 1 0 = 1) (hrest : o.rest = n :: l) :
    exec (.partialAck port m) s = .next (((s.takeInbox port m).e2eDone m.srcHub.toNat m.e2eSeq.toNat).e2eSend
      { o with msg := n, rest := l, retrySince := none }) := by
  refine congrArg Host.Outcome.next ((State.work_receive_of_hears h _).trans ?_)
  simp [hfind, htype, hans, hcode, hrest]

theorem exec_partialAck_refused (hcode : fld m.f10.toNat 1 0 = 2) : exec (.partialAck port m) s =
    .next (((s.takeInbox port m).e2eDone m.srcHub.toNat m.e2eSeq.toNat).credFault o 2) := by
  refine congrArg Host.Outcome.next ((State.work_receive_of_hears h _).trans ?_)
  simp [hfind, htype, hans, hcode]

/-- The only message under way is answered "retry": from now on it waits to be sent again (R608). -/
theorem exec_partialAck_retry (hcode : fld m.f10.toNat 1 0 = 3) (hout : s.fab.out = [o]) (hheld : o.held = false)
    (hsince : o.retrySince = none) : exec (.partialAck port m) s = .next { s.takeInbox port m with
      fab := { (s.takeInbox port m).fab with out := [{ o with answered := true, retrySince := some s.now }] } } := by
  refine congrArg Host.Outcome.next ((State.work_receive_of_hears h _).trans ?_)
  have hmine : o.dst = m.srcHub.toNat ∧ o.seq = m.e2eSeq.toNat := by
    simpa using List.find?_some hfind
  have hmap : ((s.takeInbox port m).fab.out.map fun (u : E2eOut) =>
      if u.dst = m.srcHub.toNat ∧ u.seq = m.e2eSeq.toNat then
        { u with answered := true, retrySince := u.retrySince.or (some (s.takeInbox port m).now) } else u) =
      [{ o with answered := true, retrySince := some s.now }] := by
    rw [show (s.takeInbox port m).fab.out = [o] from hout, List.map_singleton, if_pos hmine, hsince]
    rfl
  simp only [State.takeInbox_find, hfind, htype, hans, hcode, hmap]
  refine State.e2eRelease_of_noneHeld (fun u hu => ?_) _
  rw [List.mem_singleton.mp hu]
  exact hheld

end

end

section
variable {s : State} {dst : Nat} {seq : BitVec 16} {o : E2eOut} (hup : s.up = true)
  (hfind : s.fab.find dst seq.toNat = some o)
include hup hfind

theorem exec_partialRetryResend (hans : o.answered = true) : exec (.partialRetryResend dst seq) s =
    .next (State.e2eSend { s with fab := { s.fab with
      out := s.fab.out.filter fun u => !(u.dst = dst && u.seq = seq.toNat) } } { o with answered := false, held := false }) := by
  refine congrArg Host.Outcome.next ((State.work_of_up hup _).trans ?_)
  simp only [hfind, hans]
  rfl

theorem exec_partialAbandon (hsince : o.retrySince.isSome = true) : exec (.partialAbandon dst seq) s =
    .next ((s.e2eDone dst seq.toNat).credFault o 3) := by
  refine congrArg Host.Outcome.next ((State.work_of_up hup _).trans ?_)
  have hwaits : ¬o.retrySince.isNone = true := by simpa [Option.isSome_iff_ne_none] using hsince
  simp only [hfind, if_neg hwaits]

theorem exec_e2eResendTimeout (hheld : o.held = false) (hans : o.answered = false) : exec (.e2eResendTimeout dst seq) s =
    .next { s.inject o.msg with ctxs := s.ctxs } := by
  refine congrArg Host.Outcome.next ((State.work_of_up hup _).trans ?_)
  simp only [hfind, hheld, hans]
  rfl

end

/-! ### Routes and membership (R597, R654) -/

/-- FAB_ROUTE as firmware writes it anew. -/
def State.rerouted (s : State) : Table Nat :=
  if s.fwRuns then tmap s.fab.route fun h v => if v / 4 = 0 then v else match s.routeFor h with
    | some e => 4 + e
    | none => 8 + v % 4
  else s.fab.route

/-- With nothing under way and nothing waiting, new routes let nothing go out. -/
theorem State.reroute_idle {s : State} (hparked : s.fab.parked = []) (hout : s.fab.out = []) :
    s.reroute = { s with fab := { s.fab with route := s.rerouted } } := by
  cases hfw : s.fwRuns with
  | false => simp [State.reroute, State.rerouted, hfw]
  | true =>
    have hunpark (x : Table Nat) : ({ s with fab := { s.fab with route := x } } : State).unpark =
        { s with fab := { s.fab with route := x } } := by
      simp [State.unpark, hparked, hout]
    simp only [State.reroute, State.rerouted, hfw]
    exact hunpark _

/-- Among the combinations of ORDER and COPY. -/
theorem State.routeFor_lt {s : State} {hub e : Nat} (h : s.routeFor hub = some e) : e < 4 := by
  have hmem := List.mem_of_find?_eq_some h
  simp at hmem
  omega

/-- A member stays one when its route is written anew. -/
theorem State.routeState_rerouted {s : State} {hub : Nat} (h : s.routeState hub ≠ 0) :
    fld (tget 0 s.rerouted hub) 3 2 ≠ 0 := by
  have hfld (x : Nat) : fld x 3 2 = x / 4 % 4 := by rw [fld, Nat.shiftRight_eq_div_pow]; rfl
  unfold State.rerouted
  split
  · rw [tget_tmap (by intro k; rfl)]
    have hmember : tget 0 s.fab.route hub / 4 ≠ 0 := by
      intro hz
      rw [State.routeState, hfld, hz] at h
      exact h rfl
    rw [if_neg hmember, hfld]
    split
    next e he =>
      have := State.routeFor_lt he
      omega
    next => omega
  · exact h

/-- With nothing under way and nothing waiting, a hub that is heard of becomes a member, and nothing else changes. -/
theorem State.join_idle {s : State} {hub : Nat} (hparked : s.fab.parked = []) (hout : s.fab.out = []) (hother : hub ≠ s.myHub)
    (hnew : s.routeState hub = 0) : ∃ routes, s.join hub = { s with fab := { s.fab with route := routes } } ∧
      fld (tget 0 routes hub) 3 2 ≠ 0 := by
  have hjoin : s.join hub = ({ s with fab := { s.fab with route := tput s.fab.route hub 8 } } : State).reroute :=
    if_neg (by rintro (heq | hmember); exacts [hother heq, hmember hnew])
  refine ⟨_, hjoin.trans (State.reroute_idle hparked hout), State.routeState_rerouted ?_⟩
  rw [State.routeState, tget_tput]
  decide

section
variable {s : State} {p : Nat} {m : OfpMsg}

/-- The port of a peer whose manifest has been compared. -/
def FpPort.compared (x : FpPort) (same : Bool) : FpPort := { x with admitted := same, refused := !same }

theorem exec_manifest (hup : s.up = true) (hport : p < s.build.fabricPorts) (hactive : (s.fp p).state = .active)
    (htype : m.type = 8) (hfw : s.fwRuns = true) : exec (.manifest p m) s = .next ((s.takeInbox p m).manifestIn p m) := by
  refine congrArg Host.Outcome.next ((State.work_of_up hup _).trans ?_)
  have hhas : (s.hasPort p && (s.fp p).state == .active) = true := by simp [State.hasPort, hport, hactive]
  rw [State.inState, if_pos hhas, if_neg (not_not.mpr htype), hfw]
  rfl

/-- A peer with the same manifest is admitted, and its hub becomes a member (R597, R654). -/
theorem State.manifestIn_same (hsame : m.data.take 0x34 = (s.manifest [] 0 0).take 0x34) (hroute : s.fab.route = [])
    (hparked : s.fab.parked = []) (hout : s.fab.out = []) (hother : (s.fp p).peerHub ≠ s.myHub) :
    ∃ routes, s.manifestIn p m =
      { s.setFp p ((s.fp p).compared true) with fab := { s.fab with route := routes } } ∧
      fld (tget 0 routes (s.fp p).peerHub) 3 2 ≠ 0 := by
  have hnew : (s.setFp p ((s.fp p).compared true)).routeState (s.fp p).peerHub = 0 := by
    have hnone : (s.setFp p ((s.fp p).compared true)).fab.route = [] := hroute
    rw [State.routeState, hnone]
    show fld 0 3 2 = 0
    decide
  obtain ⟨routes, hjoin, hmember⟩ := State.join_idle (s := s.setFp p ((s.fp p).compared true)) hparked hout hother hnew
  have hin : s.manifestIn p m = ((s.setFp p ((s.fp p).compared true)).join (s.fp p).peerHub).reroute := if_pos hsame
  rw [hjoin] at hin
  exact ⟨_, hin.trans (State.reroute_idle hparked hout), State.routeState_rerouted hmember⟩

/-- A peer with another manifest is not admitted, and Sage and the record store hear of it (R654). -/
theorem State.manifestIn_differs (hdiff : m.data.take 0x34 ≠ (s.manifest [] 0 0).take 0x34)
    (hparked : s.fab.parked = []) (hout : s.fab.out = []) :
    ∃ routes rm, s.manifestIn p m =
      { (s.setFp p ((s.fp p).compared false)).sageFail (transportSrc p) 7 with rm := rm, fab := { s.fab with route := routes } } :=
  ⟨_, _, (if_neg hdiff).trans (State.reroute_idle hparked hout)⟩

end

/-! ### The hub's own ID (R571, R587) -/

/-- From `s` to `t` only the partitions and what the host is told have changed. -/
def State.OnlyStatements (s t : State) : Prop :=
  t = { s with units := t.units, engines := t.engines, wmb := t.wmb, ep := t.ep, out := t.out }

theorem State.OnlyStatements.trans {s t u : State} (h : s.OnlyStatements t) (g : t.OnlyStatements u) : s.OnlyStatements u :=
  Eq.trans g (congrArg (fun z : State =>
    { z with units := u.units, engines := u.engines, wmb := u.wmb, ep := u.ep, out := u.out }) h)

theorem State.SameParts.onlyStatements {s t : State} (h : s.SameParts t) : s.OnlyStatements t := by
  have hunits : t.units = { t.units with parts := s.units.parts } := (congrArg State.units h :)
  exact Eq.trans h (congrArg (fun u : Units =>
    { s with units := u, engines := t.engines, wmb := t.wmb, ep := t.ep, out := t.out }) hunits.symm)

theorem State.partChanged_onlyStatements (s : State) (p reason : Nat) : s.OnlyStatements (s.partChanged p reason) := by
  have hset : s.OnlyStatements (s.setPart p { s.part p with changes := (s.part p).changes + 1, reason := reason }) := rfl
  exact hset.trans (s.partChanged_sameParts p reason).onlyStatements

theorem State.statementsChange_onlyStatements (s : State) : s.OnlyStatements s.statementsChange :=
  keeps_foldl (P := s.OnlyStatements) (fun t e h => h.trans (t.partChanged_onlyStatements e.1 e.2.reason)) rfl

/-- A hub that takes an ID has it, is its own root while Thyme is in LOCAL, and changes its statements. -/
theorem State.takeId_spec (s : State) (id : Nat) : (s.takeId id).fab.idValid = true ∧ (s.takeId id).fab.hubId = id ∧
    (s.thyme.state = 0 → (s.fab.idValid && s.fab.hubId == id) = false → (s.takeId id).thyme.root = id) ∧
    (s.takeId id).mem = s.mem ∧ (s.takeId id).ctxs = s.ctxs ∧ (s.takeId id).fps = s.fps := by
  unfold State.takeId
  split
  next hsame =>
    obtain ⟨hvalid, hid⟩ := hsame
    refine ⟨hvalid, hid, fun _ hdiff => ?_, rfl, rfl, rfl⟩
    simp [hvalid, hid] at hdiff
  next =>
    generalize hs : ({ s with
      fab := { s.fab with idValid := true, hubId := id },
      thyme := if s.thyme.state = 0 then { s.thyme with root := id } else s.thyme } : State) = named
    have h := named.statementsChange_onlyStatements
    have hfab : named.statementsChange.fab = named.fab := (congrArg State.fab h :)
    have hthyme : named.statementsChange.thyme = named.thyme := (congrArg State.thyme h :)
    refine ⟨?_, ?_, fun hlocal _ => ?_, (congrArg State.mem h :).trans ?_, (congrArg State.ctxs h :).trans ?_,
      (congrArg State.fps h :).trans ?_⟩
    · rw [hfab, ← hs]
    · rw [hfab, ← hs]
    · rw [hthyme, ← hs]
      simp [hlocal]
    all_goals rw [← hs]

theorem exec_fabIdWrite {s : State} {v : BitVec 64} (hdec : s.decodes .pf = true) (hports : 0 < s.build.fabricPorts)
    (hdown : ∀ p, p < s.build.fabricPorts → (s.fp p).state = .down) (hid : fld v.toNat 15 0 < 8192) :
    exec (.fabIdWrite v) s = .next (s.takeId (fld v.toNat 15 0)) := by
  refine congrArg Host.Outcome.next (if_pos ?_)
  have hall : (List.range s.build.fabricPorts).all (fun p => (s.fp p).state == .down) = true := by
    simpa using hdown
  simp [hdec, hports, hall, hid]

theorem exec_fabIdWrite_ignored (s : State) {v : BitVec 64} (hid : 8192 ≤ fld v.toNat 15 0) :
    exec (.fabIdWrite v) s = .next s := by
  refine congrArg Host.Outcome.next (if_neg ?_)
  rw [decide_eq_false (by omega : ¬fld v.toNat 15 0 < 8192), Bool.and_false]
  exact Bool.false_ne_true

/-! ### A hub that cannot be reached (R656, R657) -/

theorem State.leaveFabric_idle {s : State} (hout : s.fab.out = []) (hub : Nat) (jobs : List Nat) : s.leaveFabric hub jobs =
    { s with fab := { s.fab with route := tput s.fab.route hub 0, out := [],
                                 parked := s.fab.parked.filter fun m => m.dstHub.toNat ≠ hub } } := by
  simp [State.leaveFabric, hout]

/-- A schedule that has expelled one more hub (R656). -/
def Sched.expelling (x : Sched) (hub : Nat) (own : Bool) : Sched :=
  { x with expelled := x.expelled ++ [hub].filter (fun h => !x.expelled.contains h), trigger := true,
           afterExpel := x.afterExpel || own }

theorem State.expel_one (s : State) (p hub : Nat) :
    s.expel p [hub] = s.setSched p ((s.sched p).expelling hub ([hub].contains s.myHub)) := by
  unfold State.expel
  exact if_neg (List.cons_ne_nil hub [])

theorem Sched.mem_expelling (x : Sched) (hub : Nat) (own : Bool) : hub ∈ (x.expelling hub own).expelled := by
  by_cases h : hub ∈ x.expelled
  · exact List.mem_append_left _ h
  · refine List.mem_append_right _ (List.mem_filter.mpr ⟨List.mem_singleton_self hub, ?_⟩)
    simpa using h

theorem exec_noRouteTimeout {s : State} {h : BitVec 16} {p : Nat} {x : Part} (hup : s.up = true)
    (hroute : s.routeState h.toNat = 2) (hparts : s.units.parts = [(p, x)]) (hruns : s.scheduleRuns p = true)
    (hleads : s.leads p = true) (hjob : (s.jobHubs p).contains h.toNat = true) :
    exec (.noRouteTimeout h) s = .next ((s.expel p [h.toNat]).leaveFabric h.toNat [p]) := by
  refine congrArg Host.Outcome.next ((State.work_of_up hup _).trans ?_)
  have hjobs : ((s.units.parts.map (·.1)).filter fun p => s.scheduleRuns p && s.leads p &&
      (s.jobHubs p).contains h.toNat) = [p] := by
    simp only [hparts, List.map_cons, List.map_nil, List.filter_cons, hruns, hleads, hjob, Bool.and_self, if_true,
      List.filter_nil]
  have hgoes : ¬(s.routeState h.toNat ≠ 2 ∨ [p] = []) := by simp [hroute]
  simp only [hjobs]
  exact if_neg hgoes

theorem exec_noRouteTimeout_ignored {s : State} {h : BitVec 16} (hup : s.up = true) (hroute : s.routeState h.toNat ≠ 2) :
    exec (.noRouteTimeout h) s = .next s :=
  congrArg Host.Outcome.next ((State.work_of_up hup _).trans (if_pos (.inl hroute)))

/-- Settles O54: a message that is heard is acted on (`State.work_receive_of_hears`), what is sent changes only the fabric's
own state (`State.inject_onlySent`), and an answer is the one recorded (`State.e2eAnswer_spec`); with nothing under way, the
routes are all that a peer's manifest changes (`State.reroute_idle`). -/
theorem fabricMessages : Obligations.FabricMessages := by
  unfold Obligations.FabricMessages
  refine ⟨?signal, ?duplicate, ?signalAck, fun s o h => State.e2eDone_single h, ?partialNew, ?partialSched, ?arrive, ?partialAck,
    ?again, ?differs, ?same, ?member, ?ownId, fun s v h => exec_fabIdWrite_ignored s h, ?noRoute,
    fun s h => exec_noRouteTimeout_ignored⟩
  case signal =>
    intro s port m h hnew
    cases hok : s.refAccepted m.f10.toNat with
    | true =>
      have hsent : (s.takeInbox port m).sendSignal (BitVec.ofNat 32 m.f10.toNat) 0 = { s.takeInbox port m with
          fenceWire := s.fenceWire ++ [⟨BitVec.ofNat 32 m.f10.toNat, 0⟩] } := if_neg (ne_zero_of_refAccepted hok)
      obtain ⟨hseen, hmem, hfences, hwire, hsage, -⟩ :=
        ((s.takeInbox port m).sendSignal (BitVec.ofNat 32 m.f10.toNat) 0).e2eAnswer_spec m 2 1
      refine ⟨_, _, exec_fabricSignal_accepted h hnew hok, hseen, rfl, rfl, rfl, ?_, ?_, fun _ => ⟨?_, rfl, ?_⟩,
        fun hno => absurd hno (by decide)⟩
      · rw [hmem, hsent]; rfl
      · rw [hfences, hsent]; rfl
      · rw [hwire, hsent]
      · rw [hsage, hsent]; rfl
    | false =>
      obtain ⟨hseen, hmem, hfences, hwire, -, hfe⟩ :=
        ((s.takeInbox port m).refuseRemote m.ownerTag m.f10.toNat).e2eAnswer_spec m 2 2
      exact ⟨_, _, exec_fabricSignal_refused h hnew hok, hseen, rfl, rfl, rfl, hmem, hfences,
        fun hyes => absurd hyes (by decide), fun _ => ⟨hwire, rfl, congrArg FeCounters.remoteRefused hfe⟩⟩
  case duplicate => exact fun s port m r h hseen => exec_fabricSignal_duplicate h hseen
  case signalAck =>
    intro s port id m o h hfind htype hcmd
    refine ⟨fun hcode => ?_, fun hcode => ?_⟩
    · exact (exec_fabricSignalAck h hfind htype hcmd (.inl hcode)).trans (by rw [if_pos hcode])
    · exact (exec_fabricSignalAck h hfind htype hcmd (.inr hcode)).trans (by rw [if_neg (by omega)])
  case partialNew => exact fun s port m h hroute hnew => exec_partialMsg_new h hroute hnew
  case partialSched => exact fun s port m h hroute => exec_partialMsg_scheduled h hroute
  case arrive =>
    intro s m u hat
    exact ⟨State.partialArrive_refused hat, fun hlive hfab hfirst hmore hroute => ⟨firstPart m,
      State.partialArrive_kept hat hlive hfab hfirst hmore hroute, rfl, rfl, rfl, rfl, rfl⟩⟩
  case partialAck =>
    intro s port m o h hfind htype hans
    exact ⟨exec_partialAck_last h hfind htype hans, fun n l => exec_partialAck_next h hfind htype hans,
      exec_partialAck_refused h hfind htype hans, fun hcode hout hheld hsince =>
        ⟨_, exec_partialAck_retry h hfind htype hans hcode hout hheld hsince, rfl, rfl, rfl⟩⟩
  case again =>
    intro s dst seq o hup hfind
    exact ⟨exec_partialRetryResend hup hfind, exec_partialAbandon hup hfind, exec_e2eResendTimeout hup hfind⟩
  case differs =>
    intro s p m hup hport hactive htype hfw hdiff _ hparked hout
    obtain ⟨routes, rm, hin⟩ := State.manifestIn_differs (s := s.takeInbox p m) (p := p) hdiff hparked hout
    refine ⟨_, (exec_manifest hup hport hactive htype hfw).trans (congrArg Host.Outcome.next hin), ?_, ?_, ⟨_, rfl, ?_, rfl⟩,
      rfl, rfl, rfl⟩
    · exact congrArg FpPort.admitted ((s.takeInbox p m).fp_setFp p (((s.takeInbox p m).fp p).compared false))
    · exact congrArg FpPort.refused ((s.takeInbox p m).fp_setFp p (((s.takeInbox p m).fp p).compared false))
    · exact congrArg (BitVec.ofNat 12) (by unfold transportSrc; omega)
  case same =>
    intro s p m hup hport hactive htype hfw hsame hroute hparked hout hother
    obtain ⟨routes, hin, hmember⟩ := State.manifestIn_same (s := s.takeInbox p m) (p := p) hsame hroute hparked hout hother
    refine ⟨_, (exec_manifest hup hport hactive htype hfw).trans (congrArg Host.Outcome.next hin), ?_, ?_, hmember, rfl, rfl,
      rfl⟩
    · exact congrArg FpPort.admitted ((s.takeInbox p m).fp_setFp p (((s.takeInbox p m).fp p).compared true))
    · exact congrArg FpPort.refused ((s.takeInbox p m).fp_setFp p (((s.takeInbox p m).fp p).compared true))
  case member =>
    intro s port m h hfw
    exact congrArg Host.Outcome.next ((State.work_receive_of_hears h _).trans (if_pos hfw))
  case ownId =>
    intro s v hdec hports hdown hid
    exact ⟨_, exec_fabIdWrite hdec hports hdown hid, s.takeId_spec _⟩
  case noRoute =>
    intro s h p x hup hroute hparts hruns hleads hjob hout
    have hleft := State.leaveFabric_idle (s := s.setSched p ((s.sched p).expelling h.toNat ([h.toNat].contains s.myHub))) hout
      h.toNat [p]
    have hsched := s.sched_setSched p ((s.sched p).expelling h.toNat ([h.toNat].contains s.myHub))
    rw [← s.expel_one p h.toNat] at hleft
    refine ⟨_, (exec_noRouteTimeout hup hroute hparts hruns hleads hjob).trans (congrArg Host.Outcome.next hleft), ?_, ?_, ?_,
      rfl, rfl, rfl⟩
    · exact congrArg (fld · 3 2) (tget_tput ..)
    · exact (congrArg Sched.expelled hsched).symm ▸ Sched.mem_expelling ..
    · exact congrArg Sched.trigger hsched

end Sys2Proof.Machine
end

section
/-! The command front end (chapter 8), continued: requests on queues (R384 to R386, R525). -/

namespace Sys2Proof.Machine

/-! ### A request that names a queue (R333) -/

theorem State.namesQueue_iff {s : State} {fn : Fn} {c q : Nat} : s.namesQueue fn c q = true ↔
    hType (BitVec.ofNat 32 (s.block fn).a1) = 2 ∧ hIndex (BitVec.ofNat 32 (s.block fn).a1) = q ∧ q / 8 = c ∧
      hGen (BitVec.ofNat 32 (s.block fn).a1) = (s.queue q).gen ∧ (s.queue q).state ≠ 0 := by
  simp [State.namesQueue, and_assoc]

section
variable (s : State) (fn : Fn) (op : Nat) (tag : BitVec 16)

@[simp] theorem State.queue_asked (q : Nat) : (s.asked fn op tag).queue q = s.queue q := rfl
@[simp] theorem State.startedCmds_asked (q : Nat) : (s.asked fn op tag).startedCmds q = s.startedCmds q := rfl

end

@[simp] theorem State.block_setQueue (s : State) (q : Nat) (y : Queue) (fn : Fn) :
    (s.setQueue q y).block fn = s.block fn := rfl

theorem State.onQueue_asked {s : State} {fn : Fn} {c q : Nat} (hctx : s.reqCtx fn (s.block fn).a0 = (0, c))
    (hq : s.namesQueue fn c q = true) (op : Nat) (tag : BitVec 16) (run : State → Nat → State) :
    (s.asked fn op tag).onQueue fn run = run (s.asked fn op tag) q := by
  obtain ⟨htype, hidx, hc, hgen, hstate⟩ := State.namesQueue_iff.mp hq
  rw [State.onQueue, State.onCtx_asked hctx]
  simp only [State.asked_a1, State.queue_asked, hidx]
  exact if_pos ⟨htype, hc, hgen, hstate⟩

/-- A request that ends changes its function's block, which is no longer busy, and tells the function (R341). -/
theorem State.reqDone_spec (s : State) (fn : Fn) (code r0 r1 : Nat) : ∃ b ep out,
    s.reqDone fn code r0 r1 = { s.setBlock fn b with ep := ep, out := out } ∧ b.busy = false ∧ b.code = code :=
  ⟨_, _, _, State.raise_onlyEndpoint _ fn 0, rfl, rfl⟩

/-! ### The requests -/

section
variable {s : State} {fn : Fn} {tag : BitVec 16} {c : Nat} (hup : s.up = true)
  (hctx : s.reqCtx fn (s.block fn).a0 = (0, c))
include hup hctx

/-- A queue is created empty where none stands, with the generation of its entry (R384). -/
theorem exec_queueCreate (hask : s.mayAsk fn 0x09 = true) (hmin : 8 ≤ fld (s.block fn).a2 4 0)
    (hmax : fld (s.block fn).a2 4 0 ≤ 24) (halign : (s.block fn).a1 % 2 ^ fld (s.block fn).a2 4 0 = 0)
    (hva : (s.block fn).a1 < 2 ^ 48) (hlive : (s.ctx c).state = .live)
    (hfree : ((s.ctx c).queue (fld (s.block fn).a2 10 8)).state = 0) : exec (.queueCreate fn tag) s =
      .next (((s.asked fn 0x09 tag).setCtx c ((s.ctx c).setQueue (fld (s.block fn).a2 10 8)
        { gen := ((s.ctx c).queue (fld (s.block fn).a2 10 8)).gen, state := 1, deviceWritten := bit (s.block fn).a2 16,
          sizeLog2 := fld (s.block fn).a2 4 0, ringVa := (s.block fn).a1 })).reqDone fn 0
        (mkHandle 2 ((s.ctx c).queue (fld (s.block fn).a2 10 8)).gen (8 * c + fld (s.block fn).a2 10 8)).toNat 0) := by
  have hring : ¬(fld (s.block fn).a2 4 0 < 8 ∨ 24 < fld (s.block fn).a2 4 0 ∨
      (s.block fn).a1 % 2 ^ fld (s.block fn).a2 4 0 ≠ 0 ∨ 2 ^ 48 ≤ (s.block fn).a1) := by omega
  have hentry : ¬((s.ctx c).state ≠ .live ∨ ((s.ctx c).queue (fld (s.block fn).a2 10 8)).state ≠ 0) := by
    simp [hlive, hfree]
  refine (State.work_request_of_mayAsk hask hup tag _).trans (congrArg Host.Outcome.next ?_)
  rw [State.reqQueueCreate, State.onCtx_asked hctx]
  simp only [State.asked_a1, State.asked_a2, State.ctx_asked, if_neg hring, if_neg hentry]
  rfl

variable {q : Nat} (hq : s.namesQueue fn c q = true)
include hq

/-- QUEUE_DESTROY of a queue to which no launch is bound stops its fetching and stays in progress (R385). -/
theorem exec_queueDestroy (hask : s.mayAsk fn 0x0A = true) (hbound : (s.queue q).bound = none) :
    exec (.queueDestroy fn tag) s = .next (((s.asked fn 0x0A tag).setQueue q
      { s.queue q with destroying := true }).setBlock fn
        { (s.asked fn 0x0A tag).block fn with subject := mkHandle 2 (s.queue q).gen q }) := by
  refine (State.work_request_of_mayAsk hask hup tag _).trans (congrArg Host.Outcome.next ?_)
  rw [State.reqQueueDestroy, State.onQueue_asked hctx hq]
  simp only [State.queue_asked, hbound, State.queue_setQueue, State.block_setQueue]
  rfl

/-- A halted queue whose ring is empty is ready again (R386). -/
theorem exec_queueResume_empty (hask : s.mayAsk fn 0x0B = true) (hhalted : (s.queue q).state = 2)
    (hempty : (s.queue q).tail = (s.queue q).head) : exec (.queueResume fn tag) s =
      .next (((s.asked fn 0x0B tag).setQueue q { s.queue q with state := 1, haltCode := 0 }).reqDone fn 0 0 0) := by
  refine (State.work_request_of_mayAsk hask hup tag _).trans (congrArg Host.Outcome.next ?_)
  rw [State.reqQueueResume, State.onQueue_asked hctx hq]
  simp [hhalted, hempty]

/-- The target of a queue with no launch and no started command is set (R525). -/
theorem exec_queueTarget (hask : s.mayAsk fn 0x14 = true) (hbound : (s.queue q).bound = none)
    (hidle : s.startedCmds q = []) (halign : fld (s.block fn).a2 47 0 % 8 = 0) : exec (.queueTarget fn tag) s =
      .next (((s.asked fn 0x14 tag).setQueue q { s.queue q with
        targetFn := fld (s.block fn).a2 63 48, nativeVa := fld (s.block fn).a2 47 0 }).reqDone fn 0 0 0) := by
  refine (State.work_request_of_mayAsk hask hup tag _).trans (congrArg Host.Outcome.next ?_)
  rw [State.reqQueueTarget, State.onQueue_asked hctx hq]
  simp [halign, hbound, hidle]

end

/-- Queue `q` gives its entry up with generation `gen`, and the marks of RELEASEs on it go with it (R363, R385). -/
def State.freeQueue (s : State) (q gen : Nat) : State :=
  (s.setQueue q { gen := gen }).modCtx (q / 8) fun x =>
    { x with released := x.released.map fun r => { r with marks := r.marks.filter fun m => m.1 ≠ q } }

@[simp] theorem State.queue_freeQueue (s : State) (q gen : Nat) : (s.freeQueue q gen).queue q = { gen := gen } := by
  rw [State.queue, State.freeQueue, State.modCtx, State.ctx_setCtx]
  exact State.queue_setQueue ..

/-- When the started commands of a queue have retired, its QUEUE_DESTROY frees its entry with the next generation
(R385). -/
theorem exec_queueDestroyComplete {s : State} {fn : Fn} (hup : s.up = true) (hbusy : (s.block fn).busy = true)
    (hqueued : (s.block fn).queued = false) (hop : (s.block fn).op = 0x0A)
    (hretired : s.startedCmds (hIndex (s.block fn).subject) = [])
    (hgen : (s.queue (hIndex (s.block fn).subject)).gen = hGen (s.block fn).subject) :
    exec (.queueDestroyComplete fn) s = .next
      ((s.freeQueue (hIndex (s.block fn).subject) (nextGen (hGen (s.block fn).subject))).reqDone fn 0 0 0) := by
  refine congrArg Host.Outcome.next ((State.work_of_up hup _).trans ?_)
  simp only [hbusy, hqueued, hop, hretired, hgen]
  rfl

/-- Settles O24: `State.onQueue_asked` leads each request to the queue it names; the end of a QUEUE_DESTROY changes
contexts, its function's block and the endpoint. -/
theorem queueRequests : Obligations.QueueRequests := by
  refine ⟨?create, ?destroy, ?destroyed, ?resume, ?target⟩
  case create =>
    intro s fn tag c hup hask hctx hmin hmax halign hva hlive hfree
    exact exec_queueCreate hup hctx hask hmin hmax halign hva hlive hfree
  case destroy =>
    intro s fn tag c q hup hask hctx hq hbound
    exact exec_queueDestroy hup hctx hq hask hbound
  case destroyed =>
    intro s fn hup hbusy hqueued hop hretired hgen
    obtain ⟨b, ep, out, hdone, hidle, hcode⟩ := (s.freeQueue (hIndex (s.block fn).subject)
      (nextGen (hGen (s.block fn).subject))).reqDone_spec fn 0 0 0
    have hblock := State.block_setBlock (s.freeQueue (hIndex (s.block fn).subject)
      (nextGen (hGen (s.block fn).subject))) fn b
    exact ⟨_, (exec_queueDestroyComplete hup hbusy hqueued hop hretired hgen).trans (congrArg _ hdone),
      State.queue_freeQueue .., (congrArg ObjBlock.busy hblock).trans hidle, (congrArg ObjBlock.code hblock).trans hcode,
      rfl, rfl, rfl⟩
  case resume =>
    intro s fn tag c q hup hask hctx hq hhalted hempty
    exact exec_queueResume_empty hup hctx hq hask hhalted hempty
  case target =>
    intro s fn tag c q hup hask hctx hq hbound hidle halign
    exact exec_queueTarget hup hctx hq hask hbound hidle halign

end Sys2Proof.Machine
end

section
/-! The command front end (chapter 8), continued: NOP, SIGNAL, BARRIER and undefined opcodes (R396 to R402, Table 8-6). -/

namespace Sys2Proof.Machine

/-! ### The commands that a fault leaves (R368 to R370) -/

theorem mem_of_tfind {α : Type} {t : Table α} {k : Nat} {v : α} (h : tfind t k = some v) : (k, v) ∈ t := by
  induction t with
  | nil => cases h
  | cons e t ih =>
    unfold tfind at h
    split at h
    next hk =>
      cases h
      exact hk ▸ List.mem_cons_self
    next => exact List.mem_cons_of_mem _ (ih h)

/-- Every command of `t` was a command of `s` on the same queue, and had acted there if it has in `t`. -/
def State.CmdsFrom (s t : State) : Prop :=
  ∀ e ∈ t.cmds, ∃ m, (e.1, m) ∈ s.cmds ∧ m.queue = e.2.queue ∧ m.acted = e.2.acted

theorem State.CmdsFrom.of_cmds {s t : State} (h : t.cmds = s.cmds) : s.CmdsFrom t :=
  fun e he => ⟨e.2, h ▸ he, rfl, rfl⟩

theorem State.CmdsFrom.refl (s : State) : s.CmdsFrom s := .of_cmds rfl

theorem State.CmdsFrom.trans {s t u : State} (h : s.CmdsFrom t) (g : t.CmdsFrom u) : s.CmdsFrom u := by
  intro e he
  obtain ⟨m, hm, hqueue, hacted⟩ := g e he
  obtain ⟨m', hm', hqueue', hacted'⟩ := h _ hm
  exact ⟨m', hm', hqueue'.trans hqueue, hacted'.trans hacted⟩

theorem State.foldl_cmdsFrom {α : Type} {f : State → α → State} (hf : ∀ (t : State) x, t.CmdsFrom (f t x)) (xs : List α)
    (s : State) : s.CmdsFrom (xs.foldl f s) :=
  keeps_foldl (P := s.CmdsFrom) (fun t x ht => ht.trans (hf t x)) (.refl s)

/-- A command is listed anew on its queue, acted or not as it was. -/
theorem State.setCmd_cmdsFrom {s : State} {id : Nat} {m m' : Cmd} (h : tfind s.cmds id = some m)
    (hqueue : m.queue = m'.queue) (hacted : m.acted = m'.acted) : s.CmdsFrom (s.setCmd id m') := by
  intro e he
  rcases mem_of_mem_tput he with rfl | hold
  · exact ⟨m, mem_of_tfind h, hqueue, hacted⟩
  · exact ⟨e.2, hold, rfl, rfl⟩

theorem State.completeCmd_cmdsFrom (s : State) (id code : Nat) : s.CmdsFrom (s.completeCmd id code) := by
  intro e he
  rw [State.completeCmd_cmds] at he
  exact ⟨e.2, List.mem_of_mem_filter he, rfl, rfl⟩

theorem State.checkCmdDone_cmdsFrom (s : State) (id : Nat) : s.CmdsFrom (s.checkCmdDone id) := by
  unfold State.checkCmdDone
  split
  · exact .refl s
  · split
    · exact .refl s
    · split
      · exact .refl s
      · split
        · exact s.completeCmd_cmdsFrom _ _
        · exact .refl s

theorem State.noteCmdFault_cmdsFrom (s : State) (id : Option Nat) (code : Nat) : s.CmdsFrom (s.noteCmdFault id code) := by
  unfold State.noteCmdFault
  split
  · exact .refl s
  · split
    next => exact .refl s
    next m hm =>
      split
      · exact State.setCmd_cmdsFrom hm rfl rfl
      · exact .refl s

theorem State.noteLaunchFault_cmdsFrom (s : State) (id : Option Nat) (code : Nat) :
    s.CmdsFrom (s.noteLaunchFault id code) := by
  unfold State.noteLaunchFault
  split
  · exact .refl s
  · split
    · exact .refl s
    · refine .trans (.of_cmds ?_) (State.noteCmdFault_cmdsFrom _ _ _)
      split <;> rfl

@[simp] theorem State.chargeLaunch_cmds (s : State) (id : Nat) : (s.chargeLaunch id).cmds = s.cmds := by
  unfold State.chargeLaunch
  split
  · rfl
  · split <;> rfl

@[simp] theorem State.semRelease_cmds (s : State) (key : Nat) : (s.semRelease key).cmds = s.cmds := by
  unfold State.semRelease
  extract_lets m
  split <;> rfl

@[simp] theorem State.freeFold_cmds (s : State) (l : Launch) : (s.freeFold l).cmds = s.cmds := by
  unfold State.freeFold
  split <;> rfl

@[simp] theorem State.freeSlot_cmds (s : State) (l : Launch) : (s.freeSlot l).cmds = s.cmds := by
  unfold State.freeSlot
  split <;> rfl

@[simp] theorem State.stepEnds_cmds (s : State) (p k code : Nat) : (s.stepEnds p k code).cmds = s.cmds := by
  simp only [State.stepEnds]
  split
  · rfl
  · simp

@[simp] theorem State.raise_cmds (s : State) (fn : Fn) (cause : Nat) : (s.raise fn cause).cmds = s.cmds := by
  rw [s.raise_onlyEndpoint fn cause]

@[simp] theorem State.hostWrite_cmds (s : State) (addr : Nat) (bs : List Byte) :
    (s.hostWrite addr bs).cmds = s.cmds := rfl

@[simp] theorem State.notify_cmds (s : State) (v kind : Nat) (h : BitVec 32) (code : Nat) :
    (s.notify v kind h code).cmds = s.cmds := by
  simp only [State.notify]
  split
  · rfl
  · split
    · rfl
    · exact (State.setVf_cmds ..).trans (State.hostWrite_cmds ..)

/-- The end of a launch completes commands, and counts a workgroup of one. -/
theorem State.endLaunch_cmdsFrom (s : State) (id : Nat) : s.CmdsFrom (s.endLaunch id) := by
  unfold State.endLaunch
  split
  next => exact .refl s
  next l _ =>
    extract_lets charged unheld freed gone queue unbound completed emptied ended
    have hunheld : charged.CmdsFrom unheld :=
      .trans (.of_cmds (t := charged.semLeave id) rfl)
        (State.foldl_cmdsFrom (fun t i => .of_cmds (t.semRelease_cmds _)) l.sems _)
    have hgone : unheld.CmdsFrom gone := .of_cmds ((State.freeSlot_cmds ..).trans (State.freeFold_cmds ..))
    have hunbound : gone.CmdsFrom unbound := by
      refine .of_cmds ?_
      simp only [unbound]
      split
      · split <;> rfl
      · rfl
    have hcompleted : unbound.CmdsFrom completed := by
      simp only [completed]
      split
      · exact unbound.completeCmd_cmdsFrom _ _
      · exact .refl unbound
    have hemptied : completed.CmdsFrom emptied := by
      simp only [emptied]
      split
      · exact State.foldl_cmdsFrom (fun t e => t.completeCmd_cmdsFrom _ _) _ completed
      · exact .refl completed
    have hended : emptied.CmdsFrom ended := by
      simp only [ended]
      split
      · exact .of_cmds (State.stepEnds_cmds ..)
      · exact .refl emptied
    have hall : s.CmdsFrom ended := .trans (.of_cmds (s.chargeLaunch_cmds id))
      (hunheld.trans (hgone.trans (hunbound.trans (hcompleted.trans (hemptied.trans hended)))))
    split
    next => exact hall
    next k _ =>
      split
      next => exact hall
      next m hm =>
        exact hall.trans ((State.setCmd_cmdsFrom (m' := { m with wgEnded := m.wgEnded + 1 }) hm rfl rfl).trans
          (State.checkCmdDone_cmdsFrom _ k))

theorem State.loseLaunch_cmdsFrom (s : State) (id : Nat) : s.CmdsFrom (s.loseLaunch id) := by
  unfold State.loseLaunch
  split
  · exact .refl s
  · split
    · exact .of_cmds rfl
    · exact s.endLaunch_cmdsFrom id

theorem State.loseCmd_cmdsFrom (s : State) (id : Nat) : s.CmdsFrom (s.loseCmd id) := by
  unfold State.loseCmd
  split
  next => exact .refl s
  next m _ =>
    extract_lets t
    have ht : s.CmdsFrom t := by
      simp only [t]
      split
      · exact .refl s
      · exact s.completeCmd_cmdsFrom _ _
    split
    · exact ht.trans (t.completeCmd_cmdsFrom _ _)
    · exact ht.trans (t.checkCmdDone_cmdsFrom id)

/-- R368: the loss of a context starts no command. -/
theorem State.loseCtx_cmdsFrom (s : State) (c : Nat) : s.CmdsFrom (s.loseCtx c) := by
  unfold State.loseCtx
  extract_lets lost discarded completed v
  have hdiscarded : lost.CmdsFrom discarded := State.foldl_cmdsFrom State.loseLaunch_cmdsFrom _ lost
  have hcompleted : discarded.CmdsFrom completed := State.foldl_cmdsFrom State.loseCmd_cmdsFrom _ discarded
  exact .trans (.of_cmds (t := lost) rfl) (hdiscarded.trans (hcompleted.trans (.of_cmds (by simp))))

theorem State.fault_cmdsFrom {s : State} {c : Nat} (hlive : (s.ctx c).state = .live) (code : Nat) (o : Origin) :
    s.CmdsFrom (s.fault c code o) := by
  have hnoted : s.CmdsFrom (s.faultNoted c code o) :=
    .trans (.of_cmds (t := (s.sageSend o.source (faultKind code) (s.tag c) o.access o.address).setCtx c
        { s.ctx c with fault := (s.ctx c).fault.note code o s.now }) rfl)
      ((State.noteCmdFault_cmdsFrom _ o.cmd code).trans (State.noteLaunchFault_cmdsFrom _ o.launch code))
  rw [State.fault_of_live hlive]
  split
  · exact hnoted
  · exact hnoted.trans (State.loseCtx_cmdsFrom _ c)

/-! ### An undefined opcode (R397) -/

/-- No table gives the opcode of the packet a meaning (Table 8-6). -/
def Packet.Undefined (p : Packet) : Prop := p.w0 % 256 = 0 ∨ 0x0D < p.w0 % 256

theorem Packet.Undefined.signalsHandle {p : Packet} (h : p.Undefined) (flags : Nat) :
    signalsHandle (p.w0 % 256) flags = false := by
  unfold Packet.Undefined at h
  simp only [Machine.signalsHandle, Bool.and_eq_false_iff, decide_eq_false_iff_not]
  omega

theorem Packet.Undefined.malformed {p : Packet} (h : p.Undefined) : p.malformed = true := by
  unfold Packet.Undefined at h
  have hop : (decide (1 ≤ p.w0 % 256) && decide (p.w0 % 256 ≤ 0x0D)) = false := by
    simp only [Bool.and_eq_false_iff, decide_eq_false_iff_not]
    omega
  simp [Packet.malformed, hop]

section
variable {s : State} {q : Nat} {p : Packet} {rest : List Packet}

/-- The started commands of a queue once a packet has started: its own and some of those before it. -/
theorem State.mem_startedCmds_begun (hs : s.starts q p rest = true) {e : Nat × Cmd}
    (he : e ∈ (s.begun q p rest).startedCmds q) : e = (s.nextId, p.cmd q) ∨ e ∈ s.startedCmds q := by
  obtain ⟨hin, hqueue⟩ := List.mem_filter.mp he
  exact ((State.begun_cmds hs).2.2 e hin).imp_right fun hold => List.mem_filter.mpr ⟨hold, hqueue⟩

/-- When the command of a packet has completed, no command of its queue is left that has not acted. -/
theorem State.openCmd_finishCmd_of_cmdsFrom (hs : s.starts q p rest = true) {t : State}
    (ht : (s.begun q p rest).CmdsFrom t) : (t.finishCmd s.nextId).openCmd q = none := by
  refine List.find?_eq_none.mpr fun e he => ?_
  obtain ⟨hin, hqueue⟩ := List.mem_filter.mp he
  rw [State.finishCmd_cmds] at hin
  obtain ⟨hin, hne⟩ := List.mem_filter.mp hin
  obtain ⟨m, hm, hq, hacted⟩ := ht e hin
  have hstarted : (e.1, m) ∈ (s.begun q p rest).startedCmds q := List.mem_filter.mpr ⟨hm, by rw [hq]; exact hqueue⟩
  rcases State.mem_startedCmds_begun hs hstarted with hown | hold
  · exact absurd (Prod.mk.inj hown).1 (of_decide_eq_true hne)
  · have hdone := List.find?_eq_none.mp (State.openCmd_of_starts hs) _ hold
    rwa [hacted] at hdone

theorem State.openCmd_badCmd_begun (hs : s.starts q p rest = true) :
    ((s.begun q p rest).badCmd s.nextId).openCmd q = none := by
  obtain ⟨-, -, -, hlive, -, -⟩ := State.starts_iff.mp hs
  refine State.openCmd_finishCmd_of_cmdsFrom hs ?_
  rw [State.cmdFault, State.tfind_begun hs]
  exact State.fault_cmdsFrom (((s.begun_onlyFront q p rest).state _).trans hlive) _ _

/-- A packet with an undefined opcode starts, faults and completes (R397). -/
theorem State.startHead_of_undefined (hs : s.starts q p rest = true) {row : Nat → Bool} (hrow : row p.w0 = true)
    (hop : p.Undefined) : s.startHead q row = (s.begun q p rest).badCmd s.nextId := by
  obtain ⟨-, hdec, hcan, hlive, -, -⟩ := State.starts_iff.mp hs
  have hstate : ((s.begun q p rest).ctx (q / 8)).state = .live := ((s.begun_onlyFront q p rest).state _).trans hlive
  have hheld : BitVec.ofNat 32 (fld p.w0 63 32) = p.heldFence := by
    rw [Packet.heldFence, hop.signalsHandle]
    rfl
  unfold State.startHead
  rw [hdec]
  dsimp -zeta only
  rw [if_neg (by simp [hrow, hcan])]
  extract_lets c op flags h u fenced ok m t checked
  have hsig : signalsHandle op flags = false := hop.signalsHandle _
  have hfenced : fenced = false := by simp only [fenced, hsig, Bool.false_and]
  have ht : t = s.begun q p rest := by
    simp only [t, m, hfenced, hsig, h, hheld]
    rfl
  have hchecked : checked = t := if_neg (by simp [hfenced])
  rw [if_neg (not_not.mpr (ht ▸ hstate)), if_pos hop.malformed, hchecked, ht]
  rfl

theorem exec_qUndefinedOpcode (hs : s.starts q p rest = true) (hop : p.Undefined) : exec (.qUndefinedOpcode q) s =
    .next ((s.begun q p rest).badCmd s.nextId) := by
  obtain ⟨hup, -, -, -, -, -⟩ := State.starts_iff.mp hs
  have hrow : (p.w0 % 256 == 0 || decide (0x0D < p.w0 % 256)) = true := by simpa [Packet.Undefined] using hop
  have hhead := State.startHead_of_undefined hs (row := fun w => w % 256 == 0 || decide (0x0D < w % 256)) hrow hop
  refine congrArg Host.Outcome.next ((State.work_of_up hup _).trans ?_)
  simp only [State.qRow, State.openCmd_of_starts hs, Option.isSome_none, Bool.false_eq_true, if_false, hhead,
    State.openCmd_badCmd_begun hs]

/-! ### NOP, SIGNAL and BARRIER (R396 to R402, Table 8-6) -/

/-- A packet of the row of one opcode acts as it starts. -/
theorem State.next_qRow_isQ (hs : s.starts q p rest = true) (hm : p.malformed = false) {op : Nat}
    (hop : p.w0 % 256 = op) {alone : Bool} (halone : alone = true → s.alone q = true)
    (act : State → Nat → Cmd → State) : Host.Outcome.next (s.work (s.qRow q (isQ op) alone act)) =
      (.next (act (s.begun q p rest) s.nextId (p.cmd q)) : Host.Outcome State Fault Refusal) :=
  State.next_qRow_of_starts hs hm (isQ_of_op hop) (by rw [isQ_word, isQ_of_op hop]) halone act

/-- No CALL_RING ends with the packet of a queue that had no started command. -/
theorem State.begun_of_idle (hidle : s.startedCmds q = []) : s.begun q p rest = s.listed q p rest := by
  have hnone : ((s.listed q p rest).startedCmds q).find? (fun e => e.2.op = 0x0B && e.2.acted) = none := by
    refine List.find?_eq_none.mpr fun e he => ?_
    obtain ⟨hin, hqueue⟩ := List.mem_filter.mp he
    rcases mem_of_mem_tput hin with rfl | hold
    · simp [Packet.cmd]
    · have hstarted : e ∈ s.startedCmds q := List.mem_filter.mpr ⟨hold, hqueue⟩
      rw [hidle] at hstarted
      exact absurd hstarted List.not_mem_nil
  rw [State.begun_eq, State.closeCall, hnone]
  exact ite_self _

/-- A packet of the ring, once read, lies behind HEAD (R396). -/
theorem Queue.take_head (y : Queue) {p : Packet} (hoff : p.off = none) (rest : List Packet) :
    (y.take p rest).head = (p.pos + 16) % 2 ^ 32 := by
  unfold Queue.take
  extract_lets z
  have hz : z.head = (p.pos + 16) % 2 ^ 32 := by simp only [z, hoff]
  split
  · exact hz
  · exact hz

section
variable {id : Nat} {m : Cmd} (hcmd : tfind s.cmds id = some m) (code : Nat)
include hcmd

/-- A command notes the progress of its context as it completes (R500). -/
theorem State.completeCmd_progress : ((s.completeCmd id code).ctx m.ctx).acct.lastProgress = s.now := by
  simp only [State.completeCmd, hcmd]
  rw [State.progress, State.modCtx, State.ctx_setCtx]
  exact (congrArg Thyme.now (congrArg State.thyme (State.sendSignal_onlyCmds _ _ code).frame) :)

/-- NOP, SIGNAL and BARRIER signal the fence they hold (R402). -/
theorem State.completeCmd_signals (hop : m.op = 1 ∨ m.op = 5 ∨ m.op = 9) : (s.completeCmd id code).fenceWire =
    if m.handle = 0 then s.fenceWire else s.fenceWire ++ [⟨m.handle, code⟩] := by
  have hsig : ¬(m.op = 0 ∨ m.op = 4 ∨ m.op = 0x0A ∨ m.op = 0x0B ∨ 0x0D < m.op ∨ (m.op = 6 ∧ m.flags % 4 = 2)) := by
    omega
  simp only [State.completeCmd, hcmd, if_neg hsig, State.sendSignal]
  split <;> rfl

end

end

/-- Settles O30: a packet that starts acts in `State.begun`, and its command completes there; after an undefined opcode
`State.openCmd_badCmd_begun` leaves the row nothing to do. -/
theorem queueSignals : Obligations.QueueSignals := by
  refine ⟨?nop, ?signal, ?barrier, ?completes, ?undefinedOpcode⟩
  case nop =>
    intro s q p rest hs hm hop
    exact State.next_qRow_isQ hs hm hop (alone := false) nofun fun s id _ => s.finishCmd id
  case signal =>
    intro s q p rest hs hm ha hop
    exact State.next_qRow_isQ hs hm hop (alone := true) (fun _ => ha) fun s id _ => s.finishCmd id
  case barrier =>
    intro s q p rest hs hm ha hop
    exact State.next_qRow_isQ hs hm hop (alone := true) (fun _ => ha) fun s id _ => s.finishCmd id
  case completes =>
    intro s q p rest hs hoff hidle hop
    have hcmd := State.tfind_begun hs
    have hb := s.begun_onlyFront q p rest
    have hdone := State.finishCmd_onlyCmds (s.begun q p rest) s.nextId
    have hall := hb.trans hdone.onlyFront
    have hqueue : ((s.begun q p rest).finishCmd s.nextId).queue q = (s.queue q).take p rest :=
      (hdone.queue q).trans (s.queue_begun q p rest)
    have hwire : (s.begun q p rest).fenceWire = s.fenceWire := by
      rw [State.begun_of_idle hidle]
      rfl
    refine ⟨_, rfl, ?_, ?_, State.tfind_finishCmd .., ?_, ?_, hall.mem, hall.hostMem, hall.objs, hall.fences,
      (congrArg State.launches hall.frame :), (congrArg State.engines hall.frame :)⟩
    · rw [hqueue, Queue.take_head _ hoff]
    · rw [hqueue, Queue.take_decoded]
    · rw [State.finishCmd_of_tfind hcmd, State.completeCmd_signals hcmd _ hop, hwire]
      rfl
    · rw [State.finishCmd_of_tfind hcmd]
      exact (State.completeCmd_progress hcmd _).trans hb.now
  case undefinedOpcode =>
    intro s q p rest hs hop
    exact exec_qUndefinedOpcode hs hop

end Sys2Proof.Machine
end

section
/-! The command front end (chapter 8), continued: LAUNCH and LAUNCH_RESIDENT (R410 to R419). -/

namespace Sys2Proof.Machine

/-! ### What a launch command finds as its packet starts -/

theorem Queue.take_bound (y : Queue) (p : Packet) (rest : List Packet) : (y.take p rest).bound = y.bound := by
  unfold Queue.take
  extract_lets z
  split <;> rfl

theorem Queue.take_targetFn (y : Queue) (p : Packet) (rest : List Packet) : (y.take p rest).targetFn = y.targetFn := by
  unfold Queue.take
  extract_lets z
  split <;> rfl

theorem State.nextId_begun (s : State) (q : Nat) (p : Packet) (rest : List Packet) :
    (s.begun q p rest).nextId = s.nextId + 1 :=
  (congrArg State.nextId ((s.listed q p rest).closeCall_onlyCmds q).frame :)

theorem State.OnlyFront.scheduleRuns {s t : State} (h : s.OnlyFront t) (p : Nat) :
    t.scheduleRuns p = s.scheduleRuns p := (congrArg (fun z : State => z.scheduleRuns p) h.frame :)

theorem State.OnlyFront.launchAllowed {s t : State} (h : s.OnlyFront t) {m : Cmd}
    (htarget : (t.queue m.queue).targetFn = (s.queue m.queue).targetFn) (d : Desc) (resident : Bool) :
    t.launchAllowed m d resident = s.launchAllowed m d resident := by
  have hpart : (t.ctx m.ctx).part = (s.ctx m.ctx).part := (congrArg Context.part (h.ctx m.ctx) :)
  simp only [State.launchAllowed, h.scheduleRuns, h.sched, hpart, htarget]

@[simp] theorem State.launchAllowed_chargeBytes (s : State) (c dev host : Nat) (m : Cmd) (d : Desc) (resident : Bool) :
    (s.chargeBytes c dev host).launchAllowed m d resident = s.launchAllowed m d resident :=
  (s.chargeBytes_onlyCmds c dev host).onlyFront.launchAllowed
    (congrArg Queue.targetFn ((s.chargeBytes_onlyCmds c dev host).queue _)) d resident

/-- The launch of a packet that starts is allowed where it was before. -/
theorem State.launchAllowed_begun (s : State) (q : Nat) (p : Packet) (rest : List Packet) (d : Desc) (resident : Bool) :
    (s.begun q p rest).launchAllowed (p.cmd q) d resident = s.launchAllowed (p.cmd q) d resident :=
  (s.begun_onlyFront q p rest).launchAllowed
    ((congrArg Queue.targetFn (s.queue_begun q p rest)).trans (Queue.take_targetFn ..)) d resident

/-! ### The launch of a LAUNCH_RESIDENT (R415) -/

/-- A new launch of descriptor `d` is bound to the queue of command `id`. -/
def State.bindResident (s : State) (id : Nat) (m : Cmd) (d : Desc) : State :=
  ((s.fresh.2.setLaunch s.nextId (m.launchOf id 0 d true)).setCmd id
    { m with desc := some d, acted := true, resident := true, wgStarted := 1 }).setQueue m.queue
      { s.queue m.queue with bound := some s.nextId }

section
variable (s : State) (id : Nat) (m : Cmd) (d : Desc)

theorem State.bindResident_bound : ((s.bindResident id m d).queue m.queue).bound = some s.nextId := by
  rw [State.bindResident, State.queue_setQueue]

theorem State.bindResident_launch :
    tfind (s.bindResident id m d).launches s.nextId = some (m.launchOf id 0 d true) := tfind_tput ..

theorem State.bindResident_leaves : (s.bindResident id m d).mem = s.mem ∧ (s.bindResident id m d).objs = s.objs ∧
    (s.bindResident id m d).fences = s.fences ∧ (s.bindResident id m d).engines = s.engines := ⟨rfl, rfl, rfl, rfl⟩

end

/-! ### The descriptor of a launch (R396, R411, R441) -/

section
variable {s : State} {id : Nat} {m : Cmd} (hcmd : tfind s.cmds id = some m)
include hcmd

/-- Where nothing is released and no object is being zeroed, a launch with a good descriptor starts at once, charged
for its header. -/
theorem State.startLaunch_chargeBytes (hzero : ∀ f, s.namesZeroing m.ctx f = false)
    (hreleased : (s.ctx m.ctx).released = []) (dev host : Nat) (d : Desc) (cont : State → Cmd → State) :
    (s.chargeBytes m.ctx dev host).startLaunch id m d cont = cont (s.chargeBytes m.ctx dev host) m := by
  have hcharged := (s.chargeBytes_onlyCmds m.ctx dev host).onlyFront
  have hgone : (s.chargeBytes m.ctx dev host).goneSegs id m d = [] := by
    simp [State.goneSegs, State.goneFor, hcharged.released, hreleased]
  simp only [State.startLaunch, hcharged.namesZeroing, hzero, hgone, State.chargeBytes_cmds, hcmd, Bool.false_eq_true,
    if_false]

variable {r : ReadRes} (hr : s.readVa (s.whoCmd m id 4) m.refusedSegs m.arg 64 = r) (hstop : r.stop = none)
  (hviol : r.viol.lines = 0) (hconst : (LaunchHeader.ofBytes r.bytes).constLen = 0)
include hr hstop hviol hconst

/-- A launch command whose header is read without a violation, is good and names no constant buffer has its
descriptor. -/
theorem State.withDesc_of_readVa {ok : LaunchHeader → Bool} (hok : ok (LaunchHeader.ofBytes r.bytes) = true)
    (cont : State → Cmd → Desc → State) : s.withDesc id m ok cont =
      cont (s.chargeBytes m.ctx r.dev r.host) m ((LaunchHeader.ofBytes r.bytes).desc []) := by
  rw [State.withDesc, State.cmdRead_of_readVa hcmd hr hstop hviol]
  simp only [hok, hconst, State.chargeBytes_cmds, hcmd, Bool.not_true, Bool.false_eq_true, if_false, if_true]

/-- LAUNCH on a queue with a bound launch is a work packet (R416). -/
theorem State.actLaunch_bound {l : Nat} (hbound : (s.queue m.queue).bound = some l)
    (hsched : s.scheduleRuns (s.ctx m.ctx).part = false) (hok : (LaunchHeader.ofBytes r.bytes).constOk = true) :
    s.actLaunch id m = (s.chargeBytes m.ctx r.dev r.host).setCmd id
      { m with desc := some ((LaunchHeader.ofBytes r.bytes).desc []), isPacket := true, acted := true } := by
  simp only [State.actLaunch, hbound, hsched, Bool.false_eq_true, if_false]
  exact State.withDesc_of_readVa hcmd hr hstop hviol hconst hok _

variable (hbound : (s.queue m.queue).bound = none) (hok : (LaunchHeader.ofBytes r.bytes).ok s.build.arrays = true)
  (hzero : ∀ f, s.namesZeroing m.ctx f = false) (hreleased : (s.ctx m.ctx).released = [])
include hbound hok hzero hreleased

/-- LAUNCH on a queue without a bound launch has its descriptor, of which dispatch makes the workgroups (R412). -/
theorem State.actLaunch_starts (hallowed : s.launchAllowed m ((LaunchHeader.ofBytes r.bytes).desc []) false = true)
    (hwgs : ((LaunchHeader.ofBytes r.bytes).desc []).workgroups ≠ 0) :
    s.actLaunch id m = (s.chargeBytes m.ctx r.dev r.host).setCmd id
      { m with desc := some ((LaunchHeader.ofBytes r.bytes).desc []), acted := true } := by
  simp only [State.actLaunch, hbound]
  rw [State.withDesc_of_readVa hcmd hr hstop hviol hconst hok, State.launchAllowed_chargeBytes, hallowed,
    if_neg (by decide), if_neg hwgs, State.startLaunch_chargeBytes hcmd hzero hreleased]

/-- LAUNCH_RESIDENT of one workgroup binds its launch to its queue (R415). -/
theorem State.actResident_starts (hallowed : s.launchAllowed m ((LaunchHeader.ofBytes r.bytes).desc []) true = true)
    (hwgs : ((LaunchHeader.ofBytes r.bytes).desc []).workgroups = 1) :
    s.actResident id m =
      (s.chargeBytes m.ctx r.dev r.host).bindResident id m ((LaunchHeader.ofBytes r.bytes).desc []) := by
  have hunbound : ((s.chargeBytes m.ctx r.dev r.host).queue m.queue).bound = none :=
    (congrArg Queue.bound ((s.chargeBytes_onlyCmds ..).queue _)).trans hbound
  rw [State.actResident, State.withDesc_of_readVa hcmd hr hstop hviol hconst hok, State.launchAllowed_chargeBytes,
    hallowed, hunbound, hwgs, if_neg (by decide), if_neg (by decide), State.startLaunch_chargeBytes hcmd hzero hreleased]
  generalize s.chargeBytes m.ctx r.dev r.host = t
  rfl

end

/-! ### LAUNCH_RESIDENT with STOP (R269, R418) -/

theorem bit_flags (w : Nat) : bit (fld w 15 8) 0 = bit w 8 := by
  simp [bit, fld]

theorem bit_flags_word (w : Nat) : bit (w % 65536) 8 = bit w 8 := by
  rw [bit, show (65536 : Nat) = 2 ^ 16 from rfl, Nat.testBit_mod_two_pow]
  rfl

section
variable {s : State} {q : Nat} {p : Packet} {rest : List Packet} (hs : s.starts q p rest = true)
  (hidle : s.startedCmds q = [])
include hs hidle

/-- On a queue that had no started command, the packet's command is the only one. -/
theorem State.eq_of_mem_startedCmds_begun {e : Nat × Cmd} (he : e ∈ (s.begun q p rest).startedCmds q) :
    e = (s.nextId, p.cmd q) := by
  rcases State.mem_startedCmds_begun hs he with h | hold
  · exact h
  · rw [hidle] at hold
    exact absurd hold List.not_mem_nil

theorem State.stopCmd_begun (hop : p.w0 % 256 = 3) (hflag : bit (fld p.w0 15 8) 0 = true) :
    (s.begun q p rest).stopCmd q = some (s.nextId, p.cmd q) := by
  refine find?_eq_some_of_unique (List.mem_filter.mpr ⟨(State.begun_cmds hs).2.1, decide_eq_true rfl⟩) ?_ fun e he _ =>
    State.eq_of_mem_startedCmds_begun hs hidle he
  exact Bool.and_eq_true_iff.mpr ⟨decide_eq_true hop, hflag⟩

/-- STOP waits for no packet where its queue had no started command, and completes where no launch is bound (R418). -/
theorem State.actStop_unbound (hop : p.w0 % 256 = 3) (hflag : bit (fld p.w0 15 8) 0 = true)
    (hbound : (s.queue q).bound = none) :
    (s.begun q p rest).actStop q = ((s.begun q p rest).acted s.nextId).finishCmd s.nextId := by
  have hacted := State.acted_of_tfind (State.tfind_begun hs)
  have hnone : (((s.begun q p rest).acted s.nextId).startedCmds q).any
      (fun e => e.1 < s.nextId && e.2.isPacket && !e.2.delivered) = false := by
    refine List.any_eq_false.mpr fun e he => ?_
    rw [hacted] at he
    obtain ⟨hin, hqueue⟩ := List.mem_filter.mp he
    have hid : e.1 = s.nextId := by
      rcases mem_of_mem_tput hin with rfl | hold
      · rfl
      · exact congrArg Prod.fst (State.eq_of_mem_startedCmds_begun hs hidle (List.mem_filter.mpr ⟨hold, hqueue⟩))
    simp [hid]
  have hunbound : (((s.begun q p rest).acted s.nextId).queue q).bound = none := by
    rw [hacted, (State.setCmd_onlyCmds ..).queue, State.queue_begun, Queue.take_bound, hbound]
  simp only [State.actStop, State.stopCmd_begun hs hidle hop hflag, hnone, hunbound, Bool.false_eq_true, if_false]

theorem exec_launchResidentStop (hm : p.malformed = false) (hop : p.w0 % 256 = 3) (hflag : bit (fld p.w0 15 8) 0 = true)
    (hbound : (s.queue q).bound = none) : exec (.launchResidentStop q) s =
      .next (((s.begun q p rest).acted s.nextId).finishCmd s.nextId) := by
  obtain ⟨hup, -, -, -, -, -⟩ := State.starts_iff.mp hs
  have hrow : (isQ 3 p.w0 && bit p.w0 8) = true := by rw [isQ_of_op hop, ← bit_flags, hflag]; rfl
  have hstop : s.stopCmd q = none := by rw [State.stopCmd, hidle]; rfl
  refine congrArg Host.Outcome.next ((State.work_of_up hup _).trans ?_)
  simp only [hstop, Option.isSome_none, Bool.false_eq_true, if_false]
  rw [State.startHead_of_starts hs (row := fun w => isQ 3 w && bit w 8) hrow hm]
  exact State.actStop_unbound hs hidle hop hflag hbound

end

/-! ### The delivery of a work packet (R268, R418) -/

/-- A launch whose QWAIT has ended with work packet `k`: registers `sd` and `sp` are written, its arrays are bound and
cleared, and a new replay unit begins (R268, R710). -/
def Launch.received (l : Launch) (sd sp k : Nat) (d : Desc) (bound : List Nat) (fold : Option (Nat × Nat)) (now : Nat) :
    Launch :=
  let x := { l.x with regs := (l.x.regs.setS sd 0).setS sp d.arg, consts := d.consts,
                      arrs := clearedArrays l.desc.arrays bound.length }
  { l with x := x, status := .running, qwait := none, stopWait := false, bound := bound, fold := fold, packet := some k,
           chargedAt := now, unit := x, unitSems := l.sems }

theorem State.deliver_packet {s : State} {id e n sd sp k : Nat} {l : Launch} {m : Cmd} {bound : List Nat}
    {fold : Option (Nat × Nat)} (hl : tfind s.launches id = some l) (hp : l.place = .slot e n)
    (hwait : l.qwait = some (sd, sp, none)) (hstatus : l.status = .waiting) (hstop : l.stopWait = false)
    (hnext : s.nextPacket l.queue = some (k, m)) (hbind : s.bindFor e l.desc.arrays = some (bound, fold)) :
    ∃ ctxs owed ch, s.deliver id = ({ s with ctxs := ctxs }.setCmd k { m with delivered := true }).setLaunch id
      ((l.charged s.now owed ch).received sd sp k (m.desc.getD {}) bound fold s.now) := by
  obtain ⟨ctxs, owed, ch, hcharge⟩ := State.chargeLaunch_inSlot hl hp
  refine ⟨ctxs, owed, ch, ?_⟩
  simp only [State.deliver, hl, hp, hwait, hstatus, hstop, hnext, hbind, hcharge, State.setCmd_setLaunch,
    State.modLaunch_setLaunch]
  rfl

theorem Regs.getS_setS_ne {i j : Nat} (r : Regs) (v : Nat) (h : i ≠ j) : (r.setS j v).getS i = r.getS i := by
  unfold Regs.setS
  split
  · rfl
  · simp [Regs.getS, tget_tput_ne _ _ _ h]

/-- Register 0 reads zero whatever is written to it (R162). -/
theorem Regs.getS_setS_same (r : Regs) (i v : Nat) : (r.setS i v).getS i = if i = 0 then 0 else v % 2 ^ 64 := by
  by_cases h : i = 0
  · rw [if_pos h, Regs.getS, if_pos h]
  · rw [if_neg h, Regs.getS_setS r v h]

/-! ### The obligation -/

section
variable {s : State} {q : Nat} {p : Packet} {rest : List Packet} (hs : s.starts q p rest = true)
  (hm : p.malformed = false)
include hs hm

theorem exec_launch (hop : p.w0 % 256 = 2) :
    exec (.launch q) s = .next ((s.begun q p rest).actLaunch s.nextId (p.cmd q)) :=
  State.next_qRow_isQ hs hm hop (alone := false) nofun fun s id m => s.actLaunch id m

theorem exec_launchResident (hop : p.w0 % 256 = 3) (hflag : bit (fld p.w0 15 8) 0 = false) :
    exec (.launchResident q) s = .next ((s.begun q p rest).actResident s.nextId (p.cmd q)) :=
  State.next_qRow_of_starts hs hm (row := fun w => isQ 3 w && !bit w 8) (alone := false)
    (by rw [isQ_of_op hop, ← bit_flags, hflag]; rfl)
    (by rw [isQ_word, isQ_of_op hop, bit_flags_word, ← bit_flags, hflag]; rfl) nofun fun s id m => s.actResident id m

end

theorem exec_workPacketDeliver {s : State} {q id : Nat} (hup : s.up = true) (hbound : (s.queue q).bound = some id) :
    exec (.workPacketDeliver q) s = .next (s.deliver id) := by
  refine congrArg Host.Outcome.next ((State.work_of_up hup _).trans ?_)
  simp only [hbound]

/-- Settles O34: a packet that starts acts in `State.begun`, which allows what the state before allowed;
`State.bindResident` is what a LAUNCH_RESIDENT leaves, and `State.deliver_packet` gives the launch that a packet
reaches. -/
theorem queueLaunches : Obligations.QueueLaunches := by
  refine ⟨?launch, ?packet, ?resident, ?stop, ?deliver⟩
  case launch =>
    intro s q p rest b r hs hm hop hbegun hbound hr hstop hviol hok hconst hallowed hwgs hzero hreleased
    subst hbegun
    have hb := s.begun_onlyFront q p rest
    rw [exec_launch hs hm hop, State.actLaunch_starts (State.tfind_begun hs) hr hstop hviol hconst hbound
      (hb.build ▸ hok) (fun f => (hb.namesZeroing _ f).trans (hzero f)) ((hb.released _).trans hreleased)
      ((s.launchAllowed_begun q p rest _ _).trans hallowed) hwgs]
    rfl
  case packet =>
    intro s q l p rest b r hs hm hop hbegun hbound hsched hr hstop hviol hok hconst
    subst hbegun
    have hb := s.begun_onlyFront q p rest
    have hpart : ((s.begun q p rest).ctx (q / 8)).part = (s.ctx (q / 8)).part := (congrArg Context.part (hb.ctx _) :)
    have hfree : (s.begun q p rest).scheduleRuns ((s.begun q p rest).ctx (q / 8)).part = false := by
      rw [hpart, hb.scheduleRuns, hsched]
    rw [exec_launch hs hm hop, State.actLaunch_bound (State.tfind_begun hs) hr hstop hviol hconst hbound hfree hok]
    rfl
  case resident =>
    intro s q p rest b r hs hm hop hflag hbegun hbound hr hstop hviol hok hconst hallowed hwgs hzero hreleased
    subst hbegun
    have hb := s.begun_onlyFront q p rest
    have hcharged := State.chargeBytes_onlyCmds (s.begun q p rest) (q / 8) r.dev r.host
    have hall := hb.trans hcharged.onlyFront
    have hid : ((s.begun q p rest).chargeBytes (q / 8) r.dev r.host).nextId = s.nextId + 1 :=
      (congrArg State.nextId hcharged.frame :).trans (s.nextId_begun q p rest)
    have hact := State.actResident_starts (State.tfind_begun hs) hr hstop hviol hconst hbound
      (hb.build ▸ hok) (fun f => (hb.namesZeroing _ f).trans (hzero f)) ((hb.released _).trans hreleased)
      ((s.launchAllowed_begun q p rest _ _).trans hallowed) hwgs
    obtain ⟨hmem, hobjs, hfences, hengines⟩ := ((s.begun q p rest).chargeBytes (q / 8) r.dev r.host).bindResident_leaves
      s.nextId (p.cmd q) ((LaunchHeader.ofBytes r.bytes).desc [])
    refine ⟨_, (exec_launchResident hs hm hop hflag).trans (congrArg Host.Outcome.next hact), ?_, ?_,
      hmem.trans hall.mem, hobjs.trans hall.objs, hfences.trans hall.fences,
      hengines.trans (congrArg State.engines hall.frame :)⟩
    · exact hid ▸ State.bindResident_bound ..
    · exact hid ▸ State.bindResident_launch ..
  case stop =>
    intro s q p rest hs hm hop hflag hidle hbound
    exact exec_launchResidentStop hs hidle hm hop hflag hbound
  case deliver =>
    intro s q id e k sd sp n l m bound fold hup hqueue hlq hl hp hwait hstatus hstop hnext hbind
    obtain ⟨ctxs, owed, ch, hdeliver⟩ := State.deliver_packet hl hp hwait hstatus hstop (hlq ▸ hnext) hbind
    refine ⟨_, _, (exec_workPacketDeliver hup hqueue).trans (congrArg Host.Outcome.next hdeliver),
      State.tfind_setLaunch .., rfl, rfl, rfl, rfl, rfl, rfl, Regs.getS_setS_same .., fun hne => ?_, rfl, rfl, rfl, rfl⟩
    refine (Regs.getS_setS_ne _ _ hne).trans ((Regs.getS_setS_same ..).trans ?_)
    exact ite_self _

end Sys2Proof.Machine
end

section
/-! The segment family (chapter 9): mapping requests, withdrawals and miss queues (R430 to R458, R468). -/

namespace Sys2Proof.Machine

/-! ### Requests on a segment table (R432 to R439) -/

section
variable (s : State) (fn : Fn) (op : Nat) (tag : BitVec 16)

@[simp] theorem State.asked_seg : ((s.asked fn op tag).block fn).seg = (s.block fn).seg := by
  simp [ObjBlock.seg]
@[simp] theorem State.obj_asked (i : Nat) : (s.asked fn op tag).obj i = s.obj i := rfl
@[simp] theorem State.part_asked (p : Nat) : (s.asked fn op tag).part p = s.part p := rfl
@[simp] theorem State.ctxs_asked : (s.asked fn op tag).ctxs = s.ctxs := rfl
@[simp] theorem State.launches_asked : (s.asked fn op tag).launches = s.launches := rfl
@[simp] theorem State.segFaults_asked : (s.asked fn op tag).segFaults = s.segFaults := rfl
@[simp] theorem State.tableOwner_asked (c : Nat) : (s.asked fn op tag).tableOwner c = s.tableOwner c := rfl
@[simp] theorem State.ctxValid_asked (h : BitVec 32) : (s.asked fn op tag).ctxValid h = s.ctxValid h := rfl
@[simp] theorem State.objValid_asked (c : Nat) (h : BitVec 32) (at_ : QPos) :
    (s.asked fn op tag).objValid c h at_ = s.objValid c h at_ := rfl
@[simp] theorem State.scheduleRuns_asked (p : Nat) : (s.asked fn op tag).scheduleRuns p = s.scheduleRuns p := rfl

end

/-- A descriptor that replaces none stands in the table, and the request ends at once: nothing is to be withdrawn (R435). -/
theorem State.putSeg_of_unmapped {s : State} {c i : Nat} (h : ((s.ctx c).seg i).pages = 0) (fn : Fn) (g : Seg) :
    s.putSeg fn c i g = (s.setCtx c { s.ctx c with segs := tput (s.ctx c).segs i g }).reqDone fn 0 0 0 :=
  if_neg fun hold => hold.1 h

section
variable {s : State} {fn : Fn} {tag : BitVec 16} {c : Nat} (hctx : s.reqCtx fn (fld (s.block fn).a0 31 0) = (0, c))
  (hshare : (s.ctx c).shareOf = none)
include hctx hshare

/-- A context that shares no table and is in an allowed state has its own table changed (R436, R439). -/
theorem State.onTable_asked {ok : CtxState → Bool} (hstate : ok (s.ctx c).state = true) (op : Nat) (tag : BitVec 16)
    (run : State → Nat → State) : (s.asked fn op tag).onTable fn ok run = run (s.asked fn op tag) c := by
  simp [State.onTable, hctx, hshare, hstate]

variable (hup : s.up = true)
include hup

/-- A new descriptor stands in the table at once; what had faulted on its segment goes on if it is PRESENT (R434, R455). -/
theorem exec_segMap_new (hask : s.mayAsk fn 0x0C = true) (hlive : (s.ctx c).state = .live)
    (hobj : s.objValid c (BitVec.ofNat 32 (fld (s.block fn).a2 31 0)) none = true)
    (hold : ((s.ctx c).seg (s.block fn).seg).pages = 0) (hpages : (s.newSeg fn c).pages ≠ 0)
    (hplain : (s.ctx c).mapPlainBad (s.block fn).seg (s.newSeg fn c) = false)
    (hobject : (s.ctx c).mapObjBad (s.block fn).seg (s.newSeg fn c) (fld (s.block fn).a2 55 32)
      (s.obj (hIndex (BitVec.ofNat 32 (fld (s.block fn).a2 31 0)))).size = false) :
    exec (.segMap fn tag) s = .next
      (if (s.newSeg fn c).present then
        (((s.asked fn 0x0C tag).setCtx c { s.ctx c with
          segs := tput (s.ctx c).segs (s.block fn).seg (s.newSeg fn c) }).reqDone fn 0 0 0).segResolveAll c
            (s.block fn).seg false
      else ((s.asked fn 0x0C tag).setCtx c { s.ctx c with
        segs := tput (s.ctx c).segs (s.block fn).seg (s.newSeg fn c) }).reqDone fn 0 0 0) := by
  refine (State.work_request_of_mayAsk hask hup tag _).trans (congrArg Host.Outcome.next ?_)
  rw [State.reqSegMap, State.onTable_asked hctx hshare (ok := (· == .live)) (beq_iff_eq.mpr hlive)]
  simp only [State.newSeg] at hpages hplain hobject ⊢
  simp only [State.asked_seg, State.asked_a0, State.asked_a1, State.asked_a2, State.ctx_asked, State.obj_asked,
    State.objValid_asked, hobj, hold, hpages, hplain, hobject, State.putSeg_of_unmapped, ne_eq, not_true_eq_false,
    false_and, and_false, if_false, Bool.not_true, Bool.false_eq_true]
  rfl

section
variable (hstate : liveOrLost (s.ctx c).state = true)
include hstate

theorem exec_segUnmap_unmapped (hask : s.mayAsk fn 0x0D = true) (hold : ((s.ctx c).seg (s.block fn).seg).pages = 0) :
    exec (.segUnmap fn tag) s = .next ((s.asked fn 0x0D tag).reqDone fn 0 0 0) := by
  refine (State.work_request_of_mayAsk hask hup tag _).trans (congrArg Host.Outcome.next ?_)
  rw [State.reqSegUnmap, State.onTable_asked hctx hshare hstate]
  simp only [State.asked_seg, State.ctx_asked, if_pos hold]

/-- A mapped segment leaves the table, and its request waits for the withdrawal of its translation (R436, R447). -/
theorem exec_segUnmap_mapped (hask : s.mayAsk fn 0x0D = true) (hold : ((s.ctx c).seg (s.block fn).seg).pages ≠ 0)
    (hsched : s.scheduleRuns (s.ctx c).part = false) {r : Nat × State}
    (hr : State.withdraw ((s.asked fn 0x0D tag).setCtx c { s.ctx c with segs := tdel (s.ctx c).segs (s.block fn).seg }) c
      (s.block fn).seg ((s.ctx c).seg (s.block fn).seg) (.request fn) = r) :
    exec (.segUnmap fn tag) s = .next ((r.2.setBlock fn { r.2.block fn with waits := [r.1] }).segResolveAll c
      (s.block fn).seg false) := by
  refine (State.work_request_of_mayAsk hask hup tag _).trans (congrArg Host.Outcome.next ?_)
  rw [State.reqSegUnmap, State.onTable_asked hctx hshare hstate]
  simp only [State.asked_seg, State.ctx_asked, State.scheduleRuns_asked, State.modCtx, hold, hsched, hr]
  rfl

/-- The faults that pend on a segment are refused, whichever sharer of the table they are of (R455). -/
theorem exec_segRefuse_pending (hask : s.mayAsk fn 0x0E = true) {f : SegFault} (hf : f ∈ s.segFaults)
    (howner : s.tableOwner f.ctx = c) (hseg : f.seg = (s.block fn).seg) : exec (.segRefuse fn tag) s =
      .next (((s.asked fn 0x0E tag).reqDone fn 0 0 0).segResolveAll c (s.block fn).seg true) := by
  have hpending : (s.segFaults.any fun f => s.tableOwner f.ctx = c && f.seg = (s.block fn).seg) = true :=
    List.any_eq_true.mpr ⟨f, hf, by simp [howner, hseg]⟩
  refine (State.work_request_of_mayAsk hask hup tag _).trans (congrArg Host.Outcome.next ?_)
  rw [State.reqSegRefuse, State.onTable_asked hctx hshare hstate]
  simp only [State.asked_seg, State.segFaults_asked, State.tableOwner_asked]
  exact if_pos hpending

end

end

/-! ### Requests on a live context (R438, R458) -/

section
variable {s : State} {fn : Fn} {tag : BitVec 16} {c : Nat} (hup : s.up = true)
  (hctx : s.reqCtx fn (s.block fn).a0 = (0, c)) (hlive : (s.ctx c).state = .live)
include hup hctx hlive

/-- The null handle takes the undo area from a context with no launch dispatched (R458). -/
theorem exec_undoSet_null (hask : s.mayAsk fn 0x0F = true) (hnull : (s.block fn).a1 = 0) (hidle : s.launches = []) :
    exec (.undoSet fn tag) s = .next (((s.asked fn 0x0F tag).setCtx c { s.ctx c with undo :=
      { (s.ctx c).undo with object := 0, base := 0, slots := 0 } }).reqDone fn 0 0 0) := by
  refine (State.work_request_of_mayAsk hask hup tag _).trans (congrArg Host.Outcome.next ?_)
  rw [State.reqUndoSet, State.onLive_asked hctx hlive]
  simp only [State.asked_a1, State.launches_asked, hnull, hidle]
  rfl

/-- A context that maps nothing and lends its table to none shares the table of another of its VF and partition (R438). -/
theorem exec_segShare {d : Nat} (hask : s.mayAsk fn 0x10 = true) (hd : hIndex (BitVec.ofNat 32 (s.block fn).a1) = d)
    (hvalid : s.ctxValid (BitVec.ofNat 32 (s.block fn).a1) = true) (hne : c ≠ d)
    (hpart : (s.part (s.ctx c).part).validated = true) (hlive' : (s.ctx d).state = .live)
    (hvf : (s.ctx c).vf = (s.ctx d).vf) (hparts : (s.ctx c).part = (s.ctx d).part) (hshare : (s.ctx d).shareOf = none)
    (hsegs : (s.ctx c).segs = []) (hlent : ∀ e ∈ s.ctxs, e.2.shareOf ≠ some c) : exec (.segShare fn tag) s =
      .next (((s.asked fn 0x10 tag).setCtx c { s.ctx c with shareOf := some d }).reqDone fn 0 0 0) := by
  have hunmapped : ((List.range 16).any fun i => ((s.ctx c).seg i).pages != 0) = false := by
    simp only [Context.seg, hsegs]
    rfl
  have hlender : (s.ctxs.any fun e => e.2.shareOf == some c) = false :=
    List.any_eq_false.mpr fun e he => beq_iff_eq.not.mpr (hlent e he)
  refine (State.work_request_of_mayAsk hask hup tag _).trans (congrArg Host.Outcome.next ?_)
  rw [State.reqSegShare, State.onLive_asked hctx hlive]
  simp only [State.asked_a1, State.ctx_asked, State.ctxValid_asked, State.part_asked, State.ctxs_asked, hd]
  simp [hvalid, hne, hpart, hlive', hvf, ← hparts, hshare, hunmapped, hlender]

end

/-! ### Segment caches and withdrawals (R443 to R451) -/

section
variable {s : State} (hup : s.up = true)
include hup

theorem exec_segMissFill_absent {c i : Nat} (k : CacheId)
    (h : ((s.ctx (s.tableOwner c)).seg i).present = false) :
    exec (.segMissFill k c i) s = .next { s with fe := { s.fe with segMiss := bump s.fe.segMiss 1 } } := by
  refine congrArg Host.Outcome.next ((State.work_of_up hup _).trans ?_)
  simp only [h, Bool.not_false, or_true, if_true]

/-- A cache takes a mapped and PRESENT segment in and keeps at most 64; the other caches stay (R443, R444). -/
theorem exec_segMissFill_present {c i : Nat} (k : CacheId)
    (hpresent : ((s.ctx (s.tableOwner c)).seg i).present = true)
    (hpages : ((s.ctx (s.tableOwner c)).seg i).pages ≠ 0) :
    ∃ tags, (s.tableOwner c, i) ∈ tags ∧ tags.length ≤ 64 ∧ exec (.segMissFill k c i) s = .next
      { s with fe := { s.fe with segMiss := bump s.fe.segMiss 1 },
               caches := ⟨k, tags⟩ :: s.caches.filter fun g => g.who ≠ k } := by
  refine ⟨((s.tableOwner c, i) :: (((s.caches.find? fun g => g.who = k).map (·.tags)).getD []).filter fun t =>
    t ≠ (s.tableOwner c, i)).take 64, List.mem_cons_self, List.length_take_le 64 _,
    congrArg Host.Outcome.next ((State.work_of_up hup _).trans ?_)⟩
  simp only [hpresent, hpages]
  rfl

theorem exec_withdrawalAck_engine {w e : Nat} (hack : s.mayAck w (.engine e) = true) :
    exec (.withdrawalAck w (.engine e)) s = .next (s.cacheAck w (.engine e)) := by
  refine congrArg Host.Outcome.next ((State.work_of_up hup _).trans ?_)
  simp only [hack, Bool.not_false, Bool.and_self, if_true]

/-- A withdrawal that every cache has acknowledged and that nothing waits for leaves room for the next broadcast (R447,
R451). -/
theorem exec_withdrawalComplete_acknowledged {w : Nat} {d : Withdrawal} (hw : tfind s.withdrawals w = some d)
    (hbroadcast : d.broadcast = true) (hwaiting : d.waiting = []) (hwhy : d.why = []) :
    exec (.withdrawalComplete w) s = .next (State.broadcastNext
      { s with withdrawals := tdel s.withdrawals w, fe := { s.fe with inval := bump s.fe.inval 1 } }) := by
  refine congrArg Host.Outcome.next ((State.work_of_up hup _).trans ?_)
  simp only [State.withdrawalDone, hw, hbroadcast, hwaiting, hwhy]
  rfl

theorem exec_invalAckTimeout_waiting {w : Nat} {d : Withdrawal} {k : CacheId} (hw : tfind s.withdrawals w = some d)
    (hbroadcast : d.broadcast = true) (hk : k ∈ d.waiting) : exec (.invalAckTimeout w k) s = .next (s.ackLate w k) := by
  refine congrArg Host.Outcome.next ((State.work_of_up hup _).trans ?_)
  simp only [hw, hbroadcast, List.contains_iff_mem.mpr hk, Bool.and_self, if_true]

end

/-! ### Miss queues (R453 to R457, R468) -/

/-- A miss queue after one more record. -/
def MissQ.next (q : MissQ) : MissQ := { q with tail := (q.tail + 1) % 2 ^ 32, seq := (q.seq + 1) % 2 ^ 32 }

/-- The record of a fault stands at the tail of the ring of its function's miss queue, and the fault is posted. -/
def State.postRecord (s : State) (fn : Fn) (f : SegFault) : State :=
  let t := (s.hostWrite ((s.missq fn).base + 32 * ((s.missq fn).tail % 2 ^ (s.missq fn).sizeLog2))
    (s.missRecord f ((s.missq fn).seq + 1))).setMissq fn (s.missq fn).next
  { t with segFaults := t.segFaults.map fun g => if g = f then { g with posted := true } else g }

theorem State.hostMem_postRecord (s : State) (fn : Fn) (f : SegFault) : (s.postRecord fn f).hostMem =
    mwriteN s.hostMem ((s.missq fn).base + 32 * ((s.missq fn).tail % 2 ^ (s.missq fn).sizeLog2))
      (s.missRecord f ((s.missq fn).seq + 1)) := rfl

@[simp] theorem State.missq_postRecord (s : State) (fn : Fn) (f : SegFault) :
    (s.postRecord fn f).missq fn = (s.missq fn).next :=
  tget_tput ..

theorem State.setMissq_hostWrite (s : State) (a : Nat) (bs : List Byte) (fn : Fn) (q : MissQ) :
    (s.hostWrite a bs).setMissq fn q =
      { s with hostMem := mwriteN s.hostMem a bs, missqs := tput s.missqs (fnKey fn) q } := rfl

/-- But for host memory, the miss queues and the pending faults, a record changes nothing. -/
theorem State.postRecord_frame (s : State) (fn : Fn) (f : SegFault) :
    { s.postRecord fn f with hostMem := s.hostMem, missqs := s.missqs, segFaults := s.segFaults } = s := by
  rw [State.postRecord, State.setMissq_hostWrite]

/-- A ring that is not empty takes a record without an interrupt (R457). -/
theorem exec_segFaultRecordPost_nonempty {s : State} {fn : Fn} {f : SegFault} (hup : s.up = true)
    (hf : s.segFaults.find? (fun f => f.fn = fn && !f.posted) = some f) (henable : (s.missq fn).enable = true)
    (hposted : (s.segFaults.filter fun f => f.fn = fn && f.posted).length < 64)
    (hroom : ahead32 (s.missq fn).head (s.missq fn).tail < 2 ^ (s.missq fn).sizeLog2)
    (hused : ahead32 (s.missq fn).head (s.missq fn).tail ≠ 0) :
    exec (.segFaultRecordPost fn) s = .next (s.postRecord fn f) := by
  have hposts : ¬(!(s.missq fn).enable || decide (64 ≤ (s.segFaults.filter fun f => f.fn = fn && f.posted).length) ||
      decide (2 ^ (s.missq fn).sizeLog2 ≤ ahead32 (s.missq fn).head (s.missq fn).tail)) = true := by
    simp only [henable, Nat.not_le.mpr hposted, Nat.not_le.mpr hroom, Bool.not_true, decide_false, Bool.or_self,
      Bool.false_eq_true, not_false_eq_true]
  refine congrArg Host.Outcome.next ((State.work_of_up hup _).trans ?_)
  rw [hf]
  exact (if_neg hposts).trans (if_neg hused)

theorem exec_segFaultTimeout_posted {s : State} {c i : Nat} {f : SegFault} (hup : s.up = true)
    (hf : s.segFaults.find? (fun f => f.ctx = c && f.seg = i && f.posted) = some f) :
    exec (.segFaultTimeout c i) s = .next (s.segResolve f true) := by
  refine congrArg Host.Outcome.next ((State.work_of_up hup _).trans ?_)
  simp only [hf]

/-- Only a hub that is up decodes an access of its BARs. -/
theorem State.up_of_decodes {s : State} {fn : Fn} (h : s.decodes fn = true) : s.up = true := by
  unfold State.decodes at h
  exact (Bool.and_eq_true_iff.mp (Bool.and_eq_true_iff.mp h).1).1

section
variable {s : State} {fn : Fn} (hdec : s.decodes fn = true) (hfw : s.fwRuns = true)
include hdec hfw

/-- HEAD moves on within the records that stand in the ring (R468). -/
theorem exec_missqHeadWrite_forward {v : BitVec 64}
    (h : ahead32 (fld v.toNat 31 0) (s.missq fn).tail ≤ ahead32 (s.missq fn).head (s.missq fn).tail) :
    exec (.missqHeadWrite fn v) s = .next (s.setMissq fn { s.missq fn with head := fld v.toNat 31 0 }) := by
  refine congrArg Host.Outcome.next ((State.work_of_up (State.up_of_decodes hdec) _).trans ?_)
  simp only [hdec, hfw, h, decide_true, Bool.and_self, if_true]

theorem exec_missqCtrlWrite (v : BitVec 64) :
    exec (.missqCtrlWrite fn v) s = .next (s.setMissq fn ((s.missq fn).ctrl v.toNat)) := by
  refine congrArg Host.Outcome.next ((State.work_of_up (State.up_of_decodes hdec) _).trans ?_)
  simp only [hdec, hfw, Bool.and_self, if_true]

end

/-- A miss queue that is not enabled takes the size written, and is enabled only with a legal one (R468). -/
theorem MissQ.ctrl_of_disabled {q : MissQ} (h : q.enable = false) (v : Nat) : q.ctrl v =
    { q with timeoutMs := if 1 ≤ fld v 31 16 ∧ fld v 31 16 ≤ 10000 then fld v 31 16 else q.timeoutMs,
             sizeLog2 := fld v 4 0,
             enable := bit v 8 && decide (4 ≤ fld v 4 0) && decide (fld v 4 0 ≤ 16) } := by
  simp only [MissQ.ctrl, h]
  rfl

/-! ### The obligation -/

/-- Settles O25: `State.onTable_asked` leads each mapping request to its context's table; `State.postRecord` is what a
miss record leaves, and `MissQ.ctrl_of_disabled` what a write of MISSQ_CTRL leaves of an idle miss queue. -/
theorem segmentCommands : Obligations.SegmentCommands := by
  refine ⟨?unmapNothing, ?unmap, ?map, ?refuse, ?undo, ?share, ?missAbsent, ?missPresent, ?ack, ?complete, ?late,
    ?record, ?timeout, ?head, ?ctrl⟩
  case unmapNothing =>
    intro s fn tag c hup hask hctx hshare hstate hold
    exact exec_segUnmap_unmapped hctx hshare hup hstate hask hold
  case unmap =>
    intro s fn tag c hup hask hctx hshare hstate hold hsched
    exact ⟨_, rfl, exec_segUnmap_mapped hctx hshare hup hstate hask hold hsched rfl⟩
  case map =>
    intro s fn tag c hup hask hctx hshare hlive hobj hold hpages hplain hobject
    exact ⟨_, rfl, exec_segMap_new hctx hshare hup hask hlive hobj hold hpages hplain hobject⟩
  case refuse =>
    intro s fn tag c f hup hask hctx hshare hstate hf howner hseg
    exact exec_segRefuse_pending hctx hshare hup hstate hask hf howner hseg
  case undo =>
    intro s fn tag c hup hask hctx hlive hnull hidle
    exact exec_undoSet_null hup hctx hlive hask hnull hidle
  case share =>
    intro s tag c d hup hask hctx hlive hd hvalid hne hpart hlive' hvf hparts hshare hsegs hlent
    exact exec_segShare hup hctx hlive hask hd hvalid hne hpart hlive' hvf hparts hshare hsegs hlent
  case missAbsent =>
    intro s k c i hup habsent
    exact exec_segMissFill_absent hup k habsent
  case missPresent =>
    intro s k c i hup hpresent hpages
    obtain ⟨tags, hmem, hlen, hfill⟩ := exec_segMissFill_present hup k hpresent hpages
    refine ⟨_, hfill, rfl, ⟨⟨k, tags⟩, List.mem_cons_self, rfl, hmem, hlen⟩, fun g hg hne => ?_, rfl⟩
    exact List.mem_cons_of_mem _ (List.mem_filter.mpr ⟨hg, decide_eq_true hne⟩)
  case ack =>
    intro s w e hup hack
    exact exec_withdrawalAck_engine hup hack
  case complete =>
    intro s w d hup hw hbroadcast hwaiting hwhy
    exact exec_withdrawalComplete_acknowledged hup hw hbroadcast hwaiting hwhy
  case late =>
    intro s w d k hup hw hbroadcast hk
    exact exec_invalAckTimeout_waiting hup hw hbroadcast hk
  case record =>
    intro s fn f hup hf henable hposted hroom hused
    exact ⟨_, exec_segFaultRecordPost_nonempty hup hf henable hposted hroom hused, s.hostMem_postRecord fn f,
      s.missq_postRecord fn f, s.postRecord_frame fn f⟩
  case timeout =>
    intro s c i f hup hf
    exact exec_segFaultTimeout_posted hup hf
  case head =>
    intro s fn v hdec hfw h
    exact exec_missqHeadWrite_forward hdec hfw h
  case ctrl =>
    intro s fn v hdec hfw hdisabled
    rw [exec_missqCtrlWrite hdec hfw, MissQ.ctrl_of_disabled hdisabled]

end Sys2Proof.Machine
end

section
/-! The family of pooled scheduling (chapter 10): dispatch rounds and time slices (R483 to R491, R499, R517), and contexts
switched out and in (R476, R479, R495, R497). -/

namespace Sys2Proof.Machine

/-! ### What a look at the contexts leaves (R471, R474) -/

/-- From `s` to `t` only contexts and launches have changed. -/
def State.OnlyLooked (s t : State) : Prop := t = { s with ctxs := t.ctxs, launches := t.launches }

theorem State.OnlyLooked.refl (s : State) : s.OnlyLooked s := rfl

theorem State.OnlyLooked.trans {s t u : State} (h : s.OnlyLooked t) (g : t.OnlyLooked u) : s.OnlyLooked u :=
  Eq.trans g (congrArg (fun z : State => { z with ctxs := u.ctxs, launches := u.launches }) h)

theorem State.chargeLaunch_onlyLooked (s : State) (id : Nat) : s.OnlyLooked (s.chargeLaunch id) := by
  unfold State.chargeLaunch
  split
  · rfl
  · split <;> rfl

theorem State.credit_spec (s : State) (c : Nat) : s.credit c = s ∨
    ∃ f : Account → Account, s.credit c = s.modCtx c fun x => { x with acct := f x.acct } := by
  unfold State.credit
  extract_lets p others
  split
  · exact .inl rfl
  · exact .inr ⟨fun a => { a with vtime := _ }, rfl⟩

theorem State.credit_onlyLooked (s : State) (c : Nat) : s.OnlyLooked (s.credit c) := by
  rcases s.credit_spec c with h | ⟨f, h⟩ <;> rw [h] <;> rfl

theorem State.look_onlyLooked (s : State) (p : Nat) : s.OnlyLooked (s.look p) := by
  refine keeps_foldl (P := s.OnlyLooked) (fun t c ht => ht.trans ?_)
    (keeps_foldl (P := s.OnlyLooked) (fun t id ht => ht.trans (t.chargeLaunch_onlyLooked id)) (.refl s))
  extract_lets st idle
  split
  · rfl
  · split
    · exact (t.credit_onlyLooked c).trans rfl
    · rfl

@[simp] theorem State.part_look (s : State) (p q : Nat) : (s.look p).part q = s.part q :=
  (congrArg (fun z : State => z.part q) (s.look_onlyLooked p) :)

@[simp] theorem State.now_look (s : State) (p : Nat) : (s.look p).now = s.now :=
  (congrArg State.now (s.look_onlyLooked p) :)

@[simp] theorem State.nextId_look (s : State) (p : Nat) : (s.look p).nextId = s.nextId :=
  (congrArg State.nextId (s.look_onlyLooked p) :)

/-! ### What a dispatch round may change -/

/-- From `s` to `t` only what dispatch works on has changed: contexts, commands, launches, engines, and the chiplet ports
with what is sent on them. -/
def State.OnlyDispatched (s t : State) : Prop :=
  t = { s with ctxs := t.ctxs, cmds := t.cmds, launches := t.launches, engines := t.engines, cps := t.cps, out := t.out,
               nextId := t.nextId }

theorem State.OnlyDispatched.refl (s : State) : s.OnlyDispatched s := rfl

theorem State.OnlyDispatched.trans {s t u : State} (h : s.OnlyDispatched t) (g : t.OnlyDispatched u) : s.OnlyDispatched u :=
  Eq.trans g (congrArg (fun z : State =>
    { z with ctxs := u.ctxs, cmds := u.cmds, launches := u.launches, engines := u.engines, cps := u.cps, out := u.out,
             nextId := u.nextId }) h)

theorem State.OnlyDispatched.memories {s t : State} (h : s.OnlyDispatched t) :
    t.mem = s.mem ∧ t.hostMem = s.hostMem ∧ t.objs = s.objs ∧ t.fences = s.fences :=
  ⟨(congrArg State.mem h :), (congrArg State.hostMem h :), (congrArg State.objs h :), (congrArg State.fences h :)⟩

theorem State.OnlyLooked.onlyDispatched {s t : State} (h : s.OnlyLooked t) : s.OnlyDispatched t := by
  rw [h]
  rfl

theorem State.cppSend_spec (s : State) (port op : Nat) (m : CppMsg) : ∃ cps out,
    s.cppSend port op m = { s with cps := cps, out := out } := by
  unfold State.cppSend
  extract_lets p cls behind
  split
  · split
    · exact ⟨_, s.out, rfl⟩
    · exact ⟨_, _, rfl⟩
  · exact ⟨_, s.out, rfl⟩

theorem State.feDispatch_spec (s : State) (i c : Nat) (cmd : Option Nat) (step : Option (Nat × Nat)) (wg : Nat) (d : Desc) :
    ∃ cps out, s.feDispatch i c cmd step wg d = { s with cps := cps, out := out } := by
  obtain ⟨cps, out, h⟩ := State.cppSend_spec _ _ _ _
  exact ⟨cps, out, h⟩

/-- A foreign engine is given a workgroup over its chiplet port (R527). -/
theorem State.foreignOne_spec {s t : State} {c : Nat} (h : s.foreignOne c = some t) : ∃ cmds cps out,
    t = { s with cmds := cmds, cps := cps, out := out } := by
  obtain ⟨m, -, h⟩ := List.exists_of_findSome?_eq_some h
  dsimp only at h
  split at h
  · split at h
    · cases h
    · obtain rfl := Option.some.inj h
      obtain ⟨cps, out, h⟩ := State.feDispatch_spec _ _ _ _ _ _ _
      exact ⟨_, cps, out, h⟩
  · cases h

theorem State.startReady_cases (s : State) (id : Nat) : s.startReady id = s ∨ ∃ l st, tfind s.launches id = some l ∧
    s.startReady id = s.setLaunch id { l with status := st } := by
  unfold State.startReady
  split
  · exact .inl rfl
  next l hl =>
    split
    · extract_lets restoring busy
      split
      · exact .inr ⟨l, _, hl, rfl⟩
      · exact .inl rfl
    · exact .inl rfl

/-- The place of the park store that holds a launch's image is given back. -/
def State.unparked (s : State) (l : Launch) : State :=
  match l.place with
  | .preempted f (some k) => s.modEngine f fun x => { x with parks := tdel x.parks k }
  | _ => s

/-- A launch in slot n of engine e, its arrays bound (R104 to R114). -/
def Launch.seated (l : Launch) (e n : Nat) (bound : List Nat) (fold : Option (Nat × Nat)) (capSet seq now : Nat) : Launch :=
  { l with place := .slot e n, status := .starting, bound := if l.qwait.isSome then [] else bound,
           fold := if l.qwait.isSome then none else fold,
           x := { l.x with arrs := residentArrays l.x.arrs bound.length }, capSet := capSet,
           startSeq := seq, chargedAt := now, replayed := false, avoid := none, issued := false }

/-- The state in which a launch takes slot n of engine e, before it is seen whether it can start. -/
def State.seat (s : State) (id e n : Nat) (l : Launch) (bound : List Nat) (fold : Option (Nat × Nat)) : State :=
  let t := s.fresh.2.modEngine e fun x => { x with slots := tput x.slots n id }
  (t.setLaunch id (l.seated e n bound fold (t.captureSet l.ctx l.desc) s.nextId t.now)).modCtx l.ctx
    fun x => { x with sched := { x.sched with waitingSince := none } }

theorem State.unparked_launches (s : State) (l : Launch) : (s.unparked l).launches = s.launches := by
  unfold State.unparked
  split <;> rfl

theorem State.unparked_nextId (s : State) (l : Launch) : (s.unparked l).nextId = s.nextId := by
  unfold State.unparked
  split <;> rfl

theorem State.modEngine_slots (s : State) (f e : Nat) {g : Engine → Engine} (hg : ∀ x, (g x).slots = x.slots) :
    ((s.modEngine f g).engine e).slots = (s.engine e).slots := by
  by_cases h : e = f
  · rw [h, State.engine_modEngine, hg]
  · rw [State.engine_modEngine_ne _ _ h]

theorem State.unparked_slots (s : State) (l : Launch) (e : Nat) :
    ((s.unparked l).engine e).slots = (s.engine e).slots := by
  unfold State.unparked
  split
  · exact s.modEngine_slots _ e fun _ => rfl
  · rfl

theorem State.unparked_onlyDispatched (s : State) (l : Launch) : s.OnlyDispatched (s.unparked l) := by
  unfold State.unparked
  split <;> rfl

theorem State.place_of {s : State} {id e n : Nat} {l : Launch} {bound : List Nat} {fold : Option (Nat × Nat)}
    (hl : tfind s.launches id = some l) (hn : s.freeSlotOf e = some n) (hb : s.bindFor e l.desc.arrays = some (bound, fold)) :
    s.place id e = ((s.unparked l).seat id e n l bound fold).startReady id := by
  have hl' : tfind ((s.unparked l).fresh.2.modEngine e fun x => { x with slots := tput x.slots n id }).launches id = some l :=
    (congrArg (tfind · id) (s.unparked_launches l)).trans hl
  have hmod := State.modLaunch_of_tfind hl'
  unfold State.place
  rw [hl, hn]
  dsimp only
  rw [hb]
  exact congrArg (fun z : State =>
    (z.modCtx l.ctx fun x => { x with sched := { x.sched with waitingSince := none } }).startReady id) (hmod _)

theorem State.place_cases (s : State) (id e : Nat) : s.place id e = s ∨ ∃ l n bound fold,
    tfind s.launches id = some l ∧ s.freeSlotOf e = some n ∧
    s.place id e = ((s.unparked l).seat id e n l bound fold).startReady id := by
  cases hl : tfind s.launches id with
  | none => exact .inl (by unfold State.place; rw [hl])
  | some l =>
    cases hn : s.freeSlotOf e with
    | none => exact .inl (by unfold State.place; rw [hl, hn])
    | some n =>
      cases hb : s.bindFor e l.desc.arrays with
      | none => exact .inl (by unfold State.place; rw [hl, hn]; dsimp only; rw [hb])
      | some b => exact .inr ⟨l, n, b.1, b.2, rfl, rfl, State.place_of hl hn hb⟩

theorem State.startReady_onlyDispatched (s : State) (id : Nat) : s.OnlyDispatched (s.startReady id) := by
  rcases s.startReady_cases id with h | ⟨l, st, -, h⟩ <;> rw [h] <;> rfl

theorem State.seat_onlyDispatched (s : State) (id e n : Nat) (l : Launch) (bound : List Nat) (fold : Option (Nat × Nat)) :
    s.OnlyDispatched (s.seat id e n l bound fold) := rfl

theorem State.seat_slots (s : State) (id e n : Nat) (l : Launch) (bound : List Nat) (fold : Option (Nat × Nat)) :
    ((s.seat id e n l bound fold).engine e).slots = tput (s.engine e).slots n id :=
  congrArg Engine.slots (s.fresh.2.engine_modEngine e fun x => { x with slots := tput x.slots n id })

theorem State.place_onlyDispatched (s : State) (id e : Nat) : s.OnlyDispatched (s.place id e) := by
  rcases s.place_cases id e with h | ⟨l, n, bound, fold, -, -, h⟩ <;> rw [h]
  · rfl
  · exact (s.unparked_onlyDispatched l).trans
      ((State.seat_onlyDispatched _ _ _ _ _ _ _).trans (State.startReady_onlyDispatched _ _))

theorem State.modLaunch_onlyDispatched (s : State) (id : Nat) (f : Launch → Launch) : s.OnlyDispatched (s.modLaunch id f) := by
  unfold State.modLaunch
  split <;> rfl

/-- A launch whose save record comes to engine e waits there for a slot (R497). -/
def Launch.recalled (e : Nat) (l : Launch) : Launch :=
  match l.place with
  | .saved _ => { l with place := .preempted e none }
  | _ => l

/-- An allotment is provided by updates of the engine's allotments, of the context, and of launches of the record. -/
theorem State.provide_rule {P : State → Prop} {c e : Nat}
    (hengine : ∀ (t : State) (f : Engine → Engine), (∀ x, (f x).slots = x.slots) → P t → P (t.modEngine e f))
    (hctx : ∀ (t : State) (f : Context → Context), P t → P (t.modCtx c f))
    (hlaunch : ∀ (t : State) (id : Nat), P t → P (t.modLaunch id (Launch.recalled e))) {s : State} (hs : P s)
    (plan : AllotPlan) : P (s.provide c e plan) := by
  unfold State.provide
  extract_lets put
  have hput : ∀ (t : State) (base units : Nat) (st : AllotState), P t → P (put t base units st) := by
    intro t base units st ht
    refine hengine t _ ?_ ht
    exact fun _ => rfl
  cases plan with
  | held => exact hs
  | fresh base => exact hput _ _ _ _ hs
  | restore r =>
    refine keeps_foldl (P := P) (fun t id ht => hlaunch t id ht) (hctx _ _ ?_)
    split
    · exact hs
    · split
      · exact hs
      · exact hput _ _ _ _ hs

theorem Cmd.nextWg_ctx (m : Cmd) : m.nextWg.2.ctx = m.ctx := by
  unfold Cmd.nextWg
  split <;> rfl

/-- The launch of a command's next workgroup. -/
def Cmd.wgLaunch (m : Cmd) (k : Nat) (d : Desc) : Launch := m.nextWg.2.launchOf k m.nextWg.1 d false

/-- The next workgroup of a command is listed as a launch of its own. -/
def State.listWg (s : State) (k : Nat) (m : Cmd) (d : Desc) : State :=
  (s.setCmd k m.nextWg.2).fresh.2.setLaunch s.nextId (m.wgLaunch k d)

theorem State.startWg_of {s : State} {k e : Nat} {m : Cmd} {plan : AllotPlan} (hplan : s.allotPlan m.ctx e = some plan)
    (d : Desc) : s.startWg k m d e = ((s.listWg k m d).provide m.ctx e plan).place s.nextId e := by
  unfold State.startWg
  rw [hplan, ← m.nextWg_ctx]
  rfl

theorem State.startWg_noPlan {s : State} {k e : Nat} {m : Cmd} (hplan : s.allotPlan m.ctx e = none) (d : Desc) :
    s.startWg k m d e = s := by
  unfold State.startWg
  rw [hplan]

/-- What a round chooses to resume is a launch that may resume. -/
theorem State.choose_launch {s : State} {c id e : Nat} (h : s.choose c = .launch id e) :
    ∃ l, (id, l) ∈ s.launches ∧ s.canResume l = true := by
  have hpick : ∀ xs : List (Nat × Launch), (∀ x ∈ xs, x ∈ s.launches ∧ s.canResume x.2 = true) →
      (xs.findSome? fun e => (s.resumeEngine e.1 e.2).map fun g => Choice.launch e.1 g) = some (.launch id e) →
      ∃ l, (id, l) ∈ s.launches ∧ s.canResume l = true := by
    intro xs hxs hsome
    obtain ⟨x, hx, hmap⟩ := List.exists_of_findSome?_eq_some hsome
    obtain ⟨g, -, hg⟩ := Option.map_eq_some_iff.mp hmap
    obtain ⟨rfl, -⟩ := Choice.launch.inj hg
    exact ⟨x.2, hxs x hx⟩
  have hready : ∀ x ∈ (s.launchesOf c).filter fun e => s.canResume e.2, x ∈ s.launches ∧ s.canResume x.2 = true := by
    intro x hx
    obtain ⟨hof, hcan⟩ := List.mem_filter.mp hx
    exact ⟨List.mem_of_mem_filter hof, hcan⟩
  have hsub : ∀ (f : Nat × Launch → Bool), ∀ x ∈ ((s.launchesOf c).filter fun e => s.canResume e.2).filter f,
      x ∈ s.launches ∧ s.canResume x.2 = true := fun f x hx => hready x (List.mem_of_mem_filter hx)
  unfold State.choose at h
  extract_lets ready first held pick at h
  split at h
  next k hk => exact hpick first (hsub _) (hk.trans (congrArg some h))
  next =>
    split at h
    · cases hk : pick held with
      | none => rw [hk] at h; cases h
      | some k => rw [hk] at h; exact hpick held (hsub _) (hk.trans (congrArg some h))
    · split at h
      next k hk => exact hpick ready hready (hk.trans (congrArg some h))
      next =>
        have hk := (Option.getD_eq_iff.mp h).resolve_right fun hnone => nomatch hnone.2
        obtain ⟨m, -, hm⟩ := List.exists_of_findSome?_eq_some hk
        split at hm
        · cases hm
        · obtain ⟨g, -, hg⟩ := Option.map_eq_some_iff.mp hm
          cases hg

/-- Rounds are made of workgroups for foreign engines, launches that may resume, and new workgroups. -/
theorem State.rounds_rule {P : State → Prop} (hforeign : ∀ (t u : State) (c : Nat), t.foreignOne c = some u → P t → P u)
    (hresume : ∀ (t : State) (id e : Nat) (l x : Launch), (id, x) ∈ t.launches → t.canResume x = true →
      tfind t.launches id = some l → P t → P (t.resumeOn id l e))
    (hstart : ∀ (t : State) (k : Nat) (m : Cmd) (d : Desc) (e : Nat), P t → P (t.startWg k m d e)) (fuel : Nat) {s : State}
    (hs : P s) (p : Nat) (tried : List Nat) : P (State.rounds fuel s p tried) := by
  induction fuel generalizing s tried with
  | zero => exact hs
  | succ fuel ih =>
    unfold State.rounds
    extract_lets cs replay
    split
    · exact hs
    next c _ =>
      split
      next u hu => exact ih (hforeign s u c hu hs) tried
      next =>
        split
        · exact ih hs _
        next id e hchoose =>
          obtain ⟨x, hx, hcan⟩ := State.choose_launch hchoose
          split
          · exact ih hs _
          next l hl => exact ih (hresume s id e l x hx hcan hl hs) tried
        next k e _ =>
          split
          · exact ih hs _
          next m _ =>
            split
            · exact ih hs _
            next d _ => exact ih (hstart s k m d e hs) tried

theorem State.provide_onlyDispatched (s : State) (c e : Nat) (plan : AllotPlan) : s.OnlyDispatched (s.provide c e plan) :=
  State.provide_rule (P := s.OnlyDispatched) (fun _ _ _ ht => ht.trans rfl) (fun _ _ ht => ht.trans rfl)
    (fun t id ht => ht.trans (t.modLaunch_onlyDispatched id _)) (.refl s) plan

theorem State.resumeOn_onlyDispatched (s : State) (id : Nat) (l : Launch) (e : Nat) : s.OnlyDispatched (s.resumeOn id l e) := by
  unfold State.resumeOn
  split
  · rfl
  · exact (s.provide_onlyDispatched _ _ _).trans (State.place_onlyDispatched _ _ _)

theorem State.startWg_onlyDispatched (s : State) (k : Nat) (m : Cmd) (d : Desc) (e : Nat) :
    s.OnlyDispatched (s.startWg k m d e) := by
  cases hplan : s.allotPlan m.ctx e with
  | none => rw [State.startWg_noPlan hplan]; rfl
  | some plan =>
    rw [State.startWg_of hplan]
    have hlisted : s.OnlyDispatched (s.listWg k m d) := rfl
    exact hlisted.trans ((State.provide_onlyDispatched _ _ _ _).trans (State.place_onlyDispatched _ _ _))

theorem State.rounds_onlyDispatched (fuel : Nat) (s : State) (p : Nat) (tried : List Nat) :
    s.OnlyDispatched (State.rounds fuel s p tried) := by
  refine State.rounds_rule (P := s.OnlyDispatched) (fun t u c hu ht => ?_)
    (fun t id e l _ _ _ _ ht => ht.trans (t.resumeOn_onlyDispatched id l e))
    (fun t k m d e ht => ht.trans (t.startWg_onlyDispatched k m d e)) fuel (.refl s) p tried
  obtain ⟨cmds, cps, out, rfl⟩ := State.foreignOne_spec hu
  exact ht.trans rfl

/-- Only contexts have changed when the waits of a partition's contexts are noted. -/
theorem State.noteWaiting_spec (s : State) (p : Nat) : ∃ ctxs, s.noteWaiting p = { s with ctxs := ctxs } := by
  refine keeps_foldl (P := fun t : State => ∃ ctxs, t = { s with ctxs := ctxs }) (fun t c ht => ?_) ⟨s.ctxs, rfl⟩
  obtain ⟨ctxs, rfl⟩ := ht
  exact ⟨_, rfl⟩

/-! ### A launch in its slot -/

/-- The launch `l` is listed under `id` alone and holds slot n of engine e. -/
structure State.Seated (s : State) (id e n : Nat) (l : Launch) : Prop where
  older : id < s.nextId
  listed : tfind s.launches id = some l
  only : ∀ x ∈ s.launches, x.1 = id → x.2 = l
  held : tfind (s.engine e).slots n = some id

section
variable {s : State} {id e n : Nat} {l : Launch} (h : s.Seated id e n l)
include h

theorem State.Seated.of_tables {t : State} (hid : s.nextId ≤ t.nextId) (hl : t.launches = s.launches)
    (hslots : (t.engine e).slots = (s.engine e).slots) : t.Seated id e n l where
  older := Nat.lt_of_lt_of_le h.older hid
  listed := by rw [hl]; exact h.listed
  only := by rw [hl]; exact h.only
  held := by rw [hslots]; exact h.held

theorem State.Seated.setLaunch {k : Nat} {x : Launch} (hx : k = id → x = l) : (s.setLaunch k x).Seated id e n l where
  older := h.older
  listed := by
    by_cases hk : k = id
    · rw [hx hk, hk]
      exact tfind_tput ..
    · exact (tfind_tput_ne _ _ (Ne.symm hk)).trans h.listed
  only y hy hid := by
    rcases mem_of_mem_tput hy with rfl | hy
    · exact hx hid
    · exact h.only y hy hid
  held := h.held

theorem State.Seated.recalled (hplace : l.place = .slot e n) (k f : Nat) :
    (s.modLaunch k (Launch.recalled f)).Seated id e n l := by
  unfold State.modLaunch
  split
  · exact h
  next x hx =>
    refine h.setLaunch fun hk => ?_
    obtain rfl := Option.some.inj (hx.symm.trans (hk ▸ h.listed))
    rw [Launch.recalled, hplace]

theorem State.Seated.provide (hplace : l.place = .slot e n) (c f : Nat) (plan : AllotPlan) :
    (s.provide c f plan).Seated id e n l :=
  State.provide_rule (P := fun t => t.Seated id e n l)
    (fun t _ hg ht => ht.of_tables (Nat.le_refl _) rfl (t.modEngine_slots f e hg))
    (fun _ _ ht => ht.of_tables (Nat.le_refl _) rfl rfl) (fun _ k ht => ht.recalled hplace k f) h plan

theorem State.Seated.startReady {k : Nat} (hk : k ≠ id) : (s.startReady k).Seated id e n l := by
  rcases s.startReady_cases k with hready | ⟨x, st, -, hready⟩ <;> rw [hready]
  · exact h
  · exact h.setLaunch (absurd · hk)

/-- A slot that is found free is not this one. -/
theorem State.Seated.seat {k f j : Nat} (hk : k ≠ id) (hfree : s.freeSlotOf f = some j) (x : Launch) (bound : List Nat)
    (fold : Option (Nat × Nat)) : (s.seat k f j x bound fold).Seated id e n l := by
  have hslot : tfind (((s.fresh.2.modEngine f fun y => { y with slots := tput y.slots j k }).engine e).slots) n = some id := by
    by_cases he : e = f
    · subst he
      have hnone : tfind (s.engine e).slots j = none := Option.isNone_iff_eq_none.mp
          (List.find?_some (p := fun j => (tfind (s.engine e).slots j).isNone) hfree)
      have hj : n ≠ j := fun hj => by rw [← hj, h.held] at hnone; cases hnone
      rw [State.engine_modEngine]
      exact (tfind_tput_ne _ _ hj).trans h.held
    · rw [State.engine_modEngine_ne _ _ he]
      exact h.held
  have hmod : (s.fresh.2.modEngine f fun y => { y with slots := tput y.slots j k }).Seated id e n l :=
    ⟨Nat.lt_succ_of_lt h.older, h.listed, h.only, hslot⟩
  exact (hmod.setLaunch (absurd · hk)).of_tables (Nat.le_refl _) rfl rfl

theorem State.Seated.place {k : Nat} (hk : k ≠ id) (f : Nat) : (s.place k f).Seated id e n l := by
  rcases s.place_cases k f with hplace | ⟨x, j, bound, fold, -, hfree, hplace⟩ <;> rw [hplace]
  · exact h
  · have hfree' : (s.unparked x).freeSlotOf f = some j := by
      rw [← hfree, State.freeSlotOf, State.unparked_slots]
      rfl
    have hunparked := h.of_tables (Nat.le_of_eq (s.unparked_nextId x).symm) (s.unparked_launches x) (s.unparked_slots x e)
    exact (hunparked.seat hk hfree' x bound fold).startReady hk

theorem State.Seated.resumeOn (hplace : l.place = .slot e n) {k : Nat} (hk : k ≠ id) (x : Launch) (f : Nat) :
    (s.resumeOn k x f).Seated id e n l := by
  unfold State.resumeOn
  split
  · exact h
  · exact (h.provide hplace _ _ _).place hk f

theorem State.Seated.startWg (hplace : l.place = .slot e n) (k : Nat) (m : Cmd) (d : Desc) (f : Nat) :
    (s.startWg k m d f).Seated id e n l := by
  cases hplan : s.allotPlan m.ctx f with
  | none => rwa [State.startWg_noPlan hplan]
  | some plan =>
    rw [State.startWg_of hplan]
    have hnew : s.nextId ≠ id := (Nat.ne_of_lt h.older).symm
    have hfresh : (s.setCmd k m.nextWg.2).fresh.2.Seated id e n l := h.of_tables (Nat.le_succ _) rfl rfl
    exact ((hfresh.setLaunch (absurd · hnew)).provide hplace _ _ _).place hnew f

/-- A launch in a slot is not one that may resume, so rounds leave it there. -/
theorem State.Seated.rounds (hplace : l.place = .slot e n) (fuel p : Nat) (tried : List Nat) :
    (State.rounds fuel s p tried).Seated id e n l := by
  refine State.rounds_rule (P := fun t => t.Seated id e n l) (fun t u c hu ht => ?_) (fun t k f x y hy hcan _ ht => ?_)
    (fun t k m d f ht => ht.startWg hplace k m d f) fuel h p tried
  · obtain ⟨cmds, cps, out, rfl⟩ := State.foreignOne_spec hu
    exact ht.of_tables (Nat.le_refl _) rfl rfl
  · have hk : k ≠ id := by
      rintro rfl
      have hyl : y = l := ht.only _ hy rfl
      simp [State.canResume, State.couldResume, hyl, hplace] at hcan
    exact ht.resumeOn hplace hk x f

end

/-! ### The dispatch round (R483) -/

/-- What is bound for a launch on an engine depends on the launches in the engine's slots only. -/
theorem State.bindFor_congr {s t : State} {e : Nat} (hengine : t.engine e = s.engine e) (hbuild : t.build = s.build)
    (hlaunches : ∀ x ∈ (s.engine e).slots, tfind t.launches x.2 = tfind s.launches x.2) (k : Nat) :
    t.bindFor e k = s.bindFor e k := by
  have hworking : t.workingArrays e = s.workingArrays e := by rw [State.workingArrays, hengine, hbuild]; rfl
  have hheld : ((s.engine e).slots.flatMap fun p => ((tfind t.launches p.2).map (·.bound)).getD []) =
      (s.engine e).slots.flatMap fun p => ((tfind s.launches p.2).map (·.bound)).getD [] :=
    List.flatMap_congr fun x hx => by rw [hlaunches x hx]
  have hfolds : ((s.engine e).slots.filterMap fun p => (tfind t.launches p.2).bind (·.fold)) =
      (s.engine e).slots.filterMap fun p => (tfind s.launches p.2).bind (·.fold) :=
    List.filterMap_congr fun x hx => by rw [hlaunches x hx]
  have hfree : t.freeArrays e = s.freeArrays e := by
    rw [State.freeArrays, hengine, hheld, hworking]
    rfl
  have hunits : t.freeUnits e = s.freeUnits e := by
    rw [State.freeUnits, hengine, hfolds, hbuild]
    rfl
  have hfit : ∀ size, t.firstFit e size = s.firstFit e size := fun size => by
    rw [State.firstFit, hunits, hbuild]
    rfl
  simp only [State.bindFor, hworking, hfree, hfit, hengine]

/-- A launch with a new number is the only one of its number. -/
theorem State.Seated.of_new {s t : State} {id e n : Nat} {l : Launch} (hnew : ∀ x ∈ s.launches, x.1 ≠ id)
    (hlaunches : t.launches = tput s.launches id l) (hid : id < t.nextId)
    (hheld : tfind (t.engine e).slots n = some id) : t.Seated id e n l where
  older := hid
  listed := by rw [hlaunches]; exact tfind_tput ..
  only x hx hxid := by
    rw [hlaunches] at hx
    rcases mem_of_mem_tput hx with rfl | hx
    · rfl
    · exact absurd hxid (hnew x hx)
  held := hheld

/-- A new launch takes the free slot of an engine that can bind its arrays. -/
theorem State.place_seated {s t : State} {id e n : Nat} {l : Launch} {bound : List Nat} {fold : Option (Nat × Nat)}
    (hnew : ∀ x ∈ s.launches, x.1 ≠ id) (hlaunches : t.launches = tput s.launches id l) (hid : id < t.nextId)
    (hwaiting : l.place = .waiting) (hn : t.freeSlotOf e = some n) (hb : t.bindFor e l.desc.arrays = some (bound, fold)) :
    ∃ capSet seq now st, (t.place id e).Seated id e n { l.seated e n bound fold capSet seq now with status := st } := by
  have hl : tfind t.launches id = some l := by rw [hlaunches]; exact tfind_tput ..
  have hunparked : t.unparked l = t := by rw [State.unparked, hwaiting]
  have hset : ∀ x, tput t.launches id x = tput s.launches id x := fun x => by rw [hlaunches, tput_tput]
  have hheld : tfind ((t.seat id e n l bound fold).engine e).slots n = some id :=
    (congrArg (tfind · n) (t.seat_slots ..)).trans (tfind_tput ..)
  rw [State.place_of hl hn hb, hunparked]
  rcases State.startReady_cases (t.seat id e n l bound fold) id with hready | ⟨x, st, hx, hready⟩ <;> rw [hready]
  · exact ⟨_, _, _, .starting, .of_new hnew (hset _) (Nat.lt_succ_of_lt hid) hheld⟩
  · obtain rfl := Option.some.inj (hx.symm.trans (tfind_tput ..))
    exact ⟨_, _, _, st, .of_new hnew ((tput_tput ..).trans (hset _)) (Nat.lt_succ_of_lt hid) hheld⟩

/-- A new workgroup takes the free slot of an engine on which its context needs no new allotment. -/
theorem State.startWg_seated {s : State} {k e n : Nat} {m : Cmd} {d : Desc} {bound : List Nat} {fold : Option (Nat × Nat)}
    (hplan : s.allotPlan m.ctx e = some .held) (hn : s.freeSlotOf e = some n)
    (hb : s.bindFor e d.arrays = some (bound, fold)) (hlaunches : ∀ x ∈ s.launches, x.1 < s.nextId)
    (hslots : ∀ x ∈ (s.engine e).slots, x.2 < s.nextId) : ∃ capSet seq now st, (s.startWg k m d e).Seated s.nextId e n
      { (m.wgLaunch k d).seated e n bound fold capSet seq now with status := st } := by
  have hbind : (s.listWg k m d).bindFor e d.arrays = some (bound, fold) := by
    rw [← hb]
    exact State.bindFor_congr (s := s) (t := s.listWg k m d) rfl rfl
      (fun x hx => tfind_tput_ne _ _ (Nat.ne_of_lt (hslots x hx))) _
  rw [State.startWg_of hplan]
  exact State.place_seated (s := s) (t := s.listWg k m d) (l := m.wgLaunch k d)
    (fun x hx => Nat.ne_of_lt (hlaunches x hx)) rfl (Nat.lt_succ_self _) rfl hn hbind

/-- The first of the rounds serves the context with the least VTIME, here with a workgroup for a native engine. -/
theorem State.rounds_workgroup {s : State} {p c k e : Nat} {m : Cmd} {d : Desc}
    (hreplay : (s.dispatchable p).filter (fun c => (s.launchesOf c).any fun e => e.2.replayed && s.canResume e.2) = [])
    (hmin : minBy s.vtime (s.dispatchable p) = some c) (hforeign : s.foreignOne c = none)
    (hchoose : s.choose c = .workgroup k e) (hm : tfind s.cmds k = some m) (hd : m.desc.bind (s.nativeDesc m) = some d)
    (fuel : Nat) : State.rounds (fuel + 1) s p [] = State.rounds fuel (s.startWg k m d e) p [] := by
  have hall : (s.dispatchable p).filter (fun c => !([] : List Nat).contains c) = s.dispatchable p :=
    List.filter_eq_self.mpr fun _ _ => rfl
  rw [State.rounds]
  simp only [hall, hreplay, List.isEmpty_nil, if_true, hmin, hforeign, hchoose, hm, hd]

theorem exec_dispatchRound {s : State} {p : Nat} (hup : s.up = true) (hpaused : s.paused p = false)
    (hsched : s.scheduleRuns p = false) :
    exec (.dispatchRound p) s = .next ((State.rounds 512 (s.look p) p []).noteWaiting p) :=
  congrArg Host.Outcome.next ((State.work_of_up hup _).trans (if_neg (by rw [hpaused, hsched]; nofun)))

/-! ### Slice boundaries (R488 to R490) -/

/-- A resident context with startable work and no slot that has waited for a whole slice. -/
def State.overdue (s : State) (slice now c : Nat) : Bool :=
  s.resident c && s.schedState c == 3 &&
    match (s.ctx c).sched.waitingSince with
    | none => false
    | some t => decide (t + slice ≤ now)

/-- The contexts of c's partition that may lose a launch slot to c. -/
def State.slotHolders (s : State) (c : Nat) : List Nat :=
  (s.ctxsOf (s.ctx c).part).filter fun d => d ≠ c && !s.sheltered d && (s.fesOf d).isEmpty &&
    (s.launchesOf d).any fun e => match e.2.place with
      | .slot .. => true
      | _ => false

/-- The contexts that a slice boundary may switch out. -/
def State.outgoing (s : State) (p : Nat) : List Nat :=
  (s.ctxsOf p).filter fun c => s.resident c && s.schedState c == 3 && !s.sheltered c && (s.fesOf c).isEmpty

/-- The contexts that wait for a resident slot. -/
def State.waitingIn (s : State) (p : Nat) : List Nat := (s.ctxsOf p).filter fun c => s.schedState c == 1

theorem State.slotsFor_takes {s : State} {c d e n id : Nat} {l : Launch} {used : List Nat}
    (hd : maxBy s.vtime (s.slotHolders c) = some d) (hlt : s.vtime c < s.vtime d)
    (hl : maxBy (fun e => e.2.startSeq) (s.runningOn d used) = some (id, l)) (hplace : l.place = .slot e n) :
    State.slotsFor (s, used) c = (s.setLaunch id { l with stop := some .preempt }, e :: used) := by
  unfold State.slotsFor
  dsimp -zeta only
  extract_lets p holders
  have hholders : maxBy s.vtime holders = some d := hd
  rw [hholders]
  dsimp only
  rw [if_neg (Nat.not_le.mpr hlt), hl]
  dsimp only
  rw [hplace]

theorem exec_sliceBoundary {s : State} {p : Nat} {late : List Nat} (hup : s.up = true) (hstate : (s.part p).state ≠ 0)
    (hstatic : (s.part p).static = false) (hpaused : s.paused p = false)
    (hlate : ((s.look p).ctxsOf p).filter ((s.look p).overdue ((s.part p).timesliceMs * nsPerMs) s.now) = late) :
    exec (.sliceBoundary p) s = .next (State.slicesOut 4 (late.foldl State.slotsFor (s.look p, [])).1 p
      ((late.foldl State.slotsFor (s.look p, [])).1.waitingIn p)) := by
  refine congrArg Host.Outcome.next ((State.work_of_up hup _).trans ((if_neg ?_).trans ?_))
  · simp [hstate, hstatic, hpaused]
  · rw [← s.part_look p p, ← s.now_look p] at hlate
    rw [← hlate]
    rfl

theorem State.slicesOut_noneWaiting (n : Nat) (s : State) (p : Nat) : State.slicesOut n s p [] = s := by
  cases n <;> rfl

/-- A context that waits is switched in without a switch-out while a resident slot is free. -/
theorem State.slicesOut_free {s : State} {p w c : Nat} (hout : maxBy s.vtime (s.outgoing p) = some c)
    (hfree : (s.freeRslot p).isSome = true) (n : Nat) : State.slicesOut (n + 1) s p [w] = s.switchIn w := by
  have hmin : minBy s.vtime [w] = some w := rfl
  have hrest : [w].filter (· ≠ w) = [] := by simp
  unfold State.outgoing at hout
  rw [State.slicesOut]
  simp only [hmin, hout, hfree, if_true, hrest, State.slicesOut_noneWaiting]

/-! ### Switch-outs that a rule calls for (R486, R499), and SCHED_CTRL (R517) -/

/-- How many units a context holds on an engine. -/
def State.heldUnits (s : State) (e c : Nat) : Nat := ((s.allotOf e c).map fun a => a.2.size).getD 0

/-- Resident contexts that hold units of an engine and have nothing that can run. -/
def State.unitHolders (s : State) (p e : Nat) : List Nat :=
  (s.ctxsOf p).filter fun c => s.resident c && (s.schedState c == 2 || s.schedState c == 4) && s.heldUnits e c != 0

theorem exec_allotWaitTimeout {s : State} {p e c : Nat} {rest : List Nat} (hup : s.up = true)
    (hstatic : (s.part p).static = false) (hengines : (s.part p).engines = e :: rest)
    (hstuck : ((s.dispatchable p).any fun c => s.wantsSlot c && (e :: rest).all fun e => (s.allotPlan c e).isNone) = true)
    (hc : maxBy (s.heldUnits e) (s.unitHolders p e).reverse = some c) :
    exec (.allotWaitTimeout p) s = .next (s.startOut c) := by
  refine congrArg Host.Outcome.next ((State.work_of_up hup _).trans ?_)
  unfold State.unitHolders State.heldUnits at hc
  simp only [hengines, hstuck, hstatic, hc, Bool.not_false, Bool.and_self, if_true]

/-- Idle contexts go first (R499). -/
theorem exec_evict_idle {s : State} {p c : Nat} (hup : s.up = true)
    (hwaiting : ((s.look p).ctxsOf p).any (fun c => (s.look p).schedState c == 1) = true)
    (hnone : (s.look p).freeRslot p = none) (hc : minBy (fun c => ((s.look p).ctx c).acct.lastProgress)
      (((s.look p).ctxsOf p).filter fun c => (s.look p).resident c && (s.look p).schedState c == 2 &&
        !(s.look p).sheltered c) = some c) :
    exec (.evict p) s = .next (((s.look p).schedCount p 1).startOut c) := by
  refine congrArg Host.Outcome.next ((State.work_of_up hup _).trans ?_)
  simp only [hwaiting, hnone, hc, Option.isSome_none, Bool.not_true, Bool.or_self, Bool.false_eq_true, if_false]
  rfl

theorem exec_schedCtrlWrite {s : State} {p : Nat} {v : BitVec 64} (hup : s.up = true) (hdec : s.decodes .pf = true)
    (hfw : s.fwRuns = true) (hp : p < s.build.partitions) : exec (.schedCtrlWrite p v) s = .next
      (if 1 ≤ fld v.toNat 15 0 ∧ fld v.toNat 15 0 ≤ 1000 then { s with holdLimit := tput s.holdLimit p (fld v.toNat 15 0) }
      else s) := by
  refine congrArg Host.Outcome.next ((State.work_of_up hup _).trans ?_)
  simp only [hdec, hfw, hp, decide_true, Bool.true_and, Bool.and_eq_true, decide_eq_true_eq]

/-! ### Switching out (R495) -/

/-- The fence that a queue is blocked on has not been signalled. -/
def State.stillBlocked (s : State) (q : Queue) : Bool :=
  match q.blocked with
  | none => false
  | some (h, _) => (s.fence (hIndex h)).state == 1 && hGen h == (s.fence (hIndex h)).gen

/-- A context whose resident slot and queue slots are released. -/
def Context.slotsReleased (x : Context) (waits : Queue → Bool) : Context :=
  { x with queues := tmap x.queues fun _ q => q.put (waits q), sched := { x.sched with rslot := none },
           acct := { x.acct with switchCount := bump x.acct.switchCount 1 } }

/-- A context whose switch-out has begun. -/
def Context.leaving (x : Context) : Context := { x with sched := { x.sched with switchingOut := true } }

theorem State.releaseSlots_eq (s : State) (c : Nat) : s.releaseSlots c =
    (s.setCtx c ((s.ctx c).slotsReleased s.stillBlocked)).schedCount (s.ctx c).part 0 := rfl

theorem Context.slotsReleased_asleep (x : Context) (waits : Queue → Bool) (q : Nat) :
    ((x.slotsReleased waits).queue q).fetch = .asleep := by
  have hq : (x.slotsReleased waits).queue q = (x.queue q).put (waits (x.queue q)) :=
    tget_tmap (d := ({} : Queue)) (f := fun _ q => q.put (waits q)) (fun _ => rfl) x.queues q
  rw [hq]
  rfl

theorem State.outStep_of_released {s : State} {c : Nat} (h : (s.ctx c).sched.rslot = none) : s.outStep c = s := by
  simp [State.outStep, h]

/-- Every launch of a context that leaves is pre-empted (R492). -/
def State.preemptAll (s : State) (c : Nat) : State := ((s.launchesOf c).map (·.1)).foldl State.preemptLaunch s

theorem State.startOut_of_resident {s : State} {c k : Nat} (hk : (s.ctx c).sched.rslot = some k)
    (hin : (s.ctx c).sched.switchingOut = false) : s.startOut c =
      ((((s.setCtx c (s.ctx c).leaving).preemptAll c).fesOf c).foldl State.feQuiesce
        ((s.setCtx c (s.ctx c).leaving).preemptAll c)).outStep c :=
  if_neg (by simp [hk, hin])

section
variable {s : State} {c : Nat} (hlaunches : ∀ e ∈ s.launches, e.2.ctx ≠ c) (hcmds : ∀ e ∈ s.cmds, e.2.ctx ≠ c)
  (hfes : s.fesOf c = [])
include hlaunches

theorem State.launchesOf_nil : s.launchesOf c = [] :=
  List.filter_eq_nil_iff.mpr fun e he => by simpa using hlaunches e he

include hcmds hfes

theorem State.quiet_of_nothing : s.quiet c = true := by
  have hall : s.cmds.all (fun e => e.2.ctx != c || e.2.copy.isNone || e.2.stalled.isSome) = true :=
    List.all_eq_true.mpr fun e he => by simp [hcmds e he]
  simp only [State.quiet, State.launchesOf_nil hlaunches, hfes, hall, List.all_nil, List.isEmpty_nil, Bool.and_self]

/-- A context with nothing under way gives up its slots as soon as its switch-out begins. -/
theorem State.startOut_of_nothing {k : Nat} (hk : (s.ctx c).sched.rslot = some k) (hin : (s.ctx c).sched.switchingOut = false) :
    s.startOut c = (s.setCtx c ((s.ctx c).leaving.slotsReleased s.stillBlocked)).schedCount (s.ctx c).part 0 := by
  have hleaving : (s.setCtx c (s.ctx c).leaving).ctx c = (s.ctx c).leaving := s.ctx_setCtx c _
  have hnone : (s.setCtx c (s.ctx c).leaving).launchesOf c = [] := State.launchesOf_nil hlaunches
  have hpreempt : (s.setCtx c (s.ctx c).leaving).preemptAll c = s.setCtx c (s.ctx c).leaving := by
    rw [State.preemptAll, hnone]
    rfl
  have hfes' : (s.setCtx c (s.ctx c).leaving).fesOf c = [] := hfes
  have hquiet : (s.setCtx c (s.ctx c).leaving).quiet c = true := State.quiet_of_nothing hlaunches hcmds hfes
  have hout : (s.setCtx c (s.ctx c).leaving).outStep c = (s.setCtx c (s.ctx c).leaving).releaseSlots c :=
    if_pos (by rw [hleaving, hquiet]; simp [Context.leaving, hk])
  rw [State.startOut_of_resident hk hin, hpreempt, hfes', List.foldl_nil, hout, State.releaseSlots_eq, hleaving,
    State.setCtx_setCtx]
  rfl

theorem exec_switchOut_nothing {k : Nat} (hup : s.up = true) (hlive : (s.ctx c).state = .live)
    (hk : (s.ctx c).sched.rslot = some k) (hin : (s.ctx c).sched.switchingOut = false) : exec (.switchOut c) s =
      .next ((s.setCtx c ((s.ctx c).leaving.slotsReleased s.stillBlocked)).schedCount (s.ctx c).part 0) := by
  refine congrArg Host.Outcome.next ((State.work_of_up hup _).trans ((if_pos (.inl hlive)).trans ?_))
  rw [State.startOut_of_nothing hlaunches hcmds hfes hk hin]
  exact State.outStep_of_released (congrArg (·.sched.rslot) (s.ctx_setCtx c _))

end

/-! ### Save records (R479, R495 steps 6 and 7) -/

/-- What the record of an allotment holds: its units' bytes from 0 on. -/
def Engine.recordOf (x : Engine) (e : Nat) (a : Option (Nat × Allot)) (ids : List Nat) : SaveRec :=
  let units := (a.map fun p => p.2.size).getD 0
  let base := (a.map fun p => p.2.base).getD 0 * unitBytes
  ⟨e, units, (x.store.filter fun b => base ≤ b.1 && b.1 < base + units * unitBytes).map fun b => (b.1 - base, b.2),
    ids, none⟩

/-- An engine from which a context's allotment and parked launches have gone; the units are to be scrubbed. -/
def Engine.vacated (a : Option (Nat × Allot)) (tag : BitVec 16) (x : Engine) : Engine :=
  let units := (a.map fun p => p.2.size).getD 0
  let base := (a.map fun p => p.2.base).getD 0 * unitBytes
  { x with allots := match a with
             | none => x.allots
             | some p => tdel x.allots p.1
           scrubs := if units = 0 then x.scrubs else x.scrubs ++ [⟨base / unitBytes, units⟩]
           parks := x.parks.filter fun p => p.2.owner ≠ tag }

/-- A context with one more save record, of so many bytes. -/
def Context.recorded (r : SaveRec) (bytes : Nat) (x : Context) : Context :=
  { x with sched := { x.sched with saved := x.sched.saved ++ [r] },
           acct := { x.acct with switchBytes := bump x.acct.switchBytes bytes } }

/-- An engine that holds nothing of a context is left as it is; otherwise a record is made. -/
theorem State.saveOn_cases (s : State) (c e : Nat) : (s.allotOf e c = none ∧ s.saveOn c e = s) ∨
    ∃ mem launches ids bytes, s.saveOn c e =
      ({ s with mem := mem, launches := launches }.modEngine e (Engine.vacated (s.allotOf e c) (s.tag c))).modCtx c
        (Context.recorded ((s.engine e).recordOf e (s.allotOf e c) ids) bytes) := by
  unfold State.saveOn
  extract_lets +onlyGivenNames x here
  split
  next hnone _ => exact .inl ⟨hnone, rfl⟩
  next =>
    extract_lets units base cells r cleared scrubbed
    have hcleared : ∃ mem launches, cleared = { s with mem := mem, launches := launches } := by
      refine keeps_foldl (P := fun t : State => ∃ mem launches, t = { s with mem := mem, launches := launches })
        (fun t l ht => ?_) ⟨s.mem, s.launches, rfl⟩
      obtain ⟨mem, launches, rfl⟩ := ht
      unfold State.modLaunch
      split
      · exact ⟨_, _, rfl⟩
      · exact ⟨_, _, rfl⟩
    clear_value cleared
    obtain ⟨mem, launches, rfl⟩ := hcleared
    exact .inr ⟨mem, launches, here.map (·.1), _, rfl⟩

theorem State.saveOn_engine_ne (s : State) (c : Nat) {e f : Nat} (h : f ≠ e) : (s.saveOn c e).engine f = s.engine f := by
  rcases s.saveOn_cases c e with ⟨-, hs⟩ | ⟨mem, launches, ids, bytes, hs⟩ <;> rw [hs]
  exact State.engine_modEngine_ne _ _ h

theorem State.saveOn_store (s : State) (c e f : Nat) : ((s.saveOn c e).engine f).store = (s.engine f).store := by
  by_cases h : f = e
  · subst h
    rcases s.saveOn_cases c f with ⟨-, hs⟩ | ⟨mem, launches, ids, bytes, hs⟩ <;> rw [hs]
    exact (congrArg Engine.store (State.engine_modEngine { s with mem := mem, launches := launches } f
      (Engine.vacated (s.allotOf f c) (s.tag c))) :)
  · rw [s.saveOn_engine_ne c h]

theorem State.saveOn_tag (s : State) (c e : Nat) : (s.saveOn c e).tag c = s.tag c := by
  rcases s.saveOn_cases c e with ⟨-, hs⟩ | ⟨mem, launches, ids, bytes, hs⟩ <;> rw [hs]
  rw [State.tag, State.modCtx, State.ctx_setCtx]
  rfl

theorem State.mem_saved_saveOn {s : State} {c : Nat} {r : SaveRec} (h : r ∈ (s.ctx c).sched.saved) (e : Nat) :
    r ∈ ((s.saveOn c e).ctx c).sched.saved := by
  rcases s.saveOn_cases c e with ⟨-, hs⟩ | ⟨mem, launches, ids, bytes, hs⟩ <;> rw [hs]
  · exact h
  · rw [State.modCtx, State.ctx_setCtx]
    exact List.mem_append_left _ h

/-- The cells of n bytes from `base` on, moved down to 0. -/
theorem mread_cut {m : Mem} {base n o : Nat} (h : o < n) :
    mread ((m.filter fun b => base ≤ b.1 && b.1 < base + n).map fun b => (b.1 - base, b.2)) o = mread m (base + o) := by
  induction m with
  | nil => rfl
  | cons b m ih =>
    obtain ⟨a, v⟩ := b
    unfold mread at ih ⊢
    by_cases hin : base ≤ a ∧ a < base + n
    · rw [List.filter_cons_of_pos (by simpa using hin), List.map_cons, tget, tget, ih]
      simp only [show o = a - base ↔ base + o = a by omega]
    · rw [List.filter_cons_of_neg (by simpa using hin), ih, tget, if_neg (by omega)]

/-- What was allotment `a`, entry i of engine e, stands in a record of context c with the bytes it had in store `m`. -/
structure State.HasSaved (t : State) (c e i : Nat) (a : Allot) (m : Mem) : Prop where
  gone : tfind (t.engine e).allots i = none
  record : ∃ r ∈ (t.ctx c).sched.saved, r.engine = e ∧ r.units = a.size ∧ r.into = none ∧
    ∀ o, o < a.size * unitBytes → mread r.cells o = mread m (a.base * unitBytes + o)
  scrubbed : a.size ≠ 0 → ⟨a.base, a.size⟩ ∈ (t.engine e).scrubs

theorem State.saveOn_hasSaved {s : State} {c e i : Nat} {a : Allot} (h : s.allotOf e c = some (i, a)) :
    (s.saveOn c e).HasSaved c e i a (s.engine e).store := by
  rcases s.saveOn_cases c e with ⟨hnone, -⟩ | ⟨mem, launches, ids, bytes, hs⟩
  · rw [h] at hnone
    cases hnone
  · rw [h] at hs
    have hengine : (s.saveOn c e).engine e = (s.engine e).vacated (some (i, a)) (s.tag c) := by
      rw [hs]
      exact State.engine_modEngine _ e (Engine.vacated _ _)
    have hctx : ((s.saveOn c e).ctx c).sched.saved = (s.ctx c).sched.saved ++ [(s.engine e).recordOf e (some (i, a)) ids] := by
      rw [hs, State.modCtx, State.ctx_setCtx]
      rfl
    refine ⟨?_, ⟨_, by rw [hctx]; exact List.mem_append_right _ List.mem_cons_self, rfl, rfl, rfl,
      fun o ho => mread_cut ho⟩, fun hsize => ?_⟩
    · rw [hengine]
      exact tfind_tdel ..
    · have hbase : a.base * unitBytes / unitBytes = a.base := Nat.mul_div_cancel _ (by decide)
      simp [hengine, Engine.vacated, hsize, hbase]

theorem State.HasSaved.saveOn {s : State} {c e i : Nat} {a : Allot} {m : Mem} (h : s.HasSaved c e i a m)
    {f : Nat} (hf : e ≠ f) : (s.saveOn c f).HasSaved c e i a m := by
  obtain ⟨hgone, ⟨r, hr, hrecord⟩, hscrubbed⟩ := h
  rw [← s.saveOn_engine_ne c hf] at hgone hscrubbed
  exact ⟨hgone, ⟨r, State.mem_saved_saveOn hr f, hrecord⟩, hscrubbed⟩

/-- Saves on other engines leave it so. -/
theorem State.HasSaved.foldl {es : List Nat} {s : State} {c e i : Nat} {a : Allot} {m : Mem} (h : s.HasSaved c e i a m)
    (hes : e ∉ es) : (es.foldl (fun s e => s.saveOn c e) s).HasSaved c e i a m := by
  induction es generalizing s with
  | nil => exact h
  | cons f es ih =>
    obtain ⟨hf, hes⟩ := not_or.mp (mt List.mem_cons.mpr hes)
    exact ih (h.saveOn hf) hes

/-- Every allotment of the context on the engines listed is saved. -/
theorem State.foldl_saveOn_hasSaved {es : List Nat} (hes : es.Nodup) {s : State} {c e i : Nat} {a : Allot} (he : e ∈ es)
    (h : s.allotOf e c = some (i, a)) :
    (es.foldl (fun s e => s.saveOn c e) s).HasSaved c e i a (s.engine e).store := by
  induction es generalizing s with
  | nil => cases he
  | cons f es ih =>
    obtain ⟨hf, hes⟩ := List.nodup_cons.mp hes
    by_cases hef : e = f
    · subst hef
      exact (State.saveOn_hasSaved h).foldl hf
    · have hallot : (s.saveOn c f).allotOf e c = some (i, a) := by
        rw [← h, State.allotOf, s.saveOn_engine_ne c hef, s.saveOn_tag]
        rfl
      rw [← s.saveOn_engine_ne c hef]
      exact ih hes ((List.mem_cons.mp he).resolve_left hef) hallot

theorem State.foldl_saveOn_store (es : List Nat) (s : State) (c e : Nat) :
    ((es.foldl (fun s e => s.saveOn c e) s).engine e).store = (s.engine e).store :=
  keeps_foldl (P := fun t : State => (t.engine e).store = (s.engine e).store)
    (fun t f ht => (t.saveOn_store c f e).trans ht) rfl

/-- A context whose saves are complete. -/
def Context.left (x : Context) : Context := { x with sched := { x.sched with switchingOut := false } }

theorem exec_switchOutComplete_released {s : State} {c : Nat} (hup : s.up = true) (hout : (s.ctx c).sched.switchingOut = true)
    (hslot : (s.ctx c).sched.rslot = none) : exec (.switchOutComplete c) s =
      .next (((List.range s.build.engines).foldl (fun s e => s.saveOn c e) s).modCtx c Context.left) := by
  refine congrArg Host.Outcome.next ((State.work_of_up hup _).trans ?_)
  rw [State.outStep_of_released hslot]
  exact if_neg (by simp [hout, hslot])

/-! ### Switching in (R476, R497) -/

/-- A context that has resident slot k; its queues with work wake. -/
def Context.switchedIn (x : Context) (k now : Nat) : Context :=
  { x with sched := { x.sched with rslot := some k, switchedInAt := now, waitingSince := none, wasIdle := false },
           queues := tmap x.queues fun _ q =>
             if q.pendingBit ∨ q.tail ≠ q.head ∨ !q.decoded.isEmpty then { q.wake with pendingBit := false } else q }

theorem State.switchingOut_of_schedState {s : State} {c : Nat} (h : s.schedState c ≠ 5) :
    (s.ctx c).sched.switchingOut = false := by
  cases hout : (s.ctx c).sched.switchingOut with
  | false => rfl
  | true => exact absurd (by rw [State.schedState, hout]; rfl) h

theorem State.takeSlot_spec (s : State) (c k : Nat) : ∃ acct,
    s.takeSlot c k = s.setCtx c ({ s.ctx c with acct := acct }.switchedIn k s.now) := by
  unfold State.takeSlot
  rcases s.credit_spec c with h | ⟨f, h⟩ <;> rw [h]
  · exact ⟨(s.ctx c).acct, rfl⟩
  · refine ⟨f (s.ctx c).acct, ?_⟩
    simp only [State.modCtx, State.ctx_setCtx, State.setCtx_setCtx]
    rfl

theorem exec_switchIn_itself {s : State} {c k : Nat} (hup : s.up = true) (hwaits : s.schedState c = 1)
    (hpaused : s.paused (s.ctx c).part = false) (hstand : s.standIn c = some (c, false))
    (hk : s.freeRslot (s.ctx c).part = some k) (haway : s.resident c = false) (hhold : (s.ctx c).lostHold = false) :
    exec (.switchIn c) s = .next (s.takeSlot c k) := by
  have hout : (s.ctx c).sched.switchingOut = false := State.switchingOut_of_schedState (by rw [hwaits]; decide)
  refine congrArg Host.Outcome.next ((State.work_of_up hup _).trans ?_)
  simp only [State.switchIn, hwaits, hpaused, hstand, hk, haway, hout, hhold, ne_eq, not_true_eq_false, Bool.false_eq_true,
    or_self, if_false, Bool.or_self]

/-! ### Restored records (R497) -/

theorem mread_mzero (m : Mem) (a n o : Nat) : mread (mzero m a n) o = if a ≤ o ∧ o < a + n then 0 else mread m o := by
  induction m with
  | nil => exact (ite_self _).symm
  | cons b m ih =>
    obtain ⟨k, v⟩ := b
    unfold mread mzero at ih ⊢
    by_cases hk : k < a ∨ a + n ≤ k
    · rw [List.filter_cons_of_pos (by simpa using hk), tget, tget, ih]
      by_cases ho : o = k
      · rw [if_pos ho, if_pos ho, if_neg (by omega)]
      · rw [if_neg ho, if_neg ho]
    · rw [List.filter_cons_of_neg (by simpa using hk), ih, tget]
      by_cases ho : a ≤ o ∧ o < a + n
      · rw [if_pos ho, if_pos ho]
      · rw [if_neg ho, if_neg ho, if_neg (by omega)]

theorem le_of_memSorted {lo : Nat} {m : Mem} (h : memSorted lo m = true) : ∀ b ∈ m, lo ≤ b.1 := by
  induction m generalizing lo with
  | nil => exact nofun
  | cons c m ih =>
    simp only [memSorted, Bool.and_eq_true, decide_eq_true_eq] at h
    intro b hb
    rcases List.mem_cons.mp hb with rfl | hb
    · exact h.1.1
    · exact Nat.le_trans (Nat.le_succ_of_le h.1.1) (ih h.2 b hb)

/-- The cells of a record written from `base` on. -/
def putCells (base : Nat) (cells m : Mem) : Mem := cells.foldl (fun m b => mwrite m (base + b.1) b.2) m

theorem mread_putCells_out {base o : Nat} {cells : Mem} (h : ∀ b ∈ cells, base + b.1 ≠ o) (m : Mem) :
    mread (putCells base cells m) o = mread m o := by
  induction cells generalizing m with
  | nil => rfl
  | cons b cells ih =>
    exact (ih (fun c hc => h c (List.mem_cons_of_mem _ hc)) _).trans (mread_mwrite_ne _ (h b List.mem_cons_self).symm)

/-- Where the memory held zero, it holds what the record holds. -/
theorem mread_putCells {lo base o : Nat} {cells m : Mem} (hcells : memSorted lo cells = true) (hm : mread m (base + o) = 0) :
    mread (putCells base cells m) (base + o) = mread cells o := by
  induction cells generalizing lo m with
  | nil => exact hm
  | cons b cells ih =>
    obtain ⟨a, v⟩ := b
    simp only [memSorted, Bool.and_eq_true] at hcells
    have hput : putCells base ((a, v) :: cells) m = putCells base cells (mwrite m (base + a) v) := rfl
    rw [hput]
    by_cases ho : o = a
    · subst ho
      have hread : mread ((o, v) :: cells) o = v := if_pos rfl
      rw [hread, mread_putCells_out, mread_mwrite]
      intro b hb
      have := le_of_memSorted hcells.2 b hb
      omega
    · have hread : mread ((a, v) :: cells) o = mread cells o := if_neg ho
      rw [hread]
      exact ih hcells.2 ((mread_mwrite_ne v (by omega)).trans hm)

/-- An engine with a record's bytes in the units of an allotment, which is live. -/
def Engine.restored (x : Engine) (base : Nat) (r : SaveRec) (tag : BitVec 16) : Engine :=
  { x with store := putCells (base * unitBytes) r.cells (mzero x.store (base * unitBytes) (r.units * unitBytes)),
           allots := tmap x.allots fun _ (k : Allot) =>
             if k.owner = tag ∧ k.state = .restoring then { k with state := .live } else k }

/-- A context without a record that has been restored. -/
def Context.unrecorded (r : SaveRec) (bytes : Nat) (x : Context) : Context :=
  { x with sched := { x.sched with saved := x.sched.saved.erase r },
           acct := { x.acct with switchBytes := bump x.acct.switchBytes bytes } }

theorem exec_recordRestoreComplete_allot {s : State} {c e i : Nat} {r : SaveRec} {a : Allot} (hup : s.up = true)
    (hr : (s.ctx c).sched.saved.find? (fun r => r.into == some e) = some r) (ha : s.allotOf e c = some (i, a))
    (hscrub : (s.engine e).scrubbing a.base r.units = false) : ∃ bytes launches, exec (.recordRestoreComplete c e) s =
      .next { (s.setEngine e ((s.engine e).restored a.base r (s.tag c))).setCtx c ((s.ctx c).unrecorded r bytes) with
        launches := launches } := by
  obtain ⟨launches, h⟩ := State.foldl_startReady_onlyLaunches
    (((s.engine e).restored a.base r (s.tag c)).slots.map (·.2))
    ((s.setEngine e ((s.engine e).restored a.base r (s.tag c))).setCtx c ((s.ctx c).unrecorded r
      ((s.setEngine e ((s.engine e).restored a.base r (s.tag c))).recordBytes r)))
  refine ⟨_, launches, congrArg Host.Outcome.next ((State.work_of_up hup _).trans (Eq.trans ?_ h))⟩
  simp only [hr, ha, hscrub, Option.map_some, Option.getD_some, Bool.false_eq_true, if_false]
  rw [State.modCtx]
  simp only [State.engine_setCtx, State.engine_modEngine]
  rfl

/-! ### The obligation -/

/-- Settles O45: the launch that a round places stays in its slot (`State.Seated.rounds`), `State.foldl_saveOn_hasSaved`
gives the records of a switch-out, and `mread_putCells` the bytes of a restored one. -/
theorem dispatchAndContextSwitch : Obligations.DispatchAndContextSwitch := by
  refine ⟨?dispatch, ?slot, ?residency, ?allotWait, ?evict, ?schedCtrl, ?switchOut, ?outComplete, ?switchIn, ?restore⟩
  case dispatch =>
    intro s p c k e n m d bound fold hup hpaused hsched hreplay hmin hforeign hchoose hm hctx hd hplan hn hb hlaunches hslots
    rw [← hctx] at hplan
    obtain ⟨capSet, seq, now, st, hseat⟩ := State.startWg_seated hplan hn hb hlaunches hslots (k := k)
    have hrounds := hseat.rounds rfl 511 p []
    rw [← State.rounds_workgroup hreplay hmin hforeign hchoose hm hd 511, State.nextId_look] at hrounds
    obtain ⟨ctxs, hnote⟩ := State.noteWaiting_spec (State.rounds 512 (s.look p) p []) p
    have hexec := exec_dispatchRound hup hpaused hsched
    rw [hnote] at hexec
    exact ⟨_, _, hexec, hrounds.listed, rfl, m.nextWg_ctx.trans hctx, rfl, rfl, rfl, hrounds.held,
      ((s.look_onlyLooked p).onlyDispatched.trans (State.rounds_onlyDispatched 512 _ p [])).memories⟩
  case slot =>
    intro s p c d e n id l hup hstate hstatic hpaused hlate hd hlt hl hplace hnone
    have htakes := State.slotsFor_takes hd hlt hl hplace
    have hwaiting : ((s.look p).setLaunch id { l with stop := some .preempt }).waitingIn p = [] :=
      List.filter_eq_nil_iff.mpr fun w hw => by simpa using hnone w hw
    rw [exec_sliceBoundary hup hstate hstatic hpaused hlate, List.foldl_cons, htakes, List.foldl_nil, hwaiting,
      State.slicesOut_noneWaiting]
  case residency =>
    intro s p w c hup hstate hstatic hpaused hlate hwaiting hfree hout
    have hw : (s.look p).waitingIn p = [w] := hwaiting
    rw [exec_sliceBoundary hup hstate hstatic hpaused hlate, List.foldl_nil, hw, State.slicesOut_free hout hfree]
  case allotWait =>
    intro s p e c rest hup hstatic hengines hstuck hc
    exact exec_allotWaitTimeout hup hstatic hengines hstuck hc
  case evict =>
    intro s p c hup hwaiting hnone hc
    exact exec_evict_idle hup hwaiting hnone hc
  case schedCtrl =>
    intro s p v hup hdec hfw hp
    rw [exec_schedCtrlWrite hup hdec hfw hp]
    exact ⟨fun h => by rw [if_pos h], fun h => by rw [if_neg (by omega)]⟩
  case switchOut =>
    intro s c k hup hlive hk hin hlaunches hcmds hfes
    have hctx : ((s.setCtx c ((s.ctx c).leaving.slotsReleased s.stillBlocked)).schedCount (s.ctx c).part 0).ctx c =
        (s.ctx c).leaving.slotsReleased s.stillBlocked := s.ctx_setCtx c _
    refine ⟨_, exec_switchOut_nothing hlaunches hcmds hfes hup hlive hk hin, ?_⟩
    rw [hctx]
    exact ⟨rfl, rfl, rfl, Context.slotsReleased_asleep _ _, fun d hd => State.ctx_setCtx_ne _ _ hd, rfl⟩
  case outComplete =>
    intro s c hup hout hslot
    refine ⟨_, exec_switchOutComplete_released hup hout hslot, ?_, fun e i a he ha => ?_, fun e => ?_⟩
    · rw [State.modCtx, State.ctx_setCtx]
      rfl
    · obtain ⟨hgone, hrecord, hscrubbed⟩ := State.foldl_saveOn_hasSaved List.nodup_range (List.mem_range.mpr he) ha
      refine ⟨hgone, ?_, hscrubbed⟩
      rw [State.modCtx, State.ctx_setCtx]
      exact hrecord
    · exact State.foldl_saveOn_store _ s c e
  case switchIn =>
    intro s c k hup hwaits hpaused hstand hk haway hhold
    obtain ⟨acct, htake⟩ := s.takeSlot_spec c k
    refine ⟨_, (exec_switchIn_itself hup hwaits hpaused hstand hk haway hhold).trans (congrArg _ htake), ?_⟩
    rw [State.ctx_setCtx]
    exact ⟨rfl, rfl, rfl, fun d hd => State.ctx_setCtx_ne _ _ hd, rfl⟩
  case restore =>
    intro s c e i r a hup hr ha hscrub hwf hinside
    obtain ⟨bytes, launches, hexec⟩ := exec_recordRestoreComplete_allot hup hr ha hscrub
    have hstore := congrArg Engine.store (s.engine_setEngine e ((s.engine e).restored a.base r (s.tag c)))
    refine ⟨_, hexec, fun o ho => ?_, fun b hb => ?_, congrArg (·.sched.saved) (State.ctx_setCtx _ c _), rfl⟩
    · refine (congrArg (mread · _) hstore).trans (mread_putCells hwf ?_)
      rw [mread_mzero, if_pos (by omega)]
    · refine (congrArg (mread · _) hstore).trans ((mread_putCells_out (fun x hx => ?_) _).trans ?_)
      · have := hinside x hx
        omega
      · rw [mread_mzero, if_neg (by omega)]

end Sys2Proof.Machine
end

section
/-! The Osash fabric (chapter 12), continued: the wiring rule (R592, R593). -/

namespace Sys2Proof.Machine

/-! ### Hub IDs (R587) -/

theorem hubX_lt (h : Nat) : hubX h < 32 := Nat.mod_lt _ (by decide)

theorem hubY_lt (h : Nat) : hubY h < 32 := Nat.mod_lt _ (by decide)

theorem hubH_lt (h : Nat) : hubH h < 8 := Nat.mod_lt _ (by decide)

theorem hubX_eq (h : Nat) : hubX h = h / 256 % 32 := by simp [hubX, fld, Nat.shiftRight_eq_div_pow]

theorem hubY_eq (h : Nat) : hubY h = h / 8 % 32 := by simp [hubY, fld, Nat.shiftRight_eq_div_pow]

theorem hubH_eq (h : Nat) : hubH h = h % 8 := by simp [hubH, fld]

@[simp] theorem hubX_mkHub (x y h : Nat) : hubX (mkHub x y h) = x % 32 := by
  rw [hubX_eq, mkHub]; omega

@[simp] theorem hubY_mkHub (x y h : Nat) : hubY (mkHub x y h) = y % 32 := by
  rw [hubY_eq, mkHub]; omega

@[simp] theorem hubH_mkHub (x y h : Nat) : hubH (mkHub x y h) = h % 8 := by
  rw [hubH_eq, mkHub]; omega

theorem mkHub_lt (x y h : Nat) : mkHub x y h < 8192 := by
  rw [mkHub]; omega

/-- A hub ID is made of its coordinates. -/
theorem mkHub_of_coords {h x y i : Nat} (hh : h < 8192) (hx : x % 32 = hubX h) (hy : y % 32 = hubY h)
    (hi : i % 8 = hubH h) : mkHub x y i = h := by
  rw [mkHub, hx, hy, hi, hubX_eq, hubY_eq, hubH_eq]; omega

/-! ### The three kinds of links (Table 12-7) -/

/-- Ports 0 to 6: the links within a group of eight. -/
theorem wiredPeer_group {ports p : Nat} (h : Nat) (hp : p < 7) :
    wiredPeer ports h p = some (mkHub (hubX h) (hubY h) (hubH h + p + 1), 6 - p) := if_pos hp

/-- Ports 7 to 14: the links along a row. -/
theorem wiredPeer_row (h : Nat) {p : Nat} (hlo : 7 ≤ p) (hhi : p < 15) : wiredPeer 20 h p =
    if 62 ≤ 8 * (p - 7) + hubH h then none
    else some (mkHub (hubX h + ((8 * (p - 7) + hubH h) / 2 + 1)) (hubY h)
      ((2 * (31 - ((8 * (p - 7) + hubH h) / 2 + 1)) + (8 * (p - 7) + hubH h) % 2) % 8),
      7 + (2 * (31 - ((8 * (p - 7) + hubH h) / 2 + 1)) + (8 * (p - 7) + hubH h) % 2) / 8) := by
  simp [wiredPeer, hhi, Nat.not_lt.mpr hlo]

/-- Ports 15 to 18: the links along a column. -/
theorem wiredPeer_column (h : Nat) {p : Nat} (hlo : 15 ≤ p) (hhi : p < 19) : wiredPeer 20 h p =
    if 31 ≤ 8 * (p - 15) + hubH h then none
    else some (mkHub (hubX h) (hubY h + (8 * (p - 15) + hubH h + 1)) ((31 - (8 * (p - 15) + hubH h + 1)) % 8),
      15 + (31 - (8 * (p - 15) + hubH h + 1)) / 8) := by
  simp [wiredPeer, hhi, Nat.not_lt.mpr hlo, show ¬p < 7 by omega]

theorem wiredPeer_beyond (h : Nat) {p : Nat} (hp : 19 ≤ p) : wiredPeer 20 h p = none := by
  simp [wiredPeer, Nat.not_lt.mpr hp, show ¬p < 7 by omega, show ¬p < 15 by omega]

/-- Within a group, port `6 - p` of the peer leads back. -/
theorem wiredPeer_group_back {ports p : Nat} {h : Nat} (hh : h < 8192) (hp : p < 7) :
    wiredPeer ports (mkHub (hubX h) (hubY h) (hubH h + p + 1)) (6 - p) = some (h, p) := by
  have hx := hubX_lt h
  have hy := hubY_lt h
  have hi := hubH_lt h
  rw [wiredPeer_group _ (by omega), hubX_mkHub, hubY_mkHub, hubH_mkHub,
    mkHub_of_coords hh (by omega) (by omega) (by omega), show 6 - (6 - p) = p by omega]

/-- Port 7 of a hub of one group of eight leads across the group (R593). -/
theorem wiredPeer_across : ∀ h < 8, wiredPeer 8 h 7 = some (h ^^^ 4, 7) ∧ h ^^^ 4 < 8 ∧ h ^^^ 4 ≠ h ∧
    h ^^^ 4 ^^^ 4 = h := by decide

/-! ### Every link leads back -/

/-- A link of port `p` of hub `h`, where there is one, ends at a port of another hub whose link ends here. -/
def WiredBack (ports h p : Nat) : Prop :=
  ∀ h' p', wiredPeer ports h p = some (h', p') → h' < 8192 ∧ p' < ports ∧ h' ≠ h ∧ wiredPeer ports h' p' = some (h, p)

theorem wiredBack_group {ports h p : Nat} (hh : h < 8192) (hp : p < 7) (hports : 7 ≤ ports) : WiredBack ports h p := by
  intro h' p' hpeer
  obtain ⟨rfl, rfl⟩ : mkHub (hubX h) (hubY h) (hubH h + p + 1) = h' ∧ 6 - p = p' := by
    simpa [wiredPeer_group h hp] using hpeer
  refine ⟨mkHub_lt _ _ _, by omega, fun e => ?_, wiredPeer_group_back hh hp⟩
  have := congrArg hubH e
  rw [hubH_mkHub] at this
  omega

theorem wiredBack_across {h : Nat} (hh : h < 8) : WiredBack 8 h 7 := by
  intro h' p' hpeer
  obtain ⟨hfwd, hlt, hne, hback⟩ := wiredPeer_across h hh
  obtain ⟨rfl, rfl⟩ : h ^^^ 4 = h' ∧ 7 = p' := by simpa [hfwd] using hpeer
  exact ⟨by omega, by decide, hne, by rw [(wiredPeer_across _ hlt).1, hback]⟩

theorem wiredBack_row {h p : Nat} (hh : h < 8192) (hlo : 7 ≤ p) (hhi : p < 15) : WiredBack 20 h p := by
  intro h' p' hpeer
  have hx := hubX_lt h
  have hy := hubY_lt h
  have hi := hubH_lt h
  rw [wiredPeer_row h hlo hhi] at hpeer
  split at hpeer
  · cases hpeer
  next hq =>
    obtain ⟨rfl, rfl⟩ := Prod.mk.inj (Option.some.inj hpeer)
    refine ⟨mkHub_lt _ _ _, by omega, fun e => ?_, ?_⟩
    · have := congrArg hubX e
      rw [hubX_mkHub] at this
      omega
    · rw [wiredPeer_row _ (by omega) (by omega), hubX_mkHub, hubY_mkHub, hubH_mkHub, if_neg (by omega),
        mkHub_of_coords hh (by omega) (by omega) (by omega)]
      simp only [Option.some.injEq, Prod.mk.injEq, true_and]
      omega

theorem wiredBack_column {h p : Nat} (hh : h < 8192) (hlo : 15 ≤ p) (hhi : p < 19) : WiredBack 20 h p := by
  intro h' p' hpeer
  have hx := hubX_lt h
  have hy := hubY_lt h
  have hi := hubH_lt h
  rw [wiredPeer_column h hlo hhi] at hpeer
  split at hpeer
  · cases hpeer
  next hq =>
    obtain ⟨rfl, rfl⟩ := Prod.mk.inj (Option.some.inj hpeer)
    refine ⟨mkHub_lt _ _ _, by omega, fun e => ?_, ?_⟩
    · have := congrArg hubY e
      rw [hubY_mkHub] at this
      omega
    · rw [wiredPeer_column _ (by omega) (by omega), hubX_mkHub, hubY_mkHub, hubH_mkHub, if_neg (by omega),
        mkHub_of_coords hh (by omega) (by omega) (by omega)]
      simp only [Option.some.injEq, Prod.mk.injEq, true_and]
      omega

/-- Settles O52: each kind of link leads back to where it started. -/
theorem wiringIsSymmetric : Obligations.WiringIsSymmetric := by
  rintro ports h p h' p' (⟨rfl, hh⟩ | ⟨rfl, hh⟩) hpeer
  · by_cases hp : p < 7
    · exact wiredBack_group (by omega) hp (by decide) h' p' hpeer
    · obtain rfl | hne := Decidable.eq_or_ne p 7
      · exact wiredBack_across hh h' p' hpeer
      · simp [wiredPeer, hp, hne] at hpeer
  · obtain hp | hp | hp | hp : p < 7 ∨ 7 ≤ p ∧ p < 15 ∨ 15 ≤ p ∧ p < 19 ∨ 19 ≤ p := by omega
    · exact wiredBack_group hh hp (by decide) h' p' hpeer
    · exact wiredBack_row hh hp.1 hp.2 h' p' hpeer
    · exact wiredBack_column hh hp.1 hp.2 h' p' hpeer
    · rw [wiredPeer_beyond h hp] at hpeer
      cases hpeer

end Sys2Proof.Machine
end

section
/-! Power, clocks and thermal control (chapter 18), continued: limits, and the control interval (R816 to R826, R836). -/

namespace Sys2Proof.Machine

/-! ### Writes of limits (R818, R836) -/

theorem exec_pwrLimitWrite {s : State} (v : BitVec 64) (hd : s.decodes .pf = true) : exec (.pwrLimitWrite v) s = .next
    (if fld v.toNat 15 0 < 1000 ∨ 2480 < fld v.toNat 15 0 then s
     else if fld v.toNat 15 0 <
        nonEngine s.build + ((s.units.parts.filter fun e => e.2.state != 0).map fun e => e.2.power).sum then
      { s with pw := { s.pw with limitRefused := true } }
     else { s with pw := { s.pw with limit := fld v.toNat 15 0 } }) :=
  congrArg Host.Outcome.next (if_neg (by simp [hd]))

theorem exec_pwrFmaxWrite {s : State} (v : BitVec 64) (hd : s.decodes .pf = true) : exec (.pwrFmaxWrite v) s = .next
    (if fld v.toNat 10 0 < 400 ∨ 1250 < fld v.toNat 10 0 ∨ fld v.toNat 10 0 % 25 ≠ 0 then s
     else { s with pw := { s.pw with fmax := fld v.toNat 10 0, fmaxEff :=
        if s.pw.fmaxEff = s.pw.fmax then fld v.toNat 10 0 else min (fld v.toNat 10 0) s.pw.fmaxEff } }) :=
  congrArg Host.Outcome.next (if_neg (by simp [hd]))

theorem exec_thermLimitsWrite {s : State} (v : BitVec 64) (hd : s.decodes .pf = true) : exec (.thermLimitsWrite v) s = .next
    (if fld v.toNat 26 16 ≤ fld v.toNat 10 0 ∨ s.pw.trip ≤ fld v.toNat 26 16 ∨ s.pw.trip ≤ fld v.toNat 10 0 then s
     else { s with pw := { s.pw with emerg := fld v.toNat 26 16, warn := fld v.toNat 10 0 } }) :=
  congrArg Host.Outcome.next (if_neg (by simp [hd]))

/-- The PF writes nothing while it does not decode (R664). -/
theorem exec_pwrLimitWrite_undecoded {s : State} (v : BitVec 64) (hd : s.decodes .pf = false) :
    exec (.pwrLimitWrite v) s = .next s := congrArg Host.Outcome.next (if_pos (by simp [hd]))

theorem exec_pwrFmaxWrite_undecoded {s : State} (v : BitVec 64) (hd : s.decodes .pf = false) :
    exec (.pwrFmaxWrite v) s = .next s := congrArg Host.Outcome.next (if_pos (by simp [hd]))

theorem exec_thermLimitsWrite_undecoded {s : State} (v : BitVec 64) (hd : s.decodes .pf = false) :
    exec (.thermLimitsWrite v) s = .next s := congrArg Host.Outcome.next (if_pos (by simp [hd]))

/-- A pair of thermal limits that breaks R836 in either value is ignored. -/
theorem exec_thermLimitsWrite_ignored {s : State} {v : BitVec 64} (h : fld v.toNat 26 16 ≤ fld v.toNat 10 0 ∨
    s.pw.trip ≤ fld v.toNat 26 16 ∨ s.pw.trip ≤ fld v.toNat 10 0) : exec (.thermLimitsWrite v) s = .next s := by
  cases hd : s.decodes .pf with
  | false => exact exec_thermLimitsWrite_undecoded v hd
  | true => rw [exec_thermLimitsWrite v hd, if_pos h]

/-- Settles O9: each write's own check keeps the old value, whether the PF decodes or not. -/
theorem badLimitsKeepThePreviousValue : Obligations.BadLimitsKeepThePreviousValue := by
  refine ⟨fun s v h => exec_thermLimitsWrite_ignored (.inl h), fun s v h => exec_thermLimitsWrite_ignored (.inr h),
    fun s v h => ?_⟩
  cases hd : s.decodes .pf with
  | false => exact exec_pwrFmaxWrite_undecoded v hd
  | true => rw [exec_pwrFmaxWrite v hd, if_pos h]

/-! ### The control interval (R816 to R826) -/

/-- A run over a list that changes nothing at any of its elements changes nothing. -/
theorem foldl_fixed_of_mem {α β : Type} {f : β → α → β} {b : β} {l : List α} (h : ∀ a ∈ l, f b a = b) :
    l.foldl f b = b := by
  induction l with
  | nil => rfl
  | cons a l ih =>
    rw [List.foldl_cons, h a List.mem_cons_self, ih fun x hx => h x (List.mem_cons_of_mem _ hx)]

/-- What an interval leaves of the power block when no partition is open, no engine has drawn energy, and every engine
idles at 400 MHz. -/
def State.idleInterval (s : State) (sensors : List (Nat × BitVec 11)) : Power :=
  { s.pw.readSensors sensors with throttling := false, estimate := nonEngine s.build + Config.excess s.now / quarterPj }

theorem exec_powerInterval_idle {s : State} (sensors : List (Nat × BitVec 11)) (hup : s.up = true)
    (hparts : s.units.parts = []) (hidle : ∀ e, e < s.build.engines → (s.engine e).freq = 400) :
    exec (.powerInterval sensors []) s = .next { s with pw := s.idleInterval sensors } := by
  refine congrArg Host.Outcome.next ((State.work_of_up hup _).trans ?_)
  simp only [State.openParts, hparts, List.filter_nil, List.foldl_nil, List.map_nil, List.flatMap_nil, List.sum_nil,
    waterFill]
  rw [foldl_fixed_of_mem]
  · simp [State.idleInterval, State.now]
  · intro e he
    simp only [List.mem_filter, List.mem_range] at he
    exact if_pos (.inr (hidle e he.1.1))

/-- One valid code above WARN lowers PWR_FMAX in effect (R831). -/
theorem Power.readSensors_hot (p : Power) {n : Nat} {c : BitVec 11} (hn : n < 32) (hc : p.warn < c.toNat) :
    p.readSensors [(n, c)] =
      { p with codes := tput p.codes n c.toNat, valid := 2 ^ n, fmaxEff := max 400 (p.fmaxEff - 25) } := by
  simp [Power.readSensors, Power.sense, hn, hc, bit]

/-- Settles O10: each write by its checks, and the intervals by `exec_powerInterval_idle`. -/
theorem powerBlock : Obligations.PowerBlock := by
  refine ⟨?taken, ?refused, ?ignored, ?fmax, ?therm, ?cold, ?hot⟩
  case taken =>
    intro s v hd hlo hhi hcovers
    rw [exec_pwrLimitWrite v hd, if_neg (by omega), if_neg (Nat.not_lt.mpr hcovers)]
  case refused =>
    intro s v hd hlo hhi hshort
    rw [exec_pwrLimitWrite v hd, if_neg (by omega), if_pos hshort]
  case ignored =>
    intro s v hout
    cases hd : s.decodes .pf with
    | false => exact exec_pwrLimitWrite_undecoded v hd
    | true => rw [exec_pwrLimitWrite v hd, if_pos hout]
  case fmax =>
    intro s v hd hlo hhi hstep
    refine ⟨_, (exec_pwrFmaxWrite v hd).trans (congrArg _ (if_neg (by omega))), rfl, ?_, rfl⟩
    show ite _ _ _ ≤ _
    split
    · exact Nat.le_refl _
    · exact Nat.min_le_left _ _
  case therm =>
    intro s v hd hwarn htrip
    rw [exec_thermLimitsWrite v hd, if_neg (by omega)]
  case cold =>
    intro s hup hparts _ hidle
    exact ⟨_, exec_powerInterval_idle [] hup hparts hidle, rfl, rfl, rfl, rfl, rfl⟩
  case hot =>
    intro s n c hup hparts hn hc hidle
    refine ⟨_, exec_powerInterval_idle [(n, c)] hup hparts hidle, ?_, ?_, ?_, rfl⟩ <;>
      simp [State.idleInterval, s.pw.readSensors_hot hn hc]

end Sys2Proof.Machine
end

section
/-! The host endpoint (chapter 14), continued: interrupts, notification registers and messages between functions (R678 to
R686). -/

namespace Sys2Proof.Machine

/-! ### Causes (R678, R679) -/

theorem bit_or_two_pow (x i : Nat) : bit (x ||| 2 ^ i) i = true := by
  simp [bit, Nat.testBit_or]

theorem bit_sub_two_pow {x i : Nat} (h : bit x i = true) : bit (x - 2 ^ i) i = false := by
  simp only [bit, Nat.testBit_eq_decide_div_mod_eq, decide_eq_true_eq, decide_eq_false_iff_not] at h ⊢
  have hdiv := Nat.sub_mul_div x (2 ^ i) 1
  rw [Nat.mul_one] at hdiv
  omega

/-- A raised cause is set. -/
theorem IntBlock.raise_status (b : IntBlock) (c : Nat) : bit (b.raise c).1.status c = true := by
  simp only [IntBlock.raise]
  split
  · assumption
  · split <;> exact bit_or_two_pow _ _

/-- A cause of the PF is set, and nothing but its interrupt side and what is sent changes. -/
theorem State.raise_pf_spec (s : State) (c : Nat) : ∃ int out,
    s.raise .pf c = { s with ep := { s.ep with int := int }, out := out } ∧ bit int.status c = true := by
  refine ⟨(s.ep.int.raise c).1, (s.raise .pf c).out, ?_, IntBlock.raise_status _ _⟩
  simp only [State.raise]
  split <;> rfl

/-- As `raise_pf_spec`, for a VF that is not in reset. -/
theorem State.raise_vf_spec {s : State} {v : Nat} (hr : (s.vf v).resetting = false) (c : Nat) : ∃ int out,
    s.raise (.vf v) c = { s.setVf v { s.vf v with int := int } with out := out } ∧ bit int.status c = true := by
  refine ⟨((s.vf v).int.raise c).1, (s.raise (.vf v) c).out, ?_, IntBlock.raise_status _ _⟩
  simp only [State.raise, hr, Bool.false_eq_true, if_false]
  split <;> rfl

/-! ### MSI-X and INT_STATUS (R678 to R680) -/

theorem mem_insertIdx (k : List Nat) (i : Nat) : i ∈ insertIdx k i := by
  rw [insertIdx]
  split
  next h => exact List.contains_iff_mem.mp h
  next => exact List.mem_append_right _ List.mem_cons_self

theorem exec_msixUnmask_pf {s : State} {v : Nat} (hd : s.decodes .pf = true) (hv : v < 16) :
    exec (.msixUnmask .pf v) s = .next (s.unmask .pf v) := by
  have hw : (s.decodes .pf && decide (v < vectors .pf)) = true := by rw [hd, vectors, decide_eq_true hv]; rfl
  exact congrArg Host.Outcome.next ((State.work_of_up (State.up_of_decodes hd) _).trans (if_pos hw))

theorem exec_intStatusClear {s : State} {fn : Fn} (v hwSet : BitVec 64) (hd : s.decodesBase fn = true) :
    exec (.intStatusClear fn v hwSet) s = .next (((List.range (causes fn)).filter fun i => bit hwSet.toNat i).foldl
      (fun s i => s.raise fn i) (s.setInts fn { s.ints fn with
        status := (s.ints fn).status - ((s.ints fn).status &&& (v.toNat % 2 ^ causes fn)) })) :=
  congrArg Host.Outcome.next (if_neg (by simp [hd]))

/-- With no cause set in the same cycle, the clearing of the bits is all. -/
theorem exec_intStatusClear_quiet {s : State} {fn : Fn} (v : BitVec 64) (hd : s.decodesBase fn = true) :
    exec (.intStatusClear fn v 0) s = .next (s.setInts fn { s.ints fn with
        status := (s.ints fn).status - ((s.ints fn).status &&& (v.toNat % 2 ^ causes fn)) }) := by
  rw [exec_intStatusClear v 0 hd, List.filter_eq_nil_iff.mpr fun i _ => by simp [bit], List.foldl_nil]

/-! ### Notification registers (R681 to R684) -/

theorem exec_notifyHeadWrite {s : State} {v : Nat} {w : BitVec 64} (hd : s.decodes (.vf v) = true)
    (h : ahead32 (w.toNat % 2 ^ 32) (s.vf v).notifyTail ≤ ahead32 (s.vf v).notifyHead (s.vf v).notifyTail) :
    exec (.notifyHeadWrite v w) s = .next (s.setVf v { s.vf v with notifyHead := w.toNat % 2 ^ 32 }) :=
  congrArg Host.Outcome.next (if_pos (by rw [hd, decide_eq_true h]; rfl))

/-- NOTIFY_CTRL takes its size only while the ring is disabled. -/
def Vf.notifyCtrl (x : Vf) (w size : Nat) : Vf :=
  { x with notifyOverflow := x.notifyOverflow && !bit w 9, notifySize := size,
           notifyEnable := bit w 8 && decide (9 ≤ size) && decide (size ≤ 16) }

theorem exec_notifyCtrlWrite {s : State} {v : Nat} (w : BitVec 64) (hd : s.decodes (.vf v) = true) :
    exec (.notifyCtrlWrite v w) s = .next (s.setVf v ((s.vf v).notifyCtrl w.toNat
      (if (s.vf v).notifyEnable then (s.vf v).notifySize else fld w.toNat 4 0))) :=
  congrArg Host.Outcome.next (if_neg (by simp [hd]))

/-! ### Messages between the PF and its VFs (R685, R686) -/

/-- The inbox takes the four words of the other side's outbox. -/
theorem MsgSide.inbox_copyTo (a b : MsgSide) {i : Nat} (hi : i < 4) : tget 0 (a.copyTo b).inbox i = tget 0 a.out i := by
  obtain rfl | rfl | rfl | rfl : i = 0 ∨ i = 1 ∨ i = 2 ∨ i = 3 := by omega
  all_goals rfl

/-- The messages of the PF and of a VF after the VF has sent one. -/
def State.sentToPf (s : State) (v : Nat) : State :=
  let t := s.setVf v { s.vf v with msg := { (s.vf v).msg with toBusy := true } }
  { t with ep := { t.ep with msgs := tput s.ep.msgs v ((s.vf v).msg.copyTo (tget {} s.ep.msgs v)),
                             msgPending := s.ep.msgPending ||| 2 ^ v } }

/-- The messages of the PF and of a VF after the PF has sent one. -/
def State.sentToVf (s : State) (v : Nat) : State :=
  State.setVf { s with ep := { s.ep with msgs := tput s.ep.msgs v { tget {} s.ep.msgs v with toBusy := true } } } v
    { s.vf v with msg := { ((tget {} s.ep.msgs v).copyTo (s.vf v).msg) with fromValid := true } }

theorem exec_msgSend_vf {s : State} {v : Nat} (hd : s.decodes (.vf v) = true) (hb : (s.vf v).msg.toBusy = false) :
    exec (.msgSend true v) s = .next ((s.sentToPf v).raise .pf 3) := by
  have hd' : ¬(!s.decodes (.vf v)) = true := by simp [hd]
  have hb' : ¬(s.vf v).msg.toBusy = true := by simp [hb]
  exact congrArg Host.Outcome.next ((if_neg hd').trans (if_neg hb'))

theorem exec_msgSend_vf_busy {s : State} {v : Nat} (hd : s.decodes (.vf v) = true) (hb : (s.vf v).msg.toBusy = true) :
    exec (.msgSend true v) s = .next (s.setVf v { s.vf v with msg := { (s.vf v).msg with lost := true } }) := by
  have hd' : ¬(!s.decodes (.vf v)) = true := by simp [hd]
  exact congrArg Host.Outcome.next ((if_neg hd').trans (if_pos hb))

theorem exec_msgSend_pf {s : State} {v : Nat} (hd : s.decodes .pf = true) (hv : v < 64)
    (hb : (tget {} s.ep.msgs v).toBusy = false) :
    exec (.msgSend false v) s = .next ((s.sentToVf v).raise (.vf v) 5) := by
  have hd' : ¬(!s.decodes .pf || decide (64 ≤ v)) = true := by simp [hd, hv]
  have hb' : ¬(tget {} s.ep.msgs v).toBusy = true := by simp [hb]
  exact congrArg Host.Outcome.next ((if_neg hd').trans (if_neg hb'))

theorem exec_msgPendingClear_vf {s : State} {v : Nat} (hd : s.decodes (.vf v) = true)
    (hv : (s.vf v).msg.fromValid = true) : exec (.msgPendingClear true v) s = .next
      (let t := s.setVf v { s.vf v with msg := { (s.vf v).msg with fromValid := false } }
       { t with ep := { t.ep with msgs := tmod {} s.ep.msgs v fun m => { m with toBusy := false } } }) := by
  have h : ¬(!s.decodes (.vf v) || !(s.vf v).msg.fromValid) = true := by simp [hd, hv]
  exact congrArg Host.Outcome.next (if_neg h)

theorem exec_msgPendingClear_pf {s : State} {v : Nat} (hd : s.decodesBase .pf = true)
    (hp : bit s.ep.msgPending v = true) : exec (.msgPendingClear false v) s = .next
      (let t := s.setVf v { s.vf v with msg := { (s.vf v).msg with toBusy := false } }
       { t with ep := { t.ep with msgPending := s.ep.msgPending - 2 ^ v } }) := by
  have h : ¬(!s.decodesBase .pf || !bit s.ep.msgPending v) = true := by simp [hd, hp]
  exact congrArg Host.Outcome.next (if_neg h)

/-- Settles O13: the rule of each command, with `raise_pf_spec` and `raise_vf_spec` for the causes raised. -/
theorem interruptsAndMessages : Obligations.InterruptsAndMessages := by
  refine ⟨?unmask, ?clearPf, ?clearVf, ?setMeanwhile, ?head, ?ctrlOff, ?ctrlOn, ?vfSends, ?vfBusy, ?pfSends, ?vfTook,
    ?pfTook⟩
  case unmask =>
    intro s v hd hv
    refine ⟨_, exec_msixUnmask_pf hd hv, ?_⟩
    simp only [State.unmask, State.ints, State.setInts]
    have hin := mem_insertIdx s.ep.int.unmasked v
    by_cases hp : v ∈ s.ep.int.pending
    · simp [hp, hin]
    · simp [hp, hin]
  case clearPf =>
    intro s w hd
    exact exec_intStatusClear_quiet w hd
  case clearVf =>
    intro s v w hd
    exact exec_intStatusClear_quiet w hd
  case setMeanwhile =>
    intro s w hd
    have hone : ((List.range (causes .pf)).filter fun i => bit (1 : BitVec 64).toNat i) = [0] := by decide
    rw [exec_intStatusClear w 1 hd, hone, List.foldl_cons, List.foldl_nil]
    obtain ⟨int, out, hraise, hset⟩ := State.raise_pf_spec (s.setInts .pf _) 0
    exact ⟨_, rfl, by rw [hraise]; exact hset⟩
  case head =>
    intro s v w hd h
    exact exec_notifyHeadWrite hd h
  case ctrlOff =>
    intro s v w hd he
    rw [exec_notifyCtrlWrite w hd, if_neg (by simp [he]), Vf.notifyCtrl]
  case ctrlOn =>
    intro s v w hd he
    refine ⟨_, exec_notifyCtrlWrite w hd, ?_⟩
    rw [State.vf_setVf, Vf.notifyCtrl, if_pos he]
  case vfSends =>
    intro s v hd hb
    obtain ⟨int, out, hraise, hset⟩ := (s.sentToPf v).raise_pf_spec 3
    refine ⟨_, (exec_msgSend_vf hd hb).trans (congrArg _ hraise), ?_, bit_or_two_pow _ _, hset, fun i hi => ?_, rfl⟩
    · exact congrArg (·.msg.toBusy) (s.vf_setVf v _)
    · exact (congrArg (fun m : MsgSide => tget 0 m.inbox i) (tget_tput _ _ _ _)).trans (MsgSide.inbox_copyTo _ _ hi)
  case vfBusy =>
    intro s v hd hb
    exact exec_msgSend_vf_busy hd hb
  case pfSends =>
    intro s v hd hv hb hr
    have hvf : (s.sentToVf v).vf v =
      { s.vf v with msg := { ((tget {} s.ep.msgs v).copyTo (s.vf v).msg) with fromValid := true } } := State.vf_setVf ..
    obtain ⟨int, out, hraise, hset⟩ := State.raise_vf_spec (s := s.sentToVf v) (v := v) (by rw [hvf]; exact hr) 5
    have hvf' : (({ (s.sentToVf v).setVf v { (s.sentToVf v).vf v with int := int } with out := out } : State).vf v) =
      { (s.sentToVf v).vf v with int := int } := State.vf_setVf ..
    refine ⟨_, (exec_msgSend_pf hd hv hb).trans (congrArg _ hraise), ?_, ?_, ?_, fun i hi => ?_, rfl⟩
    · exact congrArg MsgSide.toBusy (tget_tput _ _ _ _)
    · rw [hvf', hvf]
    · rw [hvf']; exact hset
    · rw [hvf', hvf]; exact (tget {} s.ep.msgs v).inbox_copyTo (s.vf v).msg hi
  case vfTook =>
    intro s v hd hv
    refine ⟨_, exec_msgPendingClear_vf hd hv, ?_, ?_, rfl⟩
    · exact congrArg (·.msg.fromValid) (s.vf_setVf v _)
    · exact congrArg MsgSide.toBusy (tget_tput _ _ _ _)
  case pfTook =>
    intro s v hd hp
    refine ⟨_, exec_msgPendingClear_pf hd hp, ?_, bit_sub_two_pow hp, rfl⟩
    exact congrArg (·.msg.toBusy) (s.vf_setVf v _)

end Sys2Proof.Machine
end

section
/-! The host endpoint (chapter 14), continued: accesses through BAR4 (R675 to R677, R843, R853). -/

namespace Sys2Proof.Machine

/-! ### A function that does not decode (R664) -/

theorem exec_bar4Read_undecoded {s : State} {fn : Fn} (o n : Nat) (hd : s.decodes fn = false) : exec (.bar4Read fn o n) s =
    .next { s with out := s.out ++ [Out.completion fn (List.replicate n 0)] } :=
  congrArg Host.Outcome.next (if_pos (by simp [hd]))

theorem exec_bar4Write_undecoded {s : State} {fn : Fn} (o : Nat) (bs : List (BitVec 8)) (hd : s.decodes fn = false) :
    exec (.bar4Write fn o bs) s = .next s := congrArg Host.Outcome.next (if_pos (by simp [hd]))

/-! ### The staging region (R675) -/

theorem exec_bar4Read_pf {s : State} (o n : Nat) (hd : s.decodes .pf = true) : exec (.bar4Read .pf o n) s =
    .next { s with out := s.out ++ [Out.completion .pf (s.stagingRead o n)] } :=
  congrArg Host.Outcome.next (if_neg (by simp [hd]))

theorem exec_bar4Write_pf {s : State} (o : Nat) (bs : List (BitVec 8)) (hd : s.decodes .pf = true) :
    exec (.bar4Write .pf o bs) s = .next (s.stagingWrite o bs) := congrArg Host.Outcome.next (if_neg (by simp [hd]))

/-- A byte below the Floor Plan Table lands in the image buffer. -/
theorem State.stagingWrite_image {s : State} {o : Nat} (b : Byte) (hup : s.stagingUp = true) (ho : o < 0x01F00000) :
    s.stagingWrite o [b] = { s with boot := { s.boot with image := mwrite s.boot.image o b } } := by
  simp [State.stagingWrite, hup, State.stagingPut, ho]

/-! ### The apertures of a VF (R676, R677) -/

/-- The state after a read, with its completion. -/
def Bar4Run.answered (r : Bar4Run) (fn : Fn) : State :=
  { r.finish with out := r.finish.out ++ [Out.completion fn r.bytes] }

theorem exec_bar4Read_vf {s : State} {v : Nat} (o n : Nat) (hd : s.decodes (.vf v) = true) :
    exec (.bar4Read (.vf v) o n) s =
      .next (((lineList o n).foldl (fun (r : Bar4Run) p => r.read v p.1 p.2) { s := s }).answered (.vf v)) :=
  congrArg Host.Outcome.next (if_neg (by simp [hd]))

theorem exec_bar4Write_vf {s : State} {v : Nat} (o : Nat) (bs : List (BitVec 8)) (hd : s.decodes (.vf v) = true) :
    exec (.bar4Write (.vf v) o bs) s = .next ((lineList o bs.length).foldl
      (fun (r : Bar4Run) p => r.write v p.1 ((bs.drop (p.1 - o)).take p.2)) { s := s }).finish :=
  congrArg Host.Outcome.next (if_neg (by simp [hd]))

theorem Bar4Run.write_noAperture {r : Bar4Run} {v o : Nat} (bs : List Byte) (h : r.s.aperture v o = none) :
    r.write v o bs = r := by
  simp [Bar4Run.write, h]

/-- A line of device memory that the context may read. -/
theorem Bar4Run.read_allowed {r : Bar4Run} {v o c va a : Nat} (n : Nat) (h : r.s.aperture v o = some (c, va))
    (hacc : r.s.access ⟨c, 6, ⟨0, 0⟩, []⟩ va = .ok false a) :
    r.read v o n = { r with ctx := some c, bytes := r.bytes ++ mreadN r.s.mem a n, moved := r.moved + n } := by
  simp [Bar4Run.read, h, hacc, State.physRead]

/-- A line of device memory that the context may write. -/
theorem Bar4Run.write_allowed {r : Bar4Run} {v o c va a : Nat} (bs : List Byte) (h : r.s.aperture v o = some (c, va))
    (hacc : r.s.access ⟨c, 7, ⟨0, 0⟩, []⟩ va = .ok false a) : r.write v o bs =
      { r with s := { r.s with mem := mwriteN r.s.mem a bs }, ctx := some c, moved := r.moved + bs.length } := by
  simp [Bar4Run.write, h, hacc, State.physWrite]

/-- An access without a violation and without an absent segment is only charged. -/
theorem Bar4Run.finish_charged {r : Bar4Run} {c : Nat} (hc : r.ctx = some c) (ha : r.absent = false)
    (hv : r.viol.lines = 0) : r.finish = r.s.chargeBytes c 0 r.moved := by
  simp [Bar4Run.finish, hc, ha, hv]

/-- Settles O26: an access within one line runs once, by `Bar4Run.read_allowed` or `Bar4Run.write_allowed`. -/
theorem bar4Accesses : Obligations.Bar4Accesses := by
  refine ⟨?readNone, ?writeNone, ?readPf, ?writePf, ?noAperture, ?readVf, ?writeVf⟩
  case readNone =>
    intro s fn o n hd
    exact exec_bar4Read_undecoded o n hd
  case writeNone =>
    intro s fn o bs hd
    exact exec_bar4Write_undecoded o bs hd
  case readPf =>
    intro s o n hd
    exact exec_bar4Read_pf o n hd
  case writePf =>
    intro s o b hd hup ho
    rw [exec_bar4Write_pf o [b] hd, State.stagingWrite_image b hup ho]
  case noAperture =>
    intro s v o bs hd hnone
    rw [exec_bar4Write_vf o bs hd, foldl_fixed_of_mem fun p _ => Bar4Run.write_noAperture _ (hnone p.1)]
    rfl
  case readVf =>
    intro s v o n c va a hd hn hline hap hacc
    have hread := Bar4Run.read_allowed (r := { s := s }) n hap hacc
    obtain ⟨ctxs, hcharge⟩ := s.chargeBytes_onlyCtxs c 0 (0 + n)
    refine ⟨_, exec_bar4Read_vf o n hd, ?_⟩
    rw [lineList_single (by omega) (by omega), List.foldl_cons, List.foldl_nil, hread,
      Bar4Run.answered, Bar4Run.finish_charged rfl rfl rfl, hcharge]
    exact ⟨rfl, rfl⟩
  case writeVf =>
    intro s v o c va a bs hd hne hline hap hacc
    have hlen := List.length_pos_iff.mpr hne
    have hwrite := Bar4Run.write_allowed (r := { s := s }) bs hap hacc
    obtain ⟨ctxs, hcharge⟩ := State.chargeBytes_onlyCtxs { s with mem := mwriteN s.mem a bs } c 0 (0 + bs.length)
    refine ⟨_, exec_bar4Write_vf o bs hd, ?_⟩
    rw [lineList_single hlen (by omega), List.foldl_cons, List.foldl_nil, Nat.sub_self, List.drop_zero, List.take_length,
      hwrite, Bar4Run.finish_charged rfl rfl rfl, hcharge]
    refine ⟨fun k hk => mread_mwriteN_out hk, fun k hk => ?_, rfl⟩
    rw [List.getD_eq_getElem _ _ hk]
    exact mread_mwriteN_in hk

end Sys2Proof.Machine
end

section
/-! Rosemary (chapter 16): the record-store port, the records, and what a register reads of them (R746 to R764). -/

namespace Sys2Proof.Machine

/-! ### The port (R746, R754, R755, R760) -/

/-- The start of an access changes the port, the repeat that it writes and the bucket, and nothing else. -/
theorem Rosemary.pump_onlyPort (r : Rosemary) : r.pump =
    { r with access := r.pump.access, waiting := r.pump.waiting, dirtyRepeat := r.pump.dirtyRepeat,
             bucket := r.pump.bucket } := by
  unfold Rosemary.pump
  split
  · rfl
  · split
    · rfl
    · split
      · rfl
      · split
        · split
          · rfl
          · split <;> rfl
        · split
          · split <;> rfl
          · rfl

@[simp] theorem Rosemary.pump_circ (r : Rosemary) : r.pump.circ = r.circ := by rw [r.pump_onlyPort]
@[simp] theorem Rosemary.pump_forever (r : Rosemary) : r.pump.forever = r.forever := by rw [r.pump_onlyPort]
@[simp] theorem Rosemary.pump_clearing (r : Rosemary) : r.pump.clearing = r.clearing := by rw [r.pump_onlyPort]

/-- A first failure of an access repeats it. -/
theorem State.rmAccessFail_first {s : State} {a : RecAccess} (h : s.rm.access = some a) (ha : a.again = false)
    (kind : Nat) : s.rmAccessFail kind =
      State.sageFail { s with rm := { s.rm with access := some { a with again := true } } } 0x012 kind := by
  simp only [State.rmAccessFail, h, ha, Bool.false_eq_true, if_false]
  rfl

/-- A second failure ends the use of the store. -/
theorem State.rmAccessFail_second {s : State} {a : RecAccess} (h : s.rm.access = some a) (ha : a.again = true)
    (kind : Nat) : s.rmAccessFail kind = { s.sageFail 0x012 kind with rm := s.rm.fail } := by
  simp only [State.rmAccessFail, h, ha, if_true]
  rfl

theorem State.rmWriteDone_repeat (s : State) {a : RecAccess} (h : a.use = .repeatRec) :
    s.rmWriteDone a = { s with rm := Rosemary.pump { s.rm with access := none } } := by
  simp only [State.rmWriteDone, h]

theorem State.rmReadDone_select {s : State} {a : RecAccess} (h : s.rm.access = some a) (hw : a.write = false)
    (hu : a.use = .select) (x : Nat) : s.rmReadDone x =
      { s with rm := Rosemary.pump { s.rm with access := none, readBusy := false, recWords := wordsOf x } } := by
  simp only [State.rmReadDone, h, hw, hu, Bool.false_eq_true, if_false]

section
variable {s : State} (hpor : s.pins.por = false) (hsys : s.pins.sysRst = false)
include hpor hsys

theorem exec_bucketRefill : exec .bucketRefill s =
    .next { s with rm := Rosemary.pump { s.rm with bucket := min (s.rm.bucket + 1) 64 } } :=
  congrArg Host.Outcome.next (State.portWork_of_noReset hpor hsys _)

theorem exec_recAccessFail : exec .recAccessFail s = .next (s.rmAccessFail 5) :=
  congrArg Host.Outcome.next (State.portWork_of_noReset hpor hsys _)

theorem exec_rmStoreReadComplete (d : BitVec 256) : exec (.rmStoreReadComplete d) s = .next (s.rmReadDone d.toNat) :=
  congrArg Host.Outcome.next (State.portWork_of_noReset hpor hsys _)

/-- A write whose read-back agrees has been done. -/
theorem exec_rmStoreWriteComplete_agrees {a : RecAccess} {d : BitVec 256} (h : s.rm.access = some a)
    (hw : a.write = true) (hd : d.toNat = a.data % 2 ^ 256) :
    exec (.rmStoreWriteComplete d) s = .next (s.rmWriteDone a) := by
  refine congrArg Host.Outcome.next ((State.portWork_of_noReset hpor hsys _).trans ?_)
  simp only [h, hw, Bool.not_true, Bool.false_eq_true, if_false, hd, if_true]

end

/-! ### Records (R749 to R756) -/

theorem Rosemary.queued_le (r : Rosemary) (b : Bool) : r.queued b ≤ r.queue.length := List.length_filter_le _ _

/-- Does an event repeat the newest circulating record (R753)? -/
def Rosemary.repeats (r : Rosemary) (code p0 p1 p2 p3 : Nat) : Bool :=
  match r.circ with
  | x :: _ => x.code = code && x.p0 = p0 && x.p1 = p1 && x.p2 = p2 && x.p3 = p3
  | [] => false

theorem Rosemary.repeats_of_code_ne {r : Rosemary} {code : Nat} (h : ∀ y, r.circ.head? = some y → y.code ≠ code)
    (p0 p1 p2 p3 : Nat) : r.repeats code p0 p1 p2 p3 = false := by
  unfold Rosemary.repeats
  split
  next x xs hx => simp [h x (by rw [hx]; rfl)]
  next => rfl

/-- The record that an event makes. -/
def Rosemary.newRec (r : Rosemary) (toForever : Bool) (code p0 p1 p2 p3 : Nat) : Rec :=
  { powerCycles := r.powerCycles, diverted := rmForever code && !toForever, forever := toForever, code := code,
    seq := r.seq + 1, hours := r.hours, p0 := p0, p1 := p1, p2 := p2, p3 := p3 }

/-- A record of the forever area that finds the queue full is dropped (R756). -/
theorem Rosemary.record_noRoom {r : Rosemary} {code : Nat} (p0 p1 p2 p3 : Nat) (hcode : rmForever code = true)
    (hq : 64 ≤ r.queue.length) : r.record code p0 p1 p2 p3 = { r with dropped := bump r.dropped 1 } := by
  simp [Rosemary.record, hcode, Nat.not_lt.mpr hq]

/-- A new record of the forever area while the area has room. -/
theorem Rosemary.record_forever {r : Rosemary} {code : Nat} (p0 p1 p2 p3 : Nat) (hcode : rmForever code = true)
    (hseq : r.seq < 2 ^ 32 - 1) (hq : r.queue.length < 64) (hf : r.forever.length < 512) :
    r.record code p0 p1 p2 p3 =
      { r with seq := r.seq + 1, changes := (r.changes + 1) % 2 ^ 32, shut := false,
               queue := r.queue ++ [r.newRec true code p0 p1 p2 p3],
               forever := r.forever ++ [r.newRec true code p0 p1 p2 p3] } := by
  have hne : r.seq ≠ 4294967295 := by omega
  simp [Rosemary.record, hcode, hq, hf, hne, Rosemary.newRec]

/-- A new circulating record. -/
theorem Rosemary.record_circ {r : Rosemary} {code p0 p1 p2 p3 : Nat} (hcode : rmForever code = false)
    (hnew : r.repeats code p0 p1 p2 p3 = false) (hseq : r.seq < 2 ^ 32 - 1) (hqc : r.queued false < 48)
    (hq : r.queue.length < 64) : r.record code p0 p1 p2 p3 =
      { r with seq := r.seq + 1, changes := (r.changes + 1) % 2 ^ 32, shut := false,
               queue := r.queue ++ [r.newRec false code p0 p1 p2 p3],
               circ := (r.newRec false code p0 p1 p2 p3 :: r.circ).take 4096 } := by
  have hne : r.seq ≠ 4294967295 := by omega
  have h : r.record code p0 p1 p2 p3 = ite ((!rmForever code && r.repeats code p0 p1 p2 p3) = true) _ _ := rfl
  rw [h, hnew, Bool.and_false, if_neg Bool.false_ne_true]
  simp [hcode, hqc, hq, hne, Rosemary.newRec]

/-- One more repeat of a record, up to the counter's limit (R753). -/
def Rec.again (x : Rec) : Rec := { x with repeats := min (x.repeats + 1) 65535 }

/-- An event that repeats the newest circulating record raises its count, there and where it waits in the queue. -/
theorem Rosemary.record_repeat {r : Rosemary} {y : Rec} {rest : List Rec} (hcode : rmForever y.code = false)
    (h : r.circ = y :: rest) : r.record y.code y.p0 y.p1 y.p2 y.p3 =
      { r with circ := y.again :: rest, changes := (r.changes + 1) % 2 ^ 32,
               queue := r.queue.map fun q => if some y.seq = some q.seq then q.again else q,
               dirtyRepeat := r.dirtyRepeat || !(r.queue.any fun q => q.seq = y.seq) } := by
  simp [Rosemary.record, hcode, h, lmod, Rec.again]

/-! ### The clear (R763, R764) -/

/-- The recorder right after its circulating area has been emptied, before the record of the clear. -/
def Rosemary.emptied (r : Rosemary) : Rosemary :=
  { r with circ := [], queue := r.queue.filter (·.forever), dirtyRepeat := false, circPos := 0, clearing := true,
           waiting := r.waiting ++ [⟨true, 528, 0, false, .clear⟩] }

/-- A circulating record on an empty area is alone there, or dropped; the forever area stays. -/
theorem Rosemary.record_onEmpty {r : Rosemary} (hcirc : r.circ = []) {code : Nat} (hcode : rmForever code = false)
    (p0 p1 p2 p3 : Nat) : (∀ x ∈ (r.record code p0 p1 p2 p3).circ, x.code = code) ∧
      (r.record code p0 p1 p2 p3).forever = r.forever ∧ (r.record code p0 p1 p2 p3).clearing = r.clearing := by
  have h : r.record code p0 p1 p2 p3 = ite ((!rmForever code && r.repeats code p0 p1 p2 p3) = true) _ _ := rfl
  have hnew : r.repeats code p0 p1 p2 p3 = false := by simp [Rosemary.repeats, hcirc]
  rw [h, hnew, Bool.and_false, if_neg Bool.false_ne_true, hcode]
  simp only [Bool.false_eq_true, if_false, hcirc, Bool.false_and]
  split
  · simp
  · simp

/-! ### Commands -/

theorem exec_hoursTick {s : State} (hup : s.up = true) : exec .hoursTick s =
    .next { s with rm := { s.rm with hours := min (s.rm.hours + 1) (2 ^ 32 - 1) } } :=
  congrArg Host.Outcome.next (State.work_of_up hup _)

theorem exec_timeCommit {s : State} (hup : s.up = true) (hr : s.rm.ready = true) (hf : s.rm.failed = false) :
    exec .timeCommit s = .next { s with rm := s.rm.commit.pump } :=
  congrArg Host.Outcome.next ((State.work_of_up hup _).trans (if_pos (by simp [hr, hf])))

theorem exec_rmShutdown {s : State} (hup : s.up = true) : exec .rmShutdown s =
    .next { s with rm := Rosemary.pump { s.rm.record 2 0 0 0 0 with shutting := !s.rm.failed } } :=
  congrArg Host.Outcome.next (State.work_of_up hup _)

theorem exec_rmClear_refused {s : State} (hup : s.up = true) (h : s.lc.recClear = none ∨ s.rm.failed = true) :
    exec .rmClear s = .next { s with rm := { s.rm with clearRefused := true } } := by
  have hc : (s.lc.recClear.isNone || s.rm.failed || s.rm.clearing) = true := by
    obtain h | h := h <;> simp [h]
  exact congrArg Host.Outcome.next ((State.work_of_up hup _).trans (if_pos hc))

theorem exec_rmClear_granted {s : State} {g : Nat} (hup : s.up = true) (hg : s.lc.recClear = some g)
    (hf : s.rm.failed = false) (hc : s.rm.clearing = false) : exec .rmClear s = .next { s with
      rm := (s.rm.emptied.record 3 s.rm.seq s.rm.circ.length (s.lc.counter % 2 ^ 32) 0).pump,
      lc := { s.lc with recClear := none } } := by
  have h : ¬(s.lc.recClear.isNone || s.rm.failed || s.rm.clearing) = true := by simp [hg, hf, hc]
  exact congrArg Host.Outcome.next ((State.work_of_up hup _).trans (if_neg h))

/-- The words of a record go to the registers at once. -/
def State.recServed (s : State) (x : Nat) : State :=
  { s with rm := { s.rm with readBusy := false, readError := false, recWords := wordsOf x } }

section
variable {s : State} {v : BitVec 64} (hup : s.up = true) (hb : s.rm.readBusy = false) (hc : bit v.toNat 15 = false)
include hup hb hc

theorem exec_rmSelect_beyond (h : s.rm.forever.length ≤ fld v.toNat 11 0) :
    exec (.rmSelect v) s = .next (s.recServed 0) := by
  refine congrArg Host.Outcome.next ((State.work_of_up hup _).trans ?_)
  simp [hb, hc, List.getElem?_eq_none h, State.recServed]

theorem exec_rmSelect_queued {x : Rec} (h : s.rm.forever[fld v.toNat 11 0]? = some x) (hq : x ∈ s.rm.queue) :
    exec (.rmSelect v) s = .next (s.recServed x.bits) := by
  refine congrArg Host.Outcome.next ((State.work_of_up hup _).trans ?_)
  simp [hb, hc, h, hq, State.recServed]

end

/-- Settles O15: the rule of each command of the port, and of `Rosemary.record` by where the record goes. -/
theorem rosemaryPortAndRecords : Obligations.RosemaryPortAndRecords := by
  refine ⟨?hours, ?bucket, ?commit, ?shutdown, ?refused, ?granted, ?beyond, ?queued, ?failOnce, ?failTwice, ?written,
    ?selected, ?forever, ?circulating, ?again, ?noRoom⟩
  case hours =>
    intro s hup
    exact exec_hoursTick hup
  case bucket =>
    intro s hpor hsys
    exact exec_bucketRefill hpor hsys
  case commit =>
    intro s hup hr hf
    exact exec_timeCommit hup hr hf
  case shutdown =>
    intro s hup
    exact exec_rmShutdown hup
  case refused =>
    intro s hup h
    exact exec_rmClear_refused hup h
  case granted =>
    intro s g hup hg hf hc
    obtain ⟨hcirc, hforever, hclearing⟩ := s.rm.emptied.record_onEmpty rfl (code := 3) rfl s.rm.seq s.rm.circ.length
      (s.lc.counter % 2 ^ 32) 0
    refine ⟨_, exec_rmClear_granted hup hg hf hc, rfl, ?_, ?_, ?_, rfl⟩
    · rw [Rosemary.pump_clearing, hclearing]; rfl
    · rw [Rosemary.pump_forever, hforever]; rfl
    · rwa [Rosemary.pump_circ]
  case beyond =>
    intro s v hup hb hc h
    exact exec_rmSelect_beyond hup hb hc h
  case queued =>
    intro s v x hup hb hc h hq
    exact exec_rmSelect_queued hup hb hc h hq
  case failOnce =>
    intro s a hpor hsys h ha
    rw [exec_recAccessFail hpor hsys, State.rmAccessFail_first h ha]
  case failTwice =>
    intro s a hpor hsys h ha
    exact ⟨_, (exec_recAccessFail hpor hsys).trans (congrArg _ (State.rmAccessFail_second h ha 5)), rfl, rfl⟩
  case written =>
    intro s a d hpor hsys h hw hu hd
    rw [exec_rmStoreWriteComplete_agrees hpor hsys h hw hd, s.rmWriteDone_repeat hu]
  case selected =>
    intro s a d hpor hsys h hw hu
    rw [exec_rmStoreReadComplete hpor hsys, State.rmReadDone_select h hw hu]
  case forever =>
    intro r code p0 p1 p2 p3 hseq hq hcode hf
    refine ⟨r.newRec true code p0 p1 p2 p3, ?_⟩
    rw [Rosemary.record_forever p0 p1 p2 p3 hcode hseq (by omega) hf]
    simp [Rosemary.newRec]
  case circulating =>
    intro r code p0 p1 p2 p3 hseq hq hcode hne
    have := r.queued_le false
    refine ⟨r.newRec false code p0 p1 p2 p3, ?_⟩
    rw [Rosemary.record_circ hcode (Rosemary.repeats_of_code_ne hne p0 p1 p2 p3) hseq (by omega) (by omega)]
    simp [Rosemary.newRec]
  case again =>
    intro r y hcode hhead
    obtain ⟨rest, hcirc⟩ := List.head?_eq_some_iff.mp hhead
    rw [Rosemary.record_repeat hcode hcirc]
    simp [hcirc, Rec.again]
  case noRoom =>
    intro r code p0 p1 p2 p3 hlen hcode
    exact Rosemary.record_noRoom p0 p1 p2 p3 hcode (by omega)

end Sys2Proof.Machine
end

section
/-! Sage (chapter 15): its queue, classification, the pin, and the configuration of its sources (R733 to R743). -/

namespace Sys2Proof.Machine

/-! ### The queue (R733 to R737) -/

/-- Placing a message changes the queue, its overflow and the counts of what is dropped. -/
theorem Sage.place_onlyQueue (g : Sage) (m : SageMsg) (fault : Bool) : g.place m fault =
    { g with queue := (g.place m fault).queue, ring := (g.place m fault).ring,
             dropped := (g.place m fault).dropped, faultsDropped := (g.place m fault).faultsDropped } := by
  simp only [Sage.place]
  split
  · rfl
  · split
    · rfl
    · split
      · rfl
      · split <;> rfl

/-- A captured first error is valid (R737). -/
theorem Sage.firstValid_capture (g : Sage) (m : SageMsg) : (g.capture m).firstValid = true := by
  unfold Sage.capture
  split
  · assumption
  · rfl

theorem Sage.cfg_capture (g : Sage) (m : SageMsg) : (g.capture m).cfg = g.cfg := by
  unfold Sage.capture
  split <;> rfl

/-! ### A message that arrives (R735, R738) -/

/-- The state in which a message has been taken off its way. -/
def State.unwired (s : State) (m : SageMsg) : State :=
  { s with sage := { s.sage with wire := s.sage.wire.erase m } }

theorem kindFailure_of_kindFault {k : Nat} (h : kindFault k = true) : kindFailure k = false := by
  simp only [kindFault, kindFailure, Bool.and_eq_true, decide_eq_true_eq, Bool.and_eq_false_iff,
    decide_eq_false_iff_not] at h ⊢
  omega

theorem kindFault_of_kindFailure {k : Nat} (h : kindFailure k = true) : kindFault k = false := by
  simp only [kindFault, kindFailure, Bool.and_eq_true, decide_eq_true_eq, Bool.and_eq_false_iff,
    decide_eq_false_iff_not] at h ⊢
  omega

/-- The state in which a message of the failure class has been queued and captured first (R733, R737). -/
def State.queuedFailure (s : State) (m : SageMsg) : State :=
  { s with sage := (Sage.place { s.sage with wire := s.sage.wire.erase m } m false).capture m }

section
variable {s : State} {m : SageMsg} (hup : s.up = true)
include hup

theorem exec_sageMessage : exec (.sageMessage m) s = .next (s.sageTake m) :=
  congrArg Host.Outcome.next (State.work_of_up hup _)

/-- A message of the fault class from a listed source is queued and counted. -/
theorem exec_sageMessage_fault {c : SrcCfg} (hc : s.srcCfg m.source.toNat = some c) (hk : kindFault m.kind.toNat = true) :
    exec (.sageMessage m) s = .next { s with sage :=
      { (Sage.place { s.sage with wire := s.sage.wire.erase m } m true) with faults := bump s.sage.faults 1 } } := by
  have hc' : (s.unwired m).srcCfg m.source.toNat = some c := hc
  have hf := kindFailure_of_kindFault hk
  rw [State.unwired] at hc'
  rw [exec_sageMessage hup, State.sageTake, if_neg (by simp [hf]), hc']
  exact congrArg Host.Outcome.next (if_pos hk)

/-- A message of the fault class from a source that is not listed only leaves its way. -/
theorem exec_sageMessage_fault_unlisted (hc : s.srcCfg m.source.toNat = none) (hk : kindFault m.kind.toNat = true) :
    exec (.sageMessage m) s = .next (s.unwired m) := by
  have hc' : (s.unwired m).srcCfg m.source.toNat = none := hc
  have hf := kindFailure_of_kindFault hk
  rw [State.unwired] at hc'
  rw [exec_sageMessage hup, State.sageTake, if_neg (by simp [hf]), hc', State.unwired]

/-- A message of the failure class is queued, captured first and classified. -/
theorem exec_sageMessage_failure {c : SrcCfg} (hsrc : m.source ≠ 0xF00) (hc : s.srcCfg m.source.toNat = some c)
    (hk : kindFailure m.kind.toNat = true) : exec (.sageMessage m) s = .next ((s.queuedFailure m).classify m c) := by
  have hc' : (s.unwired m).srcCfg m.source.toNat = some c := hc
  rw [State.unwired] at hc'
  rw [exec_sageMessage hup, State.sageTake, if_neg (fun h => hsrc h.1), hc']
  exact congrArg Host.Outcome.next ((if_neg (by simp [kindFault_of_kindFailure hk])).trans (if_pos hk))

/-- Sage's own failure leads to the safe state. -/
theorem exec_sageMessage_own (hsrc : m.source = 0xF00) (hk : kindFailure m.kind.toNat = true) :
    exec (.sageMessage m) s = .next ((s.unwired m).safeState 0xF00) := by
  rw [exec_sageMessage hup, State.sageTake, if_pos ⟨hsrc, hk⟩, State.unwired]

end

/-! ### Classification (R738) -/

/-- An empty mask selects no reaction. -/
@[simp] theorem State.reactTo_none (s : State) (src : Nat) : s.reactTo src 0 = s := by
  simp [State.reactTo, bit]

/-- The mask that selects the interrupt alone. -/
theorem State.reactTo_interrupt (s : State) (src : Nat) : s.reactTo src 1 = s.raise .pf 1 := by
  have hbits : bit 1 0 = true ∧ bit 1 1 = false ∧ bit 1 2 = false ∧ bit 1 3 = false ∧ bit 1 4 = false := by decide
  obtain ⟨h0, h1, h2, h3, h4⟩ := hbits
  simp only [State.reactTo, h0, h1, h2, h3, h4, if_true, Bool.false_eq_true, if_false]

/-- A first event of a source below its threshold opens a window, and no more. -/
theorem State.classify_minor {c : SrcCfg} {m : SageMsg} (hw : c.window = false) (ht : 1 < c.threshold)
    (hk : m.kind ≠ 0x0E) (hr : c.minorReact = 0) (s : State) : s.classify m c =
      s.setSrcCfg m.source.toNat { c with window := true, count := 1, severe := false, blockReset := false } := by
  have hkind : (m.kind == 0x0E) = false := beq_false_of_ne hk
  have hmin : min (0 + 1) 255 = 1 := rfl
  have hbit : bit 0 2 = false := rfl
  have hreached : decide (c.threshold ≤ 1) = false := decide_eq_false (by omega)
  simp only [State.classify, hw, Bool.false_eq_true, if_false, hmin, hkind, hreached, hr, hbit, Bool.false_and,
    Bool.or_self, State.reactTo_none]

/-- A first event of a source that is severe and calls for the interrupt alone. -/
theorem State.classify_severe_interrupt {c : SrcCfg} {m : SageMsg} (hw : c.window = false)
    (hs : c.threshold ≤ 1 ∨ m.kind = 0x0E) (hr : c.severeReact = 1) (s : State) : s.classify m c =
      ((s.setSrcCfg m.source.toNat { c with window := true, count := 1, severe := decide (c.threshold ≤ 1),
                                            blockReset := false }).recordSevere m).raise .pf 1 := by
  have hs' : (decide (c.threshold ≤ 1) || m.kind == 0x0E) = true := by
    simpa using hs
  have hmin : min (0 + 1) 255 = 1 := rfl
  simp only [State.classify, hw, Bool.false_eq_true, if_false, hmin, hs', if_true, hr, Bool.false_and,
    State.reactTo_interrupt]
  rfl

/-! ### The safe state (R724) -/

theorem State.safe_of_up {s : State} (h : s.up = true) : s.sage.safe = false := by
  simp only [State.up, Bool.and_eq_true, Bool.not_eq_true'] at h
  exact h.2

theorem State.safeState_spec {s : State} (hsafe : s.sage.safe = false) (src : Nat) :
    (s.safeState src).sage.safe = true ∧ (s.safeState src).sage.pin = 0 ∧ (s.safeState src).up = false := by
  have hu : s.safeState src = ite (s.sage.safe = true) _ _ := rfl
  rw [hu, if_neg (by simp [hsafe])]
  exact ⟨rfl, rfl, by simp [State.up]⟩

/-! ### The registers (R734, R740 to R742) -/

theorem exec_sgPop {s : State} {v : BitVec 64} {m : SageMsg} {rest : List SageMsg} (hd : s.decodes .pf = true)
    (hv : bit v.toNat 0 = true) (hq : s.sage.queue = m :: rest) : exec (.sgPop v) s = .next { s with sage :=
      { s.sage with queue := rest ++ s.sage.ring.take 1, ring := s.sage.ring.drop 1 } } := by
  have h : ¬(!s.decodes .pf || !bit v.toNat 0) = true := by simp [hd, hv]
  refine congrArg Host.Outcome.next ((if_neg h).trans ?_)
  simp only [hq]

theorem exec_sgPinResume {s : State} {v : BitVec 64} (hd : s.decodes .pf = true) (hv : bit v.toNat 8 = true)
    (hp : s.sage.pin = 3) (hf : s.sage.firstValid = false) :
    exec (.sgPinResume v) s = .next { s with sage := { s.sage with pin := 1 } } :=
  congrArg Host.Outcome.next (if_pos (by simp [hd, hv, hp, hf]))

theorem exec_pinHoldExpire {s : State} (hup : s.up = true) (hp : s.sage.pin = 2) :
    exec .pinHoldExpire s = .next { s with sage := { s.sage with pin := 3 } } :=
  congrArg Host.Outcome.next ((State.work_of_up hup _).trans (if_pos hp))

theorem exec_sageWindowClose {s : State} {n : BitVec 12} {c : SrcCfg} (hup : s.up = true)
    (hc : s.srcCfg n.toNat = some c) (hw : c.window = true) : exec (.sageWindowClose n) s =
      .next (s.setSrcCfg n.toNat { c with window := false, count := 0, severe := false, blockReset := false }) := by
  refine congrArg Host.Outcome.next ((State.work_of_up hup _).trans ?_)
  simp only [hc, hw, if_true]

theorem exec_sgSrcCfgWrite {s : State} {n : BitVec 12} (v : BitVec 64) {c : SrcCfg} (hd : s.decodes .pf = true)
    (hc : s.srcCfg n.toNat = some c) : exec (.sgSrcCfgWrite n v) s = .next (s.setSrcCfg n.toNat { c with
      severeReact := fld v.toNat 49 45, minorReact := fld v.toNat 44 40,
      threshold := if 1 ≤ fld v.toNat 39 32 then fld v.toNat 39 32 else c.threshold,
      windowMs := if 1 ≤ fld v.toNat 21 0 ∧ fld v.toNat 21 0 ≤ 3600000 then fld v.toNat 21 0 else c.windowMs }) := by
  refine congrArg Host.Outcome.next ((if_neg (by simp [hd])).trans ?_)
  simp only [hc]

/-- What a source's configuration reads after a write of a listed source. -/
theorem State.srcCfg_setSrcCfg {s : State} {n : Nat} {c : SrcCfg} (h : s.srcCfg n = some c) (d : SrcCfg) :
    (s.setSrcCfg n d).srcCfg n = some d := by
  obtain ⟨r, hr, -⟩ := Option.map_eq_some_iff.mp h
  simp [State.srcCfg, State.setSrcCfg, hr]

/-- Settles O16: a message by its class, its source and the configuration of the source. -/
theorem sageQueueAndClassification : Obligations.SageQueueAndClassification := by
  refine ⟨?fault, ?minor, ?severe, ?own, ?pop, ?resume, ?hold, ?window, ?write, ?writeIllegal, ?onlyCounted⟩
  case fault =>
    intro s m c hup hc hk
    exact exec_sageMessage_fault hup hc hk
  case minor =>
    intro s m c hup hsrc hc hk hne hw ht hr
    rw [exec_sageMessage_failure hup hsrc hc hk, State.classify_minor hw ht hne hr,
      State.queuedFailure]
  case severe =>
    intro s m c hup hsrc hc hk hw hs hr
    refine ⟨_, (exec_sageMessage_failure hup hsrc hc hk).trans
      (congrArg _ (State.classify_severe_interrupt hw hs hr _)), ?_⟩
    have hc' : (s.queuedFailure m).srcCfg m.source.toNat = some c := by
      rw [State.queuedFailure, State.srcCfg, Sage.cfg_capture, Sage.place_onlyQueue]
      exact hc
    obtain ⟨int, out, hraise, hset⟩ := State.raise_pf_spec (((s.queuedFailure m).setSrcCfg m.source.toNat
      { c with window := true, count := 1, severe := decide (c.threshold ≤ 1), blockReset := false }).recordSevere m) 1
    rw [hraise]
    exact ⟨Sage.firstValid_capture _ m, hset, congrArg (Option.map (·.count)) (State.srcCfg_setSrcCfg hc' _), rfl, rfl, rfl⟩
  case own =>
    intro s m hup hsrc hk
    obtain ⟨hsafe, hpin, hdown⟩ := State.safeState_spec (s := s.unwired m) (State.safe_of_up hup) 0xF00
    exact ⟨_, exec_sageMessage_own hup hsrc hk, hsafe, hpin, hdown⟩
  case pop =>
    intro s v m rest hd hv hq
    exact exec_sgPop hd hv hq
  case resume =>
    intro s v hd hv hp hf
    exact exec_sgPinResume hd hv hp hf
  case hold =>
    intro s hup hp
    exact exec_pinHoldExpire hup hp
  case window =>
    intro s n c hup hc hw
    exact exec_sageWindowClose hup hc hw
  case write =>
    intro s n v c hd hc ht hlo hhi
    rw [exec_sgSrcCfgWrite v hd hc, if_pos ht, if_pos ⟨hlo, hhi⟩]
  case writeIllegal =>
    intro s n v c hd hc ht hhi
    rw [exec_sgSrcCfgWrite v hd hc, if_neg (by omega), if_neg (by omega)]
  case onlyCounted =>
    intro s m hup hk
    cases hc : s.srcCfg m.source.toNat with
    | none => exact ⟨_, exec_sageMessage_fault_unlisted hup hc hk, rfl, rfl, rfl, rfl, rfl, .inl rfl⟩
    | some c =>
      refine ⟨_, exec_sageMessage_fault hup hc hk, rfl, ?_, ?_, ?_, ?_, .inr rfl⟩ <;> rw [Sage.place_onlyQueue]

end Sys2Proof.Machine
end

section
/-! Bring-up (chapter 19): the composition of the Floor Plan Table (Tables 19-1, 19-3, R840 to R842, R864). -/

namespace Sys2Proof.Machine

/-! ### Verdicts (Table 19-3) -/

theorem State.unitVerdict_fused {s : State} {u : UnitId} (h : s.fuseBad u = true) (failed : List UnitId) :
    s.unitVerdict failed u = if failed.contains u then 6 else 4 := by
  unfold State.unitVerdict
  rw [h]
  cases failed.contains u <;> rfl

theorem State.unitVerdict_failed {s : State} {failed : List UnitId} {u : UnitId} (h : s.fuseBad u = false)
    (hf : failed.contains u = true) : s.unitVerdict failed u = 5 := by
  unfold State.unitVerdict
  rw [h, hf]

/-- An engine with no working array is disabled, or was retired, as its arrays were (R841). -/
theorem State.engineVerdict_noArrays {s : State} {failed : List UnitId} {e : Nat} (ha : 0 < s.build.arrays)
    (hown : s.unitVerdict failed (.engine e) = 1) (hnone : s.arraysAt failed e = []) : 4 ≤ s.engineVerdict failed e := by
  simp only [State.engineVerdict, hown, hnone, List.length_nil, ne_eq, not_true_eq_false, if_false, Nat.ne_of_lt ha]
  split
  · decide
  · split
    · decide
    · split <;> decide

/-! ### What composition changes -/

/-- A disagreement of fuse and self-test is only recorded (R842). -/
theorem State.disagree_spec (s : State) (failed : List UnitId) (u : UnitId) : ∃ rm, s.disagree failed u = { s with rm := rm } := by
  simp only [State.disagree]
  split
  · exact ⟨_, rfl⟩
  · exact ⟨_, rfl⟩

theorem State.foldl_disagree_spec (failed us : List UnitId) (s : State) :
    ∃ rm, us.foldl (fun t u => t.disagree failed u) s = { s with rm := rm } :=
  keeps_foldl (P := fun t : State => ∃ rm, t = { s with rm := rm })
    (fun t u ⟨rm, ht⟩ => by
      obtain ⟨rm', hu⟩ := t.disagree_spec failed u
      exact ⟨rm', by rw [hu, ht]⟩) ⟨s.rm, rfl⟩

/-- A port that begins to train changes no more than its own state (R846). -/
theorem State.trainPort_spec (s : State) (p : Nat) : ∃ fps, s.trainPort p = { s with fps := fps } := by
  unfold State.trainPort
  split
  · exact ⟨_, rfl⟩
  · exact ⟨_, rfl⟩

theorem State.foldl_trainPort_spec (ps : List Nat) (s : State) : ∃ fps, ps.foldl State.trainPort s = { s with fps := fps } :=
  keeps_foldl (P := fun t : State => ∃ fps, t = { s with fps := fps })
    (fun t p ⟨fps, ht⟩ => by
      obtain ⟨fps', hp⟩ := t.trainPort_spec p
      exact ⟨fps', by rw [hp, ht]⟩) ⟨s.fps, rfl⟩

/-- The number of channels that work. -/
def State.goodChannels (s : State) (failed : List UnitId) : Nat :=
  ((List.range s.build.channels).filter fun c => s.unitVerdict failed (.channel c) == 1).length

/-- An engine as composition leaves it. -/
def State.freshEngine (s : State) (failed : List UnitId) (e : Nat) : Engine :=
  { ({} : Engine) with
    state := if s.engineVerdict failed e ≤ 2 then 1 else 0
    arrayRetired := (List.range s.build.arrays).filter fun a => !(s.arraysAt failed e).contains a }

/-- A collective unit as composition leaves it. -/
def State.freshCu (s : State) (failed : List UnitId) (u : Nat) : Cu :=
  { ({} : Cu) with state := if s.unitVerdict failed (.collective u) = 1 then 1 else 0 }

/-- The hub with its Floor Plan Table composed: the table, engines, collective units and pools that follow from it. -/
def State.planned (s : State) (failed : List UnitId) : State :=
  State.poolsFromFpt { s with
    engines := (List.range s.build.engines).map fun e => (e, s.freshEngine failed e)
    fab := { s.fab with cus := (List.range (s.build.fabricPorts / 4)).map fun u => (u, s.freshCu failed u) }
    boot := { s.boot with step := 5, fpt := (sizeUnits s.build).map (s.composeEntry failed (s.goodChannels failed)),
                          generation := 1, composed := s.now }
    sage := { s.sage with pin := if s.sage.pin = 0 then 1 else s.sage.pin,
                          ringReady := decide (0 < s.goodChannels failed) } }

section
variable {s : State} (failed : List UnitId) (hup : s.up = true) (hstep : s.boot.step = 3)
include hup hstep

/-- A failed part of the spine, Warden, Sage or host island (R840). -/
theorem exec_fptCompose_core (src : BitVec 12) : exec (.fptCompose failed (some src)) s = .next (s.safeState src.toNat) :=
  congrArg Host.Outcome.next ((State.work_of_up hup _).trans (if_neg (by simp [hstep])))

/-- Composition, but for Rosemary's records of disagreements and the ports that begin to train. -/
theorem exec_fptCompose : ∃ rm fps, exec (.fptCompose failed none) s =
    .next { s.planned failed with rm := rm, fps := fps } := by
  obtain ⟨rm, hrm⟩ := State.foldl_disagree_spec failed (sizeUnits s.build) s
  obtain ⟨fps, hfps⟩ := State.foldl_trainPort_spec (List.range s.build.fabricPorts) { s.planned failed with rm := rm }
  refine ⟨rm, fps, congrArg Host.Outcome.next ((State.work_of_up hup _).trans ((if_neg (by simp [hstep])).trans ?_))⟩
  simp only [hrm]
  exact hfps

end

/-- The safe state changes nothing of bring-up. -/
theorem State.safeState_boot {s : State} (src : Nat) : (s.safeState src).boot = s.boot := by
  have hcharge : s.chargeAll.boot = s.boot :=
    keeps_foldl (P := fun t : State => t.boot = s.boot)
      (fun t id ht => (congrArg State.boot (t.chargeLaunch_onlyLooked id)).trans ht) rfl
  unfold State.safeState
  split
  · rfl
  · exact hcharge

/-! ### The table and the pools (R841, R864) -/

theorem tget_map_self {α : Type} (d : α) (f : Nat → α) {k : Nat} {l : List Nat} (h : k ∈ l) :
    tget d (l.map fun e => (e, f e)) k = f k := by
  induction l with
  | nil => cases h
  | cons e l ih =>
    simp only [List.map_cons, tget]
    split
    next he => rw [he]
    next he => exact ih ((List.mem_cons.mp h).resolve_left he)

theorem engine_mem_sizeUnits {b : Build} {e : Nat} (h : UnitId.engine e ∈ sizeUnits b) : e < b.engines := by
  simpa [sizeUnits] using h

/-- The free engines are those of the table that are whole or degraded. -/
theorem State.mem_freeEngines_planned {s : State} {failed : List UnitId} {e : Nat}
    (h : e ∈ (s.planned failed).units.freeEngines) :
    e < s.build.engines ∧ (s.engineVerdict failed e = 1 ∨ s.engineVerdict failed e = 2) := by
  simp only [State.planned, State.poolsFromFpt, List.mem_map, List.mem_filter, Bool.and_eq_true, Bool.or_eq_true,
    decide_eq_true_eq] at h
  obtain ⟨f, ⟨⟨u, hu, rfl⟩, htype, hstatus⟩, rfl⟩ := h
  cases u with
  | engine e => exact ⟨engine_mem_sizeUnits hu, hstatus⟩
  | _ => cases htype

/-- Settles O27: `State.planned` is what composition leaves, and the pools are read off its table. -/
theorem floorPlanComposition : Obligations.FloorPlanComposition := by
  refine ⟨?core, ?composes, ?fused, ?failed, ?noArrays⟩
  case core =>
    intro s failed src hup hstep
    obtain ⟨hsafe, hpin, -⟩ := State.safeState_spec (State.safe_of_up hup) src.toNat
    exact ⟨_, exec_fptCompose_core failed hup hstep src, hsafe, hpin, (congrArg Boot.step (s.safeState_boot _)).trans hstep,
      congrArg Boot.fpt (s.safeState_boot _)⟩
  case composes =>
    intro s failed hup hstep
    obtain ⟨rm, fps, hexec⟩ := exec_fptCompose failed hup hstep
    refine ⟨_, hexec, rfl, rfl, rfl, List.length_map _, ?_, fun e he => ?_, fun e he => State.mem_freeEngines_planned he, rfl, rfl,
      rfl, rfl, rfl, rfl, rfl, rfl, rfl, rfl, rfl, rfl, rfl, rfl⟩
    · exact List.map_map
    · exact congrArg Engine.state (tget_map_self {} (s.freshEngine failed) (List.mem_range.mpr he))
  case fused =>
    intro s failed u h
    exact State.unitVerdict_fused h failed
  case failed =>
    intro s failed u h hf
    exact State.unitVerdict_failed h hf
  case noArrays =>
    intro s failed e ha hown hnone
    exact State.engineVerdict_noArrays ha hown hnone

end Sys2Proof.Machine
end

section
/-! The Osash fabric (chapter 12), continued: what is sent on the ports (R583, R590, R597, R598). -/

namespace Sys2Proof.Machine

/-! ### What a port sends (R575 to R584) -/

/-- From `x` to `y` only the sending side of a port has changed: what waits, what is buffered, its credits and counts. -/
def FpPort.OnlyTx (x y : FpPort) : Prop :=
  y = { x with txQueue := y.txQueue, credits := y.credits, buffer := y.buffer, txSeq := y.txSeq, txFlits := y.txFlits }

theorem FpPort.OnlyTx.trans {x y z : FpPort} (h : x.OnlyTx y) (g : y.OnlyTx z) : x.OnlyTx z :=
  Eq.trans g (congrArg (fun u : FpPort =>
    { u with txQueue := z.txQueue, credits := z.credits, buffer := z.buffer, txSeq := z.txSeq, txFlits := z.txFlits }) h)

theorem FpPort.sendOne_onlyTx (acc : FpPort × List (Nat × Nat)) (m : OfpMsg) : acc.1.OnlyTx (FpPort.sendOne acc m).1 := by
  simp only [FpPort.sendOne]
  split
  · rfl
  · split
    · rfl
    · split
      · rfl
      · rfl

theorem FpPort.pump_onlyTx (x : FpPort) : x.OnlyTx x.pump := by
  unfold FpPort.pump
  split
  · rfl
  · extract_lets q kept order
    exact keeps_foldl (P := fun acc : FpPort × List (Nat × Nat) => x.OnlyTx acc.1)
      (fun acc m h => h.trans (FpPort.sendOne_onlyTx acc m)) rfl

/-- A port with nothing to send sends nothing. -/
theorem FpPort.pump_idle {x : FpPort} (h : x.txQueue = []) : x.pump = x := by
  unfold FpPort.pump
  split
  · rfl
  · cases x
    subst h
    rfl

theorem FpPort.OnlyTx.state {x y : FpPort} (h : x.OnlyTx y) : y.state = x.state := (congrArg FpPort.state h :)
theorem FpPort.OnlyTx.peerHub {x y : FpPort} (h : x.OnlyTx y) : y.peerHub = x.peerHub := (congrArg FpPort.peerHub h :)
theorem FpPort.OnlyTx.admitted {x y : FpPort} (h : x.OnlyTx y) : y.admitted = x.admitted := (congrArg FpPort.admitted h :)

/-- A message handed to a port changes the sending side of that port. -/
theorem State.portSend_onlyTx (s : State) (p q : Nat) (m : OfpMsg) : (s.fp q).OnlyTx ((s.portSend p m).fp q) := by
  have hqueued : (s.fp p).OnlyTx { s.fp p with txQueue := (s.fp p).txQueue ++ [m] } := rfl
  obtain rfl | h := eq_or_ne q p
  · rw [State.portSend, State.fp_setFp]
    exact hqueued.trans (FpPort.pump_onlyTx _)
  · rw [State.portSend, State.fp_setFp_ne _ _ h]
    rfl

/-! ### What is under way between hubs (R590, R597, R598) -/

/-- From `s` to `t` only ports, accounts and the fabric as a whole have changed. -/
def State.OnlyFabric (s t : State) : Prop := t = { s with ctxs := t.ctxs, fps := t.fps, fab := t.fab }

theorem State.OnlyFabric.refl (s : State) : s.OnlyFabric s := rfl

theorem State.OnlyFabric.trans {s t u : State} (h : s.OnlyFabric t) (g : t.OnlyFabric u) : s.OnlyFabric u :=
  Eq.trans g (congrArg (fun z : State => { z with ctxs := u.ctxs, fps := u.fps, fab := u.fab }) h)

theorem State.setFab_onlyFabric (s : State) (f : Fabric) : s.OnlyFabric { s with fab := f } := rfl

theorem State.OnlySent.onlyFabric {s t : State} (h : s.OnlySent t) : s.OnlyFabric t := by
  have hfab : t.fab = { s.fab with inbox := t.fab.inbox, parked := t.fab.parked } := (congrArg State.fab h :)
  exact Eq.trans h (congrArg (fun f : Fabric => { s with ctxs := t.ctxs, fps := t.fps, fab := f }) hfab.symm)

theorem State.launchOut_onlySent (s : State) (port : Option Nat) (m : OfpMsg) : s.OnlySent (s.launchOut port m) := by
  cases port with
  | none => exact s.inject_onlySent m
  | some p => exact State.portSend_onlySent ..

theorem State.e2eRelease_onlyFabric (s : State) (dst : Nat) : s.OnlyFabric (s.e2eRelease dst) := by
  refine keeps_foldl (P := s.OnlyFabric) (fun t o h => h.trans ?_) (.refl s)
  split
  · exact .refl t
  · exact (t.setFab_onlyFabric _).trans (State.launchOut_onlySent _ _ _).onlyFabric

theorem State.e2eDone_onlyFabric (s : State) (dst seq : Nat) : s.OnlyFabric (s.e2eDone dst seq) :=
  (s.setFab_onlyFabric _).trans (State.e2eRelease_onlyFabric _ dst)

theorem State.foldl_onlyFabric {α : Type} {f : State → α → State} (hf : ∀ (t : State) x, t.OnlyFabric (f t x)) (xs : List α)
    (s : State) : s.OnlyFabric (xs.foldl f s) :=
  keeps_foldl (P := s.OnlyFabric) (fun t x h => h.trans (hf t x)) (.refl s)

theorem State.unpark_onlyFabric (s : State) : s.OnlyFabric s.unpark := by
  unfold State.unpark
  have hsent := (s.setFab_onlyFabric { s.fab with parked := [] }).trans
    (State.foldl_onlyFabric (fun u m => (u.inject_onlySent m).onlyFabric) s.fab.parked _)
  exact hsent.trans (State.foldl_onlyFabric State.e2eRelease_onlyFabric _ _)

theorem State.reroute_onlyFabric (s : State) : s.OnlyFabric s.reroute := by
  unfold State.reroute
  split
  · rfl
  · exact (s.setFab_onlyFabric _).trans (State.unpark_onlyFabric _)

theorem State.join_onlyFabric (s : State) (hub : Nat) : s.OnlyFabric (s.join hub) := by
  unfold State.join
  split
  · rfl
  · exact (s.setFab_onlyFabric _).trans (State.reroute_onlyFabric _)

end Sys2Proof.Machine
end

section
/-! Bring-up (chapter 19), continued: requests of the host in the boot page (R854 to R858), and firmware (R775, R795, R847 to
R851, R859 to R863). -/

namespace Sys2Proof.Machine

/-! ### Requests of the host (R854 to R858) -/

section
variable {s : State} (hup : s.up = true)
include hup

theorem exec_bootReqSample (hstage : s.stagingUp = true) (hwarden : s.sage.wardenDown = false) (hne : s.boot.reqSeq ≠ 0)
    (hnew : s.boot.reqSeq ≠ s.boot.statSeq) (htaken : s.boot.taken = none) (hload : s.boot.fwState ≠ 1)
    (hverify : s.boot.fwState ≠ 2) : exec .bootReqSample s =
      .next { s with boot := { s.boot with taken := some (s.boot.reqSeq, s.boot.reqOp) } } :=
  congrArg Host.Outcome.next ((State.work_of_up hup _).trans (if_neg (by
    simp [hstage, hwarden, hne, hnew, htaken, hload, hverify])))

theorem exec_bootLoad {q : Nat} (h : s.boot.taken = some (q, 1)) : exec .bootLoad s = .next
    (if s.boot.fwState = 3 then { s with boot := s.boot.answer q 6 }
     else if !imageLength s.boot.len then { s with boot := s.boot.answer q 1 }
     else { s with boot := { s.boot.answer q 0 with fwState := 2, source := 0, total := 0, held := [],
                                                    loadLen := s.boot.len, chunks := [], srcHub := 0 } }) := by
  refine congrArg Host.Outcome.next ((State.work_of_up hup _).trans ?_)
  rw [State.onBoot, h]
  rfl

theorem exec_bootUnknownOp {q op : Nat} (h : s.boot.taken = some (q, op)) (h1 : op ≠ 1) (h2 : op ≠ 2) :
    exec .bootUnknownOp s = .next { s with boot := s.boot.answer q 1 } := by
  refine congrArg Host.Outcome.next ((State.work_of_up hup _).trans ?_)
  rw [State.onBoot, h]
  exact if_pos (by simp [h1, h2])

end

theorem imageLength_iff (n : Nat) : imageLength n = true ↔ n % 8 = 0 ∧ 4096 ≤ n ∧ n ≤ 32505856 := by
  simp [imageLength, and_assoc]

/-! ### Messages sent on the ports (R590, R858) -/

/-- From `s` to `t` end-to-end messages have been sent on ports: none is forgotten, and no port but its sending side has
changed. -/
structure State.Sends (s t : State) : Prop where
  frame : t = { s with fps := t.fps, fab := { s.fab with nextSeq := t.fab.nextSeq, out := t.fab.out } }
  out : s.fab.out ⊆ t.fab.out
  ports : ∀ q, (s.fp q).OnlyTx (t.fp q)

theorem State.Sends.refl (s : State) : s.Sends s := ⟨rfl, fun _ h => h, fun _ => rfl⟩

theorem State.Sends.trans {s t u : State} (h : s.Sends t) (g : t.Sends u) : s.Sends u where
  frame := Eq.trans g.frame (congrArg (fun z : State =>
    { z with fps := u.fps, fab := { z.fab with nextSeq := u.fab.nextSeq, out := u.fab.out } }) h.frame)
  out := fun _ ho => g.out (h.out ho)
  ports := fun q => (h.ports q).trans (g.ports q)

theorem State.Sends.boot {s t : State} (h : s.Sends t) : t.boot = s.boot := (congrArg State.boot h.frame :)

theorem State.Sends.foldl {α : Type} {f : State → α → State} (hf : ∀ (t : State) x, t.Sends (f t x)) (xs : List α)
    (s : State) : s.Sends (xs.foldl f s) :=
  keeps_foldl (P := s.Sends) (fun t x h => h.trans (hf t x)) (.refl s)

/-- What one step of a run brings about, and sending keeps, holds at its end. -/
theorem State.Sends.foldl_reaches {α : Type} {f : State → α → State} {Q : State → Prop}
    (hQ : ∀ t u : State, t.Sends u → Q t → Q u) (hf : ∀ (t : State) x, t.Sends (f t x)) {x : α} {xs : List α} (hx : x ∈ xs)
    {s : State} (hreach : ∀ t, s.Sends t → Q (f t x)) : Q (xs.foldl f s) := by
  induction xs generalizing s with
  | nil => cases hx
  | cons y ys ih =>
    rw [List.foldl_cons]
    obtain rfl | hys := List.mem_cons.mp hx
    · exact hQ _ _ (State.Sends.foldl hf ys _) (hreach s (.refl s))
    · exact ih hys fun t ht => hreach t ((hf s y).trans ht)

theorem State.launchOut_out (s : State) (port : Option Nat) (m : OfpMsg) : (s.launchOut port m).fab.out = s.fab.out :=
  (congrArg (fun z : State => z.fab.out) (s.launchOut_onlySent port m) :)

/-- A message is listed until it is answered, with the E2E_SEQ it has taken. -/
theorem State.e2eSend_listed (s : State) (o : E2eOut) :
    ∃ u ∈ (s.e2eSend o).fab.out, u.dst = o.dst ∧ u.port = o.port ∧ ∃ seq, u.msg = { o.msg with e2eSeq := seq } := by
  simp only [State.e2eSend]
  split
  · exact ⟨_, List.mem_append_right _ (List.mem_singleton_self _), rfl, rfl, _, rfl⟩
  · rw [State.launchOut_out]
    exact ⟨_, List.mem_append_right _ (List.mem_singleton_self _), rfl, rfl, _, rfl⟩

theorem State.e2eSend_sends (s : State) {o : E2eOut} {p : Nat} (hp : o.port = some p) : s.Sends (s.e2eSend o) := by
  simp only [State.e2eSend, hp, State.launchOut]
  split
  · exact ⟨rfl, fun _ h => List.mem_append_left _ h, fun _ => rfl⟩
  · exact ⟨rfl, fun _ h => List.mem_append_left _ h, fun q => State.portSend_onlyTx _ _ _ _⟩

theorem State.sendChunk_sends (s : State) (p id chunk len : Nat) (bytes : List Byte) :
    s.Sends (s.sendChunk p id chunk len bytes) := by
  unfold State.sendChunk
  split
  · exact .refl s
  · exact s.e2eSend_sends rfl

/-- A chunk of a load is on its way to a hub through a port. -/
def State.chunkListed (s : State) (hub p id chunk len : Nat) : Prop :=
  ∃ o ∈ s.fab.out, o.dst = hub ∧ o.port = some p ∧ o.msg.type = 6 ∧ o.msg.f10 = BitVec.ofNat 64 id ∧
    o.msg.f18 = BitVec.ofNat 64 (chunk % 2 ^ 32 * 2 ^ 32 + len % 2 ^ 32)

theorem State.chunkListed.sends {s t : State} (h : s.Sends t) {hub p id chunk len : Nat}
    (hl : s.chunkListed hub p id chunk len) : t.chunkListed hub p id chunk len := by
  obtain ⟨o, ho, hmsg⟩ := hl
  exact ⟨o, h.out ho, hmsg⟩

theorem State.sendChunk_listed {s : State} {p id : Nat} (chunk len : Nat) (bytes : List Byte)
    (hactive : (s.fp p).state = .active) (hnot : s.boot.refusedBy.contains (id, p) = false) :
    (s.sendChunk p id chunk len bytes).chunkListed (s.fp p).peerHub p id chunk len := by
  have hgoes : ¬((s.fp p).state ≠ .active ∨ s.boot.refusedBy.contains (id, p) = true) := by
    rintro (h | h)
    · exact h hactive
    · exact Bool.false_ne_true (hnot.symm.trans h)
  rw [State.sendChunk, if_neg hgoes]
  obtain ⟨u, hu, hdst, hport, seq, hmsg⟩ := s.e2eSend_listed
    { dst := (s.fp p).peerHub, seq := 0, msg := msgData (s.fwMsg 6 p id chunk len) bytes, port := some p }
  refine ⟨u, hu, hdst, hport, ?_, ?_, ?_⟩
  all_goals rw [hmsg]; rfl

/-- Every chunk of an image is sent on a port. -/
def State.sendImage (s : State) (img : List Byte) (id p : Nat) : State :=
  (List.range (chunksOf img.length)).foldl
    (fun t i => t.sendChunk p id i img.length ((img.drop (4096 * i)).take 4096)) s

theorem State.sendImage_sends (s : State) (img : List Byte) (id p : Nat) : s.Sends (s.sendImage img id p) :=
  State.Sends.foldl (fun t _ => t.sendChunk_sends _ _ _ _ _) _ s

theorem State.sendImage_listed {s : State} {img : List Byte} {id p i : Nat} (hactive : (s.fp p).state = .active)
    (hnot : s.boot.refusedBy.contains (id, p) = false) (hi : i < chunksOf img.length) :
    (s.sendImage img id p).chunkListed (s.fp p).peerHub p id i img.length := by
  refine State.Sends.foldl_reaches (Q := fun t => t.chunkListed (s.fp p).peerHub p id i img.length)
    (fun _ _ h => State.chunkListed.sends h) (fun t _ => t.sendChunk_sends _ _ _ _ _)
    (List.mem_range.mpr hi) fun t ht => ?_
  rw [← (ht.ports p).peerHub]
  exact State.sendChunk_listed i img.length _ ((ht.ports p).state.trans hactive) (by rw [ht.boot]; exact hnot)

/-- The state in which a broadcast begins: the request is answered, and no port has refused this load yet. -/
def State.broadcastBegun (s : State) (q : Nat) : State :=
  { s with boot := { s.boot.answer q 0 with
    refusedBy := s.boot.refusedBy.filter fun r => r.1 ≠ loadIdOf s.boot.digest } }

theorem exec_bootBroadcast {s : State} {q : Nat} (hup : s.up = true) (h : s.boot.taken = some (q, 2))
    (hrun : s.boot.fwState = 3) : exec .bootBroadcast s = .next ((List.range s.build.fabricPorts).foldl
      (fun t p => t.sendImage s.boot.running (loadIdOf s.boot.digest) p) (s.broadcastBegun q)) := by
  refine congrArg Host.Outcome.next ((State.work_of_up hup _).trans ?_)
  rw [State.onBoot, h]
  exact if_neg (not_not.mpr hrun)

/-! ### Verification and the start of firmware (R775, R847 to R851) -/

/-- Verification, but for its record: an accepted image is kept, and any other is not. -/
theorem exec_fwVerifyComplete {s : State} (hup : s.up = true) (hstate : s.boot.fwState = 2) (hrun : s.boot.running = []) :
    ∃ rm, exec .fwVerifyComplete s = .next { s with
      rm := rm
      boot := if s.imageCode (mreadN s.boot.image 0 s.boot.loadLen) = 0 then
          { s.boot with code := s.imageCode (mreadN s.boot.image 0 s.boot.loadLen), chunks := [], loadId := 0,
                        running := mreadN s.boot.image 0 s.boot.loadLen }
        else { s.boot with code := s.imageCode (mreadN s.boot.image 0 s.boot.loadLen), chunks := [], loadId := 0,
                           fwState := 4 } } :=
  ⟨_, congrArg Host.Outcome.next ((State.work_of_up hup _).trans (if_neg (by simp [hstate, hrun])))⟩

theorem State.imageCode_blocked {s : State} (h : s.lcState = 6 ∨ s.lcState = 15) (img : List Byte) : s.imageCode img = 5 :=
  if_pos h

/-- From `s` to `t` only what the comparison of manifests changes: the fabric, the ports, Sage's messages and records. -/
def State.OnlyAdmission (s t : State) : Prop :=
  t = { s with ctxs := t.ctxs, fps := t.fps, fab := t.fab, sage := t.sage, rm := t.rm }

theorem State.OnlyAdmission.refl (s : State) : s.OnlyAdmission s := rfl

theorem State.OnlyAdmission.trans {s t u : State} (h : s.OnlyAdmission t) (g : t.OnlyAdmission u) : s.OnlyAdmission u :=
  Eq.trans g (congrArg (fun z : State =>
    { z with ctxs := u.ctxs, fps := u.fps, fab := u.fab, sage := u.sage, rm := u.rm }) h)

theorem State.OnlyFabric.onlyAdmission {s t : State} (h : s.OnlyFabric t) : s.OnlyAdmission t :=
  Eq.trans h (congrArg₂ (fun (g : Sage) (r : Rosemary) =>
    { s with ctxs := t.ctxs, fps := t.fps, fab := t.fab, sage := g, rm := r })
    (congrArg State.sage h :).symm (congrArg State.rm h :).symm)

theorem State.setFp_onlyAdmission (s : State) (p : Nat) (x : FpPort) : s.OnlyAdmission (s.setFp p x) := rfl

theorem State.refused_onlyAdmission (s : State) (p : Nat) (x : FpPort) (hub : Nat) :
    s.OnlyAdmission (((s.setFp p x).sageFail (transportSrc p) 7).rmRecord 0x50 p hub 0 0) := rfl

theorem State.manifestIn_onlyAdmission (s : State) (p : Nat) (m : OfpMsg) : s.OnlyAdmission (s.manifestIn p m) := by
  simp only [State.manifestIn]
  split
  · exact (s.setFp_onlyAdmission p _).trans
      ((State.join_onlyFabric _ _).trans (State.reroute_onlyFabric _)).onlyAdmission
  · exact (s.refused_onlyAdmission p _ _).trans (State.reroute_onlyFabric _).onlyAdmission

/-- The state in which firmware runs, before manifests are exchanged. -/
def State.firmwareUp (s : State) : State :=
  State.poolsFromFpt { s with boot := { s.boot with fwState := 3, step := 8, digest := imageDigest s.boot.running } }

theorem exec_fwRunning {s : State} (hup : s.up = true) (hstate : s.boot.fwState = 2) (hrun : s.boot.running ≠ []) :
    ∃ t, exec .fwRunning s = .next t ∧ s.firmwareUp.OnlyAdmission t := by
  refine ⟨_, congrArg Host.Outcome.next ((State.work_of_up hup _).trans (if_neg (by simp [hstate, hrun]))), ?_⟩
  extract_lets u v
  have hu : s.firmwareUp.OnlyAdmission v := by
    refine keeps_foldl (P := s.firmwareUp.OnlyAdmission) (fun t p h => h.trans ?_) (.refl _)
    split
    · exact (State.portSend_onlySent _ _ _).onlyFabric.onlyAdmission
    · exact .refl t
  refine keeps_foldl (P := s.firmwareUp.OnlyAdmission) (fun t m h => h.trans ?_) hu
  exact (t.setFab_onlyFabric _).onlyAdmission.trans (State.manifestIn_onlyAdmission _ m.1 m.2)

theorem exec_fwLoadStall {s : State} (hup : s.up = true) (hstate : s.boot.fwState = 1) :
    exec .fwLoadStall s = .next { s with boot := { s.boot with
      fwState := s.boot.prevState, loadId := 0, loadLen := 0, chunks := [], held := [], total := 0 } } := by
  refine congrArg Host.Outcome.next ((State.work_of_up hup _).trans ((if_pos (.inl (by omega))).trans ?_))
  rw [Boot.abandon, if_pos hstate]

/-! ### Loads over the fabric (R859 to R863) -/

theorem State.storeChunk_takeInbox (s : State) (p : Nat) (m : OfpMsg) (id chunk len src : Nat) (bytes : List Byte) :
    (s.takeInbox p m).storeChunk id chunk len src bytes = (s.storeChunk id chunk len src bytes).takeInbox p m := by
  simp only [State.storeChunk, apply_ite (fun t : State => t.takeInbox p m)]
  rfl

theorem State.storeChunk_frame (s : State) (id chunk len src : Nat) (bytes : List Byte) :
    s.storeChunk id chunk len src bytes = { s with boot := (s.storeChunk id chunk len src bytes).boot } := by
  unfold State.storeChunk
  extract_lets b opened loading held img
  split <;> rfl

/-- A chunk changes only what bring-up holds of it, whatever messages wait to be handled. -/
theorem State.takeChunk_takeInbox (s : State) (p : Nat) (m : OfpMsg) (id chunk len src : Nat) (bytes : List Byte) :
    (s.takeInbox p m).takeChunk id chunk len src bytes =
        ((s.takeChunk id chunk len src bytes).1.takeInbox p m, (s.takeChunk id chunk len src bytes).2) ∧
      (s.takeChunk id chunk len src bytes).1 = { s with boot := (s.takeChunk id chunk len src bytes).1.boot } := by
  have hboot : (s.takeInbox p m).boot = s.boot := rfl
  have hstage : (s.takeInbox p m).stagingUp = s.stagingUp := rfl
  simp only [State.takeChunk, hboot, hstage, s.storeChunk_takeInbox]
  split_ifs
  · exact ⟨rfl, rfl⟩
  · exact ⟨rfl, rfl⟩
  · exact ⟨rfl, rfl⟩
  · exact ⟨rfl, rfl⟩
  · exact ⟨rfl, s.storeChunk_frame id chunk len src bytes⟩

/-- A chunk that has not been seen is noted and passed on, but not to where it came from (R860). -/
def State.passChunk (s : State) (port id chunk len : Nat) (bytes : List Byte) : State :=
  if s.boot.saw id chunk then s
  else (List.range s.build.fabricPorts).foldl (fun s p => if p = port then s else s.sendChunk p id chunk len bytes)
    { s with boot := s.boot.note id chunk }

theorem State.passChunk_spec (s : State) (port id chunk len : Nat) (bytes : List Byte) :
    State.Sends { s with boot := if s.boot.saw id chunk then s.boot else s.boot.note id chunk }
      (s.passChunk port id chunk len bytes) := by
  unfold State.passChunk
  split
  · exact .refl s
  · refine State.Sends.foldl (fun t p => ?_) _ _
    split
    · exact .refl t
    · exact t.sendChunk_sends _ _ _ _ _

/-- What a message of a load brings: LOAD_ID, the chunk's number, the length of the image, and the bytes (Table 19-9). -/
def loadIdIn (m : OfpMsg) : Nat := m.f10.toNat
def chunkIn (m : OfpMsg) : Nat := fld m.f18.toNat 63 32
def loadLenIn (m : OfpMsg) : Nat := fld m.f18.toNat 31 0
def chunkBytesIn (m : OfpMsg) : List Byte := m.data.take (min 4096 (loadLenIn m - 4096 * chunkIn m))

/-- The state in which the chunk of a message has been stored, or refused, with RESULT. -/
def State.chunkTaken (s : State) (m : OfpMsg) : State × Nat :=
  s.takeChunk (loadIdIn m) (chunkIn m) (loadLenIn m) m.srcHub.toNat (chunkBytesIn m)

/-- The answer to a chunk. -/
def State.chunkAnswer (s : State) (p : Nat) (m : OfpMsg) (result : Nat) : OfpMsg :=
  { s.fwMsg 7 p (loadIdIn m) (chunkIn m) (loadLenIn m) with dstHub := m.srcHub, e2eSeq := m.e2eSeq, f20 := BitVec.ofNat 64 result }

theorem exec_fwChunk_new {s : State} {p : Nat} {m : OfpMsg} (h : s.hears p m 6 = true) (hnew : s.e2eSeen m = none) :
    ∃ u, State.Sends { s with
        boot := if (s.chunkTaken m).1.boot.saw (loadIdIn m) (chunkIn m) then (s.chunkTaken m).1.boot
          else (s.chunkTaken m).1.boot.note (loadIdIn m) (chunkIn m)
        fab := (s.takeInbox p m).fab } u ∧
      exec (.fwChunk p m) s =
        .next ((u.e2eNote m (u.chunkAnswer p m (s.chunkTaken m).2)).portSend p (u.chunkAnswer p m (s.chunkTaken m).2)) := by
  obtain ⟨htaken, honly⟩ := s.takeChunk_takeInbox p m (loadIdIn m) (chunkIn m) (loadLenIn m) m.srcHub.toNat (chunkBytesIn m)
  refine ⟨((s.chunkTaken m).1.takeInbox p m).passChunk p (loadIdIn m) (chunkIn m) (loadLenIn m) (chunkBytesIn m), ?_, ?_⟩
  · have hpass := ((s.chunkTaken m).1.takeInbox p m).passChunk_spec p (loadIdIn m) (chunkIn m) (loadLenIn m) (chunkBytesIn m)
    have hframe : (s.chunkTaken m).1 = { s with boot := (s.chunkTaken m).1.boot } := honly
    generalize (s.chunkTaken m).1 = r at hpass hframe ⊢
    rw [hframe] at hpass ⊢
    exact hpass
  · refine congrArg Host.Outcome.next ((State.work_receive_of_hears h _).trans ?_)
    have hnew' : (s.takeInbox p m).e2eSeen m = none := hnew
    have htaken' : (s.takeInbox p m).takeChunk m.f10.toNat (fld m.f18.toNat 63 32) (fld m.f18.toNat 31 0) m.srcHub.toNat
        (m.data.take (min 4096 (fld m.f18.toNat 31 0 - 4096 * fld m.f18.toNat 63 32))) =
        ((s.chunkTaken m).1.takeInbox p m, (s.chunkTaken m).2) := htaken
    simp only [hnew', htaken']
    rfl

/-- A load that a port's peer has refused: what waits of it there is dropped, and the refusal is kept (R861). -/
def State.loadRefused (s : State) (port id : Nat) : State :=
  { s with
    fab := { s.fab with out := s.fab.out.filter fun (u : E2eOut) =>
      !(u.port == some port && u.msg.type == 6 && u.msg.f10.toNat == id && u.held) }
    boot := { s.boot with refusedBy :=
      if s.boot.refusedBy.contains (id, port) then s.boot.refusedBy else s.boot.refusedBy ++ [(id, port)] } }

theorem State.contains_loadRefused (s : State) (port id : Nat) :
    (s.loadRefused port id).boot.refusedBy.contains (id, port) = true := by
  simp only [State.loadRefused]
  split
  · assumption
  · simp

/-- An answer that accepts a load, and one that refuses it, end the message. -/
theorem exec_fwAck {s : State} {p : Nat} {m : OfpMsg} {o : E2eOut} (h : s.hears p m 7 = true)
    (hfind : s.fab.find m.srcHub.toNat m.e2eSeq.toNat = some o) (htype : o.msg.type = 6) : exec (.fwAck p m) s =
      .next (if fld m.f20.toNat 1 0 ≠ 2 then (s.takeInbox p m).e2eDone m.srcHub.toNat m.e2eSeq.toNat
        else ((s.takeInbox p m).e2eDone m.srcHub.toNat m.e2eSeq.toNat).loadRefused p o.msg.f10.toNat) := by
  refine congrArg Host.Outcome.next ((State.work_receive_of_hears h _).trans ?_)
  simp only [State.takeInbox_find, hfind, if_neg (not_not.mpr htype)]
  rfl

/-- Settles O28, request by request: what a broadcast sends stays listed while the rest is sent, and firmware's start is the
pools of the table followed by messages. -/
theorem bootAndFirmware : Obligations.BootAndFirmware := by
  unfold Obligations.BootAndFirmware
  refine ⟨?sample, ?loadWhileRunning, ?loadBadLength, ?load, ?broadcast, ?unknown, ?verify, ?blocked, ?running, ?stall,
    ?chunk, ?accepted, ?refused⟩
  case sample => exact fun s hup hstage hwarden hne hnew htaken hload hverify =>
    exec_bootReqSample hup hstage hwarden hne hnew htaken hload hverify
  case loadWhileRunning =>
    intro s q hup h hrun
    rw [exec_bootLoad hup h, if_pos hrun]
    rfl
  case loadBadLength =>
    intro s q hup h hrun hlen
    have hbad : imageLength s.boot.len = false := Bool.eq_false_iff.mpr fun hgood => by
      rw [imageLength_iff] at hgood
      omega
    rw [exec_bootLoad hup h, if_neg hrun, if_pos (by rw [hbad]; rfl)]
    rfl
  case load =>
    intro s q hup h hrun h8 hlow hhigh
    have hgood := (imageLength_iff s.boot.len).mpr ⟨h8, hlow, hhigh⟩
    rw [exec_bootLoad hup h, if_neg hrun, if_neg (by rw [hgood]; decide)]
    rfl
  case broadcast =>
    intro s q hup h hrun
    have hports : ∀ (t : State) p, t.Sends (t.sendImage s.boot.running (loadIdOf s.boot.digest) p) :=
      fun t p => t.sendImage_sends _ _ p
    have hsent := State.Sends.foldl hports (List.range s.build.fabricPorts) (s.broadcastBegun q)
    refine ⟨_, exec_bootBroadcast hup h hrun, ?_, ?_, ?_, ?_, ?_, ?_, ?_, ?_⟩
    · rw [hsent.boot]; rfl
    · rw [hsent.boot]; rfl
    · rw [hsent.boot]; rfl
    · rw [hsent.boot]; exact hrun
    · intro p i hp hactive hi
      refine State.Sends.foldl_reaches (Q := fun t => t.chunkListed (s.fp p).peerHub p (loadIdOf s.boot.digest) i
        s.boot.running.length) (fun _ _ ht => State.chunkListed.sends ht) hports (List.mem_range.mpr hp) fun t ht => ?_
      have hpeer : (t.fp p).peerHub = (s.fp p).peerHub := (ht.ports p).peerHub
      rw [← hpeer]
      refine State.sendImage_listed ((ht.ports p).state.trans hactive) ?_ hi
      rw [ht.boot]
      simp [State.broadcastBegun]
    · exact (congrArg State.mem hsent.frame :)
    · exact (congrArg State.units hsent.frame :)
    · exact (congrArg State.ctxs hsent.frame :)
  case unknown => exact fun s q op hup h h1 h2 => exec_bootUnknownOp hup h h1 h2
  case verify =>
    intro s hup hstate hrun
    obtain ⟨rm, hexec⟩ := exec_fwVerifyComplete hup hstate hrun
    refine ⟨_, hexec, ?_⟩
    generalize s.imageCode (mreadN s.boot.image 0 s.boot.loadLen) = code
    obtain hzero | hne := eq_or_ne code 0
    · rw [if_pos hzero]
      exact ⟨rfl, fun _ => ⟨rfl, hstate⟩, fun h => absurd hzero h, rfl⟩
    · rw [if_neg hne]
      exact ⟨rfl, fun h => absurd h hne, fun _ => ⟨hrun, rfl⟩, rfl⟩
  case blocked => exact fun s hlc img => State.imageCode_blocked hlc img
  case running =>
    intro s hup hstate hrun
    obtain ⟨t, hexec, honly⟩ := exec_fwRunning hup hstate hrun
    have hboot : t.boot = s.firmwareUp.boot := (congrArg State.boot honly :)
    refine ⟨t, hexec, hboot, ?_, (congrArg State.units honly :), (congrArg State.mem honly :), (congrArg State.thyme honly :)⟩
    rw [State.fwRuns, hboot]
    rfl
  case stall => exact fun s hup hstate => exec_fwLoadStall hup hstate
  case chunk =>
    intro s p m h hnew
    obtain ⟨u, hu, hexec⟩ := exec_fwChunk_new h hnew
    generalize hanswer : u.chunkAnswer p m (s.chunkTaken m).2 = a at hexec
    have hsent := State.portSend_onlySent (u.e2eNote m a) p a
    have hstill : (u.e2eNote m a).OnlyFabric ((u.e2eNote m a).portSend p a) := hsent.onlyFabric
    refine ⟨_, s.chunkTaken m, hexec, rfl, ?_, ⟨a, (hsent.e2eSeen m).trans (u.e2eSeen_e2eNote m a), ?_⟩, ?_, ?_⟩
    · exact (congrArg State.boot hstill :).trans hu.boot
    · rw [← hanswer]
      exact ⟨rfl, rfl, rfl⟩
    · exact (congrArg State.mem hstill :).trans (congrArg State.mem hu.frame :)
    · exact (congrArg State.units hstill :).trans (congrArg State.units hu.frame :)
  case accepted =>
    intro s p m o h hfind htype hresult
    rw [exec_fwAck h hfind htype, if_pos hresult]
  case refused =>
    intro s p m o h hfind htype hresult
    rw [exec_fwAck h hfind htype, if_neg (not_not.mpr hresult)]
    have hdone := (s.takeInbox p m).e2eDone_onlyFabric m.srcHub.toNat m.e2eSeq.toNat
    refine ⟨_, rfl, State.contains_loadRefused _ p _, ?_, ?_, ?_⟩
    · exact congrArg (fun z : State => { z.boot with refusedBy := s.boot.refusedBy }) hdone
    · exact (congrArg State.mem hdone :)
    · exact (congrArg State.units hdone :)

end Sys2Proof.Machine
end

section
/-! Requests and acknowledgements of a chiplet (chapter 11: R523, R524, R537, R543 to R548, R550, R551, R556). -/

namespace Sys2Proof.Machine

/-- The CREDIT that gives back the credits of a request with data flits (R540). -/
def creditMsg (data : Nat) : CppMsg := { cppZero with arg0 := BitVec.ofNat 64 (2 ^ 16 + data * 2 ^ 32) }

/-! ### A port and what has been sent on it -/

/-- The state in which a chiplet port is `x` and messages have left since `s`. -/
def State.portIs (s : State) (port : Nat) (x : CpPort) (sent : List Out) : State :=
  { s.setCp port x with out := s.out ++ sent }

theorem State.setCp_eq_portIs (s : State) (port : Nat) (x : CpPort) : s.setCp port x = s.portIs port x [] := by
  rw [State.portIs, List.append_nil]
  rfl

section
variable (s : State) (port : Nat) (x : CpPort) (o : List Out)

@[simp] theorem State.cp_portIs : (s.portIs port x o).cp port = x := s.cp_setCp port x
@[simp] theorem State.portIs_out : (s.portIs port x o).out = s.out ++ o := rfl
@[simp] theorem State.portIs_mem : (s.portIs port x o).mem = s.mem := rfl
@[simp] theorem State.portIs_hostMem : (s.portIs port x o).hostMem = s.hostMem := rfl
@[simp] theorem State.portIs_engines : (s.portIs port x o).engines = s.engines := rfl
@[simp] theorem State.portIs_units : (s.portIs port x o).units = s.units := rfl
@[simp] theorem State.portIs_ctxs : (s.portIs port x o).ctxs = s.ctxs := rfl
@[simp] theorem State.portIs_cmds : (s.portIs port x o).cmds = s.cmds := rfl
@[simp] theorem State.portIs_fences : (s.portIs port x o).fences = s.fences := rfl
@[simp] theorem State.portIs_fenceWire : (s.portIs port x o).fenceWire = s.fenceWire := rfl

/-- Nothing but the ports and what is sent has changed. -/
theorem State.portIs_frame : { s.portIs port x o with cps := s.cps, out := s.out } = s := rfl

@[simp] theorem State.setCp_portIs (y : CpPort) : (s.portIs port x o).setCp port y = s.portIs port y o := by
  refine Eq.trans (b := { (s.setCp port x).setCp port y with out := s.out ++ o }) rfl ?_
  rw [State.setCp_setCp]
  rfl

theorem State.portIs_fe {k : Nat} (hk : k < 16) : (s.portIs port x o).fe_ (16 * port + k) = x.fe k := by
  have hdiv : (16 * port + k) / 16 = port := by omega
  have hmod : (16 * port + k) % 16 = k := by omega
  rw [State.fe_, hdiv, hmod, State.cp_portIs]

theorem State.setFe_portIs {k : Nat} (hk : k < 16) (f : Fe) :
    (s.portIs port x o).setFe (16 * port + k) f = s.portIs port (x.setFe k f) o := by
  have hdiv : (16 * port + k) / 16 = port := by omega
  have hmod : (16 * port + k) % 16 = k := by omega
  rw [State.setFe, hdiv, hmod, State.cp_portIs, State.setCp_portIs]

variable {x}

/-- Nothing waits on the port and its credits suffice: the message leaves at once (R537). -/
theorem State.cppSend_portIs (htxq : x.txq = []) {op : Nat} {m : CppMsg} {c : CpCredits}
    (hspend : x.toChip.spend (cppClass op (bit m.flags.toNat 0)) (cppFlits m) = some c) :
    (s.portIs port x o).cppSend port op m = s.portIs port { x with toChip := c } (o ++ [.cpp port op m]) := by
  simp only [State.cppSend, State.cp_portIs, hspend, htxq, List.any_nil, Bool.false_eq_true, if_false, State.setCp_portIs]
  simp only [State.portIs, List.append_assoc]

/-- The credits of a request go back to the chiplet at once (R540). -/
theorem State.cppReturn_portIs (htxq : x.txq = []) (data : Nat) : (s.portIs port x o).cppReturn port 1 data =
    s.portIs port { x with fromChip := x.fromChip.add 1 data 0 0 }
      (o ++ [.cpp port 3 (creditMsg data)]) := by
  simp only [State.cppReturn, one_ne_zero, if_false, if_true, State.cp_portIs, State.setCp_portIs]
  exact s.cppSend_portIs port o (x := { x with fromChip := x.fromChip.add 1 data 0 0 }) htxq (op := 3)
    (m := creditMsg data) (c := x.toChip) rfl

/-- The credit of a response goes back. -/
theorem State.cppReturn_response (htxq : x.txq = []) : (s.portIs port x o).cppReturn port 2 0 =
    s.portIs port { x with fromChip := x.fromChip.add 0 0 1 0 } (o ++ [.cpp port 3 { cppZero with arg0 := BitVec.ofNat 64 (2 ^ 48) }]) := by
  simp only [State.cppReturn, State.cp_portIs, State.setCp_portIs]
  exact s.cppSend_portIs port o (x := { x with fromChip := x.fromChip.add 0 0 1 0 }) htxq (op := 3)
    (m := { cppZero with arg0 := BitVec.ofNat 64 (2 ^ 48) }) (c := x.toChip) rfl

theorem State.cppPump_portIs (htxq : x.txq = []) : (s.portIs port x o).cppPump port = s.portIs port x o := by
  simp only [State.cppPump, State.cp_portIs, htxq, List.foldl_nil, State.setCp_portIs]
  rw [← htxq]

/-- A message of the chiplet is taken against the credits that it has. -/
theorem State.cppIn_up {s : State} {port : Nat} (hstate : (s.cp port).state = .up) {cls data : Nat} {b : CpCredits}
    (hspend : (s.cp port).fromChip.spend cls data = some b) (act : State → State) :
    s.cppIn port cls data act = act (s.portIs port { s.cp port with fromChip := b } []) := by
  rw [State.cppIn, if_neg (not_not.mpr hstate), hspend, ← State.setCp_eq_portIs]

/-- A request of an engine that has a launch. -/
theorem State.feRequest_running {m : CppMsg} (hfe : m.fe.toNat < 16) (hrun : (x.fe m.fe.toNat).state = 3)
    (act : State → State) : (s.portIs port x o).feRequest port m act = act (s.portIs port x o) := by
  simp only [State.feRequest, s.portIs_fe port x o hfe, hrun]
  rw [if_neg (by omega), if_neg (by omega)]

end

/-! ### Credits that come back -/

theorem CpCredits.add_spend_request {c b : CpCredits} {data : Nat} (h : c.spend 1 data = some b) : b.add 1 data 0 0 = c := by
  simp only [CpCredits.spend, one_ne_zero, if_false, if_true] at h
  split at h
  next hle =>
    obtain rfl := Option.some.inj h
    simp only [CpCredits.add, Nat.add_zero, Nat.sub_add_cancel hle.1, Nat.sub_add_cancel hle.2]
  · cases h

theorem CpCredits.add_spend_response {c b : CpCredits} {data : Nat} (h : c.spend 2 data = some b) : b.add 0 0 1 data = c := by
  simp only [CpCredits.spend] at h
  rw [if_neg (by decide), if_neg (by decide)] at h
  split at h
  next hle =>
    obtain rfl := Option.some.inj h
    simp only [CpCredits.add, Nat.add_zero, Nat.sub_add_cancel hle.1, Nat.sub_add_cancel hle.2]
  · cases h

/-- The credit of a response that has been taken goes back. -/
theorem State.cppReturn_taken {s : State} {port : Nat} {b : CpCredits} (htxq : (s.cp port).txq = [])
    (hspend : (s.cp port).fromChip.spend 2 0 = some b) :
    (s.portIs port { s.cp port with fromChip := b } []).cppReturn port 2 0 =
      s.portIs port (s.cp port) [.cpp port 3 { cppZero with arg0 := BitVec.ofNat 64 (2 ^ 48) }] := by
  rw [s.cppReturn_response port [] (x := { s.cp port with fromChip := b }) htxq, CpCredits.add_spend_response hspend,
    List.nil_append]

theorem CpCredits.spend_none (c : CpCredits) (data : Nat) : c.spend 0 data = some c := rfl

theorem CpCredits.spend_response {c : CpCredits} {data : Nat} (hhdr : 1 ≤ c.rspHdr) (hdata : data ≤ c.rspData) :
    c.spend 2 data = some { c with rspHdr := c.rspHdr - 1, rspData := c.rspData - data } := by
  rw [CpCredits.spend, if_neg (by decide), if_neg (by decide), if_pos ⟨hhdr, hdata⟩]

/-! ### Memory, whatever the ports are -/

section
variable (s : State) (port : Nat) (x : CpPort) (o : List Out)

theorem State.access_portIs (w : Who) (va : Nat) : (s.portIs port x o).access w va = s.access w va := rfl

theorem State.readVa_portIs (w : Who) (refused : List Nat) (va n : Nat) :
    (s.portIs port x o).readVa w refused va n = s.readVa w refused va n := rfl

theorem State.whoFe_portIs (f : Fe) (acc : Nat) : (s.portIs port x o).whoFe f acc = s.whoFe f acc := rfl

theorem State.chargeBytes_portIs (c dev host : Nat) :
    (s.portIs port x o).chargeBytes c dev host = (s.chargeBytes c dev host).portIs port x o := by
  unfold State.chargeBytes
  split
  · rfl
  · rfl

theorem State.physWrite_portIs (host : Bool) (a : Nat) (bs : List Byte) :
    (s.portIs port x o).physWrite host a bs = (s.physWrite host a bs).portIs port x o := by
  unfold State.physWrite
  split
  · rfl
  · rfl

theorem State.physWrite_frame (host : Bool) (a : Nat) (bs : List Byte) :
    s.physWrite host a bs = { s with mem := (s.physWrite host a bs).mem, hostMem := (s.physWrite host a bs).hostMem } := by
  unfold State.physWrite
  split
  · rfl
  · rfl

end

/-- A line that is written for no static schedule goes to memory as it is, whatever the ports are. -/
theorem State.writeLine_portIs {s u : State} {w : Who} {refused : List Nat} {va : Nat} {ds : List Byte} {host : Bool}
    (h : s.writeLine w refused va ds = .done u host) (hjob : s.isJob w.ctx = false) (port : Nat) (x : CpPort) (o : List Out) :
    (s.portIs port x o).writeLine w refused va ds = .done (u.portIs port x o) host ∧
      u = { s with mem := u.mem, hostMem := u.hostMem } := by
  have hjob' : (s.portIs port x o).isJob w.ctx = false := hjob
  simp only [State.writeLine, State.access_portIs, hjob, hjob', Bool.false_eq_true, and_false, if_false] at h ⊢
  split at h
  next host' a _ =>
    obtain ⟨rfl, rfl⟩ := WriteRes.done.inj h
    exact ⟨by rw [State.physWrite_portIs], s.physWrite_frame host' a ds⟩
  next => cases h
  next => split at h <;> cases h
  next => cases h

/-! ### A request that is performed at once (R543 to R546) -/

/-- The answer to a READ, and the acknowledgement of a WRITE. -/
def CpHeld.dataMsg (h : CpHeld) (bs : List Byte) : CppMsg :=
  { cppZero with fe := BitVec.ofNat 8 h.fe, tag := h.tag, lines := BitVec.ofNat 8 h.lines, data := bs }

def CpHeld.ackMsg (h : CpHeld) : CppMsg := { cppZero with fe := BitVec.ofNat 8 h.fe, tag := h.tag }

/-- Data flits of the request itself. -/
def CpHeld.flits (h : CpHeld) : Nat := if h.isWrite then (h.lines + 3) / 4 else 0

theorem CpPort.drop_alone {x : CpPort} {h : CpHeld} (hheld : x.held = [h]) : x.drop h.tag = { x with held := [] } := by
  rw [CpPort.drop, hheld]
  simp

section
variable {s : State} {port : Nat} {x : CpPort} {o : List Out} {h : CpHeld}

/-- A READ_DATA whose credits are there, and that no other waits before, leaves (R539). -/
theorem State.readData_sends {t : State} (hx : t.cp port = x) (htxq : x.txq = []) (hheld : x.held = [h]) (hlines : h.lines < 256)
    {c : CpCredits} (hspend : x.toChip.spend 2 ((h.lines + 3) / 4) = some c) (bs : List Byte) :
    t.readData port h bs = t.portIs port { x with held := [], toChip := c } [.cpp port 7 (h.dataMsg bs)] := by
  have hflits : cppFlits (h.dataMsg bs) = (h.lines + 3) / 4 := by
    simp [cppFlits, CpHeld.dataMsg, Nat.mod_eq_of_lt hlines]
  have hspend' : x.toChip.spend 2 (cppFlits (h.dataMsg bs)) = some c := by rw [hflits, hspend]
  have hgoes : ¬((x.txq.any fun w => cppClass w.1 (bit w.2.flags.toNat 0) = 2) ||
      (x.toChip.spend 2 (cppFlits (h.dataMsg bs))).isNone) = true := by
    simp [htxq, hspend']
  subst hx
  refine (if_neg hgoes).trans ?_
  rw [CpPort.drop_alone hheld, State.setCp_eq_portIs]
  exact t.cppSend_portIs port [] (x := { t.cp port with held := [] }) htxq (op := 7) (m := h.dataMsg bs) hspend'

theorem State.portIs_portIs (y : CpPort) (o' : List Out) : (s.portIs port x o).portIs port y o' = s.portIs port y (o ++ o') := by
  rw [State.portIs, State.setCp_portIs]
  simp only [State.portIs, List.append_assoc]

theorem State.readData_alone (htxq : x.txq = []) (hheld : x.held = [h]) (hlines : h.lines < 256) {c : CpCredits}
    (hspend : x.toChip.spend 2 ((h.lines + 3) / 4) = some c) (bs : List Byte) :
    (s.portIs port x o).readData port h bs = s.portIs port { x with held := [], toChip := c } (o ++ [.cpp port 7 (h.dataMsg bs)]) := by
  rw [State.readData_sends (s.cp_portIs port x o) htxq hheld hlines hspend, State.portIs_portIs]

theorem State.writeAck_alone (htxq : x.txq = []) (hheld : x.held = [h]) (hhdr : 1 ≤ x.toChip.rspHdr) :
    (s.portIs port x o).writeAck port h =
      s.portIs port { x with held := [], toChip := { x.toChip with rspHdr := x.toChip.rspHdr - 1 } } (o ++ [.cpp port 9 h.ackMsg]) := by
  simp only [State.writeAck, State.cp_portIs, State.setCp_portIs, CpPort.drop_alone hheld]
  have hflits : cppFlits h.ackMsg = 0 := by simp [cppFlits, CpHeld.ackMsg, cppZero]
  have hspend : x.toChip.spend 2 (cppFlits h.ackMsg) = some { x.toChip with rspHdr := x.toChip.rspHdr - 1 } := by
    rw [hflits, CpCredits.spend_response hhdr (Nat.zero_le _), Nat.sub_zero]
  exact s.cppSend_portIs port o (x := { x with held := [] }) htxq (op := 9) (m := h.ackMsg) hspend

/-- A READ of memory that the engine's context may read. -/
theorem State.fePerform_read (hk : h.fe < 16) (hread : h.isWrite = false) (htxq : x.txq = []) (hheld : x.held = [h])
    (hlines : h.lines < 256) {c : CpCredits} (hspend : x.toChip.spend 2 ((h.lines + 3) / 4) = some c) {r : ReadRes}
    (hr : s.readVa (s.whoFe (x.fe h.fe) 8) [] h.va (64 * h.lines) = r) (hstop : r.stop = none) (hviol : r.viol.lines = 0)
    (fuel : Nat) : State.fePerform (fuel + 1) (s.portIs port x o) port h [] =
      (s.chargeBytes (x.fe h.fe).ctx r.dev r.host).portIs port
        { x with held := [], toChip := c, readLines := bump x.readLines ((r.dev + r.host) / 64) }
        (o ++ [.cpp port 7 (h.dataMsg r.bytes)]) := by
  simp only [State.fePerform, hread, Bool.false_eq_true, if_false, s.portIs_fe port x o hk, State.whoFe_portIs,
    State.readVa_portIs, hr, hstop, State.feViol, hviol, if_true, State.cp_portIs, State.setCp_portIs, State.chargeBytes_portIs]
  exact State.readData_alone (x := { x with readLines := bump x.readLines ((r.dev + r.host) / 64) }) htxq hheld hlines hspend _

/-- A WRITE of one line that the engine's context may write. -/
theorem State.fePerform_write {u : State} {host : Bool} (hk : h.fe < 16) (hwrite : h.isWrite = true) (htxq : x.txq = [])
    (hheld : x.held = [h]) (hlines : h.lines = 1) (hlen : h.data.length = 64) (hhdr : 1 ≤ x.toChip.rspHdr)
    (hu : s.writeLine (s.whoFe (x.fe h.fe) 9) [] h.va h.data = .done u host) (hjob : s.isJob (x.fe h.fe).ctx = false)
    (fuel : Nat) : State.fePerform (fuel + 1) (s.portIs port x o) port h [] =
      (u.chargeBytes (x.fe h.fe).ctx (if host then 0 else 64) (if host then 64 else 0)).portIs port
        { x with held := [], toChip := { x.toChip with rspHdr := x.toChip.rspHdr - 1 }, writeLines := bump x.writeLines 1 }
        (o ++ [.cpp port 9 h.ackMsg]) := by
  have htake : h.data.take 64 = h.data := List.take_of_length_le (by omega)
  have hline := (State.writeLine_portIs hu hjob port x o).1
  have hctx : (s.whoFe (x.fe h.fe) 9).ctx = (x.fe h.fe).ctx := rfl
  simp only [State.fePerform, hwrite, if_true, s.portIs_fe port x o hk, State.whoFe_portIs, hlines, List.range_one,
    List.map_cons, List.map_nil, Nat.mul_zero, Nat.add_zero, List.drop_zero, htake, List.foldl_cons, List.foldl_nil,
    feWriteLine, hline, hctx, State.chargeBytes_portIs, State.cp_portIs, State.setCp_portIs, State.feViol]
  exact State.writeAck_alone (x := { x with writeLines := bump x.writeLines 1 }) htxq hheld hhdr

theorem State.feFlush_alone {k : Nat} (hk : k < 16) (hheld : x.held = []) :
    (s.portIs port x o).feFlush (16 * port + k) =
      (x.fe k).signals.foldl (fun s g => s.feSignal (16 * port + k) g)
        (s.portIs port (x.setFe k { x.fe k with signals := [] }) o) := by
  have hdiv : (16 * port + k) / 16 = port := by omega
  simp only [State.feFlush, hdiv, State.cp_portIs, hheld, List.any_nil, Bool.false_eq_true, if_false,
    s.portIs_fe port x o hk, s.setFe_portIs port x o hk]

/-- One request that waits for nothing is performed, and the engine has no other. -/
theorem State.feRun_alone {k : Nat} (hk : k < 16) (hfe : h.fe = k) (hready : h.ready = false) (hseg : h.seg = none)
    (hheld : x.held = [h]) {t : State} {y : CpPort} {o' : List Out}
    (hperform : State.fePerform 17 (s.portIs port x o) port h [] = t.portIs port y o') (hend : y.held = [])
    (hsignals : (y.fe k).signals = []) : State.feRun 2 (s.portIs port x o) (16 * port + k) [] =
      t.portIs port (y.setFe k { y.fe k with signals := [] }) o' := by
  have hdiv : (16 * port + k) / 16 = port := by omega
  have hmod : (16 * port + k) % 16 = k := by omega
  have hfind : [h].find? (fun h => h.fe = k && !h.ready) = some h := by simp [hfe, hready]
  simp only [State.feRun, hdiv, hmod, State.cp_portIs, hheld, hfind, hseg, Option.isSome_none, Bool.false_eq_true, if_false,
    hperform, hend, List.find?_nil]
  rw [State.feFlush_alone hk hend, hsignals, List.foldl_nil]

/-- A READ that the engine's context may make is answered with the bytes (R543, R544). -/
theorem State.feRun_read {k : Nat} {c : CpCredits} {r : ReadRes} (hk : k < 16) (hfe : h.fe = k) (hready : h.ready = false)
    (hseg : h.seg = none) (hheld : x.held = [h]) (hread : h.isWrite = false) (htxq : x.txq = []) (hlines : h.lines < 256)
    (hspend : x.toChip.spend 2 ((h.lines + 3) / 4) = some c)
    (hr : s.readVa (s.whoFe (x.fe k) 8) [] h.va (64 * h.lines) = r) (hstop : r.stop = none) (hviol : r.viol.lines = 0)
    (hsignals : (x.fe k).signals = []) : ∃ y : CpPort, y.toChip = c ∧ y.held = [] ∧
      y.readLines = bump x.readLines ((r.dev + r.host) / 64) ∧ State.feRun 2 (s.portIs port x o) (16 * port + k) [] =
        (s.chargeBytes (x.fe k).ctx r.dev r.host).portIs port y (o ++ [.cpp port 7 (h.dataMsg r.bytes)]) := by
  subst hfe
  exact ⟨_, rfl, rfl, rfl, State.feRun_alone hk rfl hready hseg hheld
    (State.fePerform_read hk hread htxq hheld hlines hspend hr hstop hviol 16) rfl hsignals⟩

/-- A WRITE of one line that the engine's context may make is acknowledged (R543). -/
theorem State.feRun_write {k : Nat} {u : State} {host : Bool} (hk : k < 16) (hfe : h.fe = k) (hready : h.ready = false)
    (hseg : h.seg = none) (hheld : x.held = [h]) (hwrite : h.isWrite = true) (htxq : x.txq = []) (hlines : h.lines = 1)
    (hlen : h.data.length = 64) (hhdr : 1 ≤ x.toChip.rspHdr)
    (hu : s.writeLine (s.whoFe (x.fe k) 9) [] h.va h.data = .done u host) (hjob : s.isJob (x.fe k).ctx = false)
    (hsignals : (x.fe k).signals = []) : ∃ y : CpPort, y.held = [] ∧ y.writeLines = bump x.writeLines 1 ∧
      State.feRun 2 (s.portIs port x o) (16 * port + k) [] =
        (u.chargeBytes (x.fe k).ctx (if host then 0 else 64) (if host then 64 else 0)).portIs port y
          (o ++ [.cpp port 9 h.ackMsg]) := by
  subst hfe
  exact ⟨_, rfl, rfl, State.feRun_alone hk rfl hready hseg hheld
    (State.fePerform_write hk hwrite htxq hheld hlines hlen hhdr hu hjob 16) rfl hsignals⟩

/-- A request of a running engine, on a port where no other is held, gets its credits back and is performed. -/
theorem State.feLines_alone {k : Nat} (hk : k < 16) (hfe : h.fe = k) (hrun : (x.fe k).state = 3) (htxq : x.txq = [])
    (hheld : x.held = []) : (s.portIs port x o).feLines port h =
      State.feRun 2 (s.portIs port { x with held := [{ h with owes := false }], fromChip := x.fromChip.add 1 h.flits 0 0 }
        (o ++ [.cpp port 3 (creditMsg h.flits)])) (16 * port + k) [] := by
  have hne : ¬(x.fe k).state = 4 := by omega
  subst hfe
  simp only [State.feLines, State.cp_portIs, hheld, List.any_nil, Bool.false_eq_true, if_false, s.portIs_fe port x o hk, hne,
    State.feArrive, List.filter_nil, List.length_nil, List.nil_append, State.setCp_portIs]
  rw [if_neg (by decide)]
  exact congrArg (fun t => State.feRun 2 t _ _) (s.cppReturn_portIs port o (x := { x with held := [{ h with owes := false }] }) htxq h.flits)

end

/-! ### The messages of a foreign engine -/

/-- The credits that a CREDIT message grants, added (Table 11-4). -/
def CpCredits.grant (c : CpCredits) (a : Nat) : CpCredits := c.add (fld a 31 16) (fld a 47 32) (fld a 63 48) (fld a 15 0)

theorem State.fe_eq (s : State) {port k : Nat} (hk : k < 16) : s.fe_ (16 * port + k) = (s.cp port).fe k := by
  have hdiv : (16 * port + k) / 16 = port := by omega
  have hmod : (16 * port + k) % 16 = k := by omega
  rw [State.fe_, hdiv, hmod]

section
variable {s : State} {port : Nat} {fe : BitVec 8} {tag : BitVec 16} {b : CpCredits} (hup : s.up = true)
  (hstate : (s.cp port).state = .up) (htxq : (s.cp port).txq = []) (hheld : (s.cp port).held = [])
include hup hstate htxq

theorem exec_cppCredit (a : BitVec 64) : exec (.cppCredit port { cppZero with arg0 := a }) s =
    .next (s.setCp port { s.cp port with toChip := (s.cp port).toChip.grant a.toNat }) := by
  refine congrArg Host.Outcome.next ((State.work_of_up hup _).trans ((State.cppIn_up hstate (CpCredits.spend_none _ 0) _).trans
    ((if_neg (not_not.mpr rfl)).trans ?_)))
  simp only [State.cp_portIs, State.setCp_portIs]
  exact (s.cppPump_portIs port [] (x := { s.cp port with toChip := (s.cp port).toChip.grant a.toNat }) htxq).trans
    (s.setCp_eq_portIs port _).symm

end

section
variable {s : State} {port : Nat} {fe : BitVec 8} {tag : BitVec 16} {b : CpCredits} (hup : s.up = true)
  (hstate : (s.cp port).state = .up) (htxq : (s.cp port).txq = []) (hheld : (s.cp port).held = [])
include hstate htxq hheld

/-- A request whose form is right reaches the list of the port, and its credits go back (R537, R540). -/
theorem State.cppIn_feLines {m : CppMsg} {h : CpHeld} (hspend : (s.cp port).fromChip.spend 1 h.flits = some b) (hfe : m.fe.toNat < 16)
    (hrun : (s.fe_ (16 * port + m.fe.toNat)).state = 3) (hof : h.fe = m.fe.toNat) (howes : h.owes = false) :
    s.cppIn port 1 h.flits (fun s => s.feRequest port m fun s => s.feLines port h) =
      State.feRun 2 (s.portIs port { s.cp port with held := [h] }
        [.cpp port 3 (creditMsg h.flits)]) (16 * port + m.fe.toNat) [] := by
  rw [s.fe_eq hfe] at hrun
  have howner : { h with owes := false } = h := by rw [← howes]
  refine (State.cppIn_up hstate hspend _).trans
    ((State.feRequest_running s port [] (x := { s.cp port with fromChip := b }) hfe hrun _).trans
      ((State.feLines_alone (x := { s.cp port with fromChip := b }) hfe hof hrun htxq hheld).trans ?_))
  rw [howner, List.nil_append, CpCredits.add_spend_request hspend]

include hup

/-- A READ and a WRITE as they are held. -/
def readHeld (m : CppMsg) : CpHeld :=
  { fe := m.fe.toNat, tag := m.tag, isWrite := false, va := m.addr.toNat, lines := m.arg0.toNat, data := [] }

def writeHeld (m : CppMsg) : CpHeld :=
  { fe := m.fe.toNat, tag := m.tag, isWrite := true, va := m.addr.toNat, lines := m.lines.toNat, data := m.data }

section
variable {m : CppMsg} (hfe : m.fe.toNat < 16) (hrun : (s.fe_ (16 * port + m.fe.toNat)).state = 3)
include hfe hrun

theorem exec_cppRead_listed (hspend : (s.cp port).fromChip.spend 1 0 = some b)
    (hm : m = { cppZero with fe := m.fe, tag := m.tag, addr := m.addr, arg0 := m.arg0 })
    (hlines : linesOk m.addr.toNat m.arg0.toNat = true) : exec (.cppRead port m) s =
      .next (State.feRun 2 (s.portIs port { s.cp port with held := [readHeld m] }
        [.cpp port 3 (creditMsg 0)]) (16 * port + m.fe.toNat) []) := by
  have hform : ¬(m ≠ { cppZero with fe := m.fe, tag := m.tag, addr := m.addr, arg0 := m.arg0 } ∨
      (!linesOk m.addr.toNat m.arg0.toNat) = true) := by
    rw [hlines]
    rintro (h | h)
    · exact h hm
    · cases h
  exact congrArg Host.Outcome.next ((State.work_of_up hup _).trans ((congrArg (s.cppIn port 1 0) (funext fun t =>
    if_neg hform)).trans (State.cppIn_feLines hstate htxq hheld (h := readHeld m) hspend hfe hrun rfl rfl)))

theorem exec_cppRead {c : CpCredits} {r : ReadRes} (hspend : (s.cp port).fromChip.spend 1 0 = some b)
    (hm : m = { cppZero with fe := m.fe, tag := m.tag, addr := m.addr, arg0 := m.arg0 })
    (hlines : linesOk m.addr.toNat m.arg0.toNat = true)
    (hsignals : (s.fe_ (16 * port + m.fe.toNat)).signals = [])
    (hanswer : (s.cp port).toChip.spend 2 ((m.arg0.toNat + 3) / 4) = some c)
    (hr : s.readVa (s.whoFe (s.fe_ (16 * port + m.fe.toNat)) 8) [] m.addr.toNat (64 * m.arg0.toNat) = r)
    (hstop : r.stop = none) (hviol : r.viol.lines = 0) : ∃ y : CpPort, y.toChip = c ∧ y.held = [] ∧
      y.readLines = bump (s.cp port).readLines ((r.dev + r.host) / 64) ∧ exec (.cppRead port m) s = .next
        ((s.chargeBytes (s.fe_ (16 * port + m.fe.toNat)).ctx r.dev r.host).portIs port y
          [.cpp port 3 (creditMsg 0), .cpp port 7 ((readHeld m).dataMsg r.bytes)]) := by
  have hmax : m.arg0.toNat < 256 := by
    simp only [linesOk, Bool.and_eq_true, decide_eq_true_eq] at hlines
    omega
  rw [exec_cppRead_listed hup hstate htxq hheld hfe hrun hspend hm hlines]
  rw [s.fe_eq hfe] at hsignals hr ⊢
  obtain ⟨y, hchip, hnone, hcount, hrunEq⟩ := State.feRun_read (port := port) (o := [.cpp port 3 (creditMsg 0)])
    (x := { s.cp port with held := [readHeld m] }) (h := readHeld m) hfe rfl rfl rfl rfl rfl htxq hmax hanswer hr hstop hviol
    hsignals
  exact ⟨y, hchip, hnone, hcount, congrArg Host.Outcome.next hrunEq⟩

theorem exec_cppWrite {u : State} {host : Bool} (hspend : (s.cp port).fromChip.spend 1 1 = some b)
    (hm : m = { cppZero with fe := m.fe, tag := m.tag, addr := m.addr, lines := m.lines, data := m.data })
    (hone : m.lines = 1) (hlen : m.data.length = 64) (hva : m.addr.toNat % 64 = 0)
    (hsignals : (s.fe_ (16 * port + m.fe.toNat)).signals = []) (hhdr : 1 ≤ (s.cp port).toChip.rspHdr)
    (hu : s.writeLine (s.whoFe (s.fe_ (16 * port + m.fe.toNat)) 9) [] m.addr.toNat m.data = .done u host)
    (hjob : s.isJob (s.fe_ (16 * port + m.fe.toNat)).ctx = false) : ∃ y : CpPort, y.held = [] ∧
      y.writeLines = bump (s.cp port).writeLines 1 ∧ exec (.cppWrite port m) s = .next
        ((u.chargeBytes (s.fe_ (16 * port + m.fe.toNat)).ctx (if host then 0 else 64) (if host then 64 else 0)).portIs port y
          [.cpp port 3 (creditMsg 1), .cpp port 9 (writeHeld m).ackMsg]) := by
  have hform : ¬(m ≠ { cppZero with fe := m.fe, tag := m.tag, addr := m.addr, lines := m.lines, data := m.data } ∨
      (!linesOk m.addr.toNat m.lines.toNat) = true ∨ m.data.length ≠ 64 * m.lines.toNat) := by
    have hblock : linesOk m.addr.toNat 1 = true := by
      simp only [linesOk, Bool.and_eq_true, beq_iff_eq, decide_eq_true_eq]
      omega
    rw [hone, hlen]
    rintro (h | h | h)
    · exact h (hone ▸ hm)
    · exact Bool.false_ne_true ((congrArg not hblock).symm.trans h)
    · exact h rfl
  have hone' : (writeHeld m).flits = 1 := by simp [CpHeld.flits, writeHeld, hone]
  have hlisted := State.cppIn_feLines hstate htxq hheld (m := m) (h := writeHeld m) (by rw [hone']; exact hspend) hfe hrun rfl rfl
  rw [s.fe_eq hfe] at hsignals hu hjob ⊢
  obtain ⟨y, hnone, hcount, hrunEq⟩ := State.feRun_write (port := port) (o := [.cpp port 3 (creditMsg 1)])
    (x := { s.cp port with held := [writeHeld m] }) (h := writeHeld m) hfe rfl rfl rfl rfl rfl htxq
    (congrArg BitVec.toNat hone) hlen hhdr hu hjob hsignals
  rw [hone'] at hlisted
  refine ⟨y, hnone, hcount, congrArg Host.Outcome.next ((State.work_of_up hup _).trans
    ((congrArg (s.cppIn port 1 (cppFlits m)) (funext fun t => if_neg hform)).trans ?_))⟩
  have hflits : cppFlits m = 1 := hone'
  rw [hflits]
  exact hlisted.trans hrunEq

end

end

/-! ### SIGNAL and COMPLETE (R547, R548) -/

@[simp] theorem CpPort.fe_setFe (x : CpPort) (k : Nat) (f : Fe) : (x.setFe k f).fe k = f := tget_tput ..

section
variable {s : State} {port : Nat} {b : CpCredits} {m : CppMsg} (hup : s.up = true) (hstate : (s.cp port).state = .up)
  (htxq : (s.cp port).txq = []) (hheld : (s.cp port).held = []) (hfe : m.fe.toNat < 16)
  (hrun : ((s.cp port).fe m.fe.toNat).state = 3) (hspend : (s.cp port).fromChip.spend 1 0 = some b)
include hstate htxq hfe hrun hspend

/-- A request without data of an engine that has a launch gets its credit back. -/
theorem State.cppIn_feRequest (act : State → State) :
    (s.cppIn port 1 0 fun s => s.feRequest port m fun s => act (s.cppReturn port 1 0)) =
      act (s.portIs port (s.cp port) [.cpp port 3 (creditMsg 0)]) := by
  refine (State.cppIn_up hstate hspend _).trans
    ((State.feRequest_running s port [] (x := { s.cp port with fromChip := b }) hfe hrun _).trans (congrArg act ?_))
  rw [s.cppReturn_portIs port [] (x := { s.cp port with fromChip := b }) htxq 0]
  rw [CpCredits.add_spend_request hspend, List.nil_append]

/-- What a SIGNAL and a COMPLETE do once their credit has gone back. -/
def signalAct (port : Nat) (m : CppMsg) (s : State) : State :=
  let f := s.fe_ (16 * port + m.fe.toNat)
  if f.state = 4 then s
  else (s.setFe (16 * port + m.fe.toNat) { f with signals := f.signals ++ [BitVec.ofNat 32 m.arg0.toNat] }).feFlush
    (16 * port + m.fe.toNat)

def completeAct (port : Nat) (m : CppMsg) (s : State) : State :=
  let f := s.fe_ (16 * port + m.fe.toNat)
  if f.cmd.isNone && f.step.isNone then s.quarantine port 3
  else if f.tag ≠ m.tag then s.quarantine port 4
  else if (s.cp port).held.any fun h => h.fe = m.fe.toNat then s.quarantine port 10
  else s.feComplete (16 * port + m.fe.toNat) m.status.toNat

omit hstate htxq hfe hrun hspend in
theorem State.feComplete_zero (s : State) (i : Nat) :
    s.feComplete i 0 = s.feEnd i (if (s.fe_ i).state = 4 then 4 else 1) := rfl

/-- An engine whose launch is over, and a command of which a foreign engine has ended a workgroup. -/
def Fe.freed (f : Fe) (now : Nat) : Fe :=
  { f with state := 1, cmd := none, step := none, code := 0, signals := [], desc := {},
           busyNs := if f.cmd.isSome || f.step.isSome then f.busyNs + (now - f.since) else f.busyNs }

def Cmd.endsAt (c : Cmd) (i wg : Nat) : Cmd :=
  { c with foreign := c.foreign.filter fun w => w ≠ (i, wg), wgEnded := c.wgEnded + 1 }

/-- The state in which COMPLETE has freed engine `k` of a port and counted its workgroup of a command. -/
def State.launchEnded (s : State) (port k id : Nat) (c : Cmd) : State :=
  (s.portIs port ((s.cp port).setFe k (((s.cp port).fe k).freed s.now)) [.cpp port 3 (creditMsg 0)]).setCmd id
    (c.endsAt (16 * port + k) ((s.cp port).fe k).wg)

include hup hheld

/-- A SIGNAL of an engine that has no unanswered WRITE acts at once. -/
theorem exec_cppSignal (hm : m = { cppZero with fe := m.fe, arg0 := m.arg0 }) (harg : m.arg0.toNat < 2 ^ 32)
    (hsignals : ((s.cp port).fe m.fe.toNat).signals = []) (hcmd : ((s.cp port).fe m.fe.toNat).cmd = none)
    (hvalid : s.fenceValid ((s.cp port).fe m.fe.toNat).ctx (BitVec.ofNat 32 m.arg0.toNat) none = true) :
    ∃ y : CpPort, (y.fe m.fe.toNat).state = 3 ∧ exec (.cppSignal port m) s = .next
      ((s.portIs port y [.cpp port 3 (creditMsg 0)]).sendSignal (BitVec.ofNat 32 m.arg0.toNat) 0) := by
  have hform : ¬(m ≠ { cppZero with fe := m.fe, arg0 := m.arg0 } ∨ 2 ^ 32 ≤ m.arg0.toNat) :=
    fun h => h.elim (fun h => h hm) fun h => absurd harg (Nat.not_lt.mpr h)
  have hne : ¬((s.cp port).fe m.fe.toNat).state = 4 := by omega
  generalize hg : BitVec.ofNat 32 m.arg0.toNat = g at hvalid ⊢
  refine ⟨((s.cp port).setFe m.fe.toNat { (s.cp port).fe m.fe.toNat with signals := [g] }).setFe m.fe.toNat
      { (s.cp port).fe m.fe.toNat with signals := [] }, ?_,
    congrArg Host.Outcome.next ((State.work_of_up hup _).trans ((congrArg (s.cppIn port 1 0) (funext fun t =>
      if_neg hform)).trans ((State.cppIn_feRequest hstate htxq hfe hrun hspend (signalAct port m)).trans ?_)))⟩
  · rw [CpPort.fe_setFe]
    exact hrun
  · simp only [signalAct, s.portIs_fe port _ _ hfe, if_neg hne, s.setFe_portIs port _ _ hfe, hsignals, List.nil_append, hg]
    refine (State.feFlush_alone hfe ?_).trans ?_
    · exact hheld
    simp only [CpPort.fe_setFe, List.foldl_cons, List.foldl_nil]
    generalize (s.cp port).setFe _ _ = x
    rw [State.feSignal, s.portIs_fe port _ _ hfe, CpPort.fe_setFe]
    simp only [hcmd]
    exact if_pos hvalid

/-- COMPLETE frees the engine and ends its workgroup of the command. -/
theorem exec_cppComplete (hm : m = { cppZero with fe := m.fe, tag := m.tag }) {id : Nat} {c : Cmd}
    (htag : ((s.cp port).fe m.fe.toNat).tag = m.tag) (hcmd : ((s.cp port).fe m.fe.toNat).cmd = some id)
    (hstep : ((s.cp port).fe m.fe.toNat).step = none) (hfind : tfind s.cmds id = some c) :
    exec (.cppComplete port m) s = .next ((s.launchEnded port m.fe.toNat id c).checkCmdDone id) := by
  have hstatus : m.status = 0 := by rw [hm]; rfl
  have hzero : m.status.toNat = 0 := by rw [hstatus]; rfl
  have hform : ¬(m ≠ { cppZero with fe := m.fe, tag := m.tag, status := m.status } ∨ 2 < m.status.toNat) := by
    rw [hstatus]
    exact fun h => h.elim (fun h => h hm) (by decide)
  have hne : ¬((s.cp port).fe m.fe.toNat).state = 4 := by omega
  refine congrArg Host.Outcome.next ((State.work_of_up hup _).trans ((congrArg (s.cppIn port 1 0) (funext fun t =>
    if_neg hform)).trans ((State.cppIn_feRequest hstate htxq hfe hrun hspend (completeAct port m)).trans ?_)))
  simp only [completeAct, s.portIs_fe port _ _ hfe, hcmd, Option.isNone_some, Bool.false_and, Bool.false_eq_true, if_false, htag,
    ne_eq, not_true_eq_false, State.cp_portIs, hheld, List.any_nil, hzero]
  rw [State.feComplete_zero]
  simp only [State.feEnd, s.portIs_fe port _ _ hfe, if_neg hne, State.feFree, hstep, hcmd, s.setFe_portIs port _ _ hfe,
    State.portIs_cmds, hfind]
  rw [State.launchEnded, Fe.freed, hcmd, hstep]
  rfl

end

/-! ### The end of a launch (R548) -/

section
variable {s : State} {id : Nat} {m : Cmd} {d : Desc} (hfind : tfind s.cmds id = some m) (hdesc : m.desc = some d)
  (hlive : (s.ctx m.ctx).state = .live)
include hfind hdesc hlive

theorem State.checkCmdDone_waits (hmore : m.wgEnded < d.workgroups) : s.checkCmdDone id = s := by
  have hnot : ¬(s.cmdLaunches id = [] ∧ m.foreign = [] ∧ (m.wgEnded ≥ d.workgroups ∨ (s.ctx m.ctx).state ≠ .live)) := by
    rintro ⟨-, -, h | h⟩
    · exact absurd hmore (Nat.not_lt.mpr h)
    · exact h hlive
  simp only [State.checkCmdDone, hfind, hdesc]
  rw [if_neg hnot, ite_self]

theorem State.checkCmdDone_done (hpacket : m.isPacket = false) (hlaunches : s.cmdLaunches id = []) (hforeign : m.foreign = [])
    (hall : d.workgroups ≤ m.wgEnded) : s.checkCmdDone id = s.completeCmd id m.code := by
  simp only [State.checkCmdDone, hfind, hdesc, hpacket, Bool.false_eq_true, if_false]
  rw [if_pos ⟨hlaunches, hforeign, .inl hall⟩, if_neg fun h => absurd hlive (by simpa using h.2)]

end

theorem State.launchEnded_find (s : State) (port k id : Nat) (c : Cmd) :
    tfind (s.launchEnded port k id c).cmds id = some (c.endsAt (16 * port + k) ((s.cp port).fe k).wg) := tfind_tput ..

theorem State.launchEnded_fe (s : State) {port k : Nat} (hk : k < 16) (id : Nat) (c : Cmd) :
    (s.launchEnded port k id c).fe_ (16 * port + k) = ((s.cp port).fe k).freed s.now :=
  (s.portIs_fe port _ [.cpp port 3 (creditMsg 0)] hk).trans (CpPort.fe_setFe ..)

/-- A LAUNCH that completes signals its fence. -/
theorem State.completeCmd_launch {s : State} {id : Nat} {m : Cmd} (hfind : tfind s.cmds id = some m) (hop : m.op = 2) (code : Nat) :
    (s.completeCmd id code).fenceWire = if m.handle = 0 then s.fenceWire else s.fenceWire ++ [⟨m.handle, code⟩] := by
  simp only [State.completeCmd, hfind, hop]
  refine Eq.trans (b := (State.sendSignal { s with cmds := tdel s.cmds id } m.handle code).fenceWire) rfl ?_
  unfold State.sendSignal
  split
  · rfl
  · rfl

/-! ### Answers of the hub and acknowledgements of the chiplet (R539, R549, R550, R551) -/

section
variable {s : State} {port : Nat} {tag : BitVec 16} {b : CpCredits} (hup : s.up = true) (hstate : (s.cp port).state = .up)
include hup hstate

theorem exec_readDataSend {h : CpHeld} {c : CpCredits} (htxq : (s.cp port).txq = []) (hheld : (s.cp port).held = [h])
    (htag : h.tag = tag) (hready : h.ready = true) (hlines : h.lines < 256)
    (hspend : (s.cp port).toChip.spend 2 ((h.lines + 3) / 4) = some c) : exec (.readDataSend port tag) s =
      .next (s.portIs port { s.cp port with held := [], toChip := c } [.cpp port 7 (h.dataMsg h.data)]) := by
  have hfind : (s.cp port).held.find? (fun h => h.tag = tag && h.ready) = some h := by simp [hheld, htag, hready]
  refine congrArg Host.Outcome.next ((State.work_of_up hup _).trans ?_)
  simp only [hfind]
  rw [if_pos hstate]
  exact State.readData_sends rfl htxq hheld hlines hspend _

theorem exec_cppInvalAck {id : Nat} (htxq : (s.cp port).txq = []) (hspend : (s.cp port).fromChip.spend 2 0 = some b)
    (hinvals : (s.cp port).invals = [(tag, id)]) : exec (.cppInvalAck port { cppZero with tag := tag }) s =
      .next (s.portIs port { s.cp port with invals := [] } [.cpp port 3 { cppZero with arg0 := BitVec.ofNat 64 (2 ^ 48) }]) := by
  refine congrArg Host.Outcome.next ((State.work_of_up hup _).trans ((State.cppIn_up hstate hspend _).trans
    ((if_neg (not_not.mpr rfl)).trans ?_)))
  rw [State.cppReturn_taken htxq hspend]
  simp [hinvals, cppZero]

theorem exec_cppResetAck (htag : (s.cp port).resetTag = some tag) (hidle : ∀ f ∈ (s.cp port).fes, f.2.state ≠ 3 ∧ f.2.state ≠ 4) :
    exec (.cppResetAck port { cppZero with flags := 1, tag := tag }) s =
      .next (s.setCp port { s.cp port with resetTag := none }) := by
  have hnone : (s.cp port).fes.filter (fun f => f.2.state = 3 || f.2.state = 4) = [] := by
    rw [List.filter_eq_nil_iff]
    intro f hf
    simp [hidle f hf]
  refine congrArg Host.Outcome.next ((State.work_of_up hup _).trans ((if_neg (by simp [hstate])).trans
    ((if_neg (not_not.mpr rfl)).trans ((if_neg (not_not.mpr htag)).trans ?_))))
  rw [hnone, List.foldl_nil]

end

/-- An engine that has nothing outstanding is squashed: only what it would have signalled is dropped. -/
theorem State.feSquash_idle {s : State} {port k : Nat} {x : CpPort} {o : List Out} (hk : k < 16) (hheld : x.held = []) :
    (s.portIs port x o).feSquash (16 * port + k) = s.portIs port (x.setFe k { x.fe k with signals := [] }) o := by
  have hdiv : (16 * port + k) / 16 = port := by omega
  have hnone : ({ x.setFe k { x.fe k with signals := [] } with held := [] } : CpPort) =
      x.setFe k { x.fe k with signals := [] } := by rw [← hheld]; rfl
  have hheld' : (x.setFe k { x.fe k with signals := [] }).held = [] := hheld
  simp only [State.feSquash, hdiv, State.cp_portIs, hheld, List.filter_nil, List.foldl_nil, s.portIs_fe port x o hk,
    s.setFe_portIs port x o hk, State.feOwed, hheld', List.length_nil, List.map_nil, State.setCp_portIs, hnone]
  exact if_neg (by decide)

/-- An engine that has acknowledged a QUIESCE. -/
def Fe.stopped (f : Fe) : Fe := { f with signals := [], quiesceTag := none }

/-- What the acknowledgement does once its credit has gone back. -/
def quiesceAckAct (port k : Nat) (s : State) : State :=
  let s := s.feSquash (16 * port + k)
  let s := s.setFe (16 * port + k) { s.fe_ (16 * port + k) with quiesceTag := none }
  s.feDiscard (16 * port + k) (if (s.fe_ (16 * port + k)).state = 5 then 5 else 1)

theorem exec_cppQuiesceAck {s : State} {port : Nat} {fe : BitVec 8} {tag : BitVec 16} {b : CpCredits} (hup : s.up = true)
    (hstate : (s.cp port).state = .up) (htxq : (s.cp port).txq = []) (hheld : (s.cp port).held = [])
    (hspend : (s.cp port).fromChip.spend 2 0 = some b) (hfe : fe.toNat < 16) (hquiescing : ((s.cp port).fe fe.toNat).state = 4)
    (htag : ((s.cp port).fe fe.toNat).quiesceTag = some tag) (hcmd : ((s.cp port).fe fe.toNat).cmd = none)
    (hstep : ((s.cp port).fe fe.toNat).step = none) : ∃ (y : CpPort) (f : Fe), f.state = 1 ∧ f.quiesceTag = none ∧ y.state = .up ∧
      exec (.cppQuiesceAck port { cppZero with flags := 1, fe := fe, tag := tag }) s =
        .next (s.portIs port (y.setFe fe.toNat f) [.cpp port 3 { cppZero with arg0 := BitVec.ofNat 64 (2 ^ 48) }]) := by
  have hcase : ¬(16 ≤ fe.toNat ∨ ((s.cp port).fe fe.toNat).state = 0) := by omega
  have hne : ¬((s.cp port).fe fe.toNat).state = 5 := by omega
  refine ⟨((s.cp port).setFe fe.toNat { (s.cp port).fe fe.toNat with signals := [] }).setFe fe.toNat ((s.cp port).fe fe.toNat).stopped,
    ((s.cp port).fe fe.toNat).stopped.freed s.now, rfl, rfl, hstate, congrArg Host.Outcome.next ((State.work_of_up hup _).trans
    ((State.cppIn_up hstate hspend _).trans ((if_neg (not_not.mpr rfl)).trans ?_)))⟩
  refine Eq.trans (if_neg (by rw [s.portIs_fe port _ _ hfe]; exact hcase)) ?_
  refine Eq.trans (if_neg (by rw [s.portIs_fe port _ _ hfe]; exact not_not.mpr htag)) ?_
  refine (congrArg (quiesceAckAct port fe.toNat) (State.cppReturn_taken htxq hspend)).trans ?_
  rw [quiesceAckAct, State.feSquash_idle hfe hheld]
  simp only [s.portIs_fe port _ _ hfe, s.setFe_portIs port _ _ hfe, CpPort.fe_setFe, State.feDiscard, State.feFree, hstep, hcmd, hne,
    Fe.freed, Fe.stopped]
  rfl

/-! ### The statement -/

theorem creditMsg_zero : creditMsg 0 = { cppZero with arg0 := 0x10000 } := rfl

theorem creditMsg_one : creditMsg 1 = { cppZero with arg0 := 0x100010000 } := rfl

theorem CpHeld.ackMsg_eq {h : CpHeld} {fe : BitVec 8} (hfe : h.fe = fe.toNat) :
    h.ackMsg = { cppZero with fe := fe, tag := h.tag } := by
  rw [CpHeld.ackMsg, hfe, BitVec.ofNat_toNat, BitVec.setWidth_eq]

theorem CpHeld.dataMsg_eq {h : CpHeld} {fe : BitVec 8} (hfe : h.fe = fe.toNat) (bs : List Byte) :
    h.dataMsg bs = { cppZero with fe := fe, tag := h.tag, lines := BitVec.ofNat 8 h.lines, data := bs } := by
  rw [CpHeld.dataMsg, hfe, BitVec.ofNat_toNat, BitVec.setWidth_eq]

theorem State.sendSignal_fenceWire_of_ne (s : State) {h : BitVec 32} (hne : h ≠ 0) (code : Nat) :
    s.sendSignal h code = { s with fenceWire := s.fenceWire ++ [⟨h, code⟩] } := if_neg hne

/-- Settles O50: with nothing waiting on the port every message is one exact update of it (`State.portIs`), and a request
that waits for nothing is performed between its credit and its answer. -/
theorem chipletRequests : Obligations.ChipletRequests := by
  unfold Obligations.ChipletRequests
  refine ⟨?credit, ?read, ?write, ?signal, ?complete, ?completeLast, ?readDataSend, ?invalAck, ?quiesceAck, ?resetAck⟩
  case credit => exact fun s port a hup hstate htxq => exec_cppCredit hup hstate htxq a
  case read =>
    intro s port n fe tag va b c r hup hstate hspend hfe hrun hsignals hheld htxq hn hlines hanswer hr hstop hviol
    have harg : (BitVec.ofNat 64 n).toNat = n := Nat.mod_eq_of_lt hn
    generalize hm : ({ cppZero with fe := fe, tag := tag, addr := va, arg0 := BitVec.ofNat 64 n } : CppMsg) = m
    obtain rfl : fe = m.fe := by rw [← hm]
    obtain rfl : tag = m.tag := by rw [← hm]
    obtain rfl : va = m.addr := by rw [← hm]
    have hlen : m.arg0.toNat = n := by rw [← hm]; exact harg
    have hn64 : m.arg0 = BitVec.ofNat 64 n := by rw [← hm]
    rw [← hlen] at hlines hanswer hr ⊢
    rw [← hn64] at hm
    obtain ⟨y, hchip, hnone, hcount, hexec⟩ := exec_cppRead hup hstate htxq hheld hfe hrun hspend hm.symm hlines hsignals hanswer hr
      hstop hviol
    obtain ⟨ctxs, hcharge⟩ := s.chargeBytes_onlyCtxs (s.fe_ (16 * port + m.fe.toNat)).ctx r.dev r.host
    refine ⟨_, hexec, ?_, ?_, ?_, ?_, ?_, ?_, ?_, ?_⟩
    · rw [State.portIs_out, hcharge, creditMsg_zero, CpHeld.dataMsg_eq (h := readHeld m) rfl]
      rfl
    · rw [State.cp_portIs, hchip]
    · rw [State.cp_portIs, hcount]
    · rw [State.cp_portIs, hnone]
    all_goals rw [hcharge]; rfl
  case write =>
    intro s u port fe tag va ds host b hup hstate hspend hfe hrun hsignals hheld htxq hhdr hlen hva hu hjob
    generalize hm : ({ cppZero with fe := fe, tag := tag, addr := va, lines := 1, data := ds } : CppMsg) = m
    obtain rfl : fe = m.fe := by rw [← hm]
    obtain rfl : tag = m.tag := by rw [← hm]
    obtain rfl : va = m.addr := by rw [← hm]
    obtain rfl : ds = m.data := by rw [← hm]
    have hone : m.lines = 1 := by rw [← hm]
    rw [← hone] at hm
    obtain ⟨y, hnone, hcount, hexec⟩ := exec_cppWrite hup hstate htxq hheld hfe hrun hspend hm.symm hone hlen hva hsignals hhdr hu hjob
    have hframe := (State.writeLine_portIs hu hjob port y []).2
    obtain ⟨ctxs, hcharge⟩ := u.chargeBytes_onlyCtxs (s.fe_ (16 * port + m.fe.toNat)).ctx (if host then 0 else 64)
      (if host then 64 else 0)
    rw [hcharge] at hexec
    refine ⟨_, hexec, rfl, rfl, ?_, ?_, ?_, ?_, ?_⟩
    · rw [State.portIs_out, creditMsg_one, CpHeld.ackMsg_eq (h := writeHeld m) rfl]
      have hout : u.out = s.out := (congrArg State.out hframe :)
      exact congrArg (· ++ _) hout
    · rw [State.cp_portIs, hcount]
    · rw [State.cp_portIs, hnone]
    · exact (congrArg State.engines hframe :)
    · exact (congrArg State.units hframe :)
  case signal =>
    intro s port fe h b hup hstate hspend hfe hrun hsignals hcmd hheld htxq hne hvalid
    have hback : BitVec.ofNat 32 (BitVec.ofNat 64 h.toNat).toNat = h := by
      have := h.isLt
      rw [BitVec.toNat_ofNat, Nat.mod_eq_of_lt (by omega), BitVec.ofNat_toNat, BitVec.setWidth_eq]
    have harg : (BitVec.ofNat 64 h.toNat).toNat < 2 ^ 32 := by
      have := h.isLt
      simp only [BitVec.toNat_ofNat]
      omega
    rw [s.fe_eq hfe] at hrun hsignals hcmd hvalid
    obtain ⟨y, hy, hexec⟩ := exec_cppSignal (m := { cppZero with fe := fe, arg0 := BitVec.ofNat 64 h.toNat }) hup hstate htxq hheld hfe
      hrun hspend rfl harg hsignals hcmd (by rw [hback]; exact hvalid)
    rw [hback, State.sendSignal_fenceWire_of_ne _ hne] at hexec
    refine ⟨_, hexec, rfl, by rw [← creditMsg_zero]; rfl, ?_, rfl, rfl, rfl⟩
    exact (congrArg Fe.state (s.portIs_fe port y [.cpp port 3 (creditMsg 0)] hfe)).trans hy
  case complete =>
    intro s port id fe tag b m d hup hstate hspend hfe hrun htag hheld hcmd hstep htxq hfind _ hdesc hmore hlive
    rw [s.fe_eq hfe] at hrun htag hcmd hstep ⊢
    have hexec : _ = Host.Outcome.next ((s.launchEnded port fe.toNat id m).checkCmdDone id) :=
      exec_cppComplete (m := { cppZero with fe := fe, tag := tag }) hup hstate htxq hheld hfe hrun hspend rfl htag hcmd hstep hfind
    rw [State.checkCmdDone_waits (s.launchEnded_find port fe.toNat id m) hdesc hlive hmore] at hexec
    exact ⟨_, hexec, congrArg Fe.state (s.launchEnded_fe hfe id m), congrArg Fe.cmd (s.launchEnded_fe hfe id m),
      s.launchEnded_find port fe.toNat id m, rfl, rfl, rfl⟩
  case completeLast =>
    intro s port id fe tag b m d hup hstate hspend hfe hrun htag hheld hcmd hstep htxq hfind hpacket hdesc hall hop hforeign hlaunches
      hcode hlive
    rw [s.fe_eq hfe] at hrun htag hcmd hstep hforeign
    have hexec : _ = Host.Outcome.next ((s.launchEnded port fe.toNat id m).checkCmdDone id) :=
      exec_cppComplete (m := { cppZero with fe := fe, tag := tag }) hup hstate htxq hheld hfe hrun hspend rfl htag hcmd hstep hfind
    have hfound := s.launchEnded_find port fe.toNat id m
    have hnone : (m.endsAt (16 * port + fe.toNat) ((s.cp port).fe fe.toNat).wg).foreign = [] := by simp [Cmd.endsAt, hforeign]
    have hzero : (m.endsAt (16 * port + fe.toNat) ((s.cp port).fe fe.toNat).wg).code = 0 := hcode
    rw [State.checkCmdDone_done hfound hdesc hlive hpacket hlaunches hnone hall.ge, hzero] at hexec
    have honly := (s.launchEnded port fe.toNat id m).completeCmd_onlyCmds id 0
    refine ⟨_, hexec, ?_, ?_, State.completeCmd_launch hfound hop 0, (congrArg State.mem honly.frame :),
      (congrArg State.units honly.frame :)⟩
    · exact Eq.trans (congrArg (fun z : State => (z.fe_ (16 * port + fe.toNat)).state) honly.frame)
        (congrArg Fe.state (s.launchEnded_fe hfe id m))
    · rw [State.completeCmd_cmds, tfind_tdel]
  case readDataSend =>
    intro s port tag h hup hstate hheld htag hready htxq hlines hhdr hdata
    have hexec := exec_readDataSend hup hstate htxq hheld htag hready (Nat.lt_trans hlines (by decide))
      (CpCredits.spend_response hhdr hdata)
    refine ⟨_, hexec, by rw [State.cp_portIs], ?_, s.portIs_frame port _ _⟩
    rw [← htag]
    rfl
  case invalAck =>
    intro s port id tag b hup hstate hspend hinvals htxq
    have hexec := exec_cppInvalAck hup hstate htxq hspend hinvals
    refine ⟨_, hexec, ?_, ?_, ?_, s.portIs_frame port _ _⟩
    · rw [State.cp_portIs]
    · rw [State.cp_portIs]
    · rw [State.cp_portIs]
      exact hstate
  case quiesceAck =>
    intro s port fe tag b hup hstate hspend hfe hquiescing htag hcmd hstep hheld htxq
    rw [s.fe_eq hfe] at hquiescing htag hcmd hstep
    obtain ⟨y, f, hone, hnone, hy, hexec⟩ := exec_cppQuiesceAck hup hstate htxq hheld hspend hfe hquiescing htag hcmd hstep
    refine ⟨_, hexec, ?_, ?_, ?_, s.portIs_frame port _ _⟩
    · rw [s.portIs_fe port _ _ hfe, CpPort.fe_setFe, hone]
    · rw [s.portIs_fe port _ _ hfe, CpPort.fe_setFe, hnone]
    · rw [State.cp_portIs]
      exact hy
  case resetAck => exact fun s port tag hup hstate htag hidle => exec_cppResetAck hup hstate htag hidle

end Sys2Proof.Machine
end

section
/-! Fabric ports (chapter 12), continued: training and calibration (R565 to R571, R600). -/

namespace Sys2Proof.Machine

/-! ### Events of one state of the training -/

section
variable {s : State} {p : Nat} (hport : p < s.build.fabricPorts)
include hport

theorem State.hasPort_of_lt : s.hasPort p = true := decide_eq_true hport

theorem State.inState_at {st : FpState} (h : (s.fp p).state = st) (act : FpPort → State) : s.inState p st act = act (s.fp p) :=
  if_pos (by rw [State.hasPort_of_lt hport, h]; cases st <;> rfl)

/-- An event of a state of the training, in that state. -/
theorem State.work_inState (hup : s.up = true) {st : FpState} (h : (s.fp p).state = st) (act : FpPort → State) :
    s.work (s.inState p st act) = act (s.fp p) :=
  (State.work_of_up hup _).trans (State.inState_at hport h act)

end

/-- The width that the common lanes allow (R567). -/
theorem widthOf_eq {n w : Nat} (h : w = 8 ∧ n = 8 ∨ w = 6 ∧ 6 ≤ n ∧ n < 8 ∨ w = 4 ∧ 4 ≤ n ∧ n < 6) : widthOf n = w ∧ 4 ≤ n := by
  unfold widthOf
  split
  · omega
  · split
    · omega
    · split <;> omega

section
variable {s : State} {p : Nat} (hup : s.up = true) (hport : p < s.build.fabricPorts)
include hup hport

theorem exec_laneDetect {lanes : BitVec 8} (hstate : (s.fp p).state = .detect)
    (hlanes : 4 ≤ (laneList (s.goodLanes p lanes)).length) :
    exec (.laneDetect p lanes) s = .next (s.setFp p { s.fp p with state := .equalise }) :=
  congrArg Host.Outcome.next ((State.work_inState hport hup hstate _).trans (if_pos hlanes))

theorem exec_equaliseStable {lanes : BitVec 8} (hstate : (s.fp p).state = .equalise)
    (hlanes : 4 ≤ (laneList (s.goodLanes p lanes)).length) : exec (.equaliseStable p lanes) s =
      .next (s.setFp p { s.fp p with state := .align, locked := (s.goodLanes p lanes).toNat }) :=
  congrArg Host.Outcome.next ((State.work_inState hport hup hstate _).trans (if_pos hlanes))

theorem exec_alignComplete {lanes : BitVec 8} {common : List Nat} {w : Nat} (hstate : (s.fp p).state = .align)
    (hcommon : laneList (BitVec.ofNat 8 (s.fp p).locked &&& lanes) = common)
    (hwidth : widthOf common.length = w ∧ 4 ≤ common.length) (hretrain : (s.fp p).retraining = true → w ≤ (s.fp p).width) :
    exec (.alignComplete p lanes) s =
      .next (s.setFp p { s.fp p with state := .ident, width := w, laneMask := bitsMask (common.take w) }) := by
  refine congrArg Host.Outcome.next ((State.work_inState hport hup hstate _).trans ?_)
  have hmin : (if (s.fp p).retraining then min w (s.fp p).width else w) = w := by
    split
    next h => exact Nat.min_eq_left (hretrain h)
    next => rfl
  simp only [hcommon, hwidth.1, hmin]
  exact if_neg (Nat.not_lt.mpr hwidth.2)

end

/-! ### IDENT (R569, R571, Table 12-3) -/

/-- What IDENT ends with once the hub has an ID. -/
def State.identEnds (s : State) (p : Nat) (x : FpPort) (h : BitVec 16) (peer : PeerIdent) : State :=
  if s.identCause p x h.toNat peer ≠ 0 then s.portDown p (s.identCause p x h.toNat peer)
  else s.setFp p { s.fp p with
    state := .calibrate, peerHub := h.toNat, peerPort := peer.port, peerRelease := peer.major % 256 * 256 + peer.minor % 256 }

section
variable {s : State} {p : Nat} {h : BitVec 16} {peer : PeerIdent}

theorem exec_identExchange (hup : s.up = true) (hport : p < s.build.fabricPorts) (hstate : (s.fp p).state = .ident)
    (hid : s.fab.idValid = true) (hpeer : peer.hub = some h) :
    exec (.identExchange p peer) s = .next (s.identEnds p (s.fp p) h peer) := by
  refine congrArg Host.Outcome.next ((State.work_inState hport hup hstate _).trans ?_)
  simp only [hpeer, hid, if_true]
  rfl

theorem exec_identExchange_takesId {id : Nat} (hup : s.up = true) (hport : p < s.build.fabricPorts)
    (hstate : (s.fp p).state = .ident) (hid : s.fab.idValid = false) (hpeer : peer.hub = some h)
    (hmajor : peer.major = blockRelease / 256) (hclass : peer.sizeClass = s.build.sizeClass)
    (hself : wiredPeer s.build.fabricPorts h.toNat peer.port = some (id, p)) :
    exec (.identExchange p peer) s = .next ((s.takeId id).identEnds p (s.fp p) h peer) := by
  have hwired : wiredSelf s.build.fabricPorts h.toNat peer.port p = some id := by
    simp only [wiredSelf, hself, if_true]
  refine congrArg Host.Outcome.next ((State.work_inState hport hup hstate _).trans ?_)
  simp only [hpeer, hid, Bool.false_eq_true, if_false, hwired, if_pos (And.intro hmajor hclass)]
  rfl

/-- All checks of IDENT pass. -/
theorem State.identEnds_passes {x : FpPort} (hmajor : peer.major = blockRelease / 256) (hclass : peer.sizeClass = s.build.sizeClass)
    (hgroup : s.build.fabricPorts = 8 → hubX h.toNat = 0 ∧ hubY h.toNat = 0)
    (hwired : wiredPeer s.build.fabricPorts s.fab.hubId p = some (h.toNat, peer.port)) (hretrain : x.retraining = false) :
    s.identEnds p x h peer = s.setFp p { s.fp p with
      state := .calibrate, peerHub := h.toNat, peerPort := peer.port,
      peerRelease := peer.major % 256 * 256 + peer.minor % 256 } := by
  have hsmall : ¬(s.build.fabricPorts = 8 ∧ (hubX h.toNat ≠ 0 ∨ hubY h.toNat ≠ 0)) := by
    rintro ⟨h8, hne⟩
    exact hne.elim (absurd (hgroup h8).1) (absurd (hgroup h8).2)
  have hzero : s.identCause p x h.toNat peer = 0 := by
    simp only [State.identCause, hmajor, hclass, hwired, hretrain, ne_eq, not_true_eq_false, if_false, Bool.false_eq_true,
      false_and]
    exact if_neg hsmall
  exact if_neg (not_not.mpr hzero)

theorem State.identEnds_sizeClass (x : FpPort) (hmajor : peer.major = blockRelease / 256)
    (hclass : peer.sizeClass ≠ s.build.sizeClass) : s.identEnds p x h peer = s.portDown p 7 := by
  have hseven : s.identCause p x h.toNat peer = 7 := (if_neg (not_not.mpr hmajor)).trans (if_pos hclass)
  rw [State.identEnds, hseven]
  rfl

theorem State.identEnds_wiring (x : FpPort) (hmajor : peer.major = blockRelease / 256)
    (hclass : peer.sizeClass = s.build.sizeClass) (hports : s.build.fabricPorts ≠ 8)
    (hwired : wiredPeer s.build.fabricPorts s.fab.hubId p ≠ some (h.toNat, peer.port)) :
    s.identEnds p x h peer = s.portDown p 5 := by
  have hfive : s.identCause p x h.toNat peer = 5 := (if_neg (not_not.mpr hmajor)).trans ((if_neg (not_not.mpr hclass)).trans
    ((if_neg fun h => hports h.1).trans (if_pos hwired)))
  rw [State.identEnds, hfive]
  rfl

theorem State.partChanged_engines (s : State) (q reason : Nat) : (s.partChanged q reason).engines = s.engines := by
  unfold State.partChanged
  extract_lets x t
  exact keeps_foldl (P := fun u : State => u.engines = s.engines)
    (fun u v hu => ((congrArg State.engines (State.raise_onlyEndpoint _ (.vf v) 1) :).trans hu)) rfl

theorem State.statementsChange_engines (s : State) : s.statementsChange.engines = s.engines :=
  keeps_foldl (P := fun u : State => u.engines = s.engines) (fun u e hu => (u.partChanged_engines e.1 e.2.reason).trans hu) rfl

end

theorem State.takeId_engines (s : State) (id : Nat) : (s.takeId id).engines = s.engines := by
  unfold State.takeId
  split
  · rfl
  · exact State.statementsChange_engines _

theorem State.takeId_build (s : State) (id : Nat) : (s.takeId id).build = s.build := by
  unfold State.takeId
  split
  · rfl
  · exact (congrArg State.build (State.statementsChange_onlyStatements _) :)

/-! ### The Floor Plan Table follows a port (R570) -/

theorem State.fptChange_frame (s : State) (u : UnitId) (f : FptEntry → FptEntry) : ∃ fpt generation,
    s.fptChange u f = { s with boot := { s.boot with fpt := fpt, generation := generation } } := by
  simp only [State.fptChange]
  split
  · exact ⟨s.boot.fpt, s.boot.generation, rfl⟩
  · exact ⟨_, _, rfl⟩

/-- With no partition no statement changes. -/
theorem State.fptPort_noParts {s : State} (hparts : s.units.parts = []) (p : Nat) : ∃ fpt generation,
    s.fptPort p = { s with boot := { s.boot with fpt := fpt, generation := generation } } := by
  unfold State.fptPort
  extract_lets x seen detail t
  obtain ⟨fpt, generation, ht⟩ : ∃ fpt generation, t = { s with boot := { s.boot with fpt := fpt, generation := generation } } :=
    s.fptChange_frame _ _
  refine ⟨fpt, generation, ?_⟩
  have hnone : t.units.parts = [] := by rw [ht]; exact hparts
  rw [hnone, List.filter_nil, List.foldl_nil, ite_self, ht]

/-- A hub that is in no fabric has no routes to write anew. -/
theorem State.reroute_alone {s : State} (hroute : s.fab.route = []) (hparked : s.fab.parked = []) (hout : s.fab.out = []) :
    s.reroute = s := by
  have hnone : s.rerouted = s.fab.route := by
    unfold State.rerouted
    split
    · rw [hroute]
      rfl
    · rfl
  rw [State.reroute_idle hparked hout, hnone]

/-! ### The ends of a training (R570, R580, R600) -/

/-- A port in DOWN: what it had not sent by routes of its own is kept, and its replay buffer is empty. -/
def FpPort.downed (x : FpPort) (cause : Nat) : FpPort :=
  { x with state := .down, cause := cause, retraining := false, laneMask := 0, locked := 0, width := 0, admitted := false,
           refused := false, buffer := [], txQueue := x.txQueue.filter (fun m => !m.sourceRouted && msgVc m != 3),
           discarded := bump x.discarded (x.txQueue.filter (·.sourceRouted)).length }

theorem FpPort.downed_quiet {x : FpPort} (cause : Nat) (hretrain : x.retraining = false) (hbuffer : x.buffer = [])
    (hqueue : x.txQueue = []) : x.downed cause = { x with
      state := .down, cause := cause, laneMask := 0, locked := 0, width := 0, admitted := false, refused := false,
      discarded := bump x.discarded 0 } := by
  cases x
  subst hretrain hbuffer hqueue
  rfl

/-- A port that was not ACTIVE, with nothing sent, goes to DOWN. -/
theorem State.portDown_quiet {s : State} {p : Nat} (cause : Nat) (hdown : (s.fp p).state ≠ .down) (hactive : (s.fp p).state ≠ .active)
    (hretrain : (s.fp p).retraining = false) (hbuffer : (s.fp p).buffer = []) (hqueue : (s.fp p).txQueue = [])
    (hparts : s.units.parts = []) (hroute : s.fab.route = []) (hparked : s.fab.parked = []) (hout : s.fab.out = []) :
    ∃ boot, s.portDown p cause = { s.setFp p ((s.fp p).downed cause) with boot := boot } := by
  obtain ⟨fpt, generation, hfpt⟩ := State.fptPort_noParts (s := s.setFp p ((s.fp p).downed cause)) hparts p
  have hstep : s.portDown p cause = ((s.setFp p ((s.fp p).downed cause)).fptPort p).reroute := by
    simp only [State.portDown, hdown, hactive, hretrain, hbuffer, hqueue, List.filter_nil, List.flatMap_nil, List.append_nil,
      List.foldl_nil, if_false, Bool.false_eq_true, FpPort.downed]
  rw [hstep, hfpt]
  exact ⟨_, State.reroute_alone hroute hparked hout⟩

/-- A port that has been calibrated in a first training: all credits, fresh sequence numbers (R580, R600). -/
theorem State.calibrated_first {s : State} {p hop : Nat} (hretrain : (s.fp p).retraining = false) (hqueue : (s.fp p).txQueue = [])
    (hfw : s.fwRuns = false) (hparts : s.units.parts = []) :
    ∃ boot, s.calibrated p (s.fp p) hop = { s.setFp p { s.fp p with
      state := .active, hopNs := hop, txSeq := 0, rxSeq := 0, nakSent := false, buffer := [],
      credits := freshCredits s.build.fabricPorts p } with boot := boot } := by
  generalize hy : ({ s.fp p with
      state := .active, hopNs := hop, txSeq := 0, rxSeq := 0, nakSent := false, buffer := [],
      credits := freshCredits s.build.fabricPorts p } : FpPort) = y
  have hpump : y.pump = y := FpPort.pump_idle (by rw [← hy]; exact hqueue)
  obtain ⟨fpt, generation, hfpt⟩ := State.fptPort_noParts (s := s.setFp p y) hparts p
  have hstep : s.calibrated p (s.fp p) hop = (if ((s.setFp p y).fptPort p).fwRuns then ((s.setFp p y).fptPort p).sendManifest p
      else (s.setFp p y).fptPort p).reroute := by
    rw [← hpump, ← hy]
    simp only [State.calibrated, hretrain, Bool.false_eq_true, if_false]
  have hstill : ((s.setFp p y).fptPort p).fwRuns = false := by rw [hfpt]; exact hfw
  have hstays : ((s.setFp p y).fptPort p).reroute = (s.setFp p y).fptPort p := if_pos (by rw [hstill]; rfl)
  rw [hstep, if_neg (by rw [hstill]; decide), hstays, hfpt]
  exact ⟨_, rfl⟩

section
variable {s : State} {p : Nat} {trips : List (Nat × Nat)} (hup : s.up = true) (hport : p < s.build.fabricPorts)
  (hstate : (s.fp p).state = .calibrate) (hlen : trips.length = 64)
include hup hport hstate hlen

theorem exec_calibrateComplete : exec (.calibrateComplete p trips) s =
    .next (if 1000 < hopOf trips then s.portDown p 9 else s.calibrated p (s.fp p) (hopOf trips)) :=
  congrArg Host.Outcome.next ((State.work_inState hport hup hstate _).trans (if_neg (not_not.mpr hlen)))

end

/-- Settles O51, one event of the training at a time; what an event changes is the port itself and, at the end of a
training, its entry of the Floor Plan Table. -/
theorem fabricTraining : Obligations.FabricTraining := by
  unfold Obligations.FabricTraining
  refine ⟨?train, ?trainIgnored, ?enable, ?disable, ?detect, ?equalise, ?align, ?timeouts, ?ident, ?identTakesId, ?identRefused,
    ?identWaits, ?calibrateTooFar, ?calibrate, ?down⟩
  case train =>
    intro s p hdec hmay hdown
    refine congrArg Host.Outcome.next ((if_pos hdec).trans (if_pos ?_))
    rw [hmay, hdown]
    rfl
  case trainIgnored =>
    intro s p h
    have hnot : ¬(s.mayTrain p && (s.fp p).state == .down) = true := by
      rintro hboth
      obtain ⟨hmay, hdown⟩ := Bool.and_eq_true_iff.mp hboth
      rcases h with h | h
      · rw [h] at hmay
        cases hmay
      · exact h (LawfulBEq.eq_of_beq hdown)
    refine congrArg Host.Outcome.next ?_
    split
    · exact if_neg hnot
    · rfl
  case enable =>
    intro s p v hdec hport hbit
    refine congrArg Host.Outcome.next ((if_pos (by rw [hdec, State.hasPort_of_lt hport]; rfl)).trans ?_)
    simp only [hbit]
    rfl
  case disable =>
    intro s p v hdec hport hbit
    refine congrArg Host.Outcome.next ((if_pos (by rw [hdec, State.hasPort_of_lt hport]; rfl)).trans ?_)
    simp only [hbit]
    rfl
  case detect => exact fun s p lanes hup hport hstate hlanes => exec_laneDetect hup hport hstate hlanes
  case equalise => exact fun s p lanes hup hport hstate hlanes => exec_equaliseStable hup hport hstate hlanes
  case align =>
    intro s p n w lanes common hup hport hstate hcommon hn hw hretrain
    subst hn
    exact exec_alignComplete hup hport hstate hcommon (widthOf_eq hw) hretrain
  case timeouts =>
    intro s p hup hport
    refine ⟨fun h => ?_, fun h => ?_, fun h => ?_, fun h => ?_, fun h => ?_⟩
    · exact congrArg Host.Outcome.next (State.work_inState hport hup h _)
    · exact congrArg Host.Outcome.next (State.work_inState hport hup h _)
    · exact congrArg Host.Outcome.next (State.work_inState hport hup h _)
    · exact congrArg Host.Outcome.next (State.work_inState hport hup h _)
    · refine congrArg Host.Outcome.next ((State.work_of_up hup _).trans (if_pos ?_))
      rw [State.hasPort_of_lt hport, Bool.true_and]
      exact bne_iff_ne.mpr h
  case ident =>
    intro s p h peer hup hport hstate hid hpeer hmajor hclass hgroup hwired hretrain
    rw [exec_identExchange hup hport hstate hid hpeer, State.identEnds_passes hmajor hclass hgroup hwired hretrain]
  case identTakesId =>
    intro s p id h peer hup hport hstate hid hpeer hmajor hclass hgroup hself hwired hretrain
    obtain ⟨hvalid, hhub, -, hmem, hctxs, hfps⟩ := s.takeId_spec id
    have hbuild := s.takeId_build id
    have hfp : (s.takeId id).fp p = s.fp p := by rw [State.fp, hfps]; rfl
    have hends := State.identEnds_passes (s := s.takeId id) (p := p) (h := h) (peer := peer) (x := s.fp p) hmajor
      (by rw [hbuild]; exact hclass) (by rw [hbuild]; exact hgroup) (by rw [hbuild, hhub]; exact hwired) hretrain
    rw [exec_identExchange_takesId hup hport hstate hid hpeer hmajor hclass hself, hends, hfp]
    refine ⟨_, rfl, hvalid, hhub, ?_, ?_, ?_, hmem, hctxs, s.takeId_engines id⟩
    all_goals rw [State.fp_setFp]
  case identRefused =>
    intro s p h peer hup hport hstate hid hpeer hmajor
    refine ⟨fun hclass => ?_, fun hclass hports hwired => ?_⟩
    · rw [exec_identExchange hup hport hstate hid hpeer, State.identEnds_sizeClass _ hmajor hclass]
    · rw [exec_identExchange hup hport hstate hid hpeer, State.identEnds_wiring _ hmajor hclass hports hwired]
  case identWaits =>
    intro s p peer hup hport hstate hpeer
    refine congrArg Host.Outcome.next ((State.work_inState hport hup hstate _).trans ?_)
    simp only [hpeer]
  case calibrateTooFar =>
    intro s p trips hup hport hstate hlen hfar
    rw [exec_calibrateComplete hup hport hstate hlen, if_pos hfar]
  case calibrate =>
    intro s p trips hup hport hstate hlen hnear hretrain hqueue hfw hparts
    obtain ⟨boot, hboot⟩ := State.calibrated_first (hop := hopOf trips) hretrain hqueue hfw hparts
    rw [exec_calibrateComplete hup hport hstate hlen, if_neg (Nat.not_lt.mpr hnear), hboot]
    exact ⟨_, rfl, s.fp_setFp p _, fun q hq => s.fp_setFp_ne _ hq, rfl⟩
  case down =>
    intro s p cause hdown hactive hretrain hbuffer hqueue hparts hroute hparked hout
    obtain ⟨boot, hboot⟩ := State.portDown_quiet cause hdown hactive hretrain hbuffer hqueue hparts hroute hparked hout
    rw [FpPort.downed_quiet cause hretrain hbuffer hqueue] at hboot
    exact ⟨_, hboot, s.fp_setFp p _, fun q hq => s.fp_setFp_ne _ hq, rfl⟩

end Sys2Proof.Machine
end

section
/-! Fabric ports (chapter 12), continued: the link layer (R568, R570, R575 to R580, R588). -/

namespace Sys2Proof.Machine

theorem linkSrc_eq (p : Nat) : linkSrc p = 0x408 + 16 * p := by
  unfold linkSrc
  omega

theorem transportSrc_eq (p : Nat) : transportSrc p = 0x409 + 16 * p := by
  unfold transportSrc
  omega

theorem State.work_same (s : State) : s.work s = s := ite_self s

/-! ### RETRAIN (R568, R570) -/

/-- A port in RETRAIN. -/
def FpPort.retrained (x : FpPort) (cause : Nat) : FpPort :=
  { x with state := .equalise, retraining := true, cause := cause, retrains := min (x.retrains + 1) 255, locked := 0 }

/-- With no partition to roll back, the peer is told, the failure is reported, and the table follows. -/
theorem State.portRetrain_noParts {s : State} {p cause : Nat} (hactive : (s.fp p).state = .active) (hparts : s.units.parts = [])
    (hcause : cause ≠ 14) : ∃ boot, s.portRetrain p cause =
      { State.sageFail { s.setFp p ((s.fp p).retrained cause) with out := s.out ++ [.linkNote p 1] } (linkSrc p) 6 with
        boot := boot } := by
  generalize hu : State.sageFail { s.setFp p ((s.fp p).retrained cause) with out := s.out ++ [.linkNote p 1] } (linkSrc p) 6 = u
  have hnone : u.units.parts = [] := by rw [← hu]; exact hparts
  have htriggers : u.portTriggers p = u := by rw [State.portTriggers, hnone, List.foldl_nil]
  have hleft : (s.setFp p ((s.fp p).retrained cause)).leftActive p 1 cause = u := by
    simp only [State.leftActive, if_neg hcause]
    exact (congrArg (State.portTriggers · p) hu).trans htriggers
  obtain ⟨fpt, generation, hfpt⟩ := State.fptPort_noParts hnone p
  refine ⟨_, (if_neg (not_not.mpr hactive)).trans (Eq.trans ?_ hfpt)⟩
  exact congrArg (State.fptPort · p) hleft

/-! ### Flits (R575, R576) -/

theorem State.flit_corrected (s : State) (p n : Nat) (x : FpPort) (f : Flit) :
    s.flit p x { f with corrected := n } = s.flit p x f := rfl

section
variable {s : State} {p : Nat} {f : Flit} (hup : s.up = true) (hport : p < s.build.fabricPorts)
  (hactive : (s.fp p).state = .active)
include hup hport hactive

theorem exec_flitReceive (hcorrected : f.corrected = 0) : exec (.flitReceive p f) s = .next (s.flit p (s.fp p) f) :=
  congrArg Host.Outcome.next ((State.work_inState hport hup hactive _).trans (if_pos hcorrected))

/-- The symbols that the FEC has corrected are counted, and the flit is then one without any. -/
theorem exec_flitReceive_corrected (hcorrected : f.corrected ≠ 0) :
    exec (.flitReceive p f) s = exec (.flitReceive p { f with corrected := 0 })
      (s.setFp p { s.fp p with fecCorrected := bump (s.fp p).fecCorrected f.corrected }) := by
  generalize hx : ({ s.fp p with fecCorrected := bump (s.fp p).fecCorrected f.corrected } : FpPort) = x
  have hstate : ((s.setFp p x).fp p).state = .active := by rw [State.fp_setFp, ← hx]; exact hactive
  refine (congrArg Host.Outcome.next ((State.work_inState hport hup hactive _).trans (if_neg hcorrected))).trans
    (Eq.symm ((exec_flitReceive (s := s.setFp p x) (f := { f with corrected := 0 }) hup hport hstate rfl).trans ?_))
  rw [State.flit_corrected, State.fp_setFp, ← hx]

end

/-- The link fields of a flit that acknowledges and brings no credits. -/
theorem State.flitLink_acks {s : State} {p : Nat} {f : Flit} (hnak : f.nak = false) (hcred : f.credLines = 0)
    (hcred2 : f.cred2Lines = 0) (hqueue : (s.fp p).txQueue = []) :
    s.flitLink p f = s.setFp p (if f.ackValid then (s.fp p).acked f.ackSeq.toNat else s.fp p) := by
  have hidle : (if f.ackValid then (s.fp p).acked f.ackSeq.toNat else s.fp p).pump =
      if f.ackValid then (s.fp p).acked f.ackSeq.toNat else s.fp p := by
    refine FpPort.pump_idle ?_
    split
    · exact hqueue
    · exact hqueue
  simp only [State.flitLink, hnak, hcred, hcred2, if_true, Bool.false_eq_true, if_false, hidle]

/-- A good message for this hub is kept for it. -/
theorem State.msgArrives_mine {s : State} {p : Nat} {m : OfpMsg} (htype : m.type ≠ 0) (hknown : m.type.toNat ≤ 0x0B)
    (hlines : m.lines.toNat ≤ 64) (hvc : msgVc m ≠ 3) (hroute : m.sourceRouted = false) (hrefused : (s.fp p).refused = false)
    (hfw : s.fwRuns = true) (hdst : m.dstHub.toNat = s.myHub) :
    s.msgArrives p m = { s with fab := { s.fab with inbox := s.fab.inbox ++ [(p, m)] } } := by
  have hgood : ¬(m.type = 0 ∨ 0x0B < m.type.toNat ∨ 64 < m.lines.toNat) := by
    rintro (h | h | h)
    · exact htype h
    · omega
    · omega
  have hcarries : s.carries p m = true := by rw [State.carries, hrefused, hfw]; simp
  have hhere : s.nextHop m = none := if_pos hdst
  simp only [State.msgArrives, if_neg hgood, hcarries, hvc, hroute, hhere]
  rfl

/-! ### Replay (R578, R579) -/

/-- The port that has sent its replay buffer again. -/
def FpPort.replayed (x : FpPort) : FpPort :=
  { x with buffer := x.buffer.map fun f => { f with sent := f.sent + 1 }, replays := bump x.replays x.buffer.length }

theorem State.resend_eq {s : State} {p : Nat} (hbuffer : (s.fp p).buffer ≠ []) (kind : Nat) :
    s.resend p kind = if (s.fp p).replayed.buffer.any fun f => 8 ≤ f.sent then
        ((s.setFp p (s.fp p).replayed).sageFail (linkSrc p) kind).portRetrain p 11
      else (s.setFp p (s.fp p).replayed).sageFail (linkSrc p) kind := by
  refine (if_neg hbuffer).trans ?_
  rw [List.length_map]
  rfl

theorem exec_replayTimeout {s : State} {p : Nat} (hup : s.up = true) (hport : p < s.build.fabricPorts)
    (hactive : (s.fp p).state = .active) : exec (.replayTimeout p) s = .next (s.resend p 5) :=
  congrArg Host.Outcome.next (State.work_inState hport hup hactive _)

/-- Settles O53: a flit acts through its link fields and its messages, and a port leaves ACTIVE by one note, one report and
its entry of the Floor Plan Table. -/
theorem fabricLinkLayer : Obligations.FabricLinkLayer := by
  unfold Obligations.FabricLinkLayer
  refine ⟨?laneLoss, ?laneUnused, ?retrain, ?fecErrors, ?corrected, ?notAccepted, ?badIdle, ?idle, ?accepted, ?replay,
    ?replayEighth, ?undefined, ?linkNote⟩
  case laneLoss =>
    intro s p lane hup hport hlane
    exact congrArg Host.Outcome.next ((State.work_of_up hup _).trans
      (if_pos (by rw [State.hasPort_of_lt hport, hlane]; rfl)))
  case laneUnused =>
    intro s p lane hlane
    have hnot : ¬(s.hasPort p && bit (s.fp p).laneMask lane) = true := by simp [hlane]
    exact congrArg Host.Outcome.next ((congrArg s.work (if_neg hnot)).trans s.work_same)
  case retrain =>
    intro s p cause hactive hparts hcause
    obtain ⟨boot, h⟩ := State.portRetrain_noParts hactive hparts hcause
    refine ⟨_, h, s.fp_setFp p _, rfl, ⟨_, rfl, ?_, rfl⟩, fun q hq => s.fp_setFp_ne _ hq, rfl, rfl, rfl, rfl⟩
    rw [← linkSrc_eq]
  case fecErrors =>
    intro s p hup hport hactive
    refine ⟨max 17 s.free.1.toNat, Nat.le_max_left .., ?_⟩
    exact congrArg Host.Outcome.next (State.work_inState hport hup hactive _)
  case corrected => exact fun s p f hup hport hactive hne => exec_flitReceive_corrected hup hport hactive hne
  case notAccepted =>
    intro s p f hup hport hactive hzero hlines
    rw [exec_flitReceive hup hport hactive hzero]
    refine ⟨fun hcrc => ?_, fun hcrc hseq => ?_⟩
    · exact congrArg Host.Outcome.next ((if_neg hlines).trans (if_pos (by rw [hcrc]; rfl)))
    · exact congrArg Host.Outcome.next ((if_neg hlines).trans ((if_neg (by rw [hcrc]; decide)).trans (if_pos hseq)))
  case badIdle =>
    intro s p f hzero hlines hcrc
    have hflit : s.flit p (s.fp p) f = s := (if_pos hlines).trans (if_neg (by rw [hcrc]; decide))
    refine congrArg Host.Outcome.next (Eq.trans (congrArg s.work ?_) s.work_same)
    unfold State.inState
    split
    · exact hflit
    · rfl
  case idle =>
    intro s p f hup hport hactive hzero hlines hcrc hnak hack hcred hcred2 hqueue
    rw [exec_flitReceive hup hport hactive hzero]
    refine congrArg Host.Outcome.next ((if_pos hlines).trans ((if_pos hcrc).trans ?_))
    rw [State.flitLink_acks hnak hcred hcred2 hqueue, hack]
    rfl
  case accepted =>
    intro s p f m hup hport hactive hzero hlines hcrc hseq hnak hack hcred hcred2 hqueue hmsgs htype hknown hlines64 hvc hroute
      hrefused hfw hdst
    rw [exec_flitReceive hup hport hactive hzero]
    refine congrArg Host.Outcome.next ((if_neg hlines).trans ((if_neg (by rw [hcrc]; decide)).trans
      ((if_neg (not_not.mpr hseq)).trans ?_)))
    generalize hx : ({ s.fp p with
      rxSeq := ((s.fp p).rxSeq + 1) % 4096, nakSent := false, rxFlits := bump (s.fp p).rxFlits 1 } : FpPort) = x
    have hlink : (s.setFp p x).flitLink p f = s.setFp p x := by
      rw [State.flitLink_acks hnak hcred hcred2 (by rw [State.fp_setFp, ← hx]; exact hqueue), hack, State.fp_setFp]
      exact s.setFp_setFp p x x
    rw [hmsgs, List.foldl_cons, List.foldl_nil, hlink]
    exact State.msgArrives_mine htype hknown hlines64 hvc hroute (by rw [State.fp_setFp, ← hx]; exact hrefused) hfw hdst
  case replay =>
    intro s p hup hport hactive hbuffer hfew
    have hnone : ¬((s.fp p).replayed.buffer.any fun f => 8 ≤ f.sent) = true := by
      simp only [FpPort.replayed, List.any_map, List.any_eq_true, not_exists, not_and, Function.comp, decide_eq_true_eq]
      intro f hf
      have := hfew f hf
      omega
    rw [exec_replayTimeout hup hport hactive, State.resend_eq hbuffer, if_neg hnone, linkSrc_eq]
    rfl
  case replayEighth =>
    intro s p hup hport hactive hseven
    obtain ⟨f, hf, hsent⟩ := hseven
    have hany : ((s.fp p).replayed.buffer.any fun f => 8 ≤ f.sent) = true := by
      simp only [FpPort.replayed, List.any_map, List.any_eq_true, Function.comp, decide_eq_true_eq]
      exact ⟨f, hf, by omega⟩
    rw [exec_replayTimeout hup hport hactive, State.resend_eq (List.ne_nil_of_mem hf), if_pos hany, linkSrc_eq]
    rfl
  case undefined =>
    intro s p hup hport
    refine congrArg Host.Outcome.next ((State.work_of_up hup _).trans ((if_pos (State.hasPort_of_lt hport)).trans ?_))
    rw [State.badMsg, transportSrc_eq]
  case linkNote =>
    intro s p m hup hport htype
    have hgood : ¬(!s.hasPort p || decide (m.type ≠ 0x0B)) = true := by rw [State.hasPort_of_lt hport, htype]; decide
    refine ⟨fun hcode => ?_, fun hcode hactive => ?_⟩
    · exact congrArg Host.Outcome.next ((State.work_of_up hup _).trans ((if_neg hgood).trans (if_pos hcode)))
    · refine congrArg Host.Outcome.next ((State.work_of_up hup _).trans ((if_neg hgood).trans
        ((if_neg (by omega)).trans (if_pos ⟨hcode, ?_⟩))))
      have hlinked : (s.fp p).linked = true := by rw [FpPort.linked, hactive]; rfl
      exact hlinked

end Sys2Proof.Machine
end

section
/-! Thyme (chapter 13) over the fabric: its messages, the correction, roots and parents (R614 to R620, R622 to R624). -/

namespace Sys2Proof.Machine

/-! ### What a change of Thyme changes -/

@[simp] theorem State.setThyme_thyme (s : State) (t : Thyme) : (s.setThyme t).thyme = t := by
  simp only [State.setThyme]
  split
  · rfl
  · exact (congrArg State.thyme (State.statementsChange_onlyStatements _) :)

/-- The statements name the state and the root of Thyme, and nothing else of it. -/
theorem State.setThyme_same {s : State} {t : Thyme} (hstate : s.thyme.state = t.state) (hroot : s.thyme.root = t.root) :
    s.setThyme t = { s with thyme := t } := if_pos ⟨hstate, hroot⟩

theorem State.setThyme_onlyStatements (s : State) (t : Thyme) : State.OnlyStatements { s with thyme := t } (s.setThyme t) := by
  simp only [State.setThyme]
  split
  · rfl
  · exact State.statementsChange_onlyStatements _

/-! ### The root that a message names (R615, R617) -/

/-- A THYME message: the root, its generation, the depth and the error of the sender, and the lead of the parent, doubled
(Table 13-1, R619). -/
def thymeRootOf (m : OfpMsg) : Nat := fld m.f28.toNat 63 48
def thymeGenOf (m : OfpMsg) : Nat := fld m.f28.toNat 47 40
def thymeDepthOf (m : OfpMsg) : Nat := fld m.f28.toNat 39 37
def thymeErrorOf (m : OfpMsg) : Nat := fld m.f28.toNat 31 16
def thymeLead2 (m : OfpMsg) (t4 : Nat) : Int := ((m.f20.toNat : Int) - m.f18.toNat) - ((t4 : Int) - m.f10.toNat)

section
variable {s : State} {p root gen depth : Nat} (hen : s.thyme.rootEn = false) (hown : s.fab.idValid = true → s.fab.hubId ≠ root)
  (hdepth : depth ≤ 4)
include hen hown hdepth

/-- A root that is not this hub, near enough, is followed. -/
theorem State.thymeRoot_follows (h : s.thyme.state = 0 ∨ root < s.thyme.root ∨
    (root = s.thyme.root ∧ (s.thyme.parent = 31 ∨ s.thyme.parent = p))) :
    s.thymeRoot p root gen depth = s.thyme.follow root gen (depth + 1) p := by
  have hnot : ¬((s.fab.idValid && (root == s.fab.hubId || (s.thyme.rootEn && decide (s.fab.hubId < root)))) || decide (4 < depth)) =
      true := by
    rw [hen, decide_eq_false (Nat.not_lt.mpr hdepth)]
    cases hid : s.fab.idValid with
    | false => simp
    | true => simpa using fun h => hown hid h.symm
  exact (if_neg hnot).trans (if_pos h)

end

/-- A follower that hears its own parent of the root it follows learns the generation and the depth. -/
theorem Thyme.follow_parent {t : Thyme} (gen depth : Nat) (hstate : t.state ≠ 0) :
    t.follow t.root gen depth t.parent = { t with generation := gen, depth := depth } := by
  simp [Thyme.follow, hstate]

/-- A hub in LOCAL begins to acquire. -/
theorem Thyme.follow_local {t : Thyme} (root gen depth parent : Nat) (hstate : t.state = 0) :
    t.follow root gen depth parent = { t with
      root := root, generation := gen, depth := depth, parent := parent, state := 2, stepped := false } := by
  simp [Thyme.follow, hstate]

/-- The parent of a follower names the root that is followed. -/
theorem State.thymeRoot_parent {s : State} {p : Nat} {m : OfpMsg} (hen : s.thyme.rootEn = false) (hparent : s.thyme.parent = p)
    (hnames : thymeRootOf m = s.thyme.root) (hown : s.fab.idValid = true → s.fab.hubId ≠ s.thyme.root)
    (hdepth : thymeDepthOf m ≤ 4) (hstate : s.thyme.state ≠ 0) :
    s.thymeRoot p (thymeRootOf m) (thymeGenOf m) (thymeDepthOf m) =
      { s.thyme with generation := thymeGenOf m, depth := thymeDepthOf m + 1 } := by
  subst hparent
  rw [hnames, State.thymeRoot_follows hen hown hdepth (.inr (.inr ⟨rfl, .inr rfl⟩))]
  exact Thyme.follow_parent _ _ hstate

/-! ### The correction (R619, R620, R622, R623) -/

theorem Thyme.correct_small {t : Thyme} {lead2 : Int} (parentError : Nat) (hstate : t.state = 1) (hsmall : lead2.natAbs ≤ 2000) :
    t.correct lead2 parentError = { t with
      theta := BitVec.ofInt 32 (lead2 / 2), slew := lead2 / 2, rootChanged := false,
      errorNs := min (parentError + 5 + (lead2.natAbs + 1) / 2) 65535 } := by
  have hbig : ¬1000 < halfUp lead2 := by
    unfold halfUp
    omega
  simp [Thyme.correct, hbig, hstate]
  rfl

/-- In ACQUIRING a lead above 1,000 ns is stepped over. -/
theorem Thyme.correct_step {t : Thyme} {lead2 : Int} (parentError : Nat) (hstate : t.state = 2) (hstepped : t.stepped = false)
    (hlead : 2002 ≤ lead2) : t.correct lead2 parentError = { t with
      theta := BitVec.ofInt 32 (lead2 / 2), now := (t.now + (lead2 / 2).toNat) % 2 ^ 64, stepped := true, slew := 0,
      errorNs := min (parentError + 5) 65535 } := by
  have hbig : 1000 < halfUp lead2 := by
    unfold halfUp
    omega
  have hover : 1000 < lead2 / 2 := by omega
  simp [Thyme.correct, hbig, hstate, hstepped, hover]

/-! ### A message of Thyme -/

section
variable {s : State} {p : Nat} {m : OfpMsg} {t4 : BitVec 64} (hup : s.up = true) (hport : p < s.build.fabricPorts)
  (hactive : (s.fp p).state = .active) (htype : m.type = 9)
include hup hport hactive htype

theorem exec_thymeMsg : exec (.thymeMsg p m t4) s = .next ((s.takeInbox p m).thymeIn p m t4.toNat) :=
  congrArg Host.Outcome.next ((State.work_inState hport hup hactive _).trans (if_neg (not_not.mpr htype)))

end

/-- The state in which the times of a message have been noted. -/
def State.timesNoted (s : State) (p : Nat) (m : OfpMsg) (t4 : Nat) : State :=
  s.setFp p { s.fp p with lastSend := m.f10.toNat, lastRecv := t4 }

section
variable {s : State} {p t4 : Nat} {m : OfpMsg}

/-- A message of the parent of a follower, which names the root that is followed: Thyme is corrected. -/
theorem State.thymeIn_parent {t : Thyme} (hroot : s.thymeRoot p (thymeRootOf m) (thymeGenOf m) (thymeDepthOf m) = t)
    (hsame : t.state = s.thyme.state ∧ t.root = s.thyme.root) (hstate : t.state ≠ 0) (hparent : t.parent = p)
    (hnames : t.root = thymeRootOf m) (htimes : m.f20 ≠ 0) {u : Thyme} (hu : t.correct (thymeLead2 m t4) (thymeErrorOf m) = u)
    (hkept : u.state = s.thyme.state ∧ u.root = s.thyme.root) :
    s.thymeIn p m t4 = { s.timesNoted p m t4 with thyme := u } := by
  have hfollow : (s.timesNoted p m t4).setThyme ((s.timesNoted p m t4).thymeRoot p (thymeRootOf m) (thymeGenOf m) (thymeDepthOf m)) =
      { s.timesNoted p m t4 with thyme := t } := by
    have hroot' : (s.timesNoted p m t4).thymeRoot p (thymeRootOf m) (thymeGenOf m) (thymeDepthOf m) = t := hroot
    rw [hroot']
    exact State.setThyme_same hsame.1.symm hsame.2.symm
  have hgoes : ¬(t.state = 0 ∨ t.parent ≠ p ∨ t.root ≠ thymeRootOf m ∨ m.f20 = 0) := by
    rintro (h | h | h | h)
    · exact hstate h
    · exact h hparent
    · exact h hnames
    · exact htimes h
  have hcorrect : State.setThyme { s.timesNoted p m t4 with thyme := t } u = { s.timesNoted p m t4 with thyme := u } :=
    State.setThyme_same (hsame.1.trans hkept.1.symm) (hsame.2.trans hkept.2.symm)
  refine Eq.trans (b := (if t.state = 0 ∨ t.parent ≠ p ∨ t.root ≠ thymeRootOf m ∨ m.f20 = 0 then
      { s.timesNoted p m t4 with thyme := t }
    else if s.thyme.state = 1 ∧ (State.setThyme { s.timesNoted p m t4 with thyme := t } u).thyme.state = 2 then
      (State.setThyme { s.timesNoted p m t4 with thyme := t } u).thymeExpels
    else State.setThyme { s.timesNoted p m t4 with thyme := t } u)) ?_ ?_
  · subst hu
    exact congrArg (fun z : State => if z.thyme.state = 0 ∨ z.thyme.parent ≠ p ∨ z.thyme.root ≠ thymeRootOf m ∨ m.f20 = 0 then z
      else if s.thyme.state = 1 ∧ (z.setThyme (z.thyme.correct (thymeLead2 m t4) (thymeErrorOf m))).thyme.state = 2 then
        (z.setThyme (z.thyme.correct (thymeLead2 m t4) (thymeErrorOf m))).thymeExpels
      else z.setThyme (z.thyme.correct (thymeLead2 m t4) (thymeErrorOf m))) hfollow
  · rw [if_neg hgoes, hcorrect]
    refine if_neg ?_
    rintro ⟨hone, htwo⟩
    have : u.state = 2 := htwo
    omega

end

/-- A hub in LOCAL that hears of a root follows it, and measures nothing yet. -/
theorem State.thymeIn_local {s : State} {p t4 : Nat} {m : OfpMsg}
    (hroot : s.thymeRoot p (thymeRootOf m) (thymeGenOf m) (thymeDepthOf m) =
      s.thyme.follow (thymeRootOf m) (thymeGenOf m) (thymeDepthOf m + 1) p) (htimes : m.f20 = 0) :
    s.thymeIn p m t4 = (s.timesNoted p m t4).setThyme (s.thyme.follow (thymeRootOf m) (thymeGenOf m) (thymeDepthOf m + 1) p) := by
  have hroot' : (s.timesNoted p m t4).thymeRoot p (thymeRootOf m) (thymeGenOf m) (thymeDepthOf m) =
      s.thyme.follow (thymeRootOf m) (thymeGenOf m) (thymeDepthOf m + 1) p := hroot
  rw [← hroot']
  exact if_pos (.inr (.inr (.inr htimes)))

/-! ### The count (R614, R619, R623) -/

theorem Thyme.tick_lead {t : Thyme} (hlead : 0 < t.slew) (hphase : t.phase = 0) :
    t.tick.now = (t.now + 2) % 2 ^ 64 ∧ t.tick.slew = t.slew - 1 := by
  have hnot : ¬t.slew < -1000 := by omega
  have hne : t.slew ≠ 0 := by omega
  simp [Thyme.tick, hphase, hlead, hne, hnot]

theorem Thyme.tick_lag {t : Thyme} (hlag : t.slew < 0) (hphase : t.phase = 0) (hstate : t.state ≠ 2) :
    t.tick.now = t.now % 2 ^ 64 ∧ t.tick.slew = t.slew + 1 := by
  have hnot : ¬0 < t.slew := by omega
  have hne : t.slew ≠ 0 := by omega
  simp [Thyme.tick, hphase, hne, hstate, hnot]

theorem Thyme.tick_plain {t : Thyme} (hphase : t.phase ≠ 0) (hstate : t.state ≠ 2) :
    t.tick.now = (t.now + 1) % 2 ^ 64 ∧ t.tick.slew = t.slew := by
  simp [Thyme.tick, hphase, hstate]

/-- In ACQUIRING a great lag stops the count in every second nanosecond. -/
theorem Thyme.tick_half {t : Thyme} (hstate : t.state = 2) (hlag : t.slew < -1000) : t.tick = { t with
    now := if t.phase % 2 = 0 then t.now % 2 ^ 64 else (t.now + 1) % 2 ^ 64,
    slew := if t.phase % 2 = 0 then t.slew + 1 else t.slew, phase := (t.phase + 1) % 10000 } := by
  have hnot : ¬0 < t.slew := by omega
  by_cases heven : t.phase % 2 = 0
  · simp [Thyme.tick, hstate, hlag, heven, hnot]
  · simp [Thyme.tick, hstate, hlag, heven]

theorem Thyme.tick_tick_half {t : Thyme} (hstate : t.state = 2) (hlag : t.slew < -1001) (heven : t.phase % 2 = 0) :
    t.tick.tick.now = (t.now % 2 ^ 64 + 1) % 2 ^ 64 ∧ t.tick.tick.slew = t.slew + 1 := by
  have hfirst := Thyme.tick_half hstate (by omega : t.slew < -1000)
  rw [if_pos heven, if_pos heven] at hfirst
  have hsecond := Thyme.tick_half (t := t.tick) (by rw [hfirst]; exact hstate) (by
    rw [hfirst]
    show t.slew + 1 < -1000
    omega)
  have hodd : ¬t.tick.phase % 2 = 0 := by
    rw [hfirst]
    show ¬(t.phase + 1) % 10000 % 2 = 0
    omega
  rw [if_neg hodd, if_neg hodd] at hsecond
  rw [hsecond, hfirst]
  exact ⟨rfl, rfl⟩

/-! ### Sending (R618, Table 13-1) -/

/-- A loop over distinct numbers in which one alone acts. -/
theorem foldl_range_one {β : Type} {f : β → Nat → β} {b : β} {n p : Nat} (hp : p < n) (hbefore : ∀ q, q ≠ p → f b q = b)
    (hafter : ∀ q, q ≠ p → f (f b p) q = f b p) : (List.range n).foldl f b = f b p := by
  induction n with
  | zero => omega
  | succ n ih =>
    rw [List.range_succ, List.foldl_append, List.foldl_cons, List.foldl_nil]
    obtain hlt | rfl : p < n ∨ p = n := by omega
    · rw [ih hlt, hafter n (by omega)]
    · rw [foldl_fixed_of_mem fun q hq => hbefore q (by have := List.mem_range.mp hq; omega)]

theorem exec_thymeSendTick {s : State} {p : Nat} (hup : s.up = true) (hport : p < s.build.fabricPorts)
    (hactive : (s.fp p).state = .active) (hothers : ∀ q, q ≠ p → (s.fp q).state ≠ .active) :
    exec .thymeSendTick s = .next (s.portSend p (s.thymeMessage (s.fp p))) := by
  refine congrArg Host.Outcome.next ((State.work_of_up hup _).trans ((foldl_range_one hport ?_ ?_).trans (if_pos hactive)))
  · exact fun q hq => if_neg (hothers q hq)
  · intro q hq
    rw [if_pos hactive]
    exact if_neg (by rw [(s.portSend_onlyTx p q _).state]; exact hothers q hq)

/-- The fields of a THYME message can be read back. -/
theorem State.thymeMessage_fields {s : State} {x : FpPort} (hsend : x.lastSend < 2 ^ 64) (hrecv : x.lastRecv < 2 ^ 64)
    (hnow : s.thyme.now < 2 ^ 64) (hroot : s.thyme.root < 65536) (hgen : s.thyme.generation < 256) (hdepth : s.thyme.depth < 8)
    (herror : s.thyme.errorNs < 65536) (hstate : s.thyme.state < 4) :
    (s.thymeMessage x).type = 9 ∧ (s.thymeMessage x).f10.toNat = s.thyme.now ∧ (s.thymeMessage x).f18.toNat = x.lastSend ∧
    (s.thymeMessage x).f20.toNat = x.lastRecv ∧ fld (s.thymeMessage x).f28.toNat 63 48 = s.thyme.root ∧
    fld (s.thymeMessage x).f28.toNat 47 40 = s.thyme.generation ∧ fld (s.thymeMessage x).f28.toNat 39 37 = s.thyme.depth ∧
    fld (s.thymeMessage x).f28.toNat 31 16 = s.thyme.errorNs := by
  have hword : (s.thymeMessage x).f28.toNat = s.thyme.root * 2 ^ 48 + s.thyme.generation * 2 ^ 40 + s.thyme.depth * 2 ^ 37 +
      s.thyme.errorNs * 2 ^ 16 + s.thyme.state := by
    simp only [State.thymeMessage, BitVec.toNat_ofNat, Nat.mod_eq_of_lt hroot, Nat.mod_eq_of_lt hgen, Nat.mod_eq_of_lt hdepth,
      Nat.mod_eq_of_lt herror, Nat.mod_eq_of_lt hstate]
    omega
  refine ⟨rfl, Nat.mod_eq_of_lt hnow, Nat.mod_eq_of_lt hsend, Nat.mod_eq_of_lt hrecv, ?_, ?_, ?_, ?_⟩
  all_goals
    rw [hword]
    simp only [fld, Nat.shiftRight_eq_div_pow]
    omega

/-! ### Timeouts (R616, R617, R620, R624) -/

section
variable {s : State} (hup : s.up = true) (hstate : s.thyme.state ≠ 0)
include hup hstate

theorem exec_thymeRootTimeout_none (hen : s.thyme.rootEn = false) : exec (.thymeRootTimeout []) s =
    .next (s.setThyme { s.thyme.alone s.ownRoot with generation := (s.thyme.generation + 1) % 256 }) := by
  refine congrArg Host.Outcome.next ((State.work_of_up hup _).trans ((if_neg hstate).trans ?_))
  simp only [hen, Bool.false_and, Bool.false_eq_true, if_false, List.map_nil, List.append_nil, minBy]

theorem exec_thymeRootTimeout_one {r : BitVec 16} (hen : s.thyme.rootEn = false)
    (hown : s.fab.idValid = true → s.fab.hubId ≠ r.toNat) : exec (.thymeRootTimeout [r]) s = .next (s.setThyme { s.thyme with
      root := r.toNat, generation := (s.thyme.generation + 1) % 256, parent := 31, rootChanged := true }) := by
  refine congrArg Host.Outcome.next ((State.work_of_up hup _).trans ((if_neg hstate).trans ?_))
  simp only [hen, Bool.false_and, Bool.false_eq_true, if_false, List.map_cons, List.map_nil, List.nil_append, minBy]
  exact if_neg fun h => hown h.1 h.2.symm

theorem exec_thymeParentTimeout {q depth : Nat} (hparent : s.thyme.parent ≠ 31) (hport : q < s.build.fabricPorts)
    (hactive : (s.fp q).state = .active) (hlow : 1 ≤ depth) (hhigh : depth ≤ 5) : exec (.thymeParentTimeout q depth) s =
      .next { s with thyme := { s.thyme with parent := q, depth := depth, parentLosses := bump s.thyme.parentLosses 1 } } := by
  have hok : (s.hasPort q && (s.fp q).state == .active && decide (1 ≤ depth) && decide (depth ≤ 5)) = true := by
    rw [State.hasPort_of_lt hport, hactive, decide_eq_true hlow, decide_eq_true hhigh]
    rfl
  refine congrArg Host.Outcome.next ((State.work_of_up hup _).trans ((if_neg (not_or.mpr ⟨hstate, hparent⟩)).trans ?_))
  simp only [hok, if_true]
  exact State.setThyme_same rfl rfl

theorem exec_thymeHoldoverTick (hparent : s.thyme.parent = 31) : exec .thymeHoldoverTick s =
    .next { s with thyme := { s.thyme with errorNs := min (s.thyme.errorNs + 1) 65535 } } :=
  congrArg Host.Outcome.next ((State.work_of_up hup _).trans ((if_pos ⟨hstate, hparent⟩).trans (State.setThyme_same rfl rfl)))

end

theorem State.statementsChange_noParts {s : State} (hparts : s.units.parts = []) : s.statementsChange = s := by
  rw [State.statementsChange, hparts, List.filter_nil, List.foldl_nil]

theorem State.setThyme_noParts {s : State} (hparts : s.units.parts = []) (t : Thyme) : s.setThyme t = { s with thyme := t } := by
  simp only [State.setThyme]
  split
  · rfl
  · exact State.statementsChange_noParts hparts

theorem State.thymeExpels_noSched {s : State} (hsx : s.sx = []) : s.thymeExpels = s := by
  rw [State.thymeExpels, hsx, List.foldl_nil]

/-- Settles O55: a message first decides the root, then corrects Thyme; the statements follow a change of root or state. -/
theorem thymeExchange : Obligations.ThymeExchange := by
  unfold Obligations.ThymeExchange
  refine ⟨?corrects, ?steps, ?joins, ?ticks, ?sends, ?fields, ?noRoot, ?newRoot, ?parent, ?holdover, ?locks, ?loses⟩
  case corrects =>
    intro s p m t4 lead2 hup hport hactive htype hstate hparent hnames hen hown hdepth htimes hlead hsmall
    have hne : s.thyme.state ≠ 0 := by omega
    have hroot := State.thymeRoot_parent hen hparent hnames hown hdepth hne
    have hin := State.thymeIn_parent (s := s.takeInbox p m) (t4 := t4.toNat) hroot ⟨rfl, rfl⟩ hne hparent hnames.symm htimes
      (Thyme.correct_small _ hstate (by rw [thymeLead2, ← hlead]; exact hsmall)) ⟨rfl, rfl⟩
    rw [exec_thymeMsg hup hport hactive htype, hin, thymeLead2, ← hlead]
    refine ⟨_, rfl, rfl, ?_, ?_, rfl, rfl, rfl⟩
    · exact congrArg FpPort.lastSend (State.fp_setFp _ p _)
    · exact congrArg FpPort.lastRecv (State.fp_setFp _ p _)
  case steps =>
    intro s p m t4 lead2 hup hport hactive htype hstate hstepped hparent hnames hen hown hdepth htimes hlead hbig
    have hne : s.thyme.state ≠ 0 := by omega
    have hroot := State.thymeRoot_parent hen hparent hnames hown hdepth hne
    have hin := State.thymeIn_parent (s := s.takeInbox p m) (t4 := t4.toNat) hroot ⟨rfl, rfl⟩ hne hparent hnames.symm htimes
      (Thyme.correct_step _ hstate hstepped (by rw [thymeLead2, ← hlead]; exact hbig)) ⟨rfl, rfl⟩
    rw [exec_thymeMsg hup hport hactive htype, hin, thymeLead2, ← hlead]
    exact ⟨_, rfl, rfl, rfl, rfl, hstate, rfl, rfl, rfl⟩
  case joins =>
    intro s p m t4 hup hport hactive htype hstate hen hown hdepth htimes
    have hfollow := State.thymeRoot_follows (s := s.takeInbox p m) (p := p) (gen := thymeGenOf m) (root := thymeRootOf m) hen
      hown hdepth (.inl hstate)
    rw [exec_thymeMsg hup hport hactive htype, State.thymeIn_local hfollow htimes]
    have honly := ((s.takeInbox p m).timesNoted p m t4.toNat).setThyme_onlyStatements
      (s.thyme.follow (thymeRootOf m) (thymeGenOf m) (thymeDepthOf m + 1) p)
    refine ⟨_, rfl, (State.setThyme_thyme _ _).trans (Thyme.follow_local _ _ _ _ hstate), (congrArg State.mem honly :),
      (congrArg State.ctxs honly :)⟩
  case ticks =>
    exact fun t => ⟨fun hlead hphase => Thyme.tick_lead hlead hphase, fun hlag hphase hstate => Thyme.tick_lag hlag hphase hstate,
      fun hphase hstate => Thyme.tick_plain hphase hstate,
      fun hstate hlag heven _ => Thyme.tick_tick_half hstate hlag heven⟩
  case sends => exact fun s p hup hport hactive hothers => exec_thymeSendTick hup hport hactive hothers
  case fields =>
    exact fun s x hsend hrecv hnow hroot hgen hdepth herror hstate =>
      State.thymeMessage_fields hsend hrecv hnow hroot hgen hdepth herror hstate
  case noRoot =>
    intro s hup hstate hen
    have honly := s.setThyme_onlyStatements { s.thyme.alone s.ownRoot with generation := (s.thyme.generation + 1) % 256 }
    refine ⟨_, exec_thymeRootTimeout_none hup hstate hen, ?_⟩
    rw [State.setThyme_thyme]
    exact ⟨rfl, rfl, rfl, rfl, rfl, rfl, (congrArg State.mem honly :), (congrArg State.ctxs honly :), (congrArg State.fps honly :)⟩
  case newRoot =>
    intro s r hup hstate hen hown
    have honly := s.setThyme_onlyStatements { s.thyme with
      root := r.toNat, generation := (s.thyme.generation + 1) % 256, parent := 31, rootChanged := true }
    exact ⟨_, exec_thymeRootTimeout_one hup hstate hen hown, State.setThyme_thyme _ _, (congrArg State.mem honly :),
      (congrArg State.ctxs honly :), (congrArg State.fps honly :)⟩
  case parent =>
    exact fun s q depth hup hstate hparent hport hactive hlow hhigh =>
      exec_thymeParentTimeout hup hstate hparent hport hactive hlow hhigh
  case holdover => exact fun s hup hstate hparent => exec_thymeHoldoverTick hup hstate hparent
  case locks =>
    intro s hup hstate herror
    have honly := s.setThyme_onlyStatements { s.thyme with state := 1 }
    exact ⟨_, congrArg Host.Outcome.next ((State.work_of_up hup _).trans (if_pos ⟨hstate, herror⟩)), State.setThyme_thyme _ _,
      (congrArg State.mem honly :), (congrArg State.ctxs honly :)⟩
  case loses =>
    intro s hup hstate herror hparts hsx
    have hnot : ¬((s.thyme.state = 2 ∨ s.thyme.state = 3) ∧ s.thyme.errorNs ≤ 40) := by omega
    refine congrArg Host.Outcome.next ((State.work_of_up hup _).trans ((if_neg hnot).trans ((if_pos ⟨hstate, herror⟩).trans ?_)))
    rw [State.setThyme_noParts hparts]
    exact State.thymeExpels_noSched hsx

end Sys2Proof.Machine
end

section
/-! Static schedules (chapter 13): what their operations change, and what they leave. -/

namespace Sys2Proof.Machine

/-- What one step of a loop brings about, and every step keeps, holds at its end. -/
theorem foldl_reaches {α β : Type} {f : β → α → β} {Q : β → Prop} (hkeeps : ∀ b a, Q b → Q (f b a)) {x : α} {xs : List α}
    (hx : x ∈ xs) (hreach : ∀ b, Q (f b x)) (b : β) : Q (xs.foldl f b) := by
  induction xs generalizing b with
  | nil => cases hx
  | cons y ys ih =>
    rw [List.foldl_cons]
    obtain rfl | hys := List.mem_cons.mp hx
    · exact keeps_foldl (P := Q) (fun t a ht => hkeeps t a ht) (hreach b)
    · exact ih hys (f b y)

/-! ### Frames -/

/-- From `s` to `t` only the schedules, what is sent for them, the engines and their points, and what the host is told have
changed. -/
def State.OnlyJob (s t : State) : Prop :=
  t = { s with sx := t.sx, ctxs := t.ctxs, fps := t.fps, fab := t.fab, engines := t.engines, pw := t.pw, ep := t.ep, out := t.out }

/-- From `s` to `t` only the engines and their points have changed. -/
def State.OnlyEngines (s t : State) : Prop := t = { s with engines := t.engines, pw := t.pw, out := t.out }

theorem State.OnlyJob.refl (s : State) : s.OnlyJob s := rfl

theorem State.OnlyJob.trans {s t u : State} (h : s.OnlyJob t) (g : t.OnlyJob u) : s.OnlyJob u :=
  Eq.trans g (congrArg (fun z : State => { z with
    sx := u.sx, ctxs := u.ctxs, fps := u.fps, fab := u.fab, engines := u.engines, pw := u.pw, ep := u.ep, out := u.out }) h)

theorem State.OnlyEngines.refl (s : State) : s.OnlyEngines s := rfl

theorem State.OnlyEngines.trans {s t u : State} (h : s.OnlyEngines t) (g : t.OnlyEngines u) : s.OnlyEngines u :=
  Eq.trans g (congrArg (fun z : State => { z with engines := u.engines, pw := u.pw, out := u.out }) h)

theorem State.OnlyEngines.onlyJob {s t : State} (h : s.OnlyEngines t) : s.OnlyJob t := by
  rw [h]
  rfl

theorem State.OnlyEngines.sx {s t : State} (h : s.OnlyEngines t) : t.sx = s.sx := (congrArg State.sx h :)

theorem State.OnlyEngines.sched {s t : State} (h : s.OnlyEngines t) (p : Nat) : t.sched p = s.sched p := by
  rw [State.sched, h.sx]
  rfl

theorem State.OnlyFabric.onlyJob {s t : State} (h : s.OnlyFabric t) : s.OnlyJob t := by
  rw [h]
  rfl

theorem State.OnlyFabric.sched {s t : State} (h : s.OnlyFabric t) (p : Nat) : t.sched p = s.sched p := by
  rw [h]
  rfl

theorem State.OnlyEndpoint.onlyJob {s t : State} (h : s.OnlyEndpoint t) : s.OnlyJob t := by
  rw [h]
  rfl

theorem State.OnlyEndpoint.sched {s t : State} (h : s.OnlyEndpoint t) (p : Nat) : t.sched p = s.sched p := by
  rw [h]
  rfl

theorem State.setSched_onlyJob (s : State) (p : Nat) (x : Sched) : s.OnlyJob (s.setSched p x) := rfl

namespace State.OnlyJob
variable {s t : State} (h : s.OnlyJob t)
include h

theorem mem : t.mem = s.mem := (congrArg State.mem h :)
theorem hostMem : t.hostMem = s.hostMem := (congrArg State.hostMem h :)
theorem units : t.units = s.units := (congrArg State.units h :)
theorem objs : t.objs = s.objs := (congrArg State.objs h :)
theorem fenceWire : t.fenceWire = s.fenceWire := (congrArg State.fenceWire h :)

end State.OnlyJob

/-! ### Engines: points, allotments (R135, R643, R644) -/

theorem State.modEngine_onlyEngines (s : State) (e : Nat) (f : Engine → Engine) : s.OnlyEngines (s.modEngine e f) := rfl

/-- A point that is asked for changes the power block, and leaves the engines. -/
theorem State.setPoint_engines (s : State) (e f : Nat) : s.OnlyEngines (s.setPoint e f) ∧ (s.setPoint e f).engines = s.engines := by
  simp only [State.setPoint, State.pointBegin]
  split
  · exact ⟨rfl, rfl⟩
  · split
    · exact ⟨rfl, rfl⟩
    · split
      · exact ⟨rfl, rfl⟩
      · split
        · exact ⟨rfl, rfl⟩
        · exact ⟨rfl, rfl⟩

/-- Pinning of one engine at a clock. -/
def State.pinOne (s : State) (f e : Nat) : State :=
  if (s.modEngine e fun x => { x with pinned := true }).pw.emergency then s.modEngine e fun x => { x with pinned := true }
  else (s.modEngine e fun x => { x with pinned := true }).setPoint e f

theorem State.pinAll_eq (s : State) (es : List Nat) (f : Nat) :
    s.pinAll es f = (es.filter (· < s.build.engines)).foldl (fun s e => s.pinOne f e) s := rfl

theorem State.pinOne_spec (s : State) (f e : Nat) : s.OnlyEngines (s.pinOne f e) ∧
    (s.pinOne f e).engines = (s.modEngine e fun x => { x with pinned := true }).engines := by
  unfold State.pinOne
  split
  · exact ⟨rfl, rfl⟩
  · obtain ⟨honly, hengines⟩ := (s.modEngine e fun x => { x with pinned := true }).setPoint_engines e f
    exact ⟨(s.modEngine_onlyEngines e _).trans honly, hengines⟩

theorem State.pinAll_onlyEngines (s : State) (es : List Nat) (f : Nat) : s.OnlyEngines (s.pinAll es f) := by
  rw [State.pinAll_eq]
  exact keeps_foldl (P := s.OnlyEngines) (fun t e ht => ht.trans (t.pinOne_spec f e).1) rfl

/-- Every engine of the hub among those named is pinned. -/
theorem State.pinAll_pinned (s : State) {es : List Nat} (f : Nat) {e : Nat} (he : e ∈ es) (hlt : e < s.build.engines) :
    ((s.pinAll es f).engine e).pinned = true := by
  have hone : ∀ t : State, ((t.pinOne f e).engine e).pinned = true := by
    intro t
    rw [State.engine, (t.pinOne_spec f e).2]
    exact congrArg Engine.pinned (tget_tput ..)
  rw [State.pinAll_eq]
  refine foldl_reaches (Q := fun t : State => (t.engine e).pinned = true) (fun t a ht => ?_)
    (List.mem_filter.mpr ⟨he, decide_eq_true hlt⟩) hone s
  obtain rfl | hne := eq_or_ne e a
  · exact hone t
  · rw [State.engine, (t.pinOne_spec f a).2]
    exact (congrArg Engine.pinned (tget_tput_ne _ _ _ hne)).trans ht

theorem State.giveAllot_onlyEngines (s : State) (c e : Nat) : s.OnlyEngines (s.giveAllot c e) := by
  unfold State.giveAllot
  extract_lets n
  split
  · rfl
  · split <;> rfl

theorem State.putAllot_onlyEngines (s : State) (c e : Nat) (cells : Mem) : s.OnlyEngines (s.putAllot c e cells) := by
  unfold State.putAllot
  extract_lets t
  have ht : s.OnlyEngines t := s.giveAllot_onlyEngines c e
  split
  · exact ht
  · exact ht.trans rfl

theorem State.restoreAllots_onlyEngines (s : State) (p : Nat) : s.OnlyEngines (s.restoreAllots p) :=
  keeps_foldl (P := s.OnlyEngines) (fun t r ht => ht.trans (t.putAllot_onlyEngines _ r.1 _)) rfl

theorem State.dropAllots_onlyEngines (s : State) (p : Nat) : s.OnlyEngines (s.dropAllots p) := rfl

/-! ### Messages of the schedule (R634, R638, R645) -/

/-- A schedule from which only its votes and its trigger differ. -/
def Sched.OnlyVoted (x y : Sched) : Prop := y = { x with votes := y.votes, voteDue := y.voteDue, trigger := y.trigger }

theorem Sched.OnlyVoted.refl (x : Sched) : x.OnlyVoted x := rfl

theorem Sched.OnlyVoted.trans {x y z : Sched} (h : x.OnlyVoted y) (g : y.OnlyVoted z) : x.OnlyVoted z :=
  Eq.trans g (congrArg (fun u : Sched => { u with votes := z.votes, voteDue := z.voteDue, trigger := z.trigger }) h)

/-- From `s` to `t` a message of a schedule has gone out: some schedule may be marked as triggered. -/
structure State.Announces (s t : State) : Prop where
  frame : t = { s with sx := t.sx, ctxs := t.ctxs, fps := t.fps, fab := t.fab }
  scheds : ∀ p, (s.sched p).OnlyVoted (t.sched p)

theorem State.Announces.refl (s : State) : s.Announces s := ⟨rfl, fun _ => rfl⟩

theorem State.Announces.trans {s t u : State} (h : s.Announces t) (g : t.Announces u) : s.Announces u where
  frame := Eq.trans g.frame (congrArg (fun z : State => { z with sx := u.sx, ctxs := u.ctxs, fps := u.fps, fab := u.fab }) h.frame)
  scheds p := (h.scheds p).trans (g.scheds p)

theorem State.Announces.onlyJob {s t : State} (h : s.Announces t) : s.OnlyJob t := by
  rw [h.frame]
  rfl

theorem State.OnlyFabric.announces {s t : State} (h : s.OnlyFabric t) : s.Announces t := by
  refine ⟨?_, fun p => ?_⟩
  · rw [h]
  · rw [h.sched]
    exact .refl _

/-- A schedule of which only votes or the trigger are set anew. -/
theorem State.setSched_announces {s : State} {p : Nat} {x : Sched} (h : (s.sched p).OnlyVoted x) : s.Announces (s.setSched p x) := by
  refine ⟨rfl, fun q => ?_⟩
  obtain rfl | hne := eq_or_ne q p
  · rw [State.sched_setSched]
    exact h
  · rw [State.sched_setSched_ne _ _ hne]
    exact .refl _

theorem State.schedLost_announces (s : State) (m : OfpMsg) : s.Announces (s.schedLost m) := by
  unfold State.schedLost
  extract_lets p
  split
  · exact State.setSched_announces rfl
  · exact .refl s

theorem State.sourceRoute_announces (s : State) (m : OfpMsg) : s.Announces (s.sourceRoute m) := by
  unfold State.sourceRoute
  extract_lets p x
  split
  · have hset : s.OnlyFabric (s.setFp p { x with discarded := bump x.discarded 1 }) := rfl
    exact hset.announces.trans (State.schedLost_announces _ m)
  · exact (State.portSend_onlySent _ _ _).onlyFabric.announces

theorem State.schedSend_announces (s : State) (p : Nat) (m : OfpMsg) : s.Announces (s.schedSend p m) := by
  unfold State.schedSend
  split
  · exact s.sourceRoute_announces m
  · exact (s.chargeFabric_onlySent m).onlyFabric.announces.trans (State.sourceRoute_announces _ m)

theorem State.castVote_announces (s : State) (p e : Nat) : s.Announces (s.castVote p e) := by
  unfold State.castVote
  extract_lets x d healthy
  split
  · exact State.setSched_announces rfl
  · exact keeps_foldl (P := s.Announces) (fun t r ht => ht.trans (t.schedSend_announces p _)) (.refl s)

theorem State.voteIfPinned_announces (s : State) (p : Nat) : s.Announces (s.voteIfPinned p) := by
  unfold State.voteIfPinned
  extract_lets x
  split
  · exact State.Announces.trans (State.setSched_announces (s := s) (x := { x with voteDue := false }) rfl)
      (State.castVote_announces _ p 0)
  · exact .refl s

/-! ### Bindings and reservations (R631, R632, Table 13-12) -/

/-- Updates of ports and collective units, which leave the schedules. -/
theorem State.foldl_setFp_frame (f : FpPort → Nat × Nat → FpPort) (rs : List (Nat × Nat)) (s : State) :
    ∃ fps, rs.foldl (fun s r => s.setFp r.1 (f (s.fp r.1) r)) s = { s with fps := fps } :=
  keeps_foldl (P := fun t : State => ∃ fps, t = { s with fps := fps })
    (fun t r ht => by obtain ⟨fps, rfl⟩ := ht; exact ⟨_, rfl⟩) ⟨s.fps, rfl⟩

theorem State.foldl_setCu_frame (f : Cu → Nat × Nat → Cu) (rs : List (Nat × Nat)) (s : State) :
    ∃ fab, rs.foldl (fun s r => s.setCu r.1 (f (s.cu r.1) r)) s = { s with fab := fab } :=
  keeps_foldl (P := fun t : State => ∃ fab, t = { s with fab := fab })
    (fun t r ht => by obtain ⟨fab, rfl⟩ := ht; exact ⟨_, rfl⟩) ⟨s.fab, rfl⟩

/-- The reservations of a partition's schedule are given up. -/
theorem State.schedRelease_spec (s : State) (p : Nat) : ∃ fps fab,
    s.schedRelease p = { s.setSched p { s.sched p with slots := [], pages := [] } with fps := fps, fab := fab } := by
  obtain ⟨fps, hfps⟩ := State.foldl_setFp_frame (fun x r => { x with reserved := x.reserved - r.2 }) (s.sched p).slots s
  obtain ⟨fab, hfab⟩ := State.foldl_setCu_frame (fun x r => { x with pagesReserved := x.pagesReserved - r.2 }) (s.sched p).pages
    { s with fps := fps }
  refine ⟨fps, fab, ?_⟩
  simp only [State.schedRelease, hfps, hfab]
  rfl

/-- What an alternative binds of a schedule. -/
def Sched.OnlyBound (x y : Sched) : Prop :=
  y = { x with engines := y.engines, foreign := y.foreign, ways := y.ways, logBytes := y.logBytes, slots := y.slots, pages := y.pages }

/-- An alternative is bound: the schedule takes its units and reservations, and nothing else of it changes. -/
theorem State.bindAlt_spec (s : State) (p alt : Nat) : s.OnlyJob (s.bindAlt p alt) ∧
    Sched.OnlyBound { s.sched p with alt := alt } ((s.bindAlt p alt).sched p) := by
  obtain ⟨fps, fab, hrelease⟩ := s.schedRelease_spec p
  unfold State.bindAlt
  extract_lets t x
  have ht : t = { s.setSched p { s.sched p with slots := [], pages := [] } with fps := fps, fab := fab } := hrelease
  have hx : x = { s.sched p with slots := [], pages := [] } := by
    simp only [x, ht]
    exact s.sched_setSched p _
  have honly : s.OnlyJob t := by rw [ht]; rfl
  split
  · refine ⟨honly.trans rfl, ?_⟩
    rw [State.sched_setSched, hx]
    rfl
  next e _ =>
    extract_lets q slots pages u v
    obtain ⟨fps', hv⟩ : ∃ fps, v = { u with fps := fps } :=
      State.foldl_setFp_frame (fun x r => { x with reserved := x.reserved + r.2 }) slots u
    obtain ⟨fab', hw⟩ := State.foldl_setCu_frame (fun x r => { x with pagesReserved := x.pagesReserved + r.2 }) pages v
    rw [hw, hv]
    have hu : t.OnlyJob u := rfl
    refine ⟨(honly.trans hu).trans rfl, ?_⟩
    have hsched : ({ { u with fps := fps' } with fab := fab' } : State).sched p = u.sched p := rfl
    rw [hsched]
    simp only [u, State.sched_setSched, hx]
    rfl

/-! ### The end of a command (R635) -/

/-- A command of the block completes with a code. -/
def Sched.completed (x : Sched) (code : Nat) : Sched := { x with tag := x.curTag, code := code, busy := false, done := true, op := 0 }

theorem State.sxDone_spec (s : State) (p code : Nat) : (s.setSched p ((s.sched p).completed code)).OnlyEndpoint (s.sxDone p code) ∧
    (s.sxDone p code).sched p = (s.sched p).completed code := by
  have honly : (s.setSched p ((s.sched p).completed code)).OnlyEndpoint (s.sxDone p code) := State.raise_onlyEndpoint _ .pf 0
  exact ⟨honly, (honly.sched p).trans (s.sched_setSched p _)⟩

theorem State.sxDone_onlyJob (s : State) (p code : Nat) : s.OnlyJob (s.sxDone p code) :=
  (s.setSched_onlyJob p _).trans (s.sxDone_spec p code).1.onlyJob

theorem State.sxDone_engines (s : State) (p code : Nat) : (s.sxDone p code).engines = s.engines :=
  (congrArg State.engines (s.sxDone_spec p code).1 :)

theorem State.sxDone_ctxs (s : State) (p code : Nat) : (s.sxDone p code).ctxs = s.ctxs :=
  (congrArg State.ctxs (s.sxDone_spec p code).1 :)

/-! ### A schedule stops (R636, R640, R643) -/

/-- A schedule that no longer runs. -/
def Sched.stopped (x : Sched) : Sched :=
  { x with powerHeld := 0, owesStmt := 0, voteDue := false, saving := none, voting := none, trigger := false, running := [],
           suspendAsked := false }

/-- From `s` to `t` only schedules, engines, partitions, and what the host is told have changed. -/
def State.OnlyStopped (s t : State) : Prop :=
  t = { s with sx := t.sx, units := t.units, engines := t.engines, wmb := t.wmb, ep := t.ep, out := t.out }

theorem State.OnlyStopped.trans {s t u : State} (h : s.OnlyStopped t) (g : t.OnlyStopped u) : s.OnlyStopped u :=
  Eq.trans g (congrArg (fun z : State => { z with
    sx := u.sx, units := u.units, engines := u.engines, wmb := u.wmb, ep := u.ep, out := u.out }) h)

theorem State.setSched_onlyStopped (s : State) (p : Nat) (x : Sched) : s.OnlyStopped (s.setSched p x) := rfl

theorem State.OnlyEndpoint.onlyStopped {s t : State} (h : s.OnlyEndpoint t) : s.OnlyStopped t := by
  rw [h]
  rfl

theorem State.OnlyStopped.mem {s t : State} (h : s.OnlyStopped t) : t.mem = s.mem := (congrArg State.mem h :)

theorem State.OnlyStopped.fenceWire {s t : State} (h : s.OnlyStopped t) : t.fenceWire = s.fenceWire :=
  (congrArg State.fenceWire h :)

theorem State.schedStop_spec (s : State) (p : Nat) : s.OnlyStopped (s.schedStop p) ∧ (s.schedStop p).sched p = (s.sched p).stopped := by
  unfold State.schedStop
  extract_lets x t u
  have hu : u.sched p = (s.sched p).stopped := t.sched_setSched p _
  split
  · exact ⟨rfl, hu⟩
  · have honly := u.partChanged_onlyStatements p x.owesStmt
    have hsx : (u.partChanged p x.owesStmt).sx = u.sx := (congrArg State.sx honly :)
    refine ⟨?_, ?_⟩
    · unfold State.OnlyStopped
      rw [hsx]
      exact honly
    · rw [State.sched, hsx]
      exact hu

end Sys2Proof.Machine
end

section
/-! The schedule block and the start of a schedule (chapter 13: R624, R631 to R640, R643, R645, R655, Tables 13-11, 13-12). -/

namespace Sys2Proof.Machine

/-! ### A command begins (R635) -/

/-- A schedule block that carries out a command. -/
def Sched.begun (x : Sched) (op : Nat) (tag : BitVec 16) : Sched :=
  { x with busy := true, op := op, curTag := tag.toNat, queued := false }

theorem State.sched_sxBegun (s : State) (p op : Nat) (tag : BitVec 16) :
    (s.sxBegun p op tag).sched p = (s.sched p).begun op tag := s.sched_setSched p _

/-- The block takes no command while one is in progress: it says that this one is lost. -/
theorem State.sxCommand_busy {s : State} {p : Nat} (hd : s.decodes .pf = true) (hfw : s.fwRuns = true) (hp : p < s.build.partitions)
    (hbusy : (s.sched p).busy = true) (op : Nat) (tag : BitVec 16) :
    s.work (s.sxCommand p op tag) = s.setSched p { s.sched p with lost := true } := by
  rw [State.work_of_up (State.up_of_decodes hd)]
  refine (if_neg ?_).trans (if_pos hbusy)
  simp [hd, hfw, Nat.not_le_of_lt hp]

/-- A block that is free carries out the command at once, but for an admission that waits for its turn. -/
theorem State.sxCommand_free {s : State} {p : Nat} (h : s.sxFree p = true) {op : Nat} (hturn : op = 1 → s.adminBusy = false)
    (tag : BitVec 16) : s.work (s.sxCommand p op tag) = (s.sxBegun p op tag).runSx p := by
  simp only [State.sxFree, Bool.and_eq_true, Bool.not_eq_true', decide_eq_true_eq] at h
  obtain ⟨⟨⟨⟨hd, hfw⟩, hp⟩, hbusy⟩, hwarden⟩ := h
  have htaken : ¬((!s.decodes .pf || !s.fwRuns || decide (s.build.partitions ≤ p)) = true) := by
    simp [hd, hfw, Nat.not_le_of_lt hp]
  have hnow : ¬((s.sage.wardenDown || (op == 1 && s.adminBusy)) = true) := by
    simpa [hwarden] using hturn
  have hbegun : s.setSched p { s.sched p with busy := true, op := op, curTag := tag.toNat, queued := s.sage.wardenDown } =
      s.sxBegun p op tag := by
    rw [hwarden]
    rfl
  rw [State.work_of_up (State.up_of_decodes hd)]
  refine (if_neg htaken).trans ((if_neg (by simp [hbusy])).trans (Eq.trans ?_ (congrArg (State.runSx · p) hbegun)))
  exact if_neg hnow

theorem State.op_sxBegun (s : State) (p op : Nat) (tag : BitVec 16) : ((s.sxBegun p op tag).sched p).op = op :=
  congrArg Sched.op (s.sched_sxBegun p op tag)

section
variable {s : State} {p : Nat} (h : s.sxFree p = true) (tag : BitVec 16)
include h

theorem exec_sxAdmit (hturn : s.adminBusy = false) : exec (.sxAdmit p tag) s = .next ((s.sxBegun p 1 tag).runAdmit p) :=
  congrArg Host.Outcome.next ((State.sxCommand_free h (fun _ => hturn) tag).trans (if_pos (s.op_sxBegun p 1 tag)))

theorem exec_sxStart : exec (.sxStart p tag) s = .next ((s.sxBegun p 2 tag).runStart p) := by
  refine congrArg Host.Outcome.next ((State.sxCommand_free h (op := 2) (absurd · (by decide)) tag).trans ?_)
  simp [State.runSx, s.op_sxBegun]

theorem exec_sxSuspend : exec (.sxSuspend p tag) s = .next ((s.sxBegun p 3 tag).runSuspend p) := by
  refine congrArg Host.Outcome.next ((State.sxCommand_free h (op := 3) (absurd · (by decide)) tag).trans ?_)
  simp [State.runSx, s.op_sxBegun]

theorem exec_sxResume : exec (.sxResume p tag) s = .next ((s.sxBegun p 4 tag).runResume p) := by
  refine congrArg Host.Outcome.next ((State.sxCommand_free h (op := 4) (absurd · (by decide)) tag).trans ?_)
  simp [State.runSx, s.op_sxBegun]

theorem exec_sxUnload : exec (.sxUnload p tag) s = .next ((s.sxBegun p 5 tag).runUnload p) := by
  refine congrArg Host.Outcome.next ((State.sxCommand_free h (op := 5) (absurd · (by decide)) tag).trans ?_)
  simp [State.runSx, s.op_sxBegun]

theorem exec_sxUnknownOp {op : BitVec 8} (hop : op = 0 ∨ 5 < op.toNat) :
    exec (.sxUnknownOp p tag op) s = .next ((s.sxBegun p op.toNat tag).sxDone p 2) := by
  have hunknown : op.toNat = 0 ∨ 5 < op.toNat := hop.imp_left (congrArg BitVec.toNat)
  have hrun : (s.sxBegun p op.toNat tag).runSx p = (s.sxBegun p op.toNat tag).sxDone p 2 := by
    simp only [State.runSx, s.op_sxBegun]
    rw [if_neg (by omega), if_neg (by omega), if_neg (by omega), if_neg (by omega), if_neg (by omega)]
  refine congrArg Host.Outcome.next (Eq.trans (congrArg s.work (if_neg (by omega))) ?_)
  exact (State.sxCommand_free h (fun hadmit => absurd hadmit (by omega)) tag).trans hrun

end

/-! ### ADMIT (R635, Table 13-12) -/

theorem State.runAdmit_wrongState {s : State} {p : Nat} (h : (s.sched p).state ≠ 0) : s.runAdmit p = s.sxDone p 2 := if_pos h

theorem State.runAdmit_refused {s : State} {p : Nat} (h : (s.sched p).state = 0) (hcode : s.admitCode p ≠ 0) :
    s.runAdmit p = s.sxDone p (s.admitCode p) := (if_neg (not_not.mpr h)).trans (if_pos hcode)

/-- Allotments are given on several engines. -/
theorem State.giveAllots_onlyEngines (s : State) (c : Nat) (es : List Nat) :
    s.OnlyEngines (es.foldl (fun s e => s.giveAllot c e) s) :=
  keeps_foldl (P := s.OnlyEngines) (fun t e ht => ht.trans (t.giveAllot_onlyEngines c e)) rfl

/-- A schedule that has been admitted on its context. -/
structure Sched.Admitted (x : Sched) (c : Nat) : Prop where
  state : x.state = 1
  code : x.code = 0
  busy : x.busy = false
  ctx : x.ctx = c
  alt : x.alt = 0

theorem State.runAdmit_admitted {s : State} {p : Nat} (h : (s.sched p).state = 0) (hcode : s.admitCode p = 0) :
    s.OnlyJob (s.runAdmit p) ∧ ((s.runAdmit p).sched p).Admitted (hIndex (s.sched p).imageCtx) := by
  simp only [State.runAdmit, if_neg (not_not.mpr h), if_neg (not_not.mpr hcode)]
  generalize hx : s.setSched p _ = t
  have ht : s.OnlyJob t := by rw [← hx]; exact s.setSched_onlyJob p _
  have hstate : (t.sched p).state = 1 := by rw [← hx, State.sched_setSched]
  have hctx : (t.sched p).ctx = hIndex (s.sched p).imageCtx := by rw [← hx, State.sched_setSched]
  obtain ⟨hbound, hbind⟩ := t.bindAlt_spec p 0
  generalize t.bindAlt p 0 = u at hbound hbind ⊢
  have hgiven := u.giveAllots_onlyEngines (u.sched p).ctx (u.sched p).engines
  generalize (u.sched p).engines.foldl (fun s e => s.giveAllot (u.sched p).ctx e) u = v at hgiven ⊢
  refine ⟨((ht.trans hbound).trans hgiven.onlyJob).trans (v.sxDone_onlyJob p 0), ?_⟩
  rw [(v.sxDone_spec p 0).2, hgiven.sched, hbind]
  exact ⟨hstate, rfl, rfl, hctx, rfl⟩

theorem State.admitCode_badCtx {s : State} {p : Nat} (h : s.ctxValid (s.sched p).imageCtx = false) : s.admitCode p = 7 :=
  if_pos (by simp [h])

/-! ### START (R624, R637, R638, R643) -/

theorem State.armCode_late {s : State} {p : Nat} (h : (s.sched p).startBeat < s.beat + 4000) : s.armCode p = 6 := if_pos h

theorem State.armCode_noTime {s : State} {p : Nat} (h : s.beat + 4000 ≤ (s.sched p).startBeat) (hmulti : (s.sched p).multi = true)
    (hthyme : s.thyme.state = 0 ∨ s.thyme.state = 3) : s.armCode p = 5 :=
  (if_neg (Nat.not_lt.mpr h)).trans (if_pos (by simpa [hmulti] using hthyme))

theorem State.armCode_ready {s : State} {p : Nat} (h : s.beat + 4000 ≤ (s.sched p).startBeat)
    (hthyme : s.thyme.state = 1 ∨ s.thyme.state = 2 ∨ (s.sched p).multi = false) : s.armCode p = 0 := by
  refine (if_neg (Nat.not_lt.mpr h)).trans (if_neg ?_)
  obtain hstate | hstate | hsingle := hthyme
  · simp [hstate]
  · simp [hstate]
  · simp [hsingle]

/-- A schedule that is armed. -/
def Sched.armed (x : Sched) (power : Nat) : Sched :=
  { x with state := 2, voteDue := true, votes := [], powerHeld := power, trigger := false, noRemedy := false, restart := none,
           reports := [] }

theorem State.arm_eq (s : State) (p : Nat) : s.arm p =
    ((s.setSched p ((s.sched p).armed (s.myPart p).power)).pinAll (s.sched p).engines (s.sched p).header.clockMhz).voteIfPinned p := rfl

/-- A schedule is armed: its engines are pinned, and its vote goes out when they run at its clock. -/
theorem State.arm_spec (s : State) (p : Nat) : s.OnlyJob (s.arm p) ∧
    ((s.sched p).armed (s.myPart p).power).OnlyVoted ((s.arm p).sched p) ∧
    ∀ e ∈ (s.sched p).engines, e < s.build.engines → ((s.arm p).engine e).pinned = true := by
  rw [State.arm_eq]
  have hsched := s.sched_setSched p ((s.sched p).armed (s.myPart p).power)
  have hbuild : (s.setSched p ((s.sched p).armed (s.myPart p).power)).build = s.build := rfl
  have hset := s.setSched_onlyJob p ((s.sched p).armed (s.myPart p).power)
  generalize s.setSched p ((s.sched p).armed (s.myPart p).power) = t at hsched hbuild hset ⊢
  have hpin := t.pinAll_onlyEngines (s.sched p).engines (s.sched p).header.clockMhz
  have hpinned := fun e he hlt => t.pinAll_pinned (s.sched p).header.clockMhz (es := (s.sched p).engines) (e := e) he hlt
  generalize t.pinAll (s.sched p).engines (s.sched p).header.clockMhz = u at hpin hpinned ⊢
  have hvote := u.voteIfPinned_announces p
  refine ⟨(hset.trans hpin.onlyJob).trans hvote.onlyJob, ?_, fun e he hlt => ?_⟩
  · have hvoted := hvote.scheds p
    rwa [hpin.sched, hsched] at hvoted
  · have hengines : (u.voteIfPinned p).engines = u.engines := (congrArg State.engines hvote.frame :)
    rw [State.engine, hengines]
    exact hpinned e he (hbuild ▸ hlt)

theorem State.runStart_wrongState {s : State} {p : Nat} (h : (s.sched p).state ≠ 1) : s.runStart p = s.sxDone p 2 := if_pos h

section
variable {s : State} {p : Nat} (h : (s.sched p).state = 1)
include h

theorem State.runStart_refused (hiter : (s.sched p).iterations ≠ 0) (hcode : s.armCode p ≠ 0) :
    s.runStart p = s.sxDone p (s.armCode p) :=
  (if_neg (not_not.mpr h)).trans ((if_neg hiter).trans (if_pos hcode))

theorem State.runStart_arms (hiter : (s.sched p).iterations ≠ 0) (hcode : s.armCode p = 0) : s.runStart p = s.arm p :=
  (if_neg (not_not.mpr h)).trans ((if_neg hiter).trans (if_neg (not_not.mpr hcode)))

theorem State.runStart_empty (hiter : (s.sched p).iterations = 0) :
    s.runStart p = ((s.signalEnd p 0).setSched p { s.sched p with state := 7 }).sxDone p 0 :=
  (if_neg (not_not.mpr h)).trans (if_pos hiter)

end

theorem State.signalEnd_some {s : State} {p : Nat} {e : ImgHub} (h : s.endEntry p = some e) (hne : e.endFence ≠ 0) (code : Nat) :
    s.signalEnd p code = { s with fenceWire := s.fenceWire ++ [⟨e.endFence, code⟩] } := by
  simp only [State.signalEnd, h]
  exact s.sendSignal_fenceWire_of_ne hne code

theorem State.endEntry_sxBegun (s : State) (p op : Nat) (tag : BitVec 16) : (s.sxBegun p op tag).endEntry p = s.endEntry p := by
  simp only [State.endEntry, State.sched_sxBegun]
  rfl

/-! ### SUSPEND, RESUME, UNLOAD (R636, R640) -/

theorem State.runSuspend_wrongState {s : State} {p : Nat} (h : (s.sched p).state ≠ 3) : s.runSuspend p = s.sxDone p 2 := if_pos h

theorem State.runSuspend_running {s : State} {p : Nat} (h : (s.sched p).state = 3) :
    s.runSuspend p = (s.setSched p { s.sched p with state := 5, suspendAsked := true }).sxDone p 0 := if_neg (not_not.mpr h)

theorem State.runResume_wrongState {s : State} {p : Nat} (h : (s.sched p).state ≠ 6) : s.runResume p = s.sxDone p 2 := if_pos h

theorem State.runResume_arms {s : State} {p : Nat} (h : (s.sched p).state = 6) (hcode : s.admitCode p = 0) (harm : s.armCode p = 0) :
    s.runResume p = (s.bindAlt p 0).arm p :=
  (if_neg (not_not.mpr h)).trans ((if_neg (not_not.mpr hcode)).trans (if_neg (not_not.mpr harm)))

theorem State.runUnload_wrongState {s : State} {p : Nat} (h1 : (s.sched p).state ≠ 1) (h7 : (s.sched p).state ≠ 7)
    (h8 : (s.sched p).state ≠ 8) : s.runUnload p = s.sxDone p 2 := if_pos ⟨h1, h7, h8⟩

/-- A schedule that has been unloaded. -/
def Sched.unloaded (x : Sched) : Sched :=
  { x with state := 0, image := [], logs := [], ckpts := [], engines := [], foreign := [], ways := [] }

theorem State.runUnload_loaded {s : State} {p : Nat} (h : (s.sched p).state = 1 ∨ (s.sched p).state = 7 ∨ (s.sched p).state = 8) :
    s.OnlyJob (s.runUnload p) ∧
    (s.runUnload p).sched p = Sched.completed ({ s.sched p with slots := [], pages := [] } : Sched).unloaded 0 := by
  obtain ⟨fps, fab, hrelease⟩ := s.schedRelease_spec p
  have hrun : s.runUnload p = (((s.schedRelease p).dropAllots p).setSched p
      (((s.schedRelease p).dropAllots p).sched p).unloaded).sxDone p 0 := if_neg (by omega)
  have hreleased : s.OnlyJob (s.schedRelease p) := by rw [hrelease]; rfl
  have hsched : (s.schedRelease p).sched p = { s.sched p with slots := [], pages := [] } := by
    rw [hrelease]
    exact s.sched_setSched p _
  have hdrop := (s.schedRelease p).dropAllots_onlyEngines p
  rw [hrun, hdrop.sched, hsched]
  generalize (s.schedRelease p).dropAllots p = t at hdrop ⊢
  refine ⟨((hreleased.trans hdrop.onlyJob).trans (t.setSched_onlyJob p _)).trans (State.sxDone_onlyJob _ p 0), ?_⟩
  rw [(State.sxDone_spec _ p 0).2, State.sched_setSched]

/-! ### The start is agreed or refused (R638) -/

/-- A schedule that runs from a start beat on. -/
def Sched.started (x : Sched) (b : Nat) : Sched :=
  { x with state := 3, origin := b - x.afterBoundary x.epoch, votes := [], replayTo := 0 }

/-- A committed start under the alternative in force begins the schedule. -/
theorem State.startCommitted_here {s : State} {p : Nat} (h : (s.myHubEntry (s.sched p).image (s.sched p).alt).isSome = true) (b : Nat) :
    s.OnlyJob (s.startCommitted p (s.sched p).alt b) ∧
    (s.startCommitted p (s.sched p).alt b).sched p = ((s.sched p).started b).completed 0 := by
  have hstart : s.startCommitted p (s.sched p).alt b = ((s.setSched p ((s.sched p).started b)).restoreAllots p).sxDone p 0 := by
    simp only [State.startCommitted, Option.isNone_eq_false_iff.mpr h, Bool.false_eq_true, if_false, if_true]
    rfl
  have hrestore := (s.setSched p ((s.sched p).started b)).restoreAllots_onlyEngines p
  rw [hstart]
  refine ⟨((s.setSched_onlyJob p _).trans hrestore.onlyJob).trans (State.sxDone_onlyJob _ p 0), ?_⟩
  rw [(State.sxDone_spec _ p 0).2, hrestore.sched, State.sched_setSched]

/-- A refused start ends the command, and the schedule is as it was admitted. -/
theorem State.startRefused_spec (s : State) (p : Nat) : s.OnlyStopped (s.startRefused p) ∧
    (s.startRefused p).sched p = ({ (s.sched p).stopped with state := 1, alt := 0 } : Sched).completed 5 := by
  obtain ⟨hstop, hstopped⟩ := s.schedStop_spec p
  unfold State.startRefused
  extract_lets t
  have ht : t.sched p = (s.sched p).stopped := hstopped
  generalize hx : ({ t.sched p with state := 1, alt := 0 } : Sched) = x
  obtain ⟨hend, hsched⟩ := (t.setSched p x).sxDone_spec p 5
  rw [State.sched_setSched] at hend hsched
  refine ⟨(hstop.trans (t.setSched_onlyStopped p x)).trans ((State.setSched_onlyStopped _ p _).trans hend.onlyStopped), ?_⟩
  rw [hsched, ← hx, ht]

section
variable {s : State} {p : Nat} (hup : s.up = true) (hstate : (s.sched p).state = 2) (hleads : s.leads p = true)
include hup hstate hleads

/-- The leader starts the schedule when every hub of alternative 0 agrees. -/
theorem exec_startDecision_commit (hvotes : ∀ h ∈ imgHubs (s.sched p).image 0, ∃ v ∈ (s.sched p).votes,
    v.hub = h.hubId ∧ v.epoch = 0 ∧ v.healthy = true ∧ v.digest = manifestDigest (s.manifest (s.sched p).digest 0 (s.sched p).alt)) :
    exec (.startDecision p) s =
      .next ((s.sendCommit p 0 (s.sched p).startBeat 1 0).startCommitted p 0 (s.sched p).startBeat) := by
  refine congrArg Host.Outcome.next ((State.work_of_up hup _).trans ((if_neg (by simp [hstate, hleads])).trans ?_))
  extract_lets own yes all choice
  have hall : all 0 = true := by
    refine List.all_eq_true.mpr fun h hh => ?_
    obtain ⟨v, hv, hhub, hepoch, hhealthy, hdigest⟩ := hvotes h hh
    rw [List.contains_iff_mem, List.mem_map]
    exact ⟨v, List.mem_filter.mpr ⟨hv, by simp [hepoch, hhealthy, hdigest, own]⟩, hhub⟩
  have hchoice : choice = some 0 := if_pos hall
  simp only [hchoice]

/-- Without a vote, and with no alternative but the first, the leader refuses the start. -/
theorem exec_startDecision_refuse (hvotes : (s.sched p).votes = []) (halts : (s.sched p).header.altCount = 1)
    (hhubs : imgHubs (s.sched p).image 0 ≠ []) : exec (.startDecision p) s =
      .next ((s.sendCommit p 0 (s.sched p).startBeat 2 (s.sched p).alt).startRefused p) := by
  refine congrArg Host.Outcome.next ((State.work_of_up hup _).trans ((if_neg (by simp [hstate, hleads])).trans ?_))
  extract_lets own yes all choice
  have hyes : yes = [] := by simp [yes, hvotes]
  have hall : all 0 = false := by
    obtain ⟨h, hs, hcons⟩ := List.exists_cons_of_ne_nil hhubs
    simp [all, hyes, hcons]
  have hchoice : choice = none := by
    simp [choice, hall, halts]
  simp only [hchoice]

end

theorem exec_startBeatTimeout {s : State} {p : Nat} (hup : s.up = true) (hstate : (s.sched p).state = 2) :
    exec (.startBeatTimeout p) s = .next (s.startRefused p) :=
  congrArg Host.Outcome.next ((State.work_of_up hup _).trans (if_pos hstate))

/-! ### Votes and commits arrive (R638, R645, Table 13-10) -/

theorem State.hearsJob_iff {s : State} {port p kind : Nat} {m : OfpMsg} (h : s.hearsJob port p kind m = true) :
    s.hears port m 5 = true ∧ (s.takeInbox port m).jobOf m = some p ∧ xferKind m = kind := by
  simp only [State.hearsJob, Bool.and_eq_true, beq_iff_eq] at h
  obtain ⟨⟨hhears, hjob⟩, hkind⟩ := h
  exact ⟨hhears, hjob, hkind⟩

theorem exec_schedVote_armed {s : State} {port p : Nat} {m : OfpMsg} (h : s.hearsJob port p 1 m = true) (hleads : s.leads p = true)
    (hstate : (s.sched p).state = 2) : exec (.schedVote port m) s = .next ((s.takeInbox port m).setSched p { s.sched p with
      votes := ⟨m.srcHub.toNat, m.f10.toNat, m.data.take 48, m.data.getD 48 0 = 1⟩ ::
        (s.sched p).votes.filter fun w => !(w.hub = m.srcHub.toNat && w.epoch = m.f10.toNat) }) := by
  obtain ⟨hhears, hjob, hkind⟩ := State.hearsJob_iff h
  refine congrArg Host.Outcome.next ((State.work_receive_of_hears hhears _).trans ?_)
  have hheard : ¬(xferKind m ≠ 1 ∨ (s.takeInbox port m).leads p = false) :=
    not_or.mpr ⟨not_not.mpr hkind, ne_false_of_eq_true hleads⟩
  have hnotRunning : ¬(((s.takeInbox port m).sched p).state = 3 ∨ ((s.takeInbox port m).sched p).state = 5) := by
    have htaken : ((s.takeInbox port m).sched p).state = 2 := hstate
    omega
  simp only [hjob]
  exact (if_neg hheard).trans (if_neg hnotRunning)

section
variable {s : State} {port p : Nat} {m : OfpMsg} (h : s.hearsJob port p 2 m = true) (hleader : m.srcHub.toNat = s.jobLeader p)
include h hleader

/-- What the leader's COMMIT does while the schedule is armed. -/
theorem exec_schedCommit_armed (hstate : (s.sched p).state = 2) : exec (.schedCommit port m) s = .next
    (if m.data.getD 8 0 = 1 then (s.takeInbox port m).startCommitted p (fld m.f18.toNat 55 48) (leAt m.data 0 8)
      else (s.takeInbox port m).startRefused p) := by
  obtain ⟨hhears, hjob, hkind⟩ := State.hearsJob_iff h
  refine congrArg Host.Outcome.next ((State.work_receive_of_hears hhears _).trans ?_)
  have hheard : ¬(xferKind m ≠ 2 ∨ m.srcHub.toNat ≠ (s.takeInbox port m).jobLeader p) :=
    not_or.mpr ⟨not_not.mpr hkind, not_not.mpr hleader⟩
  simp only [hjob]
  exact (if_neg hheard).trans (if_pos hstate)

/-- The leader's COMMIT of the boundary voted on. -/
theorem exec_schedCommit_boundary (hstate : (s.sched p).state = 3) (hvoting : (s.sched p).voting = some m.f10.toNat)
    (hverdict : m.data.getD 8 0 = 1) :
    exec (.schedCommit port m) s = .next ((s.takeInbox port m).commitBoundary p m.f10.toNat) := by
  obtain ⟨hhears, hjob, hkind⟩ := State.hearsJob_iff h
  refine congrArg Host.Outcome.next ((State.work_receive_of_hears hhears _).trans ?_)
  have hheard : ¬(xferKind m ≠ 2 ∨ m.srcHub.toNat ≠ (s.takeInbox port m).jobLeader p) :=
    not_or.mpr ⟨not_not.mpr hkind, not_not.mpr hleader⟩
  have harmed : ¬((s.takeInbox port m).sched p).state = 2 := by
    have htaken : ((s.takeInbox port m).sched p).state = 3 := hstate
    omega
  simp only [hjob]
  exact (if_neg hheard).trans ((if_neg harmed).trans (if_pos ⟨Or.inl hstate, hvoting, hverdict⟩))

end

/-- Settles O56: a block that is free carries its command out on the state in which it has begun (`State.sxBegun`), by the row
of its state; `State.bindAlt_spec` and `State.arm_spec` say what admission and arming leave unchanged. -/
theorem scheduleCommands : Obligations.ScheduleCommands := by
  unfold Obligations.ScheduleCommands
  refine ⟨?done, ?busy, ?wrongState, ?unknownOp, ?refused, ?admitted, ?badCtx, ?start, ?empty, ?suspend, ?resume, ?unload,
    ?commit, ?refuse, ?committed, ?startRefused, ?timeout, ?vote, ?startCommit, ?boundaryCommit⟩
  case done =>
    intro s p code
    have honly := s.sxDone_onlyJob p code
    exact ⟨_, rfl, (s.sxDone_spec p code).2, honly.mem, honly.units, s.sxDone_ctxs p code, s.sxDone_engines p code, honly.fenceWire⟩
  case busy =>
    intro s p tag hd hfw hp hbusy
    exact ⟨congrArg Host.Outcome.next (State.sxCommand_busy hd hfw hp hbusy 2 tag),
      congrArg Host.Outcome.next (State.sxCommand_busy hd hfw hp hbusy 5 tag)⟩
  case wrongState =>
    intro s p tag h
    have hstate (op : Nat) : ((s.sxBegun p op tag).sched p).state = (s.sched p).state := by
      rw [s.sched_sxBegun]
      rfl
    refine ⟨fun hne hturn => ?_, fun hne => ?_, fun hne => ?_, fun hne => ?_, fun h1 h7 h8 => ?_⟩
    · rw [exec_sxAdmit h tag hturn, State.runAdmit_wrongState (by rwa [hstate])]
    · rw [exec_sxStart h, State.runStart_wrongState (by rwa [hstate])]
    · rw [exec_sxSuspend h, State.runSuspend_wrongState (by rwa [hstate])]
    · rw [exec_sxResume h, State.runResume_wrongState (by rwa [hstate])]
    · rw [exec_sxUnload h, State.runUnload_wrongState (by rwa [hstate]) (by rwa [hstate]) (by rwa [hstate])]
  case unknownOp => exact fun s p tag op h hop => exec_sxUnknownOp h tag hop
  case refused =>
    intro s p tag h hturn hstate hcode
    rw [exec_sxAdmit h tag hturn, State.runAdmit_refused (by rw [s.sched_sxBegun]; exact hstate) hcode]
  case admitted =>
    intro s p tag h hturn hstate hcode
    obtain ⟨honly, hadmitted⟩ := State.runAdmit_admitted (by rw [s.sched_sxBegun]; exact hstate) hcode
    rw [s.sched_sxBegun] at hadmitted
    exact ⟨_, exec_sxAdmit h tag hturn, hadmitted.state, hadmitted.code, hadmitted.busy, hadmitted.ctx, hadmitted.alt,
      honly.mem, honly.units, honly.objs, honly.fenceWire⟩
  case badCtx => exact fun s p hctx => State.admitCode_badCtx hctx
  case start =>
    intro s p tag h hstate hiter
    have hbegun := s.sched_sxBegun p 2 tag
    have hstate' : ((s.sxBegun p 2 tag).sched p).state = 1 := by rw [hbegun]; exact hstate
    have hiter' : ((s.sxBegun p 2 tag).sched p).iterations ≠ 0 := by rw [hbegun]; exact hiter
    refine ⟨fun hlate => ?_, fun hready hmulti hthyme => ?_, fun hready hthyme => ?_⟩
    · have hcode : (s.sxBegun p 2 tag).armCode p = 6 := State.armCode_late (by rw [hbegun]; exact hlate)
      rw [exec_sxStart h, State.runStart_refused hstate' hiter' (by rw [hcode]; decide), hcode]
    · have hcode : (s.sxBegun p 2 tag).armCode p = 5 :=
        State.armCode_noTime (by rw [hbegun]; exact hready) (by rw [hbegun]; exact hmulti) hthyme
      rw [exec_sxStart h, State.runStart_refused hstate' hiter' (by rw [hcode]; decide), hcode]
    · have hcode : (s.sxBegun p 2 tag).armCode p = 0 :=
        State.armCode_ready (by rw [hbegun]; exact hready) (by rw [hbegun]; exact hthyme)
      obtain ⟨honly, hvoted, hpinned⟩ := (s.sxBegun p 2 tag).arm_spec p
      rw [hbegun] at hvoted hpinned
      refine ⟨_, (exec_sxStart h tag).trans (congrArg Host.Outcome.next (State.runStart_arms hstate' hiter' hcode)),
        ?_, ?_, hpinned, honly.mem, honly.units⟩
      · rw [hvoted]; rfl
      · rw [hvoted]; rfl
  case empty =>
    intro s p tag e h hstate hiter hentry hne
    have hbegun := s.sched_sxBegun p 2 tag
    have hend := State.signalEnd_some ((s.endEntry_sxBegun p 2 tag).trans hentry) hne 0
    have hrun := State.runStart_empty (s := s.sxBegun p 2 tag) (p := p) (by rw [hbegun]; exact hstate) (by rw [hbegun]; exact hiter)
    rw [hend] at hrun
    refine ⟨_, (exec_sxStart h tag).trans (congrArg Host.Outcome.next hrun), ?_⟩
    have honly := State.sxDone_onlyJob (State.setSched { s.sxBegun p 2 tag with
      fenceWire := (s.sxBegun p 2 tag).fenceWire ++ [⟨e.endFence, 0⟩] } p { (s.sxBegun p 2 tag).sched p with state := 7 }) p 0
    rw [(State.sxDone_spec _ p 0).2, State.sched_setSched]
    exact ⟨rfl, rfl, rfl, honly.fenceWire, honly.mem⟩
  case suspend =>
    intro s p tag h hstate
    have hbegun := s.sched_sxBegun p 3 tag
    have hrun := State.runSuspend_running (s := s.sxBegun p 3 tag) (p := p) (by rw [hbegun]; exact hstate)
    refine ⟨_, (exec_sxSuspend h tag).trans (congrArg Host.Outcome.next hrun), ?_⟩
    rw [(State.sxDone_spec _ p 0).2, State.sched_setSched]
    exact ⟨rfl, rfl, rfl, rfl, (State.sxDone_onlyJob _ p 0).mem, State.sxDone_engines _ p 0⟩
  case resume =>
    intro s p tag h hstate hcode hready hthyme
    have hbegun := s.sched_sxBegun p 4 tag
    have harm : (s.sxBegun p 4 tag).armCode p = 0 :=
      State.armCode_ready (by rw [hbegun]; exact hready) (by rw [hbegun]; exact hthyme)
    obtain ⟨hbound, hbind⟩ := (s.sxBegun p 4 tag).bindAlt_spec p 0
    obtain ⟨honly, hvoted, -⟩ := ((s.sxBegun p 4 tag).bindAlt p 0).arm_spec p
    refine ⟨_, (exec_sxResume h tag).trans (congrArg Host.Outcome.next
      (State.runResume_arms (by rw [hbegun]; exact hstate) hcode harm)), ?_, ?_, (hbound.trans honly).mem, (hbound.trans honly).units⟩
    · rw [hvoted]; rfl
    · rw [hvoted, hbind, hbegun]; rfl
  case unload =>
    intro s p tag h hstate
    obtain ⟨honly, hsched⟩ := State.runUnload_loaded (s := s.sxBegun p 5 tag) (p := p) (by rw [s.sched_sxBegun]; exact hstate)
    refine ⟨_, exec_sxUnload h tag, ?_⟩
    rw [hsched]
    exact ⟨rfl, rfl, rfl, rfl, rfl, rfl, honly.mem, honly.units⟩
  case commit => exact fun s p hup hstate hleads hvotes => exec_startDecision_commit hup hstate hleads hvotes
  case refuse => exact fun s p hup hstate hleads hvotes halts hhubs => exec_startDecision_refuse hup hstate hleads hvotes halts hhubs
  case committed =>
    intro s p b hentry
    obtain ⟨honly, hsched⟩ := State.startCommitted_here hentry b
    refine ⟨_, rfl, ?_⟩
    rw [hsched]
    exact ⟨rfl, rfl, rfl, rfl, honly.mem, honly.units, honly.fenceWire⟩
  case startRefused =>
    intro s p
    obtain ⟨honly, hsched⟩ := s.startRefused_spec p
    refine ⟨_, rfl, ?_⟩
    rw [hsched]
    exact ⟨rfl, rfl, rfl, honly.mem, honly.fenceWire⟩
  case timeout => exact fun s p hup hstate => exec_startBeatTimeout hup hstate
  case vote => exact fun s port p m h hleads hstate => exec_schedVote_armed h hleads hstate
  case startCommit =>
    intro s port p m h hleader hstate
    refine ⟨fun hverdict => ?_, fun hverdict => ?_⟩
    · rw [exec_schedCommit_armed h hleader hstate, if_pos hverdict]
    · rw [exec_schedCommit_armed h hleader hstate, if_neg hverdict]
  case boundaryCommit =>
    exact fun s port p m h hleader hstate hvoting hverdict => exec_schedCommit_boundary h hleader hstate hvoting hverdict

end Sys2Proof.Machine
end

section
/-! A running schedule (chapter 13: R627, R630, R633, R634, R640, R644 to R650, Table 13-14). -/

namespace Sys2Proof.Machine

/-! ### Steps (R630, R633) -/

theorem State.sched_stepRuns (s : State) (p k : Nat) (t : ImgStep) : (s.stepRuns p k t).sched p =
    { s.sched p with running := (s.sched p).running ++ [{ step := k, deadline := s.beat + t.deadline, fence := t.fence }] } :=
  s.sched_setSched p _

section
variable {s : State} {p k : Nat} {t : ImgStep} (hup : s.up = true) (hruns : (s.sched p).state = 3 ∨ (s.sched p).state = 5)
  (hstep : (s.myPart p).steps[k]? = some t) (hfresh : ∀ r ∈ (s.sched p).running, r.step ≠ k)
include hup hruns hstep hfresh

/-- A step that is due and not running is listed as running, and then dispatched by its kind. -/
theorem exec_beatStepDispatch : exec (.beatStepDispatch p k) s = .next
    (if (s.ctx (s.sched p).ctx).state ≠ .live then (s.stepRuns p k t).stepEnds p k 0x0A
      else if t.kind = 3 then (s.stepRuns p k t).copyStep p k t
      else (s.stepRuns p k t).launchStep p k t) := by
  have hgo : ¬(((s.sched p).state ≠ 3 ∧ (s.sched p).state ≠ 5) ∨
      ((s.sched p).running.any fun r => decide (r.step = k)) = true) := by
    simp only [List.any_eq_true, decide_eq_true_eq, not_or, not_exists, not_and]
    exact ⟨fun h3 h5 => hruns.elim h3 h5, hfresh⟩
  refine congrArg Host.Outcome.next ((State.work_of_up hup _).trans ?_)
  simp only [hstep]
  exact if_neg hgo

end

/-- The only step that runs ends: it leaves the list, and its FENCE is signalled. -/
theorem State.stepEnds_only {s : State} {p k : Nat} {r : StepRun} (hrunning : (s.sched p).running = [r]) (hstep : r.step = k)
    (hxfer : r.isXfer = false) (hcode : r.code = 0) (hfence : r.fence ≠ 0) (code : Nat) : s.stepEnds p k code =
      { s.setSched p { s.sched p with running := [] } with fenceWire := s.fenceWire ++ [⟨r.fence, code⟩] } := by
  have hfind : [r].find? (fun r => decide (r.step = k) && !r.isXfer) = some r := by simp [hstep, hxfer]
  have hfilter : [r].filter (fun q => q.step != k || q.isXfer) = [] := by simp [hstep, hxfer]
  simp only [State.stepEnds, hrunning, hfind, hfilter, if_pos hcode]
  exact State.sendSignal_fenceWire_of_ne _ hfence code

theorem State.jobViol_none (s : State) (c : Nat) {v : Viol} (h : v.lines = 0) : s.jobViol c v = s := if_pos h

section
variable {s s1 s2 : State} {p u : Nat} {t : ImgStep} {a b : ReadRes} {d : Desc} {h : LaunchHeader}
  (hread : s.jobRead (s.sched p).ctx t.va 64 = a) (hstop : a.stop = none) (hviol : a.viol.lines = 0)
  (hcharge : s.jobCharge p (s.sched p).ctx a.dev a.host = s1) (hlive : (s1.ctx (s.sched p).ctx).state = .live)
  (hheader : LaunchHeader.ofBytes a.bytes = h) (hok : h.ok s1.build.arrays = true)
  (hreadC : s1.jobRead (s.sched p).ctx (h.constVa t.va) h.constLen = b) (hstopC : b.stop = none) (hviolC : b.viol.lines = 0)
  (hchargeC : s1.jobCharge p (s.sched p).ctx b.dev b.host = s2) (hliveC : (s2.ctx (s.sched p).ctx).state = .live)
  (hdesc : h.desc b.bytes = d)
include hread hstop hviol hcharge hlive hheader hok hreadC hstopC hviolC hchargeC hliveC hdesc

/-- A launch step whose header and constant buffer have been read and charged, and are good, goes by its number of
workgroups and its arrays. -/
theorem State.launchStep_read (k : Nat) : (d.workgroups = 0 → s.launchStep p k t = s2.stepEnds p k 0) ∧
    (1 < d.workgroups → s.launchStep p k t = s2.badStep p k t.va) ∧
    (d.workgroups = 1 → t.kind = 1 →
      ((s.myPart p).units.find? fun x => x.type = 1 && x.index = t.unit).map (·.amount) = some u → d.arrays ≤ u →
      s.launchStep p k t = s2.startStep p k t d) := by
  simp only [State.launchStep, hread, hcharge, State.jobViol_none _ _ hviol, hstop, Option.isSome_none, Bool.false_eq_true, if_false,
    hlive, ne_eq, not_true_eq_false, hheader, hok, Bool.not_true, hreadC, hchargeC, State.jobViol_none _ _ hviolC, hstopC, hliveC, hdesc]
  refine ⟨fun hnone => if_pos hnone, fun hmany => ?_, fun hone hkind hunit harrays => ?_⟩
  · exact (if_neg (by omega)).trans (if_pos hmany)
  · rw [if_neg (by omega), if_neg (by omega), if_pos hkind]
    refine if_neg ?_
    rw [hkind, hunit]
    exact Nat.not_lt.mpr harrays

end

/-! ### Transfers (R634) -/

/-- A transfer of at most 64 lines goes out as one message. -/
theorem exec_beatXferStart {s : State} {p k : Nat} {t : ImgXfer} {a : ReadRes} (hup : s.up = true)
    (hruns : (s.sched p).state = 3 ∨ (s.sched p).state = 5) (hxfer : (s.myPart p).xfers[k]? = some t) (hkind : t.kind = 0)
    (hlive : (s.ctx (s.sched p).ctx).state = .live) (hone : 1 ≤ t.lines) (hlines : t.lines ≤ 64)
    (hread : s.jobRead (s.sched p).ctx t.srcVa (64 * t.lines) = a) (hstop : a.stop = none) (hviol : a.viol.lines = 0) :
    exec (.beatXferStart p k) s = .next ((s.jobCharge p (s.sched p).ctx a.dev a.host).schedSend p
      ((s.jobCharge p (s.sched p).ctx a.dev a.host).schedMsg p t 0 ((s.sched p).epochAt s.now) t.dstVa k 0 t.lines
        (a.bytes.take 4096))) := by
  have hmessages : List.range ((t.lines + 63) / 64) = [0] := by
    rw [show (t.lines + 63) / 64 = 1 by omega]
    rfl
  refine congrArg Host.Outcome.next ((State.work_of_up hup _).trans ?_)
  simp only [hxfer]
  refine (if_pos ⟨hruns, hkind, hlive⟩).trans ?_
  simp only [State.startXfer, hread, State.jobViol_none _ _ hviol, hstop, Option.isSome_none, Bool.false_eq_true, if_false, hmessages,
    List.foldl_cons, List.foldl_nil, Nat.mul_zero, List.drop_zero]

/-- One whole line is written at once, and counted as device or host bytes. -/
theorem State.schedWrite_line {s u : State} {c va : Nat} {bs : List Byte} {host : Bool} (hva : va % 64 = 0) (hlen : bs.length = 64)
    (hwrite : s.writeJob ⟨c, 5, ⟨0, 0⟩, []⟩ (List.range 16) va bs = .done u host) :
    s.schedWrite c va bs = (u, {}, if host then 0 else 64, if host then 64 else 0) := by
  have hline : lineList va bs.length = [(va, 64)] := by
    rw [hlen]
    exact lineList_single (by decide) (by omega)
  have htake : (bs.drop (va - va)).take 64 = bs := by
    rw [Nat.sub_self, List.drop_zero]
    exact List.take_of_length_le (by omega)
  simp only [State.schedWrite, hline, List.foldl_cons, List.foldl_nil, htake, hwrite, Nat.zero_add]

theorem State.jobCharge_onlySent (s : State) (p c dev host : Nat) : s.OnlySent (s.jobCharge p c dev host) := by
  unfold State.jobCharge
  split
  · exact .refl s
  · obtain ⟨ctxs, hcharge⟩ := s.chargeBytes_onlyCtxs c dev host
    rw [hcharge]
    rfl

/-- A line of a transfer that arrives is written for the job context, and charged. -/
theorem exec_schedXferData_line {s u : State} {port p va : Nat} {m : OfpMsg} {host : Bool} (h : s.hearsJob port p 0 m = true)
    (hruns : (s.sched p).state = 3 ∨ (s.sched p).state = 5) (hva : fld m.f18.toNat 47 0 + 64 * fld m.f20.toNat 31 0 = va)
    (hline : va % 64 = 0) (hlen : m.data.length = 64)
    (hwrite : (s.takeInbox port m).writeJob ⟨(s.sched p).ctx, 5, ⟨0, 0⟩, []⟩ (List.range 16) va m.data = .done u host) :
    exec (.schedXferData port m) s = .next ((if u.rerun p then u else u.chargeFabric m).jobCharge p (s.sched p).ctx
      (if host then 0 else 64) (if host then 64 else 0)) := by
  obtain ⟨hhears, hjob, hkind⟩ := State.hearsJob_iff h
  have hheard : ¬(xferKind m ≠ 0 ∨ ((s.takeInbox port m).sched p).state ≠ 3 ∧ ((s.takeInbox port m).sched p).state ≠ 5) := by
    rintro (hne | ⟨h3, h5⟩)
    · exact hne hkind
    · exact hruns.elim h3 h5
  have hwritten : (s.takeInbox port m).schedWrite ((s.takeInbox port m).sched p).ctx
      (fld m.f18.toNat 47 0 + 64 * fld m.f20.toNat 31 0) m.data = (u, {}, if host then 0 else 64, if host then 64 else 0) := by
    rw [hva]
    exact State.schedWrite_line hline hlen hwrite
  refine congrArg Host.Outcome.next ((State.work_receive_of_hears hhears _).trans ?_)
  simp only [hjob, if_neg hheard, hwritten]
  exact State.jobViol_none _ _ rfl

/-! ### Overruns and epochs (R627, R644, R645) -/

theorem exec_overrun_late {s : State} {p : Nat} {r : StepRun} (hup : s.up = true)
    (hruns : (s.sched p).state = 3 ∨ (s.sched p).state = 5) (hr : r ∈ (s.sched p).running) (hlate : r.deadline ≤ s.beat) :
    exec (.overrun p) s = .next ((s.setSched p { s.sched p with trigger := true }).sageFail 0x282 5) := by
  have hany : ((s.sched p).running.any fun r => decide (r.deadline ≤ s.beat)) = true :=
    List.any_eq_true.mpr ⟨r, hr, decide_eq_true hlate⟩
  exact congrArg Host.Outcome.next ((State.work_of_up hup _).trans (if_pos ⟨hruns, by rw [hany]; rfl⟩))

theorem exec_overrun_inTime {s : State} {p : Nat} (hrunning : ∀ r ∈ (s.sched p).running, s.beat < r.deadline)
    (hsaving : (s.sched p).saving = none) : exec (.overrun p) s = .next s := by
  have hany : ((s.sched p).running.any fun r => decide (r.deadline ≤ s.beat)) = false := by
    simpa using hrunning
  refine congrArg Host.Outcome.next ((congrArg s.work (if_neg ?_)).trans s.work_same)
  simp [hany, hsaving]

theorem exec_epochBoundary {s : State} {p : Nat} (hup : s.up = true) (hruns : (s.sched p).state = 3 ∨ (s.sched p).state = 5)
    (hnew : (s.sched p).epoch < (s.sched p).epochAt s.now) : exec (.epochBoundary p) s = .next (s.setSched p { s.sched p with
      saving := some ((s.sched p).epochAt s.now), passes := (s.sched p).passesAt s.beat }) :=
  congrArg Host.Outcome.next ((State.work_of_up hup _).trans (if_pos ⟨hruns, hnew⟩))

theorem exec_saveWindowEnd {s : State} {p e : Nat} (hup : s.up = true) (hsaving : (s.sched p).saving = some e) :
    exec (.saveWindowEnd p) s = .next (((s.setSched p { s.sched p with
      saving := none, voting := some e, ckpts := (s.sched p).ckpts.filter (fun c => c.epoch = (s.sched p).epoch) ++
        [⟨e, (s.sched p).engines.zipIdx.map fun r => (r.2, s.allotBytes (s.sched p).ctx r.1)⟩] }).castVote p e).leaderCheck p) := by
  refine congrArg Host.Outcome.next ((State.work_of_up hup _).trans ?_)
  simp only [hsaving]

/-- The only hub of a job agrees with itself: the boundary is committed. -/
theorem State.leaderCheck_alone {s : State} {p e : Nat} (hleads : s.leads p = true) (hhubs : s.jobHubs p = [s.myHub])
    (hvoting : (s.sched p).voting = some e)
    (hvotes : (s.sched p).votes = [⟨s.myHub, e, manifestDigest (s.manifest (s.sched p).digest e (s.sched p).alt), true⟩]) :
    s.leaderCheck p = (s.sendCommit p e (s.sched p).origin 1 (s.sched p).alt).commitBoundary p e := by
  simp [State.leaderCheck, hvoting, hvotes, hhubs, hleads, standing]

/-- A schedule whose boundary `e` is committed. -/
def Sched.committed (x : Sched) (e : Nat) : Sched :=
  { x with epoch := e, voting := none, votes := x.votes.filter (fun v => v.epoch > e),
           ckpts := x.ckpts.filter (fun c => c.epoch = e), logs := x.logs.filter fun b => e ≤ b.epoch }

theorem State.commitBoundary_eq (s : State) (p e : Nat) : s.commitBoundary p e =
    if (s.sched p).state = 5 then (s.setSched p ((s.sched p).committed e)).schedSuspend p
    else s.setSched p ((s.sched p).committed e) := rfl

/-- A schedule that has been suspended. -/
def Sched.suspended (x : Sched) : Sched := { x.stopped with state := 6, alt := 0, afterSuspend := false, noRemedy := false }

theorem State.schedSuspend_spec (s : State) (p : Nat) :
    (s.schedSuspend p).mem = s.mem ∧ (s.schedSuspend p).sched p = (s.sched p).suspended := by
  obtain ⟨hstop, hstopped⟩ := s.schedStop_spec p
  have hdrop := (s.schedStop p).dropAllots_onlyEngines p
  unfold State.schedSuspend
  extract_lets t
  have ht : (s.schedStop p).OnlyEngines t := hdrop
  refine ⟨ht.onlyJob.mem.trans hstop.mem, ?_⟩
  exact (t.sched_setSched p _).trans (congrArg (fun x : Sched =>
    { x with state := 6, alt := 0, afterSuspend := false, noRemedy := false }) ((ht.sched p).trans hstopped))

/-! ### Rollback (R648 to R652) -/

/-- The leader gives up a hub whose vote has not come. -/
theorem exec_voteWindowTimeout {s : State} {p e h : Nat} (hup : s.up = true) (hvoting : (s.sched p).voting = some e)
    (hleads : s.leads p = true) (hjob : h ∈ s.jobHubs p) (hnoVote : ∀ v ∈ (s.sched p).votes, v.hub ≠ h ∨ v.epoch ≠ e) :
    ∃ hubs, h ∈ hubs ∧ exec (.voteWindowTimeout p) s = .next (s.expel p hubs) := by
  refine ⟨(s.jobHubs p).filter fun h => !(s.sched p).votes.any fun v => v.hub = h && v.epoch = e,
    List.mem_filter.mpr ⟨hjob, ?_⟩, congrArg Host.Outcome.next ((State.work_of_up hup _).trans ?_)⟩
  · simpa [imp_iff_not_or] using hnoVote
  · simp only [hvoting, hleads, Bool.true_eq_false, if_false]

/-- A schedule that has expelled hubs (R656). -/
def Sched.expellingAll (x : Sched) (hubs : List Nat) (own : Bool) : Sched :=
  { x with expelled := x.expelled ++ hubs.filter (fun h => !x.expelled.contains h), trigger := true,
           afterExpel := x.afterExpel || own }

theorem State.expel_of_mem {s : State} {h : Nat} {hubs : List Nat} (hmem : h ∈ hubs) (p : Nat) :
    s.expel p hubs = s.setSched p ((s.sched p).expellingAll hubs (hubs.contains s.myHub)) := if_neg (List.ne_nil_of_mem hmem)

theorem Sched.mem_expellingAll {h : Nat} {hubs : List Nat} (hmem : h ∈ hubs) (x : Sched) (own : Bool) :
    h ∈ (x.expellingAll hubs own).expelled := by
  by_cases hold : h ∈ x.expelled
  · exact List.mem_append_left _ hold
  · refine List.mem_append_right _ (List.mem_filter.mpr ⟨hmem, ?_⟩)
    simpa using hold

/-- With nothing launched and no chiplet, a schedule is discarded with its steps and messages alone. -/
theorem State.discardSteps_idle {s : State} (hlaunches : s.launches = []) (hcps : s.cps = []) (p : Nat) : ∃ cus engines fps,
    s.discardSteps p = { s.setSched p { s.sched p with running := [] } with
      fab := { s.fab with cus := cus }, engines := engines, fps := fps } := by
  simp only [State.discardSteps, State.setSched_launches, State.setSched_cps, hlaunches, hcps, List.filter_nil, List.map_nil,
    List.flatMap_nil, List.foldl_nil]
  exact ⟨_, _, _, rfl⟩

/-- A schedule that is rolled back at a beat. -/
def Sched.rolledBack (x : Sched) (beat : Nat) : Sched :=
  { x with state := 4, trigger := false, restart := none, reports := [], saving := none, voting := none, votes := [],
           rollbacks := if x.state = 4 then x.rollbacks else bump x.rollbacks 1, stoppedAt := if x.state = 4 then x.stoppedAt else beat }

/-- A trigger of a running schedule that has lost nothing beyond remedy discards its steps and stops it. -/
theorem exec_rollbackTrigger {s : State} {p : Nat} (hup : s.up = true) (hruns : (s.sched p).state = 3 ∨ (s.sched p).state = 5)
    (htrigger : (s.sched p).trigger = true) (hremedy : (s.sched p).noRemedy = false) (hlaunches : s.launches = [])
    (hcps : s.cps = []) : ∃ t, exec (.rollbackTrigger p) s = .next t ∧ s.OnlyJob t ∧
    t.sched p = Sched.rolledBack { s.sched p with running := [] } s.beat := by
  obtain ⟨cus, engines, fps, hdiscard⟩ := State.discardSteps_idle hlaunches hcps p
  have hgo : ¬((!((s.sched p).state == 3 || (s.sched p).state == 4 || (s.sched p).state == 5) ||
      !((s.sched p).trigger || (s.sched p).multi)) = true) := by
    obtain hstate | hstate := hruns
    · simp [hstate, htrigger]
    · simp [hstate, htrigger]
  have hsched : (s.discardSteps p).sched p = { s.sched p with running := [] } := by
    rw [hdiscard]
    exact s.sched_setSched p _
  have honly : s.OnlyJob (s.discardSteps p) := by
    rw [hdiscard]
    rfl
  have hbeat : (s.discardSteps p).beat = s.beat := by
    rw [hdiscard]
    rfl
  refine ⟨(s.discardSteps p).setSched p (((s.discardSteps p).sched p).rolledBack (s.discardSteps p).beat),
    congrArg Host.Outcome.next ((State.work_of_up hup _).trans ((if_neg hgo).trans (if_pos ?_))), honly.trans rfl, ?_⟩
  · rw [hsched]
    simp [hremedy]
  · rw [State.sched_setSched, hsched, hbeat]

/-- The only hub of a job reports its own log, and plans the restart. -/
theorem exec_rollbackReport_alone {s : State} {p : Nat} (hup : s.up = true) (hstate : (s.sched p).state = 4)
    (hleads : s.leads p = true) (hhubs : s.jobHubs p = [s.myHub]) (hcool : s.pw.emergency = false)
    (hreports : (s.sched p).reports = []) (n : Nat) : exec (.rollbackReport p s.myHub n) s =
      .next (State.planRestart (s.setSched p { s.sched p with reports := [(s.myHub, (s.sched p).logLive)] }) p) := by
  have hgo : ¬((s.sched p).state ≠ 4 ∨ s.leads p = false ∨ (!(s.jobHubs p).contains s.myHub) = true ∨
      (s.myHub == s.myHub) = true ∧ s.pw.emergency = true) := by
    simp [hstate, hleads, hhubs, hcool]
  refine congrArg Host.Outcome.next ((State.work_of_up hup _).trans ((if_neg hgo).trans ?_))
  simp only [beq_self_eq_true, if_true, hreports, List.filter_nil]
  refine if_pos ?_
  have hhubs' : (s.setSched p { s.sched p with reports := [(s.myHub, (s.sched p).logLive)] }).jobHubs p = [s.myHub] := by
    rw [← hhubs]
    simp only [State.jobHubs, State.sched_setSched]
  rw [hhubs', State.sched_setSched]
  simp

/-- In a thermal emergency this hub sends no report (R833). -/
theorem exec_rollbackReport_hot {s : State} (hhot : s.pw.emergency = true) (p n : Nat) :
    exec (.rollbackReport p s.myHub n) s = .next s :=
  congrArg Host.Outcome.next ((congrArg s.work (if_pos (Or.inr (Or.inr (Or.inr ⟨beq_self_eq_true _, hhot⟩))))).trans s.work_same)

theorem State.planRestart_some {s : State} {p a : Nat} (hremedy : (s.sched p).noRemedy = false) (hchoice : s.chooseAlt p = some a) :
    s.planRestart p = s.setSched p { s.sched p with restart := some (s.restartBeat p (s.sched p).reports), nextAlt := a } := by
  simp [State.planRestart, hchoice, hremedy]

/-! ### Restart (R649, R650, Table 13-14) -/

theorem State.restoreLogs_spec (s : State) (logs : List LogBlock) : ∃ mem hostMem,
    logs.foldl State.restoreLog s = { s with mem := mem, hostMem := hostMem } := by
  refine keeps_foldl (P := fun t : State => ∃ mem hostMem, t = { s with mem := mem, hostMem := hostMem })
    (fun t b ht => ?_) ⟨s.mem, s.hostMem, rfl⟩
  obtain ⟨mem, hostMem, rfl⟩ := ht
  unfold State.restoreLog
  split
  · exact ⟨_, _, rfl⟩
  · exact ⟨_, _, rfl⟩

/-- A schedule whose part resumes with a beat. -/
def Sched.resumed (x : Sched) (b : Nat) : Sched :=
  { x with state := if x.suspendAsked then 5 else 3, origin := b - x.afterBoundary x.epoch,
           replayTo := max x.replayTo (x.stoppedAt - x.origin),
           replayBeats := bump x.replayBeats (x.stoppedAt - (x.origin + x.afterBoundary x.epoch)), restart := none, reports := [],
           noRemedy := false }

/-- A part that resumes under the alternative in force restores its allotments and pins its engines. -/
theorem State.resumePart_here {s : State} {p : Nat} (halt : (s.sched p).nextAlt = (s.sched p).alt)
    (hentry : (s.myHubEntry (s.sched p).image (s.sched p).alt).isSome = true) (b : Nat) :
    s.OnlyJob (s.resumePart p b) ∧ (s.resumePart p b).sched p = (s.sched p).resumed b := by
  have hresume : s.resumePart p b = ((s.setSched p ((s.sched p).resumed b)).restoreAllots p).pinAll
      (((s.setSched p ((s.sched p).resumed b)).sched p).engines) (s.sched p).header.clockMhz := by
    have hnamed : (s.myHubEntry (s.sched p).image (s.sched p).nextAlt).isNone = false := by
      rw [halt]
      exact Option.isNone_eq_false_iff.mpr hentry
    simp only [State.resumePart, hnamed, if_pos halt, Bool.false_eq_true, if_false]
    rfl
  have hrestore := (s.setSched p ((s.sched p).resumed b)).restoreAllots_onlyEngines p
  have hall := hrestore.trans (State.pinAll_onlyEngines _ ((s.setSched p ((s.sched p).resumed b)).sched p).engines
    (s.sched p).header.clockMhz)
  rw [hresume]
  refine ⟨(s.setSched_onlyJob p _).trans hall.onlyJob, ?_⟩
  rw [hall.sched, State.sched_setSched]

/-- At its restart beat a part whose hub stays and is not to be suspended gets its memory back and resumes. -/
theorem exec_restartBeat_resumes {s : State} {p b : Nat} (hup : s.up = true) (hstate : (s.sched p).state = 4)
    (htrigger : (s.sched p).trigger = false) (hrestart : (s.sched p).restart = some b) (hdue : b ≤ s.beat)
    (hstays : (s.sched p).afterExpel = false) (hgoes : (s.sched p).afterSuspend = false) :
    exec (.restartBeat p) s = .next (State.resumePart (((s.sched p).logs.reverse.foldl State.restoreLog s).setSched p
      { s.sched p with logs := (s.sched p).logs.filter (fun l => l.epoch = (s.sched p).epoch), nextAlt := (s.sched p).nextAlt }) p b) := by
  have hgo : ¬((s.sched p).state ≠ 4 ∨ (s.sched p).trigger = true ∨ (!decide (b ≤ s.beat)) = true) := by
    simp [hstate, htrigger, hdue]
  refine congrArg Host.Outcome.next ((State.work_of_up hup _).trans ?_)
  simp only [hrestart]
  refine (if_neg hgo).trans ?_
  simp only [hstays, hgoes, Bool.false_eq_true, if_false, Option.isSome_some, if_true, Option.getD_some]

theorem State.restoreLog_mem {b : LogBlock} (hdev : b.host = false) (s : State) :
    (s.restoreLog b).mem = b.cells.foldl (fun m c => mwrite m c.1 c.2) (mzero s.mem b.base 65536) := by
  unfold State.restoreLog
  rw [if_neg (by simp [hdev])]

/-! ### The end (R640, R647) -/

theorem State.endEntry_setSched {s : State} {p : Nat} {x : Sched} (himage : x.image = (s.sched p).image)
    (halt : x.alt = (s.sched p).alt) : (s.setSched p x).endEntry p = s.endEntry p := by
  simp only [State.endEntry, State.sched_setSched, himage, halt]
  rfl

/-- Under alternative 0 no hub has been left out that would have to be told. -/
theorem State.signalOthers_first {s : State} {p : Nat} (halt : (s.sched p).alt = 0) : s.signalOthers p = s := by
  have hnone : ((imgHubs (s.sched p).image 0).filter fun h => !((imgHubs (s.sched p).image 0).map (·.hubId)).contains h.hubId &&
      s.reachable h.hubId && h.hubId != s.myHub) = [] := by
    refine List.filter_eq_nil_iff.mpr fun h hh => ?_
    have hnamed : ((imgHubs (s.sched p).image 0).map (·.hubId)).contains h.hubId = true :=
      List.contains_iff_mem.mpr (List.mem_map_of_mem hh)
    rw [hnamed]
    exact Bool.false_ne_true
  simp only [State.signalOthers, halt, hnone, List.foldl_nil]

/-- The schedule that has run its last pass to the end stops, and tells its END_FENCE. -/
theorem exec_scheduleEnd_last {s : State} {p : Nat} {h : ImgHub} (hup : s.up = true)
    (hruns : (s.sched p).state = 3 ∨ (s.sched p).state = 5) (hending : (s.sched p).ending = false)
    (hidle : (s.sched p).running = []) (hlast : s.lastDeadline p ≤ (s.sched p).epoch * (s.sched p).epochBeats)
    (hentry : s.endEntry p = some h) (hne : h.endFence ≠ 0) (halt : (s.sched p).alt = 0) : ∃ t,
    exec (.scheduleEnd p) s = .next t ∧
    State.OnlyStopped { s with fenceWire := s.fenceWire ++ [⟨h.endFence, 0⟩] } t ∧
    t.sched p = { ({ s.sched p with passes := (s.sched p).iterations } : Sched).stopped with state := 7 } := by
  generalize hx : ({ s.sched p with passes := (s.sched p).iterations } : Sched) = x
  have hentry' : (s.setSched p x).endEntry p = some h := by
    rw [State.endEntry_setSched (by rw [← hx]) (by rw [← hx]), hentry]
  generalize hu : ({ s.setSched p x with fenceWire := s.fenceWire ++ [⟨h.endFence, 0⟩] } : State) = u
  have hsignal : (s.setSched p x).signalEnd p 0 = u := (State.signalEnd_some hentry' hne 0).trans hu
  have hsched : u.sched p = x := by rw [← hu]; exact s.sched_setSched p x
  have hothers : u.signalOthers p = u := State.signalOthers_first (by rw [hsched, ← hx]; exact halt)
  obtain ⟨hstop, hstopped⟩ := u.schedStop_spec p
  have hcond : ¬((s.sched p).ending = true ∧ ((s.sched p).state = 3 ∨ (s.sched p).state = 4 ∨ (s.sched p).state = 5)) := by
    simp [hending]
  refine ⟨(u.schedStop p).setSched p { (u.schedStop p).sched p with state := 7 }, congrArg Host.Outcome.next
    ((State.work_of_up hup _).trans ((if_neg hcond).trans ((if_pos ⟨hruns, hidle, hlast⟩).trans ?_))), ?_, ?_⟩
  · simp only [hx, hsignal, hothers, ite_self]
  · have hset : State.OnlyStopped { s with fenceWire := s.fenceWire ++ [⟨h.endFence, 0⟩] } u := by
      rw [← hu]
      exact State.setSched_onlyStopped _ p x
    exact (hset.trans hstop).trans (State.setSched_onlyStopped _ p _)
  · rw [State.sched_setSched, hstopped, hsched]

/-- The schedule whose log was full ends without its steps, and tells its END_FENCE with BAD_COMMAND. -/
theorem exec_scheduleEnd_logFull {s : State} {p : Nat} {h : ImgHub} (hup : s.up = true) (hstate : (s.sched p).state = 3)
    (hending : (s.sched p).ending = true) (hlaunches : s.launches = []) (hcps : s.cps = []) (hentry : s.endEntry p = some h)
    (hne : h.endFence ≠ 0) : ∃ t, exec (.scheduleEnd p) s = .next t ∧ (t.sched p).state = 7 ∧
    t.fenceWire = s.fenceWire ++ [⟨h.endFence, 3⟩] ∧ t.mem = s.mem := by
  obtain ⟨cus, engines, fps, hdiscard⟩ := State.discardSteps_idle hlaunches hcps p
  have hentry' : (s.discardSteps p).endEntry p = some h := by
    rw [← hentry, hdiscard]
    exact State.endEntry_setSched (x := { s.sched p with running := [] }) rfl rfl
  have hsignal := State.signalEnd_some hentry' hne 3
  generalize hu : (s.discardSteps p).signalEnd p 3 = u at hsignal
  have hstop := (u.schedStop_spec p).1
  refine ⟨(u.schedStop p).setSched p { (u.schedStop p).sched p with state := 7, ending := false }, congrArg Host.Outcome.next
    ((State.work_of_up hup _).trans ((if_pos ⟨hending, Or.inl hstate⟩).trans ?_)), ?_, ?_, ?_⟩
  · rw [hu]
  · rw [State.sched_setSched]
  · refine hstop.fenceWire.trans ?_
    rw [hsignal, hdiscard]
    rfl
  · refine hstop.mem.trans ?_
    rw [hsignal, hdiscard]
    rfl

/-- Settles O57: each command is led to its row by an `exec_` lemma; `State.OnlyJob` and `State.OnlyStopped` bound what the
changes of a schedule reach, and `State.restoreLogs_spec` what its capture logs do. -/
theorem scheduleRuns : Obligations.ScheduleRuns := by
  unfold Obligations.ScheduleRuns
  refine ⟨?dispatch, ?listed, ?stepEnds, ?launchStep, ?xferStart, ?xferData, ?late, ?inTime, ?boundary, ?saved, ?agreed,
    ?committed, ?suspended, ?voteTimeout, ?rollback, ?report, ?hot, ?restart, ?logEmpty, ?logCell, ?lastPass, ?logFull⟩
  case dispatch =>
    intro s p k t hup hruns hstep hfresh
    have hexec := exec_beatStepDispatch hup hruns hstep hfresh
    refine ⟨fun hlive hcopy => ?_, fun hlive hcopy => ?_, fun hdead => ?_⟩
    · rw [hexec, if_neg (not_not.mpr hlive), if_pos hcopy]
    · rw [hexec, if_neg (not_not.mpr hlive), if_neg hcopy]
    · rw [hexec, if_pos hdead]
  case listed => exact fun s p k t => s.sched_stepRuns p k t
  case stepEnds =>
    intro s p k code r hrunning hstep hxfer hcode hfence
    rw [State.stepEnds_only hrunning hstep hxfer hcode hfence]
    exact ⟨congrArg Sched.running (s.sched_setSched p _), rfl, rfl⟩
  case launchStep =>
    intro s s1 s2 p k u t a b d h hread hstop hviol hcharge hlive hheader hok hreadC hstopC hviolC hchargeC hliveC hdesc
    exact State.launchStep_read hread hstop hviol hcharge hlive hheader hok hreadC hstopC hviolC hchargeC hliveC hdesc k
  case xferStart =>
    intro s p k t a hup hruns hxfer hkind hlive hone hlines hread hstop hviol
    exact exec_beatXferStart hup hruns hxfer hkind hlive hone hlines hread hstop hviol
  case xferData =>
    intro s u port p va m h hruns hva hline hlen hwrite
    have hfabric : u.OnlySent (if u.rerun p then u else u.chargeFabric m) := by
      split
      · exact .refl u
      · exact u.chargeFabric_onlySent m
    have hsent := hfabric.trans (State.jobCharge_onlySent _ p (s.sched p).ctx 64 0)
    exact ⟨_, exec_schedXferData_line h hruns hva hline hlen hwrite, hsent.mem, (congrArg State.hostMem hsent :),
      (congrArg State.engines hsent :), (congrArg State.units hsent :)⟩
  case late => exact fun s p r hup hruns hr hlate => exec_overrun_late hup hruns hr hlate
  case inTime => exact fun s p hrunning hsaving => exec_overrun_inTime hrunning hsaving
  case boundary => exact fun s p hup hruns hnew => exec_epochBoundary hup hruns hnew
  case saved => exact fun s p e hup hsaving => exec_saveWindowEnd hup hsaving
  case agreed => exact fun s p e hleads hhubs hvoting hvotes => State.leaderCheck_alone hleads hhubs hvoting hvotes
  case committed =>
    intro s p e hstate
    rw [State.commitBoundary_eq, if_neg (by omega)]
    rfl
  case suspended =>
    intro s p e hstate
    obtain ⟨hmem, hsched⟩ := (s.setSched p ((s.sched p).committed e)).schedSuspend_spec p
    rw [State.commitBoundary_eq, if_pos hstate, hsched, State.sched_setSched]
    exact ⟨rfl, rfl, hmem⟩
  case voteTimeout =>
    intro s p e h hup hvoting hleads hjob hnoVote
    obtain ⟨hubs, hmem, hexec⟩ := exec_voteWindowTimeout hup hvoting hleads hjob hnoVote
    refine ⟨_, hexec, ?_⟩
    rw [State.expel_of_mem hmem, State.sched_setSched]
    exact ⟨Sched.mem_expellingAll hmem _ _, rfl, rfl, rfl⟩
  case rollback =>
    intro s p hup hruns htrigger hremedy hlaunches hcps
    obtain ⟨t, hexec, honly, hsched⟩ := exec_rollbackTrigger hup hruns htrigger hremedy hlaunches hcps
    have hnot : ¬(s.sched p).state = 4 := by omega
    refine ⟨t, hexec, ?_⟩
    rw [hsched]
    exact ⟨rfl, rfl, if_neg hnot, if_neg hnot, rfl, rfl, honly.mem, honly.hostMem, honly.fenceWire, honly.units⟩
  case report =>
    intro s p a n hup hstate hleads hhubs hcool hreports hremedy hchoice
    refine ⟨_, (exec_rollbackReport_alone hup hstate hleads hhubs hcool hreports n).trans
      (congrArg Host.Outcome.next (State.planRestart_some ?_ hchoice)), ?_⟩
    · rw [State.sched_setSched]
      exact hremedy
    · rw [State.sched_setSched, State.sched_setSched]
      exact ⟨rfl, rfl, rfl⟩
  case hot => exact fun s p n hhot => exec_rollbackReport_hot hhot p n
  case restart =>
    intro s p b hup hstate htrigger hrestart hdue hstays hgoes halt hentry hask
    have hexec := exec_restartBeat_resumes hup hstate htrigger hrestart hdue hstays hgoes
    obtain ⟨mem, hostMem, hlogs⟩ := s.restoreLogs_spec (s.sched p).logs.reverse
    rw [hlogs] at hexec ⊢
    generalize hx : ({ s.sched p with
      logs := (s.sched p).logs.filter (fun l => l.epoch = (s.sched p).epoch), nextAlt := (s.sched p).nextAlt } : Sched) = x at hexec
    generalize hu : State.setSched { s with mem := mem, hostMem := hostMem } p x = u at hexec
    have hsched : u.sched p = x := by rw [← hu]; exact State.sched_setSched _ p x
    obtain ⟨honly, hresumed⟩ := State.resumePart_here (s := u) (p := p) (by rw [hsched, ← hx]; exact halt)
      (by rw [hsched, ← hx, ← hu]; exact hentry) b
    refine ⟨_, hexec, ?_⟩
    rw [hresumed, hsched, honly.mem, honly.hostMem, honly.fenceWire, ← hu, ← hx]
    exact ⟨if_neg (by simp [hask]), rfl, rfl, rfl, rfl, rfl⟩
  case logEmpty =>
    intro s b a hdev hcells
    rw [State.restoreLog_mem hdev, hcells]
    exact mread_mzero s.mem b.base 65536 a
  case logCell =>
    intro s b a v hdev hcells
    rw [State.restoreLog_mem hdev, hcells]
    exact mread_mwrite _ a v
  case lastPass =>
    intro s p h hup hruns hending hidle hlast hentry hne halt
    obtain ⟨t, hexec, honly, hsched⟩ := exec_scheduleEnd_last hup hruns hending hidle hlast hentry hne halt
    refine ⟨t, hexec, ?_⟩
    rw [hsched]
    exact ⟨rfl, rfl, honly.fenceWire, honly.mem⟩
  case logFull =>
    exact fun s p h hup hstate hending hlaunches hcps hentry hne => exec_scheduleEnd_logFull hup hstate hending hlaunches hcps hentry hne

end Sys2Proof.Machine
end
